-- ==== Sys2Proof/Word.lean ====
section
/-! DEFINITION. The plain data that every layer shares: bytes, 128-byte lines, sparse tables and exact numbers. -/

namespace Sys2Proof

/-- A byte of memory or of a message. -/
abbrev Byte := BitVec 8

/-- A 128-byte line as one little-endian number: byte i is bits [8i+7:8i] (R5). -/
abbrev Line := BitVec 1024

/-- A sparse table keyed by number: entries with strictly rising keys; an unlisted key holds the table's default. -/
structure Tab (α : Type) where
  cells : List (Nat × α)
deriving DecidableEq, Repr

/-- An exact number as the arithmetic units see it: NaN, a signed infinity, or ± m · 2^e (R26). -/
inductive FNum where
  | nan
  | inf (neg : Bool)
  | fin (neg : Bool) (m : Nat) (e : Int)
deriving DecidableEq, Repr

/-- A running value of an accumulator, and whether its initial value and every addend so far were −0 (R34). -/
structure Accum where
  val : FNum
  negZero : Bool
deriving DecidableEq, Repr

end Sys2Proof
end

