-- ==== Sys2Proof/Syntax.lean ====
section
/-! DEFINITION. The commands: one constructor for every row of spec/opcode_table.json, with the data its rule names. -/

namespace Sys2Proof

/-- Who executes an Urtex instruction: Medlar core 0–191 (R203) or the group with this number (R141). -/
inductive Agent where
  | medlar (core : Nat)
  | group (g : Nat)
deriving DecidableEq, Repr

/-- A firmware image as its source delivers it: the 4,096 header bytes as one little-endian number (R416), and the payload. -/
structure Image where
  header : Nat
  payload : List Byte
deriving DecidableEq, Repr

/-- How a remote access fails (R282). -/
inductive RemoteFail where
  | frontendGone
  | remoteAbandoned
  | peerRefused
deriving DecidableEq, Repr

/-- What a remote read of a unit returned. -/
inductive RemoteRead where
  | data (bytes : List Byte)
  /-- Read from poisoned lines at the peer (R227, R246). -/
  | poisoned
  | failed (f : RemoteFail)
deriving DecidableEq, Repr

/-- The kind of an arriving peer transaction (R357). -/
inductive PeerKind where
  | read
  | write
  | reduce (op : Nat) (fmt : Nat)
deriving DecidableEq, Repr

/-- An arriving Torgear transport transaction (R280, R357): its 24-bit sequence number, the source domain it carries,
the physical offset, its length, for a write or reduce-write its bytes, and for one that a Device-strict access produced
the sequence number of the Device-strict one before it on its connection. -/
structure PeerReq where
  seqNo : Nat
  after : Option Nat
  domain : Nat
  kind : PeerKind
  offset : Nat
  len : Nat
  bytes : List Byte
deriving DecidableEq, Repr

/-- How a training ends (R344): up at a rate and speed with a neighbour, or down. -/
structure TrainResult where
  up : Bool
  rate : Nat
  speed : Nat
  neighbour : Nat
  /-- The credits that the other end of a Direct port grants on VC0–VC3 (R348). -/
  credits : List Nat
deriving DecidableEq, Repr

/-- What the header of a flit says of the other direction (R348): flits below ack have been received, whether a replay is
asked for, and the credits given back on VC0–VC3. -/
structure FlitHeader where
  ack : Nat
  replay : Bool
  credits : List Nat
deriving DecidableEq, Repr

/-- What a RoCEv2 response is (R352). -/
inductive RoceKind where
  | ack
  | nakSequence
  | nakRemoteError
  | readResponse
deriving DecidableEq, Repr

/-- The parameters of a collective that a parameter message carries (R361, R362). -/
structure CollParams where
  collId : Nat
  op : Nat
  elemType : Nat
  redOp : Nat
  count : Nat
  root : Nat
  listDigest : Nat
  domain : Nat
deriving DecidableEq, Repr

/-- A collective's data message (R130, R357, R364): the sequence number of its transaction, the rank whose contribution it
is, the first byte of the block it belongs to within the result, and its bytes: those from `skip` on in the block, or in
sparse mode from `skip` on in its chunk of Table 13, which is the block's chunk `index`, of `size` bytes. `reduce` tells a
contribution to be reduced from a block to be written. Bit i of `poison` marks byte i as read from a poisoned line (R367). -/
structure Chunk where
  seqNo : Nat
  origin : Nat
  domain : Nat
  reduce : Bool
  offset : Nat
  index : Nat
  skip : Nat
  size : Nat
  bytes : List Byte
  poison : Nat
deriving DecidableEq, Repr

/-- The energy of each rail over a window in µJ, and the rails' AVSBus readbacks in mV (R372, R457). -/
structure RailEnergy where
  ash : List Nat
  hbm : Nat
  med : List Nat
  row : Nat
  railMv : List Nat
deriving DecidableEq, Repr

/-- Where an HDP request came from (R405): a UDP source on the management port, or a connection context. -/
inductive HdpPath where
  | mgmt (addr : Nat) (port : Nat)
  | conn (c : Nat)
deriving DecidableEq, Repr

/-- What an IEEE 1588 message tells the slave clock (R442): the master's timestamp, the local timestamp taken at the
PHY (for a Delay_Resp that of the Delay_Req it answers), the grandmaster's identity, its domain, and whether a Follow_Up
will come. -/
structure PtpMsg where
  origin : Nat
  local_ : Nat
  gmId : Nat
  domain : Nat
  twoStep : Bool
deriving DecidableEq, Repr

/-- The commands of the block, in the order of spec/opcode_table.json. -/
inductive Instr where
  /-- POWER_UP (R462): Board supply rails rise in the required order while RESET_N is held low. -/
  | powerUp (strapPins absentClocks : Nat)
  /-- RESET_RELEASE (R462): RESET_N rises, Rowan leaves reset, and step 1 of the boot sequence begins. -/
  | resetRelease
  /-- RESET_ASSERT (R463): RESET_N falls; every block stops within 1,000 ns, and dirty data and work in flight are lost. -/
  | resetAssert
  /-- POWER_REMOVAL (R386): The main rails are removed; nothing runs and only fuse-backed and CONST state survives. -/
  | powerRemoval
  /-- REFCLK_LOSS (R459): A reference clock stops, losing the affected stacks' data or taking the affected ports DOWN, and CLOCK_STATUS reports it. -/
  | refclkLoss (clk : Nat)
  /-- STAGE_LOADER_LOAD (R411): The boot ROM finishes fetching the stage loader from the strap-selected source. -/
  | stageLoaderLoad (slotA slotB peer : Option Image)
  /-- PEER_BOOT_TIMEOUT (R415): No answer from the LP0 neighbour arrives within 100,000,000 ns, which counts as no valid stage loader. -/
  | peerBootTimeout
  /-- PEER_BOOT_REQUEST (R415): A neighbour asks for this device's image set, which is served only while BOOT_SERVE is 1. -/
  | peerBootRequest (lport : Nat)
  /-- BOOT_LOAD_DATA (R414): A commit copies 4,096 staged bytes into the boot buffer at BOOT_LOAD_OFFSET. -/
  | bootLoadData (src : Nat) (bytes : List Byte)
  /-- BOOT_LOAD_GO (R414): A write of the loaded length starts verification of the image in the boot buffer. -/
  | bootLoadGo (src len : Nat)
  /-- SETT_SELF_TEST (R12): The Sett link self-test completes and writes SETT_FAIL_MAP, DIES_HELD and PACKAGE_STATE. -/
  | settSelfTest (failed : Nat)
  /-- CONFIG_APPLY (R421): The stage loader applies the CONFIG records in order as firmware dictionary writes. -/
  | configApply (slotA slotB : Option Image)
  /-- HBM_TRAINING (R250): Each stack completes training at the highest passing rate, or the package becomes DEFECT. -/
  | hbmTraining (best : List Nat)
  /-- IMAGE_LOAD (R424): WEIGH, LINK and RUNTIME are loaded and verified, the manifests are checked and FW_OVERRIDE is examined.
  bases: where the stage loader puts the three payloads. -/
  | imageLoad (slotA slotB : List Image) (bases : List Nat)
  /-- RUNTIME_START (R422): TABLE_LOAD installs context 0 and each in-service Medlar core starts the runtime. -/
  | runtimeStart (fwPage winPage bootInfo : Nat)
  /-- BOOT_DONE (R423): The locks named in BOOT_LOCKS are set, PACKAGE_STATE becomes READY or RESTRICTED, and BOOT_DONE is raised. -/
  | bootDone
  /-- SETT_STALL (R14): A Sett link direction completes no code word for SETT_STALL_NS; the map bit is set and the event is raised once. -/
  | settStall (link : Nat) (rev : Bool) (since : Nat)
  /-- BEAT_RATE_UPDATE (R18): Every 10,000 ns each die's beat-rate counter is updated from its replica pipeline. -/
  | beatRateUpdate (rates : List Nat)
  /-- FACE_OP (R69): A FACE_OP command is staged and its descriptor is checked. -/
  | faceOp (q seq face : Nat)
  /-- FACE_OP_START (R85): A staged FACE_OP leaves its staging slot and begins fetching and feeding the array. -/
  | faceOpStart (die : Nat)
  /-- TILE_COMMIT (R83): The Bench acknowledges every write of a drained tile, and the tile is committed. -/
  | tileCommit (die : Nat) (order : List Nat)
  /-- FACE_SWITCH_OUT (R89): A faulting FACE_OP saves its state into a Face save slot, which it may wait for, and a fault record is written. -/
  | faceSwitchOut (die : Nat)
  /-- FACE_OP_COMPLETE (R88): A FACE_OP completes with the first applicable status. -/
  | faceOpComplete (die : Nat)
  /-- FACE_LFSR_SEED (R49): A seed write is loaded into the Face's LFSR at the next FACE_OP start. -/
  | faceLfsrSeed (src die seed : Nat)
  /-- BRAMBLE_ROUTE (R118): A route ranks, weighs and admits assignments, then writes the expert array, lists and summary. -/
  | brambleRoute (q seq : Nat)
  /-- BRAMBLE_GATHER (R121): The Haul engines finish gathering an expert's token rows into the dispatch rows. -/
  | brambleGather (die : Nat)
  /-- BRAMBLE_ISSUE (R122): Bramble offers a non-empty expert's FACE_OP, built from its template, to the chosen weigh station. -/
  | brambleIssue (die : Nat)
  /-- ROUTE_COMPLETE (R123): The route completes when its last FACE_OP completes, and writes its status bytes. -/
  | routeComplete (q seq : Nat)
  /-- BRAMBLE_COMBINE (R128): A combine scatter-adds the weighted expert outputs into the token rows as reduce-writes. -/
  | brambleCombine (q seq : Nat) (order : List Nat)
  /-- GROUP_LAUNCH (R137): A GROUP_LAUNCH is staged, checked and takes its pending slots. -/
  | groupLaunch (q seq : Nat)
  /-- GROUP_START (R141): A die's dispatcher draws the next group index and starts it on a core that has room. -/
  | groupStart (die core : Nat)
  /-- GROUP_SWITCH_OUT (R162): A faulted group is saved into a save slot, which it may wait for, and its resources are freed. -/
  | groupSwitchOut (g : Nat)
  /-- GROUP_RESUME (R163): A resumed group restarts on a core with room, at the faulting instruction. -/
  | groupResume (g core : Nat)
  /-- LAUNCH_COMPLETE (R164): The launch completes once all its groups have ended, their writes are acknowledged and the L1s are invalidated. -/
  | launchComplete (q seq : Nat)
  /-- INT (R177): An integer register operation is executed, selected by OP and element width. -/
  | int (who : Agent) (w : Nat)
  /-- INTI (R176): An integer operation with a sign-extended immediate is executed. -/
  | inti (who : Agent) (w : Nat)
  /-- MOVE (R176): A move, broadcast, extract, insert, shuffle, lane-mask, ballot, predicate move or LI/LIH is executed. -/
  | move (who : Agent) (w : Nat)
  /-- PRED (R176): A predicate compare or predicate logic operation is executed in the active lanes. -/
  | pred (who : Agent) (w : Nat)
  /-- FP (R178): An IEEE 754 floating-point operation is executed and FPFLAGS is updated. -/
  | fp (who : Agent) (w : Nat)
  /-- FCVT (R178): A floating-point or integer conversion is executed. -/
  | fcvt (who : Agent) (w : Nat)
  /-- LD (R181): A load is translated and issued under its load kind. -/
  | ld (who : Agent) (w : Nat)
  /-- ST (R154): A store is translated and written through, or entered into the Medlar store buffer. -/
  | st (who : Agent) (w : Nat)
  /-- AMO (R184): An atomic with return is sent to the home Bench, combined across the group's lanes. -/
  | amo (who : Agent) (w : Nat)
  /-- CAS (R185): A compare-and-swap atomic stores its new value only when the value seen equals the expected value. -/
  | cas (who : Agent) (w : Nat)
  /-- RED (R184): A reduce-write is sent to the home Bench and writes no register. -/
  | red (who : Agent) (w : Nat)
  /-- LOCAL (R186): A group loads or stores its local store. -/
  | localAccess (who : Agent) (w : Nat)
  /-- BR (R187): A uniform or divergent conditional branch is evaluated, possibly pushing the reconvergence stack. -/
  | br (who : Agent) (w : Nat)
  /-- JAL (R189): A direct jump writes the link address and jumps. -/
  | jal (who : Agent) (w : Nat)
  /-- JALR (R189): A register-indirect jump writes the link address and jumps. -/
  | jalr (who : Agent) (w : Nat)
  /-- BRX (R189): A per-lane indirect branch with a reconvergence address is executed. -/
  | brx (who : Agent) (w : Nat)
  /-- FENCE_SL (R190): The Medlar store buffer drains before any later load is performed. -/
  | fenceSl (who : Agent) (w : Nat)
  /-- FENCE_WC (R190): Earlier combining writes reach their targets before later accesses issue. -/
  | fenceWc (who : Agent) (w : Nat)
  /-- FENCE_I (R190): The core's fetch buffers are discarded so that later fetches see its earlier stores. -/
  | fenceI (who : Agent) (w : Nat)
  /-- FENCE_REL (R157): The group waits for acknowledgement of its earlier stores and atomics. -/
  | fenceRel (who : Agent) (w : Nat)
  /-- FENCE_ACQ (R157): The group waits for its earlier loads, then invalidates the core's L1. -/
  | fenceAcq (who : Agent) (w : Nat)
  /-- FENCE_SYS (R191): The core or group begins waiting for final acknowledgement or abandonment of its earlier writes. -/
  | fenceSys (who : Agent) (w : Nat)
  /-- FENCE_SYS_RESOLVE (R191): Every earlier write is resolved, and FENCE.SYS writes its status to D. -/
  | fenceSysResolve (who : Agent)
  /-- MXBEGIN (R147): A matrix region opens when all 32 lanes are active. -/
  | mxbegin (who : Agent) (w : Nat)
  /-- MXEND (R147): The matrix region closes. -/
  | mxend (who : Agent) (w : Nat)
  /-- MMA (R150): A group-wide matrix multiply-accumulate issues to the core's matrix unit. -/
  | mma (who : Agent) (w : Nat)
  /-- NOP_INSTRUCTION (R194): The SYS NOP instruction does nothing. -/
  | nopInstruction (who : Agent) (w : Nat)
  /-- END (R201): The group ends, and its registers and local store are freed. -/
  | endGroup (who : Agent) (w : Nat)
  /-- TRET (R196): The Medlar core returns from a trap, restoring MODE and continuing at TRAP_PC. -/
  | tret (who : Agent) (w : Nat)
  /-- TRAP (R194): A software trap with cause SOFTWARE is raised. -/
  | trap (who : Agent) (w : Nat)
  /-- CRR (R195): A control register is read into D. -/
  | crr (who : Agent) (w : Nat)
  /-- CRW (R195): A control register is written, subject to mode. -/
  | crw (who : Agent) (w : Nat)
  /-- IMPRECISE_REPORT (R199): A refusal of a write that has left the core arrives and is reported imprecisely. -/
  | impreciseReport (req : Nat)
  /-- LOAD_RETURN (R153): Load data returns from the L1, Bench or network to the requesting core or group. -/
  | loadReturn (req : Nat)
  /-- WRITE_ACK (R154): The home Bench, or the final target, acknowledges a store, atomic or reduce-write. -/
  | writeAck (req : Nat)
  /-- STORE_BUFFER_DRAIN (R208): The oldest store-buffer entry is written into the L1D, or sent to its home. -/
  | storeBufferDrain (core : Nat)
  /-- PREFETCH (R206): The Medlar hardware prefetcher requests a Normal-cached line within the triggering segment. -/
  | prefetch (core va : Nat)
  /-- READ_SHARED (R223): The home serves a core's ReadShared from the Bench, the Speaker or HBM, and names the Speaker. -/
  | readShared (core line : Nat)
  /-- READ_OWN (R222): The home serves a core's request for the line with the right to write. -/
  | readOwn (core line : Nat)
  /-- UPGRADE (R225): The home grants write permission to a core that holds the line in S or K. -/
  | upgrade (core line : Nat)
  /-- WRITE_BACK (R222): The home receives dirty data from an evicting core. -/
  | writeBack (core line : Nat)
  /-- CLEAN_EVICT (R222): The home records a core's eviction of a clean line. -/
  | cleanEvict (core line : Nat)
  /-- SNP_SHARED (R222): A core answers SnpShared with data and goes to S, after any hold window. -/
  | snpShared (core line : Nat)
  /-- SNP_OWN (R222): A core answers SnpOwn and gives up the line. -/
  | snpOwn (core line : Nat)
  /-- SNP_CLEAN (R222): A core returns dirty data and keeps the line. -/
  | snpClean (core line : Nat)
  /-- SNP_INVAL (R222): A core gives up the line, returning any dirty data. -/
  | snpInval (core line : Nat)
  /-- SNOOP_RESPONSE (R222): The home receives a snoop's data or acknowledgement and completes the transaction. -/
  | snoopResponse (core line : Nat)
  /-- LINE_ARRIVAL (R228): A line arrives at a core, which performs its access and starts the hold window. -/
  | lineArrival (core line : Nat)
  /-- HOLD_WINDOW_EXPIRY (R228): HOLD_NS elapses, and any snoop waiting at the core is answered. -/
  | holdWindowExpiry (core line : Nat)
  /-- BENCH_READ (R238): A read reaches its home sub-slice and passes the generation, domain and zero-map checks, then hits or allocates a miss tag. -/
  | benchRead (req : Nat)
  /-- BENCH_WRITE (R240): A full or partial write is performed at its home Bench. -/
  | benchWrite (req : Nat)
  /-- BENCH_ATOMIC (R245): An atomic with return is granted and executed at its home sub-slice. -/
  | benchAtomic (req : Nat)
  /-- BENCH_REDUCE_WRITE (R244): A single-element or line-wide reduce-write is applied at the home under its byte mask. -/
  | benchReduceWrite (req : Nat)
  /-- BENCH_FILL (R241): A fill codeword returns from the controller, is decoded and forwarded, and the line is installed. -/
  | benchFill (line : Nat) (inner : Nat)
  /-- HBM_SCHEDULE (R252): A pseudo-channel scheduler serves its next request by priority or regulated-mode rules. -/
  | hbmSchedule (pc pick : Nat)
  /-- WCB_HOLD_EXPIRY (R248): A write-combining entry held for WCB_HOLD_NS departs, whole or by read-modify-write. -/
  | wcbHoldExpiry (ctl line : Nat)
  /-- BW_WINDOW_END (R253): At the end of a BW_WINDOW_NS window, the controller enters or leaves regulated mode. -/
  | bwWindowEnd (ctl : Nat)
  /-- REFRESH (R255): The controller refreshes the next bank at the current refresh rate. -/
  | refresh (stack : Nat)
  /-- STACK_TEMP_READ (R255): Every 100,000 ns, the stack temperature is read and the refresh rate set, raising STACK_HOT above 105 °C. -/
  | stackTempRead (stack : Nat) (temp : Int)
  /-- SCRUB_READ (R261): The patrol reads the next line, corrects or escalates errors. -/
  | scrubRead (stack : Nat) (inner : Nat)
  /-- LOCAL_GIB (R234): A write of the Local capacity is accepted only before the first TABLE_LOAD. -/
  | localGib (src v : Nat)
  /-- TABLE_LOAD (R273): A write installs the context and segment tables, checking segments and discarding translation caches. -/
  | tableLoad (src v : Nat)
  /-- TABLE_LOAD_COMPLETE (R273): The load completes after its drain, and TABLE_LOAD_STATUS is written. -/
  | tableLoadComplete
  /-- TABLE_BASE_WRITE (R274): A write of CTX_TABLE_BASE or SEG_TABLE_BASE is accepted only with no queue open and the lock clear. -/
  | tableBaseWrite (src sub v : Nat)
  /-- CLAIM_ASSIGN (R277): A write retags a claim at each home, first erasing it when ERASE is set. -/
  | claimAssign (src v : Nat)
  /-- CLAIM_ERASE_DONE (R277): The erase of a claim finishes, the new tag is applied and CLAIM_ASSIGN_BUSY falls. -/
  | claimEraseDone
  /-- PEER_REQUEST (R280): An arriving peer request is checked against its import entry and performed or refused. -/
  | peerRequest (conn : Nat) (p : PeerReq)
  /-- FE_INBOUND_RDMA (R285): An inbound RDMA read, write or atomic is answered with a remote access error and counted. -/
  | feInboundRdma (conn : Nat)
  /-- SEG_UPDATE (R288): A SEG_UPDATE is checked, granted by the translation controller and written with a raised GEN. -/
  | segUpdate (q seq : Nat)
  /-- SEG_UPDATE_GRANT (R290): A checking point's arbiter grants the update, after which old-GEN requests are refused there. -/
  | segUpdateGrant (q seq point : Nat)
  /-- REQUEST_RETRANSLATE (R290): A refused old-GEN request returns, and the requester retranslates and reissues it. -/
  | requestRetranslate (req : Nat)
  /-- SEG_UPDATE_COMPLETE (R291): The update completes once no old-GEN request remains and any materialisation is done. -/
  | segUpdateComplete (q seq : Nat)
  /-- QUEUE_OPEN (R298): A write of 1 to Q_STATE opens a CLOSED queue after checking its configuration. -/
  | queueOpen (src q : Nat)
  /-- QUEUE_CLOSE (R300): A write of 0 to Q_STATE ends fetching and aborts every started command. -/
  | queueClose (src q : Nat)
  /-- QUEUE_CLOSE_DONE (R300): The last started command of a CLOSING queue resolves, and the queue reaches CLOSED. -/
  | queueCloseDone (q : Nat)
  /-- DOORBELL (R307): A 16-byte doorbell send is checked and updates the queue's TAIL and CPL_HEAD. -/
  | doorbell (conn payload : Nat)
  /-- Q_DOORBELL (R306): A window write of a new TAIL rings a device-memory queue. -/
  | qDoorbell (src q v : Nat)
  /-- Q_CPL_HEAD (R306): A window write returns completion slots of a device-memory queue. -/
  | qCplHead (src q v : Nat)
  /-- SEND_DISCARD (R469): An inbound send that is neither a doorbell nor an accepted HDP request is discarded and counted. -/
  | sendDiscard (conn len : Nat)
  /-- ROCE_PACKET_DISCARD (R469): A packet for an unused or errored connection context is discarded and counted. -/
  | rocePacketDiscard (conn : Nat)
  /-- COMMAND_FETCH (R308): The queue engine fetches up to 16 commands from a queue's ring in rotation. -/
  | commandFetch (q : Nat)
  /-- SEQ_REREAD (R304): 1,000 ns after a SEQ mismatch the slot is reread, and the queue stops if it still differs. -/
  | seqReread (q : Nat)
  /-- COMMAND_START (R310): The next fetched command is handed to its unit in ring order once fences and WAITs allow. -/
  | commandStart (q : Nat)
  /-- COMPLETION_RECORD_WRITE (R324): A completion record is written to the completion ring when a slot is free. -/
  | completionRecordWrite (q : Nat)
  /-- FENCE (R311): The FENCE command completes when it starts, reporting remote failures of its interval. -/
  | fence (q seq : Nat)
  /-- SIGNAL (R318): A SIGNAL writes or atomically adds its flag value, optionally raising SIGNAL_RAISED. -/
  | signal (q seq : Nat)
  /-- WAIT (R318): A WAIT tests its masked location and holds later commands until the condition holds. -/
  | wait (q seq : Nat)
  /-- WAIT_POLL (R318): Every WAIT_POLL_NS, a WAIT on a PEER or FRONTEND location rereads and retests it. -/
  | waitPoll (q seq : Nat)
  /-- ABORT (R319): An ABORT removes or stops its target command, or reports ABORT_LATE. -/
  | abort (q seq : Nat)
  /-- INLINE_WRITE (R318): Up to 192 payload bytes are written to the destination. -/
  | inlineWrite (q seq : Nat)
  /-- SHOT (R437): A SHOT command fires the Shotline with its SHOT_TAG. -/
  | shot (q seq : Nat)
  /-- NOP (R302): The NOP command completes without effect. -/
  | nop (q seq : Nat)
  /-- HAUL_COPY (R320): A copy is staged, checked and cut into 64 KiB pieces for the chosen engines. -/
  | haulCopy (q seq : Nat)
  /-- HAUL_FILL (R320): A fill of a repeated pattern is staged, checked and cut into pieces. -/
  | haulFill (q seq : Nat)
  /-- HAUL_PIECE (R321): A Haul engine takes its next piece and moves its bytes. -/
  | haulPiece (unit engine : Nat)
  /-- HAUL_COMPLETE (R322): The last piece's writes are acknowledged, and the Haul command completes. -/
  | haulComplete (q seq : Nat)
  /-- TASK_SWITCH_OUT (R327): A faulting Haul piece, Bramble command or collective is saved into its unit's save slot. -/
  | taskSwitchOut (kind unit index : Nat)
  /-- FAULT_Q_HEAD (R329): Advancing the fault-queue head frees slots, and parked records are written in order. -/
  | faultQHead (src v : Nat)
  /-- FAULT_RESUME (R331): FAULT_RESOLVE with ACTION 0 makes a switched-out task runnable again. -/
  | faultResume (src handle : Nat)
  /-- FAULT_END (R331): FAULT_RESOLVE with ACTION 1 ends a switched-out task with its cause's status. -/
  | faultEnd (src handle : Nat)
  /-- PORT_RETRAIN (R344): A write starts training of a port under its PORT_CFG. -/
  | portRetrain (src port v : Nat)
  /-- PORT_TRAINING_DONE (R344): Training ends in UP, DOWN or CONFIG_INVALID, raising LINK_UP or LINK_DOWN. -/
  | portTrainingDone (lport : Nat) (r : TrainResult)
  /-- PORT_RETRY (R345): Every 1,000,000,000 ns a DOWN port with a non-zero MODE begins a new training. -/
  | portRetry (lport : Nat)
  /-- LANE_LOCK_LOSS (R349): A Direct lane loses lock, and the port retrains at its current rate. -/
  | laneLockLoss (lport : Nat)
  /-- RETRAIN_TIMEOUT (R349): A retrain that has not reached UP within 500,000,000 ns puts the port DOWN. -/
  | retrainTimeout (lport : Nat)
  /-- FLIT_RECEIVE (R348): A Direct-mode flit is received, checked, and delivered or replay-requested. -/
  | flitReceive (lport flitSeq : Nat) (crcOk : Bool) (fec : Nat) (h : FlitHeader)
  /-- PFC_PAUSE (R351): A priority flow control frame pauses or resumes a priority on the port. -/
  | pfcPause (lport prio : Nat) (pause : Bool)
  /-- TRANSIT_PACKET (R354): A packet for another NODE is forwarded by the routing table or discarded. -/
  | transitPacket (lport dest hops vc : Nat)
  /-- ROUTE_WRITE (R353): A routing entry is written for one destination NODE. -/
  | routeWrite (src v : Nat)
  /-- CONN_WRITE (R356): A connection record is checked and installed, beginning a new epoch or releasing the context. -/
  | connWrite (src record : Nat)
  /-- ABANDONED_CLEAR (R358): A write clears one NODE's bit in ABANDONED_NODES. -/
  | abandonedClear (src v : Nat)
  /-- TRANSPORT_ACK (R357): A target's acknowledgement of a Torgear transport transaction arrives. -/
  | transportAck (txn : Nat) (refused poison : Bool) (data : List Byte)
  /-- TRANSPORT_RESEND (R357): A transaction unacknowledged for 20,000 ns is resent over a usable next hop. -/
  | transportResend (txn : Nat)
  /-- LINK_TIMEOUT (R358): A PEER transaction unacknowledged for LINK_TIMEOUT_NS is abandoned and PEER_ABANDONED is raised. -/
  | linkTimeout (txn : Nat)
  /-- ROCE_RESPONSE (R352): A RoCEv2 acknowledgement, negative acknowledgement or read response arrives. -/
  | roceResponse (conn : Nat) (kind : RoceKind) (psn : Nat) (data : List Byte)
  /-- ROCE_ACK_TIMEOUT (R352): ACK_TIMEOUT expires, and packets are retransmitted go-back-N, or the connection errors after RETRY_CNT. -/
  | roceAckTimeout (conn : Nat)
  /-- ECN_MARKED_PACKET (R352): An ECN-marked packet arrives, and a congestion notification is sent. -/
  | ecnMarkedPacket (conn : Nat)
  /-- CNP_RECEIVE (R352): A congestion notification packet arrives, and the connection's send rate is halved. -/
  | cnpReceive (conn : Nat)
  /-- RATE_INCREASE (R352): After 50,000 ns without a notification, the send rate rises by 5 % of the port rate. -/
  | rateIncrease (conn : Nat)
  /-- PRESS_COLLECTIVE (R364): A collective is staged, copies its own contribution into RECV and sends parameter messages. -/
  | pressCollective (q seq : Nat)
  /-- PRESS_PARAMETER_MESSAGE (R362): A peer's parameter message is checked, and a ready message or an abort notice follows. -/
  | pressParameterMessage (conn seqNo : Nat) (m : CollParams)
  /-- PRESS_READY_MESSAGE (R362): A peer's ready message arrives, allowing data to be sent to it. -/
  | pressReadyMessage (conn seqNo domain collId : Nat)
  /-- PRESS_ABORT_NOTICE (R362): An abort notice arrives, and the collective completes REMOTE_ABANDONED. -/
  | pressAbortNotice (conn seqNo domain collId : Nat)
  /-- PRESS_CHUNK (R131): A dense or sparse collective chunk arrives and is applied as reduce-writes or writes. -/
  | pressChunk (conn collId : Nat) (ch : Chunk)
  /-- PRESS_DATA_TIMEOUT (R367): No needed data from a peer for LINK_TIMEOUT_NS ends the collective REMOTE_ABANDONED. -/
  | pressDataTimeout (q seq rank : Nat)
  /-- COLLECTIVE_COMPLETE (R368): The collective's last writes are acknowledged, and it completes. -/
  | collectiveComplete (q seq : Nat)
  /-- WINDOW_START (R377): Every 100,000 ns, the Weighbridge computes the budget, refills the stations and sets ceilings and points. -/
  | windowStart (e : RailEnergy)
  /-- AVS_TIMEOUT (R457): A regulator that does not acknowledge within 100,000 ns is counted, and the write is repeated. -/
  | avsTimeout (rail : Nat)
  /-- WEIGH_STATION_START (R380): A weigh station chooses and starts the next runnable FACE_OP or group that fits, or reserves. -/
  | weighStationStart (die : Nat)
  /-- THERMAL_SENSOR_READ (R383): Every 10,000 ns, the dies read their sensors and headroom is updated. -/
  | thermalSensorRead (die : Nat) (hottest : Int)
  /-- ENVELOPE_MAX_W (R371): A write sets the maximum envelope, also lowering ENVELOPE_W if needed. -/
  | envelopeMaxW (src v : Nat)
  /-- DICT_WRITE (R391): A write to an entry with no behaviour of its own is accepted or refused. -/
  | dictWrite (src key v : Nat)
  /-- HDP_REQUEST (R401): An HDP request is checked whole and its operations run in one arbiter grant, or a kept reply is resent. -/
  | hdpRequest (path : HdpPath) (msg : List Byte)
  /-- EVENT_SEND (R404): An EVENT message of up to 32 records is sent to a subscriber, at most once per 10,000 ns. -/
  | eventSend (sub : Nat)
  /-- WINDOW_SLOT_STORE (R395): A Medlar store to a dictionary slot writes a scalar entry or commits a staged STR or BLOB value. -/
  | windowSlotStore (core : Nat)
  /-- BLOB_APERTURE_STORE (R396): A store into the blob aperture writes bytes into an entry's staging buffer. -/
  | blobApertureStore (core : Nat)
  /-- LOCK_SET (R408): A write of 1 sets a lock bit, freezing its group's entries until reset. -/
  | lockSet (src g v : Nat)
  /-- MGMT_SETTINGS_APPLY (R393): 1,000,000 ns after a management-port setting is written, it takes effect. -/
  | mgmtSettingsApply
  /-- MGMT_MODE_FALLBACK (R393): Under MGMT_MODE 2, after 500,000,000 ns without 10GBASE-R, the port tries 1000BASE-X. -/
  | mgmtModeFallback
  /-- ARP_REQUEST (R393): The management port answers ARP at its address. -/
  | arpRequest (ip : Nat)
  /-- NEIGHBOUR_DISCOVERY (R393): The management port answers IPv6 neighbour discovery at its address. -/
  | neighbourDiscovery (ip : Nat)
  /-- ICMP_ECHO (R393): The management port answers ICMP echo at its address. -/
  | icmpEcho (ip tag : Nat)
  /-- FW_OVERRIDE (R426): A committed OVR1 record is checked and, if accepted, lifts restricted mode. -/
  | fwOverride (src : Nat) (bytes : List Byte)
  /-- OWNER_KEY_DIGEST (R418): A fuse-backed owner key digest or owner debug key digest accepts one write while it reads all zeros. -/
  | ownerKeyDigest (src : Nat) (dbg : Bool) (bytes : List Byte)
  /-- MIN_SEC_RAISE (R419): The fused minimum security versions are raised to those of the running images while the package is READY. -/
  | minSecRaise (src v : Nat)
  /-- MEAS_EXTEND (R429): Measurement register 6 or 7 is extended with a digest. -/
  | measExtend (src : Nat) (bytes : List Byte)
  /-- ATTEST_NONCE (R430): A nonce write starts an attestation report that captures the current state. -/
  | attestNonce (src : Nat) (bytes : List Byte)
  /-- ATTEST_REPORT_DONE (R430): The signed report is ready in ATTEST_REPORT, and ATTEST_BUSY falls. -/
  | attestReportDone
  /-- DEBUG_TOKEN (R433): A DBG1 record is checked, the challenge is renewed, and debug may open. -/
  | debugToken (src : Nat) (bytes : List Byte)
  /-- IDCODE (R432): The JTAG IDCODE instruction returns JTAG_IDCODE. -/
  | idcode
  /-- BYPASS (R432): The JTAG BYPASS instruction selects the bypass register. -/
  | bypass
  /-- SAMPLE_PRELOAD (R432): The JTAG SAMPLE/PRELOAD instruction samples or preloads the boundary scan. -/
  | samplePreload (pins preload : Nat)
  /-- EXTEST (R432): The JTAG EXTEST instruction drives the boundary, only while debug is open. -/
  | extest (v : Nat)
  /-- DBG_TOKEN (R433): A JTAG submission of a debug token is performed as a firmware dictionary write of DEBUG_TOKEN. -/
  | dbgToken (bytes : List Byte)
  /-- SHOT_FIRE (R437): A dictionary write of 1 fires the Shotline. -/
  | shotFire (src v : Nat)
  /-- SHOT_IN (R437): A rising edge on the SHOT_IN pin fires the Shotline while PIN_EN is set. -/
  | shotIn (heldNs : Nat)
  /-- SHOTLINE_MESSAGE (R438): A fabric Shotline message arrives on a SHOT_IN connection and fires the Shotline. -/
  | shotlineMessage (conn node tag : Nat)
  /-- SNAP_LATCH_DONE (R438): Every block has latched, and SNAP_BUSY falls. -/
  | snapLatchDone
  /-- PTP_SYNC (R442): An IEEE 1588 Sync message arrives and is timestamped. -/
  | ptpSync (m : PtpMsg)
  /-- PTP_FOLLOW_UP (R442): An IEEE 1588 Follow_Up message supplies a two-step master's origin time. -/
  | ptpFollowUp (m : PtpMsg)
  /-- PTP_DELAY_RESP (R443): A Delay_Resp completes an offset measurement, which is slewed or stepped. -/
  | ptpDelayResp (m : PtpMsg)
  /-- PTP_SYNC_TIMEOUT (R443): No Sync for 4,000,000,000 ns puts PTP_STATE in HOLDOVER and raises PTP_LOST. -/
  | ptpSyncTimeout
  /-- COUNTER_CLEAR (R446): One counter, every counter of an index, or every counter is set to zero. -/
  | counterClear (src v : Nat)
  /-- EVENT_RAISE (R447): An event reaches the event-queue arbiter and is granted a record or folded into one. -/
  | eventRaise (id : Nat)
  /-- EVENT_Q_HEAD (R449): Advancing the event-queue head frees slots in the event ring. -/
  | eventQHead (src v : Nat)
  /-- ERR_SUMMARY_CLEAR (R450): A write clears the named sticky bits of ERR_SUMMARY. -/
  | errSummaryClear (src v : Nat)
  /-- MMA_RESULT (R193): The matrix unit's result is ready 64 beats after issue and MMA writes its D registers. -/
  | mmaResult (g : Nat)
  /-- MGMT_LINK_UP (R393): The management port gains link with its partner, and MGMT_LINK reads 1 or 2. -/
  | mgmtLinkUp (speed : Nat)
  /-- MGMT_LINK_DOWN (R393): The management port loses link with its partner, and MGMT_LINK reads 0. -/
  | mgmtLinkDown
  /-- REFCLK_RETURN (R458): An absent differential reference clock returns, and its CLOCK_STATUS bit clears. -/
  | refclkReturn (clk : Nat)
deriving DecidableEq, Repr

end Sys2Proof
end

