-- ==== Sys2Proof/Decode.lean ====
section
/-! DEFINITION. The command that a word of the opcode table spells. No row of the table of this block gives its command
any bits: a command is an event with the data its rule names, so no word spells one (R3). -/

namespace Sys2Proof

/-- The command a word of nbits bits spells by the table's bits: the table gives no row bits. -/
def decodeTableWord (_nbits _w : Nat) : Option Instr := none

end Sys2Proof
end

