-- ==== Sys2Proof/Config.lean ====
section
/-! DEFINITION. What one part fixes and what the spec leaves open: constants without a body. -/

namespace Sys2Proof.Config

/-- A value the spec leaves open, fresh for every count n (R368, R336, R257, R433): nothing is known of it.
[DESIGN CHOICE, safe: assumption 6] -/
opaque freeValue : Nat → Nat

/-- The SHAKE256 digest with 64 bytes of output (R417); the spec names the function and does not give it.
[DESIGN CHOICE, safe: assumption 12] -/
opaque shake256 : List Byte → BitVec 512

/-- Falcon-1024 verification (R417): public key, signed digest, signature. [DESIGN CHOICE, safe: assumption 12] -/
opaque falconVerify : List Byte → BitVec 512 → List Byte → Bool

/-- The Falcon-1024 signature the identity key of generation k makes of a digest (R430). [DESIGN CHOICE, safe: assumption 12] -/
opaque falconSign : Nat → BitVec 512 → List Byte

/-- The public key of the identity key pair of generation k (R428). [DESIGN CHOICE, safe: assumption 12] -/
opaque identityKey : Nat → List Byte

/-- Whether the outer code miscorrects the codeword at this offset when it holds this many symbols in error,
under mode 0 or 1 (R257). [DEDUCED, safe: assumption 13] -/
opaque miscorrects : Nat → Nat → Nat → Bool

/-- What the decoder of the outer code gives for a codeword it miscorrects (R257): the data bytes, by place, in which it
differs from the 64 that were written, for the codeword's offset, the mode and those bytes. [DEDUCED, safe: assumption 13] -/
opaque miscorrected : Nat → Nat → Nat → List (Nat × Byte)

/-- The hash of a line's pseudo-channel and loc that selects its set (R238), read modulo 6,144; the spec does not give it.
[DESIGN CHOICE, safe: assumption 24] -/
opaque benchHash : Nat → Nat → Nat

/-- A step of a sub-slice's 16-bit victim register (R239); the spec gives its width alone.
[DESIGN CHOICE, safe: assumption 24] -/
opaque victimNext : BitVec 16 → BitVec 16

/-- The hash that selects a line's set among the 49,152 of a directory (R226); the spec does not give it.
[DESIGN CHOICE, safe: assumption 24] -/
opaque dirHash : Nat → Nat

/-- The hash that selects a line's set among the 2,048 of a Medlar core's L2 (R203); the spec does not give it.
[DESIGN CHOICE, safe: assumption 24] -/
opaque l2Hash : Nat → Nat

/-- The hash that selects a line's set in a group core's L1 (R152), read modulo the number of sets; the spec does not give
it. [DESIGN CHOICE, safe: assumption 24] -/
opaque l1Hash : Nat → Nat

/-- Banks of a stack that its controller refreshes one after the other (R255). [DESIGN CHOICE, safe: assumption 24] -/
opaque refreshBanks : Nat

/-- Which of the FP32 values within 2 ulp of an exact weight num / den a Bramble computes (R117).
[DEDUCED, safe: assumption 16] -/
opaque weightUlp : Nat → Nat → Nat

/-- How far a die's copy of the time of day stands from the master, in ns (R441): read modulo 41, less 20.
[DESIGN CHOICE, safe: assumption 14] -/
opaque dieSkew : Nat → Nat → Nat

/-- One of the two answers that FMIN or FMAX may give for two zeros of opposite sign (R178): the spec states none.
[DESIGN CHOICE, safe: assumption 18] -/
opaque minMaxZero : BitVec 64 → BitVec 64 → Bool

/-- Whether LI and LIH name a vector register in D (R176): the spec gives no field that says which file D lies in.
[DESIGN CHOICE, safe: assumption 19] -/
opaque liVector : Bool

/-- Whether a 64-bit MOVE word that is legal both in R64 and in I64 is the immediate form (R175): the spec gives the
class both formats and no bit that tells them apart. [DESIGN CHOICE, safe: assumption 20] -/
opaque moveImmediate : Nat → Bool

/-- The rounding direction under the reserved codes 5 to 7 of FPCTL.RD (R195), read modulo 5.
[DESIGN CHOICE, safe: assumption 21] -/
opaque reservedRd : Nat → Nat

/-- Whether an estimate, a refill or a reading of num / den units that is not whole counts the unit it has begun (R377,
R378, R387), read modulo 2: the spec gives the resolution and no direction of rounding. [DESIGN CHOICE, safe: assumption 15] -/
opaque unitBegun : Nat → Nat → Nat

/-- Whether a result that is tiny before rounding and the smallest normal number after it underflows (R178): IEEE 754 lets
an implementation judge either way. [DEDUCED, unsafe: assumption 94] -/
opaque tinyBefore : Bool

/-- How many elements of a collective's block, by the block's start, go round the ring in ascending rank order in a run
(R364, R365): the spec splits each block by the load of the next hops, and the split varies from run to run.
[DESIGN CHOICE, safe: assumption 17] -/
opaque pressSplit : Nat → Nat → Nat

/-- The priority at which Torgear frames leave a Switched logical port (R351), read modulo 8: the spec gives none.
[PRESUMED, unsafe: assumption 60] -/
opaque torgearPriority : Nat → Nat

end Sys2Proof.Config
end

