-- ==== Sys2Proof/Machine/Bits.lean ====
section
/-! DEFINITION. Bit fields, little-endian bytes and sparse tables: the helpers that every meaning reads with (R5, R27). -/

namespace Sys2Proof

/-- Bits [lo + n − 1 : lo] of x. -/
def bits (x lo n : Nat) : Nat := (x >>> lo) % 2 ^ n

/-- Bit i of x. -/
def bit (x i : Nat) : Bool := (x >>> i) % 2 == 1

/-- The little-endian field of n bytes at byte offset off (R5). -/
def fld (raw off n : Nat) : Nat := bits raw (8 * off) (8 * n)

/-- x with bits [lo + n − 1 : lo] replaced by v. -/
def setBits (x lo n v : Nat) : Nat :=
  x - (bits x lo n) <<< lo + (v % 2 ^ n) <<< lo

/-- x with the little-endian field of n bytes at offset off replaced by v. -/
def setFld (raw off n v : Nat) : Nat := setBits raw (8 * off) (8 * n) v

def setBit (x i : Nat) : Nat := if bit x i then x else x + 2 ^ i

def clearBit (x i : Nat) : Nat := if bit x i then x - 2 ^ i else x

/-- The n low bytes of x, lowest first (R5). -/
def toBytes : Nat → Nat → List Byte
  | 0, _ => []
  | n + 1, x => BitVec.ofNat 8 x :: toBytes n (x / 256)

/-- The number whose little-endian bytes are given. -/
def ofBytes : List Byte → Nat
  | [] => 0
  | b :: bs => b.toNat + 256 * ofBytes bs

/-- x read as an n-bit two's complement number. -/
def signed (n x : Nat) : Int :=
  let y := x % 2 ^ n
  if y < 2 ^ (n - 1) then (y : Int) else (y : Int) - (2 : Int) ^ n

/-- The n-bit two's complement pattern of i. -/
def unsigned (n : Nat) (i : Int) : Nat := (i % (2 : Int) ^ n).toNat

/-- x sign-extended from n to m bits. -/
def sext (n m x : Nat) : Nat := unsigned m (signed n x)

def ceilDiv (a b : Nat) : Nat := (a + b - 1) / b

/-- a rounded up to a multiple of b. -/
def roundUp (a b : Nat) : Nat := ceilDiv a b * b

def isPow2 (n : Nat) : Bool := n != 0 && 2 ^ n.log2 == n

def popCount : Nat → Nat → Nat
  | 0, _ => 0
  | n + 1, x => x % 2 + popCount n (x / 2)

/-- The positions of the set bits among bits 0 to n − 1, rising. -/
def setBitsOf (n x : Nat) : List Nat := (List.range n).filter (bit x)

/-- Counter comparison modulo 2³² within half the range (R307): a lies at or ahead of b. -/
def notBehind (a b : Nat) : Bool := (a + 2 ^ 32 - b % 2 ^ 32) % 2 ^ 32 < 2 ^ 31

/-- How far a lies ahead of b, modulo 2³². -/
def ahead (a b : Nat) : Nat := (a + 2 ^ 32 - b % 2 ^ 32) % 2 ^ 32

/-- The first element of a list that satisfies p, and the list without it. -/
def takeFirst {α : Type} (p : α → Bool) : List α → Option (α × List α)
  | [] => none
  | x :: xs =>
    if p x then some (x, xs)
    else match takeFirst p xs with
      | none => none
      | some (y, ys) => some (y, x :: ys)

/-- xs with the element at position i replaced. -/
def setAt {α : Type} : List α → Nat → α → List α
  | [], _, _ => []
  | _ :: xs, 0, y => y :: xs
  | x :: xs, i + 1, y => x :: setAt xs i y

/-! ### Sparse tables -/

def Tab.findIn {α : Type} : List (Nat × α) → Nat → Option α
  | [], _ => none
  | (k', v) :: t, k => if k' = k then some v else Tab.findIn t k

def Tab.putIn {α : Type} : List (Nat × α) → Nat → α → List (Nat × α)
  | [], k, v => [(k, v)]
  | (k', v') :: t, k, v =>
    if k < k' then (k, v) :: (k', v') :: t
    else if k = k' then (k, v) :: t
    else (k', v') :: Tab.putIn t k v

def Tab.find {α : Type} (t : Tab α) (k : Nat) : Option α := Tab.findIn t.cells k

/-- The value at k, or d where k is not listed. -/
def Tab.get {α : Type} (t : Tab α) (d : α) (k : Nat) : α := (t.find k).getD d

def Tab.put {α : Type} (t : Tab α) (k : Nat) (v : α) : Tab α := ⟨Tab.putIn t.cells k v⟩

def Tab.del {α : Type} (t : Tab α) (k : Nat) : Tab α := ⟨t.cells.filter (fun c => c.1 != k)⟩

/-- Write v at k; a value equal to the default d is not listed. -/
def Tab.set {α : Type} [DecidableEq α] (t : Tab α) (d : α) (k : Nat) (v : α) : Tab α :=
  if v = d then t.del k else t.put k v

/-- Change every listed value. -/
def Tab.map {α β : Type} (t : Tab α) (f : Nat → α → β) : Tab β := ⟨t.cells.map fun c => (c.1, f c.1 c.2)⟩

def Tab.keep {α : Type} (t : Tab α) (p : Nat → α → Bool) : Tab α := ⟨t.cells.filter fun c => p c.1 c.2⟩

end Sys2Proof
end

