-- ==== Sys2Proof/Machine/Entries.lean ====
section
/-! DEFINITION. The dictionary's entries, from the entry tables of every chapter (R388, R392, R7). -/

namespace Sys2Proof.Machine

/-- A run of entries of one kind: first and last key, (Index << 8) | Sub; type code (R388); access code 0 RO, 1 RW,
2 WO, 3 CONST, 4 RWL (R7); lock group, 0 none (R408); size in bytes; default; and the bits that are not reserved (R6). -/
structure EntryRow where
  first : Nat
  last : Nat
  ty : Nat
  acc : Nat
  lock : Nat
  size : Nat
  dflt : Nat
  mask : Nat
deriving DecidableEq, Repr

/-- Entries 0x1xxx. -/
def entries1 : List EntryRow := [
  ⟨0x100000, 0x100000, 7, 3, 0, 64, 0, 0x0⟩,
  ⟨0x100001, 0x100001, 7, 3, 0, 64, 0, 0x0⟩,
  ⟨0x100002, 0x100002, 7, 3, 0, 64, 0, 0x0⟩,
  ⟨0x100100, 0x100100, 7, 3, 0, 64, 0, 0x0⟩,
  ⟨0x100200, 0x100200, 1, 3, 0, 2, 1, 0xffff⟩,
  ⟨0x100401, 0x100401, 0, 3, 0, 1, 0, 0xff⟩,
  ⟨0x100402, 0x100402, 0, 3, 0, 1, 0, 0xff⟩,
  ⟨0x100403, 0x100403, 0, 3, 0, 1, 0, 0xff⟩,
  ⟨0x100600, 0x100600, 0, 0, 0, 1, 0, 0xff⟩,
  ⟨0x100601, 0x100601, 2, 0, 0, 4, 0, 0xffffffff⟩,
  ⟨0x100602, 0x100602, 1, 0, 0, 2, 0, 0xffff⟩,
  ⟨0x100603, 0x100603, 2, 0, 0, 4, 0, 0xffffffff⟩,
  ⟨0x100604, 0x100604, 2, 1, 0, 4, 0xf4240, 0xffffffff⟩,
  ⟨0x100700, 0x100700, 8, 0, 0, 24, 0, 0x0⟩,
  ⟨0x100800, 0x100800, 1, 0, 0, 2, 0, 0xffff⟩,
  ⟨0x100801, 0x100801, 1, 0, 0, 2, 0, 0xffff⟩,
  ⟨0x110000, 0x110000, 0, 1, 0, 1, 2, 0xff⟩,
  ⟨0x110001, 0x110001, 3, 3, 0, 8, 0, 0xffffffffffffffff⟩,
  ⟨0x110002, 0x110002, 8, 1, 0, 16, 0, 0x0⟩,
  ⟨0x110003, 0x110003, 0, 1, 0, 1, 64, 0xff⟩,
  ⟨0x110004, 0x110004, 8, 1, 0, 16, 0, 0x0⟩,
  ⟨0x110005, 0x110005, 1, 1, 0, 2, 0, 0xffff⟩,
  ⟨0x110006, 0x110006, 0, 0, 0, 1, 0, 0xff⟩,
  ⟨0x110007, 0x110007, 1, 3, 0, 2, 7410, 0xffff⟩,
  ⟨0x110100, 0x110100, 0, 4, 5, 1, 7, 0x7⟩,
  ⟨0x110101, 0x110101, 0, 0, 0, 1, 0, 0xff⟩,
  ⟨0x110102, 0x110102, 3, 0, 0, 8, 0, 0xffffffffffffffff⟩,
  ⟨0x110103, 0x110103, 3, 0, 0, 8, 0, 0xffffffffffffffff⟩]

/-- Entries 0x2xxx. -/
def entries2 : List EntryRow := [
  ⟨0x200000, 0x200000, 1, 1, 0, 2, 3300, 0xffff⟩,
  ⟨0x200001, 0x200001, 1, 4, 6, 2, 3600, 0xffff⟩,
  ⟨0x200100, 0x200107, 0, 0, 0, 1, 8, 0xff⟩,
  ⟨0x200108, 0x200109, 0, 0, 0, 1, 8, 0xff⟩,
  ⟨0x200110, 0x200119, 0, 0, 0, 1, 15, 0xff⟩,
  ⟨0x200200, 0x200200, 0, 1, 0, 1, 15, 0xff⟩,
  ⟨0x200201, 0x200201, 0, 1, 0, 1, 0, 0xff⟩,
  ⟨0x200202, 0x200202, 0, 1, 0, 1, 8, 0xff⟩,
  ⟨0x200300, 0x200307, 4, 0, 0, 4, 0, 0xffffffff⟩,
  ⟨0x200308, 0x20030F, 2, 0, 0, 4, 0, 0xffffffff⟩,
  ⟨0x200400, 0x200400, 0, 1, 0, 1, 10, 0xff⟩,
  ⟨0x200401, 0x200401, 1, 0, 0, 2, 0, 0xffff⟩,
  ⟨0x200500, 0x200500, 1, 0, 0, 2, 0, 0xffff⟩,
  ⟨0x200501, 0x200501, 1, 0, 0, 2, 0, 0xffff⟩,
  ⟨0x200502, 0x200502, 1, 0, 0, 2, 0, 0xffff⟩,
  ⟨0x200503, 0x200503, 1, 0, 0, 2, 0, 0xffff⟩,
  ⟨0x200600, 0x200607, 1, 0, 0, 2, 0, 0xffff⟩,
  ⟨0x200700, 0x20070A, 1, 0, 0, 2, 720, 0xffff⟩]

/-- Entries 0x3xxx. -/
def entries3 : List EntryRow := [
  ⟨0x300000, 0x300000, 1, 0, 0, 2, 0, 0xffff⟩,
  ⟨0x300001, 0x300001, 2, 1, 0, 4, 0x1e8480, 0xffffffff⟩,
  ⟨0x300002, 0x300002, 0, 1, 0, 1, 16, 0xff⟩,
  ⟨0x300003, 0x300003, 1, 1, 0, 2, 0x88b5, 0xffff⟩,
  ⟨0x300004, 0x300004, 0, 0, 0, 1, 0, 0xff⟩,
  ⟨0x300100, 0x300117, 2, 1, 0, 4, 0, 0x1fff⟩,
  ⟨0x300200, 0x30025F, 2, 0, 0, 4, 0, 0xffffffff⟩,
  ⟨0x300300, 0x300317, 6, 2, 0, 1, 0, 0xff⟩,
  ⟨0x300400, 0x300400, 3, 2, 0, 8, 0, 0xffffffffffffffff⟩,
  ⟨0x300410, 0x300417, 8, 0, 0, 4096, 0, 0x0⟩,
  ⟨0x300500, 0x300500, 8, 4, 3, 512, 0, 0x0⟩,
  ⟨0x300600, 0x300600, 8, 2, 0, 64, 0, 0x0⟩,
  ⟨0x300601, 0x300601, 1, 1, 0, 2, 0, 0x3fff⟩,
  ⟨0x300602, 0x300602, 8, 0, 0, 64, 0, 0x0⟩,
  ⟨0x300603, 0x300603, 0, 0, 0, 1, 0, 0xff⟩,
  ⟨0x300604, 0x300604, 2, 0, 0, 4, 0, 0xffffffff⟩,
  ⟨0x300700, 0x300700, 8, 0, 0, 512, 0, 0x0⟩,
  ⟨0x300701, 0x300701, 1, 2, 0, 2, 0, 0xfff⟩,
  ⟨0x301000, 0x30105F, 3, 1, 0, 8, 0, 0xffffffffffff⟩,
  ⟨0x301100, 0x30115F, 8, 1, 0, 16, 0, 0x0⟩,
  ⟨0x301200, 0x30125F, 0, 1, 0, 1, 0, 0xff⟩]

/-- Entries 0x4xxx. -/
def entries4 : List EntryRow := [
  ⟨0x400000, 0x400000, 1, 4, 1, 2, 0, 0xffff⟩,
  ⟨0x400001, 0x400001, 1, 0, 0, 2, 2044, 0xffff⟩,
  ⟨0x400100, 0x400107, 0, 4, 1, 1, 0, 0xff⟩,
  ⟨0x400200, 0x400200, 0, 4, 5, 1, 0, 0xff⟩,
  ⟨0x400201, 0x400201, 2, 0, 0, 4, 0, 0xffffffff⟩,
  ⟨0x400300, 0x40031F, 0, 0, 0, 1, 0, 0xff⟩,
  ⟨0x400400, 0x400400, 0, 1, 0, 1, 0, 0xff⟩,
  ⟨0x400401, 0x400401, 2, 1, 0, 4, 2000, 0xffffffff⟩,
  ⟨0x400402, 0x400402, 2, 1, 0, 4, 0x2710, 0xffffffff⟩,
  ⟨0x400403, 0x400403, 2, 1, 0, 4, 1000, 0xffffffff⟩,
  ⟨0x400500, 0x40050F, 0, 1, 0, 1, 16, 0xff⟩,
  ⟨0x400510, 0x40051F, 1, 1, 0, 2, 32, 0xffff⟩,
  ⟨0x400600, 0x400600, 2, 0, 0, 4, 0, 0xffffffff⟩,
  ⟨0x400700, 0x40071F, 0, 0, 0, 1, 1, 0xff⟩,
  ⟨0x400800, 0x400800, 1, 1, 0, 2, 24, 0xffff⟩,
  ⟨0x400801, 0x400801, 0, 1, 0, 1, 0, 0xff⟩,
  ⟨0x401000, 0x401000, 1, 1, 0, 2, 50, 0xffff⟩]

/-- Entries 0x5xxx. -/
def entries5 : List EntryRow := [
  ⟨0x500000, 0x500000, 0, 0, 0, 1, 0, 0xff⟩,
  ⟨0x500001, 0x500001, 6, 4, 1, 1, 0, 0x1⟩,
  ⟨0x500002, 0x500002, 6, 4, 2, 1, 0, 0x1⟩,
  ⟨0x500003, 0x500003, 6, 4, 3, 1, 0, 0x1⟩,
  ⟨0x500004, 0x500004, 6, 4, 4, 1, 0, 0x1⟩,
  ⟨0x500005, 0x500005, 6, 4, 5, 1, 0, 0x1⟩,
  ⟨0x500006, 0x500006, 6, 4, 6, 1, 0, 0x1⟩,
  ⟨0x501000, 0x501007, 8, 4, 2, 4096, 0, 0x0⟩,
  ⟨0x501100, 0x501100, 2, 4, 2, 4, 0, 0x80ff7fff⟩,
  ⟨0x501101, 0x501101, 6, 0, 0, 1, 0, 0xff⟩,
  ⟨0x501200, 0x50120F, 8, 4, 2, 4096, 0, 0x0⟩,
  ⟨0x502000, 0x502000, 8, 0, 0, 1793, 0, 0x0⟩,
  ⟨0x502001, 0x502001, 8, 0, 0, 3200, 0, 0x0⟩,
  ⟨0x502002, 0x502002, 0, 0, 0, 1, 0, 0xff⟩,
  ⟨0x502100, 0x502107, 8, 0, 0, 64, 0, 0x0⟩,
  ⟨0x502108, 0x502108, 8, 2, 0, 72, 0, 0x0⟩,
  ⟨0x502200, 0x502200, 8, 2, 0, 32, 0, 0x0⟩,
  ⟨0x502201, 0x502201, 8, 0, 0, 1872, 0, 0x0⟩,
  ⟨0x502202, 0x502202, 6, 0, 0, 1, 0, 0xff⟩,
  ⟨0x502300, 0x502300, 8, 0, 0, 32, 0, 0x0⟩,
  ⟨0x502301, 0x502301, 8, 4, 4, 3200, 0, 0x0⟩,
  ⟨0x502302, 0x502302, 6, 0, 0, 1, 0, 0xff⟩,
  ⟨0x502303, 0x502303, 8, 4, 4, 64, 0, 0x0⟩,
  ⟨0x502304, 0x502304, 0, 0, 0, 1, 0, 0xff⟩,
  ⟨0x502305, 0x502305, 2, 3, 0, 4, 0, 0xffffffff⟩]

/-- Entries 0x6xxx, part 1. -/
def entries6a : List EntryRow := [
  ⟨0x601000, 0x601007, 2, 0, 0, 4, 0, 0xffffffff⟩,
  ⟨0x601008, 0x601009, 2, 0, 0, 4, 0, 0xffffffff⟩,
  ⟨0x60100A, 0x60100A, 2, 0, 0, 4, 0, 0xffffffff⟩,
  ⟨0x602000, 0x602007, 3, 0, 0, 8, 0, 0xffffffffffffffff⟩,
  ⟨0x602100, 0x602107, 3, 0, 0, 8, 0, 0xffffffffffffffff⟩,
  ⟨0x602200, 0x602207, 3, 0, 0, 8, 0, 0xffffffffffffffff⟩,
  ⟨0x602300, 0x602307, 3, 0, 0, 8, 0, 0xffffffffffffffff⟩,
  ⟨0x602400, 0x602407, 3, 0, 0, 8, 0, 0xffffffffffffffff⟩,
  ⟨0x602500, 0x602507, 3, 0, 0, 8, 0, 0xffffffffffffffff⟩,
  ⟨0x602600, 0x602607, 3, 0, 0, 8, 0, 0xffffffffffffffff⟩,
  ⟨0x603000, 0x603007, 3, 0, 0, 8, 0, 0xffffffffffffffff⟩,
  ⟨0x603100, 0x603107, 3, 0, 0, 8, 0, 0xffffffffffffffff⟩,
  ⟨0x603200, 0x603207, 3, 0, 0, 8, 0, 0xffffffffffffffff⟩,
  ⟨0x603300, 0x603307, 3, 0, 0, 8, 0, 0xffffffffffffffff⟩,
  ⟨0x603400, 0x603407, 3, 0, 0, 8, 0, 0xffffffffffffffff⟩,
  ⟨0x603500, 0x603507, 3, 0, 0, 8, 0, 0xffffffffffffffff⟩,
  ⟨0x603600, 0x603607, 3, 0, 0, 8, 0, 0xffffffffffffffff⟩,
  ⟨0x603700, 0x603700, 3, 0, 0, 8, 0, 0xffffffffffffffff⟩,
  ⟨0x603701, 0x603701, 3, 0, 0, 8, 0, 0xffffffffffffffff⟩,
  ⟨0x604000, 0x604007, 3, 0, 0, 8, 0, 0xffffffffffffffff⟩,
  ⟨0x604100, 0x604107, 3, 0, 0, 8, 0, 0xffffffffffffffff⟩,
  ⟨0x604200, 0x604207, 3, 0, 0, 8, 0, 0xffffffffffffffff⟩,
  ⟨0x604300, 0x604307, 3, 0, 0, 8, 0, 0xffffffffffffffff⟩,
  ⟨0x604400, 0x604407, 3, 0, 0, 8, 0, 0xffffffffffffffff⟩,
  ⟨0x604500, 0x604507, 3, 0, 0, 8, 0, 0xffffffffffffffff⟩,
  ⟨0x604600, 0x604607, 3, 0, 0, 8, 0, 0xffffffffffffffff⟩,
  ⟨0x604700, 0x604707, 3, 0, 0, 8, 0, 0xffffffffffffffff⟩,
  ⟨0x604800, 0x604801, 3, 0, 0, 8, 0, 0xffffffffffffffff⟩,
  ⟨0x605000, 0x605007, 3, 0, 0, 8, 0, 0xffffffffffffffff⟩,
  ⟨0x605100, 0x605107, 3, 0, 0, 8, 0, 0xffffffffffffffff⟩]

/-- Entries 0x6xxx, part 2. -/
def entries6b : List EntryRow := [
  ⟨0x605200, 0x605201, 3, 0, 0, 8, 0, 0xffffffffffffffff⟩,
  ⟨0x605300, 0x605301, 3, 0, 0, 8, 0, 0xffffffffffffffff⟩,
  ⟨0x605400, 0x605401, 3, 0, 0, 8, 0, 0xffffffffffffffff⟩,
  ⟨0x606000, 0x60601F, 4, 0, 0, 4, 0, 0xffffffff⟩,
  ⟨0x606100, 0x606107, 3, 0, 0, 8, 0, 0xffffffffffffffff⟩,
  ⟨0x606200, 0x606207, 3, 0, 0, 8, 0, 0xffffffffffffffff⟩,
  ⟨0x606300, 0x606307, 3, 0, 0, 8, 0, 0xffffffffffffffff⟩,
  ⟨0x606400, 0x606407, 3, 0, 0, 8, 0, 0xffffffffffffffff⟩,
  ⟨0x606500, 0x606507, 3, 0, 0, 8, 0, 0xffffffffffffffff⟩,
  ⟨0x606600, 0x606607, 3, 0, 0, 8, 0, 0xffffffffffffffff⟩,
  ⟨0x606700, 0x606707, 3, 0, 0, 8, 0, 0xffffffffffffffff⟩,
  ⟨0x606800, 0x606807, 3, 0, 0, 8, 0, 0xffffffffffffffff⟩,
  ⟨0x606900, 0x606907, 3, 0, 0, 8, 0, 0xffffffffffffffff⟩,
  ⟨0x607000, 0x60701F, 1, 0, 0, 2, 0, 0xffff⟩,
  ⟨0x607100, 0x60711F, 1, 0, 0, 2, 0, 0xffff⟩,
  ⟨0x607200, 0x60721F, 1, 0, 0, 2, 0, 0xffff⟩,
  ⟨0x607300, 0x60731F, 3, 0, 0, 8, 0, 0xffffffffffffffff⟩,
  ⟨0x608000, 0x608000, 1, 0, 0, 2, 0, 0xffff⟩,
  ⟨0x608001, 0x608001, 1, 0, 0, 2, 0, 0xffff⟩,
  ⟨0x608002, 0x608002, 1, 0, 0, 2, 0, 0xffff⟩,
  ⟨0x608003, 0x608003, 1, 0, 0, 2, 0, 0xffff⟩,
  ⟨0x608004, 0x608004, 3, 0, 0, 8, 0, 0xffffffffffffffff⟩,
  ⟨0x608005, 0x608005, 3, 0, 0, 8, 0, 0xffffffffffffffff⟩,
  ⟨0x608100, 0x608100, 3, 0, 0, 8, 0, 0xffffffffffffffff⟩,
  ⟨0x609000, 0x609000, 3, 0, 0, 8, 0, 0xffffffffffffffff⟩,
  ⟨0x609001, 0x609001, 1, 0, 0, 2, 0, 0xffff⟩,
  ⟨0x609002, 0x609002, 3, 0, 0, 8, 0, 0xffffffffffffffff⟩,
  ⟨0x609003, 0x609003, 3, 0, 0, 8, 0, 0xffffffffffffffff⟩,
  ⟨0x609004, 0x609004, 3, 0, 0, 8, 0, 0xffffffffffffffff⟩,
  ⟨0x609005, 0x609005, 3, 0, 0, 8, 0, 0xffffffffffffffff⟩]

/-- Entries 0x6xxx, part 3. -/
def entries6c : List EntryRow := [
  ⟨0x609100, 0x609108, 3, 0, 0, 8, 0, 0xffffffffffffffff⟩,
  ⟨0x609200, 0x609207, 3, 0, 0, 8, 0, 0xffffffffffffffff⟩,
  ⟨0x609300, 0x609300, 3, 0, 0, 8, 0, 0xffffffffffffffff⟩,
  ⟨0x609301, 0x609301, 3, 0, 0, 8, 0, 0xffffffffffffffff⟩,
  ⟨0x609302, 0x609302, 3, 0, 0, 8, 0, 0xffffffffffffffff⟩,
  ⟨0x610000, 0x610017, 1, 0, 0, 2, 0, 0xffff⟩,
  ⟨0x610100, 0x610117, 3, 0, 0, 8, 0, 0xffffffffffffffff⟩,
  ⟨0x610200, 0x610217, 3, 0, 0, 8, 0, 0xffffffffffffffff⟩,
  ⟨0x610300, 0x610300, 1, 0, 0, 2, 0, 0xffff⟩,
  ⟨0x610301, 0x610301, 1, 0, 0, 2, 0, 0xffff⟩,
  ⟨0x610302, 0x610302, 3, 0, 0, 8, 0, 0xffffffffffffffff⟩,
  ⟨0x610303, 0x610303, 3, 0, 0, 8, 0, 0xffffffffffffffff⟩,
  ⟨0x610304, 0x610304, 1, 0, 0, 2, 0, 0xffff⟩,
  ⟨0x610305, 0x610305, 3, 0, 0, 8, 0, 0xffffffffffffffff⟩,
  ⟨0x610306, 0x610306, 3, 0, 0, 8, 0, 0xffffffffffffffff⟩,
  ⟨0x611000, 0x611000, 3, 0, 0, 8, 0, 0xffffffffffffffff⟩,
  ⟨0x611001, 0x611001, 1, 0, 0, 2, 0, 0xffff⟩,
  ⟨0x611100, 0x611107, 3, 0, 0, 8, 0, 0xffffffffffffffff⟩,
  ⟨0x611200, 0x61120A, 1, 0, 0, 2, 0, 0xffff⟩,
  ⟨0x611300, 0x61130A, 4, 0, 0, 4, 0, 0xffffffff⟩,
  ⟨0x612000, 0x612000, 1, 0, 0, 2, 0, 0xffff⟩,
  ⟨0x612001, 0x612001, 3, 0, 0, 8, 0, 0xffffffffffffffff⟩,
  ⟨0x612002, 0x612002, 1, 0, 0, 2, 0, 0xffff⟩,
  ⟨0x612003, 0x612003, 3, 0, 0, 8, 0, 0xffffffffffffffff⟩,
  ⟨0x612004, 0x612004, 3, 0, 0, 8, 0, 0xffffffffffffffff⟩,
  ⟨0x613000, 0x613000, 3, 0, 0, 8, 0, 0xffffffffffffffff⟩,
  ⟨0x613001, 0x613001, 3, 0, 0, 8, 0, 0xffffffffffffffff⟩,
  ⟨0x613002, 0x613002, 3, 0, 0, 8, 0, 0xffffffffffffffff⟩,
  ⟨0x613003, 0x613003, 3, 0, 0, 8, 0, 0xffffffffffffffff⟩,
  ⟨0x613004, 0x613004, 1, 0, 0, 2, 0, 0xffff⟩]

/-- Entries 0x6xxx, part 4. -/
def entries6d : List EntryRow := [
  ⟨0x613005, 0x613005, 1, 0, 0, 2, 0, 0xffff⟩,
  ⟨0x614000, 0x614000, 1, 0, 0, 2, 0, 0xffff⟩]

/-- Entries 0x7xxx, part 1. -/
def entries7a : List EntryRow := [
  ⟨0x700000, 0x700000, 6, 2, 0, 1, 0, 0xff⟩,
  ⟨0x700001, 0x700001, 0, 1, 0, 1, 2, 0x3⟩,
  ⟨0x700002, 0x700002, 1, 1, 0, 2, 0, 0xffff⟩,
  ⟨0x700003, 0x700003, 2, 0, 0, 4, 0, 0xffffffff⟩,
  ⟨0x700004, 0x700004, 3, 0, 0, 8, 0, 0xffffffffffffffff⟩,
  ⟨0x700005, 0x700005, 3, 0, 0, 8, 0, 0xffffffffffffffff⟩,
  ⟨0x700006, 0x700006, 6, 0, 0, 1, 0, 0xff⟩,
  ⟨0x700007, 0x700007, 2, 1, 0, 4, 0, 0xffffff⟩,
  ⟨0x700008, 0x700008, 3, 0, 0, 8, 0, 0xffffffffffffffff⟩,
  ⟨0x700100, 0x700100, 3, 1, 0, 8, 0x80800000, 0xffffffffffffffff⟩,
  ⟨0x700101, 0x700101, 2, 1, 0, 4, 1024, 0xffffffff⟩,
  ⟨0x700102, 0x700102, 6, 1, 0, 1, 1, 0xff⟩,
  ⟨0x700103, 0x700103, 2, 1, 0, 4, 0, 0xffffffff⟩,
  ⟨0x700104, 0x700104, 2, 0, 0, 4, 0, 0xffffffff⟩,
  ⟨0x700105, 0x700105, 8, 0, 0, 32, 0, 0x0⟩,
  ⟨0x700106, 0x700106, 1, 0, 0, 2, 0, 0xffff⟩,
  ⟨0x700200, 0x700200, 3, 0, 0, 8, 0, 0xffffffffffffffff⟩,
  ⟨0x700201, 0x700201, 0, 1, 0, 1, 0, 0xff⟩,
  ⟨0x700202, 0x700202, 0, 1, 0, 1, 0, 0xff⟩,
  ⟨0x700203, 0x700203, 0, 1, 0, 1, 0, 0xff⟩,
  ⟨0x700204, 0x700204, 0, 1, 0, 1, 0, 0xff⟩,
  ⟨0x700205, 0x700205, 0, 0, 0, 1, 0, 0xff⟩,
  ⟨0x700206, 0x700206, 4, 0, 0, 4, 0, 0xffffffff⟩,
  ⟨0x700207, 0x700207, 2, 1, 0, 4, 0xf4240, 0xffffffff⟩,
  ⟨0x700208, 0x700208, 3, 0, 0, 8, 0, 0xffffffffffffffff⟩,
  ⟨0x700300, 0x700300, 2, 2, 0, 4, 0, 0x3ffffff⟩,
  ⟨0x700301, 0x700301, 2, 0, 0, 4, 0, 0xffffffff⟩,
  ⟨0x700302, 0x700302, 2, 2, 0, 4, 0, 0xffffffff⟩,
  ⟨0x702000, 0x702007, 2, 2, 0, 4, 0, 0xffffffff⟩,
  ⟨0x702100, 0x702107, 2, 0, 0, 4, 1, 0xffffffff⟩]

/-- Entries 0x7xxx, part 2. -/
def entries7b : List EntryRow := [
  ⟨0x702200, 0x702207, 3, 0, 0, 8, 0, 0xffffffffffffffff⟩,
  ⟨0x702300, 0x702307, 0, 0, 0, 1, 0, 0xff⟩,
  ⟨0x702400, 0x702407, 1, 0, 0, 2, 0, 0xffff⟩,
  ⟨0x702500, 0x702507, 1, 0, 0, 2, 0, 0xffff⟩]

/-- Entries 0x8xxx. -/
def entries8 : List EntryRow := [
  ⟨0x800000, 0x800000, 0, 0, 0, 1, 0, 0xff⟩,
  ⟨0x800001, 0x800001, 0, 0, 0, 1, 0, 0xff⟩,
  ⟨0x800002, 0x800002, 2, 0, 0, 4, 0, 0xffffffff⟩,
  ⟨0x800003, 0x800003, 3, 0, 0, 8, 0, 0xffffffffffffffff⟩,
  ⟨0x800100, 0x800100, 2, 1, 0, 4, 0, 0xffffffff⟩,
  ⟨0x800101, 0x800101, 8, 2, 0, 4096, 0, 0x0⟩,
  ⟨0x800102, 0x800102, 2, 2, 0, 4, 0, 0xffffffff⟩,
  ⟨0x800103, 0x800103, 6, 1, 0, 1, 0, 0xff⟩,
  ⟨0x800200, 0x800204, 3, 0, 0, 8, 0, 0xffffffffffffffff⟩,
  ⟨0x800300, 0x800300, 0, 4, 5, 1, 0, 0x3f⟩,
  ⟨0x800301, 0x800301, 2, 0, 0, 4, 0, 0xffffffff⟩,
  ⟨0x800302, 0x800302, 8, 4, 5, 3200, 0, 0x0⟩,
  ⟨0x800303, 0x800303, 8, 4, 5, 64, 0, 0x0⟩,
  ⟨0x800304, 0x800304, 3, 0, 0, 8, 0, 0xffffffffffffffff⟩,
  ⟨0x800305, 0x800305, 6, 4, 5, 1, 0, 0xff⟩,
  ⟨0x800306, 0x800306, 0, 0, 0, 1, 0, 0xff⟩,
  ⟨0x801000, 0x801000, 1, 3, 0, 2, 1, 0xffff⟩,
  ⟨0x801001, 0x801001, 1, 3, 0, 2, 1, 0xffff⟩,
  ⟨0x801002, 0x801002, 1, 3, 0, 2, 1, 0xffff⟩]

/-- Entries 0x9xxx. -/
def entries9 : List EntryRow := [
  ⟨0x900000, 0x900000, 3, 4, 1, 8, 0x80000000, 0xffffffffffffffff⟩,
  ⟨0x900001, 0x900001, 3, 4, 1, 8, 0x80200000, 0xffffffffffffffff⟩,
  ⟨0x900002, 0x900002, 6, 2, 0, 1, 0, 0xff⟩,
  ⟨0x900003, 0x900003, 3, 0, 0, 8, 0, 0xffffffffffffffff⟩,
  ⟨0x900100, 0x900100, 2, 1, 0, 4, 2000, 0xffffffff⟩,
  ⟨0x901000, 0x901000, 3, 4, 1, 8, 0x80400000, 0xffffffffffffffff⟩,
  ⟨0x901001, 0x901001, 2, 4, 1, 4, 4096, 0xffffffff⟩,
  ⟨0x901002, 0x901002, 2, 1, 0, 4, 0, 0xffffffff⟩,
  ⟨0x901003, 0x901003, 2, 0, 0, 4, 0, 0xffffffff⟩,
  ⟨0x901004, 0x901004, 2, 0, 0, 4, 0, 0xffffffff⟩,
  ⟨0x901005, 0x901005, 2, 2, 0, 4, 0, 0x1ffff⟩]

/-- Subs 0x00–0x10 of every queue's index 0x9400 + q (Table 17 of chapter 10). -/
def queueEntries : List EntryRow := [
  ⟨0, 0, 0, 1, 0, 1, 0, 0xff⟩,
  ⟨1, 1, 0, 1, 0, 1, 2, 0xff⟩,
  ⟨2, 2, 1, 1, 0, 2, 0, 0xfff⟩,
  ⟨3, 3, 0, 1, 0, 1, 0, 0xff⟩,
  ⟨4, 4, 3, 1, 0, 8, 0, 0xffffffffffffffff⟩,
  ⟨5, 5, 2, 1, 0, 4, 256, 0xffffffff⟩,
  ⟨6, 6, 3, 1, 0, 8, 0, 0xffffffffffffffff⟩,
  ⟨7, 7, 2, 1, 0, 4, 256, 0xffffffff⟩,
  ⟨8, 8, 1, 1, 0, 2, 0, 0x3fff⟩,
  ⟨9, 9, 2, 1, 0, 4, 0, 0xffffffff⟩,
  ⟨10, 10, 2, 2, 0, 4, 0, 0xffffffff⟩,
  ⟨11, 11, 2, 1, 0, 4, 0, 0xffffffff⟩,
  ⟨12, 12, 2, 0, 0, 4, 0, 0xffffffff⟩,
  ⟨13, 13, 2, 0, 0, 4, 0, 0xffffffff⟩,
  ⟨14, 14, 0, 0, 0, 1, 0, 0xff⟩,
  ⟨15, 15, 2, 0, 0, 4, 0, 0xffffffff⟩,
  ⟨16, 16, 1, 0, 0, 2, 0, 0xffff⟩]

/-- The entries whose first index digit is d. -/
def entriesOf (d : Nat) : List EntryRow :=
  if d = 1 then entries1
  else if d = 2 then entries2
  else if d = 3 then entries3
  else if d = 4 then entries4
  else if d = 5 then entries5
  else if d = 6 then entries6a ++ entries6b ++ entries6c ++ entries6d
  else if d = 7 then entries7a ++ entries7b
  else if d = 8 then entries8
  else if d = 9 then entries9
  else []

/-- The entry of a key, none where no chapter assigns the name (R388). -/
def entryOf (key : Nat) : Option EntryRow :=
  if 0x940000 ≤ key ∧ key < 0x980000 then queueEntries.find? fun r => r.first == key % 256
  else (entriesOf (key / 2 ^ 20)).find? fun r => decide (r.first ≤ key) && decide (key ≤ r.last)

/-! ### Keys by name -/

namespace K

abbrev vendor : Nat := 0x100000
abbrev part : Nat := 0x100001
abbrev partName : Nat := 0x100002
abbrev serial : Nat := 0x100100
abbrev dictLayout : Nat := 0x100200
abbrev ashlarStepping : Nat := 0x100401
abbrev medlarStepping : Nat := 0x100402
abbrev rowanStepping : Nat := 0x100403
abbrev packageState : Nat := 0x100600
abbrev settFailMap : Nat := 0x100601
abbrev diesHeld : Nat := 0x100602
abbrev settStallMap : Nat := 0x100603
abbrev settStallNs : Nat := 0x100604
abbrev medlarCoreMask : Nat := 0x100700
abbrev clockStatus : Nat := 0x100800
abbrev straps : Nat := 0x100801
abbrev mgmtMode : Nat := 0x110000
abbrev mgmtMac : Nat := 0x110001
abbrev mgmtIp : Nat := 0x110002
abbrev mgmtPrefix : Nat := 0x110003
abbrev mgmtGateway : Nat := 0x110004
abbrev mgmtVlan : Nat := 0x110005
abbrev mgmtLink : Nat := 0x110006
abbrev hdpUdpPort : Nat := 0x110007
abbrev hdpVersionsEnabled : Nat := 0x110100
abbrev hdpSubscribers : Nat := 0x110101
abbrev dictWriteSeq : Nat := 0x110102
abbrev dictLastRefused : Nat := 0x110103
abbrev envelopeW : Nat := 0x200000
abbrev envelopeMaxW : Nat := 0x200001
abbrev point : Nat := 0x200100
abbrev ceiling : Nat := 0x200110
abbrev pointMax : Nat := 0x200200
abbrev pointMin : Nat := 0x200201
abbrev medlarPoint : Nat := 0x200202
abbrev tokens : Nat := 0x200300
abbrev refill : Nat := 0x200308
abbrev thermalMarginC : Nat := 0x200400
abbrev throttleMap : Nat := 0x200401
abbrev packagePowerW : Nat := 0x200500
abbrev hbmPowerW : Nat := 0x200501
abbrev medlarPowerW : Nat := 0x200502
abbrev rowanPowerW : Nat := 0x200503
abbrev ashPowerW : Nat := 0x200600
abbrev railMv : Nat := 0x200700
abbrev nodeId : Nat := 0x300000
abbrev linkTimeoutNs : Nat := 0x300001
abbrev hopLimit : Nat := 0x300002
abbrev tgEthertype : Nat := 0x300003
abbrev linkDefault : Nat := 0x300004
abbrev portCfg : Nat := 0x300100
abbrev portState : Nat := 0x300200
abbrev portRetrain : Nat := 0x300300
abbrev routeWrite : Nat := 0x300400
abbrev routeTable : Nat := 0x300410
abbrev peerOkMap : Nat := 0x300500
abbrev connWrite : Nat := 0x300600
abbrev connSel : Nat := 0x300601
abbrev connRead : Nat := 0x300602
abbrev connState : Nat := 0x300603
abbrev connEpoch : Nat := 0x300604
abbrev abandonedNodes : Nat := 0x300700
abbrev abandonedClear : Nat := 0x300701
abbrev portMac : Nat := 0x301000
abbrev portIp : Nat := 0x301100
abbrev portPfc : Nat := 0x301200
abbrev localGib : Nat := 0x400000
abbrev memUsableGib : Nat := 0x400001
abbrev benchReplace : Nat := 0x400100
abbrev hbmRateMax : Nat := 0x400200
abbrev stackFailMap : Nat := 0x400201
abbrev hbmRate : Nat := 0x400300
abbrev bwMode : Nat := 0x400400
abbrev ageCapNs : Nat := 0x400401
abbrev bwWindowNs : Nat := 0x400402
abbrev wcbHoldNs : Nat := 0x400403
abbrev bwShare : Nat := 0x400500
abbrev bwBurst : Nat := 0x400510
abbrev bwRegulatedMap : Nat := 0x400600
abbrev refreshRate : Nat := 0x400700
abbrev scrubHours : Nat := 0x400800
abbrev outerMode : Nat := 0x400801
abbrev holdNs : Nat := 0x401000
abbrev lockState : Nat := 0x500000
abbrev claimTags : Nat := 0x501000
abbrev claimAssign : Nat := 0x501100
abbrev claimAssignBusy : Nat := 0x501101
abbrev importTable : Nat := 0x501200
abbrev identityPubkey : Nat := 0x502000
abbrev identityCert : Nat := 0x502001
abbrev debugOpenings : Nat := 0x502002
abbrev meas : Nat := 0x502100
abbrev measExtend : Nat := 0x502108
abbrev attestNonce : Nat := 0x502200
abbrev attestReport : Nat := 0x502201
abbrev attestBusy : Nat := 0x502202
abbrev debugChallenge : Nat := 0x502300
abbrev debugToken : Nat := 0x502301
abbrev debugOpen : Nat := 0x502302
abbrev ownerDebugKeyDigest : Nat := 0x502303
abbrev debugStatus : Nat := 0x502304
abbrev jtagIdcode : Nat := 0x502305
abbrev beatRate : Nat := 0x601000
abbrev stepRate : Nat := 0x601008
abbrev beatRateRow : Nat := 0x60100A
abbrev faceClampedOut : Nat := 0x602000
abbrev faceFlushedIn : Nat := 0x602100
abbrev faceOpsDone : Nat := 0x602200
abbrev faceSlicesDone : Nat := 0x602300
abbrev faceSlicesSkipped : Nat := 0x602400
abbrev faceStarvedBeats : Nat := 0x602500
abbrev faceSaveStalls : Nat := 0x602600
abbrev zmapReadsElided : Nat := 0x603000
abbrev zmapWritesElided : Nat := 0x603100
abbrev brambleRoutes : Nat := 0x603200
abbrev brambleDropped : Nat := 0x603300
abbrev brambleSpilled : Nat := 0x603400
abbrev brambleDeferred : Nat := 0x603500
abbrev brambleCombineSkipped : Nat := 0x603600
abbrev pressBlocksSent : Nat := 0x603700
abbrev pressBlocksElided : Nat := 0x603701
abbrev groupLaunches : Nat := 0x604000
abbrev groupStarted : Nat := 0x604100
abbrev groupIssueBeats : Nat := 0x604200
abbrev groupDivergent : Nat := 0x604300
abbrev groupAtomicsCombined : Nat := 0x604400
abbrev groupSaveStalls : Nat := 0x604500
abbrev groupLaunchStalls : Nat := 0x604600
abbrev groupTraps : Nat := 0x604700
abbrev medlarTraps : Nat := 0x604800
abbrev dirBackInval : Nat := 0x605000
abbrev coherenceSnoops : Nat := 0x605100
abbrev medlarHoldDeferrals : Nat := 0x605200
abbrev medlarSbFullSteps : Nat := 0x605300
abbrev medlarLoadReplays : Nat := 0x605400
abbrev stackTemp : Nat := 0x606000
abbrev benchHits : Nat := 0x606100
abbrev benchMisses : Nat := 0x606200
abbrev spoilRecalls : Nat := 0x606300
abbrev benchMissTagStalls : Nat := 0x606400
abbrev hbmQueueStalls : Nat := 0x606500
abbrev wcbRmw : Nat := 0x606600
abbrev bwStarvation : Nat := 0x606700
abbrev bwSpareGrants : Nat := 0x606800
abbrev benchPoisonAbsorbed : Nat := 0x606900
abbrev outerCorrected : Nat := 0x607000
abbrev outerUncorrected : Nat := 0x607100
abbrev innerReported : Nat := 0x607200
abbrev lastUeAddr : Nat := 0x607300
abbrev segFaults : Nat := 0x608000
abbrev domainDenials : Nat := 0x608001
abbrev peerRefusedIn : Nat := 0x608002
abbrev feInboundRefused : Nat := 0x608003
abbrev genRefusals : Nat := 0x608004
abbrev segUpdates : Nat := 0x608005
abbrev lastDenied : Nat := 0x608100
abbrev doorbells : Nat := 0x609000
abbrev doorbellRefused : Nat := 0x609001
abbrev commandsCompleted : Nat := 0x609002
abbrev cplRingStalls : Nat := 0x609003
abbrev queueInflightStalls : Nat := 0x609004
abbrev rowFabricStalls : Nat := 0x609005
abbrev haulTxnStalls : Nat := 0x609100
abbrev groupNoRoom : Nat := 0x609200
abbrev faultRecords : Nat := 0x609300
abbrev faultParkedTotal : Nat := 0x609301
abbrev faultListStalls : Nat := 0x609302
abbrev linkRetrains : Nat := 0x610000
abbrev linkReplays : Nat := 0x610100
abbrev fecCorrected : Nat := 0x610200
abbrev transitDiscarded : Nat := 0x610300
abbrev peerAbandoned : Nat := 0x610301
abbrev connWindowStalls : Nat := 0x610302
abbrev pressStalls : Nat := 0x610303
abbrev nodeConflicts : Nat := 0x610304
abbrev roceRetransmits : Nat := 0x610305
abbrev transportResends : Nat := 0x610306
abbrev windows : Nat := 0x611000
abbrev envelopeExceeded : Nat := 0x611001
abbrev reservations : Nat := 0x611100
abbrev thermalTrips : Nat := 0x611200
abbrev hottestC : Nat := 0x611300
abbrev dictRefused : Nat := 0x612000
abbrev hdpRequests : Nat := 0x612001
abbrev hdpMalformed : Nat := 0x612002
abbrev hdpDuplicates : Nat := 0x612003
abbrev hdpEventsDropped : Nat := 0x612004
abbrev eventsRaised : Nat := 0x613000
abbrev eventsCoalesced : Nat := 0x613001
abbrev shotsMerged : Nat := 0x613002
abbrev shotsHeld : Nat := 0x613003
abbrev countersSaturated : Nat := 0x613004
abbrev timeSteps : Nat := 0x613005
abbrev avsErrors : Nat := 0x614000
abbrev shotFire : Nat := 0x700000
abbrev shotCtl : Nat := 0x700001
abbrev shotMatch : Nat := 0x700002
abbrev snapSeq : Nat := 0x700003
abbrev snapTime : Nat := 0x700004
abbrev snapInfo : Nat := 0x700005
abbrev snapBusy : Nat := 0x700006
abbrev snapSel : Nat := 0x700007
abbrev snapValue : Nat := 0x700008
abbrev eventQBase : Nat := 0x700100
abbrev eventQEntries : Nat := 0x700101
abbrev eventQEnable : Nat := 0x700102
abbrev eventQHead : Nat := 0x700103
abbrev eventQTail : Nat := 0x700104
abbrev eventNext : Nat := 0x700105
abbrev eventWaiting : Nat := 0x700106
abbrev timeNow : Nat := 0x700200
abbrev ptpSource : Nat := 0x700201
abbrev ptpPort : Nat := 0x700202
abbrev ptpDomain : Nat := 0x700203
abbrev ptpTransport : Nat := 0x700204
abbrev ptpState : Nat := 0x700205
abbrev ptpOffsetNs : Nat := 0x700206
abbrev ptpStepNs : Nat := 0x700207
abbrev ptpGmId : Nat := 0x700208
abbrev counterClear : Nat := 0x700300
abbrev errSummary : Nat := 0x700301
abbrev errSummaryClear : Nat := 0x700302
abbrev faceLfsrSeed : Nat := 0x702000
abbrev faceLfsrState : Nat := 0x702100
abbrev faceCursor : Nat := 0x702200
abbrev faceState : Nat := 0x702300
abbrev groupResident : Nat := 0x702400
abbrev groupSwitchedOut : Nat := 0x702500
abbrev bootSrc : Nat := 0x800000
abbrev bootPhase : Nat := 0x800001
abbrev bootStatus : Nat := 0x800002
abbrev bootElapsedNs : Nat := 0x800003
abbrev bootLoadOffset : Nat := 0x800100
abbrev bootLoadData : Nat := 0x800101
abbrev bootLoadGo : Nat := 0x800102
abbrev bootServe : Nat := 0x800103
abbrev imageInfoStage : Nat := 0x800200
abbrev bootLocks : Nat := 0x800300
abbrev mismatch : Nat := 0x800301
abbrev fwOverride : Nat := 0x800302
abbrev ownerKeyDigest : Nat := 0x800303
abbrev minSecVersion : Nat := 0x800304
abbrev minSecRaise : Nat := 0x800305
abbrev vendorKeyState : Nat := 0x800306
abbrev urtexBaseVersion : Nat := 0x801000
abbrev urtexMedlarProfile : Nat := 0x801001
abbrev urtexGroupProfile : Nat := 0x801002
abbrev ctxTableBase : Nat := 0x900000
abbrev segTableBase : Nat := 0x900001
abbrev tableLoad : Nat := 0x900002
abbrev tableLoadStatus : Nat := 0x900003
abbrev waitPollNs : Nat := 0x900100
abbrev faultQBase : Nat := 0x901000
abbrev faultQEntries : Nat := 0x901001
abbrev faultQHead : Nat := 0x901002
abbrev faultQTail : Nat := 0x901003
abbrev faultParked : Nat := 0x901004
abbrev faultResolve : Nat := 0x901005

end K

end Sys2Proof.Machine
end

