-- ==== Sys2Proof/Machine/State.lean ====
section
/-! DEFINITION. The state of the block: everything the spec gives the Damzia, as plain data, and its value at reset. -/

namespace Sys2Proof.Machine

/-- Why an internal step stops. Every meaning that names an internal step of the package raises it.
[DEDUCED, safe: assumption 9] -/
inductive Fault where
  /-- Raised by a command that names an internal step of the package whose precondition does not hold (a tile commit of
  an idle Face, a fill that nobody waits for): the spec gives no such step in this state. Safe: the model stops where the
  hardware takes no step. -/
  | notEnabled (why : String)
deriving DecidableEq, Repr

/-- Why a command has no meaning. -/
inductive Refusal where
  /-- Raised by an arm of exec whose command has no meaning in this model. Safe: nothing is claimed about it. -/
  | notModelled (mnemonic : String)
deriving DecidableEq, Repr

/-- Status codes (R325). -/
inductive Status where
  | done | doneCorrected | aborted | abortLate | segmentFault | domainDenied | descriptorInvalid | formatUnsupported
  | matrixDivergent | groupTrap | poisonRead | remoteAbandoned | frontendGone | peerRefused | restrictedMode
deriving DecidableEq, Repr

/-- Trap causes (R197). -/
inductive Cause where
  | segmentFault | domainDenied | matrixDivergent | poisonRead | illegal | privileged | regRange | misaligned | localRange
  | region | stackOverflow | stackAtEnd | matrixOutside | matrixNested | matrixNotOpen | endInRegion | software
deriving DecidableEq, Repr

/-- PACKAGE_STATE (R24). -/
inductive PkgState where
  | booting | ready | restricted | defect
deriving DecidableEq, Repr

/-! ### Board, fuses and pins -/

/-- What the board drives and sees (R458–R464). [DEDUCED, safe: assumption 105] -/
structure Board where
  /-- Every rail within range (R462). -/
  railsUp : Bool
  /-- RESET_N is high and Rowan has left reset (R462). -/
  running : Bool
  /-- The strap pins as the board sets them, and STRAPS as sampled (R461). -/
  strapPins : Nat
  straps : Nat
  /-- CLOCK_STATUS: bits [7:0] REFCLK_HBM, [13:8] REFCLK_SDS, [14] REFCLK_MGMT; bit 15 here: REFCLK_TIME absent (R458). -/
  clocksAbsent : Nat
  /-- THERMTRIP_N is driven low (R385, R464). -/
  thermtrip : Bool
  /-- SHOT_OUT is high until this time (R438). -/
  shotOutUntil : Nat
  /-- JTAG: the selected instruction, the boundary-scan register, and what was last shifted out (R432). 0 BYPASS,
  1 IDCODE, 2 SAMPLE/PRELOAD, 3 EXTEST. -/
  jtagIr : Nat
  jtagData : Nat
  jtagOut : Nat
deriving DecidableEq, Repr

/-- What is fixed at manufacture or burned in fuses and survives every power cycle (R15, R386, R418, R419, R428, R433). -/
structure Part where
  ashlarStepping : Nat
  medlarStepping : Nat
  rowanStepping : Nat
  serial : List Byte
  mgmtMac : Nat
  jtagIdcode : Nat
  /-- Bit n set: Medlar core n is in service (R230). -/
  coreMask : Nat
  /-- The four vendor key digests and their revocation bits (R418). -/
  vendorKeys : List (BitVec 512)
  revoked : Nat
  ownerKey : BitVec 512
  ownerDebugKey : BitVec 512
  /-- Fused minimum SEC_VERSION of kinds 0–4 (R419). -/
  minSec : Tab Nat
  debugOpenings : Nat
  /-- The key store: the generation of the identity key pair, none when erased (R428, R434). -/
  identity : Option Nat
  /-- How many identity key pairs the part has had. -/
  identities : Nat
  identityCert : List Byte
deriving DecidableEq, Repr

/-! ### The dictionary -/

/-- The dictionary store: scalar values and BLOB or STR values that differ from their defaults, and the staging buffers
that differ from the current values (R388, R390, R396). Keys are (Index << 8) | Sub. -/
structure Dict where
  vals : Tab Nat
  blobs : Tab (List Byte)
  staging : Tab (List Byte)
deriving DecidableEq, Repr

/-- A request source and the reply kept for it (R405). -/
structure Kept where
  path : HdpPath
  seq : Nat
  reply : List Byte
deriving DecidableEq, Repr

/-- An event record (R447). -/
structure EventRec where
  seq : Nat
  code : Nat
  source : Nat
  time : Nat
  arg0 : Nat
  arg1 : Nat
  more : Nat
deriving DecidableEq, Repr

/-- An event subscriber (R404): its source, the version of its messages, the records not yet sent to it, at most one
message of them, and when its last message left. -/
structure Subscriber where
  path : HdpPath
  version : Nat
  waiting : List EventRec
  lastSent : Option Nat
deriving DecidableEq, Repr

/-- The HDP engine (R398–R405). -/
structure Hdp where
  /-- Least recently used first; at most 16. -/
  kept : List Kept
  subs : List Subscriber
deriving DecidableEq, Repr

/-- The management port (R393): its link, the settings in effect, and the settings written and not yet in effect. -/
structure Mgmt where
  /-- MGMT_LINK: 0 down, 1 1000BASE-X, 2 10GBASE-R. -/
  link : Nat
  /-- 0: the port tries or runs 10GBASE-R; 1: 1000BASE-X. And since when it has tried without link. -/
  trying : Nat
  since : Nat
  mode : Nat
  ip : List Byte
  prefixLen : Nat
  gateway : List Byte
  vlan : Nat
  /-- Settings written and not yet in effect: when each takes effect, its entry, and its value. -/
  waiting : List (Nat × Nat × Nat)
deriving DecidableEq, Repr

/-! ### Events, snapshots and time -/

/-- Events on their way to the arbiter and the event queue (R447–R449). -/
structure EventQ where
  /-- Raised and not yet granted. -/
  inFlight : List EventRec
  /-- Granted and waiting on Rowan, in SEQ order. -/
  waiting : List EventRec
  /-- EVENT_Q_HEAD and EVENT_Q_TAIL. -/
  head : Nat
  tail : Nat
  /-- Records stored in the ring so far. -/
  stored : Nat
deriving DecidableEq, Repr

/-- The Shotline and the snapshot registers (R437–R440). -/
structure Snap where
  seq : Nat
  time : Nat
  info : Nat
  busy : Bool
  /-- Captured values that are not zero. -/
  captured : Tab Nat
deriving DecidableEq, Repr

/-- The timestamp master and the PTP slave clock (R441–R443). [DESIGN CHOICE, safe: assumption 103] -/
structure TimeS where
  /-- ns since the package was powered: the clock of every interval. -/
  now : Nat
  /-- The value of now at boot step 1, where the time of day starts at 0. -/
  epoch : Nat
  /-- Sum of the steps and slews applied to the time of day. -/
  offset : Int
  /-- The slew in progress: when it began, by how much it moves the time, and its rate in parts per million (R443). -/
  slewAt : Nat
  slewBy : Int
  slewPpm : Nat
  /-- BOOT_ELAPSED_NS frozen at step 12. -/
  bootFrozen : Option Nat
  /-- PTP_STATE: 0 FREE_RUN, 1 ACQUIRING, 2 LOCKED, 3 HOLDOVER. -/
  ptpState : Nat
  /-- Master and local timestamps of the last Sync, its origin time still open for a two-step master. -/
  syncOrigin : Option Nat
  syncLocal : Nat
  awaitFollowUp : Bool
  lastSync : Nat
  good : Nat
  ptpOffset : Int
  gmId : Nat
deriving DecidableEq, Repr

/-! ### Boot -/

/-- Start-up state (R411–R436). -/
structure Boot where
  /-- BOOT_PHASE: the step reached, 0 in reset; and whether that step is complete. -/
  phase : Nat
  stepDone : Bool
  /-- The kind a network load waits for. -/
  awaiting : Option Nat
  /-- BOOT_STATUS: last failure, kind, SLOT_B. -/
  status : Nat
  /-- The slot or source that supplied the stage loader: 0 A, 1 B, 2 network, 3 peer. -/
  source : Nat
  /-- Rowan's 4 MiB boot buffer and the parts of a larger image loaded so far. -/
  buffer : Tab Byte
  parts : List Byte
  /-- The images now running, by kind, and where the RUNTIME payload lies in the firmware region. -/
  images : Tab Image
  runtimeAt : Nat
  /-- An accepted override (R426) and whether the combination is tested (R424). -/
  overridden : Bool
  mismatch : Nat
  /-- Step 8 judged the combination untested (R425). -/
  judgedRestricted : Bool
  /-- Measurement registers (R429). -/
  meas : Tab (BitVec 512)
  /-- MIN_SEC_RAISE was accepted since reset (R419). -/
  minSecRaised : Bool
  challenge : BitVec 256
  debugOpen : Bool
  debugStatus : Nat
  /-- The report in production: the fields captured at the grant, and the generation of the key it is signed with. -/
  attest : Option (List Byte × Nat)
  attestReport : List Byte
deriving DecidableEq, Repr

/-! ### Memory -/

/-- A Bench line (R238): data, a valid bit for each byte, dirty and poison bits, and whether the last access that
allocated or wrote it was through a zero-tracked segment (R109). -/
structure BLine where
  data : Line
  valid : BitVec 128
  dirty : Bool
  poison : Bool
  tracked : Bool
deriving DecidableEq, Repr

/-- A write-combining entry (R247). -/
structure WcbEntry where
  line : Nat
  data : Line
  valid : BitVec 128
  poison : Bool
  since : Nat
deriving DecidableEq, Repr

/-- A request at a pseudo-channel scheduler (R251): the line, its class (latency-critical or bulk), partition and arrival,
and for a write its data and bytes. [DESIGN CHOICE, unsafe: assumption 26] -/
structure HbmReq where
  line : Nat
  critical : Bool
  partition : Nat
  since : Nat
  write : Option (Line × BitVec 128)
  poison : Bool
deriving DecidableEq, Repr

/-- Who waits for a transaction or a miss: a command, an engine's share of one, an expert's FACE_OP, a request, a queue's
ring read, its record's write, a peer's transaction, or nobody any more. -/
inductive TOwner where
  | job (key : Nat)
  | share (key : Nat) (engine : Nat)
  | expert (key : Nat) (e : Nat)
  | req (id : Nat)
  | ring (q : Nat)
  | record (q : Nat)
  | peer (conn : Nat) (seqNo : Nat)
  | nobody
deriving DecidableEq, Repr

/-- A miss tag (R241): the requests that wait and the units whose accesses found the line missing, whether the fill is for
a tracked request, which codeword comes first, whether the scheduler has served the fill, how many of the two codewords
have been installed, and whether one of them was corrected (R258). -/
structure MissTag where
  waiters : List Nat
  units : List TOwner
  tracked : Bool
  lead : Nat
  served : Bool
  halves : Nat
  corrected : Bool
deriving DecidableEq, Repr

/-- One HBM3E controller and its stack (R249–R261). -/
structure Ctl where
  regulated : Bool
  /-- Starvation events and over-age bulk services in the current window. -/
  starved : Nat
  agedServed : Bool
  /-- When the current window began (R253), and when the stack's temperature was last read (R255). -/
  windowAt : Nat
  tempAt : Nat
  wcb : List WcbEntry
  /-- The next bank to be refreshed, and when the present round of the banks began (R255). -/
  bank : Nat
  roundAt : Nat
  /-- The patrol's next line, and when its present pass began (R261). -/
  scrubNext : Nat
  scrubAt : Nat
deriving DecidableEq, Repr

/-- A location that a WAIT command watches at its home (R318, R291): its offset and tracking, the test, and what the location
held, with its poison, when a write first met the condition. -/
structure Watch where
  off : Nat
  tracked : Bool
  mask : Nat
  operand : Nat
  cond : Nat
  hit : Option (Nat × Bool)
  /-- The segment it was read through, 16 · context + segment; and that segment has changed where it was read, so that the
  WAIT reads again (R290, R291). -/
  seg : Nat
  again : Bool
deriving DecidableEq, Repr

/-- A line that its home has read for a unit whose step waits for more of them (R241). [DEDUCED, safe: assumption 107] -/
structure Given where
  owner : TOwner
  line : Nat
  data : Line
  poison : Bool
deriving DecidableEq, Repr

/-- Stacked memory, Benches, Spoil buffers and controllers (R231–R262). -/
structure MemSys where
  /-- HBM contents: physical offset in SPACE 00 and byte, canonical; an unlisted byte reads 0 (assumption 2). -/
  hbm : List Host.Cell
  /-- Lines whose HBM copy holds the poison check pattern (R259). -/
  hbmPoison : List Nat
  /-- Symbols in error in each stored codeword (offset / 64) (R257). -/
  errSyms : Tab Nat
  /-- Zero-map bits set again since their zero-map line was poisoned (R111). -/
  zknown : List Nat
  /-- Stacks lost to a stopped reference clock (R459). -/
  lostStacks : BitVec 32
  bench : Tab BLine
  /-- Way of each line of the Bench's sets and the count at its last access (R239), and that count so far. -/
  ways : Tab (Nat × Nat)
  accesses : Nat
  /-- The victim register of each sub-slice (R239). -/
  victimLfsr : Tab (BitVec 16)
  /-- Spoil buffers by sub-slice 8n + s, oldest first (R242). -/
  spoil : Tab (List (Nat × BLine))
  tags : Tab MissTag
  /-- Misses held for want of a tag, and counted: the line, and the request where a core or group sent it (R241, R333). -/
  noTag : List (Nat × Option Nat)
  /-- Lines read for units, until the steps that asked for them are made. -/
  given : List Given
  /-- Scheduler queues by pseudo-channel 0–1,023, oldest first (R249). -/
  sched : Tab (List HbmReq)
  /-- Token buckets by pseudo-channel × 16 + partition, in 1/5,120 token, and when each channel's buckets were last filled (R254). -/
  buckets : Tab Nat
  bucketAt : Tab Nat
  ctls : Tab Ctl
  /-- What pending WAIT commands watch, by command (R318). -/
  watches : Tab Watch
deriving DecidableEq, Repr

/-! ### Translation and protection -/

/-- An installed context entry (R268). -/
structure CtxEntry where
  valid : Bool
  admin : Bool
  dict : Bool
  domain : Nat
  partition : Nat
deriving DecidableEq, Repr

/-- An installed segment descriptor (R269): the 32 bytes as one little-endian number, GEN apart. -/
structure Seg where
  raw : Nat
  gen : Nat
deriving DecidableEq, Repr

/-- A SEG_UPDATE that the translation controller has granted and that is not complete (R289–R291). -/
structure SegUpd where
  key : Nat
  ctx : Nat
  /-- The segment, or 255 for the context entry. -/
  seg : Nat
  /-- Bit p set: checking point p (0–63 home sub-slices, 64 Rowan) has granted it. -/
  granted : BitVec 65
  /-- Lines whose tracking the update withdraws: first and one past the last line of each range (R113). -/
  withdrawn : List (Nat × Nat)
  /-- What it replaced, for an ABORT that no checking point precedes (R293): the context entry, and segments by key. -/
  oldCtx : CtxEntry
  oldSegs : List (Nat × Seg)
deriving DecidableEq, Repr

/-- Addressing and protection (R263–R295). -/
structure Xlat where
  ctxs : Tab CtxEntry
  segs : Tab Seg
  /-- The bases of the installed tables, none before the first TABLE_LOAD (R273, R274). -/
  installed : Option (Nat × Nat)
  epoch : Nat
  /-- The load that is still draining, with its status word and the lines it materialises (R273). -/
  loading : Option (Nat × List (Nat × Nat))
  updates : List SegUpd
  /-- The claim under erase and its new tag (R277). -/
  erasing : Option (Nat × Nat)
deriving DecidableEq, Repr

/-- The target of an access after translation (R270). -/
inductive Target where
  /-- Byte offset in SPACE 00. -/
  | memory (off : Nat)
  /-- Byte offset in the dictionary window. -/
  | window (off : Nat)
  /-- A peer's NODE and byte offset, over a connection (R279). -/
  | peer (node : Nat) (off : Nat) (conn : Nat)
  /-- A front-end address, over a connection under a remote key (R284). -/
  | frontend (addr : Nat) (conn : Nat) (rkey : Nat)
deriving DecidableEq, Repr

/-- A translated access: what every request carries (R267, R270, R273). -/
structure Xl where
  ctx : Nat
  seg : Nat
  gen : Nat
  epoch : Nat
  domain : Nat
  partition : Nat
  tracked : Bool
  /-- REGION (R214): 0 Normal-cached, 1 Normal-uncached-combining, 2 Device-strict. -/
  region : Nat
  target : Target
deriving DecidableEq, Repr

/-- What a raised fault will put into its record (R328). -/
structure FaultInfo where
  cause : Cause
  va : Nat
  seg : Nat
  ctx : Nat
  write : Bool
  fetch : Bool
  imprecise : Bool
  claimInfo : Nat
  /-- The label taken when it was raised. -/
  time : Nat := 0
deriving DecidableEq, Repr

/-! ### Requests of cores and groups -/

/-- What a request asks of its home (R244). Atomics and reduce-writes name the operation of R184 and the width code. -/
inductive ReqKind where
  | read
  | fetch
  | write
  | atomic (op : Nat) (width : Nat)
  | reduce (op : Nat) (width : Nat)
deriving DecidableEq, Repr

/-- One lane's part of a request: byte position within the line, bytes, operand, compare operand, result, and where the
bytes lie in the lane's whole access. -/
structure LaneAcc where
  lane : Nat
  pos : Nat
  n : Nat
  val : Nat
  cmp : Nat
  res : Nat
  shift : Nat
deriving DecidableEq, Repr

/-- Where a request stands. -/
inductive ReqSt where
  | issued
  | stale
  | waitFill
  | served
  | denied
  | refaulted
  | poisoned
  | remote (txn : Nat)
  | remoteFailed (f : RemoteFail)
  /-- A group's atomic not performed because another of its lanes is refused (R163). -/
  | dropped
deriving DecidableEq, Repr

/-- A request of a core or group for one 128-byte line (R160, R270). -/
structure Req where
  src : Agent
  /-- The die it comes from. -/
  die : Nat
  kind : ReqKind
  xl : Xl
  va : Nat
  critical : Bool
  lanes : List LaneAcc
  /-- The pending load that takes the result. -/
  load : Nat
  /-- The line fills the core's L1 when it returns (R153). -/
  l1 : Bool
  /-- The line a plain load has been served, for the L1. -/
  data : Option Line
  st : ReqSt
  corrected : Bool
  /-- It has met a miss (R262). -/
  missed : Bool
  /-- Bytes that stores of its core have put over the line since the load that fills the L1 was sent (R154). -/
  laidOver : Line × BitVec 128
  /-- Its report waits for a place in the fault queue's list, and has been counted (R329). -/
  listHeld : Bool
deriving DecidableEq, Repr

/-- The register a load or atomic fills. -/
inductive Dest where
  | g (r : Nat)
  | v512 (r : Nat)
  | s (r : Nat)
  | lanes (r : Nat)
  | none
deriving DecidableEq, Repr

/-- An entry of the reconvergence stack (R144): the reconvergence address, the paths not yet run, the mask before. -/
structure Recon where
  at_ : BitVec 64
  paths : List (BitVec 64 × BitVec 32)
  prior : BitVec 32
deriving DecidableEq, Repr

/-- What the instructions of a group read and write (R139, R173). -/
structure Arch where
  pc : BitVec 64
  /-- v registers: lane i in bits [32i+31:32i]. -/
  v : Tab (BitVec 1024)
  s : Tab (BitVec 64)
  p : Tab (BitVec 32)
  mask : BitVec 32
  stack : List Recon
  region : Bool
  fpctl : BitVec 64
  fpflags : BitVec 64
  localMem : Tab Byte
  /-- MMA results not yet written: D and its eight rows (R193). -/
  mma : List (Nat × List (BitVec 1024))
deriving DecidableEq, Repr

/-- One line's part of a Medlar load: it waits for a line, a drain or a target (R209, R222). held marks the bytes that the
combining buffer supplied, and heldVal has them (R215). -/
structure WaitLoad where
  id : Nat
  xl : Xl
  va : Nat
  n : Nat
  shift : Nat
  held : Nat
  heldVal : Nat
deriving DecidableEq, Repr

/-- A load or atomic whose data has not all returned, or that waits to retire behind an older load (R153, R206, R209). -/
structure PendLoad where
  id : Nat
  dest : Dest
  width : Nat
  sx : Bool
  /-- Bits returned so far, by lane. -/
  got : Tab Nat
  laneMask : BitVec 32
  left : Nat
  poison : Bool
  /-- What lanes of a group's load have raised so far (R198). -/
  bad : List (Nat × FaultInfo)
  va : Nat
  pc : BitVec 64
  /-- What the group was before a load, which a fault of the load restores (R163, R199); none for a Medlar core. -/
  saved : Option Arch
  /-- The parts of a Medlar core's load of Normal-cached memory, and the bytes its store buffer supplied: what a replay
  performs again (R206). -/
  parts : List WaitLoad
  base : Nat
deriving DecidableEq, Repr

/-! ### Medlar cores and coherence -/

/-- A line state of a Medlar cache (R220); an absent line is Vacant. -/
inductive CState where
  | dirty | sole | shared | speaker
deriving DecidableEq, Repr

/-- A line in a Medlar core's L2, which holds every line of its L1I and L1D (R204). -/
structure CLine where
  st : CState
  data : Line
  poison : Bool
  /-- Bytes the core's stores have written while holding the line in Dirty (R227). -/
  wrote : BitVec 128
  /-- When the line arrived, for the hold window, and HOLD_NS at that time (R228). -/
  arrived : Nat
  hold : Nat
  /-- The core has performed the access for which it requested the line (R228). -/
  performed : Bool
deriving DecidableEq, Repr

/-- A store-buffer entry (R208). -/
structure SbEntry where
  xl : Xl
  va : Nat
  /-- For a reduce-write, its operation and width. -/
  reduce : Option (Nat × Nat)
  n : Nat
  val : Nat
deriving DecidableEq, Repr

/-- A combining-buffer entry (R215): a 128-byte block of virtual addresses. -/
structure CombEntry where
  xl : Xl
  block : Nat
  data : Line
  mask : BitVec 128
deriving DecidableEq, Repr

/-- An imprecise report (R199). -/
structure Imprecise where
  cause : Cause
  va : Nat
deriving DecidableEq, Repr

/-- A Medlar core (R195, R203–R216). -/
structure Medlar where
  running : Bool
  pc : BitVec 64
  g : Tab (BitVec 64)
  v : Tab (BitVec 512)
  fpctl : BitVec 64
  fpflags : BitVec 64
  /-- MODE: true is RUNTIME. -/
  runtime : Bool
  trapVec : BitVec 64
  trapPc : BitVec 64
  trapCause : BitVec 64
  trapAddr : BitVec 64
  ctx : BitVec 64
  scratch : BitVec 64
  sb : List SbEntry
  comb : List CombEntry
  lines : Tab CLine
  loads : List PendLoad
  waiting : List WaitLoad
  /-- Device-strict stores posted to the dictionary window and not yet performed there (R216). -/
  posted : List SbEntry
  /-- FENCE.SYS is waiting, with its D and the statuses of abandoned writes so far (R191). -/
  sysWait : Option Nat
  abandoned : List RemoteFail
  /-- Imprecise reports held until the next TRET, or until the loads before them have returned (R196, R200). -/
  held : List Imprecise
  /-- Segments whose Normal-cached lines it has accessed, 16 · context + segment (R206). -/
  segs : List Nat
deriving DecidableEq, Repr

/-- A core's request at the home of a line (R221). -/
inductive CohKind where
  | readShared | readOwn | upgrade
deriving DecidableEq, Repr

/-- A snoop (R221). -/
inductive SnoopKind where
  | shared | own | clean | inval
deriving DecidableEq, Repr

/-- Who a home's transaction serves: a core, a core's or group's request, an access of a unit, or a directory eviction. -/
inductive CohFor where
  | core (core : Nat) (kind : CohKind)
  | request (id : Nat)
  | unit
  | evict
deriving DecidableEq, Repr

/-- The transaction a home runs for a line (R219), and the cores whose answers it awaits. -/
structure CohTxn where
  serves : CohFor
  awaiting : List Nat
deriving DecidableEq, Repr

/-- A directory entry (R226). -/
structure DirEntry where
  owned : Bool
  holders : List Nat
  speaker : Option Nat
  /-- The line was granted through a zero-tracked segment (R109). -/
  tracked : Bool
  /-- Its way, and the count at its last use (R226). -/
  way : Nat
  used : Nat
deriving DecidableEq, Repr

/-- A message of the protocol on its way: a core's request, a snoop, a snoop's answer, or a line to a core. -/
inductive CohMsg where
  | req (core : Nat) (line : Nat) (kind : CohKind) (xl : Xl) (va : Nat) (granted : Bool) (demand : Bool)
  | snoop (core : Nat) (line : Nat) (kind : SnoopKind) (waited : Bool)
  | resp (core : Nat) (line : Nat) (kind : SnoopKind) (data : Option (Line × Bool)) (dirty : Bool)
  | grant (core : Nat) (line : Nat) (st : CState) (data : Line) (poison : Bool)
deriving DecidableEq, Repr

/-- Coherence at the homes (R219–R226). -/
structure Coh where
  dir : Tab DirEntry
  txns : Tab CohTxn
  msgs : List CohMsg
  /-- Updates of directory entries so far. -/
  updates : Nat
deriving DecidableEq, Repr

/-! ### Group cores -/

/-- Where a group is (R141, R162). -/
inductive GPlace where
  | resident
  | saved (slot : Nat)
  | runnable (slot : Nat)
deriving DecidableEq, Repr

/-- A group (R139, R173). -/
structure Group where
  launch : Nat
  index : Nat
  die : Nat
  core : Nat
  place : GPlace
  arch : Arch
  loads : List PendLoad
  sysWait : Option Nat
  abandoned : List RemoteFail
  /-- The faults raised and not yet switched out, in the order the group's fault arbiter granted them (R200). -/
  faults : List FaultInfo
  /-- Its switch-out has been held by back-pressure, and counted (R162, R329). -/
  held : Bool
  /-- The cause for which it was switched out (R331). -/
  cause : Option Cause
deriving DecidableEq, Repr

/-- A launch in progress (R137–R165). -/
structure Launch where
  raw : Nat
  ctx : Nat
  next : Nat
  total : Nat
  ended : Nat
  byHandler : Nat
  firstEnd : Option Status
  /-- Dies on which it holds a pending slot. -/
  slots : Nat
  stopped : Bool
  aborted : Bool
  corrected : Bool
  failed : List Status
  cores : List Nat
deriving DecidableEq, Repr

/-- A group core's shared parts: its split and its L1 (R142, R152). -/
structure GCore where
  split : Nat
  l1 : Tab Line
deriving DecidableEq, Repr

/-- All group cores (R133–R168). -/
structure GroupSys where
  /-- Groups by number: launch key · 2³² + flat index. -/
  groups : Tab Group
  launches : Tab Launch
  cores : Tab GCore
deriving DecidableEq, Repr

/-! ### Faces -/

/-- Who owns a FACE_OP: a queue's command, or an expert of a route on a Bramble (R122). -/
inductive FOwner where
  | queue
  | expert (die : Nat) (e : Nat)
deriving DecidableEq, Repr

/-- A FACE_OP (R61): the job it belongs to, its descriptor and its context. -/
structure FOp where
  owner : FOwner
  key : Nat
  raw : Nat
  ctx : Nat
deriving DecidableEq, Repr

/-- Lines fetched by a unit: data and poison, by virtual address / 128. -/
abbrev Lines := Tab (Nat × Bool)

/-- A tile in the bank that drains (R56, R83): its accumulators, whether poison has reached it, and whether its writes have
gone out and wait to be acknowledged. -/
structure TileBank where
  acc : List Accum
  poison : Bool
  sent : Bool
deriving DecidableEq, Repr

/-- A FACE_OP that runs or is switched out: the cursor (R75), the outcomes met, the accumulators of the tile being
accumulated (R89), and what stops it. -/
structure FRun where
  op : FOp
  batch : Nat
  tile : Nat
  slice : Nat
  /-- The bank that accumulates the tile after the draining one, and whether a poisoned line has reached it (R56, R90). -/
  acc : Option (List Accum)
  poison : Bool
  /-- The bank that drains (R56): its tile is the first one not committed. -/
  drain : Option TileBank
  /-- The lookup table and the activation table, once read (R39, R80). -/
  lut : Option Nat
  act : Option Nat
  /-- The panels the hoppers hold: batch entry · 2³² + tile row or column, and what was fetched by K-slice (R74). -/
  panelA : Option (Nat × Tab Lines)
  panelB : Option (Nat × Tab Lines)
  outs : List Status
  fault : Option FaultInfo
  /-- Ended before its last tile: under R69, R90, R282 or an ABORT. -/
  ending : Bool
  /-- The FACE_OP was resumed and is runnable again (R331). -/
  resumed : Bool
deriving DecidableEq, Repr

/-- One Face (R56–R94). -/
structure Face where
  staged : List FRun
  run : Option FRun
  /-- The operation before, whose last tile drains while the running one fetches already (R60). -/
  prior : Option FRun
  saves : Tab FRun
  lfsr : BitVec 32
  lfsrShown : BitVec 32
  seed : Option (BitVec 32)
  stalled : Bool
deriving DecidableEq, Repr

/-! ### Brambles -/

/-- A BRAMBLE_ROUTE or BRAMBLE_COMBINE in progress (R114–R129). -/
structure Route where
  key : Nat
  ctx : Nat
  raw : Nat
  combine : Bool
  /-- Outputs written (or, under SRC 2 or by a combine, the lists read). -/
  listed : Bool
  counts : List Nat
  entries : List Nat
  /-- Experts gathered, and experts considered for issue, in ascending order. -/
  gathered : Nat
  offered : Nat
  /-- Status bytes of finished experts, or those a combine has read. -/
  status : Tab Nat
  /-- Experts whose status byte is still to be written. -/
  owed : List Nat
  live : List Nat
  issued : Nat
  /-- Rows done of the expert being gathered. -/
  position : Nat
  /-- List positions a combine has finished, and the one it stands in with its columns done. -/
  done : List Nat
  inRow : Option (Nat × Nat)
  outs : List Status
  /-- Ended by an ABORT, a failed check or the handler: nothing more is issued (R120, R124, R125). -/
  aborted : Bool
  fault : Option FaultInfo
  /-- It is held for want of a slot or a fault record, and counted (R329). -/
  stalled : Bool
deriving DecidableEq, Repr

/-- One Bramble (R114, R327). -/
structure Bramble where
  waiting : List Route
  run : Option Route
  /-- Routes whose last FACE_OP has been offered and which are not complete. -/
  open_ : List Route
  saves : Tab Route
deriving DecidableEq, Repr

/-! ### Haul engines -/

/-- An engine's share of a Haul command (R321): the first byte of its present piece within the command, the bytes of the
piece done, how far on its next piece lies, and the bytes of the whole command. -/
structure Piece where
  key : Nat
  start : Nat
  done : Nat
  stride : Nat
  total : Nat
  fault : Option FaultInfo
deriving DecidableEq, Repr

/-- A Haul engine: its shares, the first of them running, and its save slot (R327). -/
structure Engine where
  pieces : List Piece
  saved : Option Piece
  stalled : Bool
deriving DecidableEq, Repr

/-- A Haul command in progress (R320–R323): its unit, and the shares not finished. -/
structure Haul where
  unit : Nat
  left : Nat
  bytesDone : Nat
  poisonAt : Option Nat
deriving DecidableEq, Repr

/-! ### The Press -/

/-- A block a member sends: to a rank, the byte range of the result, whether the receiver reduces it, the blocks that must
have come first (R364), and how many of its bytes have gone. -/
structure PStep where
  dest : Nat
  off : Nat
  len : Nat
  reduce : Bool
  needs : List (Nat × Nat × Bool)
  sent : Nat
deriving DecidableEq, Repr

/-- A block still to come: from a rank, where it lies, and the bytes that have not arrived. -/
structure PNeed where
  src : Nat
  off : Nat
  len : Nat
  reduce : Bool
  left : Nat
deriving DecidableEq, Repr

/-- A collective in progress (R360–R368). -/
structure Coll where
  raw : Nat
  ctx : Nat
  /-- Its member list is read and its own contribution copied. -/
  staged : Bool
  /-- Which run this is, by which its blocks are split between the directions of the ring (R365). -/
  run : Nat
  /-- Connection and NODE of every rank, and the own rank. -/
  members : List (Nat × Nat)
  rank : Nat
  /-- The ranks this member exchanges messages with, those whose parameters agreed, and those ready. -/
  peers : List Nat
  paramsFrom : List Nat
  readySent : Bool
  readyFrom : List Nat
  /-- Blocks still to be sent, and still to come. -/
  plan : List PStep
  expect : List PNeed
  /-- Messages for other ranks, with the rank they go to next, and pieces of sparse chunks that have come and are not whole,
  with the rank they came from. -/
  relay : List (Nat × Chunk)
  pieces : List (Nat × Chunk)
  /-- Block 0 of SEND as it stood before the own contribution was copied over it, with its poison, byte by byte (R361). -/
  kept : Option (Nat × Nat)
  /-- When something was last received from a rank. -/
  heard : Tab Nat
  since : Nat
  /-- Blocks sent. -/
  position : Nat
  fault : Option FaultInfo
  saved : Option Nat
  /-- It sends and takes nothing more. -/
  ended : Bool
  /-- It is held for want of a slot or a fault record, and counted (R329). -/
  stalled : Bool
deriving DecidableEq, Repr

/-- The Press (R360–R369). -/
structure Press where
  colls : Tab Coll
  /-- Parameter messages that came before their command: connection and parameters (R362). -/
  early : List (Nat × CollParams)
deriving DecidableEq, Repr

/-! ### Queues and faults -/

/-- Queue states (R297). -/
inductive QState where
  | closed | opened | stopped | closing
deriving DecidableEq, Repr

/-- A completion record not yet written (R324). -/
structure CplRec where
  seq : Nat
  status : Status
  opcode : Nat
  tag : Nat
  detail : Nat
  time : Nat
deriving DecidableEq, Repr

/-- A command fetched and not started: its SEQ and its bytes. -/
structure Fetched where
  seq : Nat
  raw : Nat
deriving DecidableEq, Repr

/-- A command queue (R296–R312). -/
structure Queue where
  st : QState
  gen : Nat
  ctx : Nat
  ringLoc : Nat
  ringAddr : Nat
  ringEntries : Nat
  cplAddr : Nat
  cplEntries : Nat
  conn : Nat
  rkey : Nat
  head : Nat
  tail : Nat
  cplHead : Nat
  status : Nat
  epoch : Nat
  fetched : List Fetched
  /-- SEQs below TAIL that an ABORT removed before they were fetched (R319). -/
  killed : List Nat
  /-- When a read found a SEQ mismatch that waits for its second read (R304). -/
  reread : Option Nat
  /-- SEQs of commands started and not complete. -/
  live : List Nat
  /-- SEQs of the fences that have ended an interval, and the statuses of completed commands since the first of them (R311). -/
  fences : List Nat
  results : List (Nat × Status)
  cplWait : List CplRec
  cplWritten : Nat
  /-- No further record is written (R470, R335). -/
  cplDead : Bool
  /-- Fetching is held by the bound on commands in flight, and counted (R333). -/
  held : Bool
deriving DecidableEq, Repr

/-- Where a command stands: handed to its unit, held by it and counted, running, or ending on its own outcome (R310, R319). -/
inductive JobPhase where
  | handed | blocked | running | ending
deriving DecidableEq, Repr

/-- A started command (R310): its header, its descriptor bytes and the outcomes it has met (R468). -/
structure Job where
  opcode : Nat
  gen : Nat
  tag : Nat
  ctx : Nat
  quiet : Bool
  raw : Nat
  /-- raw holds the descriptor, which is read once (R303). -/
  staged : Bool
  phase : JobPhase
  outs : List Status
  detail : Nat
  /-- Its queue closed, or its epoch ended, so no record is written (R300, R335). -/
  mute : Bool
  /-- The epoch of its queue's connection ended, so that it completes FRONTEND_GONE (R335). -/
  gone : Bool
  /-- Dies whose full slots have held it, and been counted (R140). -/
  counted : Nat
deriving DecidableEq, Repr

/-- A fault record (R328). -/
structure FaultRec where
  info : FaultInfo
  kind : Nat
  slot : Nat
  unit : Nat
  queue : Nat
  seq : Nat
  position : Nat
  groupIndex : Nat
  time : Nat
  ended : Bool
deriving DecidableEq, Repr

/-- The fault queue and its waiting list (R328–R332). -/
structure FaultQ where
  head : Nat
  tail : Nat
  waiting : List FaultRec
deriving DecidableEq, Repr

/-! ### Links -/

/-- Port states (R370). -/
inductive PortSt where
  | disabled | training | up | down | configInvalid | nodeConflict
deriving DecidableEq, Repr

/-- A logical port (R339–R351). -/
structure Port where
  st : PortSt
  /-- PORT_CFG as it stood at the last training (R341). -/
  cfg : Nat
  rate : Nat
  speed : Nat
  neighbour : Nat
  capped : Bool
  /-- Retraining at its current rate under R349, since this time. -/
  retraining : Option Nat
  /-- The replays of the current 1,000,000 ns (R349). -/
  replays : List Nat
  /-- When the port went DOWN, for the retry of R345. -/
  downAt : Nat
  /-- Priorities paused by the other end (R351). -/
  paused : Nat
deriving DecidableEq, Repr

/-- The link layer of a Direct logical port, or of a bond (R340, R348): the next flit expected and whether a replay was
asked for; and of the flits sent, those that wait for a credit (by their virtual channel), the next number, those in the
replay buffer with their virtual channels, and the credits left on VC0–VC3. -/
structure LinkLayer where
  nextFlit : Nat
  replayAsked : Bool
  queued : List Nat
  nextSent : Nat
  replayBuf : List (Nat × Nat)
  credits : List Nat
deriving DecidableEq, Repr

/-- A connection context (R356): its 64-byte record as one little-endian number, its state and epoch. -/
structure Conn where
  record : Nat
  /-- CONN_STATE: 0 unused, 1 ready, 2 error. -/
  st : Nat
  epoch : Nat
  epochEnded : Bool
  /-- Weighted rotation: transactions sent so far. -/
  sent : Nat
  /-- Sequence numbers already performed for this connection's peer (R357). -/
  performed : List Nat
  /-- Congestion control (R352): send rate in units of 2⁻⁴⁰ of 5 % of the port rate, and when it was last halved, raised or notified. -/
  rate : Nat
  lastCut : Option Nat
  lastRaise : Nat
  lastCnp : Option Nat
  /-- Packet sequence numbers: next to send, oldest unacknowledged, retries of it. -/
  nextPsn : Nat
  ackPsn : Nat
  retries : Nat
deriving DecidableEq, Repr

/-- A transaction outstanding on Rowan (R279, R284, R357). -/
structure Txn where
  conn : Nat
  epoch : Nat
  peer : Bool
  node : Nat
  addr : Nat
  len : Nat
  read : Bool
  /-- The remote key it carries to a front-end (R284, R299). -/
  rkey : Nat
  /-- The segment that translated it, 16 · context + segment, and its GEN (R290). -/
  seg : Nat
  gen : Nat
  bytes : List Byte
  /-- Its data is poisoned (R282), and the operation and width of a reduce-write (R357). -/
  poison : Bool
  reduce : Option (Nat × Nat)
  owner : TOwner
  psn : Nat
  since : Nat
  resentAt : Nat
  /-- Sent over a next hop; false while none is usable or the window is full (R353, R357). -/
  sent : Bool
  /-- The next hop it was last sent over (R353). -/
  hop : Option Nat
deriving DecidableEq, Repr

/-- The answer of a unit's remote read that has come (R281, R333). -/
structure Arrived where
  owner : TOwner
  conn : Nat
  addr : Nat
  len : Nat
  answer : RemoteRead
deriving DecidableEq, Repr

/-- Rowan's links (R338–R370). -/
structure Links where
  ports : Tab Port
  layers : Tab LinkLayer
  conns : Tab Conn
  /-- Routing entries by NODE, bit 59 zero (R353). -/
  routes : Tab Nat
  txns : Tab Txn
  nextTxn : Nat
  arrived : List Arrived
  /-- Packets in the transit buffers that no next hop can take yet, as they came: destination, hop count, virtual channel
  (R353, R354). -/
  transit : List (Nat × Nat × Nat)
deriving DecidableEq, Repr

/-! ### The Weighbridge -/

/-- Work offered to a weigh station (R380): a FACE_OP, or the next group of a launch. -/
inductive Work where
  | face (r : FRun)
  | group (launch : Nat)
deriving DecidableEq, Repr

/-- An offer: its work, priority and how often it was passed over (R381). -/
structure Offer where
  work : Work
  prio : Nat
  passed : Nat
deriving DecidableEq, Repr

/-- A weigh station (R377–R384). -/
structure Station where
  /-- Token balance and last refill in µJ. -/
  tokens : Int
  refill : Nat
  /-- Oldest first. -/
  offers : List Offer
  /-- Group starts granted and not yet drawn. -/
  starts : List Nat
  /-- Offers that reached 16, in order; the first reserves (R381). -/
  reserved : List Work
  /-- The start at the front is held for want of room on every core, and counted (R333). -/
  noRoom : Bool
deriving DecidableEq, Repr

/-- What the Weighbridge keeps of a die (R373–R384). Dies 0–7 ASH, 8–9 MED, 10 ROW. -/
structure DiePower where
  point : Nat
  ceiling : Nat
  /-- Hottest reading of the current window, and of the last. -/
  hotNow : Option Int
  hotLast : Int
  /-- The last reading of its hottest sensor. -/
  hot : Int
  /-- Tripped, and not yet cool enough (R384). -/
  tripped : Bool
  /-- When its sensors were last read (R383). -/
  readAt : Nat
deriving DecidableEq, Repr

/-- The Weighbridge (R371–R387, R457). -/
structure Weigh where
  started : Bool
  stations : Tab Station
  dies : Tab DiePower
  /-- Energy above the envelope carried into the next window, in µJ, and the envelope of the current window (R372). -/
  excess : Nat
  envelope : Nat
  /-- The last temperature read of each stack (R255, R383). -/
  stackLast : Tab Int
  windowAt : Nat
  /-- When the beat-rate counters were last updated (R18). -/
  beatAt : Nat
  /-- Rails whose regulator did not take the last write (R457). -/
  avsRetry : List Nat
deriving DecidableEq, Repr

/-! ### What the package sends -/

/-- What the package has sent (R393, R398, R404, R415, R438, R356, R362). [DEDUCED, safe: assumption 104] -/
inductive OutMsg where
  | hdpReply (path : HdpPath) (bytes : List Byte)
  | hdpEvents (path : HdpPath) (version : Nat) (recs : List EventRec)
  | arpReply (ip : Nat)
  | ndReply (ip : Nat)
  | echoReply (ip : Nat) (tag : Nat)
  | shotline (conn : Nat) (node : Nat) (seq : Nat) (tag : Nat)
  | peerReply (conn : Nat) (seqNo : Nat) (refused : Bool) (poison : Bool) (bytes : List Byte)
  | roceAck (conn : Nat)
  | roceAccessError (conn : Nat)
  | cnp (conn : Nat)
  | retransmit (conn : Nat) (psn : Nat)
  | replayRequest (lport : Nat)
  | flitResend (lport : Nat) (flits : List (Nat × Nat))
  | transit (lport : Nat) (dest : Nat) (hops : Nat) (vc : Nat)
  | bootImages (lport : Nat) (images : List Image)
  | collParams (conn : Nat) (p : CollParams)
  | collReady (conn : Nat) (domain : Nat) (collId : Nat)
  | collAbort (conn : Nat) (domain : Nat) (collId : Nat)
  | collData (conn : Nat) (collId : Nat) (ch : Chunk)
  | ptpDelayReq (local_ : Nat)
  | avsWrite (rail : Nat) (mv : Nat)
deriving DecidableEq, Repr

/-! ### The whole state -/

/-- The state of the Damzia. -/
structure State where
  board : Board
  part : Part
  dict : Dict
  hdp : Hdp
  mgmt : Mgmt
  ev : EventQ
  snap : Snap
  time : TimeS
  boot : Boot
  pkg : PkgState
  /-- DIES_HELD, SETT_FAIL_MAP, and the stalled directions: bit 2l + d (R12, R14). -/
  diesHeld : Nat
  settFail : Nat
  settStalled : Nat
  mem : MemSys
  xlat : Xlat
  reqs : Tab Req
  nextReq : Nat
  medlars : Tab Medlar
  coh : Coh
  grp : GroupSys
  faces : Tab Face
  brambles : Tab Bramble
  engines : Tab Engine
  hauls : Tab Haul
  press : Press
  queues : Tab Queue
  jobs : Tab Job
  faultq : FaultQ
  links : Links
  weigh : Weigh
  /-- Messages sent, oldest first. -/
  out : List OutMsg
  /-- How many free values have been taken (the model's own field). -/
  freeN : Nat
  /-- Commands waiting, first in, first out. -/
  pending : List Instr
deriving DecidableEq, Repr

/-! ### Reset -/

/-- The board as it stands before RESET_RELEASE (R461, R462).
[DESIGN CHOICE, unsafe: assumption 1; DESIGN CHOICE, unsafe: assumption 7] -/
def Board.reset : Board :=
  { railsUp := true, running := false, strapPins := 0, straps := 0, clocksAbsent := 0, thermtrip := false,
    shotOutUntil := 0, jtagIr := 1, jtagData := 0, jtagOut := 0 }

/-- A part as manufactured (assumption 4): steppings 1/1/1, every core in service, no key revoked.
[DESIGN CHOICE, unsafe: assumption 4] -/
def Part.made : Part :=
  { ashlarStepping := 1, medlarStepping := 1, rowanStepping := 1,
    serial := List.replicate 12 (0x30#8), mgmtMac := 0, jtagIdcode := 1, coreMask := 2 ^ 192 - 1,
    vendorKeys := List.replicate 4 (0#512), revoked := 0, ownerKey := 0#512, ownerDebugKey := 0#512,
    minSec := ⟨[]⟩, debugOpenings := 0, identity := some 0, identities := 1, identityCert := List.replicate 3200 (0#8) }

def Mgmt.reset : Mgmt :=
  { link := 0, trying := 0, since := 0, mode := 2, ip := List.replicate 16 (0#8), prefixLen := 64,
    gateway := List.replicate 16 (0#8), vlan := 0, waiting := [] }

def TimeS.reset : TimeS :=
  { now := 0, epoch := 0, offset := 0, slewAt := 0, slewBy := 0, slewPpm := 0, bootFrozen := none, ptpState := 0, syncOrigin := none, syncLocal := 0,
    awaitFollowUp := false, lastSync := 0, good := 0, ptpOffset := 0, gmId := 0 }

def Boot.reset : Boot :=
  { phase := 0, stepDone := false, awaiting := none, status := 0, source := 0, buffer := ⟨[]⟩, parts := [], images := ⟨[]⟩, runtimeAt := 0,
    overridden := false, mismatch := 0, judgedRestricted := false, meas := ⟨[]⟩, minSecRaised := false,
    challenge := 0#256, debugOpen := false, debugStatus := 0, attest := none,
    attestReport := List.replicate 1872 (0#8) }

def MemSys.reset : MemSys :=
  { hbm := [], hbmPoison := [], errSyms := ⟨[]⟩, zknown := [], lostStacks := 0#32, bench := ⟨[]⟩, ways := ⟨[]⟩, accesses := 0,
    victimLfsr := ⟨[]⟩, spoil := ⟨[]⟩, tags := ⟨[]⟩, noTag := [], given := [],
    sched := ⟨[]⟩, buckets := ⟨[]⟩, bucketAt := ⟨[]⟩, ctls := ⟨[]⟩, watches := ⟨[]⟩ }

def Xlat.reset : Xlat :=
  { ctxs := ⟨[]⟩, segs := ⟨[]⟩, installed := none, epoch := 0, loading := none, updates := [], erasing := none }

/-- The package with its rails up and RESET_N low: every register at its reset value, nothing running, and the next
thing that can happen is the rise of RESET_N (R386, R462, R463; assumption 1). [DESIGN CHOICE, unsafe: assumption 1] -/
def State.reset : State :=
  { board := Board.reset, part := Part.made, dict := { vals := ⟨[]⟩, blobs := ⟨[]⟩, staging := ⟨[]⟩ },
    hdp := { kept := [], subs := [] }, mgmt := Mgmt.reset,
    ev := { inFlight := [], waiting := [], head := 0, tail := 0, stored := 0 },
    snap := { seq := 0, time := 0, info := 0, busy := false, captured := ⟨[]⟩ },
    time := TimeS.reset, boot := Boot.reset, pkg := .booting, diesHeld := 0, settFail := 0, settStalled := 0,
    mem := MemSys.reset, xlat := Xlat.reset, reqs := ⟨[]⟩, nextReq := 0, medlars := ⟨[]⟩,
    coh := { dir := ⟨[]⟩, txns := ⟨[]⟩, msgs := [], updates := 0 },
    grp := { groups := ⟨[]⟩, launches := ⟨[]⟩, cores := ⟨[]⟩ },
    faces := ⟨[]⟩, brambles := ⟨[]⟩, engines := ⟨[]⟩, hauls := ⟨[]⟩, press := { colls := ⟨[]⟩, early := [] },
    queues := ⟨[]⟩, jobs := ⟨[]⟩, faultq := { head := 0, tail := 0, waiting := [] },
    links := { ports := ⟨[]⟩, layers := ⟨[]⟩, conns := ⟨[]⟩, routes := ⟨[]⟩, txns := ⟨[]⟩, nextTxn := 0, arrived := [], transit := [] },
    weigh := { started := false, stations := ⟨[]⟩, dies := ⟨[]⟩, excess := 0, envelope := 0, stackLast := ⟨[]⟩,
               windowAt := 0, beatAt := 0, avsRetry := [] },
    out := [], freeN := 0, pending := [] }

end Sys2Proof.Machine
end

