-- ==== Sys2Proof/Machine/Ops.lean ====
section
/-! DEFINITION. Operations every family shares: running, time and labels, free values, dictionary storage, counters,
events, and the geometry of the stacked memory. -/

namespace Sys2Proof.Machine

/-- What every meaning answers. -/
abbrev Answer := Host.Outcome State Fault Refusal

/-- An internal step that cannot happen in this state. [DEDUCED, safe: assumption 9] -/
def stuck (why : String) : Answer := .fault (.notEnabled why)

/-- An internal step that happens only where its condition holds. -/
def when_ (c : Bool) (why : String) (t : State) : Answer := if c then .next t else stuck why

/-- The package runs: its rails are up, RESET_N is high, and the clock without which it answers nothing is there (R458,
R462). [DEDUCED, safe: assumption 8] -/
def alive (s : State) : Bool := s.board.railsUp && s.board.running && !bit s.board.clocksAbsent 15

/-- Something that happens outside the package; without power or in reset it has no effect (R386, R463).
[DEDUCED, safe: assumption 8] -/
def outside (s : State) (t : State) : Answer := .next (if alive s then t else s)

/-- Die d (0–7 ASH, 8–9 MED, 10 ROW) is out of reset (R13). -/
def dieUp (s : State) (d : Nat) : Bool := alive s && d < 11 && !bit s.diesHeld d

/-! ### Time, labels and free values -/

/-- A value the spec leaves open, and the state in which it has been taken. [DESIGN CHOICE, safe: assumption 6] -/
def takeFree (s : State) : Nat × State := (Config.freeValue s.freeN, { s with freeN := s.freeN + 1 })

/-- What a slew has moved the time of day so far (R443). -/
def slewDone (t : TimeS) : Int :=
  let n := min t.slewBy.natAbs ((t.now - t.slewAt) * t.slewPpm / 1000000)
  if t.slewBy < 0 then -(n : Int) else (n : Int)

/-- The time of day on Rowan (R441). -/
def timeOfDay (s : State) : Nat :=
  unsigned 64 ((s.time.now : Int) - (s.time.epoch : Int) + s.time.offset + slewDone s.time)

/-- The label die d puts on a record: its copy of the time of day, within 20 ns of the master's (R441, R447).
[DESIGN CHOICE, safe: assumption 14] -/
def label (d : Nat) (s : State) : Nat :=
  if d = 10 then timeOfDay s
  else unsigned 64 ((timeOfDay s : Int) + (Config.dieSkew d s.freeN % 41 : Nat) - 20)

/-- Time moves on to t, when it has not passed it. [DEDUCED, unsafe: assumption 10] -/
def atLeast (t : Nat) (s : State) : State := { s with time := { s.time with now := max s.time.now t } }

/-! ### Dictionary storage -/

def dfltOf (key : Nat) : Nat := match entryOf key with
  | some r => r.dflt
  | none => 0

/-- A stored scalar of the dictionary, its default where nothing else is stored. -/
def dv (s : State) (key : Nat) : Nat :=
  match s.dict.vals.find key with
  | some v => v
  | none => dfltOf key

def setDv (key v : Nat) (s : State) : State :=
  { s with dict := { s.dict with vals := s.dict.vals.set (dfltOf key) key v } }

/-- Size in bytes of a BLOB entry. -/
def sizeOf (key : Nat) : Nat := match entryOf key with
  | some r => r.size
  | none => 0

/-- A stored BLOB or STR value; zeros where nothing else is stored. -/
def blob (s : State) (key : Nat) : List Byte :=
  match s.dict.blobs.find key with
  | some b => b
  | none => List.replicate (sizeOf key) 0#8

def setBlob (key : Nat) (b : List Byte) (s : State) : State :=
  { s with dict := { s.dict with blobs := s.dict.blobs.put key b } }

/-- One byte of a stored BLOB. -/
def blobByte (s : State) (key i : Nat) : Nat :=
  match s.dict.blobs.find key with
  | some b => (b.getD i 0#8).toNat
  | none => 0

/-- One bit of a stored BLOB, in the order of R27. -/
def blobBit (s : State) (key i : Nat) : Bool := bit (blobByte s key (i / 8)) (i % 8)

def setBlobBit (key i : Nat) (v : Bool) (s : State) : State :=
  let b := blob s key
  let x := (b.getD (i / 8) 0#8).toNat
  setBlob key (b.set (i / 8) (BitVec.ofNat 8 (if v then setBit x (i % 8) else clearBit x (i % 8)))) s

/-! ### Error summary, events and counters -/

/-- Set a sticky bit of ERR_SUMMARY (R450). -/
def sumErr (b : Nat) (s : State) : State := setDv K.errSummary (setBit (dv s K.errSummary) b) s

/-- An event is raised at a die and travels to the arbiter of the event queue (R447). -/
def raise (code source arg0 arg1 : Nat) (s : State) : State :=
  let r : EventRec :=
    { seq := 0, code := code, source := source, time := label source s, arg0 := arg0 % 2 ^ 64, arg1 := arg1 % 2 ^ 32, more := 0 }
  { s with ev := { s.ev with inFlight := s.ev.inFlight ++ [r] }, freeN := if source = 10 then s.freeN else s.freeN + 1 }

/-- Entries of 0x6000–0x6FFF that no chapter calls a counter. -/
def lastRecordKey (key : Nat) : Bool := (decide (K.lastUeAddr ≤ key) && decide (key < K.lastUeAddr + 32)) || key == K.lastDenied

/-- Whether a chapter calls the entry a counter (R445, R446). -/
def isCounter (key : Nat) : Bool :=
  match entryOf key with
  | some r => (r.ty == 1 || r.ty == 3) && decide (0x600000 ≤ key) && decide (key < 0x700000) && !lastRecordKey key
  | none => false

/-- The largest count of a counter (R445). -/
def counterMax (key : Nat) : Nat := match entryOf key with
  | some r => if r.ty = 1 then 0xFFFF else 2 ^ 48 - 1
  | none => 0

/-- Add n to a counter's entry; tells whether this increment saturated it (R445). -/
def bumpRaw (key n : Nat) (s : State) : State × Bool :=
  let c := bits (dv s key) 0 48
  let top := counterMax key
  if n = 0 ∨ c = top ∨ isCounter key = false then (s, false)
  else if c + n < top then (setDv key (c + n) s, false)
  else (setDv key (if top = 0xFFFF then top else top + 2 ^ 63) s, true)

/-- COUNTER_SATURATED, naming the counter (R445). -/
def saturated (key : Nat) (s : State) : State := raise 0x70 10 key 0 (sumErr 14 s)

/-- A counter counts n occurrences; saturating raises the event and is itself counted (R445). -/
def bump (key n : Nat) (s : State) : State :=
  let r := bumpRaw key n s
  if r.2 then
    let t := bumpRaw K.countersSaturated 1 (saturated key r.1)
    if t.2 then saturated K.countersSaturated t.1 else t.1
  else r.1

/-- What the package sends. [DESIGN CHOICE, safe: assumption 103] -/
def send (m : OutMsg) (s : State) : State := { s with out := s.out ++ [m] }

/-! ### The memory map (R231–R237) -/

def gib : Nat := 2 ^ 30

def localGib (s : State) : Nat := dv s K.localGib

/-- Global capacity G (R232). -/
def globalBytes (s : State) : Nat := 8 * (256 - localGib s) * gib

/-- First offset of die n's Local window. -/
def localBase (n : Nat) : Nat := 2 ^ 41 + n * 2 ^ 38

/-- The kind of region an offset lies in: 0 Global, 1 + n the Local window of die n; none where no memory lies. -/
def regionOf (s : State) (off : Nat) : Option Nat :=
  if off < globalBytes s then some 0
  else if 2 ^ 41 ≤ off then
    let n := (off - 2 ^ 41) / 2 ^ 38
    if n < 8 ∧ (off - 2 ^ 41) % 2 ^ 38 < localGib s * gib then some (1 + n) else none
  else none

/-- Pseudo-channel P and byte loc of an offset (R235, R236). -/
def place (s : State) (off : Nat) : Nat × Nat :=
  if off < 2 ^ 41 then
    (bits off 8 10 ^^^ bits off 18 10 ^^^ bits off 28 10 ^^^ bits off 38 3, bits off 18 23 * 256 + bits off 0 8)
  else
    let n := (off - 2 ^ 41) / 2 ^ 38
    let b := (off - 2 ^ 41) % 2 ^ 38
    (128 * n + (bits b 8 7 ^^^ bits b 15 7 ^^^ bits b 22 7 ^^^ bits b 29 7 ^^^ bits b 36 2),
      (256 - localGib s) * 2 ^ 23 + bits b 15 23 * 256 + bits b 0 8)

def pchan (s : State) (line : Nat) : Nat := (place s (128 * line)).1

/-- The die, the sub-slice (8n + s) and the stack or controller (4n + c) of a line's home (R237). -/
def homeDie (s : State) (line : Nat) : Nat := pchan s line / 128
def homeSlice (s : State) (line : Nat) : Nat := pchan s line / 16
def homeCtl (s : State) (line : Nat) : Nat := pchan s line / 32

/-- The claim that holds an offset (R233). -/
def claimOf (s : State) (off : Nat) : Nat :=
  if off < 2 ^ 41 then off / 2 ^ 26
  else
    let n := (off - 2 ^ 41) / 2 ^ 38
    globalBytes s / 2 ^ 26 + n * localGib s * 16 + ((off - 2 ^ 41) % 2 ^ 38) / 2 ^ 26

/-- First offset of a claim, the inverse of claimOf. -/
def claimBase (s : State) (claim : Nat) : Nat :=
  let g := globalBytes s / 2 ^ 26
  if claim < g then claim * 2 ^ 26
  else
    let k := claim - g
    localBase (k / (localGib s * 16)) + k % (localGib s * 16) * 2 ^ 26

/-- A claim's domain tag; claims 0–63 are tagged 0 (R275). -/
def claimTag (s : State) (claim : Nat) : Nat :=
  if claim < 64 then 0 else blobByte s (K.claimTags + claim / 4096) (claim % 4096)

def setClaimTag (claim tag : Nat) (s : State) : State :=
  if claim < 64 then s
  else
    let key := K.claimTags + claim / 4096
    setBlob key ((blob s key).set (claim % 4096) (BitVec.ofNat 8 tag)) s

/-- The number of a line's zero-map bit (R237). -/
def zmapBit (s : State) (line : Nat) : Nat :=
  let p := place s (128 * line)
  p.1 * 2 ^ 24 + p.2 / 128

/-- The firmware region (R232): 2 GiB from offset 0x8000_0000. -/
def inFirmware (off len : Nat) : Bool := decide (2 ^ 31 ≤ off) && decide (off + len ≤ 2 ^ 32)

end Sys2Proof.Machine
end

