-- ==== Sys2Proof/Machine/Bench.lean ====
section
/-! DEFINITION. The stacked memory, its outer code, the schedulers and write-combining buffers, the Bench arrays, the
Spoil buffers and the zero map (R108–R112, R238–R261), and the Sett routes (R8, R9). -/

namespace Sys2Proof.Machine

/-! ### HBM contents in canonical form -/

/-- Rising addresses, and no byte equal to what an unlisted address reads as. [DESIGN CHOICE, unsafe: assumption 2] -/
def Memory.wf : List Host.Cell → Bool
  | [] => true
  | [c] => c.2 != 0#8
  | c :: d :: t => c.2 != 0#8 && decide (c.1 < d.1) && Memory.wf (d :: t)

/-- The byte at an address; unlisted bytes read 0 (assumption 2). [DESIGN CHOICE, unsafe: assumption 2] -/
def Memory.read : List Host.Cell → Nat → Byte
  | [], _ => 0#8
  | c :: t, a => if c.1 = a then c.2 else Memory.read t a

/-- Write one byte, keeping the form. -/
def Memory.write : List Host.Cell → Nat → Byte → List Host.Cell
  | [], a, b => if b = 0#8 then [] else [(a, b)]
  | c :: t, a, b =>
    if a < c.1 then (if b = 0#8 then c :: t else (a, b) :: c :: t)
    else if a = c.1 then (if b = 0#8 then t else (a, b) :: t)
    else c :: Memory.write t a b

/-- Write n bytes of the little-endian number v from address a on, those whose mask bit is set. -/
def Memory.writeMasked (cells : List Host.Cell) (a : Nat) : Nat → Nat → Nat → List Host.Cell
  | 0, _, _ => cells
  | n + 1, v, m =>
    Memory.writeMasked (if m % 2 = 1 then Memory.write cells a (BitVec.ofNat 8 v) else cells) (a + 1) n (v / 256) (m / 2)

/-- The line at a line number: the listed bytes between its first and last address. -/
def Memory.line (cells : List Host.Cell) (l : Nat) : Line :=
  BitVec.ofNat 1024 (cells.foldl (fun acc c =>
    if 128 * l ≤ c.1 ∧ c.1 < 128 * l + 128 then acc + c.2.toNat * 2 ^ (8 * (c.1 - 128 * l)) else acc) 0)

/-- Each mask bit as a byte of ones. -/
def expandMask : Nat → Nat → Nat
  | 0, _ => 0
  | n + 1, m => (m % 2) * 255 + 256 * expandMask n (m / 2)

def byteMask (m : BitVec 128) : Line := BitVec.ofNat 1024 (expandMask 128 m.toNat)

/-- old with the bytes that the mask names taken from new. -/
def overlay (old new : Line) (m : BitVec 128) : Line :=
  if m = BitVec.allOnes 128 then new else (old &&& ~~~(byteMask m)) ||| (new &&& byteMask m)

/-- The mask of n bytes from position p. -/
def spanMask (p n : Nat) : BitVec 128 := BitVec.ofNat 128 ((2 ^ n - 1) * 2 ^ p)

/-! ### The outer code (R257–R259) -/

/-- What the outer code makes of a codeword. -/
inductive Decoded where
  | clean | corrected | uncorrectable | miscorrected
deriving DecidableEq, Repr

/-- R257: n symbols in error under OUTER_MODE. [DEDUCED, safe: assumption 13] -/
def outerDecode (mode cw n : Nat) : Decoded :=
  if n = 0 then .clean
  else if mode = 0 then
    if n ≤ 2 then .corrected else if Config.miscorrects cw 0 n then .miscorrected else .uncorrectable
  else if n = 1 then .corrected
  else if n ≤ 3 then .uncorrectable
  else if Config.miscorrects cw 1 n then .miscorrected else .uncorrectable

def decodeAt (s : State) (cw : Nat) : Decoded := outerDecode (dv s K.outerMode) cw (s.mem.errSyms.get 0 cw)

/-- An uncorrectable codeword found in a line (R259). -/
def foundUncorrectable (line : Nat) (s : State) : State :=
  let st := homeCtl s line
  s |> bump (K.outerUncorrected + st) 1 |> setDv (K.lastUeAddr + st) (128 * line) |> sumErr 1
    |> raise 0x20 (homeDie s line) (128 * line) st

/-- A corrected codeword (R258). -/
def foundCorrected (line : Nat) (s : State) : State :=
  s |> bump (K.outerCorrected + homeCtl s line) 1 |> sumErr 2

/-- A line as the controller delivers it. -/
structure Fetched128 where
  data : Line
  poison : Bool
  corrected : Bool
deriving DecidableEq, Repr

/-- The bytes of half h of a line. -/
def halfMask (h : Nat) : BitVec 128 := spanMask (64 * h) 64

/-- What a miscorrection makes of a codeword's 64 data bytes: n wrong symbols, and the decoder's own change of at most two
more, or one in mode 1, are altered; which, and how, the spec leaves open (R257). The same codeword always decodes alike.
[DEDUCED, safe: assumption 13] -/
def miscorrect (s : State) (line h : Nat) (d : Line) : Line :=
  let cw := 2 * line + h
  let mode := dv s K.outerMode
  let n := s.mem.errSyms.get 0 cw
  let old := bits d.toNat (512 * h) 512
  let more := if mode = 0 then 2 else 1
  let v := ((Config.miscorrected cw mode old).take (n + more)).foldl (fun v c => setBits v (8 * (c.1 % 64)) 8 c.2.toNat) old
  overlay d (BitVec.ofNat 1024 (v * 2 ^ (512 * h))) (halfMask h)

/-- Decode one half-line codeword of a line as HBM holds it. A miscorrection is a correction to the controller (R258). -/
def decodeHalf (line h : Nat) (f : Fetched128) (s : State) : Fetched128 × State :=
  match decodeAt s (2 * line + h) with
  | .clean => (f, s)
  | .corrected => ({ f with corrected := true }, foundCorrected line s)
  | .uncorrectable => ({ f with poison := true }, foundUncorrectable line s)
  | .miscorrected => ({ f with data := miscorrect s line h f.data, corrected := true }, foundCorrected line s)

/-! ### Controllers, schedulers and write combining (R247–R254) -/

def Ctl.idle : Ctl :=
  { regulated := false, starved := 0, agedServed := false, windowAt := 0, tempAt := 0, wcb := [], bank := 0, roundAt := 0,
    scrubNext := 0, scrubAt := 0 }

def ctlOf (s : State) (c : Nat) : Ctl := s.mem.ctls.get Ctl.idle c

def setCtl (c : Nat) (k : Ctl) (s : State) : State := { s with mem := { s.mem with ctls := s.mem.ctls.put c k } }

/-- A controller runs regulated, by fall-back or by BW_MODE (R253). -/
def isRegulated (s : State) (c : Nat) : Bool := (ctlOf s c).regulated || dv s K.bwMode == 1

def schedOf (s : State) (pc : Nat) : List HbmReq := s.mem.sched.get [] pc

def setSched (pc : Nat) (q : List HbmReq) (s : State) : State :=
  { s with mem := { s.mem with sched := s.mem.sched.set [] pc q } }

/-- A request joins its pseudo-channel's queue, of which the first 64 stand in the scheduler; one that finds it full is
counted, and holds its sub-slice until it enters (R249). -/
def schedPush (r : HbmReq) (s : State) : State :=
  let pc := pchan s r.line
  let q := schedOf s pc
  let t := if q.length ≥ 64 then bump (K.hbmQueueStalls + pc / 128) 1 s else s
  setSched pc (q ++ [r]) t

/-- A sub-slice is held: a request of its own waits for a place in a scheduler (R249). -/
def sliceHeld (s : State) (slice : Nat) : Bool :=
  s.mem.sched.cells.any fun c => (c.2.drop 64).any fun r => homeSlice s r.line == slice

/-- A write leaves for HBM: bulk, partition 0 as the Bench's own (R251). -/
def schedWrite (line : Nat) (d : Line) (m : BitVec 128) (poison : Bool) (s : State) : State :=
  schedPush { line := line, critical := false, partition := 0, since := s.time.now, write := some (d, m), poison := poison } s

/-- Writes of a line that are queued, and its write-combining entry, one over the other: data, bytes, and poison over what
HBM holds (R243, R247, R259). -/
def pendingOver (s : State) (line : Nat) : Line × BitVec 128 × Bool :=
  let add (a : Line × BitVec 128 × Bool) (d : Line) (m : BitVec 128) (p : Bool) : Line × BitVec 128 × Bool :=
    (overlay a.1 d m, a.2.1 ||| m, if m = BitVec.allOnes 128 then p else a.2.2 || p)
  let queued := (schedOf s (pchan s line)).foldl (fun a r =>
    if r.line = line then (match r.write with | some (d, m) => add a d m r.poison | none => a) else a)
    (0#1024, 0#128, s.mem.hbmPoison.contains line)
  match (ctlOf s (homeCtl s line)).wcb.find? fun e => e.line == line with
  | some e => add queued e.data e.valid e.poison
  | none => queued

/-- What HBM holds for a line once its queued writes and write-combining entry are laid over it (R243, R247). -/
def hbmView (s : State) (line : Nat) : Line :=
  let o := pendingOver s line
  overlay (Memory.line s.mem.hbm line) o.1 o.2.1

/-- Whether the line is poisoned in HBM once what is on its way has arrived (R259). -/
def hbmPoisoned (s : State) (line : Nat) : Bool := (pendingOver s line).2.2

/-- Write bytes of a line into HBM. A half-line codeword wholly covered is written whole; one partly covered is read,
checked, merged and encoded again, and is written poisoned where the read is uncorrectable (R248). -/
def hbmStoreHalf (line h : Nat) (d : Line) (m : BitVec 128) (s : State) : State :=
  let hm := m &&& spanMask (64 * h) 64
  if hm = 0#128 then s
  else
    let cw := 2 * line + h
    let put (w : Line) (k : BitVec 128) (t : State) : State :=
      { t with mem := { t.mem with
          hbm := Memory.writeMasked t.mem.hbm (128 * line) 128 w.toNat k.toNat
          errSyms := t.mem.errSyms.del cw } }
    if hm = spanMask (64 * h) 64 then put d hm s
    else
      let t := bump (K.wcbRmw + homeDie s line) 1 s
      match decodeAt s cw with
      | .clean => put d hm t
      | .corrected => put d hm (foundCorrected line t)
      | .uncorrectable =>
        let u := put d hm (foundUncorrectable line t)
        { u with mem := { u.mem with hbmPoison := line :: u.mem.hbmPoison.filter (· != line) } }
      | .miscorrected =>
        put (overlay (miscorrect s line h (Memory.line s.mem.hbm line)) d hm) (halfMask h) (foundCorrected line t)

/-- A write reaches the stack (R248, R259). A full line without poison clears the check pattern. -/
def hbmStore (line : Nat) (d : Line) (m : BitVec 128) (poison : Bool) (s : State) : State :=
  if bit s.mem.lostStacks.toNat (homeCtl s line) then s
  else
    let t := hbmStoreHalf line 1 d m (hbmStoreHalf line 0 d m s)
    if poison then { t with mem := { t.mem with hbmPoison := line :: t.mem.hbmPoison.filter (· != line) } }
    else if m = BitVec.allOnes 128 then { t with mem := { t.mem with hbmPoison := t.mem.hbmPoison.filter (· != line) } }
    else t

/-- A write-combining entry departs for its scheduler (R248). -/
def wcbDepart (c : Nat) (e : WcbEntry) (s : State) : State :=
  let k := ctlOf s c
  schedWrite e.line e.data e.valid e.poison (setCtl c { k with wcb := k.wcb.filter (·.line != e.line) } s)

/-- A partial line written back takes an entry or merges into its line's; a complete entry leaves, and so does the oldest
when the buffer needs a slot (R247, R248). -/
def wcbMerge (line : Nat) (d : Line) (m : BitVec 128) (poison : Bool) (s : State) : State :=
  let c := homeCtl s line
  let k := ctlOf s c
  match k.wcb.find? (·.line == line) with
  | some e =>
    let e2 : WcbEntry := { e with data := overlay e.data d m, valid := e.valid ||| m, poison := e.poison || poison }
    if e2.valid = BitVec.allOnes 128 then wcbDepart c e2 s
    else setCtl c { k with wcb := k.wcb.map fun x => if x.line = line then e2 else x } s
  | none =>
    let t := match k.wcb with
      | o :: _ => if k.wcb.length ≥ 64 then wcbDepart c o s else s
      | [] => s
    let k2 := ctlOf t c
    setCtl c { k2 with wcb := k2.wcb ++ [{ line := line, data := d, valid := m, poison := poison, since := s.time.now }] } t

/-- A full line written back replaces its write-combining entry, which then holds every byte and leaves (R247, R248). -/
def writeBackFull (line : Nat) (d : Line) (poison : Bool) (s : State) : State :=
  let c := homeCtl s line
  let k := ctlOf s c
  schedWrite line d (BitVec.allOnes 128) poison (setCtl c { k with wcb := k.wcb.filter (·.line != line) } s)

/-- The controller reads half h of a line: the codeword is checked, unless what is on its way covers it, and queued writes
and the write-combining entry lie over it. A lost stack answers poison without an access (R243, R247, R257, R459). -/
def hbmHalf (line h : Nat) (s : State) : Fetched128 × State :=
  if bit s.mem.lostStacks.toNat (homeCtl s line) then (⟨0#1024, true, false⟩, s)
  else
    let o := pendingOver s line
    if o.2.2 || o.2.1 &&& halfMask h = halfMask h then (⟨hbmView s line, o.2.2, false⟩, s)
    else
      let r := decodeHalf line h ⟨Memory.line s.mem.hbm line, false, false⟩ s
      ({ r.1 with data := overlay r.1.data o.1 o.2.1 }, r.2)

/-! ### Bench and Spoil arrays (R238–R243) -/

/-- The set of its sub-slice that a line falls into: a hash of its pseudo-channel and loc (R238).
[DESIGN CHOICE, safe: assumption 24] -/
def benchSet (s : State) (line : Nat) : Nat :=
  let p := place s (128 * line)
  Config.benchHash p.1 (p.2 / 128) % 6144

/-- Two lines fall into one set of one sub-slice. -/
def sameSet (s : State) (a b : Nat) : Bool := homeSlice s a == homeSlice s b && benchSet s a == benchSet s b

/-- The lines that stand in a line's set. -/
def setLines (s : State) (line : Nat) : List Nat := (s.mem.bench.cells.filter fun c => sameSet s c.1 line).map Prod.fst

def wayOf (s : State) (line : Nat) : Nat := (s.mem.ways.get (0, 0) line).1

/-- An access to a line of the Bench is the last one of its set so far; a line that comes takes the first way no line of
its set holds. -/
def touchLine (line : Nat) (s : State) : State :=
  let w := match s.mem.ways.find line with
    | some x => x.1
    | none => ((List.range 16).find? fun w => (setLines s line).all fun l => l == line || wayOf s l != w).getD 0
  { s with mem := { s.mem with ways := s.mem.ways.put line (w, s.mem.accesses), accesses := s.mem.accesses + 1 } }

def benchPut (line : Nat) (b : BLine) (s : State) : State :=
  touchLine line { s with mem := { s.mem with bench := s.mem.bench.put line b } }

def benchDrop (line : Nat) (s : State) : State :=
  { s with mem := { s.mem with bench := s.mem.bench.del line, ways := s.mem.ways.del line } }

def spoilOf (s : State) (slice : Nat) : List (Nat × BLine) := s.mem.spoil.get [] slice

def setSpoil (slice : Nat) (q : List (Nat × BLine)) (s : State) : State :=
  { s with mem := { s.mem with spoil := s.mem.spoil.set [] slice q } }

/-- A Bench line with every byte valid. -/
def fullLine (d : Line) (dirty poison tracked : Bool) : BLine := ⟨d, BitVec.allOnes 128, dirty, poison, tracked⟩

/-- The line in the Bench's arrays, its Spoil buffer included. -/
def heldLine (s : State) (line : Nat) : Option BLine :=
  match s.mem.bench.find line with
  | some b => some b
  | none => ((spoilOf s (homeSlice s line)).find? fun p => p.1 == line).map Prod.snd

/-- The Bench holds the line with all these bytes valid (R240). -/
def lineReady (s : State) (line : Nat) (m : BitVec 128) : Bool :=
  match heldLine s line with
  | some b => b.valid &&& m == m
  | none => false

/-- A line of the Bench as a ready access finds it: its data and its poison. -/
def benchData (s : State) (line : Nat) : Line × Bool := match s.mem.bench.find line with
  | some b => (b.data, b.poison)
  | none => (0#1024, false)

/-! ### Victims (R239, R242) -/

/-- A line that no transaction holds: no miss tag and no transaction of the protocol. -/
def lineFree (s : State) (line : Nat) : Bool := (s.mem.tags.find line).isNone && (s.coh.txns.find line).isNone

/-- When a way's line was last accessed. -/
def lastAccess (s : State) (line : Nat) : Nat := (s.mem.ways.get (0, 0) line).2

/-- The victim of tree pseudo-LRU among lines by their ways lo to lo + 2ⁿ − 1: at each node of the tree, the half that the
last access to the node's ways did not go to, while that half holds a line that may leave.
[DESIGN CHOICE, safe: assumption 24] -/
def treeVictim (way last : Nat → Nat) (all free : List Nat) : Nat → Nat → Option Nat
  | 0, lo => free.find? fun l => way l == lo
  | n + 1, lo =>
    let part (a : Nat) (ls : List Nat) : List Nat := ls.filter fun l => decide (a ≤ way l) && decide (way l < a + 2 ^ n)
    let newest (a : Nat) : Nat := (part a all).foldl (fun m l => max m (last l)) 0
    let up := lo + 2 ^ n
    let low := if (part lo free).isEmpty then false else if (part up free).isEmpty then true else decide (newest lo < newest up)
    treeVictim way last all free n (if low then lo else up)

/-- The random victim: the way a sub-slice's register draws, or the next one above it whose line may leave.
[DESIGN CHOICE, safe: assumption 24] -/
def randomVictim (s : State) (free : List Nat) (draw : Nat) : Option Nat :=
  ((List.range 16).filterMap fun i => free.find? fun l => wayOf s l == (draw + i) % 16).head?

/-- The line that leaves a full set, under BENCH_REPLACE. -/
def pickVictim (line : Nat) (s : State) : Option Nat × State :=
  let all := setLines s line
  let free := all.filter (lineFree s)
  if dv s (K.benchReplace + homeDie s line) = 0 then (treeVictim (wayOf s) (lastAccess s) all free 4 0, s)
  else
    let sl := homeSlice s line
    let r := Config.victimNext (s.mem.victimLfsr.get 1#16 sl)
    (randomVictim s free (r.toNat % 16), { s with mem := { s.mem with victimLfsr := s.mem.victimLfsr.put sl r } })

/-- A set is full for a line that comes: 16 others stand in it. -/
def setFull (s : State) (line : Nat) : Bool :=
  decide (16 ≤ s.mem.bench.cells.length) && decide (16 ≤ (setLines s line).length) && (s.mem.bench.find line).isNone

/-- A request that hits in the Spoil buffer recalls the line into its set, and the victim chosen there takes the freed
Spoil slot (R242). [DEDUCED, unsafe: assumption 23] -/
def recallLine (line : Nat) (s : State) : State :=
  match s.mem.bench.find line with
  | some _ => touchLine line s
  | none =>
    let sl := homeSlice s line
    match (spoilOf s sl).find? fun p => p.1 == line with
    | none => s
    | some p =>
      let t := setSpoil sl ((spoilOf s sl).filter fun q => q.1 != line) s
      let u :=
        if setFull t line then
          let v := pickVictim line t
          match v.1.bind fun l => (v.2.mem.bench.find l).map fun b => (l, b) with
          | some (l, b) => setSpoil sl (spoilOf v.2 sl ++ [(l, b)]) (benchDrop l v.2)
          | none => v.2
        else t
      u |> benchPut line p.2 |> bump (K.spoilRecalls + homeDie s line) 1

/-! ### Fills (R240, R241, R258, R259) -/

/-- Half h of a line is filled from the controller: bytes written before win over filled ones, a correction makes the line
dirty, and an uncorrectable codeword poisons it. [DEDUCED, unsafe: assumption 23] -/
def fillHalf (line h : Nat) (tracked : Bool) (s : State) : Bool × State :=
  let f := hbmHalf line h s
  let old : BLine := (f.2.mem.bench.find line).getD ⟨0#1024, 0#128, false, false, tracked⟩
  (f.1.corrected, benchPut line { old with
    data := overlay old.data f.1.data (halfMask h &&& ~~~old.valid)
    valid := old.valid ||| halfMask h
    dirty := old.dirty || f.1.corrected
    poison := old.poison || f.1.poison } f.2)

/-- A line that the home itself reads at once, as it does a zero-map line or a line that firmware asks for: held, recalled or
filled. [DEDUCED, unsafe: assumption 23] -/
def wholePlain (line : Nat) (s : State) : Fetched128 × State :=
  let t := recallLine line s
  let answer (c : Bool) (u : State) : Fetched128 × State :=
    let b := (u.mem.bench.find line).getD (fullLine 0#1024 false false false)
    (⟨b.data, b.poison, c⟩, u)
  if lineReady t line (BitVec.allOnes 128) then answer false (bump (K.benchHits + homeDie s line) 1 t)
  else
    let a := fillHalf line 0 false (bump (K.benchMisses + homeDie s line) 1 t)
    let b := fillHalf line 1 false a.2
    answer (a.1 || b.1) b.2

/-! ### The zero map (R108–R112) -/

/-- The zero-map line that holds a bit, and the bit's place in it. -/
def zmapPlace (bitNo : Nat) : Nat × Nat := (bitNo / 1024, bitNo % 1024)

/-- A bit of the zero map; none where its line is poisoned and no full-line write has set the bit again (R111). -/
def zmapGet (line : Nat) (s : State) : Option Bool × State :=
  let n := zmapBit s line
  let r := wholePlain (zmapPlace n).1 s
  if r.1.poison && !r.2.mem.zknown.contains n then (none, r.2)
  else (some (r.1.data.getLsbD (zmapPlace n).2), r.2)

/-- The bit and the line change in one transaction (R110). -/
def zmapSet (line : Nat) (v : Bool) (s : State) : State :=
  let n := zmapBit s line
  let zl := (zmapPlace n).1
  let r := wholePlain zl s
  let b : BLine := (r.2.mem.bench.find zl).getD ⟨r.1.data, BitVec.allOnes 128, false, r.1.poison, false⟩
  let one : Line := BitVec.ofNat 1024 (2 ^ (zmapPlace n).2)
  let d := if v then b.data ||| one else b.data &&& ~~~one
  let t := benchPut zl { b with data := d, dirty := true } r.2
  if b.poison then { t with mem := { t.mem with zknown := n :: t.mem.zknown.filter (· != n) } } else t

/-- A line leaves the Spoil buffer (R109, R242, R259, R260): a dirty one is written back, under Table 5 when it is tracked; a
poisoned line is no line of zeros. -/
def spoilDepart (line : Nat) (b : BLine) (s : State) : State :=
  if !b.dirty then s
  else if b.valid = BitVec.allOnes 128 then
    if b.tracked then
      let z := zmapGet line s
      if b.data = 0#1024 ∧ !b.poison then
        if z.1 = some true then z.2
        else bump (K.zmapWritesElided + homeDie s line) 1 (zmapSet line true z.2)
      else writeBackFull line b.data b.poison (if z.1 = some false then z.2 else zmapSet line false z.2)
    else writeBackFull line b.data b.poison s
  else wcbMerge line b.data b.valid b.poison s

/-- A line evicted from its set enters the Spoil buffer; when that needs a slot, its oldest line leaves (R242). -/
def evictLine (line : Nat) (s : State) : State :=
  match s.mem.bench.find line with
  | none => s
  | some b =>
    let sl := homeSlice s line
    let t := benchDrop line s
    match spoilOf t sl with
    | o :: rest =>
      if (spoilOf t sl).length ≥ 64 then spoilDepart o.1 o.2 (setSpoil sl (rest ++ [(line, b)]) t)
      else setSpoil sl (spoilOf t sl ++ [(line, b)]) t
    | [] => setSpoil sl [(line, b)] t

/-- Room for a line that comes into its set: the victim is evicted (R239, R242). A zero-map line that a departing line needs
takes its place beside a full set until the set's next allocation. [DEDUCED, unsafe: assumption 23] -/
def makeRoom (line : Nat) : Nat → State → State
  | 0, s => s
  | n + 1, s =>
    if setFull s line then
      let v := pickVictim line s
      match v.1 with
      | some l => makeRoom line n (evictLine l v.2)
      | none => v.2
    else s

/-- A line enters the Bench. -/
def allocPut (line : Nat) (b : BLine) (s : State) : State := benchPut line b (makeRoom line 4 s)

/-- What a tracked request that finds bytes of its line missing learns from the zero map: the missing bytes are zeros without
an HBM access, the line comes poisoned, or it must be read from HBM (R109, R111). The bytes of a line that an untracked
partial write left in the Bench stand. [DEDUCED, unsafe: assumption 112] -/
def zeroFill (line : Nat) (s : State) : Bool × State :=
  let z := zmapGet line s
  let old : BLine := (z.2.mem.bench.find line).getD ⟨0#1024, 0#128, false, false, true⟩
  match z.1 with
  | some true =>
    (true, z.2 |> bump (K.zmapReadsElided + homeDie s line) 1
      |> allocPut line { old with data := overlay 0#1024 old.data old.valid, valid := BitVec.allOnes 128, tracked := true })
  | some false => (false, z.2)
  | none => (true, allocPut line { old with data := overlay 0#1024 old.data old.valid, valid := BitVec.allOnes 128,
                                             poison := true, tracked := true } z.2)

/-- A line as its home would deliver it now, and whether it is poisoned, without an access. -/
def peekPlain (s : State) (line : Nat) : Line × Bool :=
  match heldLine s line with
  | some b => (overlay (hbmView s line) b.data b.valid, b.poison)
  | none => (hbmView s line, hbmPoisoned s line)

def peekLine (s : State) (line : Nat) (tracked : Bool) : Line × Bool :=
  if tracked && (heldLine s line).isNone then
    let n := zmapBit s line
    let z := peekPlain s (zmapPlace n).1
    if z.2 && !s.mem.zknown.contains n then (0#1024, true)
    else if z.1.getLsbD (zmapPlace n).2 then (0#1024, false)
    else peekPlain s line
  else peekPlain s line

/-- COND of WAIT (Table 4 of chapter 10): EQ, NE, GEU, LTU, GE signed, on 64 bits. -/
def waitHolds (cond v operand : Nat) : Bool :=
  match cond with
  | 0 => v == operand
  | 1 => v != operand
  | 2 => decide (operand ≤ v)
  | 3 => decide (v < operand)
  | _ => decide (signed 64 operand ≤ signed 64 v)

/-- The home has written a line: every WAIT on it is tested again (R318). -/
def noteWrite (line : Nat) (s : State) : State :=
  if s.mem.watches.cells.isEmpty then s
  else
    let f (w : Watch) : Watch :=
      if w.off / 128 = line ∧ w.hit.isNone ∧ !w.again then
        let p := peekLine s line w.tracked
        let v := bits p.1.toNat (8 * (w.off % 128)) 64
        if p.2 || waitHolds w.cond (v &&& w.mask) w.operand then { w with hit := some (v, p.2) } else w
      else w
    { s with mem := { s.mem with watches := s.mem.watches.map fun _ w => f w } }

/-- A write at the home (R109, R240, R259). A full line clears poison; a partial one leaves it, and through a tracked segment
it finds its line whole. -/
def storeData (line : Nat) (tracked : Bool) (d : Line) (m : BitVec 128) (poison : Bool) (s : State) : State :=
  let t := recallLine line s
  if m = BitVec.allOnes 128 then
    if tracked && !poison && d = 0#1024 then
      let z := zmapGet line t
      let u := bump (K.zmapWritesElided + homeDie s line) 1 z.2
      let v := match u.mem.bench.find line with
        | some b => benchPut line { b with data := 0#1024, valid := BitVec.allOnes 128, dirty := false, poison := false, tracked := true } u
        | none => u
      if z.1 = some true then v else zmapSet line true v
    else
      let u := if tracked then (let z := zmapGet line t; if z.1 = some false then z.2 else zmapSet line false z.2) else t
      allocPut line { data := d, valid := m, dirty := true, poison := poison, tracked := tracked } u
  else
    let b : BLine := (t.mem.bench.find line).getD ⟨0#1024, 0#128, false, false, false⟩
    allocPut line { data := overlay b.data d m, valid := b.valid ||| m, dirty := true, poison := b.poison || poison,
                    tracked := tracked } t

/-- A write at the home, seen by the WAITs on its line. -/
def storeLine (line : Nat) (tracked : Bool) (d : Line) (m : BitVec 128) (poison : Bool) (s : State) : State :=
  noteWrite line (storeData line tracked d m poison s)

/-- An operation at the home has made a whole new line (R244). -/
def benchWrite (line : Nat) (tracked : Bool) (d : Line) (s : State) : State :=
  noteWrite line (benchPut line (fullLine d true false tracked) s)

/-! ### Sett routes (R8, R9, R14) -/

/-- Hops along row r from column a to column b, as directions 2 · link + (1 when driven by the second endpoint). -/
def rowHops (r a b : Nat) : List Nat :=
  if a ≤ b then (List.range (b - a)).map fun i => 2 * (3 * r + a + i)
  else (List.range (a - b)).map fun i => 2 * (3 * r + a - 1 - i) + 1

/-- The link by which a Medlar die or Rowan meets row r, and its column there, for traffic of column c. -/
def doorOf (d r c : Nat) : Nat × Nat :=
  if d = 8 then (10 + r, 0)
  else if d = 9 then (12 + r, 3)
  else if c ≤ 1 then (14 + 2 * r, 1) else (15 + 2 * r, 2)

/-- The fixed route between two dies (R9). -/
def route (a b : Nat) : List Nat :=
  if a = b then []
  else if a < 8 ∧ b < 8 then
    rowHops (a / 4) (a % 4) (b % 4) ++
      (if a / 4 = b / 4 then [] else [2 * (6 + b % 4) + (if a / 4 = 0 then 0 else 1)])
  else if a < 8 then
    let d := doorOf b (a / 4) (a % 4)
    rowHops (a / 4) (a % 4) d.2 ++ [2 * d.1 + 1]
  else if b < 8 then
    let d := doorOf a (b / 4) (b % 4)
    2 * d.1 :: rowHops (b / 4) d.2 (b % 4)
  else
    let toward := if b = 8 then 0 else if b = 9 then 3 else if a = 8 then 0 else 3
    let d := doorOf a 0 toward
    let e := doorOf b 0 d.2
    2 * d.1 :: rowHops 0 d.2 e.2 ++ [2 * e.1 + 1]

/-- No direction on the way has stalled (R14): traffic on a stalled link stays held. [DEDUCED, safe: assumption 102] -/
def routeOpen (s : State) (a b : Nat) : Bool := (route a b).all fun d => !bit s.settStalled d

/-- No direction between two dies has stalled, there and back. -/
def routesOpen (s : State) (a b : Nat) : Bool := routeOpen s a b && routeOpen s b a

end Sys2Proof.Machine
end

