-- ==== Sys2Proof/Machine/Translate.lean ====
section
/-! DEFINITION. Segments and contexts, translation, and the generation and domain checks (R263–R280, R288–R290). -/

namespace Sys2Proof.Machine

/-! ### Segment fields (R269) -/

def segValid (r : Nat) : Bool := bit r 0
def segType (r : Nat) : Nat := bits r 1 2
def segRegion (r : Nat) : Nat := bits r 6 2
def segTracked (r : Nat) : Bool := bit r 9
def segVbase (r : Nat) : Nat := bits (fld r 4 4) 0 27
def segVlimit (r : Nat) : Nat := bits (fld r 8 4) 0 28
def segConn (r : Nat) : Nat := bits (fld r 12 4) 0 14
def segPbase (r : Nat) : Nat := bits (fld r 16 8) 0 56
def segFeBase (r : Nat) : Nat := fld r 16 8
def segRkey (r : Nat) : Nat := fld r 24 4
/-- Bytes a segment covers. -/
def segBytes (r : Nat) : Nat := (segVlimit r - segVbase r) * 2 ^ 21

def nodeId (s : State) : Nat := bits s.board.straps 0 12

/-- End of the dictionary window in SPACE 0b01 (R394). -/
def windowEnd : Nat := 0x1100000000

/-- The reserved fields of a descriptor, GEN apart, read zero (R269, Tables 3 and 4). -/
def segReservedZero (r : Nat) : Bool :=
  bits r 10 6 == 0 && bits (fld r 4 4) 27 5 == 0 && bits (fld r 8 4) 28 4 == 0 && fld r 28 4 == 0 &&
  (match segType r with
   | 0 => fld r 12 4 == 0 && fld r 23 1 == 0 && fld r 24 4 == 0
   | 1 => bits (fld r 12 4) 14 18 == 0 && fld r 23 1 == 0 && fld r 24 4 == 0
   | 2 => bits (fld r 12 4) 14 18 == 0
   | _ => true)

/-- A physical range lies wholly within one kind of region, the one INTERLEAVE names (R234). -/
def rangeInRegion (s : State) (off len : Nat) (local_ : Bool) : Bool :=
  match regionOf s off, regionOf s (off + len - 1) with
  | some a, some b => a == b && (local_ == (a != 0))
  | _, _ => false

/-- The conditions of Table 7 that name no other segment (R288). -/
def segChecks (s : State) (r : Nat) : Bool :=
  segReservedZero r &&
  (!segValid r ||
   (segType r != 3 && segRegion r != 3 && decide (segVbase r < segVlimit r) && decide (segVlimit r ≤ 0x8000000) &&
    (match segType r with
     | 0 =>
       let pb := segPbase r
       let off := bits pb 0 42
       bits pb 44 12 == nodeId s && bits pb 0 21 == 0 && !(segTracked r && segRegion r != 0) &&
       (match bits pb 42 2 with
        | 0 => rangeInRegion s off (segBytes r) (bit r 8)
        | 1 => segRegion r == 2 && !bit r 5 && !segTracked r && decide (off + segBytes r ≤ windowEnd)
        | _ => false)
     | 1 =>
       let pb := segPbase r
       bits pb 44 12 != nodeId s && bits pb 42 2 == 0 && bits pb 0 21 == 0 && segRegion r != 0 &&
       !bit r 5 && !bit r 8 && !segTracked r
     | _ =>
       segRegion r != 0 && !bit r 5 && !bit r 8 && !segTracked r && decide (segBytes r ≤ 2 ^ 42) &&
       decide (segFeBase r + segBytes r ≤ 2 ^ 64))))

/-- Two valid segments of a context share an address. -/
def segOverlap (a b : Nat) : Bool :=
  segValid a && segValid b && decide (segVbase a < segVlimit b) && decide (segVbase b < segVlimit a)

/-! ### Installed tables (R268–R274) -/

def CtxEntry.none : CtxEntry := { valid := false, admin := false, dict := false, domain := 0, partition := 0 }

def ctxOf (s : State) (c : Nat) : CtxEntry := s.xlat.ctxs.get CtxEntry.none c

def segOf (s : State) (c i : Nat) : Seg := s.xlat.segs.get { raw := 0, gen := 0 } (16 * c + i)

/-- A context entry as its 16 bytes stand (R268); context 0 keeps its fixed fields. -/
def ctxDecode (c raw : Nat) : CtxEntry :=
  { valid := bit raw 0, admin := c == 0 || bit raw 1, dict := c == 0 || bit raw 2,
    domain := if c = 0 then 0 else fld raw 1 1, partition := bits raw 16 4 }

/-- What an access needs (R271). -/
structure Need where
  r : Bool
  w : Bool
  x : Bool
deriving DecidableEq, Repr

def needR : Need := ⟨true, false, false⟩
def needW : Need := ⟨false, true, false⟩
def needRW : Need := ⟨true, true, false⟩
def needX : Need := ⟨false, false, true⟩

/-- The outcome of a translation: the request's carried facts, or the segment that matched, 255 for none (R270, R328). -/
inductive Xlated where
  | ok (x : Xl)
  | fault (seg : Nat)
deriving DecidableEq, Repr

/-- An update that some checking point has not granted yet: until then the translation caches hold what it replaces (R272,
R291, R294). [DEDUCED, safe: assumption 100] -/
def updateOf (s : State) (c : Nat) : Option SegUpd :=
  s.xlat.updates.find? fun u => u.ctx == c && u.granted != BitVec.allOnes 65

/-- What an update replaces of a segment. -/
def oldSegOf (s : State) (u : SegUpd) (c i : Nat) : Seg :=
  match u.oldSegs.find? fun g => g.1 == 16 * c + i with
  | some g => g.2
  | none => segOf s c i

/-- The descriptor of a segment, and the context entry, in the translation caches. -/
def cachedSeg (s : State) (c i : Nat) : Seg := match updateOf s c with
  | some u => oldSegOf s u c i
  | none => segOf s c i

def cachedCtx (s : State) (c : Nat) : CtxEntry := match updateOf s c with
  | some u => if u.seg = 255 then u.oldCtx else ctxOf s c
  | none => ctxOf s c

def segMatch (look : Nat → Seg) (vpage : Nat) : Nat → Option Nat
  | 0 => none
  | n + 1 =>
    match segMatch look vpage n with
    | some i => some i
    | none =>
      let r := (look n).raw
      if segValid r && decide (segVbase r ≤ vpage) && decide (vpage < segVlimit r) then some n else none

/-- R270: translate virtual address va in context c, whose entry is e and whose segments look gives. -/
def translateBy (e : CtxEntry) (look : Nat → Seg) (s : State) (c va : Nat) (n : Need) : Xlated :=
  if va ≥ 2 ^ 48 || !e.valid then .fault 255
  else
    match segMatch look (va / 2 ^ 21) 16 with
    | none => .fault 255
    | some i =>
      let g := look i
      let r := g.raw
      if (n.r && !bit r 3) || (n.w && !bit r 4) || (n.x && !bit r 5) then .fault i
      else
        let off := va - segVbase r * 2 ^ 21
        let t : Target := match segType r with
          | 0 => if bits (segPbase r) 42 2 = 1 then .window (bits (segPbase r) 0 42 + off)
                 else .memory (bits (segPbase r) 0 42 + off)
          | 1 => .peer (bits (segPbase r) 44 12) (bits (segPbase r) 0 42 + off) (segConn r)
          | _ => .frontend (segFeBase r + off) (segConn r) (segRkey r)
        .ok { ctx := c, seg := i, gen := g.gen, epoch := s.xlat.epoch, domain := e.domain, partition := e.partition,
              tracked := segTracked r, region := segRegion r, target := t }

/-- The translation of an access, from the translation caches (R270, R272). [DEDUCED, safe: assumption 100] -/
def translate (s : State) (c va : Nat) (n : Need) : Xlated := translateBy (cachedCtx s c) (cachedSeg s c) s c va n

/-- The translation of a refused access: its requester has discarded its cached descriptor, and reads the table (R290). -/
def retranslate (s : State) (c va : Nat) (n : Need) : Xlated := translateBy (ctxOf s c) (segOf s c) s c va n

def segFault (va seg ctx : Nat) (write fetch : Bool) : FaultInfo :=
  { cause := .segmentFault, va := va, seg := seg, ctx := ctx, write := write, fetch := fetch, imprecise := false,
    claimInfo := 0 }

/-- A translation raised SEGMENT_FAULT (R295, R450). -/
def countSegFault (s : State) : State := s |> bump K.segFaults 1 |> sumErr 4

/-! ### Checks where a request lands (R276, R290) -/

/-- The GEN of a segment at a checking point (0–63 home sub-slices, 64 Rowan): an update takes effect there when the point
grants it (R290). -/
def pointGen (s : State) (point c i : Nat) : Nat :=
  match s.xlat.updates.find? fun u => u.ctx == c && !u.granted.getLsbD point with
  | some u => (oldSegOf s u c i).gen
  | none => (segOf s c i).gen

/-- The context entry at a checking point. -/
def pointCtx (s : State) (point c : Nat) : CtxEntry :=
  match s.xlat.updates.find? fun u => u.ctx == c && u.seg == 255 && !u.granted.getLsbD point with
  | some u => u.oldCtx
  | none => ctxOf s c

/-- Whether a checking point accepts a request's GEN and table epoch. -/
def genOk (s : State) (point : Nat) (x : Xl) : Bool :=
  x.epoch == s.xlat.epoch && x.gen == pointGen s point x.ctx x.seg

/-- The request carries the GEN of an update that the point has not granted yet, and waits for the grant.
[DEDUCED, safe: assumption 100] -/
def genEarly (s : State) (point : Nat) (x : Xl) : Bool :=
  x.epoch == s.xlat.epoch && x.gen != pointGen s point x.ctx x.seg && x.gen == (segOf s x.ctx x.seg).gen

/-- A request refused for an old GEN or epoch (R273, R290). -/
def countStale (s : State) : State := bump K.genRefusals 1 s

/-- The checking point of a target: its home sub-slice, or Rowan. -/
def pointOf (s : State) (t : Target) : Nat := match t with
  | .memory off => homeSlice s (off / 128)
  | _ => 64

/-- Where an access that is made at once lands (R290). -/
inductive Landing where
  | ok (x : Xl)
  | fault (seg : Nat)
  | early
deriving DecidableEq, Repr

/-- The translation of an access made at once: one that its checking point refuses for an old GEN counts, and is translated
again. -/
def landing (s : State) (c va : Nat) (n : Need) : Landing × State :=
  match translate s c va n with
  | .fault seg => (.fault seg, s)
  | .ok x =>
    if genOk s (pointOf s x.target) x then (.ok x, s)
    else
      match retranslate s c va n with
      | .fault seg => (.fault seg, countStale s)
      | .ok y => if genOk s (pointOf s y.target) y then (.ok y, countStale s) else (.early, s)

/-- The offset lies in the installed context or segment table, which only the translation controller writes (R274). -/
def inTables (s : State) (off : Nat) : Bool :=
  match s.xlat.installed with
  | none => false
  | some (cb, sb) =>
    (decide (cb ≤ off) && decide (off < cb + 65536)) || (decide (sb ≤ off) && decide (off < sb + 2 ^ 21))

/-- The home's domain check (R274, R276). -/
def domainOk (s : State) (domain off : Nat) (write : Bool) : Bool :=
  (domain == 0 || domain == claimTag s (claimOf s off)) && !(write && inTables s off)

/-- A request refused for its domain (R276, R295, R450). -/
def countDenied (ctx domain off : Nat) (s : State) : State :=
  s |> bump K.domainDenials 1 |> sumErr 5
    |> setDv K.lastDenied (bits (claimOf s off) 0 15 + ctx * 2 ^ 16 + domain * 2 ^ 28)

/-- CLAIM_INFO of a fault record (R328). -/
def claimInfo (s : State) (off domain : Nat) : Nat :=
  bits (claimOf s off) 0 15 + claimTag s (claimOf s off) * 2 ^ 16 + domain * 2 ^ 24

def deniedInfo (s : State) (x : Xl) (va : Nat) (write : Bool) : FaultInfo :=
  { cause := .domainDenied, va := va, seg := x.seg, ctx := x.ctx, write := write, fetch := false, imprecise := false,
    claimInfo := match x.target with
      | .memory off => claimInfo s off x.domain
      | _ => x.domain * 2 ^ 24 }

/-! ### Peers and front-ends (R279, R284, R356) -/

def Conn.unused : Conn :=
  { record := 0, st := 0, epoch := 0, epochEnded := false, sent := 0, performed := [], rate := 20 * 2 ^ 40, lastCut := none,
    lastRaise := 0, lastCnp := none, nextPsn := 0, ackPsn := 0, retries := 0 }

def connOf (s : State) (c : Nat) : Conn := s.links.conns.get Conn.unused c

def setConn (c : Nat) (k : Conn) (s : State) : State :=
  { s with links := { s.links with conns := s.links.conns.put c k } }

end Sys2Proof.Machine
end

