-- ==== Sys2Proof/Machine/Remote.lean ====
section
/-! DEFINITION. Rowan as the source of remote transactions: acceptance, windows and next hops, and what a resolved
transaction leaves with its owner (R279–R284, R353–R358, R335). -/

namespace Sys2Proof.Machine

/-! ### Connection records (R356) -/

def connMode (k : Conn) : Nat := fld k.record 2 1
def connDomain (k : Conn) : Nat := fld k.record 3 1
def connFlag (k : Conn) (i : Nat) : Bool := bit (fld k.record 4 2) i
def connWindow (k : Conn) : Nat := fld k.record 6 2
def connRetry (k : Conn) : Nat := fld k.record 8 1
def connReads (k : Conn) : Nat := fld k.record 9 1
def connPmtu (k : Conn) : Nat := 512 * 2 ^ fld k.record 10 1
def connNode (k : Conn) : Nat := bits (fld k.record 12 2) 0 12
def connPort (k : Conn) : Nat := bits (fld k.record 12 2) 0 8
/-- 4,096 ns × 2ⁿ (Table 8). -/
def connAckTimeout (k : Conn) : Nat := 4096 * 2 ^ bits (fld k.record 12 2) 8 5
def connQpn (k : Conn) : Nat := bits (fld k.record 16 4) 0 24

/-! ### Routing (R353, R355) -/

def Port.idle : Port :=
  { st := .disabled, cfg := 0, rate := 0, speed := 0, neighbour := 0, capped := false, retraining := none,
    replays := [], downAt := 0, paused := 0 }

def portOf (s : State) (p : Nat) : Port := s.links.ports.get Port.idle p

def setPort (p : Nat) (x : Port) (s : State) : State :=
  { s with links := { s.links with ports := s.links.ports.put p x } }

/-! PORT_CFG (R370): MODE 0 Disabled, 1 Direct, 2 Switched, 3 Front-end; DIV 0 x8, 1 x4, 2 x2. -/

def cfgDiv (c : Nat) : Nat := bits c 0 2
def cfgMode (c : Nat) : Nat := bits c 2 2
def cfgRateMax (c : Nat) : Nat := bits c 4 2
def cfgReach (c : Nat) : Nat := bits c 6 2
def cfgBond (c : Nat) : Nat := bits c 8 2
def cfgSpeed (c : Nat) : Nat := bits c 10 3

/-- Lane generation of an Ethernet speed at a division (Table 6): speeds 0–4 in each column are x8, x4, x2. -/
def laneRate (div speed : Nat) : Option Nat :=
  match div, speed with
  | 0, 0 => some 0 | 0, 1 => some 1 | 0, 2 => some 2
  | 1, 1 => some 0 | 1, 2 => some 1 | 1, 3 => some 2 | 1, 4 => some 3
  | 2, 2 => some 0 | 2, 3 => some 1 | 2, 4 => some 2
  | _, _ => none

/-- Step 1 of training accepts the configuration of port n (R339, R340, R343, R344, R347). -/
def cfgOk (n c : Nat) : Bool :=
  cfgDiv c != 3 && cfgReach c != 3 &&
  (cfgBond c == 0 || (cfgMode c == 1 && cfgDiv c == 0 && decide (n % 4 + cfgBond c ≤ 3))) &&
  (cfgMode c == 1 ||
   (if cfgSpeed c = 5 then cfgReach c != 2
    else match laneRate (cfgDiv c) (cfgSpeed c) with
      | some g => decide (cfgRateMax c ≤ g)
      | none => false))

/-- The further members of the bond that this logical port leads (R340). -/
def bondMembers (s : State) (p : Nat) : List Nat :=
  let x := portOf s p
  if p % 4 = 0 ∧ cfgMode x.cfg = 1 ∧ cfgOk (p / 4) x.cfg ∧ x.st ≠ .disabled then
    (List.range (cfgBond x.cfg)).map fun k => p + 4 * (k + 1)
  else []

/-- A logical port carries traffic: a bond while any member is UP (R340). -/
def portUp (s : State) (p : Nat) : Bool := (p :: bondMembers s p).any fun m => (portOf s m).st == .up

/-- The lead of the bond whose further member this logical port is (R340). -/
def bondLead (s : State) (p : Nat) : Option Nat :=
  if p % 4 = 0 then
    ([1, 2, 3].filter fun k => decide (k ≤ p / 4 % 4) && (bondMembers s (p - 4 * k)).contains p).head?.map fun k => p - 4 * k
  else none

/-- An entry no ROUTE_WRITE has set reads zeros in ROUTE_TABLE. -/
def routeEntry (s : State) (node : Nat) : Nat := s.links.routes.get 0 node

def routeValid (e : Nat) : Bool := bit e 56
def routeHop (e i : Nat) : Nat := bits e (12 + 7 * i) 7
def routeWeight (e i : Nat) : Nat := bits e (40 + 4 * i) 4

def peerOk (s : State) (node : Nat) : Bool := blobBit s K.peerOkMap node

/-- The usable next hops of a routing entry, with their weights: the port is UP and the weight is not zero (R353). -/
def weightedHops (s : State) (node : Nat) : List (Nat × Nat) :=
  let e := routeEntry s node
  ((List.range 4).filter fun i => routeWeight e i != 0 && decide (routeHop e i < 96) && portUp s (routeHop e i) &&
    (bondLead s (routeHop e i)).isNone).map fun i => (routeHop e i, routeWeight e i)

def usableHops (s : State) (node : Nat) : List Nat := (weightedHops s node).map Prod.fst

/-- Some next hop is usable (R353). -/
def hopUsable (s : State) (node : Nat) : Bool := routeValid (routeEntry s node) && !(usableHops s node).isEmpty

/-- A packet may leave over a logical port now: the other end of a Switched one has not paused its priority (R351).
[PRESUMED, unsafe: assumption 60] -/
def portTakes (s : State) (h : Nat) : Bool :=
  cfgMode (portOf s h).cfg != 2 || !bit (portOf s h).paused (Config.torgearPriority h % 8)

/-- The hop that has the k-th of ΣW turns. -/
def turnOf : List (Nat × Nat) → Nat → Option Nat
  | [], _ => none
  | (h, w) :: rest, k => if k < w then some h else turnOf rest (k - w)

/-! ### The link layer of Direct ports (R348) -/

def LinkLayer.start (credits : List Nat) : LinkLayer :=
  { nextFlit := 0, replayAsked := false, queued := [], nextSent := 0, replayBuf := [], credits := credits }

/-- The logical port that has a port's link layer: the lead of its bond (R340). -/
def linkPort (s : State) (lp : Nat) : Nat := (bondLead s lp).getD lp

def layerOf (s : State) (lp : Nat) : LinkLayer := s.links.layers.get (LinkLayer.start []) (linkPort s lp)

def setLayer (lp : Nat) (x : LinkLayer) (s : State) : State :=
  { s with links := { s.links with layers := s.links.layers.put (linkPort s lp) x } }

/-- Flits leave, in order on each virtual channel, as far as its credits allow; a flit sent is kept for a replay. -/
def sendQueued : List Nat → LinkLayer → LinkLayer
  | [], x => x
  | vc :: rest, x =>
    let c := x.credits.getD vc 0
    if c = 0 then
      let y := sendQueued rest x
      { y with queued := vc :: y.queued }
    else
      sendQueued rest { x with credits := x.credits.set vc (c - 1), nextSent := x.nextSent + 1,
                               replayBuf := x.replayBuf ++ [(x.nextSent, vc)] }

def pumpFlits (x : LinkLayer) : LinkLayer := sendQueued x.queued { x with queued := [] }

/-- A packet of n flits leaves over a logical port on a virtual channel. [PRESUMED, unsafe: assumption 58] -/
def sendFlits (lp vc n : Nat) (s : State) : State :=
  if cfgMode (portOf s lp).cfg = 1 then
    let x := layerOf s lp
    setLayer lp (pumpFlits { x with queued := x.queued ++ List.replicate n vc }) s
  else s

/-- Flits of a packet with so many bytes of data: 240 in each (R338). [PRESUMED, unsafe: assumption 58] -/
def flitsOf (len : Nat) : Nat := max 1 (ceilDiv len 240)

/-! ### Acceptance -/

/-- Whether Rowan accepts a remote request: the conditions of R279 for a peer; for a front-end, a connection whose epoch
stands (R336). [PRESUMED, unsafe: assumption 62] -/
def acceptRemote (s : State) (t : Target) : Option RemoteFail :=
  match t with
  | .peer node _ conn =>
    let k := connOf s conn
    if routeValid (routeEntry s node) && peerOk s node && connMode k == 1 && k.st == 1 && connNode k == node then none
    else some .peerRefused
  | .frontend _ conn _ =>
    let k := connOf s conn
    if connMode k == 2 && k.st == 1 && !k.epochEnded then none else some .frontendGone
  | _ => none

/-- Transactions of a connection sent and not acknowledged (R357). -/
def outstanding (s : State) (conn : Nat) : Nat :=
  (s.links.txns.cells.filter fun c => c.2.conn == conn && c.2.sent).length

def outstandingReads (s : State) (conn : Nat) : Nat :=
  (s.links.txns.cells.filter fun c => c.2.conn == conn && c.2.sent && c.2.read).length

/-- The connection's frames travel at a priority that the other end has paused (R351, R352): PCP where they are tagged,
priority 0 where they are not. [PRESUMED, unsafe: assumption 60] -/
def pausedConn (s : State) (k : Conn) : Bool :=
  let vlan := fld k.record 14 2
  bit (portOf s (connPort k)).paused (if bit vlan 15 then bits vlan 12 3 else 0)

/-- The next hop of a connection's next transaction to a NODE, by weighted rotation: hop i has Wi of every ΣW turns (R353).
[DEDUCED, unsafe: assumption 61] -/
def nextHop (s : State) (conn node : Nat) : Option Nat :=
  let hs := if routeValid (routeEntry s node) then weightedHops s node else []
  turnOf hs ((connOf s conn).sent % (hs.foldl (fun a h => a + h.2) 0))

/-- A transaction of the connection may leave now: the window, the read bound, Rowan's 32,768 and a next hop, or a front-end's
port that is UP, allow it (R321, R351, R352, R353, R357). -/
def mayLeave (s : State) (conn : Nat) (read : Bool) : Bool :=
  let k := connOf s conn
  decide (outstanding s conn < connWindow k) &&
  decide ((s.links.txns.cells.filter fun c => c.2.sent).length < 32768) &&
  (if connMode k = 2 then
     portUp s (connPort k) && (!read || decide (outstandingReads s conn < connReads k)) && !pausedConn s k
   else match nextHop s conn (connNode k) with
     | some h => portTakes s h
     | none => false)

/-- Sequence numbers a transaction takes: one for Torgear transport, one for each packet for RoCEv2.
[PRESUMED, unsafe: assumption 62] -/
def psnCount (k : Conn) (len : Nat) : Nat := if connMode k = 2 then max 1 (ceilDiv len (connPmtu k)) else 1

/-- A transaction leaves: over the next hop of the rotation to a peer (R353). -/
def leaveTxn (id : Nat) (x : Txn) (s : State) : State :=
  let h := if x.peer then nextHop s x.conn x.node else none
  let k := connOf s x.conn
  let t := setConn x.conn { k with sent := k.sent + 1 } { s with links := { s.links with
    txns := s.links.txns.put id { x with sent := true, resentAt := s.time.now, hop := h } } }
  match h with
  | some p => sendFlits p 0 (if x.read then 1 else flitsOf x.len) t
  | none => t

/-- The first waiting transactions of a connection leave, as many as its bounds allow. -/
def pumpConn (conn : Nat) : Nat → State → State
  | 0, s => s
  | n + 1, s =>
    match s.links.txns.cells.find? fun c => c.2.conn == conn && !c.2.sent with
    | none => s
    | some c => if mayLeave s conn c.2.read then pumpConn conn n (leaveTxn c.1 c.2 s) else s

/-- A transaction is accepted into the Torgear transport or the RoCEv2 engine (R279, R284, R333, R357). -/
def openTxnWith (poison : Bool) (reduce : Option (Nat × Nat)) (xl : Xl) (len : Nat) (read : Bool) (bytes : List Byte)
    (owner : TOwner) (s : State) : Nat × State :=
  let d : Nat × Bool × Nat × Nat := match xl.target with
    | .peer node off conn => (conn, true, node, off)
    | .frontend addr conn _ => (conn, false, 0, addr)
    | .memory off => (0, false, 0, off)
    | .window off => (0, false, 0, off)
  let k := connOf s d.1
  let id := s.links.nextTxn
  let full := decide (outstanding s d.1 ≥ connWindow k)
  let busy := decide ((s.links.txns.cells.filter fun c => c.2.sent).length ≥ 32768)
  let x : Txn := { conn := d.1, epoch := k.epoch, peer := d.2.1, node := d.2.2.1, addr := d.2.2.2, len := len, read := read,
                   rkey := (match xl.target with | .frontend _ _ k => k | _ => 0),
                   seg := 16 * xl.ctx + xl.seg, gen := xl.gen, bytes := bytes, poison := poison, reduce := reduce, owner := owner, psn := (k.nextPsn + psnCount k len - 1) % 2 ^ 24, since := s.time.now,
                   resentAt := s.time.now, sent := false, hop := none }
  let s1 := if full then bump K.connWindowStalls 1 s else s
  let s2 := if busy then bump K.rowFabricStalls 1 s1 else s1
  let s3 := setConn d.1 { k with nextPsn := (k.nextPsn + psnCount k len) % 2 ^ 24 } s2
  (id, pumpConn d.1 1 { s3 with links := { s3.links with txns := s3.links.txns.put id x, nextTxn := id + 1 } })

def openTxn (xl : Xl) (len : Nat) (read : Bool) (bytes : List Byte) (owner : TOwner) (s : State) : Nat × State :=
  openTxnWith false none xl len read bytes owner s

/-- Every waiting transaction that may leave does, after a port or a route has changed. -/
def pumpAll (s : State) : State :=
  (s.links.txns.cells.filter fun c => !c.2.sent).foldl (fun t c => pumpConn c.2.conn 1 t) s

/-! ### Resolution -/

def remoteStatus : RemoteFail → Status
  | .frontendGone => .frontendGone
  | .remoteAbandoned => .remoteAbandoned
  | .peerRefused => .peerRefused

/-- A command has met an outcome (R468). -/
def addOut (key : Nat) (o : Status) (s : State) : State :=
  match s.jobs.find key with
  | some j => if j.outs.contains o then s else { s with jobs := s.jobs.put key { j with outs := j.outs ++ [o] } }
  | none => s

/-- A FACE_OP of a route's expert has met an outcome: its own status has it (R88). -/
def expertOut (key e : Nat) (o : Status) (s : State) : State :=
  let put (r : FRun) : FRun :=
    if r.op.key == key && (match r.op.owner with | .expert _ x => x == e | .queue => false) && !r.outs.contains o
    then { r with outs := r.outs ++ [o] } else r
  { s with faces := s.faces.map fun _ f => { f with run := f.run.map put, prior := f.prior.map put,
                                                      staged := f.staged.map put, saves := f.saves.map fun _ r => put r } }

/-- An outcome that a transaction or a miss leaves with the command, or the expert's FACE_OP, that it works for. -/
def ownerOut (o : TOwner) (st : Status) (s : State) : State :=
  match o with
  | .job key => addOut key st s
  | .share key _ => addOut key st s
  | .expert key e => expertOut key e st s
  | .req _ => s
  | .ring _ => s
  | .record _ => s
  | .peer _ _ => s
  | .nobody => s

/-- What a failed transaction leaves with its owner: an outcome or a failed request (R282). A record's write
fails only with its connection's epoch, which stops the queue (R470). -/
def failOwner (o : TOwner) (f : RemoteFail) (s : State) : State :=
  match o with
  | .req id =>
    match s.reqs.find id with
    | some r => { s with reqs := s.reqs.put id { r with st := .remoteFailed f } }
    | none => s
  | _ => ownerOut o (remoteStatus f) s

/-- The answers and lines that have come for owners are used, or nobody waits for them any more, nor for the reads that are
still outstanding. -/
def dropAnswers (p : TOwner → Bool) (s : State) : State :=
  { s with links := { s.links with
             arrived := s.links.arrived.filter fun a => !p a.owner
             txns := s.links.txns.map fun _ x => if x.read && p x.owner then { x with owner := .nobody } else x }
           mem := { s.mem with given := s.mem.given.filter fun g => !p g.owner } }

/-- Somebody still waits for what an owner asked for. -/
def ownerLives (s : State) : TOwner → Bool
  | .job key => (s.jobs.find key).isSome
  | .share key _ => (s.jobs.find key).isSome
  | .expert key _ => (s.jobs.find key).isSome
  | .req id => (s.reqs.find id).isSome
  | .ring q => (match s.queues.find q with
    | some x => x.st == .opened
    | none => false)
  | .record q => (match s.queues.find q with
    | some x => x.st != .closed
    | none => false)
  | .peer _ _ => true
  | .nobody => false

def dropArrived (o : TOwner) (s : State) : State := dropAnswers (· == o) s

def dropTxn (id : Nat) (s : State) : State := { s with links := { s.links with txns := s.links.txns.del id } }

/-- A read's answer comes to the unit that waits for it (R281, R333). [DEDUCED, safe: assumption 63] -/
def answerRead (x : Txn) (a : RemoteRead) (s : State) : State :=
  if ownerLives s x.owner then
    { s with links := { s.links with arrived := s.links.arrived ++ [⟨x.owner, x.conn, x.addr, x.len, a⟩] } }
  else s

/-- A request is answered by its own state, a unit's read by an answer that its next step takes. -/
def isUnit : TOwner → Bool
  | .req _ => false
  | _ => true

/-- A transaction fails and is forgotten; a unit's read returns its failure (R281). -/
def failTxn (id : Nat) (f : RemoteFail) (s : State) : State :=
  match s.links.txns.find id with
  | some x =>
    let t := failOwner x.owner f (dropTxn id s)
    if x.read && isUnit x.owner then answerRead x (.failed f) t else t
  | none => s

/-- What abandonment of a peer transaction leaves (R358). -/
def noteAbandoned (node conn : Nat) (s : State) : State :=
  s |> setBlobBit K.abandonedNodes node true |> bump K.peerAbandoned 1 |> sumErr 7 |> raise 0x43 10 node conn

/-- The command a transaction works for. -/
def ownerKey : TOwner → Option Nat
  | .job key => some key
  | .share key _ => some key
  | .expert key _ => some key
  | _ => none

/-- The transactions of a command that are not yet resolved. -/
def txnsOf (s : State) (key : Nat) : Nat :=
  (s.links.txns.cells.filter fun c => ownerKey c.2.owner == some key).length

/-- The transactions of an expert's FACE_OP that are not yet resolved. -/
def txnsOfExpert (s : State) (key e : Nat) : Nat :=
  (s.links.txns.cells.filter fun c => c.2.owner == .expert key e).length

/-- The transactions of one engine that are not yet resolved (R321, R333). -/
def txnsOfEngine (s : State) (e : Nat) : Nat :=
  (s.links.txns.cells.filter fun c => match c.2.owner with | .share _ k => k == e | _ => false).length

end Sys2Proof.Machine
end

