-- ==== Sys2Proof/Machine/Cores.lean ====
section
/-! DEFINITION. Medlar cores: traps, loads that return, the store buffer, the combining buffer and the core's side of
coherence; and the requests that cores and groups send (R196–R200, R203–R228). -/

namespace Sys2Proof.Machine

/-- Cause codes (R197, Table 13). -/
def causeCode : Cause → Nat
  | .segmentFault => 0x10 | .domainDenied => 0x11 | .matrixDivergent => 0x14 | .poisonRead => 0x20 | .illegal => 0x40
  | .privileged => 0x41 | .regRange => 0x42 | .misaligned => 0x43 | .localRange => 0x44 | .region => 0x45
  | .stackOverflow => 0x46 | .stackAtEnd => 0x47 | .matrixOutside => 0x48 | .matrixNested => 0x49
  | .matrixNotOpen => 0x4A | .endInRegion => 0x4B | .software => 0x4C

/-- The status a task ends with for its cause (R197, Table 13). -/
def causeStatus : Cause → Status
  | .segmentFault => .segmentFault
  | .domainDenied => .domainDenied
  | .matrixDivergent => .matrixDivergent
  | .poisonRead => .poisonRead
  | _ => .groupTrap

/-- The place of a cause in the order of R198. -/
def causeRank : Cause → Nat
  | .illegal => 1 | .privileged => 2 | .regRange => 3 | .endInRegion => 4 | .stackAtEnd => 5 | .matrixOutside => 6
  | .matrixNested => 7 | .matrixNotOpen => 8 | .matrixDivergent => 9 | .stackOverflow => 10 | .misaligned => 11
  | .localRange => 12 | .region => 13 | .segmentFault => 14 | .domainDenied => 15 | .poisonRead => 16 | .software => 17

/-! ### Cores -/

/-- A core as it leaves reset: RUNTIME mode, registers zero (R195; assumption 5). [DESIGN CHOICE, unsafe: assumption 5] -/
def Medlar.fresh : Medlar :=
  { running := false, pc := 0#64, g := ⟨[]⟩, v := ⟨[]⟩, fpctl := 0#64, fpflags := 0#64, runtime := true, trapVec := 0#64,
    trapPc := 0#64, trapCause := 0#64, trapAddr := 0#64, ctx := 0#64, scratch := 0#64, sb := [], comb := [], lines := ⟨[]⟩,
    loads := [], waiting := [], posted := [], sysWait := none, abandoned := [], held := [], segs := [] }

def medlarOf (s : State) (c : Nat) : Medlar := s.medlars.get Medlar.fresh c

def setMedlar (c : Nat) (m : Medlar) (s : State) : State := { s with medlars := s.medlars.put c m }

/-- MED0 holds cores 0–95, MED1 cores 96–191 (R203). -/
def dieOfCore (c : Nat) : Nat := if c < 96 then 8 else 9

/-! ### Requests -/

/-- The die an agent stands on. -/
def dieOf (s : State) (a : Agent) : Nat :=
  match a with
  | .medlar c => dieOfCore c
  | .group g => match s.grp.groups.find g with
    | some x => x.die
    | none => 0

/-- A request leaves its core or group. One for a peer or a front-end is accepted by Rowan or refused at the source; Rowan
refuses one under an old GEN before that, and does not take one under a GEN that it has not granted yet (R290). -/
def issueReq (r0 : Req) (s : State) : State :=
  let r := { r0 with die := dieOf s r0.src }
  let id := s.nextReq
  let put (x : Req) (t : State) : State := { t with reqs := t.reqs.put id x, nextReq := id + 1 }
  match r.xl.target with
  | .memory _ => put r s
  | .window _ => put { r with st := .denied } (countDenied r.xl.ctx r.xl.domain 0 s)
  | .peer _ _ _ | .frontend _ _ _ =>
    if genEarly s 64 r.xl then put { r with st := .stale } s
    else if !genOk s 64 r.xl then put { r with st := .stale } (countStale s)
    else match acceptRemote s r.xl.target with
    | some f => put { r with st := .remoteFailed f } s
    | none =>
      let l : LaneAcc := r.lanes.headD ⟨0, 0, 0, 0, 0, 0, 0⟩
      let rd := match r.kind with | .read | .fetch => true | _ => false
      let t := openTxn r.xl l.n rd (if rd then [] else toBytes l.n l.val) (.req id) s
      put { r with st := .remote t.1 } t.2

/-- Requests an agent has sent whose outcome has not come back, reads apart. -/
def writesOut (s : State) (a : Agent) : List (Nat × Req) :=
  s.reqs.cells.filter fun c => c.2.src == a && (match c.2.kind with | .read | .fetch => false | _ => true)

/-- A Device-strict access of the core to memory that has not reached its home (R216). -/
def strictOut (s : State) (c : Nat) : Bool :=
  s.reqs.cells.any fun x => x.2.src == .medlar c && x.2.xl.region == 2 &&
    (match x.2.st with | .issued | .stale | .waitFill => true | _ => false)

/-- Rowan accepts the access to the dictionary window: its context's DICT bit is set, as Rowan has it (R278, R290). -/
def windowOpen (s : State) (x : Xl) : Bool := (pointCtx s 64 x.ctx).dict

/-- Writes that a fence other than FENCE.SYS waits for: those accepted into a transport count as acknowledged (R191). -/
def writesNear (s : State) (a : Agent) : List (Nat × Req) :=
  (writesOut s a).filter fun c => match c.2.st with | .remote _ | .remoteFailed _ => false | _ => true

/-- One lane's write. -/
def oneLane (pos n val : Nat) : LaneAcc := { lane := 0, pos := pos, n := n, val := val, cmp := 0, res := 0, shift := 0 }

def plainReq (a : Agent) (k : ReqKind) (x : Xl) (va : Nat) (ls : List LaneAcc) : Req :=
  { src := a, die := 0, kind := k, xl := x, va := va, critical := false, lanes := ls, load := 0, l1 := false, data := none, st := .issued,
    corrected := false, missed := false, laidOver := (0#1024, 0#128), listHeld := false }

/-- The line number of a request's memory target. -/
def lineOf (x : Xl) : Option Nat := match x.target with
  | .memory off => some (off / 128)
  | _ => none

/-- A target moved by some bytes. -/
def Target.plus (t : Target) (d : Nat) : Target := match t with
  | .memory o => .memory (o + d)
  | .window o => .window (o + d)
  | .peer n o c => .peer n (o + d) c
  | .frontend a c k => .frontend (a + d) c k

/-! ### The combining buffer (R215) -/

/-- The runs of set bits of a mask, as position and length. -/
def maskRuns (m : Nat) : Nat → Nat → Option Nat → List (Nat × Nat)
  | 0, i, some a => [(a, i - a)]
  | 0, _, none => []
  | n + 1, i, run =>
    if bit m i then maskRuns m n (i + 1) (some (run.getD i))
    else match run with
      | some a => (a, i - a) :: maskRuns m n (i + 1) none
      | none => maskRuns m n (i + 1) none

/-- An entry is sent to its target. -/
def sendComb (c : Nat) (e : CombEntry) (s : State) : State :=
  (maskRuns e.mask.toNat 128 0 none).foldl (fun t r =>
    issueReq (plainReq (.medlar c) .write { e.xl with target := e.xl.target.plus r.1 } (e.block + r.1)
      [oneLane r.1 r.2 (bits e.data.toNat (8 * r.1) (8 * r.2))]) t) s

/-- Every entry of a core's combining buffer is sent. -/
def drainComb (c : Nat) (s : State) : State :=
  let m := medlarOf s c
  m.comb.foldl (fun t e => sendComb c e t) (setMedlar c { m with comb := [] } s)

/-! ### Traps (R196–R200) -/

/-- A Medlar core takes a trap: the saved registers are written, MODE becomes RUNTIME, execution continues at TRAP_VEC.
The combining buffer is sent, and later instructions are discarded (R196, R215). -/
def medlarTrap (c : Nat) (cause : Cause) (addr : Nat) (tpc : BitVec 64) (imprecise : Bool) (s : State) : State :=
  let t := bump (K.medlarTraps + (dieOfCore c - 8)) 1 (drainComb c s)
  let m := medlarOf t c
  setMedlar c { m with
    trapPc := tpc
    trapCause := BitVec.ofNat 64 (causeCode cause + (if imprecise then 256 else 0) + (if m.runtime then 512 else 0))
    trapAddr := BitVec.ofNat 64 addr
    runtime := true
    pc := m.trapVec
    loads := []
    waiting := [] } t

/-- The oldest report that a core holds is taken before its next instruction: in APP mode, once every earlier load has
returned and no FENCE.SYS waits (R196, R199, R200). [DEDUCED, unsafe: assumption 89] -/
def takeHeld (c : Nat) (s : State) : State :=
  let m := medlarOf s c
  match m.held with
  | [] => s
  | r :: rest =>
    if m.runtime || !m.loads.isEmpty || m.sysWait.isSome then s
    else medlarTrap c r.cause r.va m.pc true (setMedlar c { m with held := rest } s)

/-- An imprecise report reaches a core: taken before its next instruction in APP mode, held in RUNTIME mode (R199, R200). -/
def medlarReport (c : Nat) (r : Imprecise) (s : State) : State :=
  let m := medlarOf s c
  takeHeld c (setMedlar c { m with held := m.held ++ [r] } s)

/-! ### Loads that return -/

/-- The value a load of w bytes puts into a 64-bit register (R181). -/
def widen (w : Nat) (sx : Bool) (x : Nat) : Nat := if sx then sext (8 * w) 64 x else x % 2 ^ (8 * w)

def medlarWriteDest (d : Dest) (w : Nat) (sx : Bool) (x : Nat) (m : Medlar) : Medlar :=
  match d with
  | .g r => { m with g := m.g.set 0#64 r (BitVec.ofNat 64 (widen w sx x)) }
  | .v512 r => { m with v := m.v.set 0#512 r (BitVec.ofNat 512 x) }
  | _ => m

/-- Loads whose parts have all come retire in program order (R206, R210). One that was refused or consumed poison traps
(R197, R227), and a report that waited for the loads is taken. -/
def retireLoads (c : Nat) : Nat → State → State
  | 0, s => takeHeld c s
  | n + 1, s =>
    let m := medlarOf s c
    match m.loads with
    | [] => takeHeld c s
    | l :: rest =>
      if l.left ≠ 0 then s
      else match l.bad with
        | b :: _ => medlarTrap c b.2.cause b.2.va l.pc false s
        | [] =>
          if l.poison then medlarTrap c .poisonRead l.va l.pc false s
          else retireLoads c n (setMedlar c (medlarWriteDest l.dest l.width l.sx (l.got.get 0 0) { m with loads := rest }) s)

/-- A pending load of a core changes, and loads that are complete retire. -/
def onLoad (c id : Nat) (f : PendLoad → PendLoad) (s : State) : State :=
  let m := medlarOf s c
  retireLoads c m.loads.length (setMedlar c { m with loads := m.loads.map fun l => if l.id = id then f l else l } s)

/-- Part of a load's bytes arrives. -/
def medlarPart (c id shift val : Nat) (poison : Bool) (s : State) : State :=
  onLoad c id (fun l => { l with got := l.got.put 0 (l.got.get 0 0 + val * 2 ^ (8 * shift)), left := l.left - 1,
                                 poison := l.poison || poison }) s

/-- A load is refused: it traps when it would retire (R197). -/
def medlarLoadBad (c id va : Nat) (cause : Cause) (s : State) : State :=
  onLoad c id (fun l => { l with left := 0, bad := l.bad ++ [(0,
    { cause := cause, va := va, seg := 255, ctx := 0, write := false, fetch := false, imprecise := false, claimInfo := 0 })] }) s

/-- n bytes of a line from position p. -/
def lineBytes (d : Line) (p n : Nat) : Nat := bits d.toNat (8 * p) (8 * n)

/-- A core already has a request, or a line on its way, for this line. -/
def lineAsked (s : State) (c line : Nat) : Bool :=
  s.coh.msgs.any fun m => match m with
    | .req c' l' _ _ _ _ _ => c' == c && l' == line
    | .grant c' l' _ _ _ => c' == c && l' == line
    | _ => false

def setMsgs (ms : List CohMsg) (s : State) : State := { s with coh := { s.coh with msgs := ms } }

def askLine (c line : Nat) (k : CohKind) (x : Xl) (va : Nat) (demand : Bool) (s : State) : State :=
  if lineAsked s c line then s else setMsgs (s.coh.msgs ++ [.req c line k x va false demand]) s

/-- The core has accessed a Normal-cached line of the segment. -/
def noteSeg (c : Nat) (x : Xl) (s : State) : State :=
  let m := medlarOf s c
  let k := 16 * x.ctx + x.seg
  if m.segs.contains k then s else setMedlar c { m with segs := k :: m.segs } s

/-- A part of a load begins: a hit takes its bytes at once; a miss waits and asks the home; an access that is not
Normal-cached asks its target directly (R214, R222). [DEDUCED, unsafe: assumption 115] -/
def startPart (c : Nat) (w : WaitLoad) (s : State) : State :=
  match lineOf w.xl, w.xl.region with
  | some line, 0 =>
    let t := noteSeg c w.xl s
    let m := medlarOf t c
    match m.lines.find line with
    | some l => medlarPart c w.id w.shift (lineBytes l.data (w.va % 128) w.n) l.poison t
    | none => askLine c line .readShared w.xl w.va true (setMedlar c { m with waiting := m.waiting ++ [w] } t)
  | _, _ =>
    issueReq { plainReq (.medlar c) .read w.xl w.va
                 [{ lane := 0, pos := w.va % 128, n := w.n, val := w.heldVal, cmp := w.held, res := 0, shift := w.shift }] with
               critical := true, load := w.id } s

/-- A line leaves a core. A load that took bytes of it and has not retired, since an older one is not performed, performs
its parts again (R206). [DEDUCED, safe: assumption 25] -/
def replayLoads (c line : Nat) (s : State) : State :=
  let m := medlarOf s c
  let took (l : PendLoad) : Bool :=
    l.parts.any fun p => lineOf p.xl == some line && !(m.waiting.any fun w => w.id == l.id && w.shift == p.shift)
  ((m.loads.drop 1).filter took).foldl (fun t l =>
    let n := medlarOf t c
    let u := setMedlar c { n with
      loads := n.loads.map fun y => if y.id = l.id then { y with got := Tab.set ⟨[]⟩ 0 0 y.base, left := y.parts.length, poison := false } else y
      waiting := n.waiting.filter fun w => w.id != l.id } (bump (K.medlarLoadReplays + (dieOfCore c - 8)) 1 t)
    l.parts.foldl (fun v p => startPart c p v) u) s

/-- Loads of a core that wait for a line take their bytes. -/
def serveWaiting (c line : Nat) (d : Line) (poison : Bool) (s : State) : State :=
  let m := medlarOf s c
  let mine := m.waiting.filter fun w => lineOf w.xl == some line
  mine.foldl (fun t w =>
    medlarPart c w.id w.shift (lineBytes d (w.va % 128) w.n) poison t)
    (setMedlar c { m with waiting := m.waiting.filter fun w => lineOf w.xl != some line } s)

/-- A store into the installed tables, which only the translation controller writes (R274). -/
def intoTables (s : State) (x : Xl) : Bool := match x.target with
  | .memory off => inTables s off
  | _ => false

/-- The sets of a core's L2 (R203): 2 MiB of 128-byte lines in 8 ways. A line that arrives finds its set full.
[DESIGN CHOICE, safe: assumption 99] -/
def l2Full (s : State) (c line : Nat) : Bool :=
  let m := medlarOf s c
  (m.lines.find line).isNone &&
  decide (8 ≤ (m.lines.cells.filter fun x => Config.l2Hash x.1 % 2048 == Config.l2Hash line % 2048).length)

/-- The entry at the head of the store buffer is written into a line held in Dirty or Sole; the line is then Dirty, and
its poison ends once the core has written all its bytes (R208, R222, R227). -/
def writeHead (c line : Nat) (s : State) : State :=
  let m := medlarOf s c
  match m.sb, m.lines.find line with
  | e :: rest, some l =>
    if lineOf e.xl == some line && e.reduce.isNone && !intoTables s e.xl && (l.st == .dirty || l.st == .sole) then
      let p := e.va % 128
      let mk := spanMask p e.n
      let wrote := l.wrote ||| mk
      let l2 : CLine := { l with st := .dirty, wrote := wrote, poison := l.poison && wrote != BitVec.allOnes 128,
                                 data := overlay l.data (BitVec.ofNat 1024 (e.val * 2 ^ (8 * p))) mk }
      setMedlar c { m with sb := rest, lines := m.lines.put line l2 } s
    else s
  | _, _ => s

/-- A line arrives at a core, which performs the access it asked for; in Dirty or Sole the hold window begins (R228). -/
def arrive (c line : Nat) (st : CState) (d : Line) (poison : Bool) (s : State) : State :=
  let m := medlarOf s c
  let l : CLine := match m.lines.find line with
    | some old => { old with st := st, arrived := s.time.now, hold := dv s K.holdNs, performed := false, wrote := 0#128 }
    | none => { st := st, data := d, poison := poison, wrote := 0#128, arrived := s.time.now, hold := dv s K.holdNs,
                performed := false }
  let t := setMedlar c { m with lines := m.lines.put line l } s
  let u := writeHead c line (serveWaiting c line l.data l.poison t)
  let m2 := medlarOf u c
  match m2.lines.find line with
  | some x => setMedlar c { m2 with lines := m2.lines.put line { x with performed := true } } u
  | none => u

/-- The time until which a core keeps a line it holds in Dirty or Sole (R228). -/
def heldUntil (s : State) (c line : Nat) : Nat :=
  match (medlarOf s c).lines.find line with
  | some l => if l.st == .dirty || l.st == .sole then l.arrived + l.hold else 0
  | none => 0

/-- A core answers a snoop: what it sends home, whether that is dirty, and its next state (R222). -/
def answerSnoop (c line : Nat) (k : SnoopKind) (s : State) : (Option (Line × Bool) × Bool) × State :=
  let m := medlarOf s c
  match m.lines.find line with
  | none => ((none, false), s)
  | some l =>
    let gone := replayLoads c line (setMedlar c { m with lines := m.lines.del line } s)
    let becomes (x : CState) := setMedlar c { m with lines := m.lines.put line { l with st := x, wrote := 0#128 } } s
    let data := some (l.data, l.poison)
    match k, l.st with
    | .shared, .dirty => ((data, true), becomes .shared)
    | .shared, .sole => ((data, false), becomes .shared)
    | .shared, .speaker => ((data, false), becomes .shared)
    | .shared, .shared => ((none, false), s)
    | .own, .dirty => ((data, true), gone)
    | .own, .shared => ((none, false), gone)
    | .own, _ => ((data, false), gone)
    | .clean, .dirty => ((data, true), becomes .sole)
    | .clean, _ => ((none, false), s)
    | .inval, .dirty => ((data, true), gone)
    | .inval, _ => ((none, false), gone)

/-! ### The directory (R226) -/

def DirEntry.uncached : DirEntry := { owned := false, holders := [], speaker := none, tracked := false, way := 0, used := 0 }

def dirOf (s : State) (line : Nat) : DirEntry := s.coh.dir.get DirEntry.uncached line

/-- A directory entry is written, as the latest of its set; one without holders is gone. A new entry takes a way that no
other of its set has (R226). -/
def setDir (line : Nat) (e : DirEntry) (s : State) : State :=
  if e.holders.isEmpty then { s with coh := { s.coh with dir := s.coh.dir.del line } }
  else
    let others := s.coh.dir.cells.filter fun c => c.1 != line && homeDie s c.1 == homeDie s line &&
      Config.dirHash c.1 % 49152 == Config.dirHash line % 49152
    let w := match s.coh.dir.find line with
      | some x => x.way
      | none => ((List.range 16).find? fun w => others.all fun c => c.2.way != w).getD 0
    { s with coh := { s.coh with dir := s.coh.dir.put line { e with way := w, used := s.coh.updates },
                                 updates := s.coh.updates + 1 } }

def dropHolder (line c : Nat) (s : State) : State :=
  let e := dirOf s line
  setDir line { e with owned := e.owned && !e.holders.contains c, holders := e.holders.filter (· != c),
                       speaker := if e.speaker = some c then none else e.speaker } s

/-- The home has every byte of the line. -/
def homeHas (s : State) (line : Nat) : Bool := lineReady s line (BitVec.allOnes 128)

/-- The home takes a core's data when it is dirty, or when it lacks the line (R222). The line was granted through a tracked
segment when the Bench or the directory says so. -/
def takeData (line : Nat) (d : Option (Line × Bool)) (dirty : Bool) (s : State) : State :=
  match d with
  | none => s
  | some (x, p) =>
    if dirty || !homeHas s line then
      let t := recallLine line s
      let tr := (dirOf t line).tracked || (match t.mem.bench.find line with | some b => b.tracked | none => false)
      let was := match t.mem.bench.find line with | some b => b.dirty | none => false
      let u := allocPut line { data := x, valid := BitVec.allOnes 128, dirty := dirty || was, poison := p, tracked := tr } t
      if dirty then noteWrite line u else u
    else s

/-- What an answered snoop leaves in the directory. -/
def dirAfter (line c : Nat) (k : SnoopKind) (s : State) : State :=
  let e := dirOf s line
  match k with
  | .shared => setDir line { e with owned := false, speaker := if e.speaker = some c then none else e.speaker } s
  | .clean => s
  | _ => dropHolder line c s

def countSnoop (line : Nat) (s : State) : State := bump (K.coherenceSnoops + homeDie s line) 1 s

def countDeferral (c : Nat) (s : State) : State := bump (K.medlarHoldDeferrals + (dieOfCore c - 8)) 1 s

/-! ### Snoops that a unit's access waits for -/

def isLineMsg (line : Nat) : CohMsg → Bool
  | .req _ _ _ _ _ _ _ => false
  | .snoop _ l _ _ => l == line
  | .resp _ l _ _ _ => l == line
  | .grant _ l _ _ _ => l == line

/-- An answer reaches the home (R222). -/
def homeHears (c line : Nat) (k : SnoopKind) (d : Option (Line × Bool)) (dirty : Bool) (s : State) : State :=
  dirAfter line c k (takeData line d dirty s)

end Sys2Proof.Machine
end

