-- ==== Sys2Proof/Machine/Num.lean ====
section
/-! DEFINITION. The floating formats and their arithmetic: exact values, the Face's truncating accumulator, conversions
and the IEEE 754 operations (R25–R54, R178). -/

namespace Sys2Proof

/-- The shape of a floating format (R26). -/
structure FShape where
  ebits : Nat
  mbits : Nat
  bias : Nat
  /-- 2: infinities and NaNs; 1: NaN only as S.1111.111; 0: neither. -/
  special : Nat
deriving DecidableEq, Repr

/-- The floating formats by code (R25, R26); none for integer, expanded and reserved codes. -/
def fshape : Nat → Option FShape
  | 0 => some ⟨11, 52, 1023, 2⟩
  | 1 => some ⟨8, 23, 127, 2⟩
  | 2 => some ⟨5, 10, 15, 2⟩
  | 3 => some ⟨8, 7, 127, 2⟩
  | 4 => some ⟨4, 3, 7, 1⟩
  | 5 => some ⟨5, 2, 15, 2⟩
  | 6 => some ⟨3, 2, 3, 0⟩
  | 7 => some ⟨2, 3, 1, 0⟩
  | 8 => some ⟨2, 1, 1, 0⟩
  | _ => none

/-- Element width in bits by format code (R25). -/
def fmtBits : Nat → Nat
  | 0 => 64 | 1 => 32 | 2 => 16 | 3 => 16 | 4 => 8 | 5 => 8 | 6 => 6 | 7 => 6 | 8 => 4 | 9 => 8 | 10 => 4
  | 11 => 4 | 12 => 4 | 13 => 8 | _ => 0

def isFloatFmt (c : Nat) : Bool := c < 9
def isIntFmt (c : Nat) : Bool := c == 9 || c == 10

def FShape.width (f : FShape) : Nat := 1 + f.ebits + f.mbits
/-- Precision: the significand with its leading bit. -/
def FShape.prec (f : FShape) : Nat := f.mbits + 1
/-- The exponent of the smallest subnormal. -/
def FShape.qmin (f : FShape) : Int := 1 - (f.bias : Int) - (f.mbits : Int)
/-- The largest finite encoding, sign clear. -/
def FShape.maxEnc (f : FShape) : Nat :=
  if f.special = 2 then 2 ^ (f.ebits + f.mbits) - 2 ^ f.mbits - 1
  else if f.special = 1 then 2 ^ (f.ebits + f.mbits) - 2
  else 2 ^ (f.ebits + f.mbits) - 1
/-- The canonical quiet NaN (R47, Table 7). -/
def FShape.nanEnc (f : FShape) : Nat :=
  if f.special = 2 then (2 ^ f.ebits - 1) <<< f.mbits + 2 ^ (f.mbits - 1) else 2 ^ (f.ebits + f.mbits) - 1
def FShape.infEnc (f : FShape) : Nat := (2 ^ f.ebits - 1) <<< f.mbits

/-- The value an encoding stands for (R26). -/
def FShape.decode (f : FShape) (x : Nat) : FNum :=
  let neg := bit x (f.ebits + f.mbits)
  let e := bits x f.mbits f.ebits
  let m := bits x 0 f.mbits
  if f.special = 2 ∧ e = 2 ^ f.ebits - 1 then (if m = 0 then .inf neg else .nan)
  else if f.special = 1 ∧ e = 2 ^ f.ebits - 1 ∧ m = 2 ^ f.mbits - 1 then .nan
  else if e = 0 then .fin neg m f.qmin
  else .fin neg (m + 2 ^ f.mbits) (f.qmin + (e : Int) - 1)

/-- The value of an element of any stored format (R25). -/
def decodeFmt (code x : Nat) : FNum :=
  match fshape code with
  | some f => f.decode x
  | none =>
    let v := signed (fmtBits code) x
    .fin (v < 0) v.natAbs 0

def FNum.zero : FNum := .fin false 0 0
def FNum.isZero : FNum → Bool
  | .fin _ m _ => m == 0
  | _ => false
def FNum.isNan : FNum → Bool
  | .nan => true
  | _ => false
def FNum.neg : FNum → FNum
  | .nan => .nan
  | .inf s => .inf (!s)
  | .fin s m e => .fin (!s) m e
def FNum.abs : FNum → FNum
  | .nan => .nan
  | .inf _ => .inf false
  | .fin _ m e => .fin false m e
def FNum.sign : FNum → Bool
  | .nan => false
  | .inf s => s
  | .fin s _ _ => s

/-- Bit length of m. -/
def bitLen (m : Nat) : Nat := if m = 0 then 0 else m.log2 + 1

/-- ⌊log₂⌋ of a finite non-zero magnitude m · 2^e. -/
def topExp (m : Nat) (e : Int) : Int := e + (bitLen m : Int) - 1

/-- Magnitudes m · 2^e brought to one exponent, the smaller. -/
def align (m1 : Nat) (e1 : Int) (m2 : Nat) (e2 : Int) : Nat × Nat × Int :=
  if e1 ≤ e2 then (m1, m2 <<< (e2 - e1).toNat, e1) else (m1 <<< (e1 - e2).toNat, m2, e2)

/-- The exact product, by IEEE 754's rules for infinities and NaNs (R28). -/
def FNum.mul : FNum → FNum → FNum
  | .nan, _ => .nan
  | _, .nan => .nan
  | .inf s, .inf t => .inf (s != t)
  | .inf s, .fin t m _ => if m = 0 then .nan else .inf (s != t)
  | .fin s m _, .inf t => if m = 0 then .nan else .inf (s != t)
  | .fin s m e, .fin t n d => .fin (s != t) (m * n) (e + d)

/-- The exact sum; an exact zero from opposite signs takes the sign zneg (R34, R178). -/
def FNum.addZ (zneg : Bool) : FNum → FNum → FNum
  | .nan, _ => .nan
  | _, .nan => .nan
  | .inf s, .inf t => if s = t then .inf s else .nan
  | .inf s, .fin _ _ _ => .inf s
  | .fin _ _ _, .inf t => .inf t
  | .fin s m e, .fin t n d =>
    let (a, b, x) := align m e n d
    if s = t then .fin s (a + b) x
    else if a = b then .fin zneg 0 x
    else if b < a then .fin s (a - b) x
    else .fin t (b - a) x

def FNum.add : FNum → FNum → FNum := FNum.addZ false

/-- x · 2^k, exactly. -/
def FNum.scale (k : Int) : FNum → FNum
  | .fin s m e => .fin s m (e + k)
  | x => x

/-- −1, 0 or 1 as x lies below, at or above y; none where either is a NaN. -/
def FNum.cmp : FNum → FNum → Option Int
  | .nan, _ => none
  | _, .nan => none
  | .inf s, .inf t => some (if s = t then 0 else if s then -1 else 1)
  | .inf s, .fin _ _ _ => some (if s then -1 else 1)
  | .fin _ _ _, .inf t => some (if t then 1 else -1)
  | .fin s m e, .fin t n d =>
    let (a, b, _) := align m e n d
    let x : Int := if s then -(a : Int) else a
    let y : Int := if t then -(b : Int) else b
    some (if x < y then -1 else if x = y then 0 else 1)

def FNum.lt (x y : FNum) : Bool := x.cmp y == some (-1)
def FNum.le (x y : FNum) : Bool := x.cmp y == some (-1) || x.cmp y == some 0

/-! ### Rounding -/

/-- Rounding directions: the five of IEEE 754 (R51) and the Face's stochastic mode with its 16 random bits (R46, R48). -/
inductive Rnd where
  | even | away | up | down | zero
  | stochastic (r : Nat)
deriving DecidableEq, Repr

/-- The Face's ROUND field (R46); r is the draw of R48. -/
def faceRnd (code r : Nat) : Rnd :=
  if code = 0 then .even else if code = 1 then .zero else .stochastic r

/-- FPCTL.RD and RM (R172, R195). -/
def ieeeRnd : Nat → Rnd
  | 0 => .even | 1 => .away | 2 => .up | 3 => .down | _ => .zero

/-- Whether a magnitude q + rem / 2^sh grows by one unit (R46, R48). -/
def roundsUp (rnd : Rnd) (neg : Bool) (q rem sh : Nat) : Bool :=
  match rnd with
  | .even => rem * 2 > 2 ^ sh || (rem * 2 == 2 ^ sh && sh != 0 && q % 2 == 1)
  | .away => sh != 0 && rem * 2 ≥ 2 ^ sh
  | .up => !neg && rem != 0
  | .down => neg && rem != 0
  | .zero => false
  | .stochastic r =>
    let f := if sh ≥ 16 then rem >>> (sh - 16) else rem <<< (16 - sh)
    f + r % 2 ^ 16 ≥ 2 ^ 16

/-- m · 2^e rounded to a multiple of 2^x: the multiple, and whether bits were lost. -/
def roundAt (rnd : Rnd) (neg : Bool) (m : Nat) (e x : Int) : Nat × Bool :=
  if x ≤ e then (m <<< (e - x).toNat, false)
  else
    let sh := (x - e).toNat
    let q := m >>> sh
    let rem := m % 2 ^ sh
    (if roundsUp rnd neg q rem sh then q + 1 else q, rem != 0)

/-- m · 2^e rounded to p significant bits with an unbounded exponent range: significand, exponent, inexact. -/
def roundPrec (rnd : Rnd) (neg : Bool) (p m : Nat) (e : Int) : Nat × Int × Bool :=
  let x := max e (topExp m e + 1 - p)
  let r := roundAt rnd neg m e x
  (r.1, x, r.2)

/-- What a conversion gives: the encoding, and whether it overflowed, was tiny, was inexact, or made a finite value of
one the target cannot hold (R47). -/
structure Enc where
  enc : Nat
  overflow : Bool
  tiny : Bool
  inexact : Bool
  clamped : Bool
deriving DecidableEq, Repr

def Enc.plain (n : Nat) : Enc := ⟨n, false, false, false, false⟩

/-- Magnitude s · 2^x above the largest finite value of f. -/
def FShape.above (f : FShape) (s : Nat) (x : Int) : Bool :=
  match f.decode f.maxEnc with
  | .fin _ m e => let (a, b, _) := align s x m e; b < a
  | _ => false

/-- Magnitude s · 2^x below the smallest normal value of f. -/
def FShape.belowNormal (f : FShape) (s : Nat) (x : Int) : Bool :=
  s == 0 || topExp s x < 1 - (f.bias : Int)

/-- The encoding of a magnitude that f holds exactly, s · 2^x with x at least qmin. -/
def FShape.pack (f : FShape) (s : Nat) (x : Int) : Nat :=
  let m := s <<< (x - f.qmin).toNat
  if m < 2 ^ f.mbits then m
  else
    let sh := bitLen m - f.prec
    (sh + 1) <<< f.mbits + (m >>> sh - 2 ^ f.mbits)

def signEnc (f : FShape) (neg : Bool) (x : Nat) : Nat := if neg then x + 2 ^ (f.ebits + f.mbits) else x

/-- Convert an exact value to f. Overflow follows IEEE 754 for formats with infinity and saturates elsewhere (R47);
flush replaces a result below the normal range by a zero of its sign (R46). -/
def FShape.encode (f : FShape) (rnd : Rnd) (flush : Bool) (v : FNum) : Enc :=
  match v with
  | .nan => if f.special = 0 then ⟨f.maxEnc, false, false, false, true⟩ else Enc.plain f.nanEnc
  | .inf s =>
    if f.special = 2 then Enc.plain (signEnc f s f.infEnc) else ⟨signEnc f s f.maxEnc, false, false, false, true⟩
  | .fin s m e =>
    if m = 0 then Enc.plain (signEnc f s 0)
    else
      let u := roundPrec rnd s f.prec m e
      if f.above u.1 u.2.1 then
        let toInf : Bool := f.special == 2 && (match rnd with
          | .zero => false | .up => !s | .down => s | _ => true)
        ⟨signEnc f s (if toInf then f.infEnc else f.maxEnc), true, false, true, !toInf⟩
      else
        let x := max (max e (topExp m e + 1 - f.prec)) f.qmin
        let r := roundAt rnd s m e x
        if f.belowNormal u.1 u.2.1 then
          if flush then ⟨signEnc f s 0, false, true, true, false⟩
          else ⟨signEnc f s (f.pack r.1 x), false, true, r.2, false⟩
        else
          -- tiny before rounding, the smallest normal after it: IEEE 754 lets an implementation judge either way
          let before := f.belowNormal m e && r.2 && Config.tinyBefore
          ⟨signEnc f s (if f.belowNormal m e then f.pack r.1 x else f.pack u.1 u.2.1), false, before, r.2, false⟩

/-- Convert to an integer format of n bits, signed or not, saturating; NaN gives 0 (R47, R178). -/
def encodeInt (n : Nat) (sgn : Bool) (rnd : Rnd) (v : FNum) : Enc :=
  let lo : Int := if sgn then -((2 : Int) ^ (n - 1)) else 0
  let hi : Int := if sgn then (2 : Int) ^ (n - 1) - 1 else (2 : Int) ^ n - 1
  match v with
  | .nan => ⟨0, false, false, false, true⟩
  | .inf s => ⟨unsigned n (if s then lo else hi), false, false, false, true⟩
  | .fin s m e =>
    let r := roundAt rnd s m e 0
    let i : Int := if s then -(r.1 : Int) else r.1
    if i < lo then ⟨unsigned n lo, false, false, false, true⟩
    else if hi < i then ⟨unsigned n hi, false, false, false, true⟩
    else ⟨unsigned n i, false, false, r.2, false⟩

/-- Convert an exact value to any storable format code (R46, R47): FP32 and FP64 flush below the normal range. -/
def encodeFmt (code : Nat) (rnd : Rnd) (v : FNum) : Enc :=
  match fshape code with
  | some f => f.encode rnd (code < 2) v
  | none => encodeInt (fmtBits code) true rnd v

/-- Round to a floating format to nearest even, with R45's flush, and go on with the value. -/
def stepRound (code : Nat) (v : FNum) : FNum := decodeFmt code (encodeFmt code .even v).enc

/-! ### The accumulator (R33, R34, R42–R44) -/

/-- The accumulators of R31. -/
inductive AccFmt where
  | fp32 | fp64 | int32
deriving DecidableEq, Repr

def AccFmt.code : AccFmt → Nat
  | .fp32 => 1 | .fp64 => 0 | .int32 => 1

/-- Significand and guard bits held: 26 for FP32, 55 for FP64 (R43). -/
def AccFmt.width : AccFmt → Nat
  | .fp32 => 26 | .fp64 => 55 | .int32 => 32

/-- Truncate a magnitude to a multiple of 2^x (R43). -/
def truncAt (m : Nat) (e x : Int) : Nat := (roundAt .zero false m e x).1

/-- The range rule of R34 on the value the accumulator holds. -/
def accRange (a : AccFmt) (v : FNum) : FNum :=
  match v, fshape a.code with
  | .fin s m e, some f =>
    if m = 0 then .fin s 0 0 else if f.above m e then .inf s else if f.belowNormal m e then .fin s 0 0 else v
  | _, _ => v

/-- A zero of negative sign. -/
def FNum.isNegZero : FNum → Bool
  | .fin true 0 _ => true
  | _ => false

/-- An accumulator at its initial value. -/
def Accum.start (v : FNum) : Accum := ⟨v, v.isNegZero⟩

/-- One addition of a floating accumulator: align to the larger exponent, discard below the lowest guard bit, add
exactly, and discard again where the sum carries (R43). The bits below the lowest guard bit are discarded from both
operands before the sum, also from the one with the larger exponent, whose exact product may be wider than the
accumulator. A sum of exactly zero is −0 only where nothing but −0 came before it (R34). [DEDUCED, unsafe: assumption 109] -/
def accAddFloat (a : AccFmt) (r : Accum) (x : FNum) : Accum :=
  let neg := r.negZero && x.isNegZero
  let v : FNum := match r.val, x with
    | .fin s m e, .fin t n d =>
      if m = 0 ∧ n = 0 then .fin neg 0 0
      else
        let top := if m = 0 then topExp n d else if n = 0 then topExp m e else max (topExp m e) (topExp n d)
        let q := top + 1 - a.width
        let sum := FNum.add (.fin s (truncAt m e q) q) (.fin t (truncAt n d q) q)
        accRange a (match sum with
          | .fin u k z => if topExp k z > top then .fin u (truncAt k z (z + 1)) (z + 1) else sum
          | y => y)
    | y, _ => FNum.add y x
  ⟨v, neg⟩

/-- An INT32 accumulator wraps modulo 2³² (R33). -/
def accAddInt (r : Accum) (x : FNum) : Accum :=
  match FNum.add r.val x with
  | .fin s m e =>
    let v := signed 32 (unsigned 32 (if s then -((m <<< e.toNat : Nat) : Int) else ((m <<< e.toNat : Nat) : Int)))
    ⟨.fin (v < 0) v.natAbs 0, false⟩
  | y => ⟨y, false⟩

/-- Its choice is logged. [DEDUCED, unsafe: assumption 109] -/
def accAdd (a : AccFmt) (r : Accum) (x : FNum) : Accum :=
  match a with
  | .int32 => accAddInt r x
  | _ => accAddFloat a r x

/-- Feed products, n of them to an addend (R42). [DEDUCED, unsafe: assumption 109] -/
def accFeed (a : AccFmt) (n : Nat) : Nat → Accum → List FNum → Accum
  | 0, r, _ => r
  | _ + 1, r, [] => r
  | fuel + 1, r, ps =>
    let now := ps.take n
    let addend := match now with
      | [] => FNum.zero
      | p :: rest => rest.foldl FNum.add p
    accFeed a n fuel (accAdd a r addend) (ps.drop n)

/-- The accumulator without its guard bits, truncated (matrix units, R44). -/
def accTrunc32 (v : FNum) : Nat :=
  match fshape 1 with
  | some f => (f.encode .zero true v).enc
  | none => 0

/-! ### IEEE 754 operations of the vector lanes, Medlar cores and Benches (R51, R52, R178) -/

/-- FPFLAGS bits (R195): NV 1, DZ 2, OF 4, UF 8, NX 16. -/
def encFlags (e : Enc) : Nat :=
  (if e.overflow then 4 else 0) + (if e.tiny && e.inexact then 8 else 0) + (if e.inexact then 16 else 0)

/-- A signalling NaN: a NaN whose leading mantissa bit is clear. -/
def FShape.signalling (f : FShape) (x : Nat) : Bool := (f.decode x).isNan && !bit x (f.mbits - 1)

/-- Round an exact result with subnormals kept; flags of the conversion. -/
def ieeeOut (f : FShape) (rnd : Rnd) (v : FNum) : Nat × Nat :=
  let e := f.encode rnd false v
  (e.enc, encFlags e)

def rndDown (rnd : Rnd) : Bool := rnd == .down

/-- A NaN made of operands that hold none is an invalid operation; a signalling operand always is (R178). -/
def invalidIf (f : FShape) (ops : List Nat) (v : FNum) : Nat :=
  if ops.any f.signalling || (v.isNan && !(ops.any fun x => (f.decode x).isNan)) then 1 else 0

def ieeeAdd (f : FShape) (rnd : Rnd) (a b : Nat) : Nat × Nat :=
  let v := FNum.addZ (rndDown rnd) (f.decode a) (f.decode b)
  let o := ieeeOut f rnd v
  (o.1, o.2 ||| invalidIf f [a, b] v)

def ieeeNegBits (f : FShape) (a : Nat) : Nat := a ^^^ 2 ^ (f.ebits + f.mbits)

def ieeeMul (f : FShape) (rnd : Rnd) (a b : Nat) : Nat × Nat :=
  let v := FNum.mul (f.decode a) (f.decode b)
  let o := ieeeOut f rnd v
  (o.1, o.2 ||| invalidIf f [a, b] v)

/-- A × B + C with one rounding. -/
def ieeeFma (f : FShape) (rnd : Rnd) (a b c : Nat) : Nat × Nat :=
  let p := FNum.mul (f.decode a) (f.decode b)
  let v := FNum.addZ (rndDown rnd) p (f.decode c)
  let o := ieeeOut f rnd v
  (o.1, o.2 ||| invalidIf f [a, b, c] v ||| (if p.isNan && !(f.decode a).isNan && !(f.decode b).isNan then 1 else 0))

/-- The quotient of finite magnitudes to at least 140 bits, the last of them sticky. -/
def quotient (m n : Nat) : Nat × Int :=
  let k := 140 + bitLen n
  let q := (m <<< k) / n
  (2 * q + (if (m <<< k) % n = 0 then 0 else 1), -(k : Int) - 1)

def ieeeDiv (f : FShape) (rnd : Rnd) (a b : Nat) : Nat × Nat :=
  let x := f.decode a
  let y := f.decode b
  let sg := x.sign != y.sign
  match x, y with
  | .fin _ m e, .fin _ n d =>
    if n = 0 then (if m = 0 then (f.nanEnc, 1) else (signEnc f sg f.infEnc, 2))
    else
      let q := quotient m n
      ieeeOut f rnd (.fin sg q.1 (q.2 + e - d))
  | .inf _, .inf _ => (f.nanEnc, 1)
  | .inf _, .fin _ _ _ => (signEnc f sg f.infEnc, 0)
  | .fin _ _ _, .inf _ => (signEnc f sg 0, 0)
  | _, _ => (f.nanEnc, invalidIf f [a, b] .nan)

/-- The integer square root, bit by bit from bit n down. -/
def isqrt : Nat → Nat → Nat → Nat
  | 0, _, r => r
  | n + 1, x, r => let c := r + 2 ^ n; isqrt n x (if c * c ≤ x then c else r)

def ieeeSqrt (f : FShape) (rnd : Rnd) (a : Nat) : Nat × Nat :=
  match f.decode a with
  | .nan => (f.nanEnc, invalidIf f [a] .nan)
  | .inf s => if s then (f.nanEnc, 1) else (f.infEnc, 0)
  | .fin s m e =>
    if m = 0 then (signEnc f s 0, 0)
    else if s then (f.nanEnc, 1)
    else
      let odd := e % 2 != 0
      let x := (if odd then 2 * m else m) <<< 160
      let d : Int := ((if odd then e - 1 else e) - 160) / 2
      let r := isqrt (bitLen x / 2 + 1) x 0
      ieeeOut f rnd (.fin false (2 * r + (if r * r = x then 0 else 1)) (d - 1))

/-- FMIN and FMAX: the number where one operand is a NaN (R178); of two zeros of opposite sign, either. -/
def ieeeMinMax (f : FShape) (max : Bool) (a b : Nat) : Nat × Nat :=
  let x := f.decode a
  let y := f.decode b
  let nv := if f.signalling a || f.signalling b then 1 else 0
  if x.isNan && y.isNan then (f.nanEnc, nv)
  else if x.isNan then (b, nv)
  else if y.isNan then (a, nv)
  else if x.isZero && y.isZero && x.sign != y.sign then
    (if Config.minMaxZero (BitVec.ofNat 64 a) (BitVec.ofNat 64 b) then a else b, nv)
  else if x.lt y then (if max then b else a, nv) else (if max then a else b, nv)

/-- FEQ is quiet; FLT and FLE signal on any NaN (R178). 0 FEQ, 1 FLT, 2 FLE, 3 FUNORD. -/
def ieeeCompare (f : FShape) (op a b : Nat) : Bool × Nat :=
  let x := f.decode a
  let y := f.decode b
  let snan := if f.signalling a || f.signalling b then 1 else 0
  let anyNan := if x.isNan || y.isNan then 1 else 0
  if op = 0 then (x.cmp y == some 0, snan)
  else if op = 1 then (x.lt y, anyNan)
  else if op = 2 then (x.le y, anyNan)
  else (x.isNan || y.isNan, snan)

/-- The class of a value, one bit of ten from −∞ (bit 0) to quiet NaN (bit 9) (R176; assumption 30).
[PRESUMED, unsafe: assumption 30] -/
def ieeeClass (f : FShape) (a : Nat) : Nat :=
  match f.decode a with
  | .nan => if f.signalling a then 2 ^ 8 else 2 ^ 9
  | .inf s => if s then 2 ^ 0 else 2 ^ 7
  | .fin s m e =>
    if m = 0 then (if s then 2 ^ 3 else 2 ^ 4)
    else if f.belowNormal m e then (if s then 2 ^ 2 else 2 ^ 5)
    else if s then 2 ^ 1 else 2 ^ 6

end Sys2Proof
end

