-- ==== Sys2Proof/Machine/Requests.lean ====
section
/-! DEFINITION. Requests of cores and groups at their homes: miss tags, service, and the transactions that snoop Medlar
cores (R219–R225, R240–R246). -/

namespace Sys2Proof.Machine

/-! ### Bench operations (R184, R244) -/

/-- The float format of FADD and FADD.BF at a width code. -/
def atomicFmt (op w : Nat) : Option FShape :=
  if op = 11 then fshape 3 else if w = 1 then fshape 2 else if w = 2 then fshape 1 else fshape 0

/-- One update of an element of 8 · 2^w bits: the value stored. Compare-and-swap stores only on equality (R185). -/
def atomicOp (op w old x cmp : Nat) : Nat :=
  let n := 8 * 2 ^ w
  let so := signed n old
  let sx := signed n x
  let v := match op with
    | 0 => old + x
    | 1 => if so ≤ sx then old else x
    | 2 => if so ≤ sx then x else old
    | 3 => min old x
    | 4 => max old x
    | 5 => old &&& x
    | 6 => old ||| x
    | 7 => old ^^^ x
    | 8 => x
    | 9 => if old = cmp then x else old
    | _ => match atomicFmt op w with
      | some f => (ieeeAdd f .even old x).1
      | none => old
  v % 2 ^ n

/-- A line-wide reduce-write, element by element from element i on: an element changes only when every byte of it is set
in the mask (R244). -/
def reduceElems (op w : Nat) (old new : Nat) (mask : Nat) : Nat → Nat → Nat
  | 0, _ => 0
  | n + 1, i =>
    let b := 2 ^ w
    let o := bits old (8 * b * i) (8 * b)
    let e := if bits mask (b * i) b = 2 ^ b - 1 then atomicOp op w o (bits new (8 * b * i) (8 * b)) 0 else o
    e * 2 ^ (8 * b * i) + reduceElems op w old new mask n (i + 1)

def reduceLine (op w : Nat) (old new : Line) (mask : BitVec 128) : Line :=
  BitVec.ofNat 1024 (reduceElems op w old.toNat new.toNat mask.toNat (128 / 2 ^ w) 0)

/-! ### Misses (R241) -/

/-- Miss tags in use in a sub-slice. -/
def tagsIn (s : State) (slice : Nat) : Nat := (s.mem.tags.cells.filter fun c => homeSlice s c.1 == slice).length

/-- What a miss comes to. -/
inductive Missed where
  | whole | waits | noTag
deriving DecidableEq, Repr

def setTag (line : Nat) (t : MissTag) (s : State) : State := { s with mem := { s.mem with tags := s.mem.tags.put line t } }

/-- Who asks for a line the home lacks (R241, R251): through which kind of segment, its class and partition, the codeword
with the bytes it needs first, and who is to be served. -/
structure Asker where
  tracked : Bool
  critical : Bool
  partition : Nat
  lead : Nat
  req : Option Nat
  unit : Option TOwner
deriving DecidableEq, Repr

/-- A miss that has every tag in use against it, counted once while it is held (R241, R333). -/
def heldForTag (line : Nat) (req : Option Nat) (s : State) : State :=
  if s.mem.noTag.contains (line, req) then s
  else bump (K.benchMissTagStalls + homeDie s line) 1 { s with mem := { s.mem with noTag := (line, req) :: s.mem.noTag } }

/-- A request needs bytes of a line the home lacks: it joins the line's tag, or takes one and asks the controller, or finds
the line in the zero map (R109, R111, R241). -/
def missLine (line : Nat) (a : Asker) (s : State) : Missed × State :=
  match s.mem.tags.find line with
  | some t => (.waits, setTag line { t with waiters := t.waiters ++ a.req.toList, units := t.units ++ a.unit.toList } s)
  | none =>
    if tagsIn s (homeSlice s line) ≥ 1024 then (.noTag, heldForTag line a.req s)
    else
      let s1 : State := { s with mem := { s.mem with noTag := s.mem.noTag.filter (· != (line, a.req)) } }
      let t := bump (K.benchMisses + homeDie s line) 1 (recallLine line s1)
      let toHbm (u : State) : Missed × State :=
        (.waits, schedPush { line := line, critical := a.critical, partition := a.partition, since := u.time.now,
                             write := none, poison := false }
          (setTag line { waiters := a.req.toList, units := a.unit.toList, tracked := a.tracked, lead := a.lead,
                         served := false, halves := 0, corrected := false } u))
      if a.tracked then
        let z := zeroFill line t
        if z.1 then (.whole, z.2) else toHbm z.2
      else toHbm t

/-! ### Service of a request at its home -/

/-- The bytes a request writes, as a line and a mask; a later lane of the list wins. -/
def lanesLine (ls : List LaneAcc) : Line × BitVec 128 :=
  ls.foldl (fun a l =>
    let m := spanMask l.pos l.n
    (overlay a.1 (BitVec.ofNat 1024 (l.val * 2 ^ (8 * l.pos))) m, a.2 ||| m)) (0#1024, 0#128)

/-- Lane after lane, in order, one update each (R160): the line, and the lanes with what each saw. -/
def lanesAtomic (op w : Nat) : List LaneAcc → Nat → Nat × List LaneAcc
  | [], d => (d, [])
  | l :: ls, d =>
    let old := bits d (8 * l.pos) (8 * l.n)
    let r := lanesAtomic op w ls (setBits d (8 * l.pos) (8 * l.n) (atomicOp op w old l.val l.cmp))
    (r.1, { l with res := old } :: r.2)

def setReq (id : Nat) (r : Req) (s : State) : State := { s with reqs := s.reqs.put id r }

def dropReq (id : Nat) (s : State) : State := { s with reqs := s.reqs.del id }

/-- A reduce-write of a Medlar core's store-buffer head is granted, and the head advances (R208). -/
def advanceHead (a : Agent) (s : State) : State :=
  match a with
  | .medlar c =>
    let m := medlarOf s c
    match m.sb with
    | e :: rest => if e.reduce.isSome then setMedlar c { m with sb := rest } s else s
    | [] => s
  | .group _ => s

/-- The bytes of its line that a request needs before it can be performed: those of its lanes, the whole line for a load
that fills an L1 or a partial write of a tracked line, and none for another write (R109, R153, R240). -/
def reqNeeds (r : Req) : BitVec 128 :=
  let m := (lanesLine r.lanes).2
  match r.kind with
  | .write => if r.xl.tracked && m != BitVec.allOnes 128 then BitVec.allOnes 128 else 0#128
  | _ => if r.l1 then BitVec.allOnes 128 else m

/-- The home performs a request on a line of which it has the bytes (R240, R244–R246). -/
def performReq (id line : Nat) (r : Req) (s : State) : State :=
  let t := recallLine line (if r.missed then s else bump (K.benchHits + homeDie s line) 1 s)
  let b := (t.mem.bench.find line).getD (fullLine 0#1024 false false r.xl.tracked)
  match r.kind with
  | .read | .fetch =>
    setReq id { r with st := if b.poison then .poisoned else .served
                       data := if r.l1 then some b.data else none
                       lanes := r.lanes.map fun l => { l with res := lineBytes b.data l.pos l.n } } t
  | .write =>
    let w := lanesLine r.lanes
    setReq id { r with st := .served } (storeLine line r.xl.tracked w.1 w.2 false t)
  | .atomic op w =>
    if b.poison then setReq id { r with st := .poisoned } t
    else
      let a := lanesAtomic op w r.lanes b.data.toNat
      setReq id { r with st := .served, lanes := a.2 } (benchWrite line r.xl.tracked (BitVec.ofNat 1024 a.1) t)
  | .reduce op w =>
    if b.poison then
      setReq id { r with st := .served } (t |> bump (K.benchPoisonAbsorbed + homeDie s line) 1 |> sumErr 3)
    else
      let a := lanesAtomic op w r.lanes b.data.toNat
      setReq id { r with st := .served } (benchWrite line r.xl.tracked (BitVec.ofNat 1024 a.1) t)

/-- A request that its home has granted is performed, or waits for its line (R240, R244–R246). -/
def serveReq (id : Nat) (s : State) : State :=
  match s.reqs.find id with
  | none => s
  | some r =>
    match lineOf r.xl with
    | none => s
    | some line =>
      if reqNeeds r = 0#128 ∨ lineReady s line (reqNeeds r) then performReq id line r s
      else
        let m := missLine line { tracked := r.xl.tracked, critical := r.critical, partition := r.xl.partition,
                                 lead := ((r.lanes.map LaneAcc.pos).headD 0) / 64 % 2, req := some id, unit := none } s
        match m.1 with
        | .whole => performReq id line { r with missed := true } m.2
        | .waits => setReq id { r with st := .waitFill, missed := true } m.2
        | .noTag => setReq id { r with missed := true } m.2

/-! ### Transactions that snoop (R219, R224) -/

def setTxn (line : Nat) (t : CohTxn) (s : State) : State := { s with coh := { s.coh with txns := s.coh.txns.put line t } }

def dropCohTxn (line : Nat) (s : State) : State := { s with coh := { s.coh with txns := s.coh.txns.del line } }

/-- The home snoops some cores for a transaction. -/
def startSnoops (line : Nat) (serves : CohFor) (k : SnoopKind) (cores : List Nat) (s : State) : State :=
  let t := setTxn line { serves := serves, awaiting := cores } s
  cores.foldl (fun u c => countSnoop line (setMsgs (u.coh.msgs ++ [.snoop c line k false]) u)) t

/-- The lines with entries in a line's set of its Bench's directory (R226). -/
def dirSet (s : State) (line : Nat) : List Nat :=
  (s.coh.dir.cells.filter fun c => homeDie s c.1 == homeDie s line &&
    Config.dirHash c.1 % 49152 == Config.dirHash line % 49152).map Prod.fst

/-- A line without a directory entry takes one of its set's 16 ways. In a full set the entry that tree pseudo-LRU gives is
evicted, and every holder of its line is sent SnpInval (R226). [DESIGN CHOICE, safe: assumption 24] -/
def dirRoom (line : Nat) (s : State) : State :=
  if !(dirOf s line).holders.isEmpty || decide (s.coh.dir.cells.length < 16) then s
  else
    let all := dirSet s line
    if all.length < 16 then s
    else
      match treeVictim (fun l => (dirOf s l).way) (fun l => (dirOf s l).used) all
          (all.filter fun l => (s.coh.txns.find l).isNone) 4 0 with
      | none => s
      | some l => startSnoops l .evict .inval (dirOf s l).holders (bump (K.dirBackInval + homeDie s line) 1 s)

/-- A core's request that waits at a line's home. -/
def coreReq (s : State) (c line : Nat) (k : CohKind) : Option (Xl × Nat × Bool × Bool) :=
  s.coh.msgs.findSome? fun m => match m with
    | .req c' l' k' x va g d => if c' = c ∧ l' = line ∧ k' = k then some (x, va, g, d) else none
    | _ => none

def notReq (c line : Nat) (k : CohKind) : CohMsg → Bool
  | .req c' l' k' _ _ _ _ => !(c' == c && l' == line && k' == k)
  | _ => true

/-- The request has been granted at its home, and waits for snoops or a fill. -/
def markGranted (c line : Nat) (k : CohKind) (s : State) : State :=
  setMsgs (s.coh.msgs.map fun m => match m with
    | .req c' l' k' x va g d => .req c' l' k' x va (g || (c' == c && l' == line && k' == k)) d
    | m => m) s

/-- The previous Speaker of a line holds it in Shared, or will when it arrives: no message tells it (R222).
[DEDUCED, unsafe: assumption 98] -/
def demoteSpeaker (c line : Nat) (s : State) : State :=
  match (dirOf s line).speaker with
  | none => s
  | some p =>
    if p = c then s
    else
      let m := medlarOf s p
      let t := match m.lines.find line with
        | some l => if l.st = .speaker then setMedlar p { m with lines := m.lines.put line { l with st := .shared } } s else s
        | none => s
      setMsgs (t.coh.msgs.map fun x => match x with
        | .grant c' l' .speaker d q => if c' = p ∧ l' = line then .grant c' l' .shared d q else x
        | y => y) t

/-- The home sends a line, and the directory records the core that takes it (R222, R223, R226).
[DESIGN CHOICE, unsafe: assumption 114] -/
def grantLine (c line : Nat) (k : CohKind) (st : CState) (tracked : Bool) (s0 : State) : State :=
  let s := if st = .speaker then demoteSpeaker c line s0 else s0
  let b := (heldLine s line).getD (fullLine 0#1024 false false false)
  let e := dirOf s line
  let others := e.holders.filter (· != c)
  let e2 : DirEntry := match st with
    | .speaker => { e with owned := false, holders := others ++ [c], speaker := some c, tracked := e.tracked || tracked }
    | _ => { e with owned := true, holders := [c], speaker := none, tracked := e.tracked || tracked }
  setDir line e2 (setMsgs (s.coh.msgs.filter (notReq c line k) ++ [.grant c line st b.data b.poison]) s)

/-- The home serves a core's request (R222, R223, R225): from its own data, after snoops, or after a fill. again tells that
the request was granted before and has waited for its fill. -/
def homeServe (c line : Nat) (k : CohKind) (x : Xl) (demand again : Bool) (s : State) : State :=
  let e := dirOf s line
  let others := e.holders.filter (· != c)
  let g := markGranted c line k s
  let own (st : CState) (t : State) : State :=
    if homeHas t line then
      grantLine c line k st x.tracked (recallLine line (if again then t else bump (K.benchHits + homeDie s line) 1 t))
    else
      let m := missLine line { tracked := x.tracked, critical := demand, partition := x.partition, lead := 0, req := none,
                               unit := none } t
      match m.1 with
      | .whole => grantLine c line k st x.tracked m.2
      | _ => m.2
  match k with
  | .readShared =>
    if e.owned && !others.isEmpty then startSnoops line (.core c k) .shared others g
    else if homeHas s line then own (if others.isEmpty then .sole else .speaker) g
    else match e.speaker with
      | some sp => if sp != c then startSnoops line (.core c k) .shared [sp] g
                   else own (if others.isEmpty then .sole else .speaker) g
      | none => own (if others.isEmpty then .sole else .speaker) g
  | .readOwn => if others.isEmpty then own .dirty g else startSnoops line (.core c k) .own others g
  | .upgrade =>
    if !others.isEmpty then startSnoops line (.core c k) .own others g
    else if e.holders.contains c then grantLine c line k .dirty x.tracked g
    else own .dirty g

/-- The last answer of a transaction has come: what it serves goes on. [DEDUCED, unsafe: assumption 98] -/
def finishTxn (line : Nat) (t : CohTxn) (s : State) : State :=
  let u := dropCohTxn line s
  match t.serves with
  | .core c k =>
    match coreReq u c line k with
    | some (x, _, _, d) => homeServe c line k x d true u
    | none => u
  | .request id => serveReq id u
  | .unit => u
  | .evict => u

/-- The home takes a snoop's answer; with the last one the transaction goes on (R222). -/
def hearResp (c line : Nat) (k : SnoopKind) (d : Option (Line × Bool)) (dirty : Bool) (s : State) : State :=
  let t := homeHears c line k d dirty s
  match t.coh.txns.find line with
  | none => t
  | some x =>
    let left := x.awaiting.filter (· != c)
    if left.isEmpty then finishTxn line x t else setTxn line { x with awaiting := left } t

/-- Bytes of two requests' lanes meet. -/
def lanesMeet (a b : List LaneAcc) : Bool :=
  a.any fun x => b.any fun y => decide (x.pos < y.pos + y.n) && decide (y.pos < x.pos + x.n)

/-- An older request of the same agent that reaches its target before this one and is not yet performed: one to bytes of
this one (R156); a Medlar core's to the same line, which carries the same ordering ID (R218); a Device-strict one before a
Device-strict one (R216). -/
def olderMeets (s : State) (id : Nat) (r : Req) : Bool :=
  let core := match r.src with | .medlar _ => true | .group _ => false
  s.reqs.cells.any fun c =>
    decide (c.1 < id) && c.2.src == r.src &&
    ((lineOf c.2.xl == lineOf r.xl && (core || lanesMeet c.2.lanes r.lanes)) || (c.2.xl.region == 2 && r.xl.region == 2)) &&
    (match c.2.st with | .issued | .stale | .waitFill => true | _ => false)

/-- Whether a request writes. -/
def ReqKind.writes : ReqKind → Bool
  | .read | .fetch => false
  | _ => true

/-- The copy of a line that an atomic would meet is poisoned. [DEDUCED, unsafe: assumption 91] -/
def hereAndPoisoned (s : State) (line : Nat) : Bool :=
  match heldLine s line with
  | some b => b.poison
  | none => hbmPoisoned s line

/-- Another part of the same group's atomic would be refused, so none of its lanes is performed (R163).
[DEDUCED, unsafe: assumption 91] -/
def siblingRefused (s : State) (id : Nat) (r : Req) : Bool :=
  match r.kind, r.src with
  | .atomic _ _, .group _ =>
    s.reqs.cells.any fun c => c.1 != id && c.2.src == r.src && c.2.load == r.load &&
      (c.2.st == .denied || c.2.st == .poisoned || c.2.st == .refaulted ||
       (match c.2.xl.target with
        | .memory o => !domainOk s c.2.xl.domain o true || hereAndPoisoned s (o / 128)
        | _ => false))
  | _, _ => false

/-- A granted request goes on: its snoops are sent (R224), or it is performed or waits for its line. -/
def grantReq (id line : Nat) (r : Req) (s : State) : State :=
  let e := dirOf s line
  if r.kind.writes && !e.holders.isEmpty then startSnoops line (.request id) .inval e.holders s
  else if !r.kind.writes && e.owned then startSnoops line (.request id) .clean e.holders s
  else serveReq id s

/-- A request's fill has come: it goes on, or, while another transaction has its line, it waits to be granted again
(R219, R245). -/
def resumeReq (id line : Nat) (s : State) : State :=
  match s.reqs.find id with
  | none => s
  | some r => if (s.coh.txns.find line).isSome then setReq id { r with st := .issued } s else grantReq id line r s

/-- A request reaches its home (R276, R290): the generation check, the domain check, then the snoops of R224 or service.
[DESIGN CHOICE, safe: assumption 38] -/
def benchGrant (id : Nat) (want : ReqKind → Bool) (s : State) : Answer :=
  match s.reqs.find id with
  | none => stuck "no such request"
  | some r =>
    match lineOf r.xl, r.st with
    | some line, .issued =>
      if !want r.kind then stuck "a request of another kind"
      else if olderMeets s id r then stuck "an older access to these bytes is not performed"
      else if !routeOpen s r.die (homeDie s line) then stuck "the request is held on a stalled link"
      else if (s.coh.txns.find line).isSome then stuck "the line is busy"
      else if sliceHeld s (homeSlice s line) then stuck "the sub-slice is held"
      else if r.missed then .next (grantReq id line r s)
      else if genEarly s (homeSlice s line) r.xl then stuck "the sub-slice has not granted the update"
      else if !genOk s (homeSlice s line) r.xl then .next (countStale (setReq id { r with st := .stale } s))
      else
        let off := match r.xl.target with | .memory o => o | _ => 0
        if !domainOk s r.xl.domain off r.kind.writes then
          .next (setReq id { r with st := .denied } (countDenied r.xl.ctx r.xl.domain off s))
        else if siblingRefused s id r then .next (setReq id { r with st := .dropped } s)
        else
          .next (grantReq id line r (match r.kind with | .reduce _ _ => advanceHead r.src s | _ => s))
    | _, _ => stuck "the request is not at a home"

/-! ### Firmware's accesses -/

/-- A core gives up a line that it holds, and the home takes the data when it is dirty (R222, R225). -/
def evictNow (c line : Nat) (s : State) : State :=
  let m := medlarOf s c
  match m.lines.find line with
  | none => s
  | some l =>
    let t := replayLoads c line (setMedlar c { m with lines := m.lines.del line } s)
    dropHolder line c (if l.st == .dirty then takeData line (some (l.data, l.poison)) true t else t)

/-- A line that comes to a core whose set is full takes the place of another: which one is open (R203, R204).
[DESIGN CHOICE, safe: assumption 99] -/
def makeL2Room (c line : Nat) (s : State) : State :=
  if !l2Full s c line then s
  else
    let v := takeFree s
    let ls := (medlarOf s c).lines.cells.filter fun x => Config.l2Hash x.1 % 2048 == Config.l2Hash line % 2048
    match ls[v.1 % ls.length]? with
    | some x => evictNow c x.1 (atLeast (heldUntil v.2 c x.1) v.2)
    | none => v.2

/-- The messages of a line that are on their way arrive, oldest first, and the transaction they belong to is finished: an
access of firmware that meets a busy line waits for them (R219). [DEDUCED, safe: assumption 27] -/
def settle (line : Nat) : Nat → State → State
  | 0, s => s
  | n + 1, s =>
    match takeFirst (isLineMsg line) s.coh.msgs with
    | none => s
    | some (m, rest) =>
      let t := setMsgs rest s
      settle line n (match m with
        | .grant c l st d p => arrive c l st d p (makeL2Room c l t)
        | .snoop c l k w =>
          let u := if heldUntil t c l > t.time.now then atLeast (heldUntil t c l) (if w then t else countDeferral c t) else t
          let r := answerSnoop c l k u
          setMsgs (r.2.coh.msgs ++ [.resp c l k r.1.1 r.1.2]) r.2
        | .resp c l k d dirty => hearResp c l k d dirty t
        | .req _ _ _ _ _ _ _ => t)

/-- One core is snooped for firmware's access and answers, after any hold window (R224, R228). [DEDUCED, safe: assumption 27] -/
def snoopNow (line : Nat) (k : SnoopKind) (c : Nat) (s : State) : State :=
  let t := countSnoop line s
  let u := if heldUntil t c line > t.time.now then atLeast (heldUntil t c line) (countDeferral c t) else t
  let r := answerSnoop c line k u
  homeHears c line k r.1.1 r.1.2 r.2

/-- Before a read of firmware: an owner returns dirty data (R224). [DEDUCED, safe: assumption 27] -/
def beforeRead (line : Nat) (s : State) : State :=
  let t := settle line (4 * s.coh.msgs.length + 4) s
  let e := dirOf t line
  if e.owned then e.holders.foldl (fun u c => snoopNow line .clean c u) t else t

/-- Before a write of firmware: every Medlar holder gives up the line (R224). [DEDUCED, safe: assumption 27] -/
def beforeWrite (line : Nat) (s : State) : State :=
  let t := settle line (4 * s.coh.msgs.length + 4) s
  (dirOf t line).holders.foldl (fun u c => snoopNow line .inval c u) t

end Sys2Proof.Machine
end

