-- ==== Sys2Proof/Machine/BenchCmds.lean ====
section
/-! DEFINITION. The commands of the Benches, the schedulers and the HBM controllers (R238–R261). -/

namespace Sys2Proof.Machine

/-- BENCH_READ (R238, R241): a read reaches its home. -/
def execBenchRead (req : Nat) (s : State) : Answer :=
  benchGrant req (fun k => match k with | .read | .fetch => true | _ => false) s

/-- BENCH_WRITE (R240): a write reaches its home. -/
def execBenchWrite (req : Nat) (s : State) : Answer :=
  benchGrant req (fun k => match k with | .write => true | _ => false) s

/-- BENCH_ATOMIC (R245): an atomic with return reaches its home. -/
def execBenchAtomic (req : Nat) (s : State) : Answer :=
  benchGrant req (fun k => match k with | .atomic _ _ => true | _ => false) s

/-- BENCH_REDUCE_WRITE (R244): a reduce-write reaches its home. -/
def execBenchReduceWrite (req : Nat) (s : State) : Answer :=
  benchGrant req (fun k => match k with | .reduce _ _ => true | _ => false) s

/-- What a miss leaves with the unit that met it: the line it waits for was corrected (R258).
[DESIGN CHOICE, unsafe: assumption 114] -/
def ownerCorrected (o : TOwner) (s : State) : State := ownerOut o .doneCorrected s

/-- A unit has the whole line it waited for. -/
def giveLine (line : Nat) (mark : Bool) (s : State) (o : TOwner) : State :=
  if ownerLives s o then
    let b := benchData s line
    let t : State := { s with mem := { s.mem with given := s.mem.given ++ [⟨o, line, b.1, b.2⟩] } }
    if mark then ownerCorrected o t else t
  else s

/-- Error reports of a stack's own code come with its bursts and are counted (R256). [DESIGN CHOICE, safe: assumption 116] -/
def innerReports (line inner : Nat) (s : State) : State := bump (K.innerReported + homeCtl s line) inner s

/-- BENCH_FILL (R241, R256, R258): the next codeword of a fill returns, the one with the bytes that were asked for first,
with the reports of the stack's own code; it is decoded and installed, and the requests whose bytes are there go on, with
the corrected mark. The line is whole with the second. -/
def execBenchFill (line inner : Nat) (s : State) : Answer :=
  match s.mem.tags.find line with
  | none => stuck "no miss tag holds the line"
  | some t =>
    if !t.served then stuck "the scheduler has not served the fill"
    else
      let s1 := recallLine line (innerReports line inner s)
      let f := fillHalf line (if t.halves = 0 then t.lead else 1 - t.lead) t.tracked (makeRoom line 4 s1)
      let mark := t.corrected || f.1
      let ready (id : Nat) : Bool := match f.2.reqs.find id with
        | some r => lineReady f.2 line (reqNeeds r)
        | none => true
      let now := t.waiters.filter ready
      let s2 : State := if t.halves = 0
        then setTag line { t with waiters := t.waiters.filter fun id => !ready id, halves := 1, corrected := mark } f.2
        else { f.2 with mem := { f.2.mem with tags := f.2.mem.tags.del line } }
      let s3 := if t.halves = 0 then s2 else t.units.foldl (giveLine line mark) s2
      .next (now.foldl (fun u id =>
        resumeReq id line (match u.reqs.find id with
          | some r => setReq id { r with corrected := r.corrected || mark } u
          | none => u)) s3)

/-! ### Scheduling (R251–R254) -/

/-- A bulk request older than AGE_CAP_NS (R252). -/
def overAge (s : State) (r : HbmReq) : Bool := !r.critical && decide (s.time.now > r.since + dv s K.ageCapNs)

/-- The class of R252 in priority mode: lower is served first. -/
def prioClass (s : State) (r : HbmReq) : Nat := if overAge s r then 1 else if r.critical then 2 else 3

/-- Tokens a partition's bucket gains in a nanosecond, in 1/5,120 token: its share of the channel's line rate, which is
0.3, 0.25 or 0.2 lines per ns by the stack's rate (R254, Table 5). -/
def tokenGain (s : State) (pc part : Nat) : Nat :=
  dv s (K.bwShare + part) * (match dv s (K.hbmRate + pc / 32) with | 0 => 6 | 1 => 5 | _ => 4)

/-- A bucket as it stands now; full before its first use (assumption 22). [DESIGN CHOICE, unsafe: assumption 22] -/
def bucketNow (s : State) (pc part : Nat) : Nat :=
  let cap := dv s (K.bwBurst + part) * 5120
  min cap (s.mem.buckets.get cap (16 * pc + part) + tokenGain s pc part * (s.time.now - s.mem.bucketAt.get s.time.now pc))

def settleBuckets (pc : Nat) (s : State) : State :=
  { s with mem := { s.mem with
      buckets := (List.range 16).foldl (fun b i => b.put (16 * pc + i) (bucketNow s pc i)) s.mem.buckets
      bucketAt := s.mem.bucketAt.put pc s.time.now } }

def eligible (s : State) (pc : Nat) (r : HbmReq) : Bool := decide (bucketNow s pc r.partition ≥ 5120)

/-- The class in regulated mode: eligible latency-critical, eligible bulk, and the rest without a token. -/
def regClass (s : State) (pc : Nat) (r : HbmReq) : Nat :=
  if eligible s pc r then (if r.critical then 1 else 2) else 3

/-- The requests of a scheduler that are ready: those with no older one to their line before them. -/
def readyReqs : List HbmReq → List HbmReq → List (Option HbmReq)
  | _, [] => []
  | before, r :: rest =>
    (if before.any fun x => x.line == r.line then none else some r) :: readyReqs (before ++ [r]) rest

/-- The request at a place of the queue may be served next: it is ready, no ready request of a higher class waits, and it is
the oldest of its class; requests of a class to open rows may change places in priority mode (R252, R254). -/
def mayServe (s : State) (pc pick : Nat) : Bool :=
  let q := readyReqs [] ((schedOf s pc).take 64)
  match q[pick]? with
  | some (some r) =>
    if isRegulated s (pc / 32) then
      q.all (fun x => match x with | some x => decide (regClass s pc r ≤ regClass s pc x) | none => true) &&
      (q.take pick).all (fun x => match x with | some x => decide (regClass s pc r < regClass s pc x) | none => true)
    else q.all fun x => match x with | some x => decide (prioClass s r ≤ prioClass s x) | none => true
  | _ => false

/-- HBM_SCHEDULE (R252, R254): the scheduler of pseudo-channel pc serves the request at place pick of its queue. -/
def execHbmSchedule (pc pick : Nat) (s : State) : Answer :=
  match (schedOf s pc)[pick]? with
  | none => stuck "no such request"
  | some r =>
    if !mayServe s pc pick then stuck "another request is served before it"
    else if bit s.mem.lostStacks.toNat (pc / 32) then stuck "the stack's clock has stopped"
    else
      let c := pc / 32
      let k := ctlOf s c
      let reg := isRegulated s c
      let aged := overAge s r
      let s1 := setSched pc ((schedOf s pc).eraseIdx pick) s
      let s2 := setCtl c { k with agedServed := k.agedServed || aged, starved := k.starved + (if aged && !reg then 1 else 0) } s1
      let s3 := if aged && !reg then bump (K.bwStarvation + pc / 128) 1 s2 else s2
      let s4 :=
        if reg then
          let t := settleBuckets pc s3
          if eligible s pc r then
            { t with mem := { t.mem with buckets := t.mem.buckets.put (16 * pc + r.partition) (bucketNow s pc r.partition - 5120) } }
          else bump (K.bwSpareGrants + pc / 128) 1 t
        else s3
      .next (match r.write with
        | some (d, m) => hbmStore r.line d m r.poison s4
        | none => match s4.mem.tags.find r.line with
          | some t => setTag r.line { t with served := true } s4
          | none => s4)

/-- WCB_HOLD_EXPIRY (R248): an entry has been held for WCB_HOLD_NS, and departs. -/
def execWcbHoldExpiry (ctl line : Nat) (s : State) : Answer :=
  match (ctlOf s ctl).wcb.find? fun e => e.line == line with
  | none => stuck "no such entry"
  | some e => .next (wcbDepart ctl e (atLeast (e.since + dv s K.wcbHoldNs) s))

/-- BW_WINDOW_END (R253): a controller's window of BW_WINDOW_NS ends. -/
def execBwWindowEnd (ctl : Nat) (s : State) : Answer :=
  if ctl ≥ 32 then stuck "no such controller"
  else
    let k := ctlOf s ctl
    let falls := !k.regulated && decide (k.starved ≥ 8)
    let reg := if k.regulated then k.agedServed else falls
    let end_ := k.windowAt + dv s K.bwWindowNs
    let t := setCtl ctl { k with regulated := reg, starved := 0, agedServed := false, windowAt := max s.time.now end_ } (atLeast end_ s)
    .next (if falls then raise 0x22 (ctl / 4) 0 ctl t else t)

/-! ### Refresh, temperature and the patrol (R255, R261) -/

/-- The time in which every bank of a stack is refreshed once, by its multiplier (R255). -/
def refreshRound (s : State) (stack : Nat) : Nat :=
  match dv s (K.refreshRate + stack) with
  | 4 => 975
  | 2 => 1950
  | _ => 3900

/-- REFRESH (R255): the controller refreshes its next bank; a round of the banks takes the time of the refresh rate.
[DEDUCED, unsafe: assumption 10] -/
def execRefresh (stack : Nat) (s : State) : Answer :=
  if stack ≥ 32 ∨ bit s.mem.lostStacks.toNat stack then stuck "the controller does not refresh"
  else
    let k := ctlOf s stack
    let last := k.bank + 1 ≥ max 1 Config.refreshBanks
    let end_ := k.roundAt + refreshRound s stack
    let t := if last then atLeast end_ s else s
    .next (setCtl stack { k with bank := if last then 0 else k.bank + 1, roundAt := if last then max s.time.now end_ else k.roundAt } t)

/-- The refresh multiplier after a reading (Table 6): it rises at once and falls 3 °C below a threshold. -/
def refreshRate (old : Nat) (t : Int) : Nat :=
  let up := if t > 95 then 4 else if t > 85 then 2 else 1
  if up ≥ old then up
  else if old = 4 then (if t ≤ 82 then 1 else if t ≤ 92 then 2 else 4)
  else if t ≤ 82 then 1 else 2

/-- The offset whose pseudo-channel is p and byte loc: the inverse of R235 and R236. -/
def unplace (s : State) (p loc : Nat) : Nat :=
  let lg := (256 - localGib s) * 2 ^ 23
  if loc < lg then
    let hi := loc / 256
    let a := hi * 2 ^ 18
    a + (p ^^^ bits a 18 10 ^^^ bits a 28 10 ^^^ bits a 38 3) * 256 + loc % 256
  else
    let hi := (loc - lg) / 256
    let b := hi * 2 ^ 15
    localBase (p / 128) + b + (p % 128 ^^^ bits b 15 7 ^^^ bits b 22 7 ^^^ bits b 29 7 ^^^ bits b 36 2) * 256 + (loc - lg) % 256

/-- The patrol checks one codeword of a line (R261). [DEDUCED, unsafe: assumption 97] -/
def scrubHalf (line h : Nat) (s : State) : State :=
  let cw := 2 * line + h
  let rewrite (t : State) (d : Line) : State :=
    { t with mem := { t.mem with errSyms := t.mem.errSyms.del cw
                                 hbm := Memory.writeMasked t.mem.hbm (128 * line) 128 d.toNat (halfMask h).toNat } }
  let held := Memory.line s.mem.hbm line
  match decodeAt s cw with
  | .clean => s
  | .corrected => rewrite (foundCorrected line s) held
  | .miscorrected => rewrite (foundCorrected line s) (miscorrect s line h held)
  | .uncorrectable =>
    match (recallLine line s).mem.bench.find line with
    | some b =>
      let t := foundUncorrectable line (recallLine line s)
      if b.poison then t else benchPut line { b with dirty := true } t
    | none =>
      let t := foundUncorrectable line s
      { t with mem := { t.mem with hbmPoison := line :: t.mem.hbmPoison.filter (· != line) } }

/-- SCRUB_READ (R261): the patrol of a stack reads its next line, in a slot no other request can use; a pass over the stack
takes SCRUB_HOURS. [DEDUCED, unsafe: assumption 10] -/
def execScrubRead (stack inner : Nat) (s : State) : Answer :=
  if stack ≥ 32 ∨ dv s K.scrubHours = 0 ∨ bit s.mem.lostStacks.toNat stack then stuck "the patrol is stopped"
  else
    let k := ctlOf s stack
    let pc := 32 * stack + k.scrubNext / 2 ^ 24 % 32
    if !(schedOf s pc).isEmpty then stuck "another request takes the slot"
    else
      let line := unplace s pc (128 * (k.scrubNext % 2 ^ 24)) / 128
      let begins := decide (k.scrubNext = 0)
      let s1 := if begins then atLeast (k.scrubAt + dv s K.scrubHours * 3600000000000) s else s
      let t := innerReports line inner (setCtl stack { k with
        scrubNext := (k.scrubNext + 1) % 2 ^ 29
        scrubAt := if begins then s1.time.now else k.scrubAt } s1)
      if (k.wcb.any fun e => e.line == line) || hbmPoisoned s line then .next t
      else .next (scrubHalf line 1 (scrubHalf line 0 t))

end Sys2Proof.Machine
end

