-- ==== Sys2Proof/Machine/Home.lean ====
section
/-! DEFINITION. What the homes do for agents outside coherence: the Bench operations, and the reads, writes and
reduce-writes that a unit's step makes (R224, R244–R246, R270–R282). -/

namespace Sys2Proof.Machine

/-! ### Firmware's own accesses: domain 0, no translation -/

/-- n bytes that lie in one line. -/
def fwReadLine (off n : Nat) (s : State) : Nat × Bool × State :=
  let r := wholePlain (off / 128) (beforeRead (off / 128) s)
  (lineBytes r.1.data (off % 128) n, r.1.poison, r.2)

/-- n bytes from an offset of SPACE 00, line by line; tells whether any line was poisoned. -/
def fwRead : Nat → Nat → Nat → State → Nat × Bool × State
  | 0, _, _, s => (0, false, s)
  | fuel + 1, off, n, s =>
    if n = 0 then (0, false, s)
    else
      let k := min n (128 - off % 128)
      let a := fwReadLine off k s
      let b := fwRead fuel (off + k) (n - k) a.2.2
      (a.1 + b.1 * 2 ^ (8 * k), a.2.1 || b.2.1, b.2.2)

def fwWriteLine (off n val : Nat) (s : State) : State :=
  let l := off / 128
  storeLine l false (BitVec.ofNat 1024 (bits val 0 (8 * n) * 2 ^ (8 * (off % 128)))) (spanMask (off % 128) n) false
    (beforeWrite l s)

def fwWrite : Nat → Nat → Nat → Nat → State → State
  | 0, _, _, _, s => s
  | fuel + 1, off, n, val, s =>
    if n = 0 then s
    else
      let k := min n (128 - off % 128)
      fwWrite fuel (off + k) (n - k) (val / 2 ^ (8 * k)) (fwWriteLine off k val s)

/-! ### A unit's step -/

/-- What an access of a unit asks for and waits on: the fill of a line, the answers of cores that hold it, or a read over a
connection. -/
inductive Want where
  | fill (line : Nat) (a : Asker)
  | snoop (line : Nat) (k : SnoopKind) (cores : List Nat)
  | remote (xl : Xl) (len : Nat) (owner : TOwner)
deriving DecidableEq, Repr

/-- A step of a unit: the state so far, the context and command it works for, the die it stands on, the outcomes it met,
the fault that stops it, whether something it needs has not come, and what it asks for in that case. -/
structure UStep where
  st : State
  ctx : Nat
  key : Nat
  die : Nat
  outs : List Status
  fault : Option FaultInfo
  held : Bool
  want : Option Want
  /-- Who waits for its misses, its remote reads and the writes it sends over connections. -/
  owner : TOwner
deriving DecidableEq, Repr

def UStep.start (ctx key die : Nat) (s : State) : UStep :=
  { st := s, ctx := ctx, key := key, die := die, outs := [], fault := none, held := false, want := none, owner := .job key }

/-- The answer of a remote read that has come for an owner, and the place it was read from. [DEDUCED, safe: assumption 63] -/
def arrivedFor (s : State) (o : TOwner) (conn addr len : Nat) : Option RemoteRead :=
  (s.links.arrived.find? fun a => a.owner == o && a.conn == conn && a.addr == addr && a.len == len).map Arrived.answer

/-- A remote read of an owner is outstanding. -/
def readOut (s : State) (o : TOwner) (conn addr len : Nat) : Bool :=
  s.links.txns.cells.any fun c => c.2.owner == o && c.2.read && c.2.conn == conn && c.2.addr == addr && c.2.len == len

/-- The connection and address of a remote target. -/
def remotePlace (t : Target) : Nat × Nat := match t with
  | .peer _ off conn => (conn, off)
  | .frontend addr conn _ => (conn, addr)
  | .memory off => (0, off)
  | .window off => (0, off)

/-- What a waiting unit asks for is sent; none where it has been asked for already. [DEDUCED, safe: assumption 107] -/
def sendWant (w : Want) (s : State) : Option State :=
  match w with
  | .fill line a =>
    (match s.mem.tags.find line with
     | some t => if a.unit.toList.all t.units.contains then none else some (missLine line a s).2
     | none =>
       if s.mem.noTag.contains (line, a.req) && decide (tagsIn s (homeSlice s line) ≥ 1024) then none
       else some (missLine line a s).2)
  | .snoop line k cores => if (s.coh.txns.find line).isSome then none else some (startSnoops line .unit k cores s)
  | .remote x n o =>
    let p := remotePlace x.target
    if readOut s o p.1 p.2 n then none else some (openTxn x n true [] o s).2

/-- A unit's step that waits: nothing of it happens but the asking, and the same command makes the step once the answer is
there. [DEDUCED, safe: assumption 107] -/
def waitAnswer (why : String) (u : UStep) (s : State) : Answer :=
  match u.want.bind fun w => sendWant w s with
  | some t => .next t
  | none => stuck why

/-- A unit's step that waits, and keeps what it has done so far: it asks for what it needs next.
[DEDUCED, safe: assumption 107] -/
def keepAsking (u : UStep) (t : State) : State :=
  if u.held then (u.want.bind fun w => sendWant w t).getD t else t

def UStep.stopped (u : UStep) : Bool := u.fault.isSome || u.held

def UStep.on (u : UStep) (f : State → State) : UStep := { u with st := f u.st }

def UStep.met (u : UStep) (o : Status) : UStep := if u.outs.contains o then u else { u with outs := u.outs ++ [o] }

/-- What one read of a unit brings: its bytes as a number, whether its line was poisoned, whether a remote read failed. -/
structure Rd where
  val : Nat
  poison : Bool
  failed : Bool
deriving DecidableEq, Repr

def Rd.none : Rd := ⟨0, false, false⟩

/-- A translation or a check stops the step (R270, R276). -/
def uFault (f : FaultInfo) (u : UStep) : UStep :=
  let s := if f.cause = .segmentFault then countSegFault u.st else u.st
  { u with st := s, fault := some { f with time := label u.die s } }

def uDenied (x : Xl) (va off : Nat) (write : Bool) (u : UStep) : UStep :=
  uFault (deniedInfo u.st x va write) (u.on (countDenied x.ctx x.domain off))

/-- A remote read fails: the data comes poisoned (R281). Torgear's sticky flags and events have told the cause. -/
def uRemoteFail (f : RemoteFail) (u : UStep) : Rd × UStep := (⟨0, true, true⟩, u.met (remoteStatus f))

/-- What a home makes of a unit's access: it is ready, with the state, or it waits, for something it asks for or for a line
that is busy. -/
inductive AtHome where
  | ready (s : State)
  | waits (w : Option Want)
deriving DecidableEq, Repr

/-- A unit's access reaches a line's home (R109, R219, R224, R240–R242, R249): a busy line or a held sub-slice makes it wait,
Medlar holders are snooped, missing bytes are filled, at the class of bulk requests, or are zeros by the zero map. m holds
the bytes it needs. [DEDUCED, safe: assumption 107] -/
def atHome (line : Nat) (m : BitVec 128) (writes : Bool) (x : Xl) (o : TOwner) (s : State) : AtHome :=
  let e := dirOf s line
  if (s.coh.txns.find line).isSome || sliceHeld s (homeSlice s line) then .waits none
  else if writes && !e.holders.isEmpty then .waits (some (.snoop line .inval e.holders))
  else if !writes && e.owned then .waits (some (.snoop line .clean e.holders))
  else if m = 0#128 ∨ lineReady s line m then .ready (recallLine line (bump (K.benchHits + homeDie s line) 1 s))
  else
    let a : Asker := { tracked := x.tracked, critical := false, partition := x.partition,
                       lead := if m &&& halfMask 0 = 0#128 then 1 else 0, req := none, unit := some o }
    if x.tracked && (s.mem.tags.find line).isNone then
      let z := zeroFill line (bump (K.benchMisses + homeDie s line) 1 (recallLine line s))
      if z.1 then .ready z.2 else .waits (some (.fill line a))
    else .waits (some (.fill line a))

/-- Reduce-write a ready line; a poisoned line absorbs it (R246). -/
def reduceAt (line : Nat) (tracked : Bool) (op w : Nat) (d : Line) (m : BitVec 128) (s : State) : State :=
  let b := benchData s line
  if b.2 then s |> bump (K.benchPoisonAbsorbed + homeDie s line) 1 |> sumErr 3
  else benchWrite line tracked (reduceLine op w b.1 d m) s

/-- A unit waits. -/
def UStep.waiting (w : Option Want) (u : UStep) : UStep := { u with held := true, want := w }

/-- Read n bytes of a line at its home, or from the line that the home has read for this step before. -/
def homeRead (x : Xl) (off n : Nat) (u : UStep) : Rd × UStep :=
  match u.st.mem.given.find? fun g => g.owner == u.owner && g.line == off / 128 with
  | some g => (⟨lineBytes g.data (off % 128) n, g.poison, false⟩, u)
  | none =>
  match atHome (off / 128) (spanMask (off % 128) n) false x u.owner u.st with
  | .waits w => (Rd.none, u.waiting w)
  | .ready s => let b := benchData s (off / 128); (⟨lineBytes b.1 (off % 128) n, b.2, false⟩, { u with st := s })

/-- The bytes of its line a write needs before it: all of them for a partial write of a tracked line (R109, R240). -/
def writeNeeds (tracked : Bool) (m : BitVec 128) : BitVec 128 :=
  if tracked && m != BitVec.allOnes 128 then BitVec.allOnes 128 else 0#128

/-- Write the masked bytes of a line at its home. -/
def homeStore (x : Xl) (off : Nat) (d : Line) (m : BitVec 128) (poison : Bool) (u : UStep) : UStep :=
  match atHome (off / 128) (writeNeeds x.tracked m) true x u.owner u.st with
  | .waits w => u.waiting w
  | .ready s => { u with st := storeLine (off / 128) x.tracked d m poison s }

/-- Reduce-write the masked elements of a line at its home. -/
def homeReduce (x : Xl) (off op w : Nat) (d : Line) (m : BitVec 128) (u : UStep) : UStep :=
  match atHome (off / 128) m true x u.owner u.st with
  | .waits v => u.waiting v
  | .ready s => { u with st := reduceAt (off / 128) x.tracked op w d m s }

/-- Where an access of a unit lands: none where the step stops here, at a fault or at a checking point that has not granted
an update (R270, R290). -/
def uPlace (va : Nat) (need : Need) (u : UStep) : Option Xl × UStep :=
  if u.stopped then (none, u)
  else
    let l := landing u.st u.ctx va need
    match l.1 with
    | .ok x => (some x, { u with st := l.2 })
    | .fault seg => (none, uFault (segFault va seg u.ctx need.w false) { u with st := l.2 })
    | .early => (none, u.waiting none)

/-- Read n bytes that lie in one line, under the permission of the access that needs them. -/
def uReadAs (need : Need) (va n : Nat) (u0 : UStep) : Rd × UStep :=
  match uPlace va need u0 with
  | (none, u) => (Rd.none, u)
  | (some x, u) =>
    match x.target with
    | .memory off =>
      if !routesOpen u.st u.die (homeDie u.st (off / 128)) then (Rd.none, u.waiting none)
      else if !domainOk u.st x.domain off need.w then (Rd.none, uDenied x va off need.w u)
      else
        homeRead x off n u
    | .window _ => (Rd.none, uDenied x va 0 false u)
    | t =>
      match acceptRemote u.st t with
      | some f => (⟨0, true, true⟩, u.met (remoteStatus f))
      | none =>
        let p := remotePlace t
        match arrivedFor u.st u.owner p.1 p.2 n with
        | none => (Rd.none, u.waiting (some (.remote x n u.owner)))
        | some (.data b) => (⟨ofBytes (b.take n), false, false⟩, u)
        | some .poisoned => (⟨0, true, false⟩, u)
        | some (.failed f) => uRemoteFail f u

/-- Read n bytes that lie in one line. -/
def uReadLine (va n : Nat) (u : UStep) : Rd × UStep := uReadAs needR va n u

/-- Read n bytes, line by line. -/
def uRead : Nat → Nat → Nat → UStep → Rd × UStep
  | 0, _, _, u => (Rd.none, u)
  | fuel + 1, va, n, u =>
    if n = 0 then (Rd.none, u)
    else
      let k := min n (128 - va % 128)
      let a := uReadLine va k u
      let b := uRead fuel (va + k) (n - k) a.2
      (⟨a.1.val + b.1.val * 2 ^ (8 * k), a.1.poison || b.1.poison, a.1.failed || b.1.failed⟩, b.2)

/-- Read n bytes. -/
def uGet (va n : Nat) (u : UStep) : Rd × UStep := uRead (n / 128 + 2) va n u

/-- Write the masked bytes of the line at va, a multiple of 128. -/
def uStoreLine (va : Nat) (d : Line) (m : BitVec 128) (poison : Bool) (u : UStep) : UStep :=
  if m = 0#128 then u
  else
    match uPlace va needW u with
    | (none, v) => v
    | (some x, u) =>
      match x.target with
      | .memory off =>
        if !routeOpen u.st u.die (homeDie u.st (off / 128)) then u.waiting none
        else if !domainOk u.st x.domain off true then uDenied x va off true u
        else
          homeStore x off d m poison u
      | .window _ => uDenied x va 0 true u
      | t =>
        match acceptRemote u.st t with
        | some f => u.met (remoteStatus f)
        | none =>
          let zero := match t with | .frontend _ _ _ => poison | _ => false
          (maskRuns m.toNat 128 0 none).foldl (fun v r => v.on fun s =>
            (openTxnWith poison none { x with target := t.plus r.1 } r.2 false
              (toBytes r.2 (if zero then 0 else bits d.toNat (8 * r.1) (8 * r.2))) u.owner s).2) u

/-- Write n bytes of a number, line by line. -/
def uWrite : Nat → Nat → Nat → Nat → UStep → UStep
  | 0, _, _, _, u => u
  | fuel + 1, va, n, val, u =>
    if n = 0 then u
    else
      let p := va % 128
      let k := min n (128 - p)
      uWrite fuel (va + k) (n - k) (val / 2 ^ (8 * k))
        (uStoreLine (va - p) (BitVec.ofNat 1024 (bits val 0 (8 * k) * 2 ^ (8 * p))) (spanMask p k) false u)

/-- Write n bytes. -/
def uPut (va n val : Nat) (u : UStep) : UStep := uWrite (n / 128 + 2) va n val u

/-- Reduce-write the masked elements of the line at va (R244, R271); over a connection, its transactions carry the
operation to the home that performs it (R357). [DEDUCED, unsafe: assumption 49] -/
def uReduceLine (va op w : Nat) (d : Line) (m : BitVec 128) (u : UStep) : UStep :=
  if m = 0#128 then u
  else
    match uPlace va needW u with
    | (none, v) => v
    | (some x, u) =>
      match x.target with
      | .memory off =>
        if !routeOpen u.st u.die (homeDie u.st (off / 128)) then u.waiting none
        else if !domainOk u.st x.domain off true then uDenied x va off true u
        else
          homeReduce x off op w d m u
      | .window _ => uDenied x va 0 true u
      | t =>
        match acceptRemote u.st t with
        | some f => u.met (remoteStatus f)
        | none =>
          (maskRuns m.toNat 128 0 none).foldl (fun v r => v.on fun s =>
            (openTxnWith false (some (op, w)) { x with target := t.plus r.1 } r.2 false
              (toBytes r.2 (bits d.toNat (8 * r.1) (8 * r.2))) u.owner s).2) u

/-- A step that does not wait has used the answers that came for it, and its command meets the outcomes it met (R468). -/
def uClose (u : UStep) : State :=
  u.outs.foldl (fun s o => addOut u.key o s) (if u.held then u.st else dropArrived u.owner u.st)

end Sys2Proof.Machine
end

