-- ==== Sys2Proof/Machine/Jobs.lean ====
section
/-! DEFINITION. Started commands: their fields, the outcomes they meet, and their completion (R301–R303, R309–R312,
R324–R326, R468). -/

namespace Sys2Proof.Machine

/-- Where a started command is kept: its queue and SEQ. -/
def jobKey (q seq : Nat) : Nat := q * 2 ^ 32 + seq % 2 ^ 32

def keyQueue (key : Nat) : Nat := key / 2 ^ 32
def keySeq (key : Nat) : Nat := key % 2 ^ 32

def Queue.closed : Queue :=
  { st := .closed, gen := 2, ctx := 0, ringLoc := 0, ringAddr := 0, ringEntries := 256, cplAddr := 0, cplEntries := 256,
    conn := 0, rkey := 0, head := 0, tail := 0, cplHead := 0, status := 0, epoch := 0, fetched := [], killed := [], reread := none,
    live := [], fences := [], results := [], cplWait := [], cplWritten := 0, cplDead := false, held := false }

def queueOf (s : State) (q : Nat) : Queue := s.queues.get Queue.closed q

def setQueue (q : Nat) (x : Queue) (s : State) : State := { s with queues := s.queues.put q x }

def setJob (key : Nat) (j : Job) (s : State) : State := { s with jobs := s.jobs.put key j }

/-- Change a started command. -/
def onJob (key : Nat) (f : Job → Job) (s : State) : State :=
  match s.jobs.find key with
  | some j => setJob key (f j) s
  | none => s

/-- A started command begins to run on its unit. -/
def runJob (key : Nat) (s : State) : State := onJob key (fun j => { j with phase := .running }) s

def setDetail (key d : Nat) (s : State) : State := onJob key (fun j => { j with detail := d % 2 ^ 64 }) s

/-! ### Status (R325, R468) -/

def statusCode : Status → Nat
  | .done => 0x00 | .doneCorrected => 0x01 | .aborted => 0x02 | .abortLate => 0x03 | .segmentFault => 0x10
  | .domainDenied => 0x11 | .descriptorInvalid => 0x12 | .formatUnsupported => 0x13 | .matrixDivergent => 0x14
  | .groupTrap => 0x15 | .poisonRead => 0x20 | .remoteAbandoned => 0x21 | .frontendGone => 0x22 | .peerRefused => 0x23
  | .restrictedMode => 0x30

/-- The order of R468. -/
def statusOrder : List Status :=
  [.restrictedMode, .descriptorInvalid, .formatUnsupported, .aborted, .frontendGone, .remoteAbandoned, .peerRefused,
   .segmentFault, .domainDenied, .matrixDivergent, .groupTrap, .poisonRead, .doneCorrected]

/-- The status of a command that met these outcomes; ABORT_LATE never competes (R468). -/
def statusOf (outs : List Status) : Status :=
  if outs.contains .abortLate then .abortLate
  else match statusOrder.find? fun o => outs.contains o with
    | some o => o
    | none => .done

/-! ### Completion (R309, R315, R324) -/

/-- The completion ring holds as many unconsumed records as it can (R309). -/
def cplFull (x : Queue) : Bool := decide (ahead x.cplWritten x.cplHead + x.cplWait.length ≥ x.cplEntries)

/-- A record joins those of its queue, in the order of the queue's arbiter (R324). -/
def addRecord (q : Nat) (r : CplRec) (s : State) : State :=
  let x := queueOf s q
  let t := if cplFull x then bump K.cplRingStalls 1 s else s
  setQueue q { x with cplWait := x.cplWait ++ [r] } t

/-- The opcode of a command in generation 2's numbering (Table 3 of chapter 10); none where it is not listed. -/
def opGen2 (gen op : Nat) : Option Nat :=
  if gen = 2 then (if 1 ≤ op ∧ op ≤ 15 then some op else none)
  else if 1 ≤ op ∧ op ≤ 7 then some op
  else if op = 8 then some 0x0B
  else if op = 9 ∨ op = 10 then some op
  else none

/-- DETAIL of a command that has not come to anything: a route has issued nothing, and no expert of it has failed (R326). -/
def startDetail (gen op : Nat) : Nat := if opGen2 gen op = some 0x06 then 0xFFFF0000 else 0

/-- A completed command counts, and a SEG_UPDATE counts with its own kind too, whatever its status (R295, R337). -/
def countCompleted (gen op : Nat) (s : State) : State :=
  bump K.segUpdates (if opGen2 gen op = some 0x0B then 1 else 0) (bump K.commandsCompleted 1 s)

/-- A command completes with a status: it leaves its queue's started commands, its result is kept for the fence interval,
and its record is written unless QUIET, a closed queue or an ended epoch forbids it (R300, R301, R311, R335). -/
def finishWith (key : Nat) (st0 : Status) (s : State) : State :=
  match s.jobs.find key with
  | none => s
  | some j =>
    let st : Status := if j.gone then .frontendGone else st0
    let q := keyQueue key
    let seq := keySeq key
    let x := queueOf s q
    let t : State := { s with jobs := s.jobs.del key }
    let u := setQueue q { x with live := x.live.filter (· != seq), results := x.results ++ [(seq, st)] } t
    let v := countCompleted j.gen j.opcode (dropAnswers (fun o => ownerKey o == some key) u)
    if j.mute || x.cplDead || (j.quiet && (st == .done || st == .doneCorrected)) then v
    else addRecord q { seq := seq, status := st, opcode := j.opcode, tag := j.tag, detail := j.detail, time := timeOfDay s } v

/-- A SIGNAL whose write has succeeded raises SIGNAL_RAISED when it asks for it (R318). -/
def signalEvent (key : Nat) (j : Job) (st : Status) (s : State) : State :=
  if j.opcode = 0x09 ∧ bit (fld j.raw 33 1) 0 ∧ !j.gone ∧ (st = .done ∨ st = .doneCorrected) then
    raise 0x51 10 (fld j.raw 24 8) (keyQueue key) s
  else s

/-- A command completes with the first of the outcomes it met (R468). -/
def finishJob (key : Nat) (s : State) : State :=
  match s.jobs.find key with
  | none => s
  | some j => signalEvent key j (statusOf j.outs) (finishWith key (statusOf j.outs) s)

/-- A command completes once its transfers are acknowledged (R282). -/
def finishAcked (key : Nat) (s : State) : State :=
  if txnsOf s key = 0 then finishJob key s else onJob key (fun j => { j with phase := .ending }) s

/-- A command that never runs completes with one status. -/
def refuseJob (key : Nat) (st : Status) (s : State) : State := finishWith key st s

/-- A command of this kind that its unit has been handed: the kind is generation 2's opcode. -/
def handed (s : State) (q seq kind : Nat) : Option Job :=
  match s.jobs.find (jobKey q seq) with
  | some j => if (j.phase == .handed || j.phase == .blocked) && opGen2 j.gen j.opcode == some kind then some j else none
  | none => none

/-! ### Staging: a generation 1 command carries the address of its descriptor (R286, R303) -/

/-- What staging a descriptor comes to: its 256 bytes, a refusal, a fault of its read, or a read that must wait. -/
inductive Staged where
  | desc (raw : Nat)
  | refused (st : Status)
  | faulted (f : FaultInfo)
  | held
deriving DecidableEq, Repr

/-- Read a command's descriptor once. A read that fails or meets poison refuses the command with that status
(assumption 40). [DESIGN CHOICE, safe: assumption 40] -/
def stageDesc (q seq die : Nat) (j : Job) (s : State) : Staged × UStep :=
  let u := UStep.start j.ctx (jobKey q seq) die s
  if j.gen = 2 || j.staged then (.desc j.raw, u)
  else
    let a := fld j.raw 16 8
    if a ≥ 2 ^ 48 ∨ a % 256 ≠ 0 ∨ fld j.raw 24 104 ≠ 0 then (.refused .descriptorInvalid, u)
    else
      let r := uGet a 256 u
      if r.2.held then (.held, r.2)
      else match r.2.fault with
        | some f => (.faulted f, r.2)
        | none =>
          if r.1.failed then (.refused (statusOf r.2.outs), r.2)
          else if r.1.poison then (.refused .poisonRead, r.2)
          else (.desc r.1.val, r.2)

/-- The read of a descriptor has faulted, and its task, of which nothing else is known, stays where it is for want of a slot
or a fault record; the hold counts once (R327, R329). -/
def holdFault (key counter : Nat) (j : Job) (s : State) : Answer :=
  if j.phase == .blocked then stuck "the task is held in place"
  else .next (bump counter 1 (setJob key { j with phase := .blocked } s))

/-- A task whose descriptor's read faulted is resumed: its command is handed over once more, and read again (R327, R331).
[DESIGN CHOICE, safe: assumption 40] -/
def stageAgain (key : Nat) (s : State) : State := onJob key (fun j => { j with phase := .handed }) s

/-- The unit cannot accept the command and holds it, its descriptor read; the hold counts once (R310, R333). -/
def holdJob (key counter d : Nat) (j : Job) (s : State) : Answer :=
  if j.phase == .blocked then stuck "the command is held by its unit"
  else .next (bump counter 1 (setJob key { j with phase := .blocked, staged := true, raw := d } s))

/-- Bytes a to b of a descriptor, both included, are zero. -/
def zeros (raw a b : Nat) : Bool := fld raw a (b + 1 - a) == 0

end Sys2Proof.Machine
end

