-- ==== Sys2Proof/Machine/FaultOps.lean ====
section
/-! DEFINITION. The fault queue and its waiting list (R327–R330). -/

namespace Sys2Proof.Machine

/-- HANDLE of a task: slot, unit (0–7 ASH0–ASH7, 8 ROW) and kind. -/
def faultHandle (r : FaultRec) : Nat := r.slot % 256 + r.unit % 16 * 2 ^ 8 + r.kind % 8 * 2 ^ 12

/-- PHASE of record n in a ring of so many slots: 1 on the first pass, alternating after it (R324). -/
def phaseOf (n entries : Nat) : Nat := if n / entries % 2 = 0 then 1 else 0

/-- The 64 bytes of a fault record (Table 15). -/
def faultBytes (r : FaultRec) (parked : Bool) (n entries : Nat) : Nat :=
  let i := r.info
  let flags := (if i.imprecise then 1 else 0) + (if parked then 2 else 0) + (if i.write then 4 else 0) +
    (if i.fetch then 8 else 0) + (if r.ended then 16 else 0)
  setFld (setFld (setFld (setFld (setFld (setFld (setFld (setFld (setFld (setFld (setFld (setFld (setFld (setFld (setFld 0
    0 1 (causeCode i.cause)) 1 1 r.kind) 2 2 (faultHandle r)) 4 1 flags) 6 2 r.queue) 8 4 r.seq) 12 2 (i.ctx % 4096))
    14 1 i.seg) 16 8 i.va) 24 8 r.position) 32 4 r.groupIndex) 36 4 i.claimInfo) 40 8 r.time) 48 4 n) 63 1 (phaseOf n entries)

/-- Records written and not yet consumed. -/
def faultsHeld (s : State) : Nat := ahead s.faultq.tail s.faultq.head

def faultRingFull (s : State) : Bool := decide (faultsHeld s ≥ dv s K.faultQEntries)

/-- Write a record into the next slot of the ring; only the translation controller writes the installed tables (R274). -/
def storeFault (parked : Bool) (r : FaultRec) (s : State) : State :=
  let n := s.faultq.tail
  let e := dv s K.faultQEntries
  let at_ := dv s K.faultQBase + 64 * (n % e)
  let t := if inTables s at_ then s else fwWrite 2 at_ 64 (faultBytes r parked n e) s
  bump K.faultRecords 1 { t with faultq := { t.faultq with tail := (n + 1) % 2 ^ 32 } }

/-- A record of the task is parked already. -/
def taskParked (r : FaultRec) (s : State) : Bool :=
  s.faultq.waiting.any fun p => faultHandle p == faultHandle r && p.queue == r.queue && p.seq == r.seq && !p.ended

/-- A record reaches the fault queue's arbiter: written, or parked behind those that wait; the task counts once (R329). -/
def addFault (r : FaultRec) (s : State) : State :=
  if faultRingFull s || !s.faultq.waiting.isEmpty then
    bump K.faultParkedTotal (if taskParked r s then 0 else 1)
      { s with faultq := { s.faultq with waiting := s.faultq.waiting ++ [r] } }
  else storeFault false r s

/-- Neither the ring nor the waiting list has room for n more records, so faulting tasks stay in place (R329). -/
def faultListFull (n : Nat) (s : State) : Bool :=
  faultRingFull s && decide (s.faultq.waiting.length + n > 4096)

/-- Parked records go to freed slots, in order (R329). -/
def unpark : Nat → State → State
  | 0, s => s
  | n + 1, s =>
    match s.faultq.waiting with
    | [] => s
    | r :: rest =>
      if faultRingFull s then s
      else unpark n (storeFault true r { s with faultq := { s.faultq with waiting := rest } })

/-- The parked records of a task that has ended say so (R332). -/
def markEnded (handle : Nat) (s : State) : State :=
  { s with faultq := { s.faultq with
      waiting := s.faultq.waiting.map fun r => if faultHandle r = handle then { r with ended := true } else r } }

/-- A switched-out task's record is still parked (R332). -/
def isParked (handle : Nat) (s : State) : Bool := s.faultq.waiting.any fun r => faultHandle r == handle && !r.ended

/-- One of the free slots of a unit: which one is not promised.
[DESIGN CHOICE, safe: assumption 38; DESIGN CHOICE, safe: assumption 103] -/
def pickSlot (n : Nat) (used : List Nat) (s : State) : Option Nat × State :=
  let open_ := (List.range n).filter fun i => !used.contains i
  match open_ with
  | [] => (none, s)
  | x :: _ => let v := takeFree s; (some (open_.getD (v.1 % open_.length) x), v.2)

/-- The record of a unit's task. -/
def taskRecord (kind unit slot key position : Nat) (f : FaultInfo) : FaultRec :=
  { info := f, kind := kind, slot := slot, unit := unit, queue := keyQueue key, seq := keySeq key, position := position,
    groupIndex := 0, time := f.time, ended := false }

end Sys2Proof.Machine
end

