-- ==== Sys2Proof/Machine/Operands.lean ====
section
/-! DEFINITION. Urtex instruction words: the commands they belong to, their fields, and the registers of both profiles
(R169–R176, R180). -/

namespace Sys2Proof.Machine

/-! ### Fields (R170–R172) -/

def wsize (w : Nat) : Nat := if bit w 0 then 8 else 4

def major (w : Nat) : Nat := bits w 1 6

/-- The fields of the register and immediate formats. Fields that a format lacks hold 0, RM of a short form holds 7. -/
structure RFields where
  long : Bool
  s : Bool
  op : Nat
  aux : Nat
  rm : Nat
  resv : Nat
  fmt : Nat
  pn : Bool
  pe : Bool
  preg : Nat
  c : Nat
  b : Nat
  a : Nat
  d : Nat
  imm : Nat
deriving DecidableEq, Repr

/-- R32 and R64. -/
def rFields (w : Nat) : RFields :=
  if bit w 0 then
    { long := true, s := bit w 49, op := bits w 50 5, aux := bits w 58 3, rm := bits w 55 3, resv := bits w 61 3,
      fmt := bits w 44 5, pn := bit w 43, pe := bit w 42, preg := bits w 39 3, c := bits w 31 8, b := bits w 23 8,
      a := bits w 15 8, d := bits w 7 8, imm := 0 }
  else
    { long := false, s := bit w 22, op := bits w 23 5, aux := bits w 28 3, rm := 7, resv := bits w 31 1,
      fmt := 0, pn := false, pe := false, preg := 0, c := 0, b := bits w 17 5, a := bits w 12 5, d := bits w 7 5, imm := 0 }

/-- I32 and I64: op is FN or FN4 as a whole, imm the sign-extended immediate as a 64-bit number. -/
def iFields (w : Nat) : RFields :=
  if bit w 0 then
    { long := true, s := bit w 31, op := bits w 28 4, aux := 0, rm := 0, resv := 0, fmt := 0, pn := bit w 27,
      pe := bit w 26, preg := bits w 23 3, c := 0, b := 0, a := bits w 15 8, d := bits w 7 8,
      imm := sext 32 64 (bits w 32 32) }
  else
    { long := false, s := bit w 20, op := bits w 17 3, aux := 0, rm := 0, resv := 0, fmt := 0, pn := false,
      pe := false, preg := 0, c := 0, b := 0, a := bits w 12 5, d := bits w 7 5, imm := sext 11 64 (bits w 21 11) }

/-- The fields of the memory formats. -/
structure MFields where
  long : Bool
  off : Int
  pn : Bool
  pe : Bool
  preg : Nat
  lc : Bool
  bench : Bool
  sx : Bool
  scale : Nat
  am : Nat
  width : Nat
  opf : Nat
  b : Nat
  a : Nat
  d : Nat
deriving DecidableEq, Repr

/-- M32 and M64. -/
def mFields (w : Nat) : MFields :=
  if bit w 0 then
    { long := true, off := signed 14 (bits w 50 14), pn := bit w 49, pe := bit w 48, preg := bits w 45 3,
      lc := bit w 44, bench := bit w 43, sx := bit w 42, scale := bits w 40 2, am := bits w 38 2, width := bits w 35 3,
      opf := bits w 31 4, b := bits w 23 8, a := bits w 15 8, d := bits w 7 8 }
  else
    { long := false, off := signed 10 (bits w 22 10), pn := false, pe := false, preg := 0, lc := false,
      bench := bit w 21, sx := bit w 20, scale := 0, am := 0, width := bits w 17 3, opf := 0, b := 0,
      a := bits w 12 5, d := bits w 7 5 }

/-- The fields of the branch formats: target and reconvergence as byte distances. -/
structure BFields where
  target : Int
  reconv : Nat
  resv : Nat
  kind : Nat
  cond : Nat
  b : Nat
  a : Nat
deriving DecidableEq, Repr

/-- B32 and B64. -/
def bFields (w : Nat) : BFields :=
  if bit w 0 then
    { target := 4 * signed 16 (bits w 48 16), reconv := 4 * bits w 32 16, resv := bits w 28 4, kind := bits w 26 2,
      cond := bits w 23 3, b := bits w 15 8, a := bits w 7 8 }
  else
    { target := 4 * signed 12 (bits w 20 12), reconv := 0, resv := 0, kind := 0, cond := bits w 17 3,
      b := bits w 12 5, a := bits w 7 5 }

/-! ### Words of fields: the encoder (R170–R172) -/

/-- The fields hold what R32 or R64 can carry. -/
def RFields.fits (f : RFields) : Bool :=
  if f.long then
    decide (f.op < 32) && decide (f.aux < 8) && decide (f.rm < 8) && decide (f.resv < 8) && decide (f.fmt < 32) &&
    decide (f.preg < 8) && decide (f.c < 256) && decide (f.b < 256) && decide (f.a < 256) && decide (f.d < 256) && f.imm == 0
  else
    decide (f.op < 32) && decide (f.aux < 8) && f.rm == 7 && decide (f.resv < 2) && f.fmt == 0 && !f.pn && !f.pe &&
    f.preg == 0 && f.c == 0 && decide (f.b < 32) && decide (f.a < 32) && decide (f.d < 32) && f.imm == 0

/-- The word of a major opcode and the fields of R32 or R64. -/
def encodeR (maj : Nat) (f : RFields) : Nat :=
  if f.long then
    1 + maj * 2 + f.d * 2 ^ 7 + f.a * 2 ^ 15 + f.b * 2 ^ 23 + f.c * 2 ^ 31 + f.preg * 2 ^ 39 + f.pe.toNat * 2 ^ 42 +
    f.pn.toNat * 2 ^ 43 + f.fmt * 2 ^ 44 + f.s.toNat * 2 ^ 49 + f.op * 2 ^ 50 + f.rm * 2 ^ 55 + f.aux * 2 ^ 58 + f.resv * 2 ^ 61
  else
    maj * 2 + f.d * 2 ^ 7 + f.a * 2 ^ 12 + f.b * 2 ^ 17 + f.s.toNat * 2 ^ 22 + f.op * 2 ^ 23 + f.aux * 2 ^ 28 + f.resv * 2 ^ 31

/-- The fields hold what I32 or I64 can carry; in I64 the S bit is the top bit of FN4. -/
def RFields.fitsI (f : RFields) : Bool :=
  f.aux == 0 && f.rm == 0 && f.resv == 0 && f.fmt == 0 && f.c == 0 && f.b == 0 &&
  if f.long then
    decide (f.op < 16) && f.s == bit f.op 3 && decide (f.preg < 8) && decide (f.a < 256) && decide (f.d < 256) &&
    f.imm == sext 32 64 (bits f.imm 0 32)
  else
    decide (f.op < 8) && !f.pn && !f.pe && f.preg == 0 && decide (f.a < 32) && decide (f.d < 32) &&
    f.imm == sext 11 64 (bits f.imm 0 11)

/-- The word of a major opcode and the fields of I32 or I64. -/
def encodeI (maj : Nat) (f : RFields) : Nat :=
  if f.long then
    1 + maj * 2 + f.d * 2 ^ 7 + f.a * 2 ^ 15 + f.preg * 2 ^ 23 + f.pe.toNat * 2 ^ 26 + f.pn.toNat * 2 ^ 27 + f.op * 2 ^ 28 +
    bits f.imm 0 32 * 2 ^ 32
  else
    maj * 2 + f.d * 2 ^ 7 + f.a * 2 ^ 12 + f.op * 2 ^ 17 + f.s.toNat * 2 ^ 20 + bits f.imm 0 11 * 2 ^ 21

/-- The fields hold what M32 or M64 can carry. -/
def MFields.fits (f : MFields) : Bool :=
  if f.long then
    decide (-8192 ≤ f.off) && decide (f.off < 8192) && decide (f.preg < 8) && decide (f.scale < 4) && decide (f.am < 4) &&
    decide (f.width < 8) && decide (f.opf < 16) && decide (f.b < 256) && decide (f.a < 256) && decide (f.d < 256)
  else
    decide (-512 ≤ f.off) && decide (f.off < 512) && !f.pn && !f.pe && f.preg == 0 && !f.lc && f.scale == 0 && f.am == 0 &&
    decide (f.width < 8) && f.opf == 0 && f.b == 0 && decide (f.a < 32) && decide (f.d < 32)

/-- The word of a major opcode and the fields of M32 or M64. -/
def encodeM (maj : Nat) (f : MFields) : Nat :=
  if f.long then
    1 + maj * 2 + f.d * 2 ^ 7 + f.a * 2 ^ 15 + f.b * 2 ^ 23 + f.opf * 2 ^ 31 + f.width * 2 ^ 35 + f.am * 2 ^ 38 +
    f.scale * 2 ^ 40 + f.sx.toNat * 2 ^ 42 + f.bench.toNat * 2 ^ 43 + f.lc.toNat * 2 ^ 44 + f.preg * 2 ^ 45 +
    f.pe.toNat * 2 ^ 48 + f.pn.toNat * 2 ^ 49 + unsigned 14 f.off * 2 ^ 50
  else
    maj * 2 + f.d * 2 ^ 7 + f.a * 2 ^ 12 + f.width * 2 ^ 17 + f.sx.toNat * 2 ^ 20 + f.bench.toNat * 2 ^ 21 +
    unsigned 10 f.off * 2 ^ 22

/-- The fields hold what B32 or B64 can carry. -/
def BFields.fits (long : Bool) (f : BFields) : Bool :=
  f.target % 4 == 0 && decide (f.cond < 8) &&
  if long then
    decide (-131072 ≤ f.target) && decide (f.target < 131072) && f.reconv % 4 == 0 && decide (f.reconv < 262144) &&
    decide (f.resv < 16) && decide (f.kind < 4) && decide (f.b < 256) && decide (f.a < 256)
  else
    decide (-8192 ≤ f.target) && decide (f.target < 8192) && f.reconv == 0 && f.resv == 0 && f.kind == 0 &&
    decide (f.b < 32) && decide (f.a < 32)

/-- The word of a major opcode and the fields of B32 or B64. -/
def encodeB (maj : Nat) (long : Bool) (f : BFields) : Nat :=
  if long then
    1 + maj * 2 + f.a * 2 ^ 7 + f.b * 2 ^ 15 + f.cond * 2 ^ 23 + f.kind * 2 ^ 26 + f.resv * 2 ^ 28 + f.reconv / 4 * 2 ^ 32 +
    unsigned 16 (f.target / 4) * 2 ^ 48
  else
    maj * 2 + f.a * 2 ^ 7 + f.b * 2 ^ 12 + f.cond * 2 ^ 17 + unsigned 12 (f.target / 4) * 2 ^ 20

/-! ### The opcode map (R175, R176) -/

/-- The commands that execute an instruction. -/
inductive Row where
  | int | inti | move | pred | fp | fcvt | ld | st | amo | cas | red | local_ | br | jal | jalr | brx
  | fenceSl | fenceWc | fenceI | fenceRel | fenceAcq | fenceSys | mxbegin | mxend | mma | nop | end_ | tret | trap
  | crr | crw
deriving DecidableEq, Repr

/-- The command an instruction word belongs to; none for a word that names no instruction, which raises ILLEGAL. -/
def rowOf (w : Nat) : Option Row :=
  let long := bit w 0
  let op := (rFields w).op
  let fn := (iFields w).op
  match major w with
  | 0x01 => some .int
  | 0x02 => some .inti
  | 0x03 => some .move
  | 0x04 => some .pred
  | 0x08 => some .fp
  | 0x09 => if long then some .fcvt else none
  | 0x10 => some .ld
  | 0x11 => some .st
  | 0x12 => if long then (if (mFields w).opf = 9 then some .cas else some .amo) else none
  | 0x13 => if long then some .red else none
  | 0x14 => some .local_
  | 0x18 => some .br
  | 0x19 => if !long then some .jal else if fn = 0 then some .jalr else if fn = 1 then some .brx else none
  | 0x1C =>
    if long then none
    else if op = 0 then some .fenceSl else if op = 1 then some .fenceWc else if op = 2 then some .fenceI
    else if op = 3 then some .fenceRel else if op = 4 then some .fenceAcq else if op = 5 then some .fenceSys else none
  | 0x1D =>
    if long then (if op = 2 then some .mma else none)
    else if op = 0 then some .mxbegin else if op = 1 then some .mxend else none
  | 0x1E =>
    if long then (if fn = 1 then some .trap else if fn = 2 then some .crr else if fn = 3 then some .crw else none)
    else if op = 0 then some .nop else if op = 1 then some .end_ else if op = 2 then some .tret else none
  | _ => none

/-! ### Register fields (R173, R174, R179) -/

/-- The file an operand field names. -/
inductive OpK where
  | unused | sc | vec | pair | pred
deriving DecidableEq, Repr

/-- The operand files of an instruction's D, A, B and C. -/
structure OpKs where
  d : OpK
  a : OpK
  b : OpK
  c : OpK
deriving DecidableEq, Repr

/-- A register of a group. -/
inductive RReg where
  | v (n : Nat)
  | s (n : Nat)
  | p (n : Nat)
deriving DecidableEq, Repr

/-- A field names a register of its profile (Table 4a). -/
def fieldOk (grp : Bool) (k : OpK) (x : Nat) : Bool :=
  match k with
  | .unused => x == 0
  | .sc => decide (x < if grp then 64 else 32)
  | .vec => grp || decide (x < 32)
  | .pair => if grp then x % 2 == 0 else decide (x < 32)
  | .pred => grp && decide (x < 8)

/-- A group's vector registers end at REGS (R133). -/
def fieldInRange (regs : Nat) (k : OpK) (x : Nat) : Bool :=
  match k with
  | .vec => decide (x < regs)
  | .pair => decide (x + 1 < regs)
  | _ => true

def regsOf (k : OpK) (x : Nat) : List RReg :=
  match k with
  | .unused => []
  | .sc => [.s x]
  | .vec => [.v x]
  | .pair => [.v x, .v (x + 1)]
  | .pred => [.p x]

/-- The first register cause of an instruction: its fields, then their range. -/
def regCause (grp : Bool) (regs : Nat) (k : OpKs) (d a b c : Nat) : Option Cause :=
  if !(fieldOk grp k.d d && fieldOk grp k.a a && fieldOk grp k.b b && fieldOk grp k.c c) then some .illegal
  else if grp && !(fieldInRange regs k.d d && fieldInRange regs k.a a && fieldInRange regs k.b b &&
      fieldInRange regs k.c c) then some .regRange
  else none

/-- The predication fields: PE only for vector operations of the group profile, and nothing else without it (R179). -/
def predOk (grp vector pe pn : Bool) (preg : Nat) : Bool := if pe then grp && vector else !pn && preg == 0

def usedRegs (k : OpKs) (d a b c : Nat) (pe : Bool) (preg : Nat) : List RReg :=
  regsOf k.d d ++ regsOf k.a a ++ regsOf k.b b ++ regsOf k.c c ++ (if pe then [.p preg] else [])

/-! ### Registers -/

/-- Lanes or elements of n bits put together: f where take holds, the old value elsewhere; count of them first. -/
def mergeEls (n : Nat) (old : Nat) (take : Nat → Bool) (f : Nat → Nat) : Nat → Nat
  | 0 => 0
  | k + 1 => mergeEls n old take f k + (if take k then f k % 2 ^ n else bits old (n * k) n) * 2 ^ (n * k)

def vLane (a : Arch) (r lane : Nat) : Nat := bits (a.v.get 0#1024 r).toNat (32 * lane) 32

def vPair (a : Arch) (r lane : Nat) : Nat := vLane a r lane + vLane a (r + 1) lane * 2 ^ 32

/-- One lane's operand of w bits: a register, or a pair for 64. -/
def vOperand (a : Arch) (w r lane : Nat) : Nat := if w = 64 then vPair a r lane else vLane a r lane % 2 ^ w

def sReg (a : Arch) (r : Nat) : Nat := (a.s.get 0#64 r).toNat
def pReg (a : Arch) (r : Nat) : Nat := (a.p.get 0#32 r).toNat

/-- The lanes in which a predicated operation takes effect (R179). -/
def execMask (a : Arch) (pe pn : Bool) (preg : Nat) : Nat :=
  if !pe then a.mask.toNat
  else (a.mask &&& (if pn then ~~~(a.p.get 0#32 preg) else a.p.get 0#32 preg)).toNat

def setV (r mask : Nat) (f : Nat → Nat) (a : Arch) : Arch :=
  { a with v := a.v.set 0#1024 r (BitVec.ofNat 1024 (mergeEls 32 (a.v.get 0#1024 r).toNat (bit mask) f 32)) }

def setVPair (r mask : Nat) (f : Nat → Nat) (a : Arch) : Arch :=
  setV (r + 1) mask (fun i => f i / 2 ^ 32) (setV r mask (fun i => f i % 2 ^ 32) a)

/-- Write one lane's result of w bits to a register, or a pair for 64. -/
def setVOperand (w r mask : Nat) (f : Nat → Nat) (a : Arch) : Arch :=
  if w = 64 then setVPair r mask f a else setV r mask f a

def setS (r x : Nat) (a : Arch) : Arch := { a with s := a.s.set 0#64 r (BitVec.ofNat 64 x) }

/-- Write predicate bits in the lanes of a mask. -/
def setP (r mask : Nat) (f : Nat → Bool) (a : Arch) : Arch :=
  { a with p := a.p.set 0#32 r (BitVec.ofNat 32
      (mergeEls 1 (a.p.get 0#32 r).toNat (bit mask) (fun i => if f i then 1 else 0) 32)) }

def gReg (m : Medlar) (r : Nat) : Nat := (m.g.get 0#64 r).toNat
def mvReg (m : Medlar) (r : Nat) : Nat := (m.v.get 0#512 r).toNat

def setG (r x : Nat) (m : Medlar) : Medlar := { m with g := m.g.set 0#64 r (BitVec.ofNat 64 x) }

/-- Write a Medlar vector, element by element. -/
def setMv (r w : Nat) (f : Nat → Nat) (m : Medlar) : Medlar :=
  { m with v := m.v.set 0#512 r (BitVec.ofNat 512 (mergeEls w 0 (fun _ => true) f (512 / w))) }

def mvEl (m : Medlar) (w r i : Nat) : Nat := bits (mvReg m r) (w * i) w

/-! ### Addresses (R180, R182, R186) -/

/-- Bytes of an access by WIDTH (R181). -/
def accessBytes (width : Nat) : Nat := if width = 4 then 64 else 2 ^ width

def wrap64 (x : Int) : Nat := unsigned 64 x

/-- The virtual address of a Medlar access. -/
def medlarAddr (f : MFields) (m : Medlar) : Nat :=
  if !f.long then wrap64 ((gReg m f.a : Int) + f.off * (accessBytes f.width : Nat))
  else if f.am = 1 then wrap64 ((gReg m f.a : Int) + ((gReg m f.b * 2 ^ f.scale % 2 ^ 64 : Nat) : Int) + f.off)
  else wrap64 ((gReg m f.a : Int) + f.off)

/-- The virtual address of one lane's access. -/
def laneAddr (f : MFields) (a : Arch) (lane : Nat) : Nat :=
  if !f.long then wrap64 ((sReg a f.a : Int) + (f.off + (lane : Nat)) * (accessBytes f.width : Nat))
  else if f.am = 1 then wrap64 ((sReg a f.a : Int) + (vLane a f.b lane * 2 ^ f.scale : Nat) + f.off)
  else if f.am = 2 then wrap64 ((vPair a f.a lane : Int) + f.off)
  else wrap64 ((sReg a f.a : Int) + f.off)

/-- One lane's local-store address. -/
def laneLocal (f : MFields) (a : Arch) (lane : Nat) : Nat :=
  if f.long && f.am == 2 then wrap64 ((vLane a f.a lane : Int) + f.off) else laneAddr f a lane

end Sys2Proof.Machine
end

