-- ==== Sys2Proof/Machine/Flags.lean ====
section
/-! DEFINITION. Results, conditions and floating-point flags of Urtex operations, one element at a time (R176–R178, R187). -/

namespace Sys2Proof.Machine

/-! ### Integer operations (R176, R177) -/

def clz (w x : Nat) : Nat := w - bitLen (x % 2 ^ w)

/-- Truncating division and remainder; by zero all ones and the dividend (R177). -/
def divS (w : Nat) (a b : Nat) : Nat :=
  if b % 2 ^ w = 0 then 2 ^ w - 1 else unsigned w ((signed w a).tdiv (signed w b))
def remS (w : Nat) (a b : Nat) : Nat :=
  if b % 2 ^ w = 0 then a % 2 ^ w else unsigned w ((signed w a).tmod (signed w b))
def divU (w : Nat) (a b : Nat) : Nat := if b = 0 then 2 ^ w - 1 else a / b
def remU (a b : Nat) : Nat := if b = 0 then a else a % b

def ofBool (b : Bool) : Nat := if b then 1 else 0

/-- INT's operation op on w-bit operands. -/
def intOp (op w : Nat) (x y : Nat) : Nat :=
  let a := x % 2 ^ w
  let b := y % 2 ^ w
  let sa := signed w a
  let sb := signed w b
  let sh := b % w
  let r := match op with
    | 0 => a + b
    | 1 => a + (2 ^ w - b)
    | 2 => a &&& b
    | 3 => a ||| b
    | 4 => a ^^^ b
    | 5 => a * 2 ^ sh
    | 6 => a / 2 ^ sh
    | 7 => unsigned w (sa / (2 : Int) ^ sh)
    | 8 => a * b
    | 9 => unsigned w (sa * sb / (2 : Int) ^ w)
    | 10 => a * b / 2 ^ w
    | 11 => divS w a b
    | 12 => divU w a b
    | 13 => remS w a b
    | 14 => remU a b
    | 15 => if sa ≤ sb then a else b
    | 16 => if sa ≤ sb then b else a
    | 17 => min a b
    | 18 => max a b
    | 19 => ofBool (decide (sa < sb))
    | 20 => ofBool (decide (a < b))
    | 21 => popCount w a
    | _ => clz w a
  r % 2 ^ w

/-- INTI's operation in INT's numbering: ADD, AND, OR, XOR, SLL, SRL, SRA, SLT. -/
def intiOp (fn : Nat) : Nat :=
  match fn with
  | 0 => 0 | 1 => 2 | 2 => 3 | 3 => 4 | 4 => 5 | 5 => 6 | 6 => 7 | _ => 19

/-- A result of w bits in a 64-bit register: 32-bit operations sign-extend (R177). -/
def toScalar (w x : Nat) : Nat := if w = 32 then sext 32 64 x else x

/-! ### Conditions (R187) -/

/-- COND 0–6 on w-bit operands. -/
def condHolds (cond w x y : Nat) : Bool :=
  let a := x % 2 ^ w
  let b := y % 2 ^ w
  match cond with
  | 0 => a == b
  | 1 => a != b
  | 2 => decide (signed w a < signed w b)
  | 3 => decide (signed w b ≤ signed w a)
  | 4 => decide (a < b)
  | 5 => decide (b ≤ a)
  | _ => true

/-! ### Floating operations (R178) -/

/-- The rounding direction of an instruction: RM 0–4, or 7 for FPCTL.RD. [DESIGN CHOICE, safe: assumption 21] -/
def roundDir (rm fpctl : Nat) : Rnd :=
  let rd := bits fpctl 0 3
  if rm ≤ 4 then ieeeRnd rm else if rd ≤ 4 then ieeeRnd rd else ieeeRnd (Config.reservedRd rd % 5)

def fpShape (aux : Nat) : FShape := (fshape aux).getD ⟨8, 23, 127, 2⟩

def fpBits (aux : Nat) : Nat := if aux = 0 then 64 else 32

/-- FP's operation op: the result element and the flags it raises. -/
def fpOp (op aux : Nat) (rnd : Rnd) (a b c : Nat) : Nat × Nat :=
  let f := fpShape aux
  let w := fpBits aux
  match op with
  | 0 => ieeeAdd f rnd a b
  | 1 =>
    if (f.decode b).isNan then ieeeAdd f rnd a b else ieeeAdd f rnd a (ieeeNegBits f b)
  | 2 => ieeeMul f rnd a b
  | 3 => ieeeDiv f rnd a b
  | 4 => ieeeSqrt f rnd a
  | 5 => ieeeMinMax f false a b
  | 6 => ieeeMinMax f true a b
  | 7 => ieeeFma f rnd a b c
  | 8 => if (f.decode a).isNan then ieeeFma f rnd a b c else ieeeFma f rnd (ieeeNegBits f a) b c
  | 9 => let r := ieeeCompare f 0 a b; (ofBool r.1, r.2)
  | 10 => let r := ieeeCompare f 1 a b; (ofBool r.1, r.2)
  | 11 => let r := ieeeCompare f 2 a b; (ofBool r.1, r.2)
  | 12 => (if (f.decode a).isNan then f.nanEnc else a % 2 ^ (w - 1), 0)
  | 13 => (if (f.decode a).isNan then f.nanEnc else a ^^^ 2 ^ (w - 1), 0)
  | _ => (ieeeClass f a, 0)

/-- Width in bits of an integer of AUX 2 or 3. -/
def intBits (aux : Nat) : Nat := if aux = 2 then 32 else 64

/-- FCVT's source and destination widths in bits. -/
def cvtSrcBits (op fmt aux : Nat) : Nat := if op ≤ 2 then fmtBits fmt else intBits aux
def cvtDstBits (op fmt aux : Nat) : Nat := if op = 0 then fmtBits aux else if op ≤ 2 then intBits aux else fmtBits fmt

/-- FCVT's conversion of one element and its flags: a conversion to an integer that saturates or takes a NaN is
invalid (R178). -/
def cvtOp (op fmt aux : Nat) (rnd : Rnd) (x : Nat) : Nat × Nat :=
  let toFloat (code : Nat) (v : FNum) (nv : Nat) : Nat × Nat :=
    let o := ieeeOut (fpShape code) rnd v
    (o.1, o.2 ||| nv)
  match op with
  | 0 =>
    let f := fpShape fmt
    toFloat aux (f.decode x) (if f.signalling x then 1 else 0)
  | 1 =>
    let e := encodeInt (intBits aux) true rnd ((fpShape fmt).decode x)
    (e.enc, if e.clamped then 1 else if e.inexact then 16 else 0)
  | 2 =>
    let e := encodeInt (intBits aux) false rnd ((fpShape fmt).decode x)
    (e.enc, if e.clamped then 1 else if e.inexact then 16 else 0)
  | 3 =>
    let v := signed (intBits aux) x
    toFloat fmt (.fin (v < 0) v.natAbs 0) 0
  | _ => toFloat fmt (.fin false (x % 2 ^ intBits aux) 0) 0

/-- Flags are sticky (R178, R195). -/
def stick (flags : BitVec 64) (f : Nat) : BitVec 64 := flags ||| BitVec.ofNat 64 f

/-- The flags any of n elements raises. -/
def anyFlags (take : Nat → Bool) (f : Nat → Nat) : Nat → Nat
  | 0 => 0
  | k + 1 => anyFlags take f k ||| (if take k then f k else 0)

end Sys2Proof.Machine
end

