-- ==== Sys2Proof/Machine/MedlarMem.lean ====
section
/-! DEFINITION. How a Medlar core's loads and stores reach their lines: hits, requests to homes, forwarding, refusals and
reissues (R206–R209, R215, R222, R290, R199). -/

namespace Sys2Proof.Machine

/-! ### Forwarding from the store buffer (R209) -/

/-- The youngest store-buffer entry that holds byte b of a line, and its byte: none for no entry, none inside for a
reduce-write. -/
def sbByte (sb : List SbEntry) (line b : Nat) : Option (Option Nat) :=
  sb.foldl (fun a e =>
    let p := e.va % 128
    if lineOf e.xl == some line && decide (p ≤ b) && decide (b < p + e.n) then
      some (if e.reduce.isSome then none else some (bits e.val (8 * (b - p)) 8))
    else a) none

/-- What the store buffer gives a load: every byte, none of them, or a reason to wait. -/
inductive Forward where
  | all (v : Nat)
  | clear
  | wait
deriving DecidableEq, Repr

/-- A load takes its bytes from the buffer only when the buffer supplies them all; a partial overlap, or a buffered
reduce-write, makes it wait (R209). -/
def forward (sb : List SbEntry) (line p n : Nat) : Forward :=
  let bs := (List.range n).map fun i => sbByte sb line (p + i)
  if sb.any fun e => e.reduce.isSome && lineOf e.xl == some line && decide (e.va % 128 < p + n) && decide (p < e.va % 128 + e.n)
  then .wait
  else if bs.all Option.isNone then .clear
  else if bs.all fun b => match b with | some (some _) => true | _ => false then
    .all (bs.foldr (fun b a => (match b with | some (some x) => x | _ => 0) + 256 * a) 0)
  else .wait

/-! ### Refusals at the home (R199, R290) -/

/-- The home refuses the loads of a core that wait for a line (R197). -/
def refuseLoads (c line : Nat) (cause : Cause) (s : State) : State :=
  let m := medlarOf s c
  let mine := m.waiting.filter fun w => lineOf w.xl == some line
  mine.foldl (fun t w => medlarLoadBad c w.id w.va cause t)
    (setMedlar c { m with waiting := m.waiting.filter fun w => lineOf w.xl != some line } s)

/-- The store at the head of the buffer is refused: it is not performed, and is reported imprecisely (R199). -/
def refuseHead (c : Nat) (cause : Cause) (s : State) : State :=
  let m := medlarOf s c
  match m.sb with
  | [] => s
  | e :: rest => medlarReport c { cause := cause, va := e.va } (setMedlar c { m with sb := rest } s)

/-- A core's request is refused for its domain (R276). -/
def denyCore (c line : Nat) (k : CohKind) (x : Xl) (s : State) : State :=
  let off := match x.target with | .memory o => o | _ => 0
  let t := setMsgs (s.coh.msgs.filter (notReq c line k)) (countDenied x.ctx x.domain off s)
  match k with
  | .readShared => refuseLoads c line .domainDenied t
  | _ => refuseHead c .domainDenied t

/-- A load part is translated again and begins again; a translation that fails traps (R290). -/
def restartPart (c : Nat) (w : WaitLoad) (s : State) : State :=
  match retranslate s w.xl.ctx w.va needR with
  | .ok x =>
    let m := medlarOf s c
    startPart c { w with xl := x } (setMedlar c { m with loads := m.loads.map fun l =>
      if l.id = w.id then { l with parts := l.parts.map fun p => if p.shift = w.shift then { p with xl := x } else p } else l } s)
  | .fault _ => medlarLoadBad c w.id w.va .segmentFault (countSegFault s)

/-- The store at the head is translated again; a translation that fails is reported imprecisely (R199, R290). -/
def retranslateHead (c : Nat) (s : State) : State :=
  let m := medlarOf s c
  match m.sb with
  | [] => s
  | e :: rest =>
    match retranslate s e.xl.ctx e.va needW with
    | .ok x => setMedlar c { m with sb := { e with xl := x } :: rest } s
    | .fault _ => refuseHead c .segmentFault (countSegFault s)

/-- A core's request that carries an old GEN is refused, and the core translates and asks again (R290). -/
def staleCore (c line : Nat) (k : CohKind) (s : State) : State :=
  let t := setMsgs (s.coh.msgs.filter (notReq c line k)) (countStale s)
  match k with
  | .readShared =>
    let m := medlarOf t c
    let mine := m.waiting.filter fun w => lineOf w.xl == some line
    mine.foldl (fun u w => restartPart c w u)
      (setMedlar c { m with waiting := m.waiting.filter fun w => lineOf w.xl != some line } t)
  | _ => retranslateHead c t

/-- A core's request is served at its home (R222–R225). -/
def coreRequest (c line : Nat) (k : CohKind) (s : State) : Answer :=
  match coreReq s c line k with
  | none => stuck "no such request"
  | some (x, _, granted, demand) =>
    if (s.coh.txns.find line).isSome then stuck "the line is busy"
    else if sliceHeld s (homeSlice s line) then stuck "the sub-slice is held"
    else if !routeOpen s (dieOfCore c) (homeDie s line) then stuck "the request is held on a stalled link"
    else if granted then
      if (s.mem.tags.find line).isSome then stuck "the request waits for its fill"
      else .next (homeServe c line k x demand true s)
    else if genEarly s (homeSlice s line) x then stuck "the sub-slice has not granted the update"
    else if !genOk s (homeSlice s line) x then .next (staleCore c line k s)
    else
      let off := match x.target with | .memory o => o | _ => 0
      let wr := match k with | .readShared => false | _ => true
      if !domainOk s x.domain off wr then .next (denyCore c line k x s)
      else .next (homeServe c line k x demand false (dirRoom line s))

end Sys2Proof.Machine
end

