-- ==== Sys2Proof/Machine/Urtex.lean ====
section
/-! DEFINITION. Issuing an Urtex instruction: when a core or group may issue, the fetch of its words, the traps it takes,
and how a group goes on (R134, R144–R146, R162, R169, R170, R174, R196–R200). -/

namespace Sys2Proof.Machine

/-! ### Groups and their launches -/

def launchKey (g : Nat) : Nat := g / 2 ^ 32

def groupOf (s : State) (g : Nat) : Option Group := s.grp.groups.find g

def setGroup (g : Nat) (x : Group) (s : State) : State := { s with grp := { s.grp with groups := s.grp.groups.put g x } }

/-- The descriptor of a group's launch (R136). -/
def launchRaw (s : State) (key : Nat) : Nat := match s.grp.launches.find key with
  | some l => l.raw
  | none => 0

def launchCtx (s : State) (key : Nat) : Nat := match s.grp.launches.find key with
  | some l => l.ctx
  | none => 0

def regsCount (raw : Nat) : Nat := fld raw 32 2
def localBytes (raw : Nat) : Nat := fld raw 36 4
def launchCtl (raw : Nat) : Nat := fld raw 40 4

def coreKey (die core : Nat) : Nat := 512 * die + core

def GCore.empty : GCore := { split := 0, l1 := ⟨[]⟩ }

def gcoreOf (s : State) (k : Nat) : GCore := s.grp.cores.get GCore.empty k

def setGCore (k : Nat) (x : GCore) (s : State) : State := { s with grp := { s.grp with cores := s.grp.cores.put k x } }

/-- The core a group runs on. -/
def coreOfAgent (s : State) (a : Agent) : Option Nat :=
  match a with
  | .group g => (groupOf s g).map fun x => coreKey x.die x.core
  | .medlar _ => none

/-- Reads on their way to a group core no longer fill its L1. -/
def unfill (k : Nat) (p : Req → Bool) (s : State) : State :=
  { s with reqs := s.reqs.map fun _ r => if r.l1 && coreOfAgent s r.src == some k && p r then { r with l1 := false } else r }

/-- A core's L1 and instruction cache are invalidated (R152). -/
def invalidateL1 (k : Nat) (s : State) : State :=
  unfill k (fun _ => true) (setGCore k { gcoreOf s k with l1 := ⟨[]⟩ } s)

/-! ### Traps -/

/-- A cause that names no segment. -/
def plainFault (c : Cause) (va ctx : Nat) : FaultInfo :=
  { cause := c, va := va, seg := 255, ctx := ctx, write := false, fetch := false, imprecise := false, claimInfo := 0 }

/-- A group's fault arbiter grants a fault: the group issues nothing more until it is switched out (R162, R200). -/
def groupTrap (g : Nat) (f : FaultInfo) (s : State) : State :=
  match groupOf s g with
  | none => s
  | some x => bump (K.groupTraps + x.die) 1 (setGroup g { x with faults := x.faults ++ [{ f with time := label x.die s }] } s)

/-- What an instruction comes to: it retires, traps, or cannot issue yet. -/
inductive Eff where
  | done (s : State)
  | trap (f : FaultInfo) (s : State)
  | wait (why : String)
deriving DecidableEq, Repr

/-- A trap for which the spec gives no address: the address is a free value (R195, R328). [DEDUCED, unsafe: assumption 83] -/
def bareTrap (c : Cause) (ctx : Nat) (s : State) : Eff :=
  let v := takeFree s
  .trap (plainFault c (bits v.1 0 64) ctx) v.2

/-! ### Fetch (R170, R270, R276) -/

/-- The copy a fetch reads is poisoned: the core's own, the copy of the core that owns the line, or the home's (R224, R227). -/
def linePoisoned (s : State) (c : Option Nat) (line : Nat) (tracked : Bool) : Bool :=
  let held (k : Option Nat) : Option CLine := k.bind fun k => (medlarOf s k).lines.find line
  let e := dirOf s line
  match held c, held (if e.owned then e.holders.head? else none) with
  | some l, _ => l.poison
  | none, some l => l.poison
  | none, none => (peekLine s line tracked).2

/-- The fetch of one word by Medlar core c, or by a group. -/
def fetchWord (c : Option Nat) (ctx va : Nat) (s : State) : Option FaultInfo × State :=
  let l := landing s ctx va needX
  match l.1 with
  | .fault seg => (some (segFault va seg ctx false true), countSegFault l.2)
  | .early => (none, s)
  | .ok x =>
    match x.target with
    | .memory off =>
      if !domainOk s x.domain off false then
        (some { deniedInfo s x va false with fetch := true }, countDenied x.ctx x.domain off l.2)
      else if linePoisoned s c (off / 128) x.tracked then
        (some { plainFault .poisonRead va ctx with seg := x.seg, fetch := true }, l.2)
      else (none, l.2)
    | _ => (some (segFault va x.seg ctx false true), countSegFault l.2)

/-- The fetch of an instruction: a fault on either word is raised at the instruction (R170). [DEDUCED, unsafe: assumption 93] -/
def fetchInstr (c : Option Nat) (ctx pc size : Nat) (s : State) : Option FaultInfo × State :=
  let a := fetchWord c ctx pc s
  if a.1.isSome || size = 4 then a else fetchWord c ctx (pc + 4) a.2

/-! ### Issue on a Medlar core -/

/-- Why a Medlar core cannot issue its next instruction now. [DEDUCED, safe: assumption 25] -/
def medlarWaits (s : State) (c : Nat) : Option String :=
  let m := medlarOf s c
  if c ≥ 192 || !bit s.part.coreMask c || !dieUp s (dieOfCore c) then some "no such core in service"
  else if !m.running then some "the core is not running"
  else if m.sysWait.isSome then some "FENCE.SYS waits"
  else none

def medlarCtx (m : Medlar) : Nat := bits m.ctx.toNat 0 12

/-- The word is of this command, or names no instruction at all. -/
def wordFits (row : Row) (w : Nat) : Bool := match rowOf w with
  | some r => r == row
  | none => true

/-- A Medlar core executes an instruction of the row. Behind a load that has not returned only another load can issue, and
nothing traps (R196, R206). -/
def issueMedlar (row : Row) (c w : Nat) (med : Medlar → State → Eff) (s : State) : Answer :=
  match medlarWaits s c with
  | some why => stuck why
  | none =>
    let m := medlarOf s c
    let late := !m.loads.isEmpty
    if !wordFits row w then stuck "the word is another command's"
    else if late && row != .ld then stuck "an earlier load has not returned"
    else
      let f := fetchInstr (some c) (medlarCtx m) m.pc.toNat (wsize w) s
      match f.1 with
      | some e =>
        if late then stuck "an earlier load has not returned" else .next (medlarTrap c e.cause e.va m.pc false f.2)
      | none =>
        match (if rowOf w = none then bareTrap .illegal (medlarCtx m) s else med m s) with
        | .done t => .next t
        | .wait why => stuck why
        | .trap e t =>
          if late then stuck "an earlier load has not returned" else .next (medlarTrap c e.cause e.va m.pc false t)

/-- The instruction retires and execution goes on behind it. -/
def medlarNext (c w : Nat) (m : Medlar) (s : State) : Eff :=
  .done (setMedlar c { m with pc := m.pc + BitVec.ofNat 64 (wsize w) } s)

/-! ### Issue on a group -/

/-- Registers a group may not touch yet: destinations of loads and of matrix instructions in flight (R134, R193). -/
def busyRegs (x : Group) : List RReg :=
  (x.loads.map fun l => match l.dest with
    | .lanes r => if l.width = 8 then [RReg.v r, RReg.v (r + 1)] else [RReg.v r]
    | .s r => [RReg.s r]
    | _ => []).flatten ++
  (x.arch.mma.map fun d => (List.range 8).map fun i => RReg.v (d.1 + i)).flatten

/-- Why a group cannot issue its next instruction now. -/
def groupWaits (s : State) (x : Group) (uses : List RReg) : Option String :=
  if !dieUp s x.die then some "the die is held"
  else if x.place ≠ .resident then some "the group is not resident"
  else if !x.faults.isEmpty then some "the group has faulted"
  else if x.sysWait.isSome then some "FENCE.SYS waits"
  else if uses.any (busyRegs x).contains then some "a register's result has not come"
  else none

/-- Reaching the reconvergence address: the next pending path runs, or the entry is popped (R144). -/
def reconverge : Nat → Arch → Arch
  | 0, a => a
  | n + 1, a =>
    match a.stack with
    | [] => a
    | e :: rest =>
      if a.pc ≠ e.at_ then a
      else match e.paths with
        | [] => reconverge n { a with stack := rest, mask := e.prior }
        | (p, m) :: ps => reconverge n { a with pc := p, mask := m, stack := { e with paths := ps } :: rest }

/-- The group goes on at an address. -/
def goTo (pc : BitVec 64) (a : Arch) : Arch := reconverge 1100 { a with pc := pc }

def goNext (w : Nat) (a : Arch) : Arch := goTo (a.pc + BitVec.ofNat 64 (wsize w)) a

/-- A group executes an instruction of the row; beats are the vector issue beats it takes (R134).
[DEDUCED, unsafe: assumption 11] -/
def issueGroup (row : Row) (g w : Nat) (uses : List RReg) (beats : Nat) (grp : Group → State → Eff) (s : State) : Answer :=
  match groupOf s g with
  | none => stuck "no such group"
  | some x =>
    match groupWaits s x (if rowOf w = none then [] else uses) with
    | some why => stuck why
    | none =>
      if !wordFits row w then stuck "the word is another command's"
      else
        let ctx := launchCtx s (launchKey g)
        let f := fetchInstr none ctx x.arch.pc.toNat (wsize w) s
        match f.1 with
        | some e => .next (groupTrap g e f.2)
        | none =>
          match (if rowOf w = none then bareTrap .illegal ctx s else grp x s) with
          | .done t => .next (bump (K.groupIssueBeats + x.die) beats t)
          | .wait why => stuck why
          | .trap e t => .next (groupTrap g e t)

/-- The instruction retires, having changed only what the group's registers hold. -/
def groupDone (g : Nat) (x : Group) (a : Arch) (s : State) : Eff := .done (setGroup g { x with arch := a } s)

def groupNext (g w : Nat) (x : Group) (a : Arch) (s : State) : Eff := groupDone g x (goNext w a) s

/-- The register causes of a group's instruction, or of a Medlar core's, come first (R198). -/
def withRegs (grp : Bool) (regs : Nat) (ok : Bool) (k : OpKs) (d a b c ctx : Nat) (s : State) (go : Eff) : Eff :=
  if !ok then bareTrap .illegal ctx s
  else match regCause grp regs k d a b c with
    | some e => bareTrap e ctx s
    | none => go

end Sys2Proof.Machine
end

