-- ==== Sys2Proof/Machine/Station.lean ====
section
/-! DEFINITION. Voltage points, energy estimates and weigh stations (R70, R87, R138, R143, R373, R377–R382). -/

namespace Sys2Proof.Machine

/-! ### Points (R373, Table 2) -/

/-- Core voltage in mV and typical beat rate in 10 M beats/s at a point. -/
def pointMv (p : Nat) : Nat :=
  [550, 570, 590, 610, 630, 650, 670, 700, 720, 740, 760, 780, 800, 820, 840, 850].getD p 720

def pointRate (p : Nat) : Nat :=
  [80, 87, 94, 101, 108, 115, 122, 133, 140, 145, 151, 156, 162, 167, 172, 175].getD p 140

/-- A die at point 8, its ceiling at the top, with no reading yet (R374, R384). [DEDUCED, unsafe: assumption 65] -/
def DiePower.start : DiePower := 
  { point := 8, ceiling := 15, hotNow := none, hotLast := 0, hot := 0, tripped := false, readAt := 0 }

def diePower (s : State) (d : Nat) : DiePower := s.weigh.dies.get DiePower.start d

def setDiePower (d : Nat) (x : DiePower) (s : State) : State :=
  { s with weigh := { s.weigh with dies := s.weigh.dies.put d x } }

/-- (V / 0.72 V)², as a fraction of 518,400. [DEDUCED, unsafe: assumption 64] -/
def energyFactor (s : State) (d : Nat) : Nat := pointMv (diePower s d).point * pointMv (diePower s d).point

/-! ### Estimates in µJ -/

/-- A quotient in whole microjoules (R378). [DESIGN CHOICE, safe: assumption 15] -/
def microJoules (num den : Nat) : Nat := num / den + (if num % den = 0 then 0 else Config.unitBegun num den % 2)

/-- A group's estimate: EST_NJ × (V / 0.72 V)² (R138). -/
def groupEstimate (s : State) (d raw : Nat) : Nat := microJoules (fld raw 44 4 * energyFactor s d) (1000 * 518400)

/-! ### Stations -/

def Station.start : Station :=
  { tokens := 0, refill := 0, offers := [], starts := [], reserved := [], noRoom := false }

def stationOf (s : State) (d : Nat) : Station := s.weigh.stations.get Station.start d

def setStation (d : Nat) (x : Station) (s : State) : State :=
  { s with weigh := { s.weigh with stations := s.weigh.stations.put d x } }

/-- Work is offered to a station; its age counts from here (R380). -/
def offerWork (d : Nat) (w : Work) (prio : Nat) (s : State) : State :=
  let x := stationOf s d
  setStation d { x with offers := x.offers ++ [{ work := w, prio := prio, passed := 0 }] } s

/-- The next command that reached 16 reserves once the first has left; each reservation counts (R381). -/
def setReserved (d : Nat) (ws : List Work) (s : State) : State :=
  let x := stationOf s d
  let t := setStation d { x with reserved := ws } s
  match ws.head? with
  | some w => if x.reserved.head? = some w then t else bump (K.reservations + d) 1 t
  | none => t

/-- Work leaves a station without being started. -/
def dropWork (p : Work → Bool) (d : Nat) (s : State) : State :=
  let x := stationOf s d
  setReserved d (x.reserved.filter fun w => !p w) (setStation d { x with offers := x.offers.filter fun o => !p o.work } s)

/-! ### Room on a core (R142, R143) -/

/-- Local store of a split, in bytes. -/
def splitLocal (split : Nat) : Nat :=
  match split with
  | 0 => 112 * 1024
  | 1 => 96 * 1024
  | 2 => 64 * 1024
  | _ => 32 * 1024

def launchSplit (raw : Nat) : Nat := bits (fld raw 34 1) 0 2

/-- The groups resident on a core. -/
def residents (s : State) (die core : Nat) : List (Nat × Group) :=
  s.grp.groups.cells.filter fun c => c.2.place == .resident && c.2.die == die && c.2.core == core

/-- A core has room for a group of a launch (R142, R143). -/
def coreRoom (s : State) (die core raw : Nat) : Bool :=
  let here := residents s die core
  let raws := here.map fun c => launchRaw s (launchKey c.1)
  decide (core < 512) && decide (here.length < 16) &&
  decide ((raws.map regsCount).foldl (· + ·) 0 + regsCount raw ≤ 512) &&
  decide ((raws.map localBytes).foldl (· + ·) 0 + localBytes raw ≤ splitLocal (launchSplit raw)) &&
  (here.isEmpty || (gcoreOf s (coreKey die core)).split == launchSplit raw)

/-- Some core of the die has room; cores without groups have, so only full dies are searched. -/
def dieRoom (s : State) (die raw : Nat) : Bool := (List.range 512).any fun c => coreRoom s die c raw

/-- Group starts that stations have granted and dies have not drawn. -/
def undrawn (s : State) (key : Nat) : Nat :=
  (List.range 8).foldl (fun n d => n + ((stationOf s d).starts.filter (· == key)).length) 0

/-! ### What a station may start (R380, R381) -/

def launchPriority (raw : Nat) : Nat := bits (launchCtl raw) 0 3

/-- The next group of a launch can be started on the die. -/
def groupRunnable (s : State) (d key : Nat) : Bool :=
  match s.grp.launches.find key with
  | some l => !l.stopped && decide (l.next + undrawn s key < l.total) && dieRoom s d l.raw
  | none => false

def Face.idle : Face :=
  { staged := [], run := none, prior := none, saves := ⟨[]⟩, lfsr := 1#32, lfsrShown := 1#32, seed := none, stalled := false }

def faceOf (s : State) (d : Nat) : Face := s.faces.get Face.idle d

def setFace (d : Nat) (f : Face) (s : State) : State := { s with faces := s.faces.put d f }

end Sys2Proof.Machine
end

