-- ==== Sys2Proof/Machine/FaceDesc.lean ====
section
/-! DEFINITION. FACE_OP descriptors: fields, staging checks, the walk, operand layouts, the energy estimate, and the fetch
unit's reads (R31–R41, R61–R74, R95–R107). -/

namespace Sys2Proof.Machine

/-! ### Fields (Tables 1 and 2) -/

def fM (d : Nat) : Nat := fld d 16 4
def fN (d : Nat) : Nat := fld d 20 4
def fK (d : Nat) : Nat := fld d 24 4
def fBatch (d : Nat) : Nat := fld d 28 4
def fFormats (d : Nat) : Nat := fld d 32 4
def fControl (d : Nat) : Nat := fld d 36 4
def fAFmt (d : Nat) : Nat := bits (fFormats d) 0 5
def fBFmt (d : Nat) : Nat := bits (fFormats d) 5 5
def fCFmt (d : Nat) : Nat := bits (fFormats d) 10 5
def fDFmt (d : Nat) : Nat := bits (fFormats d) 15 5
def fCPresent (d : Nat) : Bool := bit (fFormats d) 20
def fAMx (d : Nat) : Bool := bit (fFormats d) 21
def fBMx (d : Nat) : Bool := bit (fFormats d) 22
def fWide (d : Nat) : Bool := bit (fFormats d) 23
def fRound (d : Nat) : Nat := bits (fFormats d) 24 2
def fGroupCode (d : Nat) : Nat := bits (fFormats d) 26 2
def fGroup (d : Nat) : Nat := 32 * 2 ^ fGroupCode d
def fScaleE8 (d : Nat) : Bool := bit (fFormats d) 28
def fZpWide (d : Nat) : Bool := bit (fFormats d) 29
/-- Layout codes of A, B, C and D, by operand 0–3. -/
def fLayout (d op : Nat) : Nat := bits (fControl d) (2 * op) 2
def fSparse (d : Nat) : Nat := bits (fControl d) 8 3
def fZeroSkip (d : Nat) : Bool := bit (fControl d) 11
def fTilePred (d : Nat) : Bool := bit (fControl d) 12
def fWalkB (d : Nat) : Bool := bit (fControl d) 13
def fOverlap (d : Nat) : Bool := bit (fControl d) 14
def fPriority (d : Nat) : Nat := bits (fControl d) 16 3
def fEnergyClass (d : Nat) : Nat := bits (fControl d) 20 4
def fEpiLen (d : Nat) : Nat := bits (fControl d) 24 4
/-- Base, leading stride and batch stride of operand 0–3. -/
def fBase (d op : Nat) : Nat := fld d (40 + 8 * op) 8
def fLd (d op : Nat) : Nat := fld d (72 + 4 * op) 4
def fBStride (d op : Nat) : Nat := fld d (88 + 8 * op) 8
def fMeta (d : Nat) : Nat := fld d 120 8
def fAScale (d : Nat) : Nat := fld d 128 8
def fBScale (d : Nat) : Nat := fld d 136 8
def fZp (d : Nat) : Nat := fld d 144 8
def fZmask (d : Nat) : Nat := fld d 152 8
def fPred (d : Nat) : Nat := fld d 160 8
def fStep (d i : Nat) : Nat := fld d (168 + 2 * i) 2
def fBias (d : Nat) : Nat := fld d 184 8
def fResid (d : Nat) : Nat := fld d 192 8
def fActTable (d : Nat) : Nat := fld d 200 8
def fAmax (d : Nat) : Nat := fld d 208 8
def fQscale (d : Nat) : Nat := fld d 216 8
def fScaleValue (d : Nat) : Nat := fld d 224 4
def fClampLo (d : Nat) : Nat := fld d 228 4
def fClampHi (d : Nat) : Nat := fld d 232 4
def fResidLd (d : Nat) : Nat := fld d 236 4
def fBiasFmt (d : Nat) : Nat := bits (fld d 240 4) 0 5
def fResidFmt (d : Nat) : Nat := bits (fld d 240 4) 5 5
def fBiasRow (d : Nat) : Bool := bit (fld d 240 4) 10
def fAuxStride (d : Nat) : Nat := fld d 248 8

def f32 (x : Nat) : FNum := decodeFmt 1 x

/-! ### Formats (R31, R38, R50) -/

def isExpanded (c : Nat) : Bool := decide (11 ≤ c) && decide (c ≤ 13)
def isNarrow (c : Nat) : Bool := decide (4 ≤ c) && decide (c ≤ 8)

/-- The format in which B enters the array. -/
def fTarget (d : Nat) : Nat := if isExpanded (fBFmt d) then fAFmt d else fBFmt d

/-- Four times the multiply-accumulates of a cell per beat, by format. -/
def rate4 (c : Nat) : Nat :=
  if c = 0 then 1 else if c = 1 then 2 else if c = 2 ∨ c = 3 then 4 else if c = 8 ∨ c = 10 then 16 else 8

/-- The accumulator and four times the dense rate of an operand combination; none where R31 refuses it. -/
def faceCombo (d : Nat) : Option (AccFmt × Nat) :=
  let a := fAFmt d
  let b := fBFmt d
  if a = 0 ∧ b = 0 then some (.fp64, 1)
  else if a = 1 ∧ b = 1 then (if fWide d then some (.fp64, 1) else some (.fp32, 2))
  else if a = 2 ∨ a = 3 then (if b = a ∨ isExpanded b then some (.fp32, 4) else none)
  else if a = 4 ∨ a = 5 then (if isNarrow b || isExpanded b then some (.fp32, 8) else none)
  else if isNarrow a then (if isNarrow b then some (.fp32, min (rate4 a) (rate4 b)) else none)
  else if a = 9 ∨ a = 10 then (if b = 9 ∨ b = 10 then some (.int32, min (rate4 a) (rate4 b)) else none)
  else none

/-- The factor of R86: 2 for 2:4, 4 for 1:4. -/
def fDensity (d : Nat) : Nat := if fSparse d = 1 then 2 else if fSparse d = 2 then 4 else 1

/-- Rows of B as stored (R96). -/
def fKc (d : Nat) : Nat := fK d / fDensity d

/-- The working format of the epilogue (R45). -/
def fWork (d : Nat) : Nat := match faceCombo d with
  | some (.fp64, _) => 0
  | _ => 1

/-- The epilogue program (R77). -/
def fSteps (d : Nat) : List Nat :=
  if fEpiLen d = 0 then [7] else (List.range (fEpiLen d)).map (fStep d)

def hasStep (d c : Nat) : Bool := (fSteps d).any fun w => bits w 0 4 == c

/-! ### Staging checks (R69, Table 4) -/

/-- The leading stride of one operand of rows × cols elements breaks R66 or its runs break R27. -/
def ldBad (layout rows cols code ld : Nat) : Bool :=
  let w := fmtBits code
  if w = 0 then false
  else if layout = 2 then ld % 64 != 0 || decide (ld < ceilDiv cols 64 * 512 * w)
  else
    let run := if layout = 0 then cols else rows
    run * w % 8 != 0 || ld % max 1 (w / 8) != 0 || decide (ld < run * w / 8)

/-- The auxiliary addresses, and whether each advances with the batch entry (R67). -/
def auxAddrs (d : Nat) : List (Nat × Bool) :=
  [(fMeta d, true), (fAScale d, true), (fBScale d, fBFmt d != 11), (fZp d, true), (fZmask d, true), (fPred d, true),
   (fBias d, true), (fResid d, true), (fActTable d, false), (fAmax d, true), (fQscale d, true)]

/-- The address that an epilogue step names. -/
def stepAddr (d c : Nat) : Option Nat :=
  match c with
  | 1 => some (fBias d) | 3 => some (fResid d) | 4 => some (fActTable d) | 6 => some (fQscale d) | 8 => some (fAmax d)
  | _ => none

/-- Addresses that set fields require. -/
def neededAddrs (d : Nat) : List Nat :=
  (if fSparse d = 0 then [] else [fMeta d]) ++ (if fTilePred d then [fPred d] else []) ++
  (if fAMx d then [fAScale d] else []) ++ (if fBMx d || isExpanded (fBFmt d) then [fBScale d] else []) ++
  (if fBFmt d = 12 ∨ fBFmt d = 13 then [fZp d] else []) ++ (fSteps d).filterMap fun w => stepAddr d (bits w 0 4)

def stepsBad (d : Nat) : Bool :=
  let ops := (fSteps d).map fun w => bits w 0 4
  let lasts := ops.map fun c => c == 6 || c == 7
  decide (fEpiLen d > 8) || (fSteps d).any (fun w => w ≥ 16) || ops.any (fun c => c == 0 || c > 8) ||
  lasts.getLast? != some true || lasts.dropLast.any id || decide ((ops.filter (· == 8)).length > 1)

/-- Bits [63:48] of an address are reserved (R62). -/
def addrHigh (a : Nat) : Bool := decide (a ≥ 2 ^ 48)

def faceInvalid (d : Nat) : Bool :=
  let big (x : Nat) : Bool := x == 0 || decide (x > 2 ^ 24)
  let batched := decide (fBatch d > 1)
  let ops := [0, 1, 3] ++ (if fCPresent d then [2] else [])
  big (fM d) || big (fN d) || big (fK d) || fBatch d == 0 || decide (fBatch d > 65536) ||
  bits (fFormats d) 30 2 != 0 || bit (fControl d) 15 || bit (fControl d) 19 || bits (fControl d) 28 4 != 0 ||
  bits (fld d 240 4) 11 21 != 0 || fld d 244 4 != 0 ||
  (List.range 4).any (fun o => addrHigh (fBase d o)) || (auxAddrs d).any (fun a => addrHigh a.1) ||
  (List.range 4).any (fun o => fLayout d o == 3) || decide (fSparse d > 3) || fRound d == 3 || fGroupCode d == 3 ||
  stepsBad d ||
  ((fSparse d == 1 || fSparse d == 2) && fK d % 4 != 0) || (fSparse d == 3 && fLayout d 1 != 2) ||
  (batched && fBStride d 3 == 0) ||
  ops.any (fun o => fBase d o % 64 != 0 || (batched && fBStride d o % 64 != 0)) ||
  ldBad (fLayout d 0) (fM d) (fK d) (fAFmt d) (fLd d 0) || ldBad (fLayout d 3) (fM d) (fN d) (fDFmt d) (fLd d 3) ||
  (fSparse d != 3 && ldBad (fLayout d 1) (fKc d) (fN d) (fBFmt d) (fLd d 1)) ||
  (fCPresent d && ldBad (fLayout d 2) (fM d) (fN d) (fCFmt d) (fLd d 2)) ||
  (hasStep d 3 && ldBad (fLayout d 3) (fM d) (fN d) (fResidFmt d) (fResidLd d)) ||
  (hasStep d 1 && (if fBiasRow d then fM d else fN d) * fmtBits (fBiasFmt d) % 8 != 0) ||
  (auxAddrs d).any (fun a => a.1 % 64 != 0) ||
  (batched && fAuxStride d % 64 != 0 && (auxAddrs d).any fun a => a.2 && a.1 != 0) ||
  (neededAddrs d).any (· == 0) ||
  (hasStep d 5 && ((f32 (fClampLo d)).cmp (f32 (fClampHi d)) == none || (f32 (fClampHi d)).lt (f32 (fClampLo d))))

/-- A combination of formats that R31 and Table 4 of R69 do not support. [DEDUCED, unsafe: assumption 36] -/
def faceUnsupported (d : Nat) : Bool :=
  let wide (c : Nat) : Bool := decide (c > 8) || decide (fmtBits c > fmtBits (fWork d))
  decide (fAFmt d > 13) || decide (fBFmt d > 13) || decide (fCFmt d > 10) || decide (fDFmt d > 10) ||
  (match faceCombo d with
    | none => true
    | some (acc, _) => fCPresent d && (match acc with
        | .int32 => fCFmt d != 9 && fCFmt d != 10
        | _ => wide (fCFmt d))) ||
  (fAMx d && !isNarrow (fAFmt d)) || (fBMx d && !isNarrow (fBFmt d)) ||
  (fSparse d == 2 && !((decide (4 ≤ fAFmt d) && decide (fAFmt d ≤ 10)) && (decide (4 ≤ fTarget d) && decide (fTarget d ≤ 10)))) ||
  (hasStep d 6 && !isNarrow (fDFmt d)) || (hasStep d 1 && wide (fBiasFmt d)) || (hasStep d 3 && wide (fResidFmt d))

/-- The status a descriptor that fails a staging check completes with. -/
def faceCheck (d : Nat) : Option Status :=
  if faceInvalid d then some .descriptorInvalid else if faceUnsupported d then some .formatUnsupported else none

/-! ### Energy (R70, R87) -/

/-- Hundredths of a pJ per MAC. -/
def macEnergy (d : Nat) : Nat := match faceCombo d with
  | some (_, r) => 96 / r
  | none => 0

/-- E in µJ at a die's voltage: MACs · e · (d + 0.08 (1 − d)) · (V / 0.72 V)². -/
def faceEstimate (s : State) (die raw : Nat) : Nat :=
  let macs := fBatch raw * fM raw * fN raw * fKc raw
  let density := 92 * (16 - fEnergyClass raw) + 128
  microJoules (macs * macEnergy raw * density * energyFactor s die) (100 * 1600 * 518400 * 1000000)

/-! ### Tiles and their walk (R71, R72) -/

def fTm (d : Nat) : Nat := ceilDiv (fM d) 512
def fTn (d : Nat) : Nat := ceilDiv (fN d) 512
def fSlices (d : Nat) : Nat := ceilDiv (fK d) 64

/-- Tile row and column at a walk position. -/
def walkAt (d t : Nat) : Nat × Nat :=
  let inner := if fWalkB d then fTm d else fTn d
  let o := t / inner
  let p := t % inner
  let q := if o % 2 = 0 then p else inner - 1 - p
  if fWalkB d then (q, o) else (o, q)

/-- The rows (or columns) of tile i in a dimension of n. -/
def tileSpan (n i : Nat) : Nat := min 512 (n - 512 * i)

/-! ### Layouts (R27, R65, R67) -/

/-- Bit address of an element of an operand of code's width. -/
def elemAt (layout base ld w i j : Nat) : Nat :=
  match layout with
  | 0 => 8 * (base + i * ld) + j * w
  | 1 => 8 * (base + j * ld) + i * w
  | _ => 8 * (base + i / 64 * ld) + j / 64 * 4096 * w + i % 64 * 64 * w + j % 64 * w

/-- Base of operand 0–3 for a batch entry. -/
def baseOf (d b op : Nat) : Nat := fBase d op + b * fBStride d op

/-- An auxiliary address for a batch entry. -/
def auxOf (d b a : Nat) : Nat := a + b * fAuxStride d

def addrA (d b m k : Nat) : Nat := elemAt (fLayout d 0) (baseOf d b 0) (fLd d 0) (fmtBits (fAFmt d)) m k
def addrC (d b m n : Nat) : Nat := elemAt (fLayout d 2) (baseOf d b 2) (fLd d 2) (fmtBits (fCFmt d)) m n
def addrD (d b m n : Nat) : Nat := elemAt (fLayout d 3) (baseOf d b 3) (fLd d 3) (fmtBits (fDFmt d)) m n
def addrResid (d b m n : Nat) : Nat := elemAt (fLayout d 3) (auxOf d b (fResid d)) (fResidLd d) (fmtBits (fResidFmt d)) m n
/-- B as stored: row kc of the compressed matrix under SPARSE_FMT 1 and 2. -/
def addrB (d b kc n : Nat) : Nat := elemAt (fLayout d 1) (baseOf d b 1) (fLd d 1) (fmtBits (fBFmt d)) kc n
/-- An element of present block i of a block-sparse B (R102). -/
def addrBlock (d b i r c : Nat) : Nat :=
  8 * baseOf d b 1 + (i * 4096 + r % 64 * 64 + c % 64) * fmtBits (fBFmt d)

/-- Entry k of array x, arrays of n bytes one padded length apart: the bit address of a field of w bits. -/
def arrayAt (base x n k w : Nat) : Nat := 8 * (base + x * roundUp n 64) + k * w

def addrAScale (d b m k : Nat) : Nat := arrayAt (auxOf d b (fAScale d)) m (ceilDiv (fK d) 32) (k / 32) 8
def addrBScale (d b n k : Nat) : Nat := arrayAt (auxOf d b (fBScale d)) n (ceilDiv (fK d) 32) (k / 32) 8
/-- The scale and the zero point of an expanded element (R41). -/
def scaleBits (d : Nat) : Nat := if fScaleE8 d then 8 else 16
def zpBits (d : Nat) : Nat := if fZpWide d then 8 else 4
def addrXScale (d b n k : Nat) : Nat :=
  arrayAt (auxOf d b (fBScale d)) n (ceilDiv (ceilDiv (fK d) (fGroup d) * scaleBits d) 8) (k / fGroup d) (scaleBits d)
def addrXZp (d b n k : Nat) : Nat :=
  arrayAt (auxOf d b (fZp d)) n (ceilDiv (ceilDiv (fK d) (fGroup d) * zpBits d) 8) (k / fGroup d) (zpBits d)
/-- The metadata word of a column for a slice (R97). -/
def addrMeta (d b n s : Nat) : Nat :=
  if fSparse d = 1 then arrayAt (auxOf d b (fMeta d)) n (8 * ceilDiv (fK d) 64) s 64
  else arrayAt (auxOf d b (fMeta d)) n (8 * ceilDiv (fK d) 128) (s / 2) 64
/-- ROW_PTR and COL_IDX of the block index (R101). -/
def addrRowPtr (d b r : Nat) : Nat := 8 * (auxOf d b (fMeta d) + 4 * r)
def addrColIdx (d b i : Nat) : Nat := 8 * (auxOf d b (fMeta d) + roundUp (4 * (ceilDiv (fK d) 64 + 1)) 64 + 4 * i)
def addrZmask (d b m s : Nat) : Nat := arrayAt (auxOf d b (fZmask d)) m (ceilDiv (ceilDiv (fK d) 64) 8) s 1
def addrPred (d b i j : Nat) : Nat := 8 * auxOf d b (fPred d) + (i * fTn d + j)
def addrBias (d b x : Nat) : Nat := 8 * auxOf d b (fBias d) + x * fmtBits (fBiasFmt d)
def addrQscale (d b m n : Nat) : Nat := arrayAt (auxOf d b (fQscale d)) m (ceilDiv (fN d) 32) (n / 32) 8
def addrAmax (d b m : Nat) : Nat := 8 * (auxOf d b (fAmax d) + 4 * m)

/-! ### The fetch unit (R58, R59) -/

/-- The first and last byte needed of each line, for fields of w bits at bit addresses. -/
def widenSpan (byte : Nat) (t : Tab (Nat × Nat)) : Tab (Nat × Nat) :=
  let old := t.get (byte % 128, byte % 128) (byte / 128)
  t.put (byte / 128) (min old.1 (byte % 128), max old.2 (byte % 128))

def spansOf (w : Nat) (addrs : List Nat) (t : Tab (Nat × Nat)) : Tab (Nat × Nat) :=
  addrs.foldl (fun t a => widenSpan ((a + w - 1) / 8) (widenSpan (a / 8) t)) t

/-- What a step of a sequencer comes to: it goes on, the operation ends with a status, or something stops it. -/
inductive FGo (α : Type) where
  | on (x : α) (u : UStep)
  | end_ (o : Status) (u : UStep)
  | stop (u : UStep)
deriving DecidableEq, Repr

/-- Go on unless the step is stopped. -/
def fThen {α β : Type} (g : FGo α) (f : α → UStep → FGo β) : FGo β :=
  match g with
  | .on x u => if u.stopped then .stop u else f x u
  | .end_ o u => .end_ o u
  | .stop u => .stop u

/-- The remote status that ends an operation whose read failed (R282). -/
def remoteEnd (u : UStep) : Status :=
  ([Status.frontendGone, Status.remoteAbandoned, Status.peerRefused].find? u.outs.contains).getD .peerRefused

/-- Read the lines, each once, in address order; whether a remote read failed. -/
def fetchSpans : List (Nat × Nat × Nat) → UStep → Lines × Bool × UStep
  | [], u => (⟨[]⟩, false, u)
  | c :: rest, u =>
    let r := uReadLine (128 * c.1 + c.2.1) (c.2.2 + 1 - c.2.1) u
    let more := fetchSpans rest r.2
    (more.1.put c.1 (r.1.val * 2 ^ (8 * c.2.1), r.1.poison), r.1.failed || more.2.1, more.2.2)

/-- The fetch unit reads what the spans name. A remote read that fails ends the operation as a granted ABORT does (R282). -/
def fetch (t : Tab (Nat × Nat)) (u : UStep) : FGo Lines :=
  let r := fetchSpans t.cells u
  if r.2.2.stopped then .stop r.2.2 else if r.2.1 then .end_ (remoteEnd r.2.2) r.2.2 else .on r.1 r.2.2

/-- The field of w bits at a bit address, of lines that were fetched. -/
def fieldAt (t : Lines) (w a : Nat) : Nat :=
  let line (l : Nat) : Nat := (t.get (0, false) l).1
  if a % 1024 + w ≤ 1024 then bits (line (a / 1024)) (a % 1024) w
  else bits (line (a / 1024) + line (a / 1024 + 1) * 2 ^ 1024) (a % 1024) w

/-- Some line that was read arrived poisoned (R90). [DEDUCED, safe: assumption 33] -/
def anyPoison (t : Lines) : Bool := t.cells.any fun c => c.2.2

/-- Every pair of a row from rs and a column from cs. -/
def pairs (rs cs : List Nat) : List (Nat × Nat) := rs.flatMap fun r => cs.map fun c => (r, c)

def fromTo (lo hi : Nat) : List Nat := (List.range (hi - lo)).map (· + lo)

/-- A fetched FP32 or FP64 operand element that is subnormal becomes a zero of its sign (R29). -/
def isSubnormal (code x : Nat) : Bool :=
  decide (code < 2) && (match fshape code with
    | some f => bits x f.mbits f.ebits == 0 && bits x 0 f.mbits != 0
    | none => false)

def operandValue (code x : Nat) : FNum :=
  if isSubnormal code x then .fin (decodeFmt code x).sign 0 0 else decodeFmt code x

/-- 2 to the exponent of an E8M0 scale; none for the NaN pattern (R35). -/
def e8m0 (x : Nat) : Option Int := if x = 255 then none else some ((x : Int) - 127)

/-- A product under its blocks' scales, formed exactly (R36). -/
def scaledProduct (a b : FNum) (sa sb : Option Int) : FNum :=
  match sa, sb with
  | some x, some y => (FNum.mul a b).scale (x + y)
  | _, _ => .nan

end Sys2Proof.Machine
end

