-- ==== Sys2Proof/Machine/BrambleOps.lean ====
section
/-! DEFINITION. Brambles: where a route is kept, and what a finished expert leaves with it (R114, R123). -/

namespace Sys2Proof.Machine

def Bramble.idle : Bramble := { waiting := [], run := none, open_ := [], saves := ⟨[]⟩ }

def brambleOf (s : State) (d : Nat) : Bramble := s.brambles.get Bramble.idle d

def setBramble (d : Nat) (b : Bramble) (s : State) : State := { s with brambles := s.brambles.put d b }

/-- The route or combine of a command, wherever its Bramble keeps it. -/
def routeOf (s : State) (d key : Nat) : Option Route :=
  let b := brambleOf s d
  let all := b.run.toList ++ b.waiting ++ b.open_ ++ b.saves.cells.map Prod.snd
  all.find? fun r => r.key == key

/-- Change the route of a command. -/
def onRoute (d key : Nat) (f : Route → Route) (s : State) : State :=
  let b := brambleOf s d
  let g (r : Route) : Route := if r.key = key then f r else r
  setBramble d { b with run := b.run.map g, waiting := b.waiting.map g, open_ := b.open_.map g, saves := b.saves.map fun _ r => g r } s

def Route.met (o : Status) (r : Route) : Route :=
  if o = .done ∨ r.outs.contains o then r else { r with outs := r.outs ++ [o] }

def routeStatusAddr (raw : Nat) : Nat := fld raw 144 8

/-- Write the status bytes a route still owes; an expert that was not issued has 0xFF (R123). -/
def writeOwed (st : Tab Nat) (raw : Nat) : List Nat → UStep → UStep
  | [], u => u
  | e :: rest, u => writeOwed st raw rest (uPut (routeStatusAddr raw + e) 1 (st.get 0xFF e) u)

/-- An expert's FACE_OP has completed: its status is the route's, and goes to its status byte (R123). The step is given where
the byte's line waits for something; the byte is then still owed. -/
def expertDone (d key e : Nat) (st : Status) (s : State) : State × Option UStep :=
  match routeOf s d key with
  | none => (s, none)
  | some r =>
    let u := uPut (routeStatusAddr r.raw + e) 1 (statusCode st) (UStep.start r.ctx key d s)
    let r2 : Route := Route.met st { r with status := r.status.put e (statusCode st), live := r.live.filter (· != e),
                                            owed := if u.fault.isSome || u.held then r.owed ++ [e] else r.owed,
                                            fault := if u.fault.isSome then u.fault else r.fault }
    let r3 := u.outs.foldl (fun r o => Route.met o r) r2
    (onRoute d key (fun _ => r3) u.st, if u.held then some u else none)

end Sys2Proof.Machine
end

