-- ==== Sys2Proof/Machine/DictOps.lean ====
section
/-! DEFINITION. Writes of dictionary entries: the checks every write passes, and what acceptance and refusal leave
(R388–R391, R408). -/

namespace Sys2Proof.Machine

/-! Result codes (R400): 0 OK, 1 RO_ENTRY, 2 LOCKED, 3 RANGE, 4 NO_ENTRY, 5 LENGTH, 6 COMPARE_FAILED, 7 STATE. Sources
(R410): 0 window, 1 management port, 2 in-band, 3 firmware. -/

/-- What a write's own rules answer: a result code and the state it leaves when that is 0. -/
abbrev WriteResult := Nat × State

def isLocked (s : State) (g : Nat) : Bool := g != 0 && dv s (K.lockState + g) == 1

/-- Names that are served: until boot step 5 only indices 0x1000–0x11FF and 0x8000–0x8001 (R414, R436). A DEFECT package,
which reaches no step 5, serves them all: its dictionary and attestation engine stay in service (R12, R13, R24).
[DEDUCED, unsafe: assumption 106] -/
def served (s : State) (key : Nat) : Bool :=
  decide (5 ≤ s.boot.phase) || s.pkg == .defect || (decide (0x100000 ≤ key) && decide (key < 0x120000)) ||
  (decide (0x800000 ≤ key) && decide (key < 0x800200))

/-- The refusals that need no more than the entry itself (R391); LOCAL_GIB's STATE comes before its lock (R234). -/
def writeCheck (s : State) (key : Nat) : Nat :=
  match if served s key then entryOf key else none with
  | none => 4
  | some r =>
    if r.acc = 0 ∨ r.acc = 3 then 1
    else if key = K.localGib ∧ s.xlat.installed.isSome then 7
    else if r.acc = 4 ∧ isLocked s r.lock then 2
    else 0

/-- A refused write changes nothing but its own record (R391). -/
def refuseWrite (src key code : Nat) (s : State) : State :=
  let last := key / 256 + (key % 256) * 2 ^ 16 + code * 2 ^ 24 + src * 2 ^ 32
  s |> bump K.dictRefused 1 |> setDv K.dictLastRefused last |> sumErr 12 |> raise 0x60 10 last 0

/-- An accepted write counts in DICT_WRITE_SEQ, which wraps (R410). -/
def acceptWrite (s : State) : State := setDv K.dictWriteSeq ((dv s K.dictWriteSeq + 1) % 2 ^ 64) s

/-- A write meets the dictionary arbiter: checked, acted on, then accepted or refused (R390, R391). -/
def commit (src key : Nat) (act : State → WriteResult) (s : State) : WriteResult :=
  let c := writeCheck s key
  if c ≠ 0 then (c, refuseWrite src key c s)
  else
    let r := act s
    if r.1 ≠ 0 then (r.1, refuseWrite src key r.1 s) else (0, acceptWrite r.2)

/-- A write of a scalar: reserved bits are discarded (R6), a BOOL holds 0 or 1 (R388). -/
def commitScalar (src key v : Nat) (act : Nat → State → WriteResult) (s : State) : WriteResult :=
  commit src key (fun t =>
    match entryOf key with
    | some r => if r.ty = 6 ∧ v > 1 then (5, t) else act (v &&& r.mask) t
    | none => (4, t)) s

/-- A write of a whole STR or BLOB value (R389). -/
def blobFits (key : Nat) (b : List Byte) : Bool :=
  match entryOf key with
  | some r =>
    if r.ty = 7 then decide (b.length ≤ 64) && b.all fun x => decide (0x20 ≤ x.toNat) && decide (x.toNat ≤ 0x7E)
    else r.ty == 8 && b.length == r.size
  | none => false

/-- A commit of a value into a STR or BLOB entry; the staging buffer then holds the current value (R396). -/
def commitBlob (src key : Nat) (b : List Byte) (act : List Byte → State → WriteResult) (s : State) : WriteResult :=
  let unstage (t : State) : State := { t with dict := { t.dict with staging := t.dict.staging.del key } }
  let r := commit src key (fun t => if blobFits key b then act b t else (5, t)) s
  (r.1, unstage r.2)

/-- A write with no behaviour of its own stores the value. -/
def justStore (key v : Nat) (s : State) : WriteResult := (0, setDv key v s)

/-- A value outside its range is refused. -/
def ranged (ok : Bool) (key v : Nat) (s : State) : WriteResult := if ok then (0, setDv key v s) else (3, s)

end Sys2Proof.Machine
end

