-- ==== Sys2Proof/Machine/Face.lean ====
section
/-! DEFINITION. The Face: staging, tiles, the epilogue, faults and completion of FACE_OPs (R28–R49, R56–R107). -/

namespace Sys2Proof.Machine

/-! ### Runs (R57, R75, R89) -/

def FRun.start (o : FOp) : FRun :=
  { op := o, batch := 0, tile := 0, slice := 0, acc := none, poison := false, drain := none, lut := none, act := none,
    panelA := none, panelB := none, outs := [], fault := none, ending := false, resumed := false }

def FRun.met (o : Status) (r : FRun) : FRun :=
  if o = .done ∨ r.outs.contains o then r else { r with outs := r.outs ++ [o] }

def FRun.metAll (os : List Status) (r : FRun) : FRun := os.foldl (fun r o => FRun.met o r) r

/-- The tile cursor (Table 5). -/
def FRun.cursor (r : FRun) : Nat :=
  r.slice % 2 ^ 18 + r.tile % 2 ^ 30 * 2 ^ 18 + r.batch % 65536 * 2 ^ 48

/-- FACE_CURSOR of a Face (R94). -/
def faceCursor (s : State) (d : Nat) : Nat := match (faceOf s d).run with
  | some r => r.cursor
  | none => 0

/-- The operation ends before its last tile: the accumulating tile is discarded, and the draining one stays (R93). -/
def FRun.endWith (o : Status) (r : FRun) : FRun :=
  { FRun.met o r with ending := true, acc := none, poison := false, slice := 0, fault := none }

/-- The tile after the first one not committed: batch entry and walk position. -/
def FRun.next (r : FRun) : Nat × Nat :=
  if r.tile + 1 ≥ fTm r.op.raw * fTn r.op.raw then (r.batch + 1, 0) else (r.batch, r.tile + 1)

/-- The tile that accumulates: the first one not committed, or the one after it while that drains (R56). -/
def FRun.here (r : FRun) : Nat × Nat := if r.drain.isSome then r.next else (r.batch, r.tile)

/-- A tile is committed: the cursor moves on, and the bank is free (R75, R83). -/
def FRun.commitTile (r : FRun) : FRun := { r with batch := r.next.1, tile := r.next.2, drain := none }

def FRun.allDone (r : FRun) : Bool := decide (r.batch ≥ fBatch r.op.raw)

/-- Every tile has been fed. -/
def FRun.allFed (r : FRun) : Bool := decide (r.here.1 ≥ fBatch r.op.raw)

/-- The tile that accumulates has taken its last slice, and waits for the bank that drains. -/
def FRun.fed (r : FRun) : Bool := r.acc.isSome && decide (r.slice ≥ fSlices r.op.raw)

/-- A tile drains whose writes have gone out. -/
def FRun.waitsAck (r : FRun) : Bool := match r.drain with
  | some b => b.sent
  | none => false

/-- Who waits for a FACE_OP's misses and transactions (R88). -/
def FRun.owner (r : FRun) : TOwner := match r.op.owner with
  | .queue => .job r.op.key
  | .expert _ e => .expert r.op.key e

/-- Transactions of a FACE_OP that are not resolved. -/
def txnsOfRun (s : State) (r : FRun) : Nat := match r.op.owner with
  | .queue => txnsOf s r.op.key
  | .expert _ e => txnsOfExpert s r.op.key e

/-- A step of a FACE_OP begins. -/
def FRun.step (die : Nat) (r : FRun) (s : State) : UStep :=
  { UStep.start r.op.ctx r.op.key die s with owner := r.owner }

/-- A FACE_OP as a save slot holds it: both banks and the cursor, without panels; the draining tile's epilogue runs again
(R89). -/
def FRun.toSave (r : FRun) : FRun :=
  { r with panelA := none, panelB := none, drain := r.drain.map fun b => { b with sent := false } }

/-- A faulting operation is saved, f being its Face without it, and its fault recorded; none while it must be held in place
(R89, R329). -/
def saveFace (die : Nat) (r : FRun) (i : FaultInfo) (f : Face) (s : State) : Option State :=
  if f.saves.cells.length ≥ 16 || faultListFull 1 s then none
  else
    let p := pickSlot 16 (f.saves.cells.map Prod.fst) s
    p.1.map fun slot => addFault (taskRecord 2 die slot r.op.key r.cursor i)
      (setFace die { f with saves := f.saves.put slot r.toSave } p.2)

/-- The counter of a FACE_OP that is held in place: every slot is in use, or the fault queue's list is full. -/
def faceHold (die : Nat) (s : State) : Nat :=
  if (faceOf s die).saves.cells.length ≥ 16 then K.faceSaveStalls + die else K.faultListStalls

/-! ### FACE_OP (R61, R69, R84) -/

/-- A descriptor fails before any fetch (R69). [DEDUCED, unsafe: assumption 36] -/
def refuseFace (face key : Nat) (o : Status) (s : State) : State :=
  refuseJob key o (bump (K.faceOpsDone + face) 1 s)

/-- FACE_OP: the command is read and checked, and offered to its Face's weigh station. A FACE_OP whose descriptor's read
faults is switched out before anything of it is known (R327). -/
def execFaceOp (q seq face : Nat) (s : State) : Answer :=
  match handed s q seq 0x01 with
  | none => stuck "no such command is handed over"
  | some j =>
    let key := jobKey q seq
    if face ≥ 8 || !dieUp s face then stuck "no such Face is up"
    else if s.pkg = .restricted then .next (refuseFace face key .restrictedMode s)
    else
      let st := stageDesc q seq face j s
      match st.1 with
      | .held => waitAnswer "the descriptor has not come" st.2 s
      | .refused o => .next (refuseFace face key o st.2.st)
      | .faulted i =>
        let r : FRun := { FRun.start { owner := .queue, key := key, raw := 0, ctx := j.ctx } with fault := some i }
        (match saveFace face r i (faceOf s face) (runJob key st.2.st) with
         | some t => .next t
         | none => holdFault key (faceHold face s) j s)
      | .desc d =>
        match faceCheck d with
        | some o => .next (refuseFace face key o st.2.st)
        | none =>
          .next (offerWork face (.face (FRun.start { owner := .queue, key := key, raw := d, ctx := j.ctx }))
            (fPriority d) (runJob key (uClose st.2)))

/-! ### Starting (R49, R80, R85) -/

/-- X_LO below X_HI, both finite (R69). [DEDUCED, unsafe: assumption 35] -/
def actTableOk (t : Nat) : Bool :=
  let fin (x : FNum) : Bool := match x with | .fin _ _ _ => true | _ => false
  fin (f32 (fld t 0 4)) && fin (f32 (fld t 4 4)) && (f32 (fld t 0 4)).lt (f32 (fld t 4 4))

/-- Read a table, mask or metadata array whole; a poisoned line, or a remote read that fails, ends the operation (R90,
R282). -/
def readTable (va n : Nat) (u : UStep) : FGo Nat :=
  let r := uGet va n u
  if r.2.stopped then .stop r.2 else if r.1.failed then .end_ (remoteEnd r.2) r.2
  else if r.1.poison then .end_ .poisonRead r.2 else .on r.1.val r.2

/-- The lookup table of R39 and the activation table of R80, each read once. [DEDUCED, safe: assumption 33] -/
def readTables (r : FRun) (u : UStep) : FGo FRun :=
  let d := r.op.raw
  let g1 : FGo FRun :=
    if fBFmt d = 11 ∧ r.lut.isNone then
      fThen (readTable (fBScale d) (16 * fmtBits (fAFmt d) / 8) u) fun t u => .on { r with lut := some t } u
    else .on r u
  fThen g1 fun r u =>
    if hasStep d 4 && r.act.isNone then
      fThen (readTable (fActTable d) 2112 u) fun t u =>
        if actTableOk t then .on { r with act := some t } u else .end_ .descriptorInvalid u
    else .on r u

/-- A written seed is loaded as a Face begins a FACE_OP; 0 loads 1 (R49). [DEDUCED, unsafe: assumption 110] -/
def loadSeed (f : Face) : Face := match f.seed with
  | some x => { f with lfsr := if x = 0#32 then 1#32 else x, seed := none }
  | none => f

/-- A step of the running FACE_OP has ended: what it met, what stops it and how far it came stays with the operation. A step
that waits for something keeps the slices it has fed. -/
def faceStep (die : Nat) (r : FRun) (g : FGo FRun) (s : State) : Answer :=
  let put (r : FRun) (s : State) : State := setFace die { faceOf s die with run := some r } s
  let why := "something the Face reads or writes has not come"
  match g with
  | .on r2 u =>
    let t := put { FRun.metAll u.outs r2 with fault := if u.fault.isSome then u.fault else r2.fault } u.st
    if !u.held then .next (dropArrived u.owner t)
    else if r2 = r then waitAnswer why u t
    else .next (keepAsking u t)
  | .end_ o u => .next (dropArrived u.owner (put (FRun.endWith o (FRun.metAll u.outs r)) u.st))
  | .stop u =>
    if u.held then waitAnswer why u s
    else .next (put { FRun.metAll u.outs r with fault := u.fault } (if u.fault.isSome then u.st else s))

/-- FACE_OP_START: the first staged operation takes the array, and its tables are read. While the operation before it still
drains its last tile, only one with OVERLAP set may start (R60). A FACE_OP that was resumed goes on with its operation and
begins none, so that a written seed waits for the next (R49). [DEDUCED, unsafe: assumption 110] -/
def execFaceOpStart (die : Nat) (s : State) : Answer :=
  if die ≥ 8 || !dieUp s die then stuck "no such Face is up"
  else
    let f := faceOf s die
    let go (prior : Option FRun) (r : FRun) (rest : List FRun) : Answer :=
      let f2 := if r.resumed then f else loadSeed f
      let r2 : FRun := { r with resumed := false }
      let t := setFace die { f2 with staged := rest, run := some r2, prior := prior } s
      faceStep die r2 (readTables r2 (r2.step die t)) t
    match f.run, f.staged with
    | none, r :: rest => go f.prior r rest
    | some p, r :: rest =>
      if f.prior.isNone && p.allFed && p.waitsAck && p.fault.isNone && fOverlap r.op.raw then go (some p) r rest
      else stuck "the Face is busy"
    | _, [] => stuck "no staged FACE_OP can start"

/-! ### Panels and slices (R36–R41, R71–R74, R95–R106) -/

/-- The kept elements of a slice of one column: stored row and dense position, from the metadata word (R95–R98). The last
slice has elements beyond K, which are zeros (R71). [DEDUCED, unsafe: assumption 32] -/
def keptOf (d s word : Nat) : List (Nat × Nat) :=
  if fSparse d = 1 then
    (List.range 16).flatMap fun g =>
      [(32 * s + 2 * g, 64 * s + 4 * g + bits word (4 * g) 2),
       (32 * s + 2 * g + 1, 64 * s + 4 * g + bits word (4 * g + 2) 2)]
  else if fSparse d = 2 then
    (List.range 16).map fun h =>
      let g := s % 2 * 16 + h
      (16 * s + h, 64 * s + 4 * h + bits word (2 * g) 2)
  else (fromTo (64 * s) (64 * s + 64)).map fun k => (k, k)

/-- IDX1 exceeds IDX0 in every group of a 2:4 word that lies below K (R98). -/
def metaOk (d s word : Nat) : Bool :=
  fSparse d != 1 || (List.range 16).all fun g =>
    decide (64 * s + 4 * g ≥ fK d) || decide (bits word (4 * g) 2 < bits word (4 * g + 2) 2)

/-- Stored rows of B that a slice covers. -/
def storedRows (d s : Nat) : List Nat :=
  let n := 64 / fDensity d
  fromTo (n * s) (min (n * s + n) (fKc d))

def sliceKs (d s : Nat) : List Nat := fromTo (64 * s) (min (64 * s + 64) (fK d))

def tileRows (d i : Nat) : List Nat := (List.range (tileSpan (fM d) i)).map (· + 512 * i)
def tileCols (d j : Nat) : List Nat := (List.range (tileSpan (fN d) j)).map (· + 512 * j)

/-- The present blocks of block row s among the columns of a tile: block column and index in storage order (R101–R103). -/
def blockRow (d b s j : Nat) (u : UStep) : FGo (List (Nat × Nat)) :=
  let kb := ceilDiv (fK d) 64
  let nb := ceilDiv (fN d) 64
  fThen (readTable (addrRowPtr d b s / 8) 8 u) fun w u =>
    let p0 := bits w 0 32
    let p1 := bits w 32 32
    if (s = 0 ∧ p0 ≠ 0) ∨ p1 < p0 ∨ p1 > kb * nb ∨ p1 - p0 > nb then .end_ .descriptorInvalid u
    else if p1 = p0 then .on [] u
    else fThen (readTable (addrColIdx d b p0 / 8) (4 * (p1 - p0)) u) fun w u =>
      let cols := (List.range (p1 - p0)).map fun i => (bits w (32 * i) 32, p0 + i)
      let rising := (List.range (p1 - p0 - 1)).all fun i =>
        decide (bits w (32 * i) 32 < bits w (32 * i + 32) 32)
      if !rising || cols.any (fun c => c.1 ≥ nb) then .end_ .descriptorInvalid u
      else .on (cols.filter fun c => decide (8 * j ≤ c.1) && decide (c.1 < 8 * j + 8)) u

/-- Subnormal FP32 and FP64 elements among those fetched are flushed and counted (R29, R55). -/
def countFlushed (die code : Nat) (addrs : List Nat) (t : Lines) (u : UStep) : UStep :=
  let n := (addrs.filter fun a => isSubnormal code (fieldAt t (fmtBits code) a)).length
  u.on (bump (K.faceFlushedIn + die) n)

/-- Fetch the A-slices of a tile row, with their scales (R58). -/
def fetchA (die d b i s : Nat) (u : UStep) : FGo Lines :=
  let el := (pairs (tileRows d i) (sliceKs d s)).map fun x => addrA d b x.1 x.2
  let sc := if fAMx d then (pairs (tileRows d i) (sliceKs d s)).map fun x => addrAScale d b x.1 x.2 else []
  fThen (fetch (spansOf 8 sc (spansOf (fmtBits (fAFmt d)) el ⟨[]⟩)) u) fun t u => .on t (countFlushed die (fAFmt d) el t u)

/-- Fetch the B-slice of a tile column, with its scales and zero points (R58, R96, R99, R102). -/
def fetchB (die d b j s : Nat) (blocks : List (Nat × Nat)) (u : UStep) : FGo Lines :=
  let cols := tileCols d j
  let el :=
    if fSparse d = 3 then
      (pairs cols (sliceKs d s)).filterMap fun x =>
        (blocks.find? fun c => c.1 == x.1 / 64).map fun c => addrBlock d b c.2 x.2 x.1
    else (pairs cols (storedRows d s)).map fun x => addrB d b x.2 x.1
  let inPlay := if fSparse d = 3 then cols.filter fun n => blocks.any fun c => c.1 == n / 64 else cols
  let per (f : Nat → Nat → Nat) : List Nat := (pairs inPlay (sliceKs d s)).map fun x => f x.1 x.2
  let t1 := spansOf (fmtBits (fBFmt d)) el ⟨[]⟩
  let t2 := if fBMx d then spansOf 8 (per (addrBScale d b)) t1 else t1
  let x := fBFmt d == 12 || fBFmt d == 13
  let t3 := if x then spansOf (zpBits d) (per (addrXZp d b)) (spansOf (scaleBits d) (per (addrXScale d b)) t2) else t2
  fThen (fetch t3 u) fun t u => .on t (countFlushed die (fTarget d) el t u)

/-- Metadata words of a tile's columns for a slice; their check (R97, R98). -/
def fetchMeta (d b j s : Nat) (u : UStep) : FGo Lines :=
  if fSparse d = 1 ∨ fSparse d = 2 then
    fThen (fetch (spansOf 64 ((tileCols d j).map fun n => addrMeta d b n s) ⟨[]⟩) u) fun t u =>
      if anyPoison t then .end_ .poisonRead u
      else if (tileCols d j).all fun n => metaOk d s (fieldAt t 64 (addrMeta d b n s)) then .on t u
      else .end_ .descriptorInvalid u
  else .on ⟨[]⟩ u

/-- The value of an element of A as it enters the array. -/
def valueA (d b : Nat) (t : Lines) (m k : Nat) : FNum :=
  operandValue (fAFmt d) (fieldAt t (fmtBits (fAFmt d)) (addrA d b m k))

/-- Widen an expanded element into the target format (R38–R40). -/
def expandB (d b lut : Nat) (t : Lines) (raw k n : Nat) : FNum :=
  let tg := fTarget d
  if fBFmt d = 11 then decodeFmt tg (bits lut (raw * fmtBits tg) (fmtBits tg))
  else
    let sraw := fieldAt t (scaleBits d) (addrXScale d b n k)
    let z := signed (zpBits d) (fieldAt t (zpBits d) (addrXZp d b n k))
    let x := signed (fmtBits (fBFmt d)) raw - z
    let sc : FNum := if fScaleE8 d then (match e8m0 sraw with | some e => .fin false 1 e | none => .nan) else decodeFmt 2 sraw
    stepRound tg (FNum.mul (.fin (x < 0) x.natAbs 0) sc)

/-- The value of a stored element of B as it enters the array: kc is its stored row, k its dense position. -/
def valueB (d b lut : Nat) (t : Lines) (blocks : List (Nat × Nat)) (kc k n : Nat) : FNum :=
  let a := if fSparse d = 3 then
      (match blocks.find? fun c => c.1 == n / 64 with | some c => addrBlock d b c.2 k n | none => 0)
    else addrB d b kc n
  let raw := fieldAt t (fmtBits (fBFmt d)) a
  if isExpanded (fBFmt d) then expandB d b lut t raw k n else operandValue (fBFmt d) raw

def scaleA (d b : Nat) (t : Lines) (m k : Nat) : Option Int :=
  if fAMx d then e8m0 (fieldAt t 8 (addrAScale d b m k)) else some 0

def scaleB (d b : Nat) (t : Lines) (n k : Nat) : Option Int :=
  if fBMx d then e8m0 (fieldAt t 8 (addrBScale d b n k)) else some 0

/-- An A-slice of one row holds only zeros (R104). [DEDUCED, unsafe: assumption 32] -/
def rowZero (d b s : Nat) (t : Lines) (m : Nat) : Bool := (sliceKs d s).all fun k => (valueA d b t m k).isZero

/-- The panel of A or B that the hoppers hold, or an empty one. -/
def panelFor (p : Option (Nat × Tab Lines)) (key : Nat) : Tab Lines := match p with
  | some (k, t) => if k = key then t else ⟨[]⟩
  | none => ⟨[]⟩

/-- What feeding one slice needs and leaves: the accumulators and whether poison has come. -/
structure TileAcc where
  acc : List Accum
  poison : Bool
  pa : Tab Lines
  pb : Tab Lines
deriving DecidableEq, Repr

/-- The products of one cell in one slice, in order; those of a zero A-slice or an absent block are never formed (R30), and
the elements beyond K are zeros (R71). [DEDUCED, unsafe: assumption 32] -/
def cellProducts (d b s lut : Nat) (ta tb tm : Lines) (blocks : List (Nat × Nat)) (zeroRow : Bool) (m n : Nat) : List FNum :=
  if zeroRow || (fSparse d == 3 && !blocks.any fun c => c.1 == n / 64) then []
  else
    let word := if fSparse d = 1 ∨ fSparse d = 2 then fieldAt tm 64 (addrMeta d b n s) else 0
    (keptOf d s word).map fun x =>
      if x.2 ≥ fK d then FNum.zero
      else scaledProduct (valueA d b ta m x.2) (valueB d b lut tb blocks x.1 x.2 n) (scaleA d b ta m x.2) (scaleB d b tb n x.2)

/-- Products a cell adds at once, by four times its rate (R42): the dense rate of Table 3, which weight sparsity leaves as it
is. [DEDUCED, unsafe: assumption 32] -/
def addendOf (r4 : Nat) : Nat := if r4 = 8 then 2 else if r4 = 16 then 4 else 1

/-- Every cell of the tile takes its products of a slice. -/
def feedSlice (d b i j s lut : Nat) (ta tb tm : Lines) (blocks : List (Nat × Nat)) (acc : List Accum) : List Accum :=
  match faceCombo d with
  | none => acc
  | some (a, r4) =>
    let cells := pairs (tileRows d i) (tileCols d j)
    let zero := (tileRows d i).filter fun m => fZeroSkip d && fZmask d == 0 && rowZero d b s ta m
    (cells.zip acc).map fun c =>
      accFeed a (addendOf r4) 65 c.2 (cellProducts d b s lut ta tb tm blocks (zero.contains c.1.1) c.1.1 c.1.2)

/-- One K-slice of a tile: skipped under R73, or fetched and fed. The flag tells that it was performed. -/
def doSlice (die d b i j s lut : Nat) (x : TileAcc) (u : UStep) : FGo (TileAcc × Bool) :=
  let masked : FGo Bool :=
    if fZeroSkip d && fZmask d != 0 then
      fThen (fetch (spansOf 1 ((tileRows d i).map fun m => addrZmask d b m s) ⟨[]⟩) u) fun t u =>
        if anyPoison t then .end_ .poisonRead u
        else .on ((tileRows d i).all fun m => fieldAt t 1 (addrZmask d b m s) == 1) u
    else .on false u
  fThen masked fun skip u =>
    if skip then .on (x, false) u
    else fThen (if fSparse d = 3 then blockRow d b s j u else .on [] u) fun blocks u =>
      if fSparse d = 3 ∧ blocks = [] then .on (x, false) u
      else fThen (fetchMeta d b j s u) fun tm u =>
        fThen (match x.pa.find s with | some t => .on t u | none => fetchA die d b i s u) fun ta u =>
          fThen (match x.pb.find s with | some t => .on t u | none => fetchB die d b j s blocks u) fun tb u =>
            let y : TileAcc := { x with pa := x.pa.put s ta, pb := x.pb.put s tb,
                                        poison := x.poison || anyPoison ta || anyPoison tb }
            if fZeroSkip d && fZmask d == 0 && (tileRows d i).all (rowZero d b s ta) then .on (y, false) u
            else .on ({ y with acc := feedSlice d b i j s lut ta tb tm blocks x.acc }, true) u

/-- Hopper keys of the panels of the tile that accumulates. -/
def FRun.panelKeys (r : FRun) : Nat × Nat :=
  let ij := walkAt r.op.raw r.here.2
  (r.here.1 * 2 ^ 32 + ij.1, r.here.1 * 2 ^ 32 + ij.2)

/-- What has been fed and fetched of a tile stays with the run. -/
def FRun.keep (r : FRun) (x : TileAcc) : FRun :=
  { r with acc := some x.acc, poison := x.poison, panelA := some (r.panelKeys.1, x.pa), panelB := some (r.panelKeys.2, x.pb) }

/-- Slices from the run's on, n of them; where one stops, those before it stay fed. -/
def doSlices (die : Nat) : Nat → FRun → TileAcc → UStep → FGo (FRun × TileAcc)
  | 0, r, x, u => .on (r.keep x, x) u
  | n + 1, r, x, u =>
    let ij := walkAt r.op.raw r.here.2
    match doSlice die r.op.raw r.here.1 ij.1 ij.2 r.slice (r.lut.getD 0) x u with
    | .on (y, done) v =>
      let v2 := v.on (bump ((if done then K.faceSlicesDone else K.faceSlicesSkipped) + die) 1)
      doSlices die n { r with slice := r.slice + 1 } y v2
    | .end_ o v => .end_ o v
    | .stop v => .on (r.keep x, x) (if v.held then { v with st := u.st, outs := u.outs } else v)

/-! ### Panel residency (R74, R100, R103) -/

/-- Bytes a panel of A, and of B after expansion, counts for residency; of a block-sparse panel the present blocks and their
index entries count (R103). -/
def panelABytes (d i : Nat) : Nat := tileSpan (fM d) i * fK d * fmtBits (fAFmt d) / 8

def panelBBytes (d j blocks : Nat) : Nat :=
  if fSparse d = 3 then blocks * (4096 * fmtBits (fTarget d) / 8 + 4)
  else fKc d * tileSpan (fN d) j * fmtBits (fTarget d) / 8 +
    (if fSparse d = 1 then 8 * ceilDiv (fK d) 64 * tileSpan (fN d) j
     else if fSparse d = 2 then 8 * ceilDiv (fK d) 128 * tileSpan (fN d) j else 0)

/-- Present blocks of a tile column over all block rows, as the index gives them. -/
def blocksHeld (d b j : Nat) : Nat → UStep → FGo Nat
  | 0, u => .on 0 u
  | s + 1, u => fThen (blocksHeld d b j s u) fun n u => fThen (blockRow d b s j u) fun bs u => .on (n + bs.length) u

/-- What the hoppers keep for the next tile: the stationary panel, and the other one beside it, up to 4 MiB each. -/
def keepPanels (i j blocks : Nat) (r : FRun) : FRun :=
  let d := r.op.raw
  let a := decide (panelABytes d i ≤ 2 ^ 22)
  let b := decide (panelBBytes d j blocks ≤ 2 ^ 22)
  let keepA := if fWalkB d then a && b else a
  let keepB := if fWalkB d then b else a && b
  { r with panelA := if keepA then r.panelA else none, panelB := if keepB then r.panelB else none }

/-! ### The epilogue (R45–R48, R77–R82) -/

/-- A step of the LFSR (R48). -/
def lfsrStep (x : BitVec 32) : BitVec 32 :=
  let n := x.toNat
  let fb := bits n 22 1 ^^^ bits n 2 1 ^^^ bits n 1 1 ^^^ bits n 0 1
  BitVec.ofNat 32 (n / 2 + fb * 2 ^ 31)

def lfsrSteps : Nat → BitVec 32 → BitVec 32
  | 0, x => x
  | n + 1, x => lfsrSteps n (lfsrStep x)

/-- n draws of 16 terms each, and the register after them. -/
def lfsrDraws : Nat → BitVec 32 → List Nat × BitVec 32
  | 0, x => ([], x)
  | n + 1, x => let r := lfsrDraws n (lfsrSteps 16 x); (x.toNat % 65536 :: r.1, r.2)

/-- The order in which the elements of a tile draw: as given, then every other element. -/
def drawOrder (order : List Nat) (n : Nat) : List Nat :=
  let first := (order.filter (· < n)).eraseDups
  first ++ (List.range n).filter fun i => !first.contains i

/-- The draw of each element of a tile of n (R48); no draws without stochastic rounding. [DEDUCED, unsafe: assumption 35] -/
def drawsOf (d n : Nat) (order : List Nat) (x : BitVec 32) : List Nat × BitVec 32 :=
  if fRound d = 2 then
    let r := lfsrDraws n x
    let t : Tab Nat := ((drawOrder order n).zip r.1).foldl (fun t c => t.put c.1 c.2) ⟨[]⟩
    ((List.range n).map (t.get 0), r.2)
  else (List.replicate n 0, x)

/-- FP32 with truncation, for the index of R80. -/
def trunc32 (v : FNum) : FNum := match fshape 1 with
  | some f => f.decode (f.encode .zero false v).enc
  | none => v

/-- The quotient of two FP32 values, truncated to FP32. -/
def quot32 (x y : FNum) : FNum :=
  match x, y with
  | .fin s m e, .fin t n d => if n = 0 then .inf false else let q := quotient m n; trunc32 (.fin (s != t) q.1 (q.2 + e - d))
  | .inf s, .fin t _ _ => .inf (s != t)
  | _, _ => .zero

/-- The table entry that x selects (R80). [DEDUCED, unsafe: assumption 35] -/
def actIndex (t : Nat) (x : FNum) : Nat :=
  let lo := f32 (fld t 0 4)
  let hi := f32 (fld t 4 4)
  if x.lt lo then 0
  else if hi.le x then 255
  else
    let num := trunc32 (FNum.mul (trunc32 (FNum.add x lo.neg)) (.fin false 254 0))
    let q := quot32 num (trunc32 (FNum.add hi lo.neg))
    let i : Nat := match q with
      | .fin _ m e => truncAt m e 0
      | _ => 254
    max 1 (min 254 (1 + i))

def activate (w t : Nat) (x : FNum) : FNum :=
  if x.isNan then .nan
  else
    let n := actIndex t x
    stepRound w (FNum.add (stepRound w (FNum.mul (f32 (fld t (64 + 8 * n) 4)) x)) (f32 (fld t (68 + 8 * n) 4)))

/-- One epilogue step before the last on one element, in the working format. [DEDUCED, unsafe: assumption 35] -/
def epiStep (d act : Nat) (bias resid : FNum) (c : Nat) (v : FNum) : FNum :=
  let w := fWork d
  match c with
  | 1 => stepRound w (FNum.add v bias)
  | 2 => stepRound w (FNum.mul v (f32 (fScaleValue d)))
  | 3 => stepRound w (FNum.add v resid)
  | 4 => activate w act v
  | 5 => stepRound w (if v.isNan then v else if v.lt (f32 (fClampLo d)) then f32 (fClampLo d)
      else if (f32 (fClampHi d)).lt v then f32 (fClampHi d) else v)
  | _ => v

/-- The value an element enters the epilogue with (R45). [DEDUCED, unsafe: assumption 35] -/
def epiEnter (d : Nat) (v : FNum) : FNum :=
  match faceCombo d with
  | some (.int32, _) => if (fSteps d).length > 1 then stepRound 1 v else v
  | _ => v

/-- An element through the steps before the last: its value, and its absolute value at WRITE_AMAX as FP32. -/
def epiRun (d act : Nat) (bias resid : FNum) (v : FNum) : FNum × Option Nat :=
  (fSteps d).dropLast.foldl (fun x w =>
    let c := bits w 0 4
    if c = 8 then (x.1, some (encodeFmt 1 .even x.1.abs).enc) else (epiStep d act bias resid c x.1, x.2)) (epiEnter d v, none)

/-- Largest exponent E_max of R81. -/
def eMax (code : Nat) : Int := if code = 4 then 8 else if code = 5 then 15 else if code = 6 then 4 else 2

/-- The scale exponent of a block; none where it holds a NaN or an infinity (R81). [DEDUCED, unsafe: assumption 35] -/
def blockScale (code : Nat) (vs : List FNum) : Option Int :=
  vs.foldl (fun a v => match a, v with
    | some s, .fin _ m e => if m = 0 then some s else some (max s (min 127 (topExp m e - eMax code)))
    | _, _ => none) (some (-127))

/-- The encodings of a row's elements and its scale bytes, under the last step (R81, R46, R47). -/
def convertRow (d : Nat) (vs : List (FNum × Nat)) : List Enc × List Nat :=
  if hasStep d 6 then
    let n := ceilDiv vs.length 32
    let blocks := (List.range n).map fun k => (vs.drop (32 * k)).take 32
    let parts := blocks.map fun b =>
      match blockScale (fDFmt d) (b.map Prod.fst) with
      | none => (b.map fun _ => Enc.plain 0, 255)
      | some s => (b.map fun x => encodeFmt (fDFmt d) (faceRnd (fRound d) x.2) (x.1.scale (-s)), (127 + s).toNat)
    (parts.flatMap Prod.fst, parts.map Prod.snd)
  else (vs.map fun x => encodeFmt (fDFmt d) (faceRnd (fRound d) x.2) x.1, [])

/-- Place a field of w bits at a bit address of the lines to be written: data and bit mask, by line. -/
def placeLine (l pos w v : Nat) (t : Tab (Nat × Nat)) : Tab (Nat × Nat) :=
  let old := t.get (0, 0) l
  t.put l (setBits old.1 pos w v % 2 ^ 1024, setBits old.2 pos w (2 ^ w - 1) % 2 ^ 1024)

def placeField (a w v : Nat) (t : Tab (Nat × Nat)) : Tab (Nat × Nat) :=
  let p := a % 1024
  if p + w ≤ 1024 then placeLine (a / 1024) p w v t
  else placeLine (a / 1024 + 1) 0 (p + w - 1024) (v / 2 ^ (1024 - p)) (placeLine (a / 1024) p (1024 - p) v t)

/-- Bytes of which some bit is set in a bit mask, and those of which some bit is not. [DEDUCED, unsafe: assumption 108] -/
def bytesOf (m : Nat) : BitVec 128 :=
  BitVec.ofNat 128 ((List.range 128).foldl (fun x i => if bits m (8 * i) 8 = 0 then x else x + 2 ^ i) 0)

def partBytes (m : Nat) : BitVec 128 :=
  BitVec.ofNat 128 ((List.range 128).foldl (fun x i =>
    if bits m (8 * i) 8 = 0 ∨ bits m (8 * i) 8 = 255 then x else x + 2 ^ i) 0)

/-- What the epilogue of a tile writes: the lines of D and of the scales, and a maximum for each row. -/
structure TileOut where
  lines : Tab (Nat × Nat)
  amax : List (Nat × Nat)
  clamped : Nat
deriving DecidableEq, Repr

/-- The epilogue of row m of a tile. -/
def epiRow (d b act : Nat) (cols : List Nat) (tb tr : Lines) (m : Nat) (cells : List (FNum × Nat)) (o : TileOut) : TileOut :=
  let elems := (cols.zip cells).map fun x =>
    let bias := decodeFmt (fBiasFmt d) (fieldAt tb (fmtBits (fBiasFmt d)) (addrBias d b (if fBiasRow d then m else x.1)))
    let resid := decodeFmt (fResidFmt d) (fieldAt tr (fmtBits (fResidFmt d)) (addrResid d b m x.1))
    (epiRun d act bias resid x.2.1, x.2.2)
  let conv := convertRow d (elems.map fun x => (x.1.1, x.2))
  let lines := (cols.zip conv.1).foldl (fun t x => placeField (addrD d b m x.1) (fmtBits (fDFmt d)) x.2.enc t) o.lines
  let c0 := cols.headD 0
  let lines2 := (List.range conv.2.length).foldl (fun t k =>
    placeField (addrQscale d b m (c0 + 32 * k)) 8 (conv.2.getD k 0) t) lines
  let row := elems.filterMap fun x => x.1.2
  { lines := lines2,
    amax := if hasStep d 8 then o.amax ++ [(addrAmax d b m / 8, row.foldl max 0)] else o.amax,
    clamped := o.clamped + (conv.1.filter fun e => e.clamped).length }

/-- The whole tile, row by row. -/
def epiTile (d b act : Nat) (cols : List Nat) (tb tr : Lines) : List Nat → List (FNum × Nat) → TileOut → TileOut
  | [], _, o => o
  | m :: ms, cells, o =>
    epiTile d b act cols tb tr ms (cells.drop cols.length) (epiRow d b act cols tb tr m (cells.take cols.length) o)

/-- Translation and domain check of a line to be written, before anything of the tile is (R83). -/
def uProbe (va : Nat) (u : UStep) : UStep :=
  if u.stopped then u
  else
    match translate u.st u.ctx va needW with
    | .fault seg => uFault (segFault va seg u.ctx true false) u
    | .ok x =>
      match x.target with
      | .memory off =>
        if !routeOpen u.st u.die (homeDie u.st (off / 128)) then u.waiting none
        else if !domainOk u.st x.domain off true then uDenied x va off true u
        else u
      | .window _ => uDenied x va 0 true u
      | _ => u

/-- The bytes of a line that hold elements of D and, beyond M × N, bits that stay as they are (R65): their old contents. Such
a byte stands at the edge of a blocked D of 4- or 6-bit elements. [DEDUCED, unsafe: assumption 108] -/
def edgeBytes (va : Nat) (part : BitVec 128) (u : UStep) : Nat × UStep :=
  (maskRuns part.toNat 128 0 none).foldl (fun a r =>
    let x := uReadAs needW (va + r.1) r.2 a.2
    (a.1 + x.1.val * 2 ^ (8 * r.1), x.2)) (0, u)

/-- Write the fields that a line of D or of scales holds: data and bit mask. [DEDUCED, unsafe: assumption 108] -/
def writeFields (va data mask : Nat) (poison : Bool) (u : UStep) : UStep :=
  let e := edgeBytes va (partBytes mask) u
  let keep := e.1 - (e.1 &&& mask)
  uStoreLine va (BitVec.ofNat 1024 (keep + data)) (bytesOf mask) poison e.2

/-- Write the tile's outputs, poisoned when poison reached the tile (R82, R83, R90). -/
def writeTile (poison : Bool) (o : TileOut) (u : UStep) : UStep :=
  let probed := o.amax.foldl (fun u a => uProbe (a.1 / 128 * 128) u) (o.lines.cells.foldl (fun u c => uProbe (128 * c.1) u) u)
  if probed.stopped then probed
  else
    let v := o.lines.cells.foldl (fun u c => writeFields (128 * c.1) c.2.1 c.2.2 poison u) probed
    o.amax.foldl (fun u a =>
      let dl := BitVec.ofNat 1024 (a.2 * 2 ^ (8 * (a.1 % 128)))
      let mk := spanMask (a.1 % 128) 4
      if poison then uStoreLine (a.1 / 128 * 128) dl mk true u else uReduceLine (a.1 / 128 * 128) 2 2 dl mk u) v

/-- Bias and residual elements of a tile. -/
def fetchEpi (d b i j : Nat) (u : UStep) : FGo (Lines × Lines) :=
  let cells := pairs (tileRows d i) (tileCols d j)
  let ba := if hasStep d 1 then cells.map fun x => addrBias d b (if fBiasRow d then x.1 else x.2) else []
  let ra := if hasStep d 3 then cells.map fun x => addrResid d b x.1 x.2 else []
  fThen (fetch (spansOf (fmtBits (fBiasFmt d)) ba ⟨[]⟩) u) fun t1 u =>
    fThen (fetch (spansOf (fmtBits (fResidFmt d)) ra ⟨[]⟩) u) fun t2 u => .on (t1, t2) u

/-! ### One tile (R72, R83, R89) -/

/-- The accumulators' initial values: C, or +0 (R32, R72). [DEDUCED, unsafe: assumption 34] -/
def startAcc (d b i j : Nat) (u : UStep) : FGo (List Accum × Bool) :=
  let cells := pairs (tileRows d i) (tileCols d j)
  if fCPresent d then
    let el := cells.map fun x => addrC d b x.1 x.2
    fThen (fetch (spansOf (fmtBits (fCFmt d)) el ⟨[]⟩) u) fun t u =>
      .on (el.map fun a => Accum.start (decodeFmt (fCFmt d) (fieldAt t (fmtBits (fCFmt d)) a)), anyPoison t) u
  else .on (cells.map fun _ => Accum.start FNum.zero, false) u

/-- The predicate bit of a tile: 1 where TILE_PRED is clear (R76, R107). -/
def tilePred (d b i j : Nat) (u : UStep) : FGo Bool :=
  if fTilePred d then
    let a := addrPred d b i j
    fThen (fetch (spansOf 1 [a] ⟨[]⟩) u) fun t u =>
      if anyPoison t then .end_ .poisonRead u else .on (fieldAt t 1 a == 1) u
  else .on true u

/-- The tile of the draining bank goes through the epilogue: its writes, and the commit where nothing waits on a connection.
What stops it leaves the bank as it is (R83, R89). [DEDUCED, unsafe: assumption 31; DEDUCED, safe: assumption 33] -/
def drainTile (die : Nat) (order : List Nat) (r : FRun) (b : TileBank) (u : UStep) : FGo FRun :=
  let d := r.op.raw
  let ij := walkAt d r.tile
  let pause (v : UStep) : FGo FRun := .on r (if v.held then { v with st := u.st, outs := u.outs } else v)
  match fetchEpi d r.batch ij.1 ij.2 u with
  | .end_ o v => .end_ o v
  | .stop v => pause v
  | .on (tb, tr) v =>
    let dr := drawsOf d b.acc.length order (faceOf v.st die).lfsr
    let o := epiTile d r.batch (r.act.getD 0) (tileCols d ij.2) tb tr (tileRows d ij.1)
      ((b.acc.map Accum.val).zip dr.1) ⟨⟨[]⟩, [], 0⟩
    let poison := b.poison || anyPoison tb || anyPoison tr
    let w := writeTile poison o v
    if w.stopped then pause w
    else
      let w2 := w.on fun s => bump (K.faceClampedOut + die) o.clamped (setFace die { faceOf s die with lfsr := dr.2 } s)
      let r2 := if poison then FRun.met .poisonRead r else r
      .on (if txnsOfRun w2.st r = 0 then r2.commitTile else { r2 with drain := some { b with sent := true } }) w2

/-- The slices of the tile that accumulates are fed, from where the cursor stands. [DEDUCED, unsafe: assumption 31] -/
def accumulate (die : Nat) (r : FRun) (u : UStep) : FGo FRun :=
  let d := r.op.raw
  let ij := walkAt d r.here.2
  fThen (match r.acc with | some a => .on (a, r.poison) u | none => startAcc d r.here.1 ij.1 ij.2 u) fun a u =>
    let x : TileAcc := { acc := a.1, poison := a.2, pa := panelFor r.panelA r.panelKeys.1, pb := panelFor r.panelB r.panelKeys.2 }
    match doSlices die (fSlices d - r.slice) r x u with
    | .end_ o v => .end_ o v
    | .stop v => .stop v
    | .on (r2, _) v =>
      if v.stopped then .on r2 v
      else fThen (if fSparse d = 3 then blocksHeld d r.here.1 ij.2 (fSlices d) v else .on 0 v) fun n v =>
        .on (keepPanels ij.1 ij.2 n r2) v

/-- The accumulated tile goes to the bank that drains. -/
def FRun.toDrain (r : FRun) : FRun :=
  { r with drain := r.acc.map fun a => ⟨a, r.poison, false⟩, acc := none, poison := false, slice := 0 }

/-- The next tile from where the run stands. A resumed operation's draining tile goes through the epilogue again (R89).
While a tile's writes wait to be acknowledged, or another operation's last tile drains, the tile after it accumulates in
the other bank (R56, R60); free tells that the bank that drains is free. [DEDUCED, unsafe: assumption 31] -/
def doTile (die : Nat) (order : List Nat) (free : Bool) (r : FRun) (u : UStep) : FGo FRun :=
  let d := r.op.raw
  fThen (readTables r u) fun r u =>
    match r.drain with
    | some b =>
      if !b.sent then drainTile die order r b u
      else
        let ij := walkAt d r.here.2
        fThen (if r.acc.isSome then .on true u else tilePred d r.here.1 ij.1 ij.2 u) fun on_ u =>
          if on_ then accumulate die r u else .stop (u.waiting none)
    | none =>
      let ij := walkAt d r.tile
      fThen (if r.acc.isSome then .on true u else tilePred d r.batch ij.1 ij.2 u) fun on_ u =>
        if !on_ then .on r.commitTile (u.on (bump (K.faceSlicesSkipped + die) (fSlices d)))
        else
          match accumulate die r u with
          | .end_ o v => .end_ o v
          | .stop v => .stop v
          | .on r2 v =>
            if v.stopped || !free then .on r2 v
            else match r2.toDrain.drain with
              | some b => drainTile die order r2.toDrain b v
              | none => .on r2 v

/-- TILE_COMMIT: a drained tile whose writes are acknowledged is committed; else the next tile of the running FACE_OP is
computed and written, and committed once its writes are acknowledged.
[DEDUCED, unsafe: assumption 31; DESIGN CHOICE, safe: assumption 38; DEDUCED, unsafe: assumption 39] -/
def execTileCommit (die : Nat) (order : List Nat) (s : State) : Answer :=
  if die ≥ 8 || !dieUp s die then stuck "no such Face is up"
  else
    let f := faceOf s die
    let acked (r : FRun) : Bool := r.waitsAck && decide (txnsOfRun s r = 0)
    match f.prior.filter acked, f.run with
    | some p, _ => .next (setFace die { f with prior := some p.commitTile } s)
    | none, none => stuck "the Face is idle"
    | none, some r =>
      if acked r then .next (setFace die { f with run := some r.commitTile } s)
      else if r.ending || r.fault.isSome || r.allFed then stuck "no tile is left to compute"
      else if r.fed && (r.waitsAck || f.prior.isSome) then stuck "writes of the tile are not acknowledged"
      else faceStep die r (doTile die order f.prior.isNone r (r.step die s)) s

/-! ### Faults and completion (R88–R93) -/

/-- The running operation is switched out; none while it must be held in place. -/
def switchOutFace (die : Nat) (r : FRun) (i : FaultInfo) (s : State) : Option State :=
  saveFace die r i { faceOf s die with run := none, stalled := false } s

/-- FACE_SWITCH_OUT: a faulting operation is saved and its fault recorded, or held in place (R89, R329). -/
def execFaceSwitchOut (die : Nat) (s : State) : Answer :=
  if die ≥ 8 || !dieUp s die then stuck "no such Face is up"
  else
    let f := faceOf s die
    match f.run with
    | none => stuck "the Face is idle"
    | some r =>
      match r.fault with
      | none => stuck "the FACE_OP has not faulted"
      | some i =>
        match switchOutFace die r i s with
        | some t => .next t
        | none =>
          if f.stalled then stuck "the faulting FACE_OP is held in place"
          else .next (bump (faceHold die s) 1
            (setFace die { f with stalled := true } s))

/-- A FACE_OP completes: its queue's command, or its expert, has its status (R88, R123). FACE_LFSR_STATE is not touched:
FACE_OP_COMPLETE alone shows a new state (R55). [DEDUCED, unsafe: assumption 36; DEDUCED, unsafe: assumption 110] -/
def faceDone (die : Nat) (r : FRun) (s : State) : State × Option UStep :=
  let t := bump (K.faceOpsDone + die) 1 s
  match r.op.owner with
  | .queue => (finishJob r.op.key (setDetail r.op.key r.cursor (r.outs.foldl (fun s o => addOut r.op.key o s) t)), none)
  | .expert d e => expertDone d r.op.key e (statusOf r.outs) t

/-- FACE_OP_COMPLETE: an operation has committed its last tile, or is ending: the one before the running one first. -/
def execFaceOpComplete (die : Nat) (s : State) : Answer :=
  if die ≥ 8 || !dieUp s die then stuck "no such Face is up"
  else
    let f := faceOf s die
    let atEnd (r : FRun) : Bool := r.drain.isNone && r.fault.isNone && (r.ending || r.allDone)
    let answer (r : FRun) (f2 : Face) : Answer :=
      let t := faceDone die r (setFace die { f2 with lfsrShown := f.lfsr } s)
      match t.2 with
      | some u => waitAnswer "the status byte's line cannot be reached" u s
      | none => .next t.1
    match f.prior, f.run with
    | some p, _ => if atEnd p then answer p { f with prior := none } else stuck "the operation before is not at its end"
    | none, some r => if atEnd r then answer r { f with run := none } else stuck "the FACE_OP is not at its end"
    | none, none => stuck "the Face is idle"

/-- FACE_LFSR_SEED: a write of the seed, loaded when the Face next begins a FACE_OP (R49). -/
def actFaceLfsrSeed (die v : Nat) (s : State) : WriteResult :=
  (0, setFace die { faceOf s die with seed := some (BitVec.ofNat 32 v) } s)

def execFaceLfsrSeed (src die seed : Nat) (s : State) : Answer :=
  outside s (commitScalar src (K.faceLfsrSeed + die) seed (actFaceLfsrSeed die) s).2

/-! ### ABORT of a FACE_OP (R91–R93) -/

/-- Remove staged or offered runs of a FACE_OP. -/
def isOp (key : Nat) (w : FOwner) (r : FRun) : Bool := r.op.key == key && r.op.owner == w

/-- An ABORT of a FACE_OP is granted. Answers none where it is already ending or not to be found. One that was offered,
staged or saved completes with its own cursor, which after a resume is not zero (R91). A fault that TILE_COMMIT raised came
first at the arbiter: the ABORT acts on the saved FACE_OP, or on the one held in place as if it were saved (R92).
[DEDUCED, unsafe: assumption 111] -/
def abortFace (key : Nat) (w : FOwner) (s : State) : Option State :=
  let isW (x : Work) : Bool := match x with
    | .face r => isOp key w r
    | .group _ => false
  let aborted (d : Nat) (r : FRun) (t : State) : State := (faceDone d (FRun.met .aborted r) t).1
  let fromSave (d slot : Nat) (r : FRun) (t : State) : State :=
    let f := faceOf t d
    aborted d r (markEnded (slot + d * 2 ^ 8 + 2 * 2 ^ 12) (setFace d { f with saves := f.saves.del slot } t))
  let try_ (d : Nat) : Option State :=
    let f := faceOf s d
    match (stationOf s d).offers.find? fun o => isW o.work with
    | some o => match o.work with
      | .face r => some (aborted d r (dropWork isW d s))
      | .group _ => none
    | none =>
      match f.staged.find? (isOp key w) with
      | some r => some (aborted d r (setFace d { f with staged := f.staged.filter fun x => !isOp key w x } s))
      | none =>
        match f.saves.cells.find? fun c => isOp key w c.2 with
        | some c => some (fromSave d c.1 c.2 s)
        | none =>
          match f.run.filter (isOp key w), f.prior.filter (isOp key w) with
          | some r, _ =>
            (match r.fault with
             | some i =>
               (match switchOutFace d r i s with
                | some t => ((faceOf t d).saves.cells.find? fun c => isOp key w c.2).map fun c => fromSave d c.1 c.2 t
                | none => some (aborted d r (setFace d { f with run := none, stalled := false } s)))
             | none =>
               if r.ending || r.allDone then none
               else some (setFace d { f with run := some (FRun.endWith .aborted r) } s))
          | none, some p =>
            if p.ending || p.allDone then none else some (setFace d { f with prior := some (FRun.endWith .aborted p) } s)
          | none, none => none
  (List.range 8).findSome? try_

end Sys2Proof.Machine
end

