-- ==== Sys2Proof/Machine/Haul.lean ====
section
/-! DEFINITION. Haul engines: copies and fills, cut into pieces and dealt to engines (R320–R323, R327, R331). -/

namespace Sys2Proof.Machine

def Engine.idle : Engine := { pieces := [], saved := none, stalled := false }

/-- Engine e of unit u (0–7 ASH, 8 ROW). -/
def engineKey (u e : Nat) : Nat := 64 * u + e

def engineOf (s : State) (k : Nat) : Engine := s.engines.get Engine.idle k

def setEngine (k : Nat) (e : Engine) (s : State) : State := { s with engines := s.engines.put k e }

def engineCount (u : Nat) : Nat := if u = 8 then 32 else 64

/-- The die an engine's unit stands on. -/
def unitDie (u : Nat) : Nat := if u = 8 then 10 else u

def setHaul (key : Nat) (h : Haul) (s : State) : State := { s with hauls := s.hauls.put key h }

/-! ### Fields (Tables 7 and 8) -/

def haulDst (copy : Bool) (d : Nat) : Nat := fld d (if copy then 24 else 16) 8
def haulSrc (d : Nat) : Nat := fld d 16 8
def haulRow (copy : Bool) (d : Nat) : Nat := fld d (if copy then 32 else 24) 8
def haulRows (copy : Bool) (d : Nat) : Nat := fld d (if copy then 40 else 32) 4
def haulSrcLd (d : Nat) : Nat := fld d 48 8
def haulDstLd (copy : Bool) (d : Nat) : Nat := fld d (if copy then 56 else 40) 8
def haulPattern (d : Nat) : Nat := fld d 48 8
def haulPb (d : Nat) : Nat := fld d 56 1
def haulSel (d : Nat) : Nat := fld d 64 1
def haulEngines (d : Nat) : Nat := fld d 65 1
def haulTotal (copy : Bool) (d : Nat) : Nat := haulRow copy d * haulRows copy d

def haulOk (copy : Bool) (d : Nat) : Bool :=
  let rb := haulRow copy d
  let rows := haulRows copy d
  decide (haulDst copy d < 2 ^ 48) && decide (1 ≤ rb) && decide (rb ≤ 2 ^ 40) && decide (1 ≤ rows) && decide (rows ≤ 2 ^ 24) &&
  (rows == 1 || decide (rb ≤ haulDstLd copy d)) &&
  (decide (haulSel d ≤ 8) || haulSel d == 255) && decide (haulEngines d ≤ 64) &&
  !(haulSel d == 8 && decide (haulEngines d > 32)) && zeros d 66 255 &&
  (if copy then
     decide (haulSrc d < 2 ^ 48) && zeros d 44 47 && (rows == 1 || decide (rb ≤ haulSrcLd d))
   else
     [1, 2, 4, 8].contains (haulPb d) && haulDst copy d % max 1 (haulPb d) == 0 && rb % max 1 (haulPb d) == 0 &&
     haulDstLd copy d % max 1 (haulPb d) == 0 && zeros d 36 39 && zeros d 57 63)

/-! ### Staging (R321) -/

/-- The unit automatic HAUL_SEL uses. [DEDUCED, unsafe: assumption 43] -/
def haulAuto (s : State) (copy : Bool) (ctx d : Nat) : Nat :=
  let remote (x : Xlated) : Option Bool := match x with
    | .fault _ => none
    | .ok x => match x.target with
      | .peer _ _ _ => some true
      | .frontend _ _ _ => some true
      | _ => some false
  let dst := translate s ctx (haulDst copy d) needW
  let src : Option Bool := if copy then remote (translate s ctx (haulSrc d) needR) else some false
  match src, remote dst with
  | some false, some false =>
    (match dst with
     | .ok x => (match x.target with
       | .memory off => homeDie s (off / 128)
       | _ => 8)
     | .fault _ => 8)
  | _, _ => 8

def haulUnit (s : State) (copy : Bool) (ctx d : Nat) : Nat :=
  if haulSel d = 255 then haulAuto s copy ctx d else haulSel d

/-- Engines the command runs on; a command of fewer pieces than engines uses as many as it has pieces. -/
def haulWidth (copy : Bool) (u d : Nat) : Nat :=
  let n := if haulEngines d = 0 then min 16 (ceilDiv (haulTotal copy d) (2 ^ 20)) else haulEngines d
  min (min n (engineCount u)) (ceilDiv (haulTotal copy d) 65536)

/-- The pieces are dealt to the engines in rotation; which engine takes the first is not promised.
[DEDUCED, unsafe: assumption 43] -/
def dealShares (key u n total : Nat) (s : State) : State :=
  let v := takeFree s
  (List.range n).foldl (fun t i =>
    let k := engineKey u ((v.1 + i) % engineCount u)
    let e := engineOf t k
    setEngine k { e with pieces := e.pieces ++ [{ key := key, start := 65536 * i, done := 0, stride := 65536 * n,
                                                  total := total, fault := none }] } t) v.2

def haulStart (copy : Bool) (q seq : Nat) (s : State) : Answer :=
  match handed s q seq (if copy then 0x03 else 0x04) with
  | none => stuck "no such command is handed over"
  | some j =>
    let key := jobKey q seq
    if !haulOk copy j.raw then .next (refuseJob key .descriptorInvalid s)
    else
      let u := haulUnit s copy j.ctx j.raw
      let n := haulWidth copy u j.raw
      .next (dealShares key u n (haulTotal copy j.raw)
        (setHaul key { unit := u, left := n, bytesDone := 0, poisonAt := none } (runJob key s)))

/-- HAUL_COPY (R320, R321). -/
def execHaulCopy (q seq : Nat) (s : State) : Answer := haulStart true q seq s

/-- HAUL_FILL (R320, R321). -/
def execHaulFill (q seq : Nat) (s : State) : Answer := haulStart false q seq s

/-! ### Moving bytes (R321, R322) -/

def toFrontend (s : State) (ctx va : Nat) : Bool :=
  match translate s ctx va needW with
  | .ok x => (match x.target with | .frontend _ _ _ => true | _ => false)
  | .fault _ => false

/-- Copy n bytes that lie in one destination line; a poisoned source line goes on poisoned, or as zeros to a front-end.
Tells at which of the bytes the first poisoned line begins. -/
def copyLine (src dst n : Nat) (u : UStep) : Option Nat × UStep :=
  let k := min n (128 - src % 128)
  let a := uReadLine src k u
  let b := if k < n then uReadLine (src + k) (n - k) a.2 else (Rd.none, a.2)
  let fe := toFrontend b.2.st u.ctx dst
  let part (r : Rd) : Nat := if r.poison && fe then 0 else r.val
  let val := part a.1 + part b.1 * 2 ^ (8 * k)
  let poison := if a.1.poison then some 0 else if b.1.poison then some k else none
  let p := dst % 128
  (poison, uStoreLine (dst - p) (BitVec.ofNat 1024 (val * 2 ^ (8 * p))) (spanMask p n) (poison.isSome && !fe) b.2)

/-- A pattern of n bytes repeated through a line. -/
def repeated (pattern n : Nat) : Nat → Nat
  | 0 => 0
  | k + 1 => bits pattern 0 (8 * n) + repeated pattern n k * 2 ^ (8 * n)

/-- Write n bytes of the pattern that lie in one destination line. -/
def fillLine_ (pattern pb dst n : Nat) (u : UStep) : UStep :=
  let p := dst % 128
  uStoreLine (dst - p) (BitVec.ofNat 1024 (repeated pattern pb (128 / max 1 pb))) (spanMask p n) false u

def rowAddr (base ld rb x : Nat) : Nat := base + x / rb * ld + x % rb

/-- A destination that is written without a connection, so that its bytes count at once. [DEDUCED, unsafe: assumption 43] -/
def nearBytes (s : State) (ctx va n : Nat) : Nat :=
  match translate s ctx va needW with
  | .ok x => (match x.target with | .memory _ => n | _ => 0)
  | .fault _ => 0

/-- What moving lines comes to: the next byte, the bytes written near, and the first poisoned byte. -/
structure Moved where
  at_ : Nat
  near : Nat
  poisonAt : Option Nat
deriving DecidableEq, Repr

/-- Move destination lines from byte x on, at most as many as the fuel, up to byte stop. -/
def moveLines (copy : Bool) (d stop : Nat) : Nat → Moved → UStep → Moved × UStep
  | 0, m, u => (m, u)
  | fuel + 1, m, u =>
    if m.at_ ≥ stop then (m, u)
    else
      let x := m.at_
      let rb := haulRow copy d
      let dst := rowAddr (haulDst copy d) (haulDstLd copy d) rb x
      let n := min (min (stop - x) (rb - x % rb)) (128 - dst % 128)
      let r : Option Nat × UStep :=
        if copy then copyLine (rowAddr (haulSrc d) (haulSrcLd d) rb x) dst n u
        else (none, fillLine_ (haulPattern d) (haulPb d) dst n u)
      if r.2.stopped then (m, r.2)
      else
        moveLines copy d stop fuel
          { at_ := x + n, near := m.near + nearBytes r.2.st u.ctx dst n,
            poisonAt := match m.poisonAt with | some y => some y | none => r.1.map (x + ·) } r.2

def minOpt (a b : Option Nat) : Option Nat := match a, b with
  | some x, some y => some (min x y)
  | some x, none => some x
  | none, y => y

/-- An engine's present piece is over: the share goes on with its next piece, or is finished.
[DEDUCED, unsafe: assumption 43] -/
def nextPiece (k : Nat) (p : Piece) (rest : List Piece) (s : State) : State :=
  let e := engineOf s k
  if p.start + p.stride < p.total then
    setEngine k { e with pieces := { p with start := p.start + p.stride, done := 0, fault := none } :: rest } s
  else
    let t := setEngine k { e with pieces := rest } s
    match t.hauls.find p.key with
    | some h => setHaul p.key { h with left := h.left - 1 } t
    | none => t

/-- HAUL_PIECE: an engine moves the next lines of its piece, at most 512 outstanding over connections (R321, R333). -/
def execHaulPiece (unit engine : Nat) (s : State) : Answer :=
  let k := engineKey unit engine
  let e := engineOf s k
  if unit > 8 || engine ≥ engineCount unit || !dieUp s (unitDie unit) then stuck "no such engine runs"
  else
    match e.pieces with
    | [] => stuck "the engine has no piece"
    | p :: rest =>
      match s.jobs.find p.key, s.hauls.find p.key with
      | some j, some h =>
        let out := txnsOfEngine s k
        if p.fault.isSome then stuck "the piece has faulted"
        else if out ≥ 512 then
          if e.stalled then stuck "512 transactions are outstanding"
          else .next (bump (K.haulTxnStalls + unit) 1 (setEngine k { e with stalled := true } s))
        else
          let copy := opGen2 j.gen j.opcode == some 0x03
          let stop := min (p.start + 65536) p.total
          let u0 : UStep := { UStep.start j.ctx p.key (unitDie unit) s with owner := .share p.key k }
          let r := moveLines copy j.raw stop (512 - out) ⟨p.start + p.done, 0, none⟩ u0
          let m := r.1
          let u := r.2
          let why := "something the engine needs has not come"
          if u.held && m.at_ == p.start + p.done then waitAnswer why u s
          else
            let u2 := if m.poisonAt.isSome then u.met .poisonRead else u
            let t := setHaul p.key { h with bytesDone := h.bytesDone + m.near, poisonAt := minOpt h.poisonAt m.poisonAt } (uClose u2)
            let p2 : Piece := { p with done := m.at_ - p.start, fault := u.fault }
            let t2 := setEngine k { engineOf t k with pieces := p2 :: rest, stalled := false } t
            .next (if u.fault.isNone && m.at_ == stop then nextPiece k p2 rest t2 else keepAsking u t2)
      | _, _ => stuck "the piece's command is gone"

/-- A Haul command completes: every piece is finished and every write acknowledged (R323, R326). -/
def execHaulComplete (q seq : Nat) (s : State) : Answer :=
  let key := jobKey q seq
  match s.hauls.find key, s.jobs.find key with
  | some h, some j =>
    if h.left = 0 ∧ txnsOf s key = 0 then
      let detail := match statusOf j.outs, h.poisonAt with
        | .poisonRead, some x => x
        | _, _ => h.bytesDone
      .next (finishJob key (setDetail key detail { s with hauls := s.hauls.del key }))
    else stuck "the command is not at its end"
  | _, _ => stuck "no such Haul command runs"

/-- Bytes of a Haul command that a connection has acknowledged (R326). -/
def haulAcked (o : TOwner) (n : Nat) (s : State) : State :=
  match o with
  | .share key _ => (match s.hauls.find key with
    | some h => setHaul key { h with bytesDone := h.bytesDone + n } s
    | none => s)
  | _ => s

/-- An ABORT of a Haul command stops its engines; writes already issued complete (R322). -/
def abortHaul (key : Nat) (s : State) : Option State :=
  match s.hauls.find key with
  | none => none
  | some h =>
    let drop (k : Nat) (e : Engine) (t : State) : State :=
      let t2 := setEngine k { e with pieces := e.pieces.filter fun p => p.key != key } t
      match e.saved with
      | some p =>
        if p.key = key then
          markEnded (k % 64 + k / 64 * 2 ^ 8 + 3 * 2 ^ 12)
            (setEngine k { e with pieces := e.pieces.filter (fun p => p.key != key), saved := none } t2)
        else t2
      | none => t2
    some (addOut key .aborted (setHaul key { h with left := 0 } (s.engines.cells.foldl (fun t c => drop c.1 c.2 t) s)))

end Sys2Proof.Machine
end

