-- ==== Sys2Proof/Machine/Bramble.lean ====
section
/-! DEFINITION. Bramble: routing, gathering, issuing experts' FACE_OPs, and combining (R114–R129). -/

namespace Sys2Proof.Machine

/-! ### Route descriptors (Tables 6 and 7) -/

def rTokens (d : Nat) : Nat := fld d 16 4
def rExperts (d : Nat) : Nat := fld d 20 2
def rTopK (d : Nat) : Nat := fld d 22 1
def rSel (d : Nat) : Nat := fld d 23 1
def rCtl (d : Nat) : Nat := fld d 24 4
def rLogitFmt (d : Nat) : Nat := bits (rCtl d) 0 5
def rSrc (d : Nat) : Nat := bits (rCtl d) 5 2
def rPolicy (d : Nat) : Nat := bits (rCtl d) 7 2
def rNorm (d : Nat) : Nat := bits (rCtl d) 9 2
def rGather (d : Nat) : Bool := bit (rCtl d) 11
def rIssue (d : Nat) : Bool := bit (rCtl d) 12
def rCapacity (d : Nat) : Nat := fld d 28 4
def rLogits (d : Nat) : Nat := fld d 32 8
def rLogitsLd (d : Nat) : Nat := fld d 40 4
def rDeferCap (d : Nat) : Nat := fld d 44 4
def rSelBias (d : Nat) : Nat := fld d 48 8
def rCapAddr (d : Nat) : Nat := fld d 56 8
def rList (d : Nat) : Nat := fld d 64 8
def rExpert (d : Nat) : Nat := fld d 72 8
def rDefer (d : Nat) : Nat := fld d 80 8
def rSummary (d : Nat) : Nat := fld d 88 8
def rX (d : Nat) : Nat := fld d 96 8
def rDispatch (d : Nat) : Nat := fld d 104 8
def rXLd (d : Nat) : Nat := fld d 112 4
def rDispatchLd (d : Nat) : Nat := fld d 116 4
def rRowBytes (d : Nat) : Nat := fld d 120 4
def rInCount (d : Nat) : Nat := fld d 124 4
def rTemplate (d : Nat) : Nat := fld d 128 8
def rPlace (d : Nat) : Nat := fld d 136 8
def rInList (d : Nat) : Nat := fld d 152 8

def inRange (lo hi x : Nat) : Bool := decide (lo ≤ x) && decide (x ≤ hi)

/-- Width of a logit in bytes. -/
def logitBytes (d : Nat) : Nat := if rLogitFmt d = 1 then 4 else 2

/-- A route fails a staging check (R115, R125). [DEDUCED, unsafe: assumption 42] -/
def routeInvalid (d : Nat) : Bool :=
  let addrs := (List.range 5).map (fun i => fld d (48 + 8 * i) 8) ++
    [rLogits d, rSummary d, rX d, rDispatch d, rTemplate d, rPlace d, routeStatusAddr d, rInList d]
  let need := [rList d, rExpert d, rSummary d] ++ (if rSrc d = 0 then [rLogits d] else []) ++
    (if rSrc d = 1 then [rInList d] else []) ++ (if rPolicy d = 2 then [rDefer d] else []) ++
    (if rGather d then [rX d, rDispatch d] else []) ++ (if rIssue d then [rTemplate d, routeStatusAddr d] else [])
  !inRange 1 65536 (rTokens d) || !inRange 1 1024 (rExperts d) || !inRange 1 8 (rTopK d) || decide (rTopK d > rExperts d) ||
  decide (rSel d > 7) || rSrc d == 3 || rPolicy d == 3 || rNorm d == 3 || bits (rCtl d) 13 19 != 0 ||
  decide (rCapacity d > 65536) || (rSrc d == 0 && decide (rLogitsLd d < rExperts d * logitBytes d)) ||
  (rPolicy d == 2 && !inRange 1 524288 (rDeferCap d)) || (rSrc d == 1 && !inRange 1 524288 (rInCount d)) ||
  (rSrc d == 1 && rPolicy d == 1) || (rGather d && (!inRange 1 (2 ^ 24) (rRowBytes d) || decide (rDispatchLd d < rRowBytes d))) ||
  addrs.any (fun a => a % 64 != 0 || addrHigh a) || rTemplate d % 256 != 0 || need.any (· == 0) || !zeros d 160 255

def routeCheck (d : Nat) : Option Status :=
  if routeInvalid d then some .descriptorInvalid
  else if !inRange 1 3 (rLogitFmt d) then some .formatUnsupported
  else none

def Route.start (key ctx raw : Nat) (combine : Bool) : Route :=
  { key := key, ctx := ctx, raw := raw, combine := combine, listed := false, counts := [], entries := [], gathered := 0,
    offered := 0, status := ⟨[]⟩, owed := [], live := [], issued := 0, position := 0, done := [], inRow := none, outs := [],
    aborted := false, fault := none, stalled := false }

/-! ### Ranking and weights (R116, R117) -/

/-- Insert an expert into a descending ranking; ties keep the lower index, which came first. -/
def rankIn (e : Nat) (v : FNum) : List (Nat × FNum) → List (Nat × FNum)
  | [] => [(e, v)]
  | (f, w) :: t => if w.lt v then (e, v) :: (f, w) :: t else (f, w) :: rankIn e v t

/-- The ranking of one token's logits under their biases: experts and sums, NaNs left out. [DEDUCED, unsafe: assumption 113] -/
def ranking (logits bias : List FNum) : List (Nat × FNum) :=
  let sums := (logits.zip bias).map fun x => FNum.add x.1 x.2
  ((List.range sums.length).zip sums).foldl (fun r x => if x.2.isNan then r else rankIn x.1 x.2 r) []

/-- Fraction bits of the exponential's fixed point. -/
def expFrac : Nat := 800

/-- Terms of the Taylor series of e^r from term n on. -/
def expTerms (r : Nat) : Nat → Nat → Nat → Nat
  | 0, _, _ => 0
  | fuel + 1, n, t => t + expTerms r fuel (n + 1) (t * r / (2 ^ expFrac * (n + 1)))

/-- Square x, n times. -/
def squares : Nat → Nat → Nat
  | 0, x => x
  | n + 1, x => squares n (x * x / 2 ^ expFrac)

/-- e^y in fixed point, for y = m · 2^e below 256. -/
def expUp (m : Nat) (e : Int) : Nat :=
  let y := truncAt m e (-(expFrac : Int))
  squares 8 (expTerms (y / 256) 160 0 (2 ^ expFrac))

/-- e^(−y) in fixed point for y ≥ 0; 0 from 256 on, far below every FP32 value. -/
def expDown (y : FNum) : Nat :=
  match y with
  | .fin _ m e => if m ≠ 0 ∧ topExp m e ≥ 8 then 0 else 2 ^ (2 * expFrac) / expUp m e
  | _ => 0

/-- An infinite logit counts as the largest finite FP32 value of its sign (R117). -/
def finiteLogit (v : FNum) : FNum := match v, fshape 1 with
  | .inf s, some f => if s then (f.decode f.maxEnc).neg else f.decode f.maxEnc
  | x, _ => x

/-- The exponential of a logit rounds to an FP32 zero. [DEDUCED, unsafe: assumption 113] -/
def expIsZero (v : FNum) : Bool :=
  match v with
  | .fin s m e => s && m != 0 && (decide (topExp m e ≥ 8) || decide (expUp m e ≥ 2 ^ (expFrac + 150)))
  | _ => false

def maxOf (vs : List FNum) : FNum := match vs with
  | [] => .zero
  | v :: t => t.foldl (fun a b => if a.lt b then b else a) v

/-- An FP32 weight within 2 ulp of num / den (R117). -/
def weightEnc (num den : Nat) : Nat :=
  if num = 0 ∨ den = 0 then 0
  else match fshape 1 with
    | some f =>
      let q := quotient num den
      (f.encode .zero false (.fin false q.1 q.2)).enc + Config.weightUlp num den % 4 - 1
    | none => 0

/-- Weights of the selected logits, normalised over pool (NORM 0 and 1). -/
def softmax (sel pool : List FNum) : List Nat :=
  if pool.all expIsZero then sel.map fun _ => 0
  else
    let top := maxOf pool
    let part (v : FNum) : Nat := expDown (FNum.add top v.neg)
    let den := (pool.map part).foldl (· + ·) 0
    sel.map fun v => weightEnc (part v) den

/-- 1 / (1 + e^(−x)) (NORM 2). -/
def sigmoid (v : FNum) : Nat :=
  let p := expDown v.abs
  if v.sign then weightEnc p (2 ^ expFrac + p) else weightEnc (2 ^ expFrac) (2 ^ expFrac + p)

/-- A token as admission sees it: its ranking, the number selected, and the weights by rank. -/
structure Token where
  ranked : List Nat
  chosen : Nat
  weights : List Nat
deriving DecidableEq, Repr

/-- Its choice is logged. [DEDUCED, unsafe: assumption 113] -/
def tokenOf (d : Nat) (logits bias : List FNum) : Token :=
  let r := ranking logits bias
  let n := min (rTopK d) r.length
  let sel := (r.take n).map fun x => finiteLogit (logits.getD x.1 .zero)
  let all := (logits.filter fun v => !v.isNan).map finiteLogit
  { ranked := r.map Prod.fst, chosen := n,
    weights := if rNorm d = 0 then softmax sel sel else if rNorm d = 1 then softmax sel all else sel.map sigmoid }

/-! ### Admission (R118) -/

structure Assign where
  token : Nat
  expert : Nat
  rank : Nat
  spilled : Bool
  weight : Nat
deriving DecidableEq, Repr

/-- The 8 bytes of an assignment (Table 8). -/
def Assign.entry (a : Assign) : Nat :=
  a.token % 2 ^ 16 + a.expert % 2 ^ 10 * 2 ^ 16 + a.rank % 8 * 2 ^ 26 + (if a.spilled then 2 ^ 29 else 0) + a.weight % 2 ^ 32 * 2 ^ 32

structure Admission where
  counts : Tab Nat
  taken : List Assign
  deferred : List Assign
  dropped : Nat
  spilled : Nat
  lost : Nat
deriving DecidableEq, Repr

def Admission.empty : Admission := ⟨⟨[]⟩, [], [], 0, 0, 0⟩

def Admission.take (a : Assign) (m : Admission) : Admission :=
  { m with counts := m.counts.put a.expert (m.counts.get 0 a.expert + 1), taken := m.taken ++ [a] }

/-- The first expert of a token's ranking, past its selected ones, that no earlier spill of the token took and that has room. -/
def spillTo (cap : Nat → Nat) (k : Token) (t : Nat) (m : Admission) : Option Nat :=
  (k.ranked.drop k.chosen).find? fun e =>
    !(m.taken.any fun a => a.token == t && a.expert == e && a.spilled) && decide (m.counts.get 0 e < cap e)

/-- One assignment asks for admission. -/
def accept (d : Nat) (cap : Nat → Nat) (k : Token) (a : Assign) (m : Admission) : Admission :=
  if m.counts.get 0 a.expert < cap a.expert then m.take a
  else match rPolicy d with
    | 1 => (match spillTo cap k a.token m with
      | some e => { m.take { a with expert := e, spilled := true } with spilled := m.spilled + 1 }
      | none => { m with dropped := m.dropped + 1 })
    | 2 =>
      if m.deferred.length ≥ rDeferCap d then { m with dropped := m.dropped + 1, lost := m.lost + 1 }
      else { m with deferred := m.deferred ++ [a] }
    | _ => { m with dropped := m.dropped + 1 }

/-- Pass r: the rank-r assignments of every token in ascending order. -/
def admitPass (d : Nat) (cap : Nat → Nat) (r : Nat) : Nat → List Token → Admission → Admission
  | _, [], m => m
  | t, k :: ks, m =>
    let m2 := if r < k.chosen then
        accept d cap k { token := t, expert := k.ranked.getD r 0, rank := r, spilled := false, weight := k.weights.getD r 0 } m
      else m
    admitPass d cap r (t + 1) ks m2

def admitAll (d : Nat) (cap : Nat → Nat) (ks : List Token) : Admission :=
  (List.range (rTopK d)).foldl (fun m r => admitPass d cap r 0 ks m) Admission.empty

/-! ### Outputs (R119) -/

/-- The assignments in list order: by expert, then ascending token. -/
def listOrder (d : Nat) (m : Admission) : List Assign :=
  (List.range (rExperts d)).flatMap fun e =>
    let mine := m.taken.filter fun a => a.expert == e
    (mine.foldl (fun (t : Tab (List Assign)) a => t.put a.token (t.get [] a.token ++ [a])) ⟨[]⟩).cells.flatMap Prod.snd

def countsOf (d : Nat) (m : Admission) : List Nat := (List.range (rExperts d)).map fun e => m.counts.get 0 e

/-- OFFSET of expert e. -/
def offsetOf (counts : List Nat) (e : Nat) : Nat := (counts.take e).foldl (· + ·) 0

/-- Entries of n bytes each, as one number. -/
def packEntries (n : Nat) : List Nat → Nat
  | [] => 0
  | x :: t => x % 2 ^ (8 * n) + packEntries n t * 2 ^ (8 * n)

/-- The 64 bytes of the summary, before any FACE_OP is issued (Table 9). -/
def summaryOf (m : Admission) (counts : List Nat) (unrouted nans : Nat) : Nat :=
  packEntries 4 [m.taken.length, m.dropped, m.spilled, m.deferred.length, m.lost, unrouted, nans, 0xFFFF0000, counts.foldl max 0]

/-- Write what a route has admitted, in one task that a fault stops. -/
def writeLists (d : Nat) (m : Admission) (unrouted nans : Nat) (u : UStep) : UStep :=
  let counts := countsOf d m
  let arr := (List.range (rExperts d)).map fun e => counts.getD e 0 + offsetOf counts e * 2 ^ 32
  let l := (listOrder d m).map Assign.entry
  let put (a n : Nat) (xs : List Nat) (u : UStep) : UStep := if xs = [] then u else uPut a (n * xs.length) (packEntries n xs) u
  u |> put (rExpert d) 8 arr |> put (rList d) 8 l |> put (rDefer d) 8 (m.deferred.map Assign.entry)
    |> uPut (rSummary d) 64 (summaryOf m counts unrouted nans)

/-! ### What a route reads -/

/-- Floats of one format from consecutive bytes. -/
def floatsOf (code n raw : Nat) : List FNum := (List.range n).map fun i => decodeFmt code (bits raw (i * fmtBits code) (fmtBits code))

/-- Rows of logits, from token t on. -/
def readLogits (d : Nat) : Nat → Nat → UStep → FGo (List (List FNum))
  | 0, _, u => .on [] u
  | n + 1, t, u =>
    fThen (readTable (rLogits d + t * rLogitsLd d) (rExperts d * logitBytes d) u) fun raw u =>
      fThen (readLogits d n (t + 1) u) fun rest u => .on (floatsOf (rLogitFmt d) (rExperts d) raw :: rest) u

/-- Each expert's capacity; one above 65,536 ends the route (R125). -/
def readCaps (d : Nat) (u : UStep) : FGo (List Nat) :=
  let same := if rCapacity d = 0 then rTokens d else rCapacity d
  if rCapAddr d = 0 then .on (List.replicate (rExperts d) same) u
  else fThen (readTable (rCapAddr d) (4 * rExperts d) u) fun raw u =>
    let caps := (List.range (rExperts d)).map fun e => bits raw (32 * e) 32
    if caps.any (· > 65536) then .end_ .descriptorInvalid u else .on caps u

/-- The expert array as it stands: its COUNTs, and whether every OFFSET is the sum of the lower ones (R120). -/
def readExperts (d : Nat) (u : UStep) : FGo (List Nat) :=
  fThen (readTable (rExpert d) (8 * rExperts d) u) fun raw u =>
    let counts := (List.range (rExperts d)).map fun e => bits raw (64 * e) 32
    if (List.range (rExperts d)).all fun e => bits raw (64 * e + 32) 32 == offsetOf counts e then .on counts u
    else .end_ .descriptorInvalid u

/-- The expert to which a list position belongs. -/
def expertAt (counts : List Nat) (p : Nat) : Nat :=
  (List.range counts.length).foldl (fun a e => if offsetOf counts e ≤ p ∧ counts.getD e 0 ≠ 0 then e else a) 0

/-- The assignment list as it stands (R120): each EXPERT agrees with the array, each TOKEN is in range.
[DEDUCED, unsafe: assumption 42] -/
def readEntries (d listAddr : Nat) (counts : List Nat) (u : UStep) : FGo (List Nat) :=
  let n := counts.foldl (· + ·) 0
  if n = 0 then .on [] u
  else fThen (readTable listAddr (8 * n) u) fun raw u =>
    let es := (List.range n).map fun i => bits raw (64 * i) 64
    if (List.range n).all fun i => bits (es.getD i 0) 16 10 == expertAt counts i && decide (bits (es.getD i 0) 0 16 < rTokens d)
    then .on es u else .end_ .descriptorInvalid u

/-! ### BRAMBLE_ROUTE (R118–R120) -/

/-- The first expert from e on with assignments, or the number of experts. -/
def nextExpert (counts : List Nat) (e : Nat) : Nat :=
  ((List.range counts.length).find? fun x => decide (e ≤ x) && counts.getD x 0 != 0).getD counts.length

def Route.list (counts entries : List Nat) (r : Route) : Route :=
  { r with listed := true, counts := counts, entries := entries, gathered := nextExpert counts 0, offered := nextExpert counts 0 }

/-- Admit what the source gives: the tokens' selections, or the input list. -/
def admitted (d : Nat) (u : UStep) : FGo (Admission × Nat) :=
  fThen (readCaps d u) fun caps u =>
    let cap (e : Nat) : Nat := caps.getD e 0
    if rSrc d = 0 then
      fThen (if rSelBias d = 0 then .on (List.replicate (rExperts d) FNum.zero) u
             else fThen (readTable (rSelBias d) (4 * rExperts d) u) fun raw u => .on (floatsOf 1 (rExperts d) raw) u) fun bias u =>
        fThen (readLogits d (rTokens d) 0 u) fun rows u =>
          let ks := rows.map fun l => tokenOf d l bias
          let nans := (rows.map fun l => l.length - (ranking l bias).length).foldl (· + ·) 0
          .on (admitAll d cap ks, nans) u
    else
      fThen (readTable (rInList d) (8 * rInCount d) u) fun raw u =>
        let es := (List.range (rInCount d)).map fun i => bits raw (64 * i) 64
        if es.any fun x => decide (bits x 0 16 ≥ rTokens d) || decide (bits x 16 10 ≥ rExperts d) then .end_ .descriptorInvalid u
        else
          let m := es.foldl (fun m x => accept d cap ⟨[], 0, []⟩
            { token := bits x 0 16, expert := bits x 16 10, rank := bits x 26 3, spilled := false, weight := bits x 32 32 } m)
            Admission.empty
          .on (m, 0) u

/-- The route's own work up to its lists. -/
def routeWork (r : Route) (u : UStep) : FGo Route :=
  let d := r.raw
  if rSrc d = 2 then
    fThen (readExperts d u) fun counts u =>
      fThen (readEntries d (rList d) counts u) fun es u => .on (Route.list counts es r) u
  else
    fThen (admitted d u) fun m u =>
      let unrouted := ((List.range (rTokens d)).filter fun t => !m.1.taken.any fun a => a.token == t).length
      let w := writeLists d m.1 unrouted m.2 u
      if w.stopped then .stop w
      else
        let die := rSel d
        .on (Route.list (countsOf d m.1) ((listOrder d m.1).map Assign.entry) r) (w.on fun x => bump (K.brambleDeferred + die) m.1.deferred.length
          (bump (K.brambleSpilled + die) m.1.spilled (bump (K.brambleDropped + die) m.1.dropped x)))

/-- A route whose every expert is gathered and offered leaves the Bramble free for its next command (R114). -/
def settleRoute (die : Nat) (s : State) : State :=
  let b := brambleOf s die
  match b.run with
  | none => s
  | some r =>
    let e := rExperts r.raw
    let ended_ := !r.combine && r.fault.isNone &&
      (r.aborted || (r.listed && (!rGather r.raw || decide (r.gathered ≥ e)) && (!rIssue r.raw || decide (r.offered ≥ e))))
    if ended_ then setBramble die { b with run := none, open_ := b.open_ ++ [r] } s else s

/-- The FACE_OPs a route has issued and that have not completed are aborted. -/
def abortExperts (die key : Nat) : List Nat → State → State
  | [], s => s
  | e :: es, s => abortExperts die key es ((abortFace key (.expert die e) s).getD s)

/-- A step of a route has ended: what it met, and what stops it, stays with the route. One that waits keeps the rows it has
gathered. A route that ends under R69 or R282 sends an ABORT to the FACE_OPs it has issued, as a granted ABORT does (R124,
R125). [DEDUCED, unsafe: assumption 42] -/
def routeStep (die : Nat) (r : Route) (g : FGo Route) (s : State) : Answer :=
  let put (r : Route) (s : State) : State := settleRoute die (setBramble die { brambleOf s die with run := some r } s)
  let met (os : List Status) (r : Route) : Route := os.foldl (fun r o => Route.met o r) r
  let why := "something the Bramble reads has not come"
  match g with
  | .on r2 u =>
    let t := put (met u.outs r2) u.st
    if !u.held then .next (dropArrived u.owner t)
    else if r2 = r then waitAnswer why u s
    else .next (keepAsking u t)
  | .end_ o u =>
    let t := put (Route.met o { met u.outs r with aborted := true }) (dropArrived u.owner u.st)
    .next (abortExperts die r.key r.live t)
  | .stop u => if u.held then waitAnswer why u s else .next (put { met u.outs r with fault := u.fault } u.st)

/-- A route or combine enters its Bramble: it runs at once on an idle one, or waits behind at most three others (R114). -/
def enterBramble (die : Nat) (r : Route) (s : State) : Option (Bool × State) :=
  let b := brambleOf s die
  if b.run.isNone ∧ b.waiting = [] then some (true, setBramble die { b with run := some r } s)
  else if b.waiting.length < 4 then some (false, setBramble die { b with waiting := b.waiting ++ [r] } s)
  else none

/-- The command at the front of a Bramble's waiting list begins, if it is this one. -/
def leaveWaiting (key : Nat) (s : State) : Option (Nat × Route × State) :=
  (List.range 8).findSome? fun die =>
    let b := brambleOf s die
    match b.run, b.waiting with
    | none, r :: rest => if r.key = key then some (die, r, setBramble die { b with run := some r, waiting := rest } s) else none
    | _, _ => none

/-- The route or combine of a command that stands on its Bramble, and waited when its last step was made. -/
def onBramble (key : Nat) (s : State) : Option (Nat × Route) :=
  (List.range 8).findSome? fun die => match (brambleOf s die).run with
    | some r => if r.key == key && r.fault.isNone && !r.aborted then some (die, r) else none
    | none => none

/-- The read of a route's or combine's descriptor has faulted: the task is switched out before anything of it is known, of
which Bramble the spec leaves open (R327). [DESIGN CHOICE, safe: assumption 40] -/
def routeUnread (key ctx : Nat) (combine : Bool) (i : FaultInfo) (j : Job) (t s : State) : Answer :=
  let v := takeFree t
  let die := v.1 % 8
  let b := brambleOf v.2 die
  if faultListFull 1 s then holdFault key K.faultListStalls j s
  else match pickSlot 4 (b.saves.cells.map Prod.fst) v.2 with
    | (none, _) => stuck "the Bramble's save slots are in use"
    | (some n, w) =>
      .next (addFault (taskRecord 4 die n key 0 i)
        (setBramble die { b with saves := b.saves.put n { Route.start key ctx 0 combine with fault := some i } } (runJob key w)))

def beginRoute (die : Nat) (r : Route) (s : State) : Answer :=
  if r.listed then .next (settleRoute die s)
  else routeStep die r (routeWork r (UStep.start r.ctx r.key die s)) s

/-- BRAMBLE_ROUTE: the command is read and checked, waits for its Bramble, and writes its lists.
[DEDUCED, unsafe: assumption 39; DEDUCED, unsafe: assumption 42] -/
def execBrambleRoute (q seq : Nat) (s : State) : Answer :=
  let key := jobKey q seq
  match leaveWaiting key s with
  | some (die, r, t) => if r.combine then stuck "the command is a combine" else beginRoute die r t
  | none =>
    match onBramble key s with
    | some (die, r) => if r.combine || r.listed then stuck "the route has written its lists" else beginRoute die r s
    | none =>
    match handed s q seq 0x06 with
    | none => stuck "no such command is handed over, or its Bramble is busy"
    | some j =>
      let st := stageDesc q seq 10 j s
      match st.1 with
      | .held => waitAnswer "the descriptor has not come" st.2 s
      | .refused o => .next (refuseJob key o st.2.st)
      | .faulted i => routeUnread key j.ctx false i j st.2.st s
      | .desc d =>
        let check : Option Status := if s.pkg = .restricted ∧ rIssue d then some .restrictedMode else routeCheck d
        match check with
          | some o => .next (refuseJob key o (if rSel d < 8 then bump (K.brambleRoutes + rSel d) 1 st.2.st else st.2.st))
          | none =>
            let r := Route.start key j.ctx d false
            match enterBramble (rSel d) r (runJob key (uClose st.2)) with
            | none => stuck "the Bramble holds four commands"
            | some (true, t) => beginRoute (rSel d) r t
            | some (false, t) => .next t

/-! ### BRAMBLE_GATHER (R121) -/

/-- Copy n bytes, destination line by destination line. -/
def copyBytes : Nat → Nat → Nat → Nat → UStep → Bool × UStep
  | 0, _, _, _, u => (false, u)
  | fuel + 1, src, dst, n, u =>
    if n = 0 ∨ u.stopped then (false, u)
    else
      let k := min n (128 - dst % 128)
      let a := copyLine src dst k u
      let b := copyBytes fuel (src + k) (dst + k) (n - k) a.2
      (a.1.isSome || b.1, b.2)

/-- Rows of the expert being gathered, from the row its position names. -/
def gatherRows : Nat → Route → UStep → Route × UStep
  | 0, r, u => (r, u)
  | n + 1, r, u =>
    let d := r.raw
    let p := offsetOf r.counts r.gathered + r.position
    let c := copyBytes (rRowBytes d / 128 + 2) (rX d + bits (r.entries.getD p 0) 0 16 * rXLd d) (rDispatch d + p * rDispatchLd d)
      (rRowBytes d) u
    if c.2.stopped then (r, c.2)
    else gatherRows n { (if c.1 then Route.met .poisonRead r else r) with position := r.position + 1 } c.2

/-- BRAMBLE_GATHER: the rows of the next expert are copied. -/
def execBrambleGather (die : Nat) (s : State) : Answer :=
  match (brambleOf s die).run with
  | none => stuck "the Bramble is idle"
  | some r =>
    if r.combine || !r.listed || r.aborted || r.fault.isSome || !rGather r.raw || decide (r.gathered ≥ rExperts r.raw) then
      stuck "no expert is to be gathered"
    else
      let g := gatherRows (r.counts.getD r.gathered 0 - r.position) r (UStep.start r.ctx r.key die s)
      if g.2.fault.isSome then routeStep die g.1 (.stop g.2) s
      else if g.2.held then routeStep die r (.on g.1 g.2) s
      else routeStep die g.1 (.on { g.1 with gathered := nextExpert g.1.counts (g.1.gathered + 1), position := 0 } g.2) s

/-! ### BRAMBLE_ISSUE (R122) -/

/-- The FACE_OP of an expert, from its template (Table 10). -/
def expertOp (t count offset : Nat) : Nat :=
  let addTo (a x d : Nat) : Nat := setFld d a 8 (fld d a 8 + x)
  let addIf (a x d : Nat) : Nat := if fld d a 8 = 0 then d else addTo a x d
  t |> (fun d => setFld d 0 16 0) |> (fun d => setFld d 16 4 count)
    |> addTo 40 (offset * fLd t 0) |> addTo 56 (offset * fLd t 2) |> addTo 64 (offset * fLd t 3)
    |> addIf 192 (offset * fResidLd t) |> addIf 208 (offset * 4) |> addIf 216 (offset * roundUp (ceilDiv (fN t) 32) 64)
    |> (fun d => setFld d 36 4 (setBit (fld d 36 4) 14))

/-- A template that Bramble refuses. -/
def templateBad (t : Nat) : Bool :=
  fBatch t != 1 || fLayout t 0 != 0 || fLayout t 3 != 0 || (fCPresent t && fLayout t 2 != 0) || fTilePred t || fZmask t != 0

/-- BRAMBLE_ISSUE: the next expert's FACE_OP is built and offered to its Face's weigh station. -/
def execBrambleIssue (die : Nat) (s : State) : Answer :=
  match (brambleOf s die).run with
  | none => stuck "the Bramble is idle"
  | some r =>
    let d := r.raw
    let e := r.offered
    if r.combine || !r.listed || r.aborted || r.fault.isSome || !rIssue d || decide (e ≥ rExperts d) then stuck "no expert is to be issued"
    else if rGather d && (decide (r.gathered ≤ e) || txnsOf s r.key != 0) then stuck "the expert's rows are not gathered"
    else
      let u := UStep.start r.ctx r.key die s
      let place : FGo Nat := if rPlace d = 0 then .on (e % 8) u
        else fThen (readTable (rPlace d + e) 1 u) fun x u => if x > 7 then .end_ .descriptorInvalid u else .on x u
      let g : FGo (Nat × Nat) := fThen place fun f u => fThen (readTable (rTemplate d + 256 * e) 256 u) fun t u => .on (f, t) u
      match g with
      | .end_ o v => routeStep die r (.end_ o v) s
      | .stop v => routeStep die r (.stop v) s
      | .on (f, t) v =>
        let op := expertOp t (r.counts.getD e 0) (offsetOf r.counts e)
        let r2 : Route := { r with offered := nextExpert r.counts (e + 1), issued := r.issued + 1, live := r.live ++ [e] }
        let bad : Option Status := if templateBad t then some .descriptorInvalid else faceCheck op
        match bad with
        | none =>
          routeStep die r2 (.on r2 (v.on (offerWork f (.face (FRun.start { owner := .expert die e, key := r.key, raw := op, ctx := r.ctx }))
            (fPriority op)))) s
        | some o =>
          let v2 := v.on (bump (K.faceOpsDone + f) 1)
          let r3 := v2.outs.foldl (fun r o => Route.met o r) r2
          let w := expertDone die r.key e o (setBramble die { brambleOf v2.st die with run := some r3 } v2.st)
          match w.2 with
          | some x => waitAnswer "the status byte's line cannot be reached" x s
          | none => .next (settleRoute die (dropArrived v2.owner w.1))

/-! ### ROUTE_COMPLETE (R123) -/

/-- Lowest expert whose FACE_OP completed other than DONE or DONE_CORRECTED. -/
def firstFailed (r : Route) : Nat :=
  ((List.range (rExperts r.raw)).find? fun e => decide (1 < r.status.get 0 e)).getD 0xFFFF

/-- What a route writes at its end: the status bytes it still owes, and the last word of its summary (R123). -/
def routeEnd (die : Nat) (r : Route) (s : State) : UStep :=
  let d := r.raw
  let tail := firstFailed r * 2 ^ 16 + r.issued
  let u0 := UStep.start r.ctx r.key die s
  let idle := (List.range (rExperts d)).filter fun e => (r.status.find e).isNone || r.owed.contains e
  let u1 := if r.listed && rIssue d then writeOwed r.status d idle u0 else u0
  if r.listed && (rIssue d || rSrc d == 2) then uPut (rSummary d + 28) 4 tail u1 else u1

/-- ROUTE_COMPLETE: every expert has completed and every write is acknowledged; the status bytes still owed and the
summary's last fields are written. -/
def execRouteComplete (q seq : Nat) (s : State) : Answer :=
  let key := jobKey q seq
  match (List.range 8).findSome? fun die => ((brambleOf s die).open_.find? fun r => r.key == key).map fun r => (die, r) with
  | none => stuck "no such route is open"
  | some (die, r) =>
    if r.live ≠ [] || r.fault.isSome || txnsOf s key ≠ 0 then stuck "the route is not at its end"
    else
      let tail := firstFailed r * 2 ^ 16 + r.issued
      let u := routeEnd die r s
      if u.held then waitAnswer "something the Bramble writes cannot be reached" u s
      else if u.fault.isSome then .next (onRoute die key (fun r => { r with fault := u.fault }) u.st)
      else
        let b := brambleOf u.st die
        let t := setBramble die { b with open_ := b.open_.filter fun x => x.key != key } (uClose u)
        .next (finishAcked key (bump (K.brambleRoutes + die) 1
          (setDetail key tail (r.outs.foldl (fun s o => addOut key o s) t))))

/-! ### BRAMBLE_COMBINE (R127–R129) -/

def cYFmt (d : Nat) : Nat := bits (rCtl d) 0 5
def cOutFmt (d : Nat) : Nat := bits (rCtl d) 5 5
def cSkip (d : Nat) : Bool := bit (rCtl d) 10
def cCols (d : Nat) : Nat := fld d 28 4
def cList (d : Nat) : Nat := fld d 32 8
def cExpert (d : Nat) : Nat := fld d 40 8
def cY (d : Nat) : Nat := fld d 48 8
def cYLd (d : Nat) : Nat := fld d 56 4
def cOutLd (d : Nat) : Nat := fld d 60 4
def cOut (d : Nat) : Nat := fld d 64 8
def cStatus (d : Nat) : Nat := fld d 72 8

/-- The staging checks of BRAMBLE_COMBINE (R115, R127). [DEDUCED, unsafe: assumption 42] -/
def combineCheck (d : Nat) : Option Status :=
  let addrs := [cList d, cExpert d, cY d, cOut d, cStatus d]
  if !inRange 1 65536 (rTokens d) || !inRange 1 1024 (rExperts d) || fld d 22 1 != 0 || decide (rSel d > 7) ||
     bits (rCtl d) 11 21 != 0 || !inRange 1 (2 ^ 24) (cCols d) || addrs.any (fun a => a % 64 != 0 || addrHigh a) ||
     (addrs.take 4).any (· == 0) || (cSkip d && cStatus d == 0) || !zeros d 80 255 ||
     (decide (cOutFmt d < 4) && cOutLd d % (fmtBits (cOutFmt d) / 8) != 0) then some .descriptorInvalid
  else if !inRange 1 3 (cYFmt d) || decide (cOutFmt d > 3) then some .formatUnsupported
  else none

/-- The lists a combine reads, checked as R120 does, and the status bytes under SKIP_FAILED. -/
def combineLists (r : Route) (u : UStep) : FGo Route :=
  let d := r.raw
  fThen (readTable (cExpert d) (8 * rExperts d) u) fun raw u =>
    let counts := (List.range (rExperts d)).map fun e => bits raw (64 * e) 32
    if !(List.range (rExperts d)).all fun e => bits raw (64 * e + 32) 32 == offsetOf counts e then .end_ .descriptorInvalid u
    else fThen (readEntries d (cList d) counts u) fun es u =>
      fThen (if cSkip d then readTable (cStatus d) (rExperts d) u else .on 0 u) fun st u =>
        let t : Tab Nat := (List.range (rExperts d)).foldl (fun t e => t.put e (bits st (8 * e) 8)) ⟨[]⟩
        .on { r with listed := true, counts := counts, entries := es, status := t } u

/-- WEIGHT × Y rounded once to OUT_FMT (R128). -/
def combineTerm (d weight y : Nat) : Nat := match fshape (cOutFmt d) with
  | some f => (f.encode .even false (FNum.mul (decodeFmt 1 weight) (decodeFmt (cYFmt d) y))).enc
  | none => 0

/-- Columns c to c + n − 1 of a row, whose OUT bytes lie in one line; whether a read of Y failed (R282). -/
def combineLine (d entry p c n : Nat) (u : UStep) : Bool × UStep :=
  let yb := fmtBits (cYFmt d) / 8
  let ob := fmtBits (cOutFmt d) / 8
  let y := uGet (cY d + p * cYLd d + c * yb) (n * yb) u
  if y.2.stopped || y.1.failed then (y.1.failed, y.2)
  else
    let out := cOut d + bits entry 0 16 * cOutLd d + c * ob
    let q := out % 128
    let v := packEntries ob ((List.range n).map fun i => combineTerm d (bits entry 32 32) (bits y.1.val (8 * yb * i) (8 * yb)))
    let dl := BitVec.ofNat 1024 (v * 2 ^ (8 * q))
    (false, if y.1.poison then uStoreLine (out - q) dl (spanMask q (n * ob)) true (y.2.met .poisonRead)
      else uReduceLine (out - q) (if cOutFmt d = 3 then 11 else 10) (ob.log2) dl (spanMask q (n * ob)) y.2)

/-- The columns of one row from c on, OUT line by OUT line; the column reached, and whether a read failed. -/
def combineRow (d entry p : Nat) : Nat → Nat → UStep → Nat × Bool × UStep
  | 0, c, u => (c, false, u)
  | fuel + 1, c, u =>
    if c ≥ cCols d then (c, false, u)
    else
      let ob := fmtBits (cOutFmt d) / 8
      let out := cOut d + bits entry 0 16 * cOutLd d + c * ob
      let n := max 1 (min (cCols d - c) ((128 - out % 128) / ob))
      let w := combineLine d entry p c n u
      if w.1 || w.2.stopped then (c, w) else combineRow d entry p fuel (c + n) w.2

/-- List positions in the order the homes' arbiters give them, as far as nothing stops the combine or ends it: a read of Y
that fails does (R282). -/
def combineRows (die : Nat) : List Nat → Route → UStep → Route × Bool × UStep
  | [], r, u => (r, false, u)
  | p :: ps, r, u =>
    let d := r.raw
    let entry := r.entries.getD p 0
    if cSkip d && decide (1 < r.status.get 0 (bits entry 16 10)) then
      combineRows die ps { r with done := r.done ++ [p] } (u.on (bump (K.brambleCombineSkipped + die) 1))
    else
      let c0 := match r.inRow with
        | some (x, c) => if x = p then c else 0
        | none => 0
      let w := combineRow d entry p (cCols d + 1) c0 u
      if w.2.1 || w.2.2.stopped then ({ r with inRow := some (p, w.1) }, w.2)
      else combineRows die ps { r with done := r.done ++ [p], inRow := none } w.2.2

/-- The positions still to be done: the row a fault stopped first, then the others in the given order. -/
def combineOrder (order : List Nat) (r : Route) : List Nat :=
  let rest := (drawOrder order r.entries.length).filter fun p => !r.done.contains p
  match r.inRow with
  | some (p, _) => p :: rest.filter (· != p)
  | none => rest

/-- A combine on its Bramble: to its end, to the fault that stops it, or to what it waits for. -/
def runCombine (die : Nat) (order : List Nat) (r : Route) (s : State) : Answer :=
  let u := UStep.start r.ctx r.key die s
  let finish (r : Route) (s : State) : State :=
    finishAcked r.key (r.outs.foldl (fun s o => addOut r.key o s)
      (dropArrived u.owner (setBramble die { brambleOf s die with run := none } s)))
  let met (os : List Status) (r : Route) : Route := os.foldl (fun r o => Route.met o r) r
  let why := "something the combine needs has not come"
  let stop (r2 : Route) (u : UStep) : Answer :=
    let t := setBramble die { brambleOf u.st die with run := some { met u.outs r2 with fault := u.fault } } u.st
    if !u.held then .next t else if r2 = r then waitAnswer why u s else .next (keepAsking u t)
  match (if r.listed then .on r u else combineLists r u) with
  | .end_ o v => .next (finish (Route.met o (met v.outs r)) v.st)
  | .stop v => stop r v
  | .on r2 v =>
    let w := combineRows die (combineOrder order r2) r2 v
    if w.2.2.stopped then stop w.1 w.2.2 else .next (finish (met w.2.2.outs w.1) w.2.2.st)

/-- BRAMBLE_COMBINE: the command is read and checked, waits for its Bramble, and scatters the experts' rows. -/
def execBrambleCombine (q seq : Nat) (order : List Nat) (s : State) : Answer :=
  let key := jobKey q seq
  match leaveWaiting key s with
  | some (die, r, t) => if r.combine then runCombine die order r t else stuck "the command is a route"
  | none =>
    match onBramble key s with
    | some (die, r) => if r.combine then runCombine die order r s else stuck "the command is a route"
    | none =>
    match handed s q seq 0x07 with
    | none => stuck "no such command is handed over, or its Bramble is busy"
    | some j =>
      let st := stageDesc q seq 10 j s
      match st.1 with
      | .held => waitAnswer "the descriptor has not come" st.2 s
      | .refused o => .next (refuseJob key o st.2.st)
      | .faulted i => routeUnread key j.ctx true i j st.2.st s
      | .desc d =>
        match combineCheck d with
        | some o => .next (refuseJob key o st.2.st)
        | none =>
          let r := Route.start key j.ctx d true
          match enterBramble (rSel d) r (runJob key (uClose st.2)) with
          | none => stuck "the Bramble holds four commands"
          | some (true, t) => runCombine (rSel d) order r t
          | some (false, t) => .next t

/-! ### ABORT of a route or combine (R124) -/

/-- An ABORT of a route or combine is granted: a route completes when its experts have, a combine at once.
[DEDUCED, unsafe: assumption 42] -/
def abortRoute (key : Nat) (s : State) : Option State :=
  match (List.range 8).findSome? fun die => (routeOf s die key).map fun r => (die, r) with
  | none => none
  | some (die, r) =>
    let b := brambleOf s die
    let slot := b.saves.cells.find? fun c => c.2.key == key
    let s1 := match slot with
      | some c => markEnded (c.1 + die * 2 ^ 8 + 4 * 2 ^ 12) s
      | none => s
    let r2 : Route := Route.met .aborted { r with aborted := true, fault := none }
    let keep (l : List Route) : List Route := l.filter fun x => x.key != key
    let b2 : Bramble :=
      { b with run := b.run.filter fun x => x.key != key, waiting := keep b.waiting, saves := b.saves.keep fun _ x => x.key != key,
               open_ := keep b.open_ ++ (if r.combine then [] else [r2]) }
    let t := setBramble die b2 s1
    if r.combine then some (finishAcked key (r2.outs.foldl (fun s o => addOut key o s) t))
    else some (abortExperts die key r.live t)

end Sys2Proof.Machine
end

