-- ==== Sys2Proof/Machine/UrtexCtl.lean ====
section
/-! DEFINITION. Branches and jumps: BR, JAL, JALR and BRX (R144, R145, R148, R187–R189). -/

namespace Sys2Proof.Machine

def pcPlus (pc : BitVec 64) (d : Int) : BitVec 64 := BitVec.ofNat 64 (wrap64 ((pc.toNat : Int) + d))

/-! ### Divergence -/

/-- Lanes of a mask that satisfy p. -/
def lanesWhere (mask : Nat) (p : Nat → Bool) : Nat :=
  mergeEls 1 0 (fun _ => true) (fun i => if bit mask i && p i then 1 else 0) 32

/-- The distinct targets of the active lanes with their lanes, by lowest lane. -/
def targetsOf (mask : Nat) (t : Nat → BitVec 64) : List (BitVec 64 × BitVec 32) :=
  ((setBitsOf 32 mask).foldl (fun acc i => if acc.contains (t i) then acc else acc ++ [t i]) []).map fun x =>
    (x, BitVec.ofNat 32 (lanesWhere mask fun i => t i == x))

/-- A conditional branch whose lanes disagree: the trap it takes, if any (R145, R148, R198). -/
def divergeCause (a : Arch) : Option Cause :=
  if a.region then some .matrixDivergent else if a.stack.length ≥ 32 then some .stackOverflow else none

/-- The group splits: the first path runs, the others wait on one new entry (R144). -/
def diverge (at_ : BitVec 64) (first : BitVec 64 × BitVec 32) (others : List (BitVec 64 × BitVec 32)) (a : Arch) : Arch :=
  goTo first.1 { a with stack := { at_ := at_, paths := others, prior := a.mask } :: a.stack, mask := first.2 }

def countDivergent (die : Nat) (s : State) : State := bump (K.groupDivergent + die) 1 s

/-! ### BR -/

def brFieldsOk (w : Nat) (f : BFields) (grp : Bool) : Bool :=
  f.resv == 0 &&
  match f.kind with
  | 0 => f.reconv == 0 && decide (f.cond ≤ 6) && (f.cond != 6 || (f.a == 0 && f.b == 0))
  | 1 => grp && bit w 0 && f.reconv != 0 && decide (f.cond ≤ 5)
  | 2 => grp && bit w 0 && f.reconv != 0 && decide (f.cond ≤ 1)
  | _ => false

def brKinds (f : BFields) : OpKs :=
  match f.kind with
  | 0 => if f.cond = 6 then ⟨.unused, .unused, .unused, .unused⟩ else ⟨.unused, .sc, .sc, .unused⟩
  | 1 => ⟨.unused, .vec, .vec, .unused⟩
  | _ => ⟨.unused, .pred, .unused, .unused⟩

/-- The lanes that take a per-lane branch. -/
def takenLanes (f : BFields) (a : Arch) : Nat :=
  lanesWhere a.mask.toNat fun i =>
    if f.kind = 1 then condHolds f.cond 32 (vLane a f.a i) (vLane a f.b i) else bit (pReg a f.a) i != (f.cond == 1)

/-- A group's branch: uniform, agreed, or divergent. -/
def brGroup (g w : Nat) (f : BFields) (x : Group) (s : State) : Eff :=
  let a := x.arch
  let dest := pcPlus a.pc f.target
  let ctx := launchCtx s (launchKey g)
  if f.kind = 0 then
    if condHolds f.cond 64 (sReg a f.a) (sReg a f.b) then groupDone g x (goTo dest a) s else groupNext g w x a s
  else
    let t := takenLanes f a
    if t = 0 then groupNext g w x a s
    else if t = a.mask.toNat then groupDone g x (goTo dest a) s
    else match divergeCause a with
      | some c => bareTrap c ctx s
      | none =>
        let next := a.pc + BitVec.ofNat 64 (wsize w)
        groupDone g x (diverge (pcPlus a.pc f.reconv) (next, a.mask &&& ~~~(BitVec.ofNat 32 t)) [(dest, BitVec.ofNat 32 t)] a)
          (countDivergent x.die s)

/-- BR (R187, R188). -/
def execBr (who : Agent) (w : Nat) (s : State) : Answer :=
  let f := bFields w
  match who with
  | .medlar c =>
    issueMedlar .br c w (fun m t =>
      withRegs false 0 (brFieldsOk w f false) (brKinds f) 0 f.a f.b 0 (medlarCtx m) t
        (if condHolds f.cond 64 (gReg m f.a) (gReg m f.b) then .done (setMedlar c { m with pc := pcPlus m.pc f.target } t)
         else medlarNext c w m t)) s
  | .group g =>
    issueGroup .br g w (usedRegs (brKinds f) 0 f.a f.b 0 false 0) (if f.kind = 0 then 0 else 1) (fun x t =>
      withRegs true (regsCount (launchRaw t (launchKey g))) (brFieldsOk w f true) (brKinds f) 0 f.a f.b 0
        (launchCtx t (launchKey g)) t (brGroup g w f x t)) s

/-! ### Jumps (R189) -/

/-- JAL: the link address is that of the next instruction. -/
def execJal (who : Agent) (w : Nat) (s : State) : Answer :=
  let d := bits w 7 5
  let off := 4 * signed 20 (bits w 12 20)
  match who with
  | .medlar c =>
    issueMedlar .jal c w (fun m t => .done (setMedlar c { setG d (m.pc.toNat + 4) m with pc := pcPlus m.pc off } t)) s
  | .group g =>
    issueGroup .jal g w [.s d] 0 (fun x t =>
      groupDone g x (goTo (pcPlus x.arch.pc off) (setS d (x.arch.pc.toNat + 4) x.arch)) t) s

def jalrKinds : OpKs := ⟨.sc, .sc, .unused, .unused⟩

def noPred (f : RFields) : Bool := !f.pe && !f.pn && f.preg == 0

/-- JALR: A is read before D is written; a misaligned target traps at the jump. -/
def execJalr (who : Agent) (w : Nat) (s : State) : Answer :=
  let f := iFields w
  let imm := signed 64 f.imm
  match who with
  | .medlar c =>
    issueMedlar .jalr c w (fun m t =>
      withRegs false 0 (noPred f) jalrKinds f.d f.a 0 0 (medlarCtx m) t
        (let dest := wrap64 ((gReg m f.a : Int) + imm)
         if dest % 4 ≠ 0 then bareTrap .misaligned (medlarCtx m) t
         else .done (setMedlar c { setG f.d (m.pc.toNat + 8) m with pc := BitVec.ofNat 64 dest } t))) s
  | .group g =>
    issueGroup .jalr g w (usedRegs jalrKinds f.d f.a 0 0 false 0) 0 (fun x t =>
      withRegs true (regsCount (launchRaw t (launchKey g))) (noPred f) jalrKinds f.d f.a 0 0 (launchCtx t (launchKey g)) t
        (let dest := wrap64 ((sReg x.arch f.a : Int) + imm)
         if dest % 4 ≠ 0 then bareTrap .misaligned (launchCtx t (launchKey g)) t
         else groupDone g x (goTo (BitVec.ofNat 64 dest) (setS f.d (x.arch.pc.toNat + 8) x.arch)) t)) s

def brxKinds : OpKs := ⟨.unused, .pair, .unused, .unused⟩

/-- The active lanes' targets, followed together or one group of lanes after another, the lowest active lane's first.
[DEDUCED, unsafe: assumption 92] -/
def brxGroup (g reconv a0 : Nat) (x : Group) (s : State) : Eff :=
  let a := x.arch
  let ctx := launchCtx s (launchKey g)
  let dest (i : Nat) : BitVec 64 := BitVec.ofNat 64 (vPair a a0 i)
  let ts := targetsOf a.mask.toNat dest
  let bad := ts.any fun t => t.1.toNat % 4 != 0
  match ts with
  | [] => .wait "no lane is active"
  | [t] => if bad then bareTrap .misaligned ctx s else groupDone g x (goTo t.1 a) s
  | t :: rest =>
    match divergeCause a with
    | some c => bareTrap c ctx s
    | none =>
      if bad then bareTrap .misaligned ctx s
      else groupDone g x (diverge (pcPlus a.pc reconv) t rest a) (countDivergent x.die s)

/-- BRX. -/
def execBrx (who : Agent) (w : Nat) (s : State) : Answer :=
  let f := iFields w
  let reconv := 4 * bits w 32 32
  match who with
  | .medlar c => issueMedlar .brx c w (fun m t => bareTrap .illegal (medlarCtx m) t) s
  | .group g =>
    issueGroup .brx g w (usedRegs brxKinds 0 f.a 0 0 false 0) 1 (fun x t =>
      withRegs true (regsCount (launchRaw t (launchKey g))) (noPred f && reconv != 0) brxKinds f.d f.a 0 0
        (launchCtx t (launchKey g)) t (brxGroup g reconv f.a x t)) s

end Sys2Proof.Machine
end

