-- ==== Sys2Proof/Machine/UrtexSys.lean ====
section
/-! DEFINITION. System operations and control registers: NOP, END, TRET, TRAP, CRR and CRW (R194–R196, R200, R201). -/

namespace Sys2Proof.Machine

def sysPlain (w : Nat) : Bool :=
  let f := rFields w
  f.resv == 0 && f.aux == 0 && !f.s && f.a == 0 && f.b == 0 && f.d == 0

/-- NOP. -/
def execNopInstruction (who : Agent) (w : Nat) (s : State) : Answer :=
  match who with
  | .medlar c =>
    issueMedlar .nop c w (fun m t => if sysPlain w then medlarNext c w m t else bareTrap .illegal (medlarCtx m) t) s
  | .group g =>
    issueGroup .nop g w [] 0 (fun x t =>
      if sysPlain w then groupNext g w x x.arch t else bareTrap .illegal (launchCtx t (launchKey g)) t) s

/-! ### END -/

/-- The groups of a launch that still run or wait, on a die. -/
def groupsOn (s : State) (key die : Nat) : List (Nat × Group) :=
  s.grp.groups.cells.filter fun c => launchKey c.1 == key && c.2.die == die

/-- No group of the launch is left on a core, so the core's L1 is invalidated (R152). -/
def leaveCore (key die core : Nat) (s : State) : State :=
  if s.grp.groups.cells.any fun c => launchKey c.1 == key && c.2.die == die && c.2.core == core && c.2.place == .resident then s
  else invalidateL1 (coreKey die core) s

/-- The launch's last group on a die has ended: its pending slot there is freed, and the launch counts (R140, R168). -/
def leaveDie (key die : Nat) (s : State) : State :=
  match s.grp.launches.find key with
  | none => s
  | some l =>
    let more := decide (l.next < l.total) && !l.stopped
    if more || !bit l.slots die || !(groupsOn s key die).isEmpty then s
    else
      bump (K.groupLaunches + die) (if l.cores.any fun k => k / 512 == die then 1 else 0)
        { s with grp := { s.grp with launches := s.grp.launches.put key { l with slots := clearBit l.slots die } } }

/-- Every die is asked again, since the last group of the launch may just have been drawn elsewhere. -/
def leaveDies (key : Nat) (s : State) : State := (List.range 8).foldl (fun t d => leaveDie key d t) s

/-- A group is gone: its rows and local store are freed. -/
def removeGroup (g : Nat) (s : State) : State :=
  match groupOf s g with
  | none => s
  | some x =>
    let t : State := { s with grp := { s.grp with groups := s.grp.groups.del g } }
    leaveDies (launchKey g) (if x.place = .resident then leaveCore (launchKey g) x.die x.core t else t)

def countEnded (key : Nat) (s : State) : State :=
  match s.grp.launches.find key with
  | none => s
  | some l => { s with grp := { s.grp with launches := s.grp.launches.put key { l with ended := l.ended + 1 } } }

/-- END: its loads have returned; writes already issued go on. -/
def execEndGroup (who : Agent) (w : Nat) (s : State) : Answer :=
  match who with
  | .medlar c => issueMedlar .end_ c w (fun m t => bareTrap .illegal (medlarCtx m) t) s
  | .group g =>
    issueGroup .end_ g w [] 0 (fun x t =>
      let ctx := launchCtx t (launchKey g)
      if !sysPlain w then bareTrap .illegal ctx t
      else if x.arch.region then bareTrap .endInRegion ctx t
      else if !x.arch.stack.isEmpty then bareTrap .stackAtEnd ctx t
      else if !x.loads.isEmpty then .wait "a load has not returned"
      else .done (removeGroup g (countEnded (launchKey g) t))) s

/-! ### TRET and TRAP -/

/-- TRET: MODE comes back from PREV_MODE, and a held imprecise report is taken at once in APP mode (R196, R200). -/
def execTret (who : Agent) (w : Nat) (s : State) : Answer :=
  match who with
  | .medlar c =>
    issueMedlar .tret c w (fun m t =>
      if !sysPlain w then bareTrap .illegal (medlarCtx m) t
      else if !m.runtime then bareTrap .privileged (medlarCtx m) t
      else
        let back : Medlar := { m with runtime := m.trapCause.getLsbD 9, pc := m.trapPc }
        match m.held with
        | [] => .done (setMedlar c back t)
        | r :: rest => .done (medlarTrap c r.cause r.va back.pc true (setMedlar c { back with held := rest } t))) s
  | .group g => issueGroup .tret g w [] 0 (fun _ t => bareTrap .illegal (launchCtx t (launchKey g)) t) s

def trapFieldsOk (f : RFields) : Bool := noPred f && f.a == 0 && f.d == 0

/-- TRAP raises SOFTWARE and carries IMM32; a Medlar core's TRAP_PC is the instruction that follows (R194, R196). -/
def execTrap (who : Agent) (w : Nat) (s : State) : Answer :=
  let f := iFields w
  let imm := bits w 32 32
  match who with
  | .medlar c =>
    issueMedlar .trap c w (fun m t =>
      if !trapFieldsOk f then bareTrap .illegal (medlarCtx m) t
      else .done (medlarTrap c .software imm (m.pc + 8#64) false t)) s
  | .group g =>
    issueGroup .trap g w [] 0 (fun _ t =>
      let ctx := launchCtx t (launchKey g)
      if !trapFieldsOk f then bareTrap .illegal ctx t else .trap (plainFault .software imm ctx) t) s

/-! ### Control registers (R195, Table 12) -/

/-- Where IMM32 names a control register, its number. -/
def crNumber (w : Nat) : Option Nat := if bits w 44 20 = 0 then some (bits w 32 12) else none

/-- The bits of a control register that are not reserved. -/
def crMask (n : Nat) : Nat :=
  match n with
  | 0x000 => 7
  | 0x001 => 31
  | 0x101 => 2 ^ 64 - 4
  | 0x103 => 2 ^ 10 - 1
  | 0x105 => 2 ^ 12 - 1
  | _ => 2 ^ 64 - 1

def crExists (grp : Bool) (n : Nat) : Bool := decide (n ≤ 3) || (!grp && decide (0x100 ≤ n) && decide (n ≤ 0x106))

def crReadOnly (n : Nat) : Bool := n == 2 || n == 3 || n == 0x100

/-- A Medlar core reads a control register; BEATS is an open value (R20, R195). [DESIGN CHOICE, safe: assumption 96] -/
def crReadMedlar (c n : Nat) (m : Medlar) (s : State) : Nat × State :=
  match n with
  | 0x000 => (m.fpctl.toNat, s)
  | 0x001 => (m.fpflags.toNat, s)
  | 0x002 => takeFree s
  | 0x003 => (label (dieOfCore c) s, { s with freeN := s.freeN + 1 })
  | 0x100 => (if m.runtime then 1 else 0, s)
  | 0x101 => (m.trapVec.toNat, s)
  | 0x102 => (m.trapPc.toNat, s)
  | 0x103 => (m.trapCause.toNat, s)
  | 0x104 => (m.trapAddr.toNat, s)
  | 0x105 => (m.ctx.toNat, s)
  | _ => (m.scratch.toNat, s)

/-- A group reads a control register; BEATS is an open value (R20, R195). [DESIGN CHOICE, safe: assumption 96] -/
def crReadGroup (x : Group) (n : Nat) (s : State) : Nat × State :=
  match n with
  | 0x000 => (x.arch.fpctl.toNat, s)
  | 0x001 => (x.arch.fpflags.toNat, s)
  | 0x002 => takeFree s
  | _ => (label x.die s, { s with freeN := s.freeN + 1 })

def crKinds (write : Bool) : OpKs := if write then ⟨.unused, .sc, .unused, .unused⟩ else ⟨.sc, .unused, .unused, .unused⟩

/-- CRR. -/
def execCrr (who : Agent) (w : Nat) (s : State) : Answer :=
  let f := iFields w
  let n := (crNumber w).getD 0xFFF
  match who with
  | .medlar c =>
    issueMedlar .crr c w (fun m t =>
      withRegs false 0 (noPred f && crExists false n) (crKinds false) f.d f.a 0 0 (medlarCtx m) t
        (let r := crReadMedlar c n m t; medlarNext c w (setG f.d r.1 m) r.2)) s
  | .group g =>
    issueGroup .crr g w (usedRegs (crKinds false) f.d 0 0 0 false 0) 0 (fun x t =>
      withRegs true (regsCount (launchRaw t (launchKey g))) (noPred f && crExists true n) (crKinds false) f.d f.a 0 0
        (launchCtx t (launchKey g)) t
        (let r := crReadGroup x n t; groupNext g w x (setS f.d r.1 x.arch) r.2)) s

/-- A Medlar core writes a control register. -/
def crWriteMedlar (n v : Nat) (m : Medlar) : Medlar :=
  let x := BitVec.ofNat 64 (v &&& crMask n)
  match n with
  | 0x000 => { m with fpctl := x }
  | 0x001 => { m with fpflags := x }
  | 0x101 => { m with trapVec := x }
  | 0x102 => { m with trapPc := x }
  | 0x103 => { m with trapCause := x }
  | 0x104 => { m with trapAddr := x }
  | 0x105 => { m with ctx := x }
  | _ => { m with scratch := x }

/-- CRW: PRIVILEGED in APP mode for any register but FPCTL, FPFLAGS and SCRATCH. -/
def execCrw (who : Agent) (w : Nat) (s : State) : Answer :=
  let f := iFields w
  let n := (crNumber w).getD 0xFFF
  match who with
  | .medlar c =>
    issueMedlar .crw c w (fun m t =>
      withRegs false 0 (noPred f && crExists false n && !crReadOnly n) (crKinds true) f.d f.a 0 0 (medlarCtx m) t
        (if !m.runtime && !(n == 0 || n == 1 || n == 0x106) then bareTrap .privileged (medlarCtx m) t
         else medlarNext c w (crWriteMedlar n (gReg m f.a) m) t)) s
  | .group g =>
    issueGroup .crw g w (usedRegs (crKinds true) 0 f.a 0 0 false 0) 0 (fun x t =>
      withRegs true (regsCount (launchRaw t (launchKey g))) (noPred f && crExists true n && !crReadOnly n) (crKinds true)
        f.d f.a 0 0 (launchCtx t (launchKey g)) t
        (let v := BitVec.ofNat 64 (sReg x.arch f.a &&& crMask n)
         groupNext g w x (if n = 0 then { x.arch with fpctl := v } else { x.arch with fpflags := v }) t)) s

end Sys2Proof.Machine
end

