-- ==== Sys2Proof/Machine/Group.lean ====
section
/-! DEFINITION. Launches of groups: checks, starts, switching out and in, completion and abort (R135–R143, R162–R166). -/

namespace Sys2Proof.Machine

/-! ### Launch descriptors (R136, R137) -/

def launchGroups (raw : Nat) : Nat := fld raw 24 4 * fld raw 28 2 * fld raw 30 2
def launchDies (raw : Nat) : Nat := fld raw 35 1

def launchOk (raw : Nat) : Bool :=
  let code := fld raw 16 8
  let regs := regsCount raw
  decide (code < 2 ^ 48) && code % 4 == 0 &&
  decide (1 ≤ fld raw 24 4) && decide (fld raw 24 4 ≤ 2 ^ 24) && decide (1 ≤ fld raw 28 2) && decide (1 ≤ fld raw 30 2) &&
  decide (launchGroups raw ≤ 2 ^ 32 - 1) &&
  decide (16 ≤ regs) && decide (regs ≤ 256) && regs % 8 == 0 &&
  decide (fld raw 34 1 < 4) && launchDies raw != 0 &&
  localBytes raw % 1024 == 0 && decide (localBytes raw ≤ splitLocal (launchSplit raw)) &&
  decide (bits (launchCtl raw) 4 3 ≤ 4) && bits (launchCtl raw) 7 25 == 0 && fld raw 44 4 != 0 && zeros raw 48 127

def setLaunch (key : Nat) (l : Launch) (s : State) : State :=
  { s with grp := { s.grp with launches := s.grp.launches.put key l } }

/-- Pending-launch slots held on a die (R140). -/
def slotsHeld (s : State) (die : Nat) : Nat := (s.grp.launches.cells.filter fun c => bit c.2.slots die).length

/-- GROUP_LAUNCH (R137, R140): staged, checked, and given its pending slots, or held while a die has none. -/
def execGroupLaunch (q seq : Nat) (s : State) : Answer :=
  match handed s q seq 0x02 with
  | none => stuck "no such command is handed over"
  | some j =>
    let key := jobKey q seq
    let st := stageDesc q seq 10 j s
    match st.1 with
    | .held => waitAnswer "the descriptor has not come" st.2 s
    | .refused o => .next (refuseJob key o st.2.st)
    | .faulted f => .next (refuseJob key (causeStatus f.cause) st.2.st)
    | .desc d =>
      if !launchOk d then .next (refuseJob key .descriptorInvalid st.2.st)
      else
        let dies := setBitsOf 8 (launchDies d)
        match dies.filter fun n => decide (slotsHeld s n ≥ 64) with
        | full :: more =>
          let new := (full :: more).filter fun n => !bit j.counted n
          if new.isEmpty then stuck "the launch is held by a die's slots"
          else .next (new.foldl (fun t n => bump (K.groupLaunchStalls + n) 1 t)
            (setJob key { j with phase := .blocked, staged := true, raw := d, outs := j.outs ++ st.2.outs
                                 counted := new.foldl (fun m n => setBit m n) j.counted } st.2.st))
        | [] =>
          let l : Launch := { raw := d, ctx := j.ctx, next := 0, total := launchGroups d, ended := 0, byHandler := 0,
                              firstEnd := none, slots := launchDies d, stopped := false, aborted := false, corrected := false,
                              failed := [], cores := [] }
          .next (dies.foldl (fun t n => offerWork n (.group key) (launchPriority d) t)
            (setLaunch key l (runJob key (uClose st.2))))

/-! ### Starting a group (R139, R141–R143) -/

/-- Lane indices 0–31. -/
def laneIndices : BitVec 1024 := BitVec.ofNat 1024 (mergeEls 32 0 (fun _ => true) id 32)

/-- The start state of group i of a launch (Table 5). -/
def startArch (raw die core i : Nat) : Arch :=
  let gx := fld raw 24 4
  let gy := fld raw 28 2
  let s0 : Tab (BitVec 64) := (List.range 16).foldl (fun t k => t.set 0#64 k (BitVec.ofNat 64 (fld raw (128 + 8 * k) 8))) ⟨[]⟩
  let put (k x : Nat) (t : Tab (BitVec 64)) : Tab (BitVec 64) := t.set 0#64 k (BitVec.ofNat 64 x)
  { pc := BitVec.ofNat 64 (fld raw 16 8)
    v := Tab.set ⟨[]⟩ 0#1024 0 laneIndices
    s := s0 |> put 16 (i % gx) |> put 17 (i / gx % gy) |> put 18 (i / (gx * gy)) |> put 19 i |> put 20 (coreKey die core)
    p := Tab.set ⟨[]⟩ 0#32 0 (BitVec.allOnes 32)
    mask := BitVec.allOnes 32, stack := [], region := false
    fpctl := BitVec.ofNat 64 (bits (launchCtl raw) 4 3), fpflags := 0#64, localMem := ⟨[]⟩, mma := [] }

/-- A core takes a group: an empty core takes its split, and a core new to the launch invalidates its L1 (R142, R152). -/
def enterCore (key raw die core : Nat) (s : State) : State :=
  let k := coreKey die core
  let here := residents s die core
  let t := if here.isEmpty then setGCore k { gcoreOf s k with split := launchSplit raw } s else s
  let u := if here.any fun c => launchKey c.1 == key then t else invalidateL1 k t
  match u.grp.launches.find key with
  | some l => if l.cores.contains k then u else setLaunch key { l with cores := l.cores ++ [k] } u
  | none => u

/-- GROUP_START (R141): the die's dispatcher draws the next index of the launch whose start its station granted first, and
starts the group on a core with room. -/
def execGroupStart (die core : Nat) (s : State) : Answer :=
  if !dieUp s die || die ≥ 8 then stuck "no such die runs"
  else
    let x := stationOf s die
    match x.starts with
    | [] => stuck "no group start is granted"
    | key :: rest =>
      match s.grp.launches.find key with
      | none => .next (setStation die { x with starts := rest } s)
      | some l =>
        if l.stopped || l.next ≥ l.total then .next (setStation die { x with starts := rest } s)
        else if coreRoom s die core l.raw then
          let g : Group := { launch := key, index := l.next, die := die, core := core, place := .resident,
                             arch := startArch l.raw die core l.next, loads := [], sysWait := none, abandoned := [],
                             faults := [], held := false, cause := none }
          let t := enterCore key l.raw die core (setStation die { x with starts := rest, noRoom := false } s)
          let l2 := (t.grp.launches.find key).getD l
          .next (leaveDies key (bump (K.groupStarted + die) 1
            (setGroup (key * 2 ^ 32 + l.next) g (setLaunch key { l2 with next := l.next + 1 } t))))
        else if dieRoom s die l.raw then stuck "the core has no room"
        else if x.noRoom then stuck "no core has room"
        else .next (bump (K.groupNoRoom + die) 1 (setStation die { x with noRoom := true } s))

/-! ### Switching out and in (R162, R163) -/

def placeSlot (p : GPlace) : Option Nat := match p with
  | .saved n => some n
  | .runnable n => some n
  | .resident => none

/-- Save slots in use on a die. -/
def groupSlots (s : State) (die : Nat) : List Nat :=
  s.grp.groups.cells.filterMap fun c => if c.2.die = die then placeSlot c.2.place else none

def groupRecord (g slot : Nat) (x : Group) (f : FaultInfo) : FaultRec :=
  { taskRecord 1 x.die slot (launchKey g) x.arch.pc.toNat f with groupIndex := x.index }

/-- A faulted group cannot be switched out yet; the hold counts once. -/
def holdGroup (g counter : Nat) (x : Group) (s : State) : Answer :=
  if x.held then stuck "the group stays in place" else .next (bump counter 1 (setGroup g { x with held := true } s))

/-- GROUP_SWITCH_OUT (R162, R200): once its loads and matrix results are in, the group is saved and its records enter the
fault queue in the order of its fault arbiter. -/
def execGroupSwitchOut (g : Nat) (s : State) : Answer :=
  match groupOf s g with
  | none => stuck "no such group"
  | some x =>
    if x.faults.isEmpty || x.place != .resident then stuck "the group has not faulted"
    else if !x.loads.isEmpty || !x.arch.mma.isEmpty then stuck "an instruction of the group is in flight"
    else if x.sysWait.isSome then stuck "a group that waits on FENCE.SYS stays resident"
    else if faultListFull x.faults.length s then holdGroup g K.faultListStalls x s
    else
      match pickSlot 256 (groupSlots s x.die) s with
      | (none, _) => holdGroup g (K.groupSaveStalls + x.die) x s
      | (some n, t) =>
        .next (x.faults.foldl (fun u f => addFault (groupRecord g n x f) u)
          (setGroup g { x with place := .saved n, faults := [], held := false, cause := x.faults.head?.map (·.cause) } t))

/-- GROUP_RESUME (R163): a group the handler has resumed restarts on a core of its die with room, at the faulting
instruction. -/
def execGroupResume (g core : Nat) (s : State) : Answer :=
  match groupOf s g with
  | none => stuck "no such group"
  | some x =>
    match x.place with
    | .runnable _ =>
      let raw := launchRaw s (launchKey g)
      if !coreRoom s x.die core raw then stuck "the core has no room"
      else
        let t := invalidateL1 (coreKey x.die core) (enterCore (launchKey g) raw x.die core s)
        .next (setGroup g { x with place := .resident, core := core, cause := none } t)
    | _ => stuck "the group is not runnable"

/-! ### Completion and abort (R164, R165) -/

/-- Writes of a launch's groups that are not acknowledged. -/
def launchWrites (s : State) (key : Nat) : Bool :=
  s.reqs.cells.any fun c => match c.2.src with
    | .group g => launchKey g == key && c.2.kind.writes
    | .medlar _ => false

/-- The status of a finished launch (R164, R165, R468): staged are the outcomes that the read of its descriptor met. -/
def launchStatus (l : Launch) (staged : List Status) : Status :=
  if l.aborted then .aborted
  else match l.firstEnd with
    | some o => o
    | none => statusOf (staged ++ l.failed ++ (if l.corrected then [.doneCorrected] else []))

/-- LAUNCH_COMPLETE (R164, R165): every group has ended and every write is acknowledged; the L1s are invalidated. -/
def execLaunchComplete (q seq : Nat) (s : State) : Answer :=
  let key := jobKey q seq
  match s.grp.launches.find key with
  | none => stuck "no such launch"
  | some l =>
    if !l.stopped && decide (l.next < l.total) then stuck "groups are still to start"
    else if s.grp.groups.cells.any fun c => launchKey c.1 == key then stuck "a group has not ended"
    else if launchWrites s key then stuck "a write is not acknowledged"
    else
      let t := l.cores.foldl (fun u k => invalidateL1 k u) s
      let u := (List.range 8).foldl (fun v d => dropWork (· == .group key) d v) t
      let v : State := { u with grp := { u.grp with launches := u.grp.launches.del key } }
      let staged := match s.jobs.find key with | some j => j.outs | none => []
      .next (finishWith key (launchStatus l staged) (setDetail key (l.ended % 2 ^ 32 + l.byHandler % 2 ^ 32 * 2 ^ 32) v))

/-- The launch starts nothing more: its offers and undrawn starts are gone. -/
def stopLaunch (key : Nat) (s : State) : State :=
  let t := match s.grp.launches.find key with
    | some l => setLaunch key { l with stopped := true } s
    | none => s
  (List.range 8).foldl (fun u d =>
    let v := dropWork (· == .group key) d u
    setStation d { stationOf v d with starts := (stationOf v d).starts.filter (· != key) } v) t

/-- The handler ends a switched-out group (R164, R331). -/
def endGroupBy (g : Nat) (cause : Cause) (s : State) : State :=
  let key := launchKey g
  let t := match s.grp.launches.find key with
    | some l => setLaunch key { l with byHandler := l.byHandler + 1
                                       firstEnd := some (l.firstEnd.getD (causeStatus cause)) } s
    | none => s
  removeGroup g (leaveDies key (stopLaunch key t))

/-- An ABORT of a running launch (R165): its groups are discarded where they stand. -/
def abortLaunch (key : Nat) (s : State) : State :=
  let mine := s.grp.groups.cells.filter fun c => launchKey c.1 == key
  let t := stopLaunch key s
  let u := match t.grp.launches.find key with
    | some l => setLaunch key { l with aborted := true, byHandler := l.byHandler + mine.length } t
    | none => t
  leaveDies key (mine.foldl (fun v c =>
    let w := match placeSlot c.2.place with
      | some n => markEnded (n + c.2.die * 2 ^ 8 + 2 ^ 12) v
      | none => v
    removeGroup c.1 w) u)

end Sys2Proof.Machine
end

