-- ==== Sys2Proof/Machine/Translation.lean ====
section
/-! DEFINITION. The commands of addressing and protection: tables, claims, imports and SEG_UPDATE (R234, R263–R295). -/

namespace Sys2Proof.Machine

/-! ### Lines that may hold anything but zeros -/

def insertNew (x : Nat) (l : List Nat) : List Nat := if l.contains x then l else l ++ [x]

/-- Line numbers from lo up to but not including hi that the memory, a Bench, a buffer or a queue lists.
[DEDUCED, safe: assumption 100] -/
def linesListed (s : State) (lo hi : Nat) : List Nat :=
  let inR (l : Nat) : Bool := decide (lo ≤ l) && decide (l < hi)
  let all := s.mem.hbm.map (fun c => c.1 / 128) ++ s.mem.bench.cells.map Prod.fst ++ s.coh.dir.cells.map Prod.fst ++
    (s.mem.spoil.cells.map fun c => c.2.map Prod.fst).flatten ++
    (s.mem.sched.cells.map fun c => c.2.map HbmReq.line).flatten ++
    (s.mem.ctls.cells.map fun c => c.2.wcb.map WcbEntry.line).flatten ++ s.mem.hbmPoison ++
    s.mem.errSyms.cells.map fun c => c.1 / 2
  all.foldl (fun acc l => if inR l then insertNew l acc else acc) []

/-- Lines whose zero-map bit is set, found in the zero-map lines that are listed (R237). -/
def zmapSetLines (s : State) : List Nat :=
  ((linesListed s 0 (2 ^ 31 / 128)).map fun zl =>
    let d := match heldLine s zl with | some b => b.data | none => hbmView s zl
    (setBitsOf 1024 d.toNat).map fun i =>
      let n := 1024 * zl + i
      unplace s (n / 2 ^ 24) (128 * (n % 2 ^ 24)) / 128).flatten

def inRanges (l : Nat) (rs : List (Nat × Nat)) : Bool := rs.any fun r => decide (r.1 ≤ l) && decide (l < r.2)

/-- What holds a line of the ranges forgets that it came through a tracked segment. -/
def untrack (rs : List (Nat × Nat)) (s : State) : State :=
  let line (l : Nat) (b : BLine) : BLine := if inRanges l rs then { b with tracked := false } else b
  { s with mem := { s.mem with
             bench := s.mem.bench.map line
             spoil := s.mem.spoil.map fun _ q => q.map fun p => (p.1, line p.1 p.2)
             tags := s.mem.tags.map fun l t => if inRanges l rs then { t with tracked := false } else t }
           coh := { s.coh with dir := s.coh.dir.map fun l e => if inRanges l rs then { e with tracked := false } else e } }

/-- Each withdrawn line whose bit is set: zeros are written to HBM, in place of what its write-combining entry holds, and the
bit is cleared (R113). -/
def materialise (rs : List (Nat × Nat)) (s : State) : State :=
  if rs.isEmpty then s
  else ((zmapSetLines s).filter fun l => inRanges l rs).foldl (fun t l =>
    noteWrite l (zmapSet l false (writeBackFull l 0#1024 false t))) (untrack rs s)

/-- The physical lines a segment tracks: first, and one past the last. -/
def trackedLines (valid : Bool) (r : Nat) : List (Nat × Nat) :=
  if valid && segValid r && segTracked r && segType r == 0 then
    [(bits (segPbase r) 0 42 / 128, (bits (segPbase r) 0 42 + segBytes r) / 128)]
  else []

/-- What one range leaves when another is taken away. -/
def minusRange (a b : Nat × Nat) : List (Nat × Nat) :=
  let lo : Nat × Nat := (a.1, min a.2 b.1)
  let hi : Nat × Nat := (max a.1 b.2, a.2)
  (if lo.1 < lo.2 then [lo] else []) ++ (if hi.1 < hi.2 then [hi] else [])

/-- Lines that the old segment tracked and the new one does not (R113). -/
def withdrawnBy (old new : List (Nat × Nat)) : List (Nat × Nat) :=
  match new with
  | [] => old
  | n :: _ => (old.map fun o => minusRange o n).flatten

/-! ### Requests that carry an old generation or epoch -/

def oldXl (s : State) (c sg : Nat) (x : Xl) : Bool :=
  x.ctx == c && (x.seg == sg || sg == 255) && (x.gen != (segOf s x.ctx x.seg).gen)

/-- Some access that satisfies p is still anywhere in the package (R291). -/
def anyAccess (s : State) (p : Xl → Bool) : Bool :=
  s.reqs.cells.any (fun c => p c.2.xl) ||
  s.coh.msgs.any (fun m => match m with | .req _ _ _ x _ _ _ => p x | _ => false) ||
  s.medlars.cells.any fun c =>
    c.2.sb.any (fun e => p e.xl) || c.2.comb.any (fun e => p e.xl) || c.2.waiting.any (fun w => p w.xl) ||
    c.2.posted.any (fun w => p w.xl) || c.2.loads.any fun l => l.parts.any fun w => p w.xl

/-! ### LOCAL_GIB, tables (R234, R273, R274) -/

/-- R234: accepted only before the first TABLE_LOAD, 0–240 in steps of 16. -/
def actLocalGib (v : Nat) (s : State) : WriteResult :=
  if s.xlat.installed.isSome then (7, s) else ranged (decide (v ≤ 240) && v % 16 == 0) K.localGib v s

def execLocalGib (src v : Nat) (s : State) : Answer :=
  outside s (commitScalar src K.localGib v actLocalGib s).2

/-- Some command queue is not CLOSED (assumption 41). [DEDUCED, safe: assumption 41] -/
def queueOpenAny (s : State) : Bool := s.queues.cells.any fun c => c.2.st != .closed

/-- The context entries of a listed table line, eight to a line (R268). [DEDUCED, unsafe: assumption 29] -/
def loadCtxLine (base l : Nat) (a : Tab CtxEntry × State) : Tab CtxEntry × State :=
  let r := fwReadLine (128 * l) 128 a.2
  let d := if r.2.1 then 0 else r.1
  ((List.range 8).foldl (fun t i =>
    let c := (128 * l - base) / 16 + i
    t.set CtxEntry.none c (ctxDecode c (fld d (16 * i) 16))) a.1, r.2.2)

/-- One segment of a table: it passes Table 7 and meets no lower segment that passed (R273). -/
def loadSeg (c i raw : Nat) (s : State) (a : Tab Seg × Nat × Option Nat) : Tab Seg × Nat × Option Nat :=
  let raw0 := setBits raw 16 16 0
  if !segValid raw then (a.1.set { raw := 0, gen := 0 } (16 * c + i) { raw := raw0, gen := 0 }, a.2)
  else
    let clash := (List.range i).any fun k =>
      segOverlap raw (a.1.get { raw := 0, gen := 0 } (16 * c + k)).raw
    if segChecks s raw0 && !clash then (a.1.put (16 * c + i) { raw := raw0, gen := 0 }, a.2)
    else (a.1.put (16 * c + i) { raw := clearBit raw0 0, gen := 0 }, a.2.1 + 1,
          match a.2.2 with | some f => some f | none => some (16 * c + i))

/-- The segments of a listed table line, four to a line, in ascending order (R269, R273). [DEDUCED, unsafe: assumption 29] -/
def loadSegLine (base l : Nat) (a : (Tab Seg × Nat × Option Nat) × State) : (Tab Seg × Nat × Option Nat) × State :=
  let r := fwReadLine (128 * l) 128 a.2
  let d := if r.2.1 then 0 else r.1
  ((List.range 4).foldl (fun t i =>
    let k := (128 * l - base) / 32 + i
    loadSeg (k / 16) (k % 16) (fld d (32 * i) 32) a.2 t) a.1, r.2.2)

def sortedLines (l : List Nat) : List Nat := (l.foldl (fun (t : Tab Unit) x => t.put x ()) ⟨[]⟩).cells.map Prod.fst

/-- A segment as the installed table holds it, its GEN in place (R269). -/
def segStored (g : Seg) : Nat := setBits g.raw 16 16 g.gen

def ctxStored (c : CtxEntry) : Nat :=
  (if c.valid then 1 else 0) + (if c.admin then 2 else 0) + (if c.dict then 4 else 0) + c.domain * 256 + c.partition * 65536

/-- TABLE_LOAD installs both tables (R273). The load completes in a later step, together with a load before it that is still
draining. -/
def actTableLoad (v : Nat) (s : State) : WriteResult :=
  if v = 0 then (0, s)
  else if queueOpenAny s || isLocked s 1 then (7, s)
  else
    let cb := dv s K.ctxTableBase
    let sb := dv s K.segTableBase
    let cs := (sortedLines (linesListed s (cb / 128) (cb / 128 + 512))).foldl (fun a l => loadCtxLine cb l a) (⟨[]⟩, s)
    let ctx0 := match cs.1.find 0 with | some e => e | none => ctxDecode 0 0
    let ss := (sortedLines (linesListed s (sb / 128) (sb / 128 + 16384))).foldl (fun a l => loadSegLine sb l a)
      ((⟨[]⟩, 0, none), cs.2)
    let ctxs := cs.1.put 0 ctx0
    let segs := ss.1.1
    let lost := (s.xlat.segs.cells.map fun c =>
      let ov := (ctxOf s (c.1 / 16)).valid
      let nv := (ctxs.get CtxEntry.none (c.1 / 16)).valid
      withdrawnBy (trackedLines ov c.2.raw) (trackedLines nv (segs.get { raw := 0, gen := 0 } c.1).raw)).flatten
    let status := match ss.1.2.2 with
      | some f => bits ss.1.2.1 0 16 + (f / 16) * 2 ^ 16 + (f % 16) * 2 ^ 28
      | none => 0
    let t := ss.2
    let u := segs.cells.foldl (fun x c => fwWrite 3 (sb + 32 * c.1) 32 (segStored c.2) x) t
    let w := fwWrite 3 cb 16 (ctxStored ctx0) u
    (0, { w with xlat := { w.xlat with
            ctxs := ctxs, segs := segs, installed := some (cb, sb)
            epoch := if s.xlat.installed.isSome then s.xlat.epoch + 1 else s.xlat.epoch
            loading := some (status, (match s.xlat.loading with | some l => l.2 | none => []) ++ lost) } })

def execTableLoad (src v : Nat) (s : State) : Answer :=
  outside s (commitScalar src K.tableLoad v actTableLoad s).2

/-- TABLE_LOAD_COMPLETE (R273, R291): no request of an earlier epoch remains, withdrawn lines are materialised, and
TABLE_LOAD_STATUS is written. -/
def execTableLoadComplete (s : State) : Answer :=
  match s.xlat.loading with
  | none => stuck "no table load is running"
  | some (status, lost) =>
    if anyAccess s fun x => x.epoch != s.xlat.epoch then stuck "requests of an earlier epoch remain"
    else
      let t := setDv K.tableLoadStatus status (materialise lost s)
      .next { t with xlat := { t.xlat with loading := none } }

/-- Two ranges of the firmware region meet. -/
def rangesMeet (a an b bn : Nat) : Bool := decide (a < b + bn) && decide (b < a + an)

/-- R274, R295: a base is accepted only with no queue open. -/
def actTableBase (key v : Nat) (s : State) : WriteResult :=
  if queueOpenAny s then (7, s)
  else if key = K.ctxTableBase then ranged (v % 65536 == 0 && inFirmware v 65536) key v s
  else ranged (v % 2 ^ 21 == 0 && inFirmware v (2 ^ 21) && !rangesMeet v (2 ^ 21) (dv s K.ctxTableBase) 65536) key v s

def execTableBaseWrite (src sub v : Nat) (s : State) : Answer :=
  let key := if sub = 0 then K.ctxTableBase else K.segTableBase
  outside s (commitScalar src key v (actTableBase key) s).2

/-! ### Claims (R275–R277) -/

/-- CLAIM_ASSIGN (R277): a retag, after an erase when ERASE is set. -/
def actClaimAssign (v : Nat) (s : State) : WriteResult :=
  let claim := bits v 0 15
  let dom := bits v 16 8
  if s.xlat.erasing.isSome then (7, s)
  else if claim < 64 then (3, s)
  else
    let t := setDv K.claimAssign v s
    if bit v 31 then
      let u := setClaimTag claim 0 t
      (0, { u with xlat := { u.xlat with erasing := some (claim, dom) } })
    else (0, setClaimTag claim dom t)

def execClaimAssign (src v : Nat) (s : State) : Answer :=
  outside s (commitScalar src K.claimAssign v actClaimAssign s).2

/-- CLAIM_ERASE_DONE (R277): every line of the claim holds zeros, its zero-map bits are clear, and the new tag applies. -/
def execClaimEraseDone (s : State) : Answer :=
  match s.xlat.erasing with
  | none => stuck "no erase is running"
  | some (claim, dom) =>
    let lo := claimBase s claim / 128
    let hi := lo + 2 ^ 26 / 128
    let t := (linesListed s lo hi).foldl (fun u l =>
      storeLine l false 0#1024 (BitVec.allOnes 128) false (beforeWrite l u)) s
    let w := ((zmapSetLines t).filter fun l => decide (lo ≤ l) && decide (l < hi)).foldl (fun u l => zmapSet l false u) t
    let x := setClaimTag claim dom w
    .next { x with xlat := { x.xlat with erasing := none } }

/-! ### Peers and front-ends that ask (R280, R285) -/

/-- The import entry of a connection context (R280, Table 6). -/
def importEntry (s : State) (conn : Nat) : Nat :=
  (List.range 4).foldl (fun a i => a + blobByte s (K.importTable + conn / 1024) (4 * (conn % 1024) + i) * 2 ^ (8 * i)) 0

/-- Whether the target performs a peer request (R280). [DEDUCED, unsafe: assumption 101] -/
def peerAllowed (s : State) (conn : Nat) (p : PeerReq) : Bool :=
  let e := importEntry s conn
  let local_ := bits e 16 8
  bit e 0 && local_ != 0 && bits e 8 8 == p.domain && decide (1 ≤ p.len) && decide (p.offset % 4096 + p.len ≤ 4096) &&
  (match regionOf s p.offset, regionOf s (p.offset + p.len - 1) with | some a, some b => a == b | _, _ => false) &&
  domainOk s local_ p.offset (match p.kind with | .read => false | _ => true)

/-- The lines an access of n bytes at off touches: offset and bytes of each part. -/
def lineParts (off n : Nat) : Nat → List (Nat × Nat)
  | 0 => []
  | fuel + 1 =>
    if n = 0 then []
    else
      let k := min n (128 - off % 128)
      (off, k) :: lineParts (off + k) (n - k) fuel

/-- What a peer's request carries at its target: the connection's local domain and its partition, and no zero map (R280).
[DEDUCED, unsafe: assumption 101] -/
def peerXl (s : State) (conn : Nat) (p : PeerReq) : Xl :=
  let e := importEntry s conn
  { ctx := 0, seg := 0, gen := 0, epoch := s.xlat.epoch, domain := bits e 16 8, partition := bits e 24 4, tracked := false,
    region := 0, target := .memory p.offset }

/-- A peer's read at its target, line by line. [DEDUCED, unsafe: assumption 101] -/
def peerRead (x : Xl) (p : PeerReq) (u : UStep) : (List Byte × Bool) × UStep :=
  (lineParts p.offset p.len 40).foldl (fun a q =>
    if a.2.held then a
    else
      let r := homeRead x q.1 q.2 a.2
      ((a.1.1 ++ toBytes q.2 r.1.val, a.1.2 || r.1.poison), r.2)) (([], false), u)

/-- A peer's write or reduce-write at its target, line by line. -/
def peerWrite (x : Xl) (p : PeerReq) (u : UStep) : UStep :=
  ((lineParts p.offset p.len 40).foldl (fun (a : Nat × UStep) q =>
    let d : Line := BitVec.ofNat 1024 (bits a.1 0 (8 * q.2) * 2 ^ (8 * (q.1 % 128)))
    let m := spanMask (q.1 % 128) q.2
    (a.1 / 2 ^ (8 * q.2),
     if a.2.held then a.2
     else match p.kind with
      | .reduce op w => homeReduce x q.1 op w d m a.2
      | _ => homeStore x q.1 d m false a.2)) (ofBytes p.bytes, u)).2

/-- The Device-strict transaction before this one on its connection has been performed (R216, R357).
[PRESUMED, unsafe: assumption 62] -/
def strictTurn (k : Conn) (p : PeerReq) : Bool := match p.after with
  | some n => k.performed.contains n
  | none => true

/-- PEER_REQUEST (R280, R357): an arriving transaction is checked against its connection's import entry, and performed at
most once or refused. [PRESUMED, unsafe: assumption 62] -/
def execPeerRequest (conn : Nat) (p : PeerReq) (s : State) : Answer :=
  let k := connOf s conn
  let answer (u : UStep) (poison : Bool) (bytes : List Byte) : Answer :=
    if u.held then waitAnswer "the request waits at its home" u s
    else
      let t := dropArrived u.owner u.st
      let k2 := connOf t conn
      .next (send (.peerReply conn p.seqNo false poison bytes)
        (setConn conn { k2 with performed := p.seqNo :: (k2.performed.filter (· != p.seqNo)).take 8191 } t))
  if !alive s then .next s
  else if connMode k ≠ 1 ∨ k.st ≠ 1 ∨ !peerAllowed s conn p then
    .next (s |> bump K.peerRefusedIn 1 |> sumErr 6 |> send (.peerReply conn p.seqNo true false []))
  else if !(lineParts p.offset p.len 40).all fun q => routesOpen s 10 (homeDie s (q.1 / 128)) then
    stuck "the request is held on a stalled link"
  else if !strictTurn k p then stuck "an earlier Device-strict transaction has not been performed"
  else
    let u0 : UStep := { UStep.start 0 0 10 s with owner := .peer conn p.seqNo }
    match p.kind with
    | .read =>
      let r := peerRead (peerXl s conn p) p u0
      answer r.2 r.1.2 r.1.1
    | _ =>
      if k.performed.contains p.seqNo then .next (send (.peerReply conn p.seqNo false false []) s)
      else answer (peerWrite (peerXl s conn p) p u0) false []

/-- FE_INBOUND_RDMA (R285, R469): answered with a remote access error, not performed, counted; on a connection context that
is unused or in error, discarded and counted. -/
def execFeInboundRdma (conn : Nat) (s : State) : Answer :=
  let k := connOf s conn
  let t := bump K.feInboundRefused 1 s
  outside s (if connMode k = 2 ∧ k.st = 1 then send (.roceAccessError conn) t else t)

/-! ### SEG_UPDATE (R286–R294) -/

/-- The update's own fields are well formed (Table 8, R6). -/
def segUpdateForm (d : Nat) : Bool :=
  let sg := fld d 18 1
  bits (fld d 16 2) 12 4 == 0 && (decide (sg ≤ 15) || sg == 255) && zeros d 19 31 && zeros d 64 255

/-- The refusals of R287: the issuer, the domains, the connection's recorded domain. -/
def segUpdateDenied (s : State) (issuer : Nat) (d : Nat) : Bool :=
  let i := ctxOf s issuer
  let c := bits (fld d 16 2) 0 12
  let sg := fld d 18 1
  let cur := ctxOf s c
  let new := fld d 32 32
  let newDom := if sg = 255 then (ctxDecode c new).domain else cur.domain
  !i.admin || (c == 0 && i.domain != 0) || (i.domain != 0 && (cur.domain != i.domain || newDom != i.domain)) ||
  (sg != 255 && segValid new && (segType new == 1 || segType new == 2) && connDomain (connOf s (segConn new)) != cur.domain)

/-- Table 7 for the new descriptor, the overlap with the context's other segments included; a context entry's reserved
fields (R268, R288). -/
def segUpdateOk (s : State) (d : Nat) : Bool :=
  let c := bits (fld d 16 2) 0 12
  let sg := fld d 18 1
  let new := setBits (fld d 32 32) 16 16 0
  if sg = 255 then
    let e := fld d 32 32
    bits e 3 5 == 0 && bits e 20 236 == 0
  else
    segChecks s new &&
    !((List.range 16).any fun k => k != sg && segOverlap new (segOf s c k).raw)

def setSeg (k : Nat) (g : Seg) (s : State) : State :=
  let t : State := { s with xlat := { s.xlat with segs := s.xlat.segs.put k g } }
  match s.xlat.installed with
  | some (_, sb) => fwWrite 3 (sb + 32 * k) 32 (segStored g) t
  | none => t

def setCtx (c : Nat) (e : CtxEntry) (s : State) : State :=
  let t : State := { s with xlat := { s.xlat with ctxs := s.xlat.ctxs.set CtxEntry.none c e } }
  match s.xlat.installed with
  | some (cb, _) => fwWrite 2 (cb + 16 * c) 16 (ctxStored e) t
  | none => t

def raised (g : Seg) : Seg := { g with gen := (g.gen + 1) % 65536 }

/-- The translation controller grants the update: it writes the new descriptor or entry with the raised GEN (R289). -/
def grantUpdate (key d : Nat) (s : State) : State :=
  let c := bits (fld d 16 2) 0 12
  let sg := fld d 18 1
  let cur := ctxOf s c
  if sg = 255 then
    let e := ctxDecode c (fld d 32 16)
    let live := (List.range 16).filter fun k => segValid (segOf s c k).raw
    let lost := if cur.valid && !e.valid then (live.map fun k => trackedLines true (segOf s c k).raw).flatten else []
    let u : SegUpd := { key := key, ctx := c, seg := 255, granted := 0#65, withdrawn := lost, oldCtx := cur,
                        oldSegs := live.map fun k => (16 * c + k, segOf s c k) }
    let t := live.foldl (fun x k => setSeg (16 * c + k) (raised (segOf s c k)) x) (setCtx c e s)
    let det := live.foldl (fun a k => a + 2 ^ k) 0
    setDetail key det { t with xlat := { t.xlat with updates := t.xlat.updates ++ [u] } }
  else
    let old := segOf s c sg
    let new : Seg := raised { raw := setBits (fld d 32 32) 16 16 0, gen := old.gen }
    let lost := withdrawnBy (trackedLines cur.valid old.raw) (trackedLines cur.valid new.raw)
    let u : SegUpd := { key := key, ctx := c, seg := sg, granted := 0#65, withdrawn := lost, oldCtx := cur,
                        oldSegs := [(16 * c + sg, old)] }
    let t := setSeg (16 * c + sg) new s
    setDetail key new.gen { t with xlat := { t.xlat with updates := t.xlat.updates ++ [u] } }

/-- SEG_UPDATE (R288): staged, checked, and granted by the translation controller, one update of a context at a time. -/
def execSegUpdate (q seq : Nat) (s : State) : Answer :=
  match handed s q seq 0x0B with
  | none => stuck "no such command is handed over"
  | some j =>
    let key := jobKey q seq
    let st := stageDesc q seq 10 j s
    match st.1 with
    | .held => waitAnswer "the descriptor has not come" st.2 s
    | .refused o => .next (refuseJob key o st.2.st)
    | .faulted f => .next (refuseJob key (causeStatus f.cause) st.2.st)
    | .desc d =>
      if !segUpdateForm d then .next (refuseJob key .descriptorInvalid st.2.st)
      else if segUpdateDenied s j.ctx d then .next (refuseJob key .domainDenied st.2.st)
      else if !segUpdateOk s d then .next (refuseJob key .descriptorInvalid st.2.st)
      else if s.xlat.updates.any fun u => u.ctx == bits (fld d 16 2) 0 12 then stuck "another update of the context runs"
      else .next (grantUpdate key d (runJob key (uClose st.2)))

/-- SEG_UPDATE_GRANT (R290): a checking point's arbiter grants the update. A WAIT that was read there through the segment
reads again. -/
def execSegUpdateGrant (q seq point : Nat) (s : State) : Answer :=
  let key := jobKey q seq
  match s.xlat.updates.find? fun u => u.key == key with
  | none => stuck "no such update runs"
  | some u =>
    if point ≥ 65 ∨ u.granted.getLsbD point then stuck "the point has granted it"
    else
      let moved (w : Watch) : Bool := homeSlice s (w.off / 128) == point && w.hit.isNone &&
        w.seg / 16 == u.ctx && (u.seg == 255 || w.seg % 16 == u.seg)
      .next { s with
        xlat := { s.xlat with updates := s.xlat.updates.map fun x =>
          if x.key = key then { x with granted := x.granted ||| BitVec.ofNat 65 (2 ^ point) } else x }
        mem := { s.mem with watches := s.mem.watches.map fun _ w => if moved w then { w with again := true } else w } }

/-- SEG_UPDATE_COMPLETE (R291): every point has granted it, no request of the old GEN remains, and withdrawn lines are
materialised. -/
def execSegUpdateComplete (q seq : Nat) (s : State) : Answer :=
  let key := jobKey q seq
  match s.xlat.updates.find? fun u => u.key == key with
  | none => stuck "no such update runs"
  | some u =>
    if u.granted ≠ BitVec.allOnes 65 then stuck "a checking point has not granted it"
    else if anyAccess s (oldXl s u.ctx u.seg) ||
        s.links.txns.cells.any (fun c => c.2.seg / 16 == u.ctx && (u.seg == 255 || c.2.seg % 16 == u.seg) &&
          c.2.gen != (segOf s (c.2.seg / 16) (c.2.seg % 16)).gen) then
      stuck "requests of the old GEN remain"
    else
      let t := materialise u.withdrawn s
      let v : State := { t with xlat := { t.xlat with updates := t.xlat.updates.filter (·.key != key) } }
      .next (finishJob key v)

/-- An ABORT of a SEG_UPDATE (R293): before any checking point has granted it, it is removed and has no effect. -/
def abortUpdate (key : Nat) (s : State) : Option State :=
  match s.xlat.updates.find? fun u => u.key == key with
  | none => none
  | some u =>
    if u.granted ≠ 0#65 then none
    else
      let t := u.oldSegs.foldl (fun x g => setSeg g.1 g.2 x) (if u.seg = 255 then setCtx u.ctx u.oldCtx s else s)
      let v : State := { t with xlat := { t.xlat with updates := t.xlat.updates.filter (·.key != key) } }
      some (setDetail key 0 v)

end Sys2Proof.Machine
end

