-- ==== Sys2Proof/Machine/Press.lean ====
section
/-! DEFINITION. The Press: staging, the ready exchange, data, faults and completion of collectives (R130, R131, R360–R369). -/

namespace Sys2Proof.Machine

/-! ### Fields (Table 9) -/

def pOp (d : Nat) : Nat := fld d 16 1
def pAlgo (d : Nat) : Nat := bits (fld d 17 1) 0 2
def pSparse (d : Nat) : Bool := bit (fld d 17 1) 2
def pType (d : Nat) : Nat := fld d 18 1
def pRed (d : Nat) : Nat := fld d 19 1
def pId (d : Nat) : Nat := fld d 20 4
def pCount (d : Nat) : Nat := fld d 24 8
def pSend (d : Nat) : Nat := fld d 32 8
def pRecv (d : Nat) : Nat := fld d 40 8
def pList (d : Nat) : Nat := fld d 48 8
def pN (d : Nat) : Nat := fld d 56 2
def pRoot (d : Nat) : Nat := fld d 58 2

/-- Width of an element in bytes. -/
def pWidth (d : Nat) : Nat := if pType d = 0 ∨ pType d = 5 ∨ pType d = 7 then 8 else if pType d = 2 ∨ pType d = 3 then 2 else 4

def pBlock (d : Nat) : Nat := pCount d * pWidth d

/-- The Bench operation of a reduction (R184). -/
def pBenchOp (d : Nat) : Nat :=
  if pType d = 3 then 11
  else if pType d < 3 then 10
  else
    let unsigned_ := pType d > 5
    match pRed d with
    | 0 => 0
    | 1 => if unsigned_ then 3 else 1
    | 2 => if unsigned_ then 4 else 2
    | 3 => 5
    | 4 => 6
    | _ => 7

def pressOk (d : Nat) : Bool :=
  let addrs := [pSend d, pRecv d, pList d]
  decide (pOp d ≤ 3) && pAlgo d != 3 && decide (fld d 17 1 < 8) && decide (pType d ≤ 7) && decide (pRed d ≤ 5) &&
  !(decide (pType d < 4) && pRed d != 0) && !(decide (pOp d > 1) && pRed d != 0) &&
  decide (1 ≤ pCount d) && decide (pBlock d ≤ 2 ^ 40) && addrs.all (fun a => a % 64 == 0 && !addrHigh a) &&
  decide (1 ≤ pN d) && decide (pN d ≤ 4096) && !(pOp d == 3 && decide (pRoot d ≥ pN d)) && zeros d 60 255

/-! ### Who sends what to whom (R361, R364) -/

def pRing (d : Nat) : Bool := pAlgo d == 1 || (pAlgo d == 0 && decide (pBlock d ≥ 2 ^ 20))

/-- Byte range of block k of the result: a share of the vector for ALL_REDUCE, a member's block otherwise. -/
def blockRange (d k : Nat) : Nat × Nat :=
  match pOp d with
  | 0 =>
    let per := ceilDiv (pCount d) (pN d)
    let lo := min (k * per) (pCount d)
    (lo * pWidth d, (min ((k + 1) * per) (pCount d) - lo) * pWidth d)
  | 3 => (0, pBlock d)
  | _ => (k * pBlock d, pBlock d)

/-- The part of a range that goes round the ring in ascending (up) or descending rank order: every member's contribution to
it goes the same way, and the split is the run's. [DESIGN CHOICE, safe: assumption 17] -/
def ringPart (d run : Nat) (up : Bool) (r : Nat × Nat) : Nat × Nat :=
  let n := r.2 / pWidth d
  let c := Config.pressSplit run r.1 % (n + 1) * pWidth d
  if up then (r.1, c) else (r.1 + c, r.2 - c)

/-- Rank k steps along the ring from r, against the direction of travel. -/
def behind (n : Nat) (up : Bool) (r k : Nat) : Nat := if up then (r + n - k % n) % n else (r + k) % n
def beyond (n : Nat) (up : Bool) (r : Nat) : Nat := if up then (r + 1) % n else (r + n - 1) % n

/-- One direction of the ring, for rank r: N − 1 steps of reduction (ALL_REDUCE), then N − 1 of distribution. -/
def ringPlan (d run r : Nat) (up : Bool) : List PStep :=
  let n := pN d
  let dest := beyond n up r
  let from_ := behind n up r 1
  let part (k : Nat) : Nat × Nat := ringPart d run up (blockRange d k)
  let red : List PStep := if pOp d = 0 then
      (List.range (n - 1)).map fun t =>
        let p := part (behind n up r (t + 1))
        { dest := dest, off := p.1, len := p.2, reduce := true, needs := if t = 0 then [] else [(from_, p.1, true)], sent := 0 }
    else []
  let dist : List PStep := if pOp d = 0 ∨ pOp d = 2 then
      (List.range (n - 1)).map fun t =>
        let p := part (behind n up r t)
        { dest := dest, off := p.1, len := p.2, reduce := false, sent := 0,
          needs := if t = 0 then (if pOp d = 0 then [(from_, p.1, true)] else []) else [(from_, p.1, false)] }
    else if pOp d = 3 then
      let p := ringPart d run up (0, pBlock d)
      if dest = pRoot d then [] else [{ dest := dest, off := p.1, len := p.2, reduce := false, sent := 0,
                                        needs := if r = pRoot d then [] else [(from_, p.1, false)] }]
    else []
  red ++ dist

/-- The binary tree by rank, rooted at rank 0, or at ROOT for BROADCAST: positions count from the root. -/
def treeRoot (d : Nat) : Nat := if pOp d = 3 then pRoot d else 0
def treePos (d r : Nat) : Nat := (r + pN d - treeRoot d) % pN d
def treeRank (d x : Nat) : Nat := (x + treeRoot d) % pN d
def treeChildren (d r : Nat) : List Nat :=
  ([2 * treePos d r + 1, 2 * treePos d r + 2].filter (· < pN d)).map (treeRank d)
def treeParent (d r : Nat) : Option Nat := if treePos d r = 0 then none else some (treeRank d ((treePos d r - 1) / 2))

/-- Position y lies in the subtree of position x. -/
def below (x : Nat) : Nat → Nat → Bool
  | 0, y => x == y
  | fuel + 1, y => x == y || (y != 0 && below x fuel ((y - 1) / 2))

def inSubtree (d c k : Nat) : Bool := below (treePos d c) 13 (treePos d k)

def treePlan (d r : Nat) : List PStep :=
  let kids := treeChildren d r
  let whole (dest : Nat) (red : Bool) (needs : List (Nat × Nat × Bool)) : PStep :=
    { dest := dest, off := 0, len := pBlock d, reduce := red, needs := needs, sent := 0 }
  match pOp d with
  | 0 =>
    let up := match treeParent d r with
      | some p => [whole p true (kids.map fun c => (c, 0, true))]
      | none => []
    let have_ := match treeParent d r with
      | some p => [(p, 0, false)]
      | none => kids.map fun c => (c, 0, true)
    up ++ kids.map fun c => whole c false have_
  | 2 =>
    let src (k : Nat) : List (Nat × Nat × Bool) :=
      if k = r then []
      else match kids.find? fun c => inSubtree d c k with
        | some c => [(c, (blockRange d k).1, false)]
        | none => (treeParent d r).toList.map fun p => (p, (blockRange d k).1, false)
    let one (dest k : Nat) : PStep :=
      { dest := dest, off := (blockRange d k).1, len := pBlock d, reduce := false, needs := src k, sent := 0 }
    ((treeParent d r).toList.flatMap fun p => ((List.range (pN d)).filter (inSubtree d r)).map (one p)) ++
    (kids.flatMap fun c => ((List.range (pN d)).filter fun k => !inSubtree d c k).map (one c))
  | _ => kids.map fun c => whole c false ((treeParent d r).toList.map fun p => (p, 0, false))

/-! REDUCE_SCATTER: RECV holds one block, and the Press itself never reduces, so a member's contribution to another rank's
block goes from neighbour to neighbour of the ring, or along the tree, until it reaches that rank, which applies it.
[DESIGN CHOICE, safe: assumption 17] -/

/-- The ways a contribution to rank k's block leaves rank r: the next rank, and the part of the block.
[DESIGN CHOICE, safe: assumption 17] -/
def scatterWays (d run r k : Nat) : List (Nat × Nat × Nat) :=
  if pRing d then
    [(beyond (pN d) true r, ringPart d run true (blockRange d k)), (beyond (pN d) false r, ringPart d run false (blockRange d k))]
  else
    let next := match (treeChildren d r).find? fun c => inSubtree d c k with
      | some c => some c
      | none => treeParent d r
    next.toList.map fun n => (n, blockRange d k)

/-- Rank r's own contributions. -/
def scatterPlan (d run r : Nat) : List PStep :=
  ((List.range (pN d)).filter (· != r)).flatMap fun k => (scatterWays d run r k).map fun w =>
    { dest := w.1, off := w.2.1, len := w.2.2, reduce := true, needs := [], sent := 0 }

/-- How many members' contributions to rank k's block come to rank r from rank p. -/
def scatterCount (d r p k : Nat) (up : Bool) : Nat :=
  let n := pN d
  if pRing d then n - 1 - (if up then k + n - r else r + n - k) % n
  else ((List.range n).filter fun o => if treeParent d r = some p then !inSubtree d r o else inSubtree d p o).length

/-- What comes to rank r from rank p: of each block, its part of each contribution that goes this way. -/
def scatterExpect (d run r p : Nat) : List PNeed :=
  let need (k : Nat) (up : Bool) (part : Nat × Nat) : PNeed :=
    { src := p, off := part.1, len := part.2, reduce := true, left := scatterCount d r p k up * part.2 }
  (List.range (pN d)).flatMap fun k =>
    if pRing d then
      (if p = behind (pN d) true r 1 then [need k true (ringPart d run true (blockRange d k))] else []) ++
      (if p = behind (pN d) false r 1 then [need k false (ringPart d run false (blockRange d k))] else [])
    else if (match (treeChildren d p).find? fun c => inSubtree d c k with | some c => c == r | none => treeParent d p == some r)
    then [need k true (blockRange d k)] else []

/-- What rank r sends. -/
def pressPlan (d run r : Nat) : List PStep :=
  let all := if pOp d = 1 then scatterPlan d run r
    else if pRing d then ringPlan d run r true ++ ringPlan d run r false else treePlan d r
  all.filter fun p => p.len != 0 && p.dest != r

/-- The ranks an algorithm pairs with rank r. -/
def namedPeers (d r : Nat) : List Nat :=
  let all := if pRing d then [beyond (pN d) true r, beyond (pN d) false r] else (treeParent d r).toList ++ treeChildren d r
  (all.filter (· != r)).eraseDups

/-- What rank r is to receive: what its peers send it. -/
def pressExpect (d run r : Nat) : List PNeed :=
  (namedPeers d r).flatMap fun p =>
    if pOp d = 1 then (scatterExpect d run r p).filter fun x => x.left != 0
    else ((pressPlan d run p).filter fun x => x.dest == r).map fun x =>
      { src := p, off := x.off, len := x.len, reduce := x.reduce, left := x.len }

/-! ### Collectives -/

def setColl (key : Nat) (c : Coll) (s : State) : State := { s with press := { s.press with colls := s.press.colls.put key c } }

def connOfRank (c : Coll) (r : Nat) : Nat := (c.members.getD r (0, 0)).1
def nodeOfRank (c : Coll) (r : Nat) : Nat := (c.members.getD r (0, 0)).2

/-- The domain that traffic to a rank carries: its connection's. -/
def memberDomain (s : State) (c : Coll) (r : Nat) : Nat := connDomain (connOf s (connOfRank c r))

/-- The parameters a member states (R361, R362). -/
def collParamsOf (raw : Nat) (listBytes domain : Nat) : CollParams :=
  { collId := pId raw, op := pOp raw, elemType := pType raw, redOp := pRed raw, count := pCount raw, root := pRoot raw,
    listDigest := bits (Config.shake256 (toBytes (4 * pN raw) listBytes)).toNat 0 64, domain := domain }

/-- The member list as its members state it: connections differ at every member, NODEs do not.
[DEDUCED, unsafe: assumption 44] -/
def listNodes (c : Coll) : Nat :=
  (c.members.zip (List.range c.members.length)).foldl (fun a x => setFld a (4 * x.2 + 2) 2 x.1.2) 0

/-- Parameters agree but for the sender's domain. -/
def sameParams (a b : CollParams) : Bool := { a with domain := 0 } == { b with domain := 0 }

/-- A collective ends: it sends and takes nothing more; with an abort notice to its peers where the rule sends one.
[DEDUCED, unsafe: assumption 44] -/
def endColl (key : Nat) (o : Status) (notice : Bool) (s : State) : State :=
  match s.press.colls.find key with
  | none => s
  | some c =>
    let t := addOut key o (setColl key { c with ended := true, plan := [], expect := [], relay := [], pieces := [], fault := none } s)
    if notice then c.peers.foldl (fun t r => send (.collAbort (connOfRank c r) (memberDomain t c r) (pId c.raw)) t) t else t

/-- A member's message to a rank may leave (R279, R355). -/
def maySend (s : State) (c : Coll) (r : Nat) : Bool :=
  (acceptRemote s (.peer (nodeOfRank c r) 0 (connOfRank c r))).isNone

/-- The parameter messages of every peer have come and agree: the ready messages leave (R362). -/
def sendReady (key : Nat) (s : State) : State :=
  match s.press.colls.find key with
  | none => s
  | some c =>
    if c.staged && !c.readySent && !c.ended && c.peers.all c.paramsFrom.contains then
      c.peers.foldl (fun t r => send (.collReady (connOfRank c r) (memberDomain t c r) (pId c.raw)) t) (setColl key { c with readySent := true } s)
    else s

/-- The own parameters of a collective. -/
def ownParams (c : Coll) (s : State) (r : Nat) : CollParams :=
  collParamsOf c.raw (listNodes c) (memberDomain s c r)

/-- A peer's parameter message meets its collective (R362). -/
def takeParams (key r : Nat) (m : CollParams) (s : State) : State :=
  match s.press.colls.find key with
  | none => s
  | some c =>
    if c.ended || !c.peers.contains r then s
    else if sameParams m (ownParams c s r) then
      sendReady key (setColl key { c with paramsFrom := insertNew r c.paramsFrom, heard := c.heard.put r s.time.now } s)
    else endColl key .descriptorInvalid true s

/-- Parameter messages that waited for this command. [DEDUCED, unsafe: assumption 44] -/
def takeEarly (key : Nat) (s : State) : State :=
  match s.press.colls.find key with
  | none => s
  | some c =>
    let mine (x : Nat × CollParams) : Bool := x.2.collId == pId c.raw
    let found := s.press.early.filter mine
    let t : State := { s with press := { s.press with early := s.press.early.filter fun x => !mine x } }
    found.foldl (fun t x => match (List.range c.members.length).find? fun r => connOfRank c r == x.1 && c.peers.contains r with
      | some r => takeParams key r x.2 t
      | none => t) t

/-! ### Data (R130, R131, R364) -/

/-- The bytes a step sends, read from SEND (REDUCE_SCATTER) or RECV. -/
def stepAddr_ (d : Nat) (p : PStep) : Nat := if pOp d = 1 then pSend d + p.off else pRecv d + p.off

/-- One chunk of Table 13, of the blocks of 64 elements that the bytes hold: its bytes, and the blocks carried and left out
of a sparse one (R130, R132). -/
def sparseChunk (d : Nat) (mine : List Byte) (index : Nat) : List Byte × Nat × Nat :=
  let w := pWidth d
  let blk := 64 * w
  let n := ceilDiv mine.length blk
  let padded := mine ++ List.replicate (n * blk - mine.length) 0#8
  let blocks := (List.range n).map fun i => (padded.drop (i * blk)).take blk
  let floating := decide (pType d < 4)
  let zeroEl (x : Nat) : Bool := if floating then x % 2 ^ (8 * w - 1) == 0 else x == 0
  let absent (b : List Byte) : Bool := (List.range 64).all fun i => zeroEl (ofBytes ((b.drop (i * w)).take w))
  let carried := blocks.filter fun b => !absent b
  let bitmap := (List.range n).foldl (fun a i => if absent (blocks.getD i []) then a else a + 2 ^ i) 0
  let head (enc p : Nat) : List Byte := toBytes 16 (index % 2 ^ 32 + enc * 2 ^ 32 + w * 2 ^ 40 + n * 2 ^ 48 + p * 2 ^ 64)
  if 528 + carried.length * blk < 16 + n * blk then
    (head 1 carried.length ++ toBytes 512 bitmap ++ carried.flatten, carried.length, n - carried.length)
  else (head 0 n ++ padded, 0, 0)

/-- Send one message: a transaction of the connection that its peer acknowledges. -/
def sendChunk (key conn node id : Nat) (ch : Chunk) (s : State) : State :=
  let x : Xl := { ctx := 4096, seg := 0, gen := 0, epoch := 0, domain := 0, partition := 0, tracked := false, region := 1,
                  target := .peer node (ch.offset + ch.skip) conn }
  let t := openTxn x ch.bytes.length false ch.bytes (.job key) s
  let seqNo := ((t.2.links.txns.find t.1).map Txn.psn).getD 0
  send (.collData conn id { ch with seqNo := seqNo }) t.2

/-- The bytes of a message, by the 4 KiB of its block or chunk that they lie in: no transaction crosses a multiple of 4 KiB
(R357). -/
def cutMessage (ch : Chunk) : Nat → List Chunk
  | 0 => []
  | n + 1 =>
    if ch.bytes = [] then []
    else
      let at_ := (if ch.size = 0 then ch.offset else 0) + ch.skip
      let k := min ch.bytes.length (4096 - at_ % 4096)
      { ch with bytes := ch.bytes.take k, poison := bits ch.poison 0 k } ::
        cutMessage { ch with bytes := ch.bytes.drop k, skip := ch.skip + k, poison := ch.poison / 2 ^ k } n

/-- Read n bytes with their poison, byte by byte: lines of a step's source. -/
def readMarked : Nat → Nat → Nat → UStep → (Nat × Nat × Bool) × UStep
  | 0, _, _, u => ((0, 0, false), u)
  | fuel + 1, va, n, u =>
    if n = 0 then ((0, 0, false), u)
    else
      let k := min n (128 - va % 128)
      let a := uReadLine va k u
      let b := readMarked fuel (va + k) (n - k) a.2
      ((a.1.val + b.1.1 * 2 ^ (8 * k), (if a.1.poison then 2 ^ k - 1 else 0) + b.1.2.1 * 2 ^ k, a.1.failed || b.1.2.2), b.2)

/-- What a step sends next: in sparse mode the bytes of one chunk of Table 13, else those up to the next 4 KiB of the result. -/
def stepTake (d : Nat) (p : PStep) : Nat :=
  if pSparse d then min (p.len - p.sent) (4096 * 64 * pWidth d) else min (p.len - p.sent) (4096 - (p.off + p.sent) % 4096)

/-- The next bytes of a step, of block 0 as it stood before the own contribution was copied over it (R361). -/
def stepBytes (c : Coll) (p : PStep) (u : UStep) : (Nat × Nat × Bool) × UStep :=
  let n := stepTake c.raw p
  match c.kept with
  | some k =>
    if p.off < pBlock c.raw then
      ((bits k.1 (8 * (p.off + p.sent)) (8 * n), bits k.2 (p.off + p.sent) n, false), u)
    else readMarked (n / 128 + 2) (stepAddr_ c.raw p + p.sent) n u
  | none => readMarked (n / 128 + 2) (stepAddr_ c.raw p + p.sent) n u

/-- Send the next bytes of a step: a message, or the messages of a sparse chunk, which comes poisoned whole. -/
def sendStep (key : Nat) (c : Coll) (p : PStep) (val mark : Nat) (s : State) : State :=
  let d := c.raw
  let n := stepTake d p
  let base : Chunk := { seqNo := 0, origin := c.rank, domain := memberDomain s c p.dest, reduce := p.reduce, offset := p.off,
                        index := 0, skip := p.sent, size := 0, bytes := toBytes n val, poison := mark }
  let out (ch : Chunk) (t : State) : State := sendChunk key (connOfRank c p.dest) (nodeOfRank c p.dest) (pId d) ch t
  if pSparse d then
    let i := p.sent / (4096 * 64 * pWidth d)
    let x := sparseChunk d (toBytes n val) i
    (cutMessage { base with index := i, skip := 0, size := x.1.length, bytes := x.1,
                            poison := if mark = 0 then 0 else 2 ^ x.1.length - 1 } (x.1.length / 4096 + 2)).foldl (fun t ch => out ch t)
      (bump K.pressBlocksElided x.2.2 (bump K.pressBlocksSent x.2.1 s))
  else out base s

/-- The first step whose receiver is ready and whose blocks have come. -/
def stepReady (c : Coll) (p : PStep) : Bool :=
  c.readyFrom.contains p.dest && p.needs.all fun n => !c.expect.any fun e => e.src == n.1 && e.off == n.2.1 && e.reduce == n.2.2

/-- Some bytes of a step have gone: the step stays until all have. -/
def stepSent (p : PStep) (n : Nat) (rest : List PStep) : List PStep :=
  if p.sent + n ≥ p.len then rest else { p with sent := p.sent + n } :: rest

/-- Messages for other ranks go on to the next rank that is ready. [DESIGN CHOICE, safe: assumption 17] -/
def pumpRelay (key : Nat) (c : Coll) (s : State) : State :=
  match takeFirst (fun x => c.readyFrom.contains x.1) c.relay with
  | none => s
  | some (x, rest) =>
    sendChunk key (connOfRank c x.1) (nodeOfRank c x.1) (pId c.raw) { x.2 with domain := memberDomain s c x.1 }
      (setColl key { c with relay := rest } s)

/-- Send what can be sent, one message of a step after another. What a read waits for is asked for. -/
def pumpPress (key : Nat) : Nat → State → State
  | 0, s => s
  | fuel + 1, s =>
    match s.press.colls.find key with
    | none => s
    | some c =>
      if !c.staged || c.ended || c.fault.isSome || c.saved.isSome then s
      else if c.relay.any fun x => c.readyFrom.contains x.1 then pumpPress key fuel (pumpRelay key c s)
      else match takeFirst (stepReady c) c.plan with
        | none => s
        | some (p, rest) =>
          if !maySend s c p.dest then endColl key .peerRefused true s
          else
            let r := stepBytes c p (UStep.start c.ctx key 10 s)
            if r.2.held then keepAsking r.2 s
            else if r.2.fault.isSome then setColl key { c with fault := r.2.fault } r.2.st
            else if r.1.2.2 then endColl key (remoteEnd r.2) true (uClose r.2)
            else
              let u := if r.1.2.1 != 0 then r.2.met .poisonRead else r.2
              let t := setColl key { c with plan := stepSent p (stepTake c.raw p) rest, position := c.position + stepTake c.raw p } (uClose u)
              pumpPress key fuel (sendStep key c p r.1.1 r.1.2.1 t)

/-! ### PRESS_COLLECTIVE (R360–R364, R366) -/

/-- The member list's own checks: reserved bits, and the own NODE exactly once; the own rank. -/
def ownRank (s : State) (n raw : Nat) : Option Nat :=
  let node (i : Nat) : Nat := bits raw (32 * i + 16) 12
  if (List.range n).any fun i => bits raw (32 * i + 14) 2 != 0 || bits raw (32 * i + 28) 4 != 0 then none
  else match (List.range n).filter fun i => node i == nodeId s with
    | [r] => some r
    | _ => none

/-- The own contribution, copied into RECV (R364). -/
def ownCopy (d r : Nat) : Option (Nat × Nat × Nat) :=
  match pOp d with
  | 0 => some (pSend d, pRecv d, pBlock d)
  | 1 => some (pSend d + r * pBlock d, pRecv d, pBlock d)
  | 2 => some (pSend d, pRecv d + r * pBlock d, pBlock d)
  | _ => if r = pRoot d then some (pSend d, pRecv d, pBlock d) else none

/-- Copy lines, whole. -/
def pressCopy : Nat → Nat → Nat → Nat → UStep → Bool × UStep
  | 0, _, _, _, u => (false, u)
  | fuel + 1, src, dst, n, u =>
    if n = 0 ∨ u.stopped then (false, u)
    else
      let k := min n (128 - dst % 128)
      let a := copyLine src dst k u
      let b := pressCopy fuel (src + k) (dst + k) (n - k) a.2
      (a.1.isSome || b.1, b.2)

/-- In a REDUCE_SCATTER whose RECV is its SEND, the own contribution is copied over block 0, which rank 0 needs as it
stood (R361). -/
def keptBlock (c : Coll) (r : Nat) (u : UStep) : (Option (Nat × Nat) × Bool) × UStep :=
  let d := c.raw
  if pOp d = 1 ∧ pSend d = pRecv d ∧ r ≠ 0 ∧ c.kept.isNone then
    let x := readMarked (pBlock d / 128 + 2) (pSend d) (pBlock d) u
    ((some (x.1.1, x.1.2.1), x.1.2.2), x.2)
  else ((c.kept, false), u)

/-- The member list has been read: block 0 is kept, where it is copied over; the copy; and the parameter messages. A fault
of the copy keeps block 0 as it was. [DEDUCED, unsafe: assumption 44] -/
def stageCopy (key r : Nat) (ms : List (Nat × Nat)) (c : Coll) (u0 : UStep) (s : State) : Answer :=
  let d := c.raw
  let why := "something the Press reads has not come"
  let k := keptBlock c r u0
  let cp : Bool × UStep := if k.2.stopped then (false, k.2) else match ownCopy d r with
    | some (a, b, n) => if a = b then (false, k.2) else pressCopy (n / 128 + 2) a b n k.2
    | none => (false, k.2)
  if cp.2.held then waitAnswer why cp.2 s
  else if cp.2.fault.isSome then
    .next (setColl key { c with fault := cp.2.fault, kept := if k.2.stopped then c.kept else k.1.1 } (uClose cp.2))
  else
    let u := if cp.1 then cp.2.met .poisonRead else cp.2
    let run := takeFree u.st
    let c2 : Coll := { c with staged := true, run := run.1, members := ms, rank := r, peers := namedPeers d r,
                              plan := pressPlan d run.1 r, expect := pressExpect d run.1 r, kept := k.1.1, since := s.time.now }
    let t := setColl key c2 (uClose { u with st := run.2 })
    if u.outs.any fun o => [Status.frontendGone, .remoteAbandoned, .peerRefused].contains o then
      .next (endColl key (remoteEnd u) true t)
    else if c2.peers.all (maySend t c2) then
      .next (sendReady key (takeEarly key
        (c2.peers.foldl (fun t p => send (.collParams (connOfRank c2 p) (ownParams c2 t p)) t) t)))
    else .next (endColl key .peerRefused true t)

/-- Staging: the member list is read and checked. -/
def stageColl (key : Nat) (c : Coll) (s : State) : Answer :=
  let d := c.raw
  let l := uGet (pList d) (4 * pN d) (UStep.start c.ctx key 10 s)
  let gone (o : Status) (u : UStep) : Answer :=
    .next (refuseJob key o { uClose u with press := { u.st.press with colls := u.st.press.colls.del key } })
  if l.2.held then waitAnswer "the member list has not come" l.2 s
  else if l.2.fault.isSome then .next (setColl key { c with fault := l.2.fault } (uClose l.2))
  else if l.1.poison then gone (statusOf (l.2.outs ++ [.poisonRead])) l.2
  else match ownRank s (pN d) l.1.val with
    | none => gone .descriptorInvalid l.2
    | some r =>
      stageCopy key r ((List.range (pN d)).map fun i => (bits l.1.val (32 * i) 14, bits l.1.val (32 * i + 16) 12)) c l.2 s

/-- A collective of which nothing is staged yet. -/
def Coll.begun (raw ctx now : Nat) : Coll :=
  { raw := raw, ctx := ctx, staged := false, run := 0, members := [], rank := 0, peers := [], paramsFrom := [], readySent := false,
    readyFrom := [], plan := [], expect := [], relay := [], pieces := [], kept := none, heard := ⟨[]⟩, since := now, position := 0,
    fault := none, saved := none, ended := false, stalled := false }

/-- Save slots of the Press in use. -/
def pressSlots (s : State) : List Nat := s.press.colls.cells.filterMap fun c => c.2.saved

/-- The read of a collective's descriptor has faulted: the task is switched out before anything of it is known (R327).
[DESIGN CHOICE, safe: assumption 40] -/
def collUnread (key ctx : Nat) (i : FaultInfo) (j : Job) (t s : State) : Answer :=
  if faultListFull 1 s then holdFault key K.faultListStalls j s
  else match pickSlot 16 (pressSlots t) t with
    | (none, _) => stuck "the Press's save slots are in use"
    | (some n, w) =>
      .next (addFault (taskRecord 5 8 n key 0 i)
        (setColl key { Coll.begun 0 ctx s.time.now with fault := some i, saved := some n } (runJob key w)))

/-- PRESS_COLLECTIVE: the command is read, checked and staged; given again for a started collective, the Press goes on
with what it has to send. -/
def execPressCollective (q seq : Nat) (s : State) : Answer :=
  let key := jobKey q seq
  match s.press.colls.find key with
  | some c =>
    if c.fault.isSome || c.saved.isSome || c.ended then stuck "the collective is stopped"
    else if c.staged then .next (pumpPress key (c.plan.length + 1) s)
    else stageColl key c s
  | none =>
    match handed s q seq 0x05 with
    | none => stuck "no such command is handed over"
    | some j =>
      let st := stageDesc q seq 10 j s
      match st.1 with
      | .held => waitAnswer "the descriptor has not come" st.2 s
      | .refused o => .next (refuseJob key o st.2.st)
      | .faulted i => collUnread key j.ctx i j st.2.st s
      | .desc d =>
        if !pressOk d then .next (refuseJob key .descriptorInvalid st.2.st)
        else if s.press.colls.cells.any fun c => c.2.raw != 0 && pId c.2.raw == pId d then .next (refuseJob key .descriptorInvalid st.2.st)
        else if s.press.colls.cells.length ≥ 64 then holdJob key K.pressStalls d j st.2.st
        else
          let c := Coll.begun d j.ctx s.time.now
          stageColl key c (setColl key c (runJob key (uClose st.2)))

/-! ### Messages (R362, R363) -/

/-- Collective traffic is accepted on a connection (R363): the sender's domain is the one its message carries. -/
def pressAccepts (s : State) (conn domain : Nat) : Bool :=
  let e := importEntry s conn
  let k := connOf s conn
  connMode k == 1 && k.st == 1 && bit e 0 && bits e 16 8 != 0 && bits e 8 8 == domain

/-- A message of the Press is accepted: it is acknowledged (R357). [DEDUCED, unsafe: assumption 44] -/
def ackPress (conn seqNo : Nat) (s : State) : State := send (.peerReply conn seqNo false false []) s

/-- Traffic that no collective is to take is refused with PEER_REFUSED (R363). [DEDUCED, unsafe: assumption 44] -/
def refusePress (conn seqNo : Nat) (s : State) : State :=
  s |> bump K.peerRefusedIn 1 |> sumErr 6 |> send (.peerReply conn seqNo true false [])

/-- The active collective with an identifier, and the peer's rank there. -/
def collOn (s : State) (conn collId : Nat) : Option (Nat × Coll × Nat) :=
  (s.press.colls.cells.find? fun c => pId c.2.raw == collId && c.2.staged).bind fun c =>
    ((List.range c.2.members.length).find? fun r => c.2.peers.contains r && connOfRank c.2 r == conn).map fun r => (c.1, c.2, r)

/-- PRESS_PARAMETER_MESSAGE (R362): checked against the own parameters; one that comes before its command waits. -/
def execPressParameterMessage (conn seqNo : Nat) (m : CollParams) (s : State) : Answer :=
  outside s <|
    if !pressAccepts s conn m.domain then refusePress conn seqNo s
    else ackPress conn seqNo (match collOn s conn m.collId with
      | some (key, _, r) => takeParams key r m s
      | none => { s with press := { s.press with early := s.press.early ++ [(conn, m)] } })

/-- PRESS_READY_MESSAGE (R362): data may now be sent to the peer. -/
def execPressReadyMessage (conn seqNo domain collId : Nat) (s : State) : Answer :=
  outside s <|
    if !pressAccepts s conn domain then refusePress conn seqNo s
    else ackPress conn seqNo (match collOn s conn collId with
      | some (key, c, r) =>
        pumpPress key (c.plan.length + 1)
          (setColl key { c with readyFrom := insertNew r c.readyFrom, heard := c.heard.put r s.time.now } s)
      | none => s)

/-- PRESS_ABORT_NOTICE (R362): the member completes REMOTE_ABANDONED. [DEDUCED, unsafe: assumption 44] -/
def execPressAbortNotice (conn seqNo domain collId : Nat) (s : State) : Answer :=
  outside s <|
    if !pressAccepts s conn domain then refusePress conn seqNo s
    else ackPress conn seqNo (match collOn s conn collId with
      | some (key, c, _) => if c.ended then s else endColl key .remoteAbandoned false s
      | none => s)

/-- Where a block's byte lies in RECV: the whole result, or the own block of a REDUCE_SCATTER. -/
def recvAddr (d rank off : Nat) : Nat := pRecv d + (if pOp d = 1 then off - rank * pBlock d else off)

/-- Apply bytes at an address, line by line: written or reduced (R364), poisoned where the data of the line's bytes is. -/
def applyBytes (d : Nat) (reduce : Bool) : Nat → Nat → List Byte → Nat → UStep → UStep
  | 0, _, _, _, u => u
  | fuel + 1, va, bs, poison, u =>
    if bs = [] ∨ u.stopped then u
    else
      let p := va % 128
      let k := min bs.length (128 - p)
      let bad := bits poison 0 k != 0
      let dl := BitVec.ofNat 1024 (ofBytes (bs.take k) * 2 ^ (8 * p))
      let v := if reduce && !bad then uReduceLine (va - p) (pBenchOp d) (pWidth d).log2 dl (spanMask p k) u
        else uStoreLine (va - p) dl (spanMask p k) bad u
      applyBytes d reduce fuel (va + k) (bs.drop k) (poison / 2 ^ k) v

/-- The bytes a sparse chunk stands for: position, bytes, and whether the block is carried (R130, R131). -/
def sparseBlocks (w : Nat) (bytes : List Byte) : List (Nat × List Byte × Bool) :=
  let head := ofBytes (bytes.take 16)
  let index := bits head 0 32
  let enc := bits head 32 8
  let n := bits head 48 16
  let blk := 64 * w
  let bitmap := ofBytes ((bytes.drop 16).take 512)
  let data := bytes.drop (if enc = 1 then 528 else 16)
  (List.range n).map fun i =>
    let at_ := (index * 4096 + i) * blk
    if enc = 0 then (at_, (data.drop (i * blk)).take blk, true)
    else if bit bitmap i then
      (at_, (data.drop (popCount i (bitmap % 2 ^ i) * blk)).take blk, true)
    else (at_, List.replicate blk 0#8, false)

/-- A message's bytes are applied inside RECV: position within the block, bytes, and whether an absent block of a sparse
chunk, of which a reducing collective applies nothing (R131). -/
def applyParts (c : Coll) (ch : Chunk) (len : Nat) (parts : List (Nat × List Byte × Bool)) (poison : Nat) (u : UStep) : UStep :=
  parts.foldl (fun u x =>
    let bs := x.2.1.take (len - x.1)
    if x.2.2 || !ch.reduce then
      applyBytes c.raw ch.reduce (bs.length / 128 + 2) (recvAddr c.raw c.rank (ch.offset + x.1)) bs poison u
    else u) u

/-- Pieces of the same sparse chunk, from the same rank. -/
def samePiece (r : Nat) (ch : Chunk) (x : Nat × Chunk) : Bool :=
  x.1 == r && x.2.origin == ch.origin && x.2.offset == ch.offset && x.2.index == ch.index && x.2.reduce == ch.reduce

/-- The rank to which a REDUCE_SCATTER's message goes on; none where it has reached the rank whose block it is. -/
def relayTo (c : Coll) (ch : Chunk) : Option Nat :=
  if pOp c.raw = 1 ∧ ch.offset / pBlock c.raw ≠ c.rank then
    ((scatterWays c.raw c.run c.rank (ch.offset / pBlock c.raw)).find? fun w => w.2.1 == ch.offset && w.2.2 != 0).map Prod.fst
  else none

/-- A message joins the pieces of its sparse chunk; the whole chunk, once it is there. -/
def joinPiece (c : Coll) (r : Nat) (ch : Chunk) : Option (List (Nat × Chunk)) × Coll :=
  let all := (r, ch) :: c.pieces.filter (samePiece r ch)
  if (all.map fun x => x.2.bytes.length).foldl (· + ·) 0 < ch.size then (none, { c with pieces := c.pieces ++ [(r, ch)] })
  else (some all, { c with pieces := c.pieces.filter fun x => !samePiece r ch x })

/-- Bytes of a block that a sparse chunk stands for. -/
def chunkSpan (d len index : Nat) : Nat := min (len - index * (4096 * 64 * pWidth d)) (4096 * 64 * pWidth d)

/-- What an accepted message leaves: it goes on to another rank, it is kept until its sparse chunk is whole, or its bytes are
applied; with the bytes of the expected block that are accounted for. -/
def takeChunk (c0 : Coll) (r : Nat) (e : PNeed) (ch : Chunk) (u : UStep) : Nat × Coll × UStep :=
  let next := relayTo c0 ch
  let c : Coll := match next with
    | some n => { c0 with relay := c0.relay ++ [(n, ch)] }
    | none => c0
  if pSparse c.raw then
    let p := joinPiece c r ch
    match p.1 with
    | none => (0, p.2, u)
    | some all =>
      let n := chunkSpan c.raw e.len ch.index
      if next.isSome then (n, p.2, u)
      else
        let bytes := (all.foldl (fun (t : Tab (List Byte)) x => t.put x.2.skip x.2.bytes) ⟨[]⟩).cells.flatMap Prod.snd
        let bad := all.any fun x => x.2.poison != 0
        (n, p.2, applyParts c ch e.len (sparseBlocks (pWidth c.raw) bytes) (if bad then 2 ^ (64 * pWidth c.raw) - 1 else 0)
                   (if bad then u.met .poisonRead else u))
  else
    let bs := ch.bytes.take (e.len - ch.skip)
    (bs.length, c, if next.isSome then u
                   else applyParts c ch e.len [(ch.skip, ch.bytes, true)] ch.poison (if ch.poison != 0 then u.met .poisonRead else u))

/-- PRESS_CHUNK (R357, R363, R364): a peer's data is applied inside RECV, once, and acknowledged; what no collective expects
is refused. [DEDUCED, unsafe: assumption 44] -/
def execPressChunk (conn collId : Nat) (ch : Chunk) (s : State) : Answer :=
  if !alive s then .next s
  else if !pressAccepts s conn ch.domain then .next (refusePress conn ch.seqNo s)
  else if (connOf s conn).performed.contains ch.seqNo then .next (ackPress conn ch.seqNo s)
  else match collOn s conn collId with
    | none => .next (refusePress conn ch.seqNo s)
    | some (key, c, r) =>
      match c.expect.find? fun e => e.src == r && e.off == ch.offset && e.reduce == ch.reduce with
      | none => .next (refusePress conn ch.seqNo s)
      | some e =>
        if c.fault.isSome || c.saved.isSome || c.ended then .next s
        else
          let x := takeChunk c r e ch (UStep.start c.ctx key 10 s)
          let u := x.2.2
          if u.held then waitAnswer "something the Press writes cannot be reached" u s
          else if u.fault.isSome then .next (setColl key { c with fault := u.fault } (uClose u))
          else
            let ex := (c.expect.map fun y => if y == e then { y with left := y.left - x.1 } else y).filter fun y => y.left != 0
            let t := setColl key { x.2.1 with expect := ex, heard := c.heard.put r s.time.now } (uClose u)
            let k := connOf t conn
            .next (pumpPress key (c.plan.length + 2) (ackPress conn ch.seqNo
              (setConn conn { k with performed := ch.seqNo :: k.performed.take 8191 } t)))

/-! ### Ends (R367, R368) -/

/-- A rank from which the collective still needs something. -/
def needsFrom (c : Coll) (r : Nat) : Bool :=
  c.peers.contains r && (!c.paramsFrom.contains r || !c.readyFrom.contains r || c.expect.any fun e => e.src == r)

/-- PRESS_DATA_TIMEOUT (R367): nothing that the collective needs has come from a peer for LINK_TIMEOUT_NS. -/
def execPressDataTimeout (q seq rank : Nat) (s : State) : Answer :=
  let key := jobKey q seq
  match s.press.colls.find key with
  | none => stuck "no such collective runs"
  | some c =>
    if c.ended || !c.staged || !needsFrom c rank then stuck "nothing is needed from this rank"
    else .next (endColl key .remoteAbandoned true
      (atLeast (c.heard.get c.since rank + dv s K.linkTimeoutNs) s))

/-- COLLECTIVE_COMPLETE (R364, R369): everything is sent, received and acknowledged, or the collective has ended. -/
def execCollectiveComplete (q seq : Nat) (s : State) : Answer :=
  let key := jobKey q seq
  match s.press.colls.find key with
  | none => stuck "no such collective runs"
  | some c =>
    let ended_ := c.ended || (c.staged && c.plan.isEmpty && c.expect.isEmpty && c.relay.isEmpty && c.peers.all c.readyFrom.contains && c.readySent)
    let over1 := ended_ || (c.staged && c.peers.isEmpty)
    if over1 && c.fault.isNone && c.saved.isNone && txnsOf s key == 0 then
      .next (finishJob key { s with press := { s.press with colls := s.press.colls.del key } })
    else stuck "the collective is not at its end"

/-- An ABORT of a collective is granted (R368). -/
def abortColl (key : Nat) (s : State) : Option State :=
  match s.press.colls.find key with
  | none => none
  | some c =>
    if c.ended then none
    else
      let t := match c.saved with
        | some n => markEnded (n + 8 * 2 ^ 8 + 5 * 2 ^ 12) s
        | none => s
      some (endColl key .aborted true (setColl key { c with saved := none } t))

end Sys2Proof.Machine
end

