-- ==== Sys2Proof/Machine/Read.lean ====
section
/-! DEFINITION. Reads of the dictionary: the live value of every entry, and the local window (R388, R394–R396, R6, R7). -/

namespace Sys2Proof.Machine

/-! ### Images (R416) -/

def imgKind (h : Nat) : Nat := fld h 4 1
def imgIface (h : Nat) : Nat := fld h 6 2
def imgBuild (h : Nat) : Nat := fld h 8 4
def imgSec (h : Nat) : Nat := fld h 12 1

/-- The header of the running image of a kind; 0 where none runs. -/
def runningHeader (s : State) (kind : Nat) : Nat := ((s.boot.images.find kind).map (·.header)).getD 0

/-- IMAGE_INFO of a kind (Table 6 of chapter 14). -/
def imageInfo (s : State) (kind : Nat) : Nat :=
  match s.boot.images.find kind with
  | some i => imgIface i.header + imgBuild i.header * 2 ^ 16 + (imgSec i.header % 64) * 2 ^ 48
  | none => 0

/-! ### Values that the blocks hold -/

def pkgCode : PkgState → Nat
  | .booting => 0 | .ready => 1 | .restricted => 2 | .defect => 3

def portCode : PortSt → Nat
  | .disabled => 0 | .training => 1 | .up => 2 | .down => 3 | .configInvalid => 4 | .nodeConflict => 5

/-- PORT_STATE (R370); the lead of a bond reports the bond (R340). -/
def portState (s : State) (p : Nat) : Nat :=
  let x := portOf s p
  let ms := bondMembers s p
  let word (st : Nat) (y : Port) : Nat :=
    st + y.rate % 4 * 2 ^ 3 + y.speed % 8 * 2 ^ 5 + y.neighbour % 4096 * 2 ^ 8 + (if y.capped then 2 ^ 20 else 0)
  if ms.isEmpty then word (portCode x.st) x
  else
    let all := p :: ms
    match all.find? fun m => (portOf s m).st == .up with
    | some m =>
      word 2 (portOf s m) +
        (List.range all.length).foldl (fun a k => if (portOf s (p + 4 * k)).st = .up then a + 2 ^ (21 + k) else a) 0
    | none => word (portCode x.st) x

/-- FACE_STATE: 0 IDLE, 1 RUNNING, 2 DRAINING, 3 DISABLED (R94). [DEDUCED, safe: assumption 37] -/
def faceState (s : State) (d : Nat) : Nat :=
  if s.pkg = .restricted then 3
  else match (faceOf s d).run with
    | some r => if r.ending || (r.drain.isSome && r.allFed) then 2 else 1
    | none => if (faceOf s d).prior.isSome then 2 else 0

def queueState : QState → Nat
  | .closed => 0 | .opened => 1 | .stopped => 2 | .closing => 3

/-- Commands fetched without a written record (R309). -/
def inflight (x : Queue) : Nat := x.fetched.length + x.live.length + x.cplWait.length

def connSel (s : State) : Nat := bits (dv s K.connSel) 0 14

/-- SETT_STALL_MAP: bit n for link n, whichever direction stalled (R14). -/
def stallMap (s : State) : Nat :=
  (List.range 18).foldl (fun a n => if bit s.settStalled (2 * n) || bit s.settStalled (2 * n + 1) then a + 2 ^ n else a) 0

def lockState (s : State) : Nat :=
  (List.range 6).foldl (fun a g => if isLocked s (g + 1) then a + 2 ^ g else a) 0

/-- Time since boot step 1, frozen at step 12 (R420). -/
def bootElapsed (s : State) : Nat :=
  match s.time.bootFrozen with
  | some t => t
  | none => if s.boot.phase = 0 then 0 else s.time.now - s.time.epoch

def minSecVersion (s : State) : Nat :=
  (List.range 5).foldl (fun a k => a + s.part.minSec.get 0 k % 256 * 2 ^ (8 * k)) 0

/-- An I32 pattern, saturating. -/
def i32 (i : Int) : Nat := unsigned 32 (max (-(2 : Int) ^ 31) (min ((2 : Int) ^ 31 - 1) i))

/-- The entries at a queue's index. -/
def queueEntry (s : State) (q sub key : Nat) : Nat :=
  let x := queueOf s q
  match sub with
  | 0 => queueState x.st
  | 10 => 0
  | 11 => x.cplHead
  | 12 => x.head
  | 13 => x.tail
  | 14 => x.status
  | 15 => x.epoch
  | 16 => inflight x
  | _ => dv s key

/-- The value of a scalar entry that some block holds; every other value stands in the store. -/
def blockValue (s : State) (key : Nat) : Nat :=
  let sub := key % 256
  if 0x940000 ≤ key ∧ key < 0x980000 then queueEntry s (key / 256 - 0x9400) sub key
  else
    match key / 256, sub with
    | 0x1004, 1 => s.part.ashlarStepping
    | 0x1004, 2 => s.part.medlarStepping
    | 0x1004, 3 => s.part.rowanStepping
    | 0x1006, 0 => pkgCode s.pkg
    | 0x1006, 1 => s.settFail
    | 0x1006, 2 => s.diesHeld
    | 0x1006, 3 => stallMap s
    | 0x1008, 0 => s.board.clocksAbsent % 2 ^ 15
    | 0x1008, 1 => s.board.straps
    | 0x1100, 1 => s.part.mgmtMac
    | 0x1100, 6 => s.mgmt.link
    | 0x1101, 1 => s.hdp.subs.length
    | 0x2001, n => if n < 16 then (diePower s n).point else (diePower s (n - 16)).ceiling
    | 0x2003, n => if n < 8 then i32 (stationOf s n).tokens else (stationOf s (n - 8)).refill
    | 0x3000, 0 => nodeId s
    | 0x3000, 4 => bits s.board.straps 12 2
    | 0x3002, p => portState s p
    | 0x3006, 3 => (connOf s (connSel s)).st
    | 0x3006, 4 => (connOf s (connSel s)).epoch
    | 0x4006, 0 => (List.range 32).foldl (fun a c => if isRegulated s c then a + 2 ^ c else a) 0
    | 0x5000, 0 => lockState s
    | 0x5011, 1 => if s.xlat.erasing.isSome then 1 else 0
    | 0x5020, 2 => s.part.debugOpenings
    | 0x5022, 2 => if s.boot.attest.isSome then 1 else 0
    | 0x5023, 2 => if s.boot.debugOpen then 1 else 0
    | 0x5023, 4 => s.boot.debugStatus
    | 0x5023, 5 => s.part.jtagIdcode
    | 0x7000, 3 => s.snap.seq
    | 0x7000, 4 => s.snap.time
    | 0x7000, 5 => s.snap.info
    | 0x7000, 6 => if s.snap.busy then 1 else 0
    | 0x7000, 8 => s.snap.captured.get 0 (bits (dv s K.snapSel) 0 24)
    | 0x7001, 3 => s.ev.head
    | 0x7001, 4 => s.ev.tail
    | 0x7001, 6 => s.ev.waiting.length
    | 0x7002, 0 => timeOfDay s
    | 0x7002, 5 => s.time.ptpState
    | 0x7002, 6 => i32 s.time.ptpOffset
    | 0x7002, 8 => s.time.gmId
    | 0x7021, d => (faceOf s d).lfsrShown.toNat
    | 0x7022, d => faceCursor s d
    | 0x7023, d => faceState s d
    | 0x7024, d => (s.grp.groups.cells.filter fun c => c.2.die == d && c.2.place == .resident).length
    | 0x7025, d => (s.grp.groups.cells.filter fun c => c.2.die == d && c.2.place != .resident).length
    | 0x8000, 0 => bits s.board.straps 14 2
    | 0x8000, 1 => s.boot.phase + (match s.boot.awaiting with | some k => 16 * k | none => 0)
    | 0x8000, 2 => s.boot.status
    | 0x8000, 3 => bootElapsed s
    | 0x8002, k => imageInfo s k
    | 0x8003, 1 => s.boot.mismatch + (if s.boot.overridden then 2 ^ 16 else 0)
    | 0x8003, 4 => minSecVersion s
    | 0x8003, 5 => if s.boot.minSecRaised then 1 else 0
    | 0x8003, 6 => s.part.revoked % 16
    | 0x9010, 2 => s.faultq.head
    | 0x9010, 3 => s.faultq.tail
    | 0x9010, 4 => s.faultq.waiting.length
    | _, _ => dv s key

/-! ### Entries of a die held in reset read as zero (R24, R94, R132, R168, R202, R230, R262, R337, R387) -/

/-- The die whose entry this is; none for Rowan's own and the package's. -/
def entryDie (key : Nat) : Option Nat :=
  let i := key / 256
  let sub := key % 256
  if i = 0x4003 ∨ i = 0x4007 ∨ i = 0x6060 ∨ (0x6070 ≤ i ∧ i ≤ 0x6073) then some (sub / 4)
  else if i = 0x2001 then some (sub % 16)
  else if i = 0x2003 then some (sub % 8)
  else if i = 0x6048 ∨ (0x6052 ≤ i ∧ i ≤ 0x6054) then some (8 + sub)
  else if i = 0x6010 ∨ i = 0x2007 ∨ i = 0x6112 ∨ i = 0x6113 then some sub
  else if i = 0x4001 ∨ i = 0x2006 ∨ (0x6020 ≤ i ∧ i ≤ 0x6036) ∨ (0x6040 ≤ i ∧ i ≤ 0x6051) ∨ (0x6061 ≤ i ∧ i ≤ 0x6069) ∨
      i = 0x6091 ∨ i = 0x6092 ∨ i = 0x6111 ∨ (0x7020 ≤ i ∧ i ≤ 0x7025) then (if sub < 8 then some sub else none)
  else none

def ofHeldDie (s : State) (key : Nat) : Bool :=
  match entryDie key with
  | some d => bit s.diesHeld d
  | none => false

/-- A scalar entry as a read finds it. A WO entry reads zero (R395). -/
def readScalar (s : State) (key : Nat) : Nat :=
  match entryOf key with
  | some r => if r.acc = 2 ∨ ofHeldDie s key then 0 else blockValue s key
  | none => 0

/-! ### Event records (R447) -/

/-- PHASE alternates with each pass of the ring (R324, R447). -/
def eventBytes (s : State) (r : EventRec) : List Byte :=
  toBytes 4 r.seq ++ toBytes 2 r.code ++ toBytes 1 r.source ++ toBytes 1 (if r.more = 0 then 0 else 1) ++ toBytes 8 r.time ++
  toBytes 8 r.arg0 ++ toBytes 4 r.arg1 ++ toBytes 2 r.more ++
  toBytes 2 (256 * (if r.seq / dv s K.eventQEntries % 2 = 0 then 1 else 0))

/-- EVENT_NEXT: the record numbered EVENT_Q_HEAD, stored or waiting (R449). [DEDUCED, unsafe: assumption 46] -/
def eventNext (s : State) : List Byte :=
  if s.ev.tail = s.ev.head then List.replicate 32 0#8
  else match s.ev.waiting.find? fun r => r.seq == s.ev.head with
    | some r => eventBytes s r
    | none => toBytes 32 (fwRead 2 (dv s K.eventQBase + 32 * (s.ev.head % dv s K.eventQEntries)) 32 s).1

/-! ### STR and BLOB entries -/

def ascii (t : String) : List Byte := t.toList.map fun c => BitVec.ofNat 8 c.toNat

/-- A routing entry in the layout of Table 7, PEER_OK copied in. -/
def routeShown (s : State) (node : Nat) : Nat :=
  match s.links.routes.find node with
  | some e => e + (if peerOk s node then 2 ^ 59 else 0)
  | none => if peerOk s node then 2 ^ 59 else 0

/-- The value of a STR or BLOB entry. -/
def readBlob (s : State) (key : Nat) : List Byte :=
  match key / 256, key % 256 with
  | 0x1000, 0 => ascii "Heniskard"
  | 0x1000, 1 => ascii "HK-TG-DZ9"
  | 0x1000, 2 => ascii "Damzia"
  | 0x1001, 0 => s.part.serial
  | 0x1007, 0 => toBytes 24 s.part.coreMask
  | 0x3004, n =>
    if 16 ≤ n ∧ n < 24 then ((List.range 512).map fun i => toBytes 8 (routeShown s (512 * (n - 16) + i))).flatten
    else blob s key
  | 0x3006, 2 => toBytes 64 (connOf s (connSel s)).record
  | 0x5020, 0 => match s.part.identity with
    | some k => (Config.identityKey k ++ List.replicate 1793 0#8).take 1793
    | none => List.replicate 1793 0#8
  | 0x5020, 1 => s.part.identityCert
  | 0x5021, n => if n < 8 then toBytes 64 (s.boot.meas.get 0#512 n).toNat else blob s key
  | 0x5022, 1 => s.boot.attestReport
  | 0x5023, 0 => toBytes 32 s.boot.challenge.toNat
  | 0x5023, 3 => toBytes 64 s.part.ownerDebugKey.toNat
  | 0x7001, 5 => eventNext s
  | 0x8003, 3 => toBytes 64 s.part.ownerKey.toNat
  | _, _ =>
    match entryOf key with
    | some r => if r.acc = 2 then List.replicate r.size 0#8 else blob s key
    | none => []

/-- Whether the entry is a STR or a BLOB. -/
def isBlob (key : Nat) : Bool :=
  match entryOf key with
  | some r => r.ty == 7 || r.ty == 8
  | none => false

/-- The staging buffer of an entry: 4,096 bytes, holding the current value until something is staged (R396).
[DEDUCED, unsafe: assumption 75] -/
def stagedBytes (s : State) (key : Nat) : List Byte :=
  match s.dict.staging.find key with
  | some b => b
  | none => (readBlob s key ++ List.replicate 4096 0#8).take 4096

/-! ### The local window (R394–R396) -/

/-- The slot of an entry: a scalar's value, or the length of a STR or BLOB; zero for no entry and, by R395, for WO. -/
def slotValue (s : State) (key : Nat) : Nat :=
  match entryOf key with
  | none => 0
  | some r => if r.acc = 2 then 0 else if isBlob key then (readBlob s key).length else readScalar s key

/-- A load of n bytes from an offset of the dictionary window. -/
def windowLoad (s : State) (off n : Nat) : Nat :=
  if off < 0x8000000 then bits (slotValue s (off / 8)) (8 * (off % 8)) (8 * n)
  else if 0x100000000 ≤ off ∧ off < 0x1100000000 then
    let key := (off - 0x100000000) / 4096
    let b := (off - 0x100000000) % 4096
    if isBlob key && (match entryOf key with | some r => r.acc != 2 | none => false) then
      ofBytes (((readBlob s key).drop b).take n)
    else 0
  else 0

end Sys2Proof.Machine
end

