-- ==== Sys2Proof/Machine/Snap.lean ====
section
/-! DEFINITION. The Shotline and snapshots, counters, the event queue and the error summary (R437–R451). -/

namespace Sys2Proof.Machine

/-! ### Snapshots (R437–R440) -/

/-- Scalar RO entries are captured, in every index range (R440). -/
def isCaptured (key : Nat) : Bool :=
  match entryOf key with
  | some r => r.acc == 0 && r.ty != 7 && r.ty != 8
  | none => false

/-- Add one entry's value to a snapshot. -/
def captureKey (s : State) (key : Nat) (t : Tab Nat) : Tab Nat := t.set 0 key (readScalar s key)

/-- Add every entry of a run of captured ones. -/
def captureRow (s : State) (t : Tab Nat) (r : EntryRow) : Tab Nat :=
  if r.acc = 0 ∧ r.ty ≠ 7 ∧ r.ty ≠ 8 then
    (List.range (r.last + 1 - r.first)).foldl (fun u i => captureKey s (r.first + i) u) t
  else t

/-- Every captured entry of the dictionary, the queues' among them. -/
def captureAll (s : State) : Tab Nat :=
  let t := (List.range 10).foldl (fun u d => (entriesOf d).foldl (captureRow s) u) ⟨[]⟩
  s.queues.cells.foldl (fun u c =>
    queueEntries.foldl (fun w r => if r.acc = 0 then captureKey s (0x940000 + 256 * c.1 + r.first) w else w) u) t

/-- The Shotline message goes out on every ready connection whose SHOT_OUT flag is set (R438, R356). -/
def sendShots (tag : Nat) (s : State) : State :=
  (s.links.conns.cells.filter fun c => connFlag c.2 2 && c.2.st == 1).foldl
    (fun t c => send (.shotline c.1 (nodeId s) s.snap.seq tag) t) s

/-- The root grants a firing, or holds or merges it (R438, R439). Sources: 0 dictionary, 1 SHOT command, 2 event match,
3 SHOT_IN pin, 4 fabric. [DEDUCED, safe: assumption 45] -/
def fireShot (source node tag : Nat) (s : State) : State :=
  if bit (dv s K.shotCtl) 0 then bump K.shotsHeld 1 s
  else if s.snap.busy then bump K.shotsMerged 1 s
  else
    let info := source % 8 + node % 4096 * 2 ^ 3 + tag % 2 ^ 32 * 2 ^ 16
    let t : State := { s with
      snap := { seq := (s.snap.seq + 1) % 2 ^ 32, time := timeOfDay s, info := info, busy := true, captured := captureAll s }
      board := { s.board with shotOutUntil := s.time.now + 100 } }
    let v := if source = 4 then t else sendShots (tag % 2 ^ 32) t
    raise 0x80 10 info v.snap.seq v

/-- SHOT_FIRE (R437): a dictionary write of 1 fires the Shotline. -/
def execShotFire (src v : Nat) (s : State) : Answer :=
  outside s (commitScalar src K.shotFire v (fun w t => (0, if w = 1 then fireShot 0 (nodeId t) 0 t else t)) s).2

/-- SHOT_IN (R437): an edge held high for at least 20 ns fires the Shotline while PIN_EN is 1. -/
def execShotIn (heldNs : Nat) (s : State) : Answer :=
  outside s (if bit (dv s K.shotCtl) 1 && decide (20 ≤ heldNs) then fireShot 3 (nodeId s) 0 s else s)

/-- A message that its connection does not accept is discarded and counted (R469). [DEDUCED, unsafe: assumption 47] -/
def refuseMessage (conn : Nat) (s : State) : State :=
  let k := connOf s conn
  if connMode k = 1 ∧ k.st = 1 then bump K.peerRefusedIn 1 s else bump K.feInboundRefused 1 s

/-- SHOTLINE_MESSAGE (R438): a fabric message fires the Shotline on a connection whose SHOT_IN flag is set.
[DEDUCED, unsafe: assumption 47] -/
def execShotlineMessage (conn node tag : Nat) (s : State) : Answer :=
  let k := connOf s conn
  outside s (if connFlag k 1 && k.st == 1 then fireShot 4 node tag s else refuseMessage conn s)

/-- SNAP_LATCH_DONE (R438): every block has latched. -/
def execSnapLatchDone (s : State) : Answer :=
  when_ (alive s && s.snap.busy) "no block is latching" { s with snap := { s.snap with busy := false } }

/-! ### Counters and the error summary (R446, R450) -/

/-- COUNTER_CLEAR (R446): one counter, those of an index, or every one. -/
def clearCounters (v : Nat) (s : State) : WriteResult :=
  let idx := bits v 0 16
  let key := 256 * idx + bits v 16 8
  let clear (p : Nat → Bool) : State :=
    { s with dict := { s.dict with vals := s.dict.vals.keep fun k _ => !(isCounter k && p k) } }
  if bit v 25 then (0, clear fun _ => true)
  else if bit v 24 then (0, clear fun k => k / 256 == idx)
  else if isCounter key then (0, clear fun k => k == key)
  else (3, s)

/-- COUNTER_CLEAR (R446): the counters it names are set to zero. -/
def execCounterClear (src v : Nat) (s : State) : Answer :=
  outside s (commitScalar src K.counterClear v clearCounters s).2

/-- ERR_SUMMARY_CLEAR (R450): the bits set in the value are cleared. -/
def execErrSummaryClear (src v : Nat) (s : State) : Answer :=
  outside s (commitScalar src K.errSummaryClear v
    (fun w t => (0, setDv K.errSummary (dv t K.errSummary &&& (2 ^ 32 - 1 - w)) t)) s).2

/-! ### Events (R447–R449) -/

/-- Records may be stored: from boot step 7 on, while enabled and the ring has a free slot (R448). -/
def eventRoom (s : State) : Bool :=
  decide (7 ≤ s.boot.phase) && s.pkg != .defect && dv s K.eventQEnable == 1 &&
  decide (ahead s.ev.stored s.ev.head < dv s K.eventQEntries)

/-- Waiting records are stored in SEQ order, as many as the ring takes. -/
def storeEvents : Nat → State → State
  | 0, s => s
  | n + 1, s =>
    match s.ev.waiting with
    | [] => s
    | r :: rest =>
      if eventRoom s then
        let t := fwWrite 2 (dv s K.eventQBase + 32 * (r.seq % dv s K.eventQEntries)) 32 (ofBytes (eventBytes s r)) s
        storeEvents n { t with ev := { t.ev with waiting := rest, stored := (r.seq + 1) % 2 ^ 32 } }
      else s

def storeWaiting (s : State) : State := storeEvents s.ev.waiting.length s

/-- One more event of its code in a record, wherever the record still waits. -/
def foldInto (seq : Nat) (s : State) : State :=
  let f (r : EventRec) : EventRec := if r.seq = seq then { r with more := min (r.more + 1) 0xFFFF } else r
  { s with ev := { s.ev with waiting := s.ev.waiting.map f }
           hdp := { s.hdp with subs := s.hdp.subs.map fun u => { u with waiting := u.waiting.map f } } }

/-- The record an event is folded into: its code's record with COALESCED set, or, once 64 records wait, the latest of its
code (R448). -/
def foldTarget (s : State) (code : Nat) : Option Nat :=
  match s.ev.waiting.find? fun r => r.code == code && r.more != 0 with
  | some r => some r.seq
  | none =>
    if s.ev.waiting.length < 64 then none
    else (s.ev.waiting.reverse.find? fun r => r.code == code).map (·.seq)

/-- A record reaches a subscriber, which holds one message of 32 of them; a record beyond is dropped for it (R404).
[DEDUCED, unsafe: assumption 46] -/
def tellSubs (r : EventRec) (s : State) : State :=
  let lost := (s.hdp.subs.filter fun u => decide (u.waiting.length ≥ 32)).length
  bump K.hdpEventsDropped lost { s with hdp := { s.hdp with
    subs := s.hdp.subs.map fun u => if u.waiting.length ≥ 32 then u else { u with waiting := u.waiting ++ [r] } } }

/-- The event-queue arbiter grants an event: a record of its own, or one more in a waiting record (R447, R448). -/
def grantEvent (r : EventRec) (s : State) : State :=
  let t := bump K.eventsRaised 1 s
  match foldTarget t r.code with
  | some q => t |> foldInto q |> bump K.eventsCoalesced 1 |> sumErr 15
  | none =>
    let r2 : EventRec := { r with seq := t.ev.tail }
    let u : State := { t with ev := { t.ev with waiting := t.ev.waiting ++ [r2], tail := (t.ev.tail + 1) % 2 ^ 32 } }
    u |> tellSubs r2 |> storeWaiting

/-- EVENT_RAISE (R447): the i-th event on its way is granted; one whose code is SHOT_MATCH then fires the Shotline (R437).
[DESIGN CHOICE, safe: assumption 38] -/
def execEventRaise (i : Nat) (s : State) : Answer :=
  match s.ev.inFlight[i]? with
  | none => stuck "no such event is on its way"
  | some r =>
    if !alive s then stuck "the package does not run"
    else if !routeOpen s r.source 10 then stuck "the event is held on a stalled link"
    else
      let t := grantEvent r { s with ev := { s.ev with inFlight := s.ev.inFlight.eraseIdx i } }
      .next (if r.code = dv t K.shotMatch then fireShot 2 (nodeId t) 0 t else t)

/-- EVENT_Q_HEAD (R449): a consumer advances the head; records consumed while they wait leave Rowan, and freed slots are
filled. [DEDUCED, unsafe: assumption 46] -/
def writeEventHead (v : Nat) (s : State) : WriteResult :=
  let h := s.ev.head
  if ahead v h ≤ ahead s.ev.tail h then
    let kept := s.ev.waiting.filter fun r => decide (ahead r.seq h ≥ ahead v h)
    let stored := if ahead s.ev.stored h < ahead v h then v else s.ev.stored
    (0, storeWaiting { s with ev := { s.ev with head := v, waiting := kept, stored := stored } })
  else (3, s)

/-- EVENT_Q_HEAD (R449): advancing the head frees slots in the event ring. -/
def execEventQHead (src v : Nat) (s : State) : Answer :=
  outside s (commitScalar src K.eventQHead v writeEventHead s).2

end Sys2Proof.Machine
end

