-- ==== Sys2Proof/Machine/Control.lean ====
section
/-! DEFINITION. The control commands, and what an ABORT does to each kind of command (R311, R316–R319). -/

namespace Sys2Proof.Machine

/-! ### Fence intervals (R311, R312) -/

/-- SEQ a lies strictly before b, within half the range. -/
def seqBefore (a b : Nat) : Bool := a != b && decide (ahead b a < 2 ^ 31)

/-- The latest fence before a SEQ, none where no fence stands before it since the queue opened. -/
def fenceBefore (x : Queue) (f : Nat) : Option Nat :=
  (x.fences.filter fun p => seqBefore p f).foldl (fun a p => match a with
    | some b => if seqBefore b p then some p else some b
    | none => some p) none

/-- Commands strictly between the fence before f and f. -/
def intervalLength (x : Queue) (f : Nat) : Nat :=
  match fenceBefore x f with
  | some p => ahead f p - 1
  | none => f

/-- Results of the commands of f's interval. [DEDUCED, unsafe: assumption 48] -/
def intervalResults (x : Queue) (f : Nat) : List (Nat × Status) :=
  x.results.filter fun r => seqBefore r.1 f && (match fenceBefore x f with
    | some p => seqBefore p r.1
    | none => true)

/-- The first command of the interval, in ring order, that completed with another status than DONE and DONE_CORRECTED. -/
def intervalFailure (x : Queue) (f : Nat) : Option Status :=
  ((intervalResults x f).filter fun r => r.2 != .done && r.2 != .doneCorrected).foldl
    (fun a r => match a with
      | some b => if seqBefore r.1 b.1 then some r else some b
      | none => some r) (none : Option (Nat × Status)) |>.map (·.2)

/-- A fence begins the next interval: what stands before it is needed no more. -/
def beginInterval (f : Nat) (x : Queue) : Queue :=
  { x with fences := x.fences.filter (fun p => seqBefore f p) ++ [f], results := x.results.filter fun r => seqBefore f r.1 }

/-! ### Steps of control commands: a fault is a status, and nothing is switched out (R318) -/

/-- The outcomes a control command's step has met, its fault among them. -/
def ctlClose (u : UStep) : State :=
  uClose (match u.fault with
    | some f => u.met (causeStatus f.cause)
    | none => u)

/-- FENCE: it completes as soon as it starts, with the remote failure of its interval (R311). -/
def execFence (q seq : Nat) (s : State) : Answer :=
  match handed s q seq 0x08 with
  | none => stuck "no such command is handed over"
  | some _ =>
    let key := jobKey q seq
    let x := queueOf s q
    let rs := (intervalResults x seq).map (·.2)
    let st : Status := if rs.contains .frontendGone then .frontendGone
      else if rs.contains .remoteAbandoned then .remoteAbandoned else .done
    .next (finishWith key st (setDetail key (intervalLength x seq) (setQueue q (beginInterval seq x) s)))

/-- NOP: the command completes without effect; its bytes 16–255 are reserved (R302). -/
def execNop (q seq : Nat) (s : State) : Answer :=
  match handed s q seq 0x0F with
  | none => stuck "no such command is handed over"
  | some j => .next (finishWith (jobKey q seq) (if zeros j.raw 16 255 then .done else .descriptorInvalid) s)

/-- SHOT: it fires the Shotline with its tag (R318, R437). -/
def execShot (q seq : Nat) (s : State) : Answer :=
  match handed s q seq 0x0E with
  | none => stuck "no such command is handed over"
  | some j =>
    let key := jobKey q seq
    if !zeros j.raw 20 255 then .next (finishWith key .descriptorInvalid s)
    else if !(ctxOf s j.ctx).dict then .next (finishWith key .domainDenied s)
    else .next (finishWith key .done (fireShot 1 (nodeId s) (fld j.raw 16 4) s))

def inlineOk (d : Nat) : Bool :=
  decide (fld d 16 8 < 2 ^ 48) && decide (1 ≤ fld d 24 2) && decide (fld d 24 2 ≤ 192) && zeros d 26 63

/-- The transfers of an INLINE_WRITE, one for each line, in no promised order. A transfer that faults is not performed; which
of the others the command then makes is open. [DESIGN CHOICE, safe: assumption 53] -/
def inlinePut (va n val : Nat) (u : UStep) : UStep :=
  let put (p : Nat × Nat) (v : UStep) : UStep := uPut p.1 p.2 (bits val (8 * (p.1 - va)) (8 * p.2)) v
  let bad (p : Nat × Nat) : Bool := (put p u).fault.isSome
  let parts := lineParts va n 4
  if parts.any bad then
    let r := takeFree u.st
    let made := parts.filter fun p => bad p || bit r.1 (p.1 / 128 % 4)
    made.foldl (fun v p =>
      let w := put p v
      match w.fault with
      | some f => { w.met (causeStatus f.cause) with fault := none }
      | none => w) { u with st := r.2 }
  else uPut va n val u

/-- INLINE_WRITE: LENGTH payload bytes go to the destination, line by line (R318). [DESIGN CHOICE, safe: assumption 53] -/
def execInlineWrite (q seq : Nat) (s : State) : Answer :=
  match handed s q seq 0x0D with
  | none => stuck "no such command is handed over"
  | some j =>
    let key := jobKey q seq
    if !inlineOk j.raw then .next (finishWith key .descriptorInvalid s)
    else
      let n := fld j.raw 24 2
      let u := inlinePut (fld j.raw 16 8) n (fld j.raw 64 n) (UStep.start j.ctx key 10 s)
      if u.held then waitAnswer "the write has not reached its home" u s else .next (finishAcked key (ctlClose u))

def signalWidth (d : Nat) : Nat := if fld d 32 1 = 1 then 4 else 8

def signalOk (d : Nat) : Bool :=
  decide (fld d 16 8 < 2 ^ 48) && decide (fld d 32 1 ≤ 2) && decide (fld d 33 1 ≤ 1) && zeros d 34 255 &&
  fld d 16 8 % signalWidth d == 0

/-- The atomic add needs a Normal-cached MEMORY segment (R317). -/
def signalAddOk (s : State) (ctx va : Nat) : Bool :=
  match (landing s ctx va needW).1 with
  | .ok x => (match x.target with
    | .memory _ => x.region == 0
    | _ => false)
  | _ => true

/-- SIGNAL: it writes its flag value or adds it at the home (R317, R318). [DEDUCED, unsafe: assumption 49] -/
def execSignal (q seq : Nat) (s : State) : Answer :=
  match handed s q seq 0x09 with
  | none => stuck "no such command is handed over"
  | some j =>
    let key := jobKey q seq
    let va := fld j.raw 16 8
    let v := fld j.raw 24 8
    let add := fld j.raw 32 1 == 2
    if !signalOk j.raw || (add && !signalAddOk s j.ctx va) then .next (finishWith key .descriptorInvalid s)
    else
      let u0 := UStep.start j.ctx key 10 s
      let u := if add then
          uReduceLine (va - va % 128) 0 3 (BitVec.ofNat 1024 (v * 2 ^ (8 * (va % 128)))) (spanMask (va % 128) 8) u0
        else uPut va (signalWidth j.raw) v u0
      if u.held then waitAnswer "the write has not reached its home" u s else .next (finishAcked key (ctlClose u))

/-! ### WAIT (R316, R318) -/

def waitAddr (d : Nat) : Nat := fld d 16 8
def waitMask (d : Nat) : Nat := if fld d 32 8 = 0 then 2 ^ 64 - 1 else fld d 32 8

def waitOk (d : Nat) : Bool :=
  decide (waitAddr d < 2 ^ 48) && waitAddr d % 8 == 0 && decide (fld d 40 1 ≤ 4) && zeros d 41 255

def waitTest (d v : Nat) : Bool := waitHolds (fld d 40 1) (v &&& waitMask d) (fld d 24 8)

def dropWatch (key : Nat) (s : State) : State := { s with mem := { s.mem with watches := s.mem.watches.del key } }

/-- A WAIT completes: with the value that met its condition, or with a failure. -/
def endWait (key v : Nat) (s : State) : State := finishJob key (setDetail key v (dropWatch key s))

/-- What a WAIT's own read leaves: it completes, or goes on waiting on its line or until the next poll.
[DEDUCED, unsafe: assumption 50] -/
def waitRead (key : Nat) (j : Job) (s : State) : Answer :=
  let va := waitAddr j.raw
  let r := uGet va 8 (UStep.start j.ctx key 10 s)
  if r.2.held then waitAnswer "the read has not come" r.2 s
  else
    let u := if r.1.poison && !r.1.failed then r.2.met .poisonRead else r.2
    let t := ctlClose u
    if u.fault.isSome || r.1.poison || r.1.failed then .next (endWait key 0 t)
    else if waitTest j.raw r.1.val then .next (endWait key r.1.val t)
    else
      let w := dropWatch key (runJob key t)
      match (landing s j.ctx va needR).1 with
      | .ok x => (match x.target with
        | .memory off =>
          let y : Watch := { off := off, tracked := x.tracked, mask := waitMask j.raw, operand := fld j.raw 24 8,
                             cond := fld j.raw 40 1, hit := none, seg := 16 * x.ctx + x.seg, again := false }
          .next { w with mem := { w.mem with watches := w.mem.watches.put key y } }
        | _ => .next (setDetail key w.time.now w))
      | _ => .next w

/-- WAIT: it tests once at start; a write of its line that meets the condition, or brings poison, then ends it. One whose
segment has changed at its home reads again (R290, R291). [DEDUCED, unsafe: assumption 50] -/
def execWait (q seq : Nat) (s : State) : Answer :=
  let key := jobKey q seq
  match handed s q seq 0x0A with
  | some j =>
    if !waitOk j.raw then .next (finishWith key .descriptorInvalid s) else waitRead key j s
  | none =>
    match s.mem.watches.find key, s.jobs.find key with
    | some w, some j =>
      (match w.hit with
      | some (_, true) => .next (endWait key 0 (addOut key .poisonRead s))
      | some (v, false) => .next (endWait key v s)
      | none => if w.again then waitRead key j s else stuck "the condition does not hold")
    | _, _ => stuck "no such WAIT"

/-- WAIT_POLL: a WAIT on PEER or FRONTEND memory reads again each WAIT_POLL_NS. -/
def execWaitPoll (q seq : Nat) (s : State) : Answer :=
  let key := jobKey q seq
  match s.jobs.find key with
  | some j =>
    if j.phase == .running && opGen2 j.gen j.opcode == some 0x0A && (s.mem.watches.find key).isNone then
      waitRead key j (atLeast (j.detail + dv s K.waitPollNs) s)
    else stuck "no such WAIT polls"
  | none => stuck "no such WAIT polls"

/-! ### ABORT (R319, R332) -/

/-- A command completes before it has started, its bytes read: its result and its record (R302, R319). -/
def completeWith (q : Nat) (f : Fetched) (st : Status) (detail : Nat) (s : State) : State :=
  let x := queueOf s q
  let op := fld f.raw 0 1
  let t := countCompleted x.gen op (setQueue q { x with results := x.results ++ [(f.seq, st)] } s)
  if x.cplDead then t
  else addRecord q { seq := f.seq, status := st, opcode := op, tag := fld f.raw 8 8, detail := detail, time := timeOfDay s } t

/-- It completes with nothing to report beside its status (R326). -/
def completeRaw (q : Nat) (f : Fetched) (st : Status) (s : State) : State :=
  completeWith q f st (startDetail (queueOf s q).gen (fld f.raw 0 1)) s

/-- A command that an ABORT removes completes though its queue will never read it: the opcode and tag that its record
carries are not known. [DEDUCED, unsafe: assumption 51] -/
def completeUnread (q : Nat) (s : State) (seq : Nat) : State :=
  let a := takeFree s
  let b := takeFree a.2
  completeRaw q { seq := seq, raw := a.1 % 256 + b.1 % 2 ^ 64 * 2 ^ 64 } .aborted b.2

/-- Whether the fetched command's header is in order (R301, R302, R6): its FENCE bit has effect only then.
[DEDUCED, unsafe: assumption 48] -/
def headerOk (x : Queue) (raw : Nat) : Bool :=
  (opGen2 x.gen (fld raw 0 1)).isSome && fld raw 2 1 == x.gen && bits (fld raw 1 1) 3 5 == 0 && fld raw 3 1 == 0 &&
  (!bit (fld raw 1 1) 2 || bit (fld raw 1 1) 0) &&
  !(opGen2 x.gen (fld raw 0 1) == some 0x08 && !zeros raw 16 255)

/-- The command begins a fence interval: its FENCE bit is set, or it is a FENCE command. [DEDUCED, unsafe: assumption 48] -/
def isFence (x : Queue) (raw : Nat) : Bool := bit (fld raw 1 1) 0 || opGen2 x.gen (fld raw 0 1) == some 0x08

/-- A route of the command is already ending. -/
def routeEnding (s : State) (key : Nat) : Bool :=
  (List.range 8).any fun d => match routeOf s d key with
    | some r => r.aborted
    | none => false

/-- The launch has been aborted. -/
def launchAborted (s : State) (key : Nat) : Bool :=
  match s.grp.launches.find key with
  | some l => l.aborted
  | none => true

/-- An ABORT of a command that its unit runs (Table 6); none where it comes late. -/
def abortRunning (key kind : Nat) (s : State) : Option State :=
  match kind with
  | 0x01 => abortFace key .queue s
  | 0x02 => if launchAborted s key then none else some (abortLaunch key s)
  | 0x03 => abortHaul key s
  | 0x04 => abortHaul key s
  | 0x05 => abortColl key s
  | 0x06 => if routeEnding s key then none else abortRoute key s
  | 0x07 => if routeEnding s key then none else abortRoute key s
  | 0x0A => some (endWait key 0 (addOut key .aborted s))
  | 0x0B => (abortUpdate key s).map (finishWith key .aborted)
  | _ => none

/-- An ABORT of a command that has been handed to its unit: removed where it has not started (R319). -/
def abortJob (key : Nat) (s : State) : Option State :=
  match s.jobs.find key with
  | none => none
  | some j =>
    if j.phase == .ending || j.outs.contains .aborted then none
    else
      let kind := (opGen2 j.gen j.opcode).getD 0
      if (j.phase == .handed || j.phase == .blocked) && kind != 0x0C && kind != 0x08 then
        some (finishWith key .aborted s)
      else abortRunning key kind s

/-- A command that its queue has not handed over yet is removed. -/
def abortFetched (q seq : Nat) (s : State) : Option State :=
  let x := queueOf s q
  match x.fetched.find? fun f => f.seq == seq with
  | none => none
  | some f =>
    let y : Queue := { x with fetched := x.fetched.filter (fun g => g.seq != seq)
                              fences := if headerOk x f.raw && isFence x f.raw then x.fences ++ [seq] else x.fences }
    some (completeRaw q f .aborted (setQueue q y s))

/-- What an ABORT answers, and what it leaves. A target that a STOPPED queue will never fetch completes at once.
[DEDUCED, unsafe: assumption 51] -/
def abortTarget (tq ts : Nat) (s : State) : Status × State :=
  let x := queueOf s tq
  if x.st = .closed then (.abortLate, s)
  else if notBehind ts x.tail then (.descriptorInvalid, s)
  else if x.st = .closing then (.abortLate, s)
  else match abortFetched tq ts s with
    | some t => (.done, t)
    | none =>
      if x.live.contains ts then
        (match abortJob (jobKey tq ts) s with
        | some t => (.done, t)
        | none => (.abortLate, s))
      else if notBehind ts x.head && !x.killed.contains ts then
        let t := setQueue tq { x with killed := x.killed ++ [ts] } s
        (.done, if x.st = .stopped then completeUnread tq t ts else t)
      else (.abortLate, s)

/-- DETAIL of an ABORT: TARGET_SEQ and the 10 bits of TARGET_QUEUE (R326). -/
def abortDetail (raw : Nat) : Nat := fld raw 20 4 + bits (fld raw 16 2) 0 10 * 2 ^ 32

/-- ABORT (R319): it starts as soon as it is fetched, and acts on its target. [DEDUCED, unsafe: assumption 51] -/
def execAbort (q seq : Nat) (s : State) : Answer :=
  match handed s q seq 0x0C with
  | none => stuck "no such command is handed over"
  | some j =>
    let key := jobKey q seq
    let tq := fld j.raw 16 2
    let ts := fld j.raw 20 4
    let ok := fld j.raw 1 1 &&& 0xFD == 0 && fld j.raw 3 1 == 0 && decide (tq < 1024) && zeros j.raw 18 19 && zeros j.raw 24 255
    let s1 := setDetail key (abortDetail j.raw) s
    let own := (ctxOf s j.ctx).domain
    if !ok then .next (finishWith key .descriptorInvalid s1)
    else if own != 0 && own != (ctxOf s (bits (dv s (0x940000 + 256 * tq + 2)) 0 12)).domain then .next (finishWith key .domainDenied s1)
    else
      let r := abortTarget tq ts s1
      .next (finishWith key r.1 r.2)

end Sys2Proof.Machine
end

