-- ==== Sys2Proof/Machine/Queue.lean ====
section
/-! DEFINITION. Command queues: opening, closing, doorbells, fetching, starting and completion records (R296–R312, R324,
R469, R470). -/

namespace Sys2Proof.Machine

def qKey (q sub : Nat) : Nat := 0x940000 + 256 * q + sub

def cmdBytes (gen : Nat) : Nat := if gen = 1 then 128 else 256

/-! ### Opening and closing (R297, R298, R300) -/

/-- A ring's length is a power of two from 16 to 65,536 (R298). -/
def ringLength (n : Nat) : Bool := isPow2 n && decide (16 ≤ n) && decide (n ≤ 65536)

/-- The configuration can be opened (R298); a DEFECT package opens no queue (R13). -/
def canOpen (s : State) (q : Nat) : Bool :=
  let g (sub : Nat) : Nat := dv s (qKey q sub)
  let gen := g 1
  s.pkg != .defect && (gen == 1 || gen == 2) && ringLength (g 5) && ringLength (g 7) &&
  g 4 % cmdBytes gen == 0 && g 6 % 64 == 0 && (ctxOf s (bits (g 2) 0 12)).valid &&
  (g 3 != 1 || connMode (connOf s (bits (g 8) 0 14)) == 2)

/-- A CLOSED queue opens with its configuration. -/
def openQueue (q : Nat) (s : State) : WriteResult :=
  if (queueOf s q).st ≠ .closed ∨ !canOpen s q then (7, s)
  else
    let g (sub : Nat) : Nat := dv s (qKey q sub)
    let conn := bits (g 8) 0 14
    (0, setQueue q { Queue.closed with
      st := .opened, gen := g 1, ctx := bits (g 2) 0 12, ringLoc := g 3, ringAddr := g 4, ringEntries := g 5,
      cplAddr := g 6, cplEntries := g 7, conn := conn, rkey := g 9, epoch := (connOf s conn).epoch } s)

/-- A command that has started is aborted as its queue closes, and no record of it is written. One that its unit has not
accepted is discarded. [DEDUCED, unsafe: assumption 51] -/
def closeJob (q : Nat) (s : State) (seq : Nat) : State :=
  let key := jobKey q seq
  match s.jobs.find key with
  | none => s
  | some j =>
    if (j.phase == .handed || j.phase == .blocked) && opGen2 j.gen j.opcode != some 0x0C then
      let x := queueOf s q
      setQueue q { x with live := x.live.filter (· != seq) } { s with jobs := s.jobs.del key }
    else
      let t := setJob key { j with mute := true } s
      (abortJob key t).getD t

/-- A queue fetches no more: its second read and the read under way come to nothing. -/
def endFetch (q : Nat) (s : State) : State :=
  let t := dropArrived (.ring q) s
  setQueue q { queueOf t q with reread := none, held := false } t

/-- Closing ends fetching and discards what has not started (R300). -/
def closeQueue (q : Nat) (s : State) : WriteResult :=
  let x := queueOf s q
  if x.st = .closed then (7, s)
  else if x.st = .closing then (0, s)
  else
    let t := endFetch q (setQueue q { x with st := .closing, status := 0, fetched := [], killed := [], cplWait := [] } s)
    (0, x.live.foldl (closeJob q) t)

/-- Q_STATE (R297). -/
def writeQState (q v : Nat) (s : State) : WriteResult :=
  if v = 1 then openQueue q s else if v = 0 then closeQueue q s else (3, s)

/-- QUEUE_OPEN: a write of 1 to Q_STATE. -/
def execQueueOpen (src q : Nat) (s : State) : Answer :=
  outside s (commitScalar src (qKey (q % 1024) 0) 1 (writeQState (q % 1024)) s).2

/-- QUEUE_CLOSE: a write of 0 to Q_STATE. -/
def execQueueClose (src q : Nat) (s : State) : Answer :=
  outside s (commitScalar src (qKey (q % 1024) 0) 0 (writeQState (q % 1024)) s).2

/-- QUEUE_CLOSE_DONE: every started command of a CLOSING queue has resolved. -/
def execQueueCloseDone (q : Nat) (s : State) : Answer :=
  let x := queueOf s q
  when_ (x.st == .closing && x.live.isEmpty) "a started command has not resolved" (setQueue q { x with st := .closed } s)

/-! ### Doorbells (R306, R307) -/

def tailOk (x : Queue) (v : Nat) : Bool := notBehind v x.tail && decide (ahead v x.head ≤ x.ringEntries)

def cplHeadOk (x : Queue) (v : Nat) : Bool := notBehind v x.cplHead && notBehind x.cplWritten v

/-- A refused doorbell counts (R306, R307). -/
def refuseBell (s : State) : State := bump K.doorbellRefused 1 s

/-- Q_DOORBELL: a new TAIL of a device-memory queue. -/
def writeDoorbell (q v : Nat) (s : State) : WriteResult :=
  let x := queueOf s q
  if x.ringLoc ≠ 0 ∨ x.st ≠ .opened then (7, refuseBell s)
  else if tailOk x v then (0, bump K.doorbells 1 (setQueue q { x with tail := v } s))
  else (3, refuseBell s)

/-- Q_CPL_HEAD: records of a device-memory queue consumed. -/
def writeCplHead (q v : Nat) (s : State) : WriteResult :=
  let x := queueOf s q
  if x.ringLoc ≠ 0 ∨ x.st = .closed then (7, s)
  else if cplHeadOk x v then (0, setQueue q { x with cplHead := v } s)
  else (3, s)

/-- A refused write still counts its doorbell: the count is kept beside the refusal (R306, R391). -/
def commitDoorbell (src q v : Nat) (s : State) : WriteResult :=
  let key := qKey q 10
  let r := writeDoorbell q v s
  if writeCheck s key ≠ 0 ∨ r.1 = 0 then commitScalar src key v (writeDoorbell q) s
  else (r.1, refuseWrite src key r.1 r.2)

/-- Q_DOORBELL (R306). -/
def execQDoorbell (src q v : Nat) (s : State) : Answer :=
  outside s (commitDoorbell src (q % 1024) (v % 2 ^ 32) s).2

/-- Q_CPL_HEAD (R306). -/
def execQCplHead (src q v : Nat) (s : State) : Answer :=
  outside s (commitScalar src (qKey (q % 1024) 11) v (writeCplHead (q % 1024)) s).2

/-- A doorbell message of 16 bytes (R307). -/
def takeDoorbell (conn p : Nat) (s : State) : State :=
  let q := fld p 0 2
  let tail := fld p 4 4
  let cpl := fld p 8 4
  let x := queueOf s q
  if decide (q < 1024) && fld p 2 2 == 0 && fld p 12 4 == 0 && x.ringLoc == 1 && x.conn == conn && x.st == .opened &&
      tailOk x tail && cplHeadOk x cpl then
    bump K.doorbells 1 (setQueue q { x with tail := tail, cplHead := cpl } s)
  else refuseBell s

/-- DOORBELL (R307, R469): a 16-byte send on a FRONTEND connection in the ready state; elsewhere it is discarded. -/
def execDoorbell (conn payload : Nat) (s : State) : Answer :=
  let k := connOf s conn
  outside s (if connMode k = 2 ∧ k.st = 1 then takeDoorbell conn payload (send (.roceAck conn) s) else refuseMessage conn s)

/-- SEND_DISCARD (R469): a send that is neither of 16 bytes, and so a doorbell, nor of up to 4,096 bytes on a connection with
HDP_IN set, and so an HDP request. -/
def execSendDiscard (conn len : Nat) (s : State) : Answer :=
  let k := connOf s conn
  let ready := connMode k == 2 && k.st == 1
  if ready && (len == 16 || (decide (len ≤ 4096) && connFlag k 0)) then stuck "the send is a doorbell or an HDP request"
  else outside s (refuseMessage conn (if ready then send (.roceAck conn) s else s))

/-- ROCE_PACKET_DISCARD (R469): a packet for a context that is unused or in the error state. -/
def execRocePacketDiscard (conn : Nat) (s : State) : Answer :=
  if (connOf s conn).st = 1 then stuck "the connection is ready" else outside s (bump K.feInboundRefused 1 s)

/-! ### Fetching (R304, R308, R309) -/

/-- A command is handed to its unit. -/
def handOver (q : Nat) (f : Fetched) (s : State) : State :=
  let x := queueOf s q
  let j : Job := { opcode := fld f.raw 0 1, gen := x.gen, tag := fld f.raw 8 8, ctx := x.ctx, quiet := bit (fld f.raw 1 1) 1,
                   raw := f.raw, staged := false, phase := .handed, outs := [],
                   detail := startDetail x.gen (fld f.raw 0 1), mute := false, gone := false, counted := 0 }
  setQueue q { x with live := x.live ++ [f.seq] } (setJob (jobKey q f.seq) j s)

/-- A command of the expected SEQ is fetched. One that an ABORT removed completes at once; an ABORT starts at once (R316,
R319). [DEDUCED, unsafe: assumption 48; DEDUCED, unsafe: assumption 51] -/
def takeCommand (q raw : Nat) (s : State) : State :=
  let x := queueOf s q
  let f : Fetched := { seq := x.head, raw := raw }
  let y : Queue := { x with head := (x.head + 1) % 2 ^ 32 }
  if x.killed.contains f.seq then
    completeRaw q f .aborted (setQueue q { y with
      killed := x.killed.filter (· != f.seq)
      fences := if headerOk x raw && isFence x raw then x.fences ++ [f.seq] else x.fences } s)
  else if x.gen = 2 ∧ fld raw 0 1 = 0x0C ∧ fld raw 2 1 = 2 then handOver q f (setQueue q y s)
  else setQueue q { y with fetched := x.fetched ++ [f] } s

/-- Targets of ABORTs that the queue will never fetch complete as it stops (R319). [DEDUCED, unsafe: assumption 51] -/
def finishKilled (q : Nat) (s : State) : State := (queueOf s q).killed.foldl (completeUnread q) s

/-- Fetching has ended: the queue is STOPPED, and a record names the SEQ expected (R304, R470). -/
def stopFetch (q : Nat) (st : Status) (opcode tag : Nat) (s : State) : State :=
  let x := queueOf s q
  let code := statusCode st
  let t := raise 0x50 10 code q (endFetch q (setQueue q { x with st := .stopped, status := code } s))
  finishKilled q (if x.cplDead then t
    else addRecord q { seq := x.head, status := st, opcode := opcode, tag := tag, detail := 0, time := timeOfDay s } t)

/-- A ring read failed: what the command held is not known (R470). [DEDUCED, unsafe: assumption 52] -/
def stopUnread (q : Nat) (st : Status) (s : State) : State :=
  let a := takeFree s
  let b := takeFree a.2
  stopFetch q st (a.1 % 256) (b.1 % 2 ^ 64) b.2

/-- What the read of a slot comes to: it waits, it stops the queue, or it brings the command's bytes. -/
inductive Slot where
  | waits (u : UStep)
  | failed (st : Status) (s : State)
  | got (raw : Nat) (s : State)

/-- The slot of the next command of a device-memory ring (R299, R308, R470). -/
def readSlot (q : Nat) (s : State) : Slot :=
  let x := queueOf s q
  let n := cmdBytes x.gen
  let r := uGet (x.ringAddr + n * (x.head % x.ringEntries)) n { UStep.start x.ctx 0 10 s with owner := .ring q }
  if r.2.held then .waits r.2
  else
    let t := dropArrived (.ring q) r.2.st
    match r.2.fault with
    | some f => .failed (causeStatus f.cause) t
    | none =>
      if r.1.failed then .failed (statusOf r.2.outs) t
      else if r.1.poison then .failed .poisonRead t
      else .got r.1.val t

/-- A fetched slot: the command is taken, or its SEQ differs and is read again after 1,000 ns. Tells whether to go on. -/
def takeSlot (q raw : Nat) (s : State) : Bool × State :=
  let x := queueOf s q
  if fld raw 4 4 = x.head then (true, takeCommand q raw s)
  else (false, setQueue q { x with reread := some s.time.now } s)

/-- Slots of a device-memory ring, one after another; a slot that has not come is asked for, and fetching goes on there.
[DEDUCED, unsafe: assumption 39; DEDUCED, unsafe: assumption 52] -/
def fetchDevice (q : Nat) : Nat → State → State
  | 0, s => s
  | n + 1, s =>
    match readSlot q s with
    | .waits u => keepAsking u s
    | .failed st t => stopUnread q st t
    | .got raw t =>
      let r := takeSlot q raw t
      if r.1 then fetchDevice q n r.2 else r.2

/-- Slots that an RDMA read returned. -/
def fetchRemote (q : Nat) : List Nat → State → State
  | [], s => s
  | raw :: rest, s =>
    let r := takeSlot q raw s
    if r.1 then fetchRemote q rest r.2 else r.2

/-! ### The ring of a front-end (R299, R308) -/

/-- A front-end address of a queue's rings, under its connection and remote key, without a segment. -/
def ringPlace (x : Queue) (at_ : Nat) : Xl :=
  { ctx := 4096, seg := 0, gen := 0, epoch := 0, domain := 0, partition := 0, tracked := false, region := 1,
    target := .frontend at_ x.conn x.rkey }

/-- The slots that one read of a front-end ring takes in: n of them, or as many as lie before the ring's end. -/
def ringSpan (x : Queue) (n : Nat) : Nat := min n (x.ringEntries - x.head % x.ringEntries)

/-- The answer of a queue's RDMA read. -/
def ringAnswer (s : State) (q : Nat) : Option Arrived := s.links.arrived.find? fun a => a.owner == .ring q

/-- A queue's RDMA read is outstanding. -/
def ringOut (s : State) (q : Nat) : Bool := s.links.txns.cells.any fun c => c.2.owner == .ring q && c.2.read

/-- The slots that have come for a queue; none where the read is still to be sent, or has not been answered. -/
def ringSlots (s : State) (q : Nat) : Option (List Nat) :=
  match ringAnswer s q with
  | some a => (match a.answer with
    | .data b =>
      let n := cmdBytes (queueOf s q).gen
      some ((List.range (a.len / n)).map fun i => ofBytes ((b.drop (n * i)).take n))
    | _ => none)
  | none => none

/-- A queue reads n slots of its front-end ring by one RDMA read. [DEDUCED, unsafe: assumption 52] -/
def askRing (q n : Nat) (s : State) : Answer :=
  let x := queueOf s q
  let b := cmdBytes x.gen
  if ringOut s q then stuck "the RDMA read has not returned"
  else .next (openTxn (ringPlace x (x.ringAddr + b * (x.head % x.ringEntries))) (b * ringSpan x n) true [] (.ring q) s).2

/-- The queue's connection still stands in the epoch in which the queue was opened (R336). -/
def epochStands (s : State) (x : Queue) : Bool :=
  let k := connOf s x.conn
  k.st == 1 && k.epoch == x.epoch && !k.epochEnded

/-- COMMAND_FETCH (R308): up to 16 commands are read and fetched. A front-end ring is read by RDMA: the command sends the
read, and once it has returned fetches what it brought. -/
def execCommandFetch (q : Nat) (s : State) : Answer :=
  let x := queueOf s q
  let n := min 16 (min (ahead x.tail x.head) (256 - inflight x))
  if x.st ≠ .opened ∨ x.reread.isSome ∨ x.tail = x.head then stuck "the queue has nothing to fetch"
  else if inflight x ≥ 256 then
    if x.held then stuck "256 commands are in flight"
    else .next (bump K.queueInflightStalls 1 (setQueue q { x with held := true } s))
  else
    let t := setQueue q { x with held := false } s
    if x.ringLoc = 1 then
      if !epochStands s x then
        .next (endFetch q (setQueue q { x with st := .stopped, status := 0x22, cplDead := true } s))
      else match ringSlots t q with
        | some slots => .next (fetchRemote q slots (dropArrived (.ring q) t))
        | none => askRing q n t
    else match readSlot q t with
      | .waits u => waitAnswer "the slot has not come" u t
      | _ => .next (fetchDevice q n t)

/-- What a second read of a slot leads to: the command, or the end of fetching (R304). -/
def judgeSlot (q raw : Nat) (s : State) : State :=
  let t := setQueue q { queueOf s q with reread := none } s
  if fld raw 4 4 = (queueOf s q).head then takeCommand q raw t
  else stopFetch q .descriptorInvalid (fld raw 0 1) (fld raw 8 8) t

/-- SEQ_REREAD (R304): the slot is read again 1,000 ns after the first read; the queue stops where SEQ still differs. -/
def execSeqReread (q : Nat) (s : State) : Answer :=
  let x := queueOf s q
  match x.reread with
  | none => stuck "no slot waits for a second read"
  | some since =>
    let t := atLeast (since + 1000) s
    if x.ringLoc = 1 then
      match ringSlots t q with
      | some (raw :: _) => .next (judgeSlot q raw (dropArrived (.ring q) t))
      | _ => askRing q 1 t
    else match readSlot q t with
      | .waits u => waitAnswer "the slot has not come" u t
      | .failed st u => .next (stopUnread q st u)
      | .got raw u => .next (judgeSlot q raw u)

/-! ### Starting (R310–R312) -/

/-- A FENCE command or a WAIT that has started, or a command its unit has not accepted, holds every later command. -/
def holdsQueue (s : State) (q seq : Nat) : Bool :=
  match s.jobs.find (jobKey q seq) with
  | some j =>
    let kind := opGen2 j.gen j.opcode
    kind != some 0x0C && (j.phase == .handed || j.phase == .blocked || kind == some 0x08 || kind == some 0x0A)
  | none => false

/-- COMMAND_START (R310): the next fetched command is handed to its unit, skipped, or refused for its header. -/
def execCommandStart (q : Nat) (s : State) : Answer :=
  let x := queueOf s q
  match x.fetched with
  | [] => stuck "no command is fetched"
  | f :: rest =>
    if x.live.any (holdsQueue s q) then stuck "an earlier command holds the queue"
    else
      let y : Queue := { x with fetched := rest }
      let s1 := setQueue q y s
      if !headerOk x f.raw then .next (completeRaw q f .descriptorInvalid s1)
      else if isFence x f.raw && x.live.any (fun l => seqBefore l f.seq) then stuck "an earlier command is not complete"
      else
        let skip := if bit (fld f.raw 1 1) 2 then intervalFailure x f.seq else none
        let fenceCmd := opGen2 x.gen (fld f.raw 0 1) == some 0x08
        let s2 := if isFence x f.raw && (!fenceCmd || skip.isSome) then setQueue q (beginInterval f.seq y) s1 else s1
        match skip with
        | some st =>
          .next (completeWith q f st (if fenceCmd then intervalLength x f.seq else startDetail x.gen (fld f.raw 0 1)) s2)
        | none => .next (handOver q f s2)

/-! ### Completion records (R309, R324, R470) -/

/-- The 32 bytes of record n of a queue (Table 10 of chapter 10). -/
def recordBytes (q n entries : Nat) (r : CplRec) : Nat :=
  r.seq % 2 ^ 32 + statusCode r.status * 2 ^ 32 + r.opcode % 256 * 2 ^ 40 + q % 1024 * 2 ^ 48 + r.tag % 2 ^ 64 * 2 ^ 64 +
  r.detail % 2 ^ 64 * 2 ^ 128 + r.time % 2 ^ 56 * 2 ^ 192 + phaseOf n entries * 2 ^ 248

/-- COMPLETION_RECORD_WRITE (R324): the first waiting record goes to the next slot of the completion ring. -/
def execCompletionRecordWrite (q : Nat) (s : State) : Answer :=
  let x := queueOf s q
  match x.cplWait with
  | [] => stuck "no record waits"
  | r :: rest =>
    let n := x.cplWritten
    if ahead n x.cplHead ≥ x.cplEntries then stuck "the completion ring is full"
    else
      let t := setQueue q { x with cplWait := rest, cplWritten := (n + 1) % 2 ^ 32 } s
      let val := recordBytes q n x.cplEntries r
      let at_ := x.cplAddr + 32 * (n % x.cplEntries)
      if x.ringLoc = 1 then
        if !epochStands s x then .next (setQueue q { x with cplWait := [], cplDead := true } s)
        else
          .next (openTxn (ringPlace x at_) 32 false (toBytes 32 val) (.record q) t).2
      else
        let u := uPut at_ 32 val { UStep.start x.ctx 0 10 t with owner := .record q }
        if u.held then waitAnswer "the write has not reached its home" u s
        else
          let w := dropArrived (.record q) u.st
          match u.fault with
          | none => .next w
          | some f =>
            let code := statusCode (causeStatus f.cause)
            let y := queueOf w q
            let v := endFetch q (setQueue q { y with st := if y.st = .closing then .closing else .stopped
                                                     status := code, cplWait := [], cplDead := true } w)
            .next (finishKilled q (raise 0x50 10 code q v))

end Sys2Proof.Machine
end

