-- ==== Sys2Proof/Machine/Links.lean ====
section
/-! DEFINITION. Links: ports and their training, flits, transit, routing entries, connection contexts and their epochs, and
the transactions that resolve (R335, R336, R338–R359). -/

namespace Sys2Proof.Machine

/-! ### Training (R339–R346, R349, R350) -/

/-- Logical ports into which a division cuts a port (R339). -/
def subPorts (c : Nat) : Nat := match cfgDiv c with
  | 1 => 2
  | 2 => 4
  | _ => 1

/-- A logical port at the start of a training. -/
def Port.starting (c sub : Nat) : Port :=
  if cfgMode c = 0 ∨ subPorts c ≤ sub then { Port.idle with cfg := c } else { Port.idle with cfg := c, st := .training }

/-- The configuration of a bond's further member: that of its lead, without the bond (R340). -/
def memberCfg (c : Nat) : Nat := c - bits c 8 2 * 2 ^ 8

/-- The four logical ports of a port start a training under a configuration. -/
def layPort (n c : Nat) (s : State) : State :=
  (List.range 4).foldl (fun t i => setPort (4 * n + i) (Port.starting c i) t) s

/-- Port n starts a training under its own PORT_CFG, with the ports it bonds (R340, R341). [DEDUCED, unsafe: assumption 57] -/
def layBond (n : Nat) (s : State) : State :=
  let c := dv s (K.portCfg + n)
  let t := layPort n c s
  (bondMembers t (4 * n)).foldl (fun u p => layPort (p / 4) (memberCfg c) u) t

/-- Port n trains: a standing bond's member under its lead's settings, any other port under its own. Ports that leave a
bond train under their own settings (R340, R341, R344). [DEDUCED, unsafe: assumption 57] -/
def trainPort (n : Nat) (s : State) : State :=
  match bondLead s (4 * n) with
  | some lead => layPort n (memberCfg (portOf s lead).cfg) s
  | none =>
    let old := bondMembers s (4 * n)
    let t := layBond n s
    let new := bondMembers t (4 * n)
    let lost := (old ++ (new.map fun p => bondMembers s p).flatten).filter fun p => !new.contains p
    lost.foldl (fun u p => layPort (p / 4) (dv u (K.portCfg + p / 4)) u) t

/-- PORT_RETRAIN (R344): a write of 1 trains the port now. -/
def execPortRetrain (src port v : Nat) (s : State) : Answer :=
  outside s (commitScalar src (K.portRetrain + port % 24) v
    (fun w t => (0, if w = 1 then trainPort (port % 24) t else t)) s).2

/-- The package is, or will be, in restricted mode, so that lanes are capped (R346). -/
def linkCap (s : State) : Bool := (s.boot.judgedRestricted || s.pkg == .restricted) && !s.boot.overridden

/-- The fastest speed of Table 6 on 53.125 Gb/s lanes (R346). -/
def cappedSpeed (div : Nat) : Nat := div + 2

/-- Whether an up result is one that this configuration can train to, and whether the cap of R346 shows in it.
[DEDUCED, unsafe: assumption 59] -/
def upFits (cap : Bool) (c : Nat) (r : TrainResult) : Option Bool :=
  if cfgMode c = 1 then
    if cfgRateMax c ≤ r.rate ∧ r.rate ≤ 3 ∧ (cap → 2 ≤ r.rate) ∧ r.neighbour < 4096 then some (cap && decide (cfgRateMax c < 2))
    else none
  else
    match laneRate (cfgDiv c) r.speed with
    | none => none
    | some g =>
      if g ≠ r.rate then none
      else if cfgSpeed c = 5 then
        if cfgRateMax c ≤ g ∧ (cap → 2 ≤ g) then some (cap && decide (cfgRateMax c < 2)) else none
      else
        let want := (laneRate (cfgDiv c) (cfgSpeed c)).getD 0
        if cap && decide (want < 2) then (if r.speed = cappedSpeed (cfgDiv c) then some true else none)
        else if r.speed = cfgSpeed c then some false else none

/-- A logical port goes DOWN (R344, R349). -/
def portDown (lp : Nat) (s : State) : State :=
  let t := setPort lp { portOf s lp with st := .down, retraining := none, downAt := s.time.now } s
  t |> sumErr 9 |> raise 0x41 10 (portState t lp) lp

/-- A packet is discarded (R354). -/
def discardTransit (s : State) : State := s |> bump K.transitDiscarded 1 |> sumErr 10

/-- A packet in the transit buffers is forwarded by its destination's entry as it stands: it leaves over a usable next hop,
waits for one, or is discarded (R353, R354). [DEDUCED, unsafe: assumption 61] -/
def sendTransit (dest hops vc : Nat) (s : State) : State :=
  let e := routeEntry s dest
  let v := vc + (if bit e 58 then 1 else 0)
  if !routeValid e || decide (hops + 1 ≥ dv s K.hopLimit) || decide (v > 3) then discardTransit s
  else
    match (usableHops s dest).filter (portTakes s) with
    | [] => { s with links := { s.links with transit := s.links.transit ++ [(dest, hops, vc)] } }
    | h :: hs =>
      let r := takeFree s
      let p := (h :: hs).getD (r.1 % (hs.length + 1)) h
      send (.transit p dest (hops + 1) v) (sendFlits p v 1 r.2)

/-- Everything that waits for a next hop is tried again: a port has become UP, or an entry has changed. -/
def pumpLinks (s : State) : State :=
  s.links.transit.foldl (fun t p => sendTransit p.1 p.2.1 p.2.2 t)
    (pumpAll { s with links := { s.links with transit := [] } })

/-- The logical ports of the bond that a port belongs to; the port alone where it is not bonded (R340). -/
def bondOf (s : State) (lp : Nat) : List Nat := linkPort s lp :: bondMembers s (linkPort s lp)

/-- The other members of a port's bond that run, or retrain at the rate at which they ran. -/
def bondRuns (s : State) (lp : Nat) : List Nat :=
  (bondOf s lp).filter fun m => m != lp && ((portOf s m).st == .up || (portOf s m).retraining.isSome)

/-- A port becomes UP. The lanes of a logical port, and so of a bond, run at one rate (R338, R340). A training from DOWN
learns the neighbour and clears the replay buffers; a retrain keeps them (R344, R349, R350). -/
def portTrained (lport : Nat) (x : Port) (r : TrainResult) (capped : Bool) (s : State) : Answer :=
  let direct := cfgMode x.cfg == 1
  let again := x.retraining.isSome
  let y : Port := { x with rate := r.rate, speed := if direct then 0 else r.speed, capped := capped, retraining := none,
                           neighbour := if again then x.neighbour else if direct then r.neighbour else 0 }
  if direct && !again && r.neighbour == nodeId s then
    .next (setPort lport { y with st := .nodeConflict } s
      |> bump K.nodeConflicts 1 |> sumErr 9 |> raise 0x42 10 r.neighbour lport)
  else
    let s1 := if direct && !again && (bondRuns s lport).isEmpty then setLayer lport (LinkLayer.start r.credits) s else s
    let t := setPort lport { y with st := .up } s1
    .next (pumpLinks (raise 0x40 10 (portState t lport) lport t))

/-- PORT_TRAINING_DONE (R344, R349, R350): a training ends in UP, DOWN, CONFIG_INVALID or NODE_CONFLICT. -/
def execPortTrainingDone (lport : Nat) (r : TrainResult) (s : State) : Answer :=
  let x := portOf s lport
  if !alive s || x.st != .training then stuck "the port is not training"
  else if !cfgOk (lport / 4) x.cfg then .next (setPort lport { x with st := .configInvalid } s)
  else if r.up && bit s.board.clocksAbsent (8 + lport / 16) then stuck "the port's reference clock is absent"
  else if !r.up then
    if x.retraining.isSome then stuck "a retrain goes on until it is UP or late" else .next (portDown lport s)
  else
    match upFits (linkCap s) x.cfg r with
    | none => stuck "the port cannot train so"
    | some capped =>
      if x.retraining.isSome && r.rate != x.rate then stuck "a retrain keeps its rate"
      else if (bondRuns s lport).any fun m => (portOf s m).rate != r.rate then stuck "the bond runs at another rate"
      else portTrained lport x r capped s

/-- PORT_RETRY (R345): 1,000,000,000 ns after it went DOWN, a port begins a new training. [DEDUCED, unsafe: assumption 59] -/
def execPortRetry (lport : Nat) (s : State) : Answer :=
  let x := portOf s lport
  if !alive s || x.st != .down || cfgMode x.cfg == 0 then stuck "the port is not DOWN"
  else
    let t := atLeast (x.downAt + 1000000000) s
    if (bondLead t lport).isSome || x.cfg == dv t (K.portCfg + lport / 4) then
      .next (setPort lport { Port.idle with cfg := x.cfg, st := .training } t)
    else .next (trainPort (lport / 4) t)

/-- A Direct port retrains at its current rate; nothing it carries is lost (R349). [DEDUCED, unsafe: assumption 55] -/
def retrain (lp : Nat) (s : State) : State :=
  setPort lp { portOf s lp with st := .training, retraining := some s.time.now, replays := [] }
      (setLayer lp { layerOf s lp with replayAsked := false } s)
    |> bump (K.linkRetrains + lp / 4) 1 |> sumErr 9

/-- LANE_LOCK_LOSS (R349). -/
def execLaneLockLoss (lport : Nat) (s : State) : Answer :=
  let x := portOf s lport
  outside s (if cfgMode x.cfg = 1 ∧ x.st = .up then retrain lport s else s)

/-- RETRAIN_TIMEOUT (R349). -/
def execRetrainTimeout (lport : Nat) (s : State) : Answer :=
  match (portOf s lport).st, (portOf s lport).retraining with
  | .training, some t => if alive s then .next (portDown lport (atLeast (t + 500000000) s)) else stuck "no retrain runs"
  | _, _ => stuck "no retrain runs"

/-! ### Flits, pauses and transit (R348, R351, R354) -/

/-- A replay, asked for or answered, counts; more than 64 within 1,000,000 ns retrain the port (R348, R349).
[PRESUMED, unsafe: assumption 58] -/
def countReplay (lp : Nat) (s : State) : State :=
  let x := portOf s lp
  let rs := s.time.now :: x.replays.filter fun t => decide (s.time.now < t + 1000000)
  let t := bump (K.linkReplays + lp / 4) 1 (setPort lp { x with replays := rs } s)
  if rs.length > 64 ∧ x.st = .up then retrain lp t else t

/-- The receiver asks for a replay. -/
def askReplay (lp : Nat) (s : State) : State :=
  countReplay lp (send (.replayRequest lp) (setLayer lp { layerOf s lp with replayAsked := true } s))

/-- What a flit's header says of the flits sent the other way: those received leave the replay buffer, credits come back, and
a replay that is asked for is made from the replay buffer (R348). [PRESUMED, unsafe: assumption 58] -/
def takeHeader (lp : Nat) (h : FlitHeader) (s : State) : State :=
  let x := layerOf s lp
  let buf := if h.ack ≤ x.nextSent then x.replayBuf.filter fun f => decide (h.ack ≤ f.1) else x.replayBuf
  let credits := (List.range 4).map fun i => x.credits.getD i 0 + h.credits.getD i 0
  let t := setLayer lp (pumpFlits { x with replayBuf := buf, credits := credits }) s
  if h.replay && !buf.isEmpty then countReplay lp (send (.flitResend lp buf) t) else t

/-- The port on which the flits of a logical port arrive: itself, or a member of its bond that is UP (R340). -/
def carrier (s : State) (lp : Nat) : Option Nat := (lp :: bondMembers s lp).find? fun m => (portOf s m).st == .up

/-- FLIT_RECEIVE (R348): a flit in order is delivered; a CRC error or a gap asks for a replay; a flit that was already
delivered is dropped. A bond's flits are numbered across its members (R340). [PRESUMED, unsafe: assumption 58] -/
def execFlitReceive (lport flitSeq : Nat) (crcOk : Bool) (fec : Nat) (h : FlitHeader) (s : State) : Answer :=
  match if alive s && cfgMode (portOf s lport).cfg == 1 then carrier s lport else none with
  | none => .next s
  | some m =>
    let t := bump (K.fecCorrected + m / 4) fec s
    if !crcOk then .next (askReplay m t)
    else
      let u := takeHeader m h t
      let x := layerOf u m
      if flitSeq = x.nextFlit then .next (setLayer m { x with nextFlit := x.nextFlit + 1, replayAsked := false } u)
      else if x.nextFlit < flitSeq && !x.replayAsked then .next (askReplay m u)
      else .next u

/-- PFC_PAUSE (R351): a priority that PORT_PFC selects is paused or resumed. -/
def execPfcPause (lport prio : Nat) (pause : Bool) (s : State) : Answer :=
  let x := portOf s lport
  if alive s && (cfgMode x.cfg == 2 || cfgMode x.cfg == 3) && x.st == .up && decide (prio < 8) &&
      bit (dv s (K.portPfc + lport)) prio then
    .next (pumpLinks (setPort lport { x with paused := if pause then setBit x.paused prio else clearBit x.paused prio } s))
  else .next s

/-- TRANSIT_PACKET (R354): the own NODE's packets are delivered locally; others are forwarded or discarded.
[DEDUCED, unsafe: assumption 61] -/
def execTransitPacket (lport dest hops vc : Nat) (s : State) : Answer :=
  if !alive s || !portUp s lport || dest % 4096 == nodeId s then .next s
  else .next (sendTransit (dest % 4096) hops vc s)

/-! ### Routing entries (R353) -/

def hopOk (h : Nat) : Bool := decide (h < 96) || h == 127

/-- ROUTE_WRITE: reserved hops are refused; bit 59 is ignored. -/
def writeRoute (v : Nat) (s : State) : WriteResult :=
  if (List.range 4).all fun i => hopOk (routeHop v i) then
    (0, pumpLinks { s with links := { s.links with routes := s.links.routes.put (bits v 0 12) (bits v 0 59) } })
  else (3, s)

/-- ROUTE_WRITE (R353). -/
def execRouteWrite (src v : Nat) (s : State) : Answer :=
  outside s (commitScalar src K.routeWrite (v % 2 ^ 64) writeRoute s).2

/-! ### Transactions that resolve (R282, R357, R358) -/

/-- A command that waits only for its transfers completes when the last is resolved (R282). -/
def settleJob (key : Nat) (s : State) : State :=
  match s.jobs.find key with
  | some j => if j.phase = .ending ∧ txnsOf s key = 0 then finishJob key s else s
  | none => s

def settleOwner (o : TOwner) (s : State) : State := match ownerKey o with
  | some key => settleJob key s
  | none => s

/-- A collective whose message is refused or lost ends (R282, R362). [DEDUCED, unsafe: assumption 44] -/
def endCollOf (o : TOwner) (f : RemoteFail) (s : State) : State :=
  match o with
  | .job key => (match s.press.colls.find key with
    | some c => if c.ended then s else endColl key (remoteStatus f) true s
    | none => s)
  | _ => s

/-- A transaction fails: its owner learns it, and what waited for it goes on. -/
def failSettle (id : Nat) (f : RemoteFail) (s : State) : State :=
  match s.links.txns.find id with
  | none => s
  | some x => settleOwner x.owner (endCollOf x.owner f (failTxn id f s))

/-- A read's data reaches the request or the unit that asked for it. [DEDUCED, safe: assumption 63] -/
def giveData (x : Txn) (poison : Bool) (data : List Byte) (s : State) : State :=
  match x.owner with
  | .req id => (match s.reqs.find id with
    | some r => { s with reqs := s.reqs.put id { r with
        st := if poison then .poisoned else .served
        lanes := r.lanes.map fun l => { l with res := ofBytes (data.take l.n) } } }
    | none => s)
  | _ => answerRead x (if poison then .poisoned else .data data) s

/-- A transaction is acknowledged. -/
def ackTxn (id : Nat) (poison : Bool) (data : List Byte) (s : State) : State :=
  match s.links.txns.find id with
  | none => s
  | some x =>
    let t := if x.read then giveData x poison data s else haulAcked x.owner x.len s
    settleOwner x.owner (pumpAll (dropTxn id t))

/-- TRANSPORT_ACK (R357): the target performed the transaction, or refused it. One that is no longer outstanding is
discarded (R358). -/
def execTransportAck (txn : Nat) (refused poison : Bool) (data : List Byte) (s : State) : Answer :=
  match s.links.txns.find txn with
  | none => .next s
  | some x =>
    if !x.peer || !x.sent then .next s
    else if refused then .next (pumpAll (failSettle txn .peerRefused s))
    else if x.read && data.length < x.len then stuck "the data is not whole"
    else .next (ackTxn txn poison data s)

/-- TRANSPORT_RESEND (R357): 20,000 ns unacknowledged, and sent again over any usable next hop.
[DEDUCED, unsafe: assumption 61] -/
def execTransportResend (txn : Nat) (s : State) : Answer :=
  match s.links.txns.find txn with
  | none => stuck "no such transaction"
  | some x =>
    match if x.peer && x.sent && routeValid (routeEntry s x.node) then (usableHops s x.node).filter (portTakes s) else [] with
    | [] => stuck "the transaction cannot be sent again"
    | h :: hs =>
      let r := takeFree (atLeast (x.resentAt + 20000) s)
      let p := (h :: hs).getD (r.1 % (hs.length + 1)) h
      let t := r.2
      let u : State := { t with links := { t.links with txns := t.links.txns.put txn { x with resentAt := t.time.now, hop := some p } } }
      .next (u |> bump K.transportResends 1 |> send (.retransmit x.conn x.psn)
        |> sendFlits p 0 (if x.read then 1 else flitsOf x.len))

/-! ### Epochs (R335, R336) -/

/-- A queue whose rings lie in the epoch's memory stops; its started commands are aborted. -/
def stopQueue (q : Nat) (s : State) : State :=
  let x := queueOf s q
  if x.st = .opened ∨ x.st = .stopped then
    let y : Queue := { x with st := .stopped, status := 0x22, fetched := [], cplWait := [], cplDead := true }
    x.live.foldl (fun t seq => closeJob q (onJob (jobKey q seq) (fun j => { j with gone := true }) t) seq)
      (finishKilled q (endFetch q (setQueue q y s)))
  else s

/-- The connection over which a WAIT polls. -/
def waitConn (s : State) (j : Job) : Option Nat :=
  match translate s j.ctx (waitAddr j.raw) needR with
  | .ok x => (match x.target with
    | .peer _ _ c => some c
    | .frontend _ c _ => some c
    | _ => none)
  | .fault _ => none

/-- A WAIT that depends on the connection resolves. -/
def endWaitOn (conn : Nat) (s : State) (c : Nat × Job) : State :=
  if c.2.phase == .running && opGen2 c.2.gen c.2.opcode == some 0x0A && waitConn s c.2 == some conn then
    endWait c.1 0 (addOut c.1 .frontendGone s)
  else s

/-- The epoch of a connection ends, once (R335, R356). [DEDUCED, unsafe: assumption 55] -/
def endEpoch (conn : Nat) (s : State) : State :=
  let k := connOf s conn
  if k.st = 0 ∨ k.epochEnded then s
  else
    let s1 := setConn conn { k with epochEnded := true, st := 2 } s
    let s2 := (s1.links.txns.cells.filter fun c => c.2.conn == conn).foldl (fun t c => failSettle c.1 .frontendGone t) s1
    let s3 := (s2.queues.cells.filter fun c => c.2.ringLoc == 1 && c.2.conn == conn).foldl (fun t c => stopQueue c.1 t) s2
    let s4 := s3.jobs.cells.foldl (endWaitOn conn) s3
    let s5 : State := { s4 with hdp := { s4.hdp with subs := s4.hdp.subs.filter fun u => u.path != .conn conn } }
    dropAnswers (fun o => match o with | .peer c _ => c == conn | _ => false) s5 |> sumErr 8 |> raise 0x44 10 k.epoch conn

/-- LINK_TIMEOUT (R358, R359): unacknowledged LINK_TIMEOUT_NS after acceptance, a PEER transaction is abandoned and a
FRONTEND connection enters the error state. -/
def execLinkTimeout (txn : Nat) (s : State) : Answer :=
  match s.links.txns.find txn with
  | none => stuck "no such transaction"
  | some x =>
    let t := atLeast (x.since + dv s K.linkTimeoutNs) s
    if x.peer then .next (pumpAll (failSettle txn .remoteAbandoned (noteAbandoned x.node x.conn t)))
    else .next (endEpoch x.conn t)

/-- ABANDONED_CLEAR (R358). -/
def execAbandonedClear (src v : Nat) (s : State) : Answer :=
  outside s (commitScalar src K.abandonedClear v (fun w t => (0, setBlobBit K.abandonedNodes (w % 4096) false t)) s).2

/-! ### Connection records (R356, Table 8) -/

def peerRecordOk (r : Nat) : Bool :=
  fld r 8 3 == 0 && bits (fld r 12 2) 12 4 == 0 && bits (fld r 14 2) 14 2 == 0 && zeros r 16 55

/-- A logical port carries Front-end mode since its last training (R341). -/
def frontendPort (s : State) (p : Nat) : Bool :=
  decide (p < 96) && cfgMode (portOf s p).cfg == 3 && decide (p % 4 < subPorts (portOf s p).cfg)

def qpnFree (s : State) (conn port qpn : Nat) : Bool :=
  s.links.conns.cells.all fun c => c.1 == conn || connMode c.2 != 2 || connPort c.2 != port || connQpn c.2 != qpn

def frontendRecordOk (s : State) (conn r : Nat) : Bool :=
  decide (fld r 8 1 ≤ 7) && decide (1 ≤ fld r 9 1) && decide (fld r 9 1 ≤ 128) && decide (1 ≤ fld r 10 1) &&
  decide (fld r 10 1 ≤ 3) && bits (fld r 12 2) 13 3 == 0 && fld r 19 1 == 0 && fld r 23 1 == 0 && fld r 27 1 == 0 &&
  fld r 31 1 == 0 && frontendPort s (fld r 12 1) && qpnFree s conn (fld r 12 1) (bits (fld r 16 4) 0 24)

/-- The checks of a connection record (R356, Table 8). [DEDUCED, unsafe: assumption 56] -/
def recordOk (s : State) (r : Nat) : Bool :=
  bits (fld r 0 2) 14 2 == 0 && decide (fld r 2 1 ≤ 2) && bits (fld r 4 2) 3 13 == 0 && bits (fld r 11 1) 0 2 == 0 &&
  decide (1 ≤ fld r 6 2) && decide (fld r 6 2 ≤ 4096) && zeros r 56 63 &&
  (match fld r 2 1 with
   | 0 => true
   | 1 => peerRecordOk r
   | _ => frontendRecordOk s (bits (fld r 0 2) 0 14) r)

/-- A context is written: its epoch ends if it stands, and a record with a MODE begins a new one. -/
def writeConn (r : Nat) (s : State) : WriteResult :=
  if !recordOk s r then (3, s)
  else
    let conn := bits (fld r 0 2) 0 14
    let t := endEpoch conn s
    let e := (connOf t conn).epoch
    let psn := if fld r 2 1 = 2 then bits (fld r 24 4) 0 24 else 0
    if fld r 2 1 = 0 then (0, setConn conn { Conn.unused with epoch := e, epochEnded := true } t)
    else (0, setConn conn { Conn.unused with
      record := r, st := 1, epoch := (e + 1) % 2 ^ 32, nextPsn := psn, ackPsn := psn, lastRaise := t.time.now } t)

/-- CONN_WRITE (R356). -/
def execConnWrite (src record : Nat) (s : State) : Answer :=
  outside s (commitBlob src K.connWrite (toBytes 64 record) (fun b => writeConn (ofBytes b)) s).2

/-! ### RoCEv2 (R352, R359) -/

def frontendReady (s : State) (conn : Nat) : Bool := connMode (connOf s conn) == 2 && (connOf s conn).st == 1

/-- Packet numbers compare within half the range of 24 bits: a lies at or behind b. -/
def psnNotAfter (a b : Nat) : Bool := decide ((b + 2 ^ 24 - a % 2 ^ 24) % 2 ^ 24 < 2 ^ 23)

/-- Transactions of a connection on their way, oldest first. -/
def roceOut (s : State) (conn : Nat) : List (Nat × Txn) := s.links.txns.cells.filter fun c => c.2.conn == conn && c.2.sent

/-- The packet number before which everything is acknowledged once an acknowledgement of psn has come: it acknowledges no read
whose answer is outstanding, and nothing behind that read. -/
def ackedTo (s : State) (conn psn : Nat) : Nat :=
  let k := connOf s conn
  let next := (psn + 1) % 2 ^ 24
  match (roceOut s conn).find? fun c => c.2.read with
  | some c =>
    let first := (c.2.psn + 2 ^ 24 + 1 - psnCount k c.2.len) % 2 ^ 24
    if psnNotAfter first psn then first else next
  | none => next

/-- An acknowledgement names a packet that is outstanding; any other is stale. -/
def psnOut (k : Conn) (psn : Nat) : Bool :=
  psnNotAfter k.ackPsn psn && !psnNotAfter k.nextPsn psn

/-- Writes up to a packet number are acknowledged; a stale acknowledgement changes nothing (R352).
[PRESUMED, unsafe: assumption 62] -/
def ackUpTo (conn psn : Nat) (s : State) : State :=
  let k := connOf s conn
  if !psnOut k psn then s
  else
    let next := ackedTo s conn psn
    if next = k.ackPsn then s
    else
      let mine := (roceOut s conn).filter fun c => !c.2.read && !psnNotAfter next c.2.psn
      mine.foldl (fun t c => ackTxn c.1 false [] t) (setConn conn { k with ackPsn := next, retries := 0 } s)

/-- Packets go out again from the first unacknowledged on, or the retry count is exhausted (R352, R359).
[PRESUMED, unsafe: assumption 62] -/
def goBack (conn psn : Nat) (s : State) : State :=
  let k := connOf s conn
  if k.retries ≥ connRetry k then endEpoch conn s
  else
    let out := roceOut s conn
    let n := out.foldl (fun a c => a + psnCount k c.2.len) 0
    let t : State := { s with links := { s.links with
      txns := out.foldl (fun x c => x.put c.1 { c.2 with resentAt := s.time.now }) s.links.txns } }
    send (.retransmit conn psn) (bump K.roceRetransmits n (setConn conn { k with retries := k.retries + 1 } t))

/-- The oldest read of a connection is answered: what stands before it is acknowledged, and so is the read. An answer that
overtakes an older read's is not taken, and that read's packets go out again in their time. [PRESUMED, unsafe: assumption 62] -/
def ackRead (conn id : Nat) (x : Txn) (data : List Byte) (s : State) : State :=
  let k := connOf s conn
  let oldest := ((roceOut s conn).find? fun c => c.2.read).map Prod.fst
  if oldest = some id ∧ psnOut k x.psn then
    ackTxn id false data (setConn conn { k with ackPsn := (x.psn + 1) % 2 ^ 24, retries := 0 } s)
  else s

/-- ROCE_RESPONSE (R352): an acknowledgement, a negative one, or the data of a read. -/
def execRoceResponse (conn : Nat) (kind : RoceKind) (psn : Nat) (data : List Byte) (s : State) : Answer :=
  if !alive s then .next s
  else if !frontendReady s conn then .next (bump K.feInboundRefused 1 s)
  else match kind with
    | .ack => .next (ackUpTo conn (psn % 2 ^ 24) s)
    | .nakRemoteError => .next (endEpoch conn s)
    | .nakSequence =>
      let p := psn % 2 ^ 24
      let t := ackUpTo conn ((p + 2 ^ 24 - 1) % 2 ^ 24) s
      .next (if psnOut (connOf s conn) p then goBack conn (connOf t conn).ackPsn t else s)
    | .readResponse =>
      match (roceOut s conn).find? fun c => c.2.read && c.2.psn == psn % 2 ^ 24 with
      | none => .next s
      | some c =>
        if data.length < c.2.len then stuck "the data is not whole"
        else
          let before := (c.2.psn + 2 ^ 24 - psnCount (connOf s conn) c.2.len) % 2 ^ 24
          .next (ackRead conn c.1 c.2 data (ackUpTo conn before s))

/-- ROCE_ACK_TIMEOUT (R352): ACK_TIMEOUT after the oldest unacknowledged packet was last sent. -/
def execRoceAckTimeout (conn : Nat) (s : State) : Answer :=
  match roceOut s conn with
  | [] => stuck "no packet waits for its acknowledgement"
  | c :: _ =>
    if !frontendReady s conn then stuck "the connection does not run"
    else .next (goBack conn (connOf s conn).ackPsn (atLeast (c.2.resentAt + connAckTimeout (connOf s conn)) s))

def elapsed (now : Nat) (since : Option Nat) (n : Nat) : Bool := match since with
  | none => true
  | some t => decide (t + n ≤ now)

/-- ECN_MARKED_PACKET (R352): at most one notification per connection in 50,000 ns. -/
def execEcnMarkedPacket (conn : Nat) (s : State) : Answer :=
  let k := connOf s conn
  outside s (if frontendReady s conn && elapsed s.time.now k.lastCnp 50000 then
    send (.cnp conn) (setConn conn { k with lastCnp := some s.time.now } s) else s)

/-- CNP_RECEIVE (R352): the send rate halves, at most once in 50,000 ns. -/
def execCnpReceive (conn : Nat) (s : State) : Answer :=
  let k := connOf s conn
  outside s (if frontendReady s conn then
      setConn conn (if elapsed s.time.now k.lastCut 50000 then
        { k with rate := k.rate / 2, lastCut := some s.time.now, lastRaise := s.time.now }
        else { k with lastRaise := s.time.now }) s
    else s)

/-- RATE_INCREASE (R352): 50,000 ns without a notification raise the rate by 5 % of the port's. -/
def execRateIncrease (conn : Nat) (s : State) : Answer :=
  if !frontendReady s conn then stuck "the connection does not run"
  else
    let k := connOf s conn
    let t := atLeast (k.lastRaise + 50000) s
    .next (setConn conn { k with rate := min (20 * 2 ^ 40) (k.rate + 2 ^ 40), lastRaise := t.time.now } t)

end Sys2Proof.Machine
end

