-- ==== Sys2Proof/Machine/Weigh.lean ====
section
/-! DEFINITION. The Weighbridge: windows, budgets, points, heat, and what the weigh stations start (R255, R371–R387, R457,
R464). -/

namespace Sys2Proof.Machine

/-! ### Heat (R255, R383–R385, R464) -/

/-- The hottest of the last readings of a die's four stacks. -/
def hottestStack (s : State) (d : Nat) : Int :=
  (List.range 4).foldl (fun a c => max a (s.weigh.stackLast.get 0 (4 * d + c))) (s.weigh.stackLast.get 0 (4 * d))

/-- The headroom of an Ashlar or Medlar die (R383). [DEDUCED, unsafe: assumption 65] -/
def headroom (s : State) (d : Nat) : Int :=
  let logic := 105 - (diePower s d).hotLast
  if d < 8 then min logic (95 - hottestStack s d) else logic

/-- A rail is written over the AVSBus (R457). -/
def setPoint (d p : Nat) (s : State) : State :=
  let x := diePower s d
  let t := setDiePower d { x with point := p } s
  if x.point = p then t else send (.avsWrite d (pointMv p)) t

/-- THROTTLE_MAP: the dies whose ceiling lies below POINT_MAX (R384). -/
def markThrottle (s : State) : State :=
  setDv K.throttleMap ((List.range 10).foldl (fun a d =>
    if decide ((diePower s d).ceiling < dv s K.pointMax) && !bit s.diesHeld d then a + 2 ^ d else a) 0) s

/-- A trip is reported (R384, R450). -/
def reportTrip (d : Nat) (temp : Int) (s : State) : State :=
  s |> sumErr 11 |> bump (K.thermalTrips + d) 1 |> raise 0x30 d (unsigned 64 temp) 0

/-- A die trips: point 0 and ceiling 0 at once (R384). [DEDUCED, unsafe: assumption 66] -/
def tripDie (d : Nat) (temp : Int) (s : State) : State :=
  if (diePower s d).tripped || bit s.diesHeld d then s
  else
    let t := setPoint d 0 s
    reportTrip d temp (markThrottle (setDiePower d { diePower t d with ceiling := 0, tripped := true } t))

/-- A tripped die has cooled: its station may start work again (R384). [DEDUCED, unsafe: assumption 66] -/
def cooled (d : Nat) (s : State) : State :=
  let x := diePower s d
  if x.tripped && decide (x.hot < 100) && (decide (8 ≤ d) || decide (hottestStack s d < 102)) then
    setDiePower d { x with tripped := false } s
  else s

/-- A sensor reaches 120 °C: THERMTRIP_N falls, and every Ashlar and Medlar die goes to point 0 (R385, R464). -/
def thermTrip (temp : Int) (s : State) : State :=
  if temp < 120 || s.board.thermtrip then s
  else
    (List.range 10).foldl (fun t d => if bit t.diesHeld d then t else setPoint d 0 t)
      { s with board := { s.board with thermtrip := true } }

/-- THERMAL_SENSOR_READ (R383, R384): 10,000 ns after the last time, a die reads its sensors.
[DEDUCED, unsafe: assumption 66] -/
def execThermalSensorRead (die : Nat) (hottest : Int) (s0 : State) : Answer :=
  if !dieUp s0 die then stuck "no such die runs"
  else
    let x := diePower s0 die
    let s := atLeast (x.readAt + 10000) s0
    let now := match x.hotNow with | some h => max h hottest | none => hottest
    let t := setDiePower die { x with hotNow := some now, hot := hottest, readAt := s.time.now } s
    let u := if hottest < 105 then cooled die t
      else if die < 10 then tripDie die hottest t
      else if x.hot < 105 then reportTrip die hottest t else t
    .next (thermTrip hottest u)

/-- STACK_TEMP_READ (R255): 100,000 ns after the last time, a stack's temperature is read, its refresh rate follows, and above
105 °C it raises STACK_HOT and trips its die. [DEDUCED, unsafe: assumption 28] -/
def execStackTempRead (stack : Nat) (temp : Int) (s0 : State) : Answer :=
  if stack ≥ 32 || !alive s0 then stuck "no such stack"
  else
    let k := ctlOf s0 stack
    let s1 := atLeast (k.tempAt + 100000) s0
    let s := setCtl stack { k with tempAt := s1.time.now } s1
    let t := s |> setDv (K.stackTemp + stack) (unsigned 32 temp)
      |> setDv (K.refreshRate + stack) (refreshRate (dv s (K.refreshRate + stack)) temp)
    let u : State := { t with weigh := { t.weigh with stackLast := t.weigh.stackLast.put stack temp } }
    let v := if temp > 105 then tripDie (stack / 4) temp (raise 0x21 (stack / 4) (unsigned 64 temp) stack u)
      else cooled (stack / 4) u
    .next (thermTrip temp v)

/-! ### Windows (R372–R377, R384) -/

/-- A window is over: the hottest readings of each die stand for it (R383, R387). -/
def closeReadings (s : State) : State :=
  (List.range 11).foldl (fun t d =>
    let x := diePower t d
    let h := x.hotNow.getD x.hot
    setDv (K.hottestC + d) (unsigned 32 h) (setDiePower d { x with hotLast := h, hotNow := none } t)) s

/-- Ceilings move by one point (R384). -/
def moveCeiling (s : State) (d : Nat) : State :=
  let x := diePower s d
  if bit s.diesHeld d || x.tripped then s
  else
    let h := headroom s d
    let c := if h ≤ 2 then x.ceiling - 1 else if h ≥ 5 then x.ceiling + 1 else x.ceiling
    setDiePower d { x with ceiling := min (dv s K.pointMax) c } s

/-- Work runs or can run at a station (R377). -/
def stationBusy (s : State) (d : Nat) : Bool :=
  let f := faceOf s d
  f.run.isSome || f.prior.isSome || !f.staged.isEmpty || !(stationOf s d).offers.isEmpty || !(stationOf s d).starts.isEmpty ||
  s.grp.groups.cells.any fun c => c.2.die == d && c.2.place == .resident

/-- The weight of a station, in units of 1/8 · 1/THERMAL_MARGIN_C. -/
def stationWeight (s : State) (d : Nat) : Nat :=
  if bit s.diesHeld d then 0
  else
    let h := (max 0 (min (dv s K.thermalMarginC : Int) (headroom s d))).toNat
    (if stationBusy s d then 8 else 1) * h

/-- A station takes its refill (R378). -/
def refillStation (rem total : Nat) (s : State) (d : Nat) : State :=
  if bit s.diesHeld d || total == 0 then s
  else
    let r := microJoules (rem * stationWeight s d) total
    let x := stationOf s d
    setStation d { x with tokens := min (x.tokens + r) (2 * r), refill := r } s

/-- The measured energy of a window, projected to another point (R376): e, from the last point and beat rate.
[DEDUCED, unsafe: assumption 65] -/
def pointFits (s : State) (d e refill p : Nat) : Bool :=
  let x := diePower s d
  let rate := if dv s (K.beatRate + d) = 0 then 10 * pointRate x.point else dv s (K.beatRate + d)
  decide (e * (10 * pointRate p) * (pointMv p * pointMv p) ≤ refill * rate * (pointMv x.point * pointMv x.point))

/-- The highest point from POINT_MIN to the ceiling that fits (R376). -/
def choosePoint (s : State) (d e refill : Nat) : Nat :=
  let lo := dv s K.pointMin
  let top := (diePower s d).ceiling
  match ((List.range (top + 1)).filter fun p => decide (lo ≤ p) && pointFits s d e refill p).getLast? with
  | some p => p
  | none => min lo top

/-- A window begins: the budget is shared out and the points are chosen (R374–R377, R464). measured: what the last window
drew, none before the first has ended. -/
def openWindow (measured : Option RailEnergy) (s0 : State) : State :=
  let s1 := closeReadings s0
  let s2 := markThrottle ((List.range 10).foldl moveCeiling s1)
  let others : Nat := match measured with
    | some m => m.hbm + (List.range 2).foldl (fun a n => if bit s0.diesHeld (8 + n) then a else a + m.med.getD n 0) 0 + m.row
    | none => 0
  let env := dv s2 K.envelopeW
  let rem := env * 100 - s2.weigh.excess - others
  let total := (List.range 8).foldl (fun a d => a + stationWeight s2 d) 0
  let s3 := (List.range 8).foldl (refillStation rem total) s2
  let ash (d : Nat) : Nat := match measured with
    | some m => m.ash.getD d 0
    | none => 0
  let refill (d : Nat) : Nat := if total = 0 then 0 else (stationOf s3 d).refill
  let chosen (t : State) (d : Nat) : State :=
    if bit t.diesHeld d then t
    else
      let p := if t.board.thermtrip then 0
        else if d < 8 then choosePoint t d (ash d) (refill d)
        else min (dv t K.medlarPoint) (diePower t d).ceiling
      let u := setPoint d p t
      if t.weigh.avsRetry.contains d && (diePower t d).point == p then send (.avsWrite d (pointMv p)) u else u
  let s4 := (List.range 10).foldl chosen s3
  let s5 := if s4.weigh.avsRetry.contains 10 then send (.avsWrite 10 (pointMv 8)) s4 else s4
  { s5 with weigh := { s5.weigh with started := true, envelope := env, windowAt := s5.time.now, avsRetry := [] } }

/-- Watts over a window of 100,000 ns. -/
def watts (e : Nat) : Nat := min 65535 (microJoules e 100)

/-- A window is judged against the envelope that governed it, and reported (R372, R387, R457).
[DEDUCED, unsafe: assumption 66] -/
def reportWindow (m : RailEnergy) (s : State) : State :=
  let up (d : Nat) (e : Nat) : Nat := if bit s.diesHeld d then 0 else e
  let ash := (List.range 8).map fun d => up d (m.ash.getD d 0)
  let med := (List.range 2).map fun d => up (8 + d) (m.med.getD d 0)
  let sum (l : List Nat) : Nat := l.foldl (· + ·) 0
  let total := sum ash + m.hbm + sum med + m.row
  let limit := s.weigh.envelope * 100
  let t := if total > limit then bump K.envelopeExceeded 1 s else s
  let u := (List.range 8).foldl (fun v d => setDv (K.ashPowerW + d) (watts (ash.getD d 0)) v) t
    |> bump K.windows 1 |> setDv K.packagePowerW (watts total) |> setDv K.hbmPowerW (watts m.hbm)
    |> setDv K.medlarPowerW (watts (sum med)) |> setDv K.rowanPowerW (watts m.row)
  let v := (List.range 11).foldl (fun x d =>
    match m.railMv[d]? with
    | some mv => setDv (K.railMv + d) (min mv 65535) x
    | none => x) u
  { v with weigh := { v.weigh with excess := total - limit } }

/-- WINDOW_START (R377): 100,000 ns after the last, a window ends and the next begins. -/
def execWindowStart (e : RailEnergy) (s : State) : Answer :=
  if !alive s || !s.weigh.started then stuck "the Weighbridge does not run"
  else .next (openWindow (some e) (reportWindow e (atLeast (s.weigh.windowAt + 100000) s)))

/-- AVS_TIMEOUT (R457): a regulator has not acknowledged a write; the value is written again at the next window. -/
def execAvsTimeout (rail : Nat) (s : State) : Answer :=
  if !alive s || rail ≥ 11 then stuck "no such rail is written"
  else
    let t := bump K.avsErrors 1 s
    .next { t with weigh := { t.weigh with avsRetry := t.weigh.avsRetry.filter (· != rail) ++ [rail] } }

/-- ENVELOPE_MAX_W: it also lowers ENVELOPE_W (R371). -/
def writeEnvelopeMax (v : Nat) (s : State) : WriteResult :=
  if v < 1200 ∨ 3600 < v then (3, s)
  else (0, setDv K.envelopeMaxW v (if dv s K.envelopeW > v then setDv K.envelopeW v s else s))

/-- POINT_MAX (R376, R384, R387): a die's ceiling is POINT_MAX unless heat has lowered it. -/
def writePointMax (v : Nat) (s : State) : WriteResult :=
  let move (t : State) (d : Nat) : State :=
    let x := diePower t d
    if x.tripped then t
    else setDiePower d { x with ceiling := if x.ceiling < dv s K.pointMax then min v x.ceiling else v } t
  if v ≤ 15 ∧ dv s K.pointMin ≤ v then (0, markThrottle (setDv K.pointMax v ((List.range 10).foldl move s))) else (3, s)

/-- ENVELOPE_MAX_W (R371). -/
def execEnvelopeMaxW (src v : Nat) (s : State) : Answer :=
  outside s (commitScalar src K.envelopeMaxW v writeEnvelopeMax s).2

/-! ### What a station starts (R378–R382) -/

/-- A launch has a group that no start has been granted for. -/
def hasGroup (s : State) (key : Nat) : Bool :=
  match s.grp.launches.find key with
  | some l => !l.stopped && decide (l.next + undrawn s key < l.total)
  | none => false

def runnable (s : State) (w : Work) : Bool := match w with
  | .face _ => true
  | .group key => hasGroup s key

/-- The work finds room: a staging slot, or a core (R380). -/
def hasRoom (s : State) (d : Nat) (w : Work) : Bool := match w with
  | .face _ => decide ((faceOf s d).staged.length < 2)
  | .group key => groupRunnable s d key

/-- The estimate charged for the work; a resumed FACE_OP has been charged (R379). [DEDUCED, unsafe: assumption 36] -/
def estimate (s : State) (d : Nat) (w : Work) : Nat := match w with
  | .face r => if r.resumed then 0 else faceEstimate s d r.op.raw
  | .group key => groupEstimate s d (launchRaw s key)

def fits (s : State) (d : Nat) (w : Work) : Bool := decide ((estimate s d w : Int) ≤ (stationOf s d).tokens)

/-- The reserving command: the first that reached 16 and can still run. [DEDUCED, unsafe: assumption 64] -/
def reserving (s : State) (d : Nat) : Option Work := (stationOf s d).reserved.find? (runnable s)

/-- What the station starts next, if anything (R380, R381). -/
def chooseWork (s : State) (d : Nat) : Option Work :=
  let x := stationOf s d
  match reserving s d with
  | some w =>
    if hasRoom s d w && decide (min (estimate s d w : Int) (2 * x.refill) ≤ x.tokens) then some w else none
  | none =>
    let can (o : Offer) : Bool := hasRoom s d o.work && runnable s o.work && fits s d o.work
    ([7, 6, 5, 4, 3, 2, 1, 0].findSome? fun p => x.offers.find? fun o => o.prio == p && can o).map (·.work)

/-- The work is charged and started; what else could have run has been passed over (R379, R381).
[DEDUCED, unsafe: assumption 64] -/
def startWork (d : Nat) (w : Work) (s : State) : State :=
  let x := stationOf s d
  let left := x.offers.filterMap fun o =>
    if o.work = w then (match w with
      | .face _ => none
      | .group _ => some { o with passed := 0 })
    else if runnable s o.work then some { o with passed := o.passed + 1 } else some o
  let full := (left.filter fun o => decide (16 ≤ o.passed) && runnable s o.work && !x.reserved.contains o.work).map (·.work)
  let t := setStation d { x with offers := left, tokens := x.tokens - estimate s d w
                                 starts := match w with
                                   | .group key => x.starts ++ [key]
                                   | .face _ => x.starts } s
  let u := setReserved d ((x.reserved.filter fun v => v != w && runnable s v) ++ full) t
  match w with
  | .face r => setFace d { faceOf u d with staged := (faceOf u d).staged ++ [r] } u
  | .group _ => u

/-- WEIGH_STATION_START (R380): the station of an Ashlar die starts what its rules choose. -/
def execWeighStationStart (die : Nat) (s : State) : Answer :=
  if !dieUp s die || die ≥ 8 || !s.weigh.started then stuck "no such station runs"
  else if s.board.thermtrip || (diePower s die).tripped then stuck "the die has tripped"
  else match chooseWork s die with
    | none => stuck "nothing can be started"
    | some w => .next (startWork die w s)

end Sys2Proof.Machine
end

