-- ==== Sys2Proof/Machine/Secure.lean ====
section
/-! DEFINITION. Images, overrides, measurements, attestation, debug and JTAG (R416–R419, R424–R435). -/

namespace Sys2Proof.Machine

/-! ### Keys and images (R416–R419) -/

/-- A key's digest is that of an unrevoked vendor slot (R418). -/
def vendorKnows (s : State) (d : BitVec 512) : Bool :=
  (List.range 4).any fun k => !bit s.part.revoked k && s.part.vendorKeys.getD k 0#512 == d

/-- n bytes of a number from byte a on. -/
def cut (raw a n : Nat) : List Byte := toBytes n (fld raw a n)

def headerKey (h : Nat) : List Byte := cut h 256 1793

/-- MAGIC, KIND, HDR_VERSION and the reserved fields of a header (R416, R417), and the bound on STAGE's payload.
[DEDUCED, unsafe: assumption 68] -/
def headerFormat (kind h : Nat) : Bool :=
  fld h 0 4 == 0x31474D49 && imgKind h == kind && fld h 5 1 == 1 && zeros h 13 15 && zeros h 148 255 &&
  zeros h 2049 2303 && zeros h 3584 4095 && ((List.range 8).all fun i => fld h (99 + 4 * i) 1 == 0) &&
  (kind != 0 || decide (fld h 16 8 ≤ 3 * 2 ^ 20))

def headerKeyOk (s : State) (kind h : Nat) : Bool :=
  let d := Config.shake256 (headerKey h)
  vendorKnows s d || (kind == 4 && s.part.ownerKey != 0#512 && d == s.part.ownerKey)

/-- The first condition of R417 that an image fails, as BOOT_STATUS records it; 0 where it is valid. -/
def verifyImage (s : State) (kind : Nat) (i : Image) : Nat :=
  let h := i.header
  if !headerFormat kind h then 1
  else if !headerKeyOk s kind h then 2
  else if !Config.falconVerify (headerKey h) (Config.shake256 (cut h 0 2304)) (cut h 2304 1280) then 3
  else if imgSec h < s.part.minSec.get 0 kind then 4
  else if i.payload.length < fld h 16 8 || Config.shake256 (i.payload.take (fld h 16 8)) != BitVec.ofNat 512 (fld h 32 64) then 5
  else 0

/-- Extend a measurement register with a digest (R429). -/
def extendMeas (n : Nat) (d : BitVec 512) (s : State) : State :=
  let old := s.boot.meas.get 0#512 n
  let new := Config.shake256 (toBytes 64 old.toNat ++ toBytes 64 d.toNat)
  { s with boot := { s.boot with meas := s.boot.meas.put n new } }

/-- A valid image of a kind runs, and its header is measured (R429). [DEDUCED, unsafe: assumption 68] -/
def takeImage (kind : Nat) (i : Image) (s : State) : State :=
  extendMeas kind (Config.shake256 (cut i.header 0 4096))
    { s with boot := { s.boot with images := s.boot.images.put kind i } }

/-- A failure is recorded in BOOT_STATUS, and whether slot B has served (R412, R436). -/
def bootStatus (failure kind : Nat) (s : State) : State :=
  { s with boot := { s.boot with status := failure % 256 + kind % 16 * 2 ^ 8 + (if bit s.boot.status 12 then 2 ^ 12 else 0) } }

def usedSlotB (s : State) : State := { s with boot := { s.boot with status := setBit s.boot.status 12 } }

/-! ### Overrides (R424–R427) -/

/-- The signed record of Table 4: its magic, serial and signature, and the digest of its key. -/
def recordMagic (r : Nat) : Nat := fld r 0 4
def recordSerialOk (s : State) (r : Nat) : Bool := cut r 4 12 == s.part.serial.take 12
def recordKey (r : Nat) : List Byte := cut r 96 1793
def recordSigned (r : Nat) : Bool :=
  Config.falconVerify (recordKey r) (Config.shake256 (cut r 0 1920)) (cut r 1920 1280)

/-- The combination found: steppings and interface versions, as an override's body names them. -/
def combination (s : State) : Nat :=
  s.part.ashlarStepping % 256 + s.part.medlarStepping % 256 * 2 ^ 8 + s.part.rowanStepping % 256 * 2 ^ 16 +
  (List.range 5).foldl (fun a k => a + imgIface (runningHeader s k) * 2 ^ (32 + 16 * k)) 0

/-- What an override must meet apart from its body (R426). -/
def overrideSigned (s : State) (r : Nat) : Bool :=
  let d := Config.shake256 (recordKey r)
  recordMagic r == 0x3152564F && recordSerialOk s r && (vendorKnows s d || d == s.part.ownerKey) && recordSigned r

def overrideOk (s : State) (r : Nat) : Bool := overrideSigned s r && fld r 16 80 == combination s

/-- Ports that the cap has lowered train again (R427). [DEDUCED, unsafe: assumption 59] -/
def retrainCapped (s : State) : State :=
  (List.range 24).foldl (fun t n =>
    if (List.range 4).any fun i => (portOf t (4 * n + i)).capped then trainPort n t else t) s

/-- An override is accepted (R427, R429). -/
def acceptOverride (b : List Byte) (s : State) : State :=
  let t := extendMeas 5 (Config.shake256 b) (setBlob K.fwOverride b s)
  let u : State := { t with boot := { t.boot with overridden := true },
                            pkg := if t.pkg = .restricted then .ready else t.pkg }
  retrainCapped u

/-- A value without its reserved bytes, which a write discards (R6). -/
def keepBytes (reserved : Nat → Bool) (b : List Byte) : List Byte :=
  b.zipIdx.map fun x => if reserved x.2 then 0#8 else x.1

/-- Reserved bytes of an override and of a debug token (Table 4 of chapter 14). -/
def overrideReserved (i : Nat) : Bool :=
  i == 19 || (decide (30 ≤ i) && decide (i < 96)) || (decide (1889 ≤ i) && decide (i < 1920))

def tokenReserved (i : Nat) : Bool := (decide (48 ≤ i) && decide (i < 96)) || (decide (1889 ≤ i) && decide (i < 1920))

/-- FW_OVERRIDE: a record is judged at the commit; until step 8 has found the combination, its body waits for that step
(R426). [DEDUCED, unsafe: assumption 69] -/
def actFwOverride (b0 : List Byte) (s : State) : WriteResult :=
  let b := keepBytes overrideReserved b0
  if s.boot.phase < 10 then (if overrideSigned s (ofBytes b) then (0, setBlob K.fwOverride b s) else (3, s))
  else if overrideOk s (ofBytes b) then (0, acceptOverride b s)
  else (3, s)

/-- FW_OVERRIDE (R426). -/
def execFwOverride (src : Nat) (bytes : List Byte) (s : State) : Answer :=
  outside s (commitBlob src K.fwOverride bytes actFwOverride s).2

/-! ### Fuses (R418, R419) -/

/-- OWNER_KEY_DIGEST and OWNER_DEBUG_KEY_DIGEST accept one write while they read all zeros. -/
def actOwnerKey (dbg : Bool) (b : List Byte) (s : State) : WriteResult :=
  let v := BitVec.ofNat 512 (ofBytes b)
  if (if dbg then s.part.ownerDebugKey else s.part.ownerKey) ≠ 0#512 then (7, s)
  else if dbg then (0, { s with part := { s.part with ownerDebugKey := v } })
  else (0, { s with part := { s.part with ownerKey := v } })

/-- OWNER_KEY_DIGEST (R418). -/
def execOwnerKeyDigest (src : Nat) (dbg : Bool) (bytes : List Byte) (s : State) : Answer :=
  outside s (commitBlob src (if dbg then K.ownerDebugKeyDigest else K.ownerKeyDigest) bytes (actOwnerKey dbg) s).2

/-- MIN_SEC_RAISE (R419). -/
def actMinSecRaise (v : Nat) (s : State) : WriteResult :=
  if v = 0 then (0, s)
  else if s.pkg ≠ .ready then (7, s)
  else if s.boot.minSecRaised then (0, s)
  else
    let raise_ (m : Tab Nat) (k : Nat) : Tab Nat :=
      match s.boot.images.find k with
      | some i => m.set 0 k (max (m.get 0 k) (imgSec i.header))
      | none => m
    (0, { s with part := { s.part with minSec := (List.range 5).foldl raise_ s.part.minSec }
                 boot := { s.boot with minSecRaised := true } })

/-- MIN_SEC_RAISE (R419). -/
def execMinSecRaise (src v : Nat) (s : State) : Answer :=
  outside s (commitScalar src K.minSecRaise v actMinSecRaise s).2

/-! ### Measurements and attestation (R429–R431) -/

/-- MEAS_EXTEND: register 6 or 7. -/
def actMeasExtend (b : List Byte) (s : State) : WriteResult :=
  let n := (b.headD 0#8).toNat
  if n = 6 ∨ n = 7 then (0, extendMeas n (BitVec.ofNat 512 (ofBytes (b.drop 8))) s) else (3, s)

/-- MEAS_EXTEND (R429). -/
def execMeasExtend (src : Nat) (bytes : List Byte) (s : State) : Answer :=
  outside s (commitBlob src K.measExtend bytes actMeasExtend s).2

/-- The fields of a report as they stand (Table 5). -/
def reportFields (s : State) (nonce : List Byte) : List Byte :=
  toBytes 2 1 ++ toBytes 1 (pkgCode s.pkg) ++ toBytes 1 (lockState s) ++ s.part.serial.take 12 ++
  toBytes 1 s.part.ashlarStepping ++ toBytes 1 s.part.medlarStepping ++ toBytes 1 s.part.rowanStepping ++
  toBytes 1 s.part.debugOpenings ++ toBytes 8 (timeOfDay s) ++ nonce ++
  ((List.range 5).map fun k => toBytes 2 (imgIface (runningHeader s k))).flatten ++ toBytes 2 s.boot.mismatch ++
  ((List.range 8).map fun n => toBytes 64 (s.boot.meas.get 0#512 n).toNat).flatten ++ toBytes 8 0

/-- ATTEST_NONCE: a report starts, with everything as it stands. -/
def actAttestNonce (b : List Byte) (s : State) : WriteResult :=
  match s.boot.attest, s.part.identity with
  | none, some k => (0, { s with boot := { s.boot with attest := some (reportFields s b, k) } })
  | _, _ => (7, s)

/-- ATTEST_NONCE (R430). -/
def execAttestNonce (src : Nat) (bytes : List Byte) (s : State) : Answer :=
  outside s (commitBlob src K.attestNonce bytes actAttestNonce s).2

/-- The report is signed and ready. -/
def finishReport (s : State) : State :=
  match s.boot.attest with
  | none => s
  | some (f, k) =>
    let sig := (Config.falconSign k (Config.shake256 f) ++ List.replicate 1280 0#8).take 1280
    { s with boot := { s.boot with attest := none, attestReport := f ++ sig } }

/-- ATTEST_REPORT_DONE (R430). -/
def execAttestReportDone (s : State) : Answer :=
  when_ (alive s && s.boot.attest.isSome) "no report is produced" (finishReport s)

/-! ### Debug (R433–R435) -/

/-- What a token comes to: the DEBUG_STATUS it leaves, 1 where it opens debug. [DEDUCED, unsafe: assumption 67] -/
def judgeToken (s : State) (r : Nat) : Nat :=
  let d := Config.shake256 (recordKey r)
  if s.part.debugOpenings ≥ 16 then 6
  else if !recordSerialOk s r then 4
  else if fld r 16 32 ≠ s.boot.challenge.toNat then 3
  else if !(vendorKnows s d || d == s.part.ownerDebugKey) then 5
  else if !recordSigned r then 2
  else 1

/-- 32 fresh random bytes (R433). -/
def freshChallenge (s : State) : State :=
  let r := takeFree s
  { r.2 with boot := { r.2.boot with challenge := BitVec.ofNat 256 r.1 } }

/-- A report in progress meets the opening: signed before the erasure, or never (R431). [DEDUCED, unsafe: assumption 67] -/
def reportMeetsDebug (s : State) : State :=
  if s.boot.attest.isNone then s
  else
    let r := takeFree s
    if r.1 % 2 = 1 then finishReport r.2
    else { r.2 with boot := { r.2.boot with attest := none, attestReport := List.replicate 1872 0#8 } }

/-- Every group, Medlar core and switched-out task is halted and discarded; the Benches, hoppers and key store are
erased (R434). [DEDUCED, unsafe: assumption 67] -/
def eraseForDebug (s : State) : State :=
  let noHopper (_ : Nat) (f : Face) : Face :=
    let clear (r : FRun) : FRun := { r with panelA := none, panelB := none }
    { f with run := f.run.map clear, prior := f.prior.map clear, staged := f.staged.map clear }
  { s with
    medlars := ⟨[]⟩
    reqs := s.reqs.keep fun _ r => match r.src with
      | .medlar _ => false
      | .group _ => true
    coh := { s.coh with dir := ⟨[]⟩, txns := ⟨[]⟩, msgs := [] }
    mem := { s.mem with bench := ⟨[]⟩, ways := ⟨[]⟩, spoil := ⟨[]⟩ }
    faces := s.faces.map noHopper
    part := { s.part with identity := none } }

/-- An accepted token opens debug (R434). -/
def openDebug (s : State) : State :=
  let n := s.part.debugOpenings + 1
  let open_ := (s.queues.cells.filter fun c => c.2.st == .opened || c.2.st == .stopped).map (·.1)
  let t := eraseForDebug (open_.foldl (fun t q => (closeQueue q t).2) (reportMeetsDebug s))
  { t with boot := { t.boot with debugOpen := true, debugStatus := 1 }, part := { t.part with debugOpenings := n } }
    |> raise 0x4 10 n 0

/-- DEBUG_TOKEN: each attempt renews the challenge and sets DEBUG_STATUS, accepted or not (R433).
[DEDUCED, unsafe: assumption 67] -/
def actDebugToken (b0 : List Byte) (s : State) : WriteResult :=
  let b := keepBytes tokenReserved b0
  let r := ofBytes b
  let a := takeFree s
  let odd := recordMagic r != 0x31474244 && decide (s.part.debugOpenings < 16)
  let st := if odd then 2 + a.1 % 4 else judgeToken s r
  let t := freshChallenge (if odd then a.2 else s)
  let u : State := { t with boot := { t.boot with debugStatus := st } }
  if st = 1 then (0, openDebug (setBlob K.debugToken b u)) else (if st = 6 then 7 else 3, u)

/-- A refused token still leaves its status and a fresh challenge (R433). -/
def commitToken (src : Nat) (b : List Byte) (s : State) : WriteResult :=
  let r := if blobFits K.debugToken b then actDebugToken b s else (5, s)
  if writeCheck s K.debugToken ≠ 0 ∨ r.1 = 0 ∨ r.1 = 5 then commitBlob src K.debugToken b actDebugToken s
  else
    let t := refuseWrite src K.debugToken r.1 r.2
    (r.1, { t with dict := { t.dict with staging := t.dict.staging.del K.debugToken } })

/-- DEBUG_TOKEN (R433). -/
def execDebugToken (src : Nat) (bytes : List Byte) (s : State) : Answer := outside s (commitToken src bytes s).2

/-- DBG_TOKEN: a JTAG submission is a firmware dictionary write (R433). -/
def execDbgToken (bytes : List Byte) (s : State) : Answer := outside s (commitToken 3 bytes s).2

/-! ### JTAG (R432) -/

/-- Something the JTAG port does; it needs power, and no more. -/
def jtag (s : State) (b : Board) : Answer := .next (if s.board.railsUp then { s with board := b } else s)

/-- IDCODE: JTAG_IDCODE is shifted out. -/
def execIdcode (s : State) : Answer := jtag s { s.board with jtagIr := 1, jtagOut := s.part.jtagIdcode }

/-- BYPASS: the bypass register is selected. -/
def execBypass (s : State) : Answer := jtag s { s.board with jtagIr := 0, jtagOut := 0 }

/-- SAMPLE/PRELOAD: the pins are shifted out and the boundary register is loaded. -/
def execSamplePreload (pins preload : Nat) (s : State) : Answer :=
  jtag s { s.board with jtagIr := 2, jtagOut := pins, jtagData := preload }

/-- EXTEST drives the boundary, only while debug is open. [DEDUCED, safe: assumption 81] -/
def execExtest (v : Nat) (s : State) : Answer :=
  if s.boot.debugOpen then jtag s { s.board with jtagIr := 3, jtagData := v } else .next s

end Sys2Proof.Machine
end

