-- ==== Sys2Proof/Machine/BootLoad.lean ====
section
/-! DEFINITION. Images that arrive over the management network: the boot buffer and its commits (R411–R414, R436). -/

namespace Sys2Proof.Machine

def bootSrc (s : State) : Nat := bits s.board.straps 14 2

/-- No valid copy of an image: the failure is recorded; unless BOOT_SRC is 3, BOOT_FAILED is raised and the image is awaited
over the network (R413, R423). [DEDUCED, unsafe: assumption 69] -/
def imageMissing (kind : Nat) (s : State) : State :=
  if bootSrc s = 3 then s
  else
    let t := raise 0x2 10 s.boot.status 0 s
    { t with boot := { t.boot with awaiting := some kind, parts := [] } }

/-- BOOT_LOAD_DATA: the committed bytes go into the buffer at BOOT_LOAD_OFFSET (R414). -/
def actLoadData (b : List Byte) (s : State) : WriteResult :=
  let off := dv s K.bootLoadOffset
  (0, { s with boot := { s.boot with buffer := b.zipIdx.foldl (fun t x => t.set 0#8 (off + x.2) x.1) s.boot.buffer } })

/-- The first n bytes of the buffer. -/
def bufferBytes (s : State) (n : Nat) : List Byte := (List.range n).map (s.boot.buffer.get 0#8)

/-- The image the bytes hold runs: the stage loader ends steps 2 and 3, any other is kept for its step. -/
def imageArrived (kind : Nat) (i : Image) (s : State) : State :=
  let t := takeImage kind i s
  let u : State := { t with boot := { t.boot with awaiting := none, parts := [] } }
  if kind = 0 then { u with boot := { u.boot with phase := 3, stepDone := true, source := 2 } } else u

/-- BOOT_LOAD_GO: the parts loaded so far are verified once the whole image has come (R414, R417). A length beyond the
buffer is out of range, and a write while no image is awaited cannot start. [DEDUCED, unsafe: assumption 70] -/
def actLoadGo (len : Nat) (s : State) : WriteResult :=
  match s.boot.awaiting with
  | none => (7, s)
  | some kind =>
    if len = 0 ∨ 2 ^ 22 < len then (3, s)
    else
      let data := s.boot.parts ++ bufferBytes s len
      let i : Image := { header := ofBytes (data.take 4096), payload := data.drop 4096 }
      let fail (code : Nat) : State := bootStatus code kind { s with boot := { s.boot with parts := [] } }
      if data.length < 4096 ∨ !headerFormat kind i.header then (0, fail 1)
      else if i.payload.length < fld i.header 16 8 then (0, { s with boot := { s.boot with parts := data } })
      else
        let c := verifyImage s kind i
        if c = 0 then (0, imageArrived kind i s) else (0, fail c)

/-- BOOT_LOAD_DATA (R414). -/
def execBootLoadData (src : Nat) (bytes : List Byte) (s : State) : Answer :=
  outside s (commitBlob src K.bootLoadData bytes actLoadData s).2

/-- BOOT_LOAD_GO (R414). -/
def execBootLoadGo (src len : Nat) (s : State) : Answer :=
  outside s (commitScalar src K.bootLoadGo len actLoadGo s).2

end Sys2Proof.Machine
end

