-- ==== Sys2Proof/Machine/Fault.lean ====
section
/-! DEFINITION. Switching tasks out, the fault queue's head, and the handler's resolutions (R89, R162, R163, R327–R332). -/

namespace Sys2Proof.Machine

/-! ### Switching out (R327, R329) -/

/-- A Haul engine's faulting share goes into its save slot; the engine goes on with its next. -/
def haulOut (unit engine : Nat) (s : State) : Answer :=
  let k := engineKey unit engine
  let e := engineOf s k
  if unit > 8 ∨ engine ≥ engineCount unit then stuck "no such engine"
  else match e.pieces with
    | [] => stuck "the engine has no piece"
    | p :: rest =>
      match p.fault with
      | none => stuck "the piece has not faulted"
      | some f =>
        if e.saved.isSome then stuck "the engine's save slot is in use"
        else if faultListFull 1 s then
          (if e.stalled then stuck "the fault waiting list is full"
           else .next (bump K.faultListStalls 1 (setEngine k { e with stalled := true } s)))
        else .next (addFault (taskRecord 3 unit engine p.key p.done f)
          (setEngine k { pieces := rest, saved := some p, stalled := false } s))

/-- The commands of a Bramble that have faulted: the one it runs, and routes that are still open. -/
def brambleFaulted (b : Bramble) : List Route := (b.run.toList ++ b.open_).filter fun x => x.fault.isSome

/-- A Bramble's faulting command goes into one of four save slots; index is its place among those that have faulted. -/
def brambleOut (die index : Nat) (s : State) : Answer :=
  let b := brambleOf s die
  match (brambleFaulted b)[index]? with
  | none => stuck "no such command of the Bramble has faulted"
  | some r =>
    match r.fault with
    | none => stuck "no such command of the Bramble has faulted"
    | some f =>
      if faultListFull 1 s then
        (if r.stalled then stuck "the fault waiting list is full"
         else .next (bump K.faultListStalls 1 (onRoute die r.key (fun x => { x with stalled := true }) s)))
      else match pickSlot 4 (b.saves.cells.map (·.1)) s with
        | (none, _) => stuck "the Bramble's save slots are in use"
        | (some n, t) =>
          .next (addFault (taskRecord 4 die n r.key r.position f)
            (setBramble die { b with run := b.run.filter fun x => x.key != r.key
                                     open_ := b.open_.filter fun x => x.key != r.key
                                     saves := b.saves.put n { r with stalled := false } } t))

/-- A faulting collective goes into one of the Press's 16 save slots. -/
def pressOut (index : Nat) (s : State) : Answer :=
  match (s.press.colls.cells.filter fun c => c.2.fault.isSome && c.2.saved.isNone)[index]? with
  | none => stuck "no such collective has faulted"
  | some (key, c) =>
    match c.fault with
    | none => stuck "no such collective has faulted"
    | some f =>
      if faultListFull 1 s then
        (if c.stalled then stuck "the fault waiting list is full"
         else .next (bump K.faultListStalls 1 (setColl key { c with stalled := true } s)))
      else match pickSlot 16 (pressSlots s) s with
        | (none, _) => stuck "the Press's save slots are in use"
        | (some n, t) =>
          .next (addFault (taskRecord 5 8 n key c.position f) (setColl key { c with saved := some n, stalled := false } t))

/-- TASK_SWITCH_OUT (R327): kind 3 a Haul engine's share, 4 a Bramble command, 5 a collective. -/
def execTaskSwitchOut (kind unit index : Nat) (s : State) : Answer :=
  if kind = 3 then haulOut unit index s
  else if kind = 4 then brambleOut unit index s
  else if kind = 5 then pressOut index s
  else stuck "no such kind of task"

/-! ### The fault queue's head (R329, R337) -/

/-- FAULT_Q_HEAD: freed slots take the parked records, in order. -/
def writeFaultHead (v : Nat) (s : State) : WriteResult :=
  let h := s.faultq.head
  if ahead v h ≤ ahead s.faultq.tail h then
    let t : State := { s with faultq := { s.faultq with head := v } }
    (0, unpark t.faultq.waiting.length t)
  else (3, s)

/-- FAULT_Q_HEAD (R329). -/
def execFaultQHead (src v : Nat) (s : State) : Answer :=
  outside s (commitScalar src K.faultQHead v writeFaultHead s).2

/-! ### Resolving a fault (R331, R332) -/

/-- A switched-out group is resolved. [DEDUCED, unsafe: assumption 54] -/
def resolveGroup (unit slot : Nat) (end_ : Bool) (s : State) : Option State :=
  match s.grp.groups.cells.find? fun c => c.2.die == unit && c.2.place == .saved slot with
  | none => none
  | some (g, x) =>
    if end_ then some (endGroupBy g (x.cause.getD .segmentFault) s)
    else some (setGroup g { x with place := .runnable slot } s)

/-- A switched-out FACE_OP is resolved: it is offered again at its priority, or completes with its fault's status. One whose
descriptor has not been read is handed over again. -/
def resolveFace (unit slot : Nat) (end_ : Bool) (s : State) : Option State :=
  let f := faceOf s unit
  match f.saves.find slot with
  | none => none
  | some r =>
    let t := setFace unit { f with saves := f.saves.del slot } s
    if end_ then
      let o := match r.fault with | some i => causeStatus i.cause | none => .segmentFault
      some (faceDone unit (FRun.met o r) t).1
    else if r.op.raw = 0 then some (stageAgain r.op.key t)
    else some (offerWork unit (.face { r with fault := none, resumed := true }) (fPriority r.op.raw) t)

/-- A switched-out share of a Haul command is resolved. [DEDUCED, unsafe: assumption 43] -/
def resolveHaul (unit slot : Nat) (end_ : Bool) (s : State) : Option State :=
  let k := engineKey unit slot
  let e := engineOf s k
  match e.saved with
  | none => none
  | some p =>
    let t := setEngine k { e with saved := none } s
    if end_ then
      let o := match p.fault with | some i => causeStatus i.cause | none => .segmentFault
      some (nextPiece k p e.pieces (addOut p.key o t))
    else some (setEngine k { e with saved := none, pieces := e.pieces ++ [{ p with fault := none }] } t)

/-- A switched-out Bramble command is resolved. One that has offered its last expert needs its Bramble no more. One whose
descriptor has not been read is handed over again. [DEDUCED, unsafe: assumption 42] -/
def resolveBramble (unit slot : Nat) (end_ : Bool) (s : State) : Option State :=
  let b := brambleOf s unit
  match b.saves.find slot with
  | none => none
  | some r =>
    let b1 : Bramble := { b with saves := b.saves.del slot }
    if end_ then
      let o := match r.fault with | some i => causeStatus i.cause | none => .segmentFault
      let r2 : Route := Route.met o { r with aborted := true, fault := none }
      if r.combine then
        some (finishAcked r.key (r2.outs.foldl (fun s o => addOut r.key o s) (setBramble unit b1 s)))
      else some (setBramble unit { b1 with open_ := b1.open_ ++ [r2] } s)
    else if r.raw = 0 then some (stageAgain r.key (setBramble unit b1 s))
    else
      let e := rExperts r.raw
      let done := !r.combine && r.listed && (!rGather r.raw || decide (r.gathered ≥ e)) && (!rIssue r.raw || decide (r.offered ≥ e))
      let r2 : Route := { r with fault := none }
      some (setBramble unit (if done || r.aborted then { b1 with open_ := b1.open_ ++ [r2] } else { b1 with waiting := b1.waiting ++ [r2] }) s)

/-- A switched-out collective is resolved. One whose descriptor has not been read is handed over again. -/
def resolvePress (slot : Nat) (end_ : Bool) (s : State) : Option State :=
  match s.press.colls.cells.find? fun c => c.2.saved == some slot with
  | none => none
  | some (key, c) =>
    let t := setColl key { c with saved := none, fault := none } s
    if end_ then
      let o := match c.fault with | some i => causeStatus i.cause | none => .segmentFault
      some (endColl key o true t)
    else if c.raw = 0 then some (stageAgain key { t with press := { t.press with colls := t.press.colls.del key } })
    else some t

/-- FAULT_RESOLVE: bits [15:0] HANDLE, bit 16 ACTION; refused where no switched-out task, or only a parked one, bears the
handle (R332). -/
def writeFaultResolve (v : Nat) (s : State) : WriteResult :=
  let h := bits v 0 16
  let slot := bits h 0 8
  let unit := bits h 8 4
  let end_ := bit v 16
  if isParked h s ∨ bit h 15 then (7, s)
  else
    let r := match bits h 12 3 with
      | 1 => resolveGroup unit slot end_ s
      | 2 => resolveFace unit slot end_ s
      | 3 => resolveHaul unit slot end_ s
      | 4 => resolveBramble unit slot end_ s
      | 5 => if unit = 8 then resolvePress slot end_ s else none
      | _ => none
    match r with
    | some t => (0, t)
    | none => (7, s)

/-- FAULT_RESUME (R331): FAULT_RESOLVE with ACTION 0. -/
def execFaultResume (src handle : Nat) (s : State) : Answer :=
  outside s (commitScalar src K.faultResolve (bits handle 0 16) writeFaultResolve s).2

/-- FAULT_END (R331): FAULT_RESOLVE with ACTION 1. -/
def execFaultEnd (src handle : Nat) (s : State) : Answer :=
  outside s (commitScalar src K.faultResolve (bits handle 0 16 + 2 ^ 16) writeFaultResolve s).2

end Sys2Proof.Machine
end

