-- ==== Sys2Proof/Machine/Dict.lean ====
section
/-! DEFINITION. The dictionary as every path writes it: each entry's range and action, the local window, and the locks
(R388–R397, R407–R410). -/

namespace Sys2Proof.Machine

/-! ### Ranges that join several entries -/

/-- The context table at cb, or the segment table at sb, meets a range. -/
def meetsTables (s : State) (a n : Nat) : Bool :=
  rangesMeet a n (dv s K.ctxTableBase) 65536 || rangesMeet a n (dv s K.segTableBase) (2 ^ 21)

/-- A ring of the fault queue: 64 bytes a record (R328, R337). -/
def faultRingOk (s : State) (base n : Nat) : Bool :=
  base % 65536 == 0 && inFirmware base (64 * n) && !meetsTables s base (64 * n)

/-- A ring of the event queue: 32 bytes a record, clear of the tables and the fault queue (R448, R451).
[DEDUCED, unsafe: assumption 80] -/
def eventRingOk (s : State) (base n : Nat) : Bool :=
  base % 65536 == 0 && inFirmware base (32 * n) && !meetsTables s base (32 * n) &&
  !rangesMeet base (32 * n) (dv s K.faultQBase) (64 * dv s K.faultQEntries)

def ringCount (n : Nat) : Bool := isPow2 n && decide (256 ≤ n) && decide (n ≤ 65536)

/-- The ring moves only while records are not stored in it (R449). -/
def eventRing (key v : Nat) (s : State) : WriteResult :=
  if dv s K.eventQEnable = 1 then (7, s)
  else if key = K.eventQBase then ranged (eventRingOk s v (dv s K.eventQEntries)) key v s
  else ranged (ringCount v && eventRingOk s (dv s K.eventQBase) v) key v s

/-- The shares of the partitions add to at most 256; every bucket is filled up to now before its share or depth changes
(R254). [DEDUCED, unsafe: assumption 80] -/
def settleAll (s : State) : State := s.mem.bucketAt.cells.foldl (fun t c => settleBuckets c.1 t) s

def bwShare (i v : Nat) (s : State) : WriteResult :=
  let others := ((List.range 16).filter (· != i)).foldl (fun a k => a + dv s (K.bwShare + k)) 0
  if others + v ≤ 256 then (0, setDv (K.bwShare + i) v (settleAll s)) else (3, s)

/-- The codes of Table 3 of chapter 15, SHOT_TAKEN apart (R439). -/
def matchCodes : List Nat :=
  [0x1, 0x2, 0x3, 0x4, 0x10, 0x20, 0x21, 0x22, 0x30, 0x40, 0x41, 0x42, 0x43, 0x44, 0x50, 0x51, 0x60, 0x70, 0x90, 0x91, 0x92]

/-- A logical port in Switched or Front-end mode since its last training. -/
def etherPort (s : State) (p : Nat) : Bool :=
  decide (p < 96) && decide (2 ≤ cfgMode (portOf s p).cfg) && decide (p % 4 < subPorts (portOf s p).cfg)

/-- A new PTP_SOURCE: the slave clock stops, or begins to measure (R442, R443). [DEDUCED, unsafe: assumption 76] -/
def ptpSource (v : Nat) (s : State) : WriteResult :=
  if 2 < v then (3, s)
  else
    let t := setDv K.ptpSource v s
    if v = dv s K.ptpSource then (0, t)
    else (0, { t with time := { t.time with
      ptpState := if v = 0 then 0 else 1, syncOrigin := none, awaitFollowUp := false, lastSync := t.time.now, good := 0 } })

/-- A write to a setting of the management port takes effect 1,000,000 ns later (R393). -/
def mgmtLater (key v : Nat) (s : State) : State :=
  { s with mgmt := { s.mgmt with waiting := s.mgmt.waiting ++ [(s.time.now + 1000000, key, v)] } }

/-- MGMT_IP holds an IPv4 address (R393). -/
def isIpv4 (ip : List Byte) : Bool := ip.take 12 == List.replicate 10 0#8 ++ [0xFF#8, 0xFF#8]

def mgmtSetting (ok : Bool) (key v : Nat) (s : State) : WriteResult :=
  if ok then (0, mgmtLater key v (setDv key v s)) else (3, s)

/-! ### Scalars -/

/-- A write to a queue's entries (R297, R298, R306, R337): configuration changes only while the queue is CLOSED.
[DEDUCED, unsafe: assumption 80] -/
def queueWrite (q sub v : Nat) (s : State) : WriteResult :=
  match sub with
  | 0 => writeQState q v s
  | 10 => writeDoorbell q v s
  | 11 => writeCplHead q v s
  | _ =>
    let ok := (sub != 1 || v == 1 || v == 2) && (sub != 3 || decide (v ≤ 1))
    if !ok then (3, s)
    else if (queueOf s q).st ≠ .closed then (7, s)
    else justStore (qKey q sub) v s

/-- Entries 0x1xxx and 0x2xxx. -/
def scalarLow (key v : Nat) (s : State) : WriteResult :=
  match key / 256, key % 256 with
  | 0x1006, _ => ranged (decide (10000 ≤ v) && decide (v ≤ 100000000)) key v s
  | 0x1100, 0 => mgmtSetting (decide (v ≤ 2)) key v s
  | 0x1100, 3 => mgmtSetting (decide (v ≤ if isIpv4 (blob s K.mgmtIp) then 32 else 128)) key v s
  | 0x1100, _ => mgmtSetting true key v s
  | 0x1101, _ => ranged (v != 0) key v s
  | 0x2000, 0 => ranged (decide (1200 ≤ v) && decide (v ≤ dv s K.envelopeMaxW)) key v s
  | 0x2000, _ => writeEnvelopeMax v s
  | 0x2002, 0 => writePointMax v s
  | 0x2002, 1 => ranged (decide (v ≤ dv s K.pointMax)) key v s
  | 0x2002, _ => ranged (decide (v ≤ 15)) key v s
  | 0x2004, _ => ranged (decide (3 ≤ v) && decide (v ≤ 30)) key v s
  | _, _ => justStore key v s

/-- Entries 0x3xxx. -/
def scalarLinks (key v : Nat) (s : State) : WriteResult :=
  let sub := key % 256
  match key / 256 with
  | 0x3000 =>
    if sub = 1 then ranged (decide (100000 ≤ v) && decide (v ≤ 1000000000)) key v s
    else if sub = 2 then ranged (decide (1 ≤ v) && decide (v ≤ 31)) key v s
    else ranged (decide (0x600 ≤ v)) key v s
  | 0x3003 => (0, if v = 1 then trainPort sub s else s)
  | 0x3004 => writeRoute v s
  | 0x3007 => (0, setBlobBit K.abandonedNodes (v % 4096) false s)
  | 0x3012 => (0, pumpLinks (setDv key v s))
  | _ => justStore key v s

/-- Entries 0x4xxx. -/
def scalarMemory (key v : Nat) (s : State) : WriteResult :=
  let sub := key % 256
  match key / 256 with
  | 0x4000 => actLocalGib v s
  | 0x4001 => ranged (decide (v ≤ 1)) key v s
  | 0x4002 => ranged (decide (v ≤ 2)) key v s
  | 0x4004 =>
    if sub = 0 then ranged (decide (v ≤ 1)) key v s
    else if sub = 1 then ranged (decide (200 ≤ v) && decide (v ≤ 100000)) key v s
    else if sub = 2 then ranged (decide (1000 ≤ v) && decide (v ≤ 1000000)) key v s
    else ranged (decide (100 ≤ v) && decide (v ≤ 100000)) key v s
  | 0x4005 =>
    if sub < 16 then bwShare sub v s
    else if 1 ≤ v ∧ v ≤ 1024 then (0, setDv key v (settleAll s)) else (3, s)
  | 0x4008 => if sub = 0 then ranged (decide (v ≤ 720)) key v s else ranged (decide (v ≤ 1)) key v s
  | 0x4010 => ranged (decide (v ≤ 400)) key v s
  | _ => justStore key v s

/-- A lock bit: a 1 sets it, a 0 has no effect (R408). -/
def writeLock (key v : Nat) (s : State) : WriteResult := (0, if v = 1 then setDv key 1 s else s)

/-- Entries 0x7xxx. -/
def scalarSnap (key v : Nat) (s : State) : WriteResult :=
  match key / 256, key % 256 with
  | 0x7000, 0 => (0, if v = 1 then fireShot 0 (nodeId s) 0 s else s)
  | 0x7000, 2 => ranged (v == 0 || matchCodes.contains v) key v s
  | 0x7000, 7 => ranged (isCaptured v) key v s
  | 0x7001, 0 => eventRing key v s
  | 0x7001, 1 => eventRing key v s
  | 0x7001, 2 => (0, storeWaiting (setDv key v s))
  | 0x7001, 3 => writeEventHead v s
  | 0x7002, 1 => ptpSource v s
  | 0x7002, 2 => ranged (etherPort s v) key v s
  | 0x7002, 4 => ranged (decide (v ≤ 1)) key v s
  | 0x7002, 7 => ranged (decide (1000 ≤ v) && decide (v ≤ 1000000000)) key v s
  | 0x7003, 0 => clearCounters v s
  | 0x7003, 2 => (0, setDv K.errSummary (dv s K.errSummary &&& (2 ^ 32 - 1 - v)) s)
  | 0x7020, d => actFaceLfsrSeed d v s
  | _, _ => justStore key v s

/-- Entries 0x8xxx and 0x9xxx. -/
def scalarHigh (key v : Nat) (s : State) : WriteResult :=
  match key / 256, key % 256 with
  | 0x8001, 0 => ranged (v % 4096 == 0 && decide (v < 2 ^ 22)) key v s
  | 0x8001, 2 => actLoadGo v s
  | 0x8003, 5 => actMinSecRaise v s
  | 0x9000, 2 => actTableLoad v s
  | 0x9000, _ => actTableBase key v s
  | 0x9001, _ => ranged (decide (200 ≤ v) && decide (v ≤ 1000000)) key v s
  | 0x9010, 0 => ranged (faultRingOk s v (dv s K.faultQEntries)) key v s
  | 0x9010, 1 => ranged (ringCount v && faultRingOk s (dv s K.faultQBase) v) key v s
  | 0x9010, 2 => writeFaultHead v s
  | 0x9010, _ => writeFaultResolve v s
  | _, _ => justStore key v s

/-- What an accepted write of a scalar does: its range and its action (R390, R391). -/
def scalarAct (key v : Nat) (s : State) : WriteResult :=
  if 0x940000 ≤ key ∧ key < 0x980000 then queueWrite (key / 256 - 0x9400) (key % 256) v s
  else match key / 2 ^ 20 with
    | 1 => scalarLow key v s
    | 2 => scalarLow key v s
    | 3 => scalarLinks key v s
    | 4 => scalarMemory key v s
    | 5 => if key = K.claimAssign then actClaimAssign v s else writeLock key v s
    | 7 => scalarSnap key v s
    | _ => scalarHigh key v s

/-- A write of a scalar from any path. -/
def scalarWrite (src key v : Nat) (s : State) : WriteResult :=
  if 0x940000 ≤ key ∧ key < 0x980000 ∧ key % 256 = 10 then commitDoorbell src (key / 256 - 0x9400) v s
  else commitScalar src key v (scalarAct key) s

/-! ### STR and BLOB values -/

/-- Import entries keep no reserved bits (Table 6 of chapter 9). -/
def importKept (b : List Byte) : List Byte :=
  b.zipIdx.map fun x => match x.2 % 4 with
    | 0 => x.1 &&& 0x01#8
    | 3 => x.1 &&& 0x0F#8
    | _ => x.1

/-- CLAIM_TAGS: the bytes of claims 0–63 read 0 and ignore writes (R295). -/
def tagsKept (n : Nat) (b : List Byte) : List Byte := if n = 0 then List.replicate 64 0#8 ++ b.drop 64 else b

def blobAct (key : Nat) (b : List Byte) (s : State) : WriteResult :=
  match key / 256, key % 256 with
  | 0x1100, _ => (0, mgmtLater key (ofBytes b) (setBlob key b s))
  | 0x3006, _ => writeConn (ofBytes b) s
  | 0x5010, n => (0, setBlob key (tagsKept n b) s)
  | 0x5012, _ => (0, setBlob key (importKept b) s)
  | 0x5021, _ => actMeasExtend b s
  | 0x5022, _ => actAttestNonce b s
  | 0x5023, 3 => actOwnerKey true b s
  | 0x8001, _ => actLoadData b s
  | 0x8003, 2 => actFwOverride b s
  | 0x8003, _ => actOwnerKey false b s
  | _, _ => (0, setBlob key b s)

/-- A commit of a STR or BLOB value from any path. -/
def blobWrite (src key : Nat) (b : List Byte) (s : State) : WriteResult :=
  if key = K.debugToken then commitToken src b s else commitBlob src key b (blobAct key) s

/-- A write of a whole value given as bytes: a scalar's must have the entry's size (R389, R402, R421).
[DEDUCED, unsafe: assumption 73] -/
def valueWrite (src key : Nat) (b : List Byte) (s : State) : WriteResult :=
  if isBlob key then blobWrite src key b s
  else if (entryOf key).isSome && b.length != sizeOf key then commit src key (fun t => (5, t)) s
  else scalarWrite src key (ofBytes b) s

/-- DICT_WRITE (R391): a write of a value v to an entry. -/
def execDictWrite (src key v : Nat) (s : State) : Answer :=
  outside s (valueWrite src key (toBytes (sizeOf key) v) s).2

/-- LOCK_SET (R408): a write of a lock bit; g names the group, 1–6. -/
def execLockSet (src g v : Nat) (s : State) : Answer :=
  outside s (scalarWrite src (K.lockState + g) v s).2

/-! ### Window stores (R394–R397) -/

/-- Bytes go into the entry's staging buffer (R396, R402). -/
def stage (key off : Nat) (b : List Byte) (s : State) : State :=
  let old := stagedBytes s key
  let new := old.take off ++ b ++ old.drop (off + b.length)
  { s with dict := { s.dict with staging := s.dict.staging.put key (new.take 4096) } }

/-- What becomes of a core's oldest posted store (R216, R290). -/
inductive Posted where
  | nothing
  /-- It waits: for an older Device-strict store that has become a request, or for Rowan to grant an update (R216, R290). -/
  | waits
  /-- It reaches the window: offset, bytes, value. -/
  | arrives (off n v : Nat) (s : State)
  /-- Rowan refuses it for its GEN, and the core has dealt with it. -/
  | refused (s : State)
deriving DecidableEq, Repr

/-- A posted store with an old GEN is refused, and the core translates it again: to the window where Rowan still accepts it
(R278); else it leaves as a plain request, and a translation that fails is reported imprecisely (R199, R290).
[DEDUCED, unsafe: assumption 88] -/
def retryPosted (c : Nat) (e : SbEntry) (rest : List SbEntry) (s : State) : State :=
  let t := countStale s
  let m := medlarOf t c
  let ask (y : Xl) : State :=
    issueReq (plainReq (.medlar c) .write y e.va [oneLane (e.va % 128) e.n e.val]) (setMedlar c { m with posted := rest } t)
  match retranslate t e.xl.ctx e.va needW with
  | .ok y =>
    (match y.target with
     | .window _ => if windowOpen t y then setMedlar c { m with posted := { e with xl := y } :: rest } t else ask y
     | _ => ask y)
  | .fault _ => medlarReport c { cause := .segmentFault, va := e.va } (setMedlar c { m with posted := rest } (countSegFault t))

/-- The first Device-strict store a core has posted leaves for the window (R216). -/
def takePosted (c : Nat) (s : State) : Posted :=
  let m := medlarOf s c
  match m.posted with
  | [] => .nothing
  | e :: rest =>
    if strictOut s c || genEarly s 64 e.xl then .waits
    else if !genOk s 64 e.xl then .refused (retryPosted c e rest s)
    else
      let off := match e.xl.target with
        | .window o => o
        | _ => 0
      .arrives off e.n e.val (setMedlar c { m with posted := rest } s)

/-- A store to a slot: one that does not cover a scalar from its first byte is refused, bytes beyond it are discarded, and a
store to a STR or BLOB slot commits as many staged bytes as it says. Below the slots' end every offset lies in a slot; one
beyond names no entry (R394, R395). [DEDUCED, unsafe: assumption 79] -/
def slotStore (off n v : Nat) (s : State) : State :=
  let key := off / 8
  if 0x8000000 ≤ off then refuseWrite 0 (key % 2 ^ 24) 4 s
  else if isBlob key then
    let len := if off % 8 = 0 then v % 2 ^ (8 * n) else 4097
    let b := if len ≤ 4096 then (stagedBytes s key).take len else List.replicate 4097 0#8
    (blobWrite 0 key b s).2
  else if (entryOf key).isSome && (off % 8 != 0 || decide (n < sizeOf key)) then (commit 0 key (fun t => (5, t)) s).2
  else (scalarWrite 0 key (v % 2 ^ (8 * sizeOf key)) s).2

/-- WINDOW_SLOT_STORE (R395): a core's oldest posted store reaches a slot. -/
def execWindowSlotStore (core : Nat) (s : State) : Answer :=
  if !dieUp s (dieOfCore core) then stuck "the core's die does not run"
  else match takePosted core s with
    | .nothing => stuck "the core has posted no store"
    | .waits => stuck "the store cannot leave yet"
    | .refused t => .next t
    | .arrives off n v t =>
      if 0x100000000 ≤ off then stuck "the store is one of the aperture" else .next (slotStore off n v t)

/-- A store into the aperture stages bytes; where no STR or BLOB entry lies there is no buffer. One of more than 8 bytes
has no stated value (R396). [DEDUCED, unsafe: assumption 79] -/
def apertureStore (off n v : Nat) (s : State) : State :=
  let key := (off - 0x100000000) / 4096
  if isBlob key && served s key then
    let r := if n ≤ 8 then (v, s) else takeFree s
    stage key ((off - 0x100000000) % 4096) (toBytes n r.1) r.2
  else refuseWrite 0 key (if served s key && (entryOf key).isSome then 5 else 4) s

/-- BLOB_APERTURE_STORE (R396): a core's oldest posted store reaches the aperture. -/
def execBlobApertureStore (core : Nat) (s : State) : Answer :=
  if !dieUp s (dieOfCore core) then stuck "the core's die does not run"
  else match takePosted core s with
    | .nothing => stuck "the core has posted no store"
    | .waits => stuck "the store cannot leave yet"
    | .refused t => .next t
    | .arrives off n v t =>
      if off < 0x100000000 then stuck "the store is one of a slot" else .next (apertureStore off n v t)

end Sys2Proof.Machine
end

