-- ==== Sys2Proof/Machine/Boot.lean ====
section
/-! DEFINITION. Power, reset, reference clocks and the boot sequence (R11–R13, R250, R342, R386, R411–R428, R458–R463). -/

namespace Sys2Proof.Machine

/-! ### Power and reset (R386, R461–R463) -/

/-- What a reset leaves: the board's own pins, the fuses, what HBM holds, and the model's clock, sent messages, free values
and waiting commands; everything else returns to its reset value (R386, R463). [DEDUCED, unsafe: assumption 72] -/
def afterReset (s : State) : State :=
  { State.reset with
    board := { Board.reset with
      railsUp := s.board.railsUp, strapPins := s.board.strapPins, clocksAbsent := s.board.clocksAbsent
      thermtrip := s.board.thermtrip }
    part := s.part
    time := { TimeS.reset with now := s.time.now }
    mem := { MemSys.reset with hbm := s.mem.hbm, hbmPoison := s.mem.hbmPoison, errSyms := s.mem.errSyms }
    out := s.out
    freeN := s.freeN
    pending := s.pending }

/-- POWER_UP (R462): the rails rise with RESET_N low; straps and clocks as the board drives them. -/
def execPowerUp (strapPins absentClocks : Nat) (s : State) : Answer :=
  .next (if s.board.railsUp then s
    else
      let b : Board := { Board.reset with strapPins := strapPins % 65536, clocksAbsent := absentClocks % 65536 }
      { s with board := b })

/-- PORT_CFG_LPn under LINK_DEFAULT (Table 2 of chapter 11). -/
def portDefault (ld n : Nat) : Nat :=
  if ld = 0 then (if n < 22 then 0x044 else 0x48C)
  else if ld = 1 then (if n < 22 then 0x088 else 0x48C)
  else if ld = 2 then 0x88C else 0

/-- An empty key store gets a fresh pair, and no certificate (R428). -/
def regenerateKey (s : State) : State :=
  match s.part.identity with
  | some _ => s
  | none => { s with part := { s.part with
      identity := some s.part.identities, identities := s.part.identities + 1
      identityCert := List.replicate 3200 0#8 } }

/-- LP0 trains for a peer load: Direct, x8, 25.78 Gb/s, rack copper (R415). [PRESUMED, unsafe: assumption 71] -/
def peerBootCfg : Nat := 1 * 2 ^ 2 + 3 * 2 ^ 4 + 1 * 2 ^ 6

/-- RESET_RELEASE (R462): the straps are sampled and step 1 runs; without REFCLK_TIME Rowan does not leave reset (R458). -/
def execResetRelease (s : State) : Answer :=
  .next (if !s.board.railsUp || s.board.running || bit s.board.clocksAbsent 15 then s
    else
      let st := s.board.strapPins % 65536
      let s1 : State := { s with
        board := { s.board with running := true, straps := st }
        time := { s.time with epoch := s.time.now }
        mgmt := { s.mgmt with since := s.time.now }
        boot := { s.boot with phase := 1, stepDone := true } }
      let s2 := (List.range 24).foldl (fun t n => setDv (K.portCfg + n) (portDefault (bits st 12 2) n) t) s1
      let s3 := freshChallenge (regenerateKey s2)
      if bits st 14 2 = 2 then setPort 0 { Port.idle with cfg := peerBootCfg, st := .training } s3 else s3)

/-- RESET_ASSERT (R463): RESET_N falls, and every block stops. -/
def execResetAssert (s : State) : Answer := .next (if s.board.railsUp then afterReset s else s)

/-- POWER_REMOVAL (R386): only fuse-backed and CONST state survives. -/
def execPowerRemoval (s : State) : Answer :=
  let t := afterReset s
  .next { t with board := { Board.reset with railsUp := false, strapPins := s.board.strapPins }
                 mem := MemSys.reset }

/-! ### Reference clocks (R458, R459) -/

/-- A stack's data is lost: what HBM and its controller held of it (R459). [DEDUCED, unsafe: assumption 72] -/
def loseStack (c : Nat) (s : State) : State :=
  let mine (line : Nat) : Bool := homeCtl s line == c
  { s with mem := { s.mem with
      hbm := s.mem.hbm.filter fun x => !mine (x.1 / 128)
      hbmPoison := s.mem.hbmPoison.filter fun l => !mine l
      errSyms := s.mem.errSyms.keep fun cw _ => !mine (cw / 2)
      ctls := s.mem.ctls.put c { ctlOf s c with wcb := [] }
      lostStacks := s.mem.lostStacks ||| BitVec.ofNat 32 (2 ^ c) } }

/-- REFCLK_LOSS (R459): clk 0–7 REFCLK_HBM, 8–13 REFCLK_SDS, 14 REFCLK_MGMT, 15 REFCLK_TIME. -/
def execRefclkLoss (clk : Nat) (s : State) : Answer :=
  if 15 < clk || bit s.board.clocksAbsent clk then .next s
  else
    let t : State := { s with board := { s.board with clocksAbsent := setBit s.board.clocksAbsent clk } }
    .next (if !alive s then t
      else if clk < 8 then (List.range 4).foldl (fun u c => loseStack (4 * clk + c) u) t
      else if clk < 14 then
        (List.range 16).foldl (fun u i =>
          let lp := 16 * (clk - 8) + i
          if (portOf u lp).st = .up ∨ (portOf u lp).st = .training then portDown lp u else u) t
      else if clk = 14 then { t with mgmt := { t.mgmt with link := 0 } }
      else t)

/-- REFCLK_RETURN (R458): a differential clock returns; lost data stays lost until reset. [DEDUCED, unsafe: assumption 72] -/
def execRefclkReturn (clk : Nat) (s : State) : Answer :=
  .next (if clk < 15 then { s with board := { s.board with clocksAbsent := clearBit s.board.clocksAbsent clk } } else s)

/-! ### Steps 2 and 3: the stage loader (R411–R415) -/

/-- The step at which the next can begin is complete. -/
def stepReached (s : State) (p : Nat) : Bool := alive s && s.boot.phase == p && s.boot.stepDone

def atStep (p : Nat) (done : Bool) (s : State) : State := { s with boot := { s.boot with phase := p, stepDone := done } }

/-- The first valid image of a kind among its sources (0 slot A, 1 slot B, 3 peer); each failure is recorded. A slot that
holds none ends in a block of zeros, which is no header; a peer that sends none has not answered (R412, R415, R417).
[DEDUCED, unsafe: assumption 68] -/
def tryImages (kind : Nat) : List (Nat × Option Image) → State → Option (Nat × Image) × State
  | [], s => (none, s)
  | (src, none) :: rest, s => tryImages kind rest (bootStatus (if src = 3 then 6 else 1) kind s)
  | (src, some i) :: rest, s =>
    let c := verifyImage s kind i
    if c = 0 then (some (src, i), s) else tryImages kind rest (bootStatus c kind s)

/-- An image is taken from its source, or has no valid copy. Tells whether it was found. [DEDUCED, unsafe: assumption 70] -/
def fetchImage (kind : Nat) (from_ : List (Nat × Option Image)) (s : State) : Option Nat × State :=
  match tryImages kind from_ s with
  | (some (src, i), t) => (some src, takeImage kind i (if src = 1 then usedSlotB t else t))
  | (none, t) => (none, imageMissing kind t)

/-- STAGE_LOADER_LOAD (R411): the ROM fetches the stage loader from the strap-selected source. -/
def execStageLoaderLoad (slotA slotB peer : Option Image) (s : State) : Answer :=
  let late := alive s && s.boot.phase == 2 && !s.boot.stepDone && s.boot.awaiting.isNone && bootSrc s == 2 &&
    bits s.boot.status 0 8 == 6
  if !(stepReached s 1 || late) then stuck "the ROM does not fetch the stage loader now"
  else if peer.isSome && bootSrc s == 2 && !portUp s 0 then stuck "LP0 is not up"
  else
    let t := atStep 2 false s
    if bootSrc s = 1 then .next { t with boot := { t.boot with awaiting := some 0 } }
    else
      let slots := [(0, slotA), (1, slotB)]
      match fetchImage 0 (if bootSrc s = 2 ∧ !late then (3, peer) :: slots else slots) t with
      | (some src, u) => .next { u with boot := { u.boot with phase := 3, stepDone := true, source := src } }
      | (none, u) => .next u

/-- PEER_BOOT_TIMEOUT (R415): no answer within 100,000,000 ns counts as no valid stage loader. -/
def execPeerBootTimeout (s : State) : Answer :=
  if stepReached s 1 && bootSrc s == 2 then .next (bootStatus 6 0 (atStep 2 false (atLeast (s.time.now + 100000000) s)))
  else stuck "the ROM awaits no peer"

/-- PEER_BOOT_REQUEST (R415): the set this device runs is served only while BOOT_SERVE is 1. -/
def execPeerBootRequest (lport : Nat) (s : State) : Answer :=
  outside s (if portUp s lport && dv s K.bootServe == 1 then
    send (.bootImages lport (s.boot.images.cells.map (·.2))) s else s)

/-! ### Step 4: the Sett self-test (R8, R11–R13) -/

/-- The dies a Sett link joins (Table 1 of chapter 1). -/
def linkEnds (l : Nat) : Nat × Nat :=
  if l < 3 then (l, l + 1)
  else if l < 6 then (l + 1, l + 2)
  else if l < 10 then (l - 6, l - 2)
  else match l with
    | 10 => (8, 0) | 11 => (8, 4) | 12 => (9, 3) | 13 => (9, 7)
    | 14 => (10, 1) | 15 => (10, 2) | 16 => (10, 5) | _ => (10, 6)

/-- The Ashlar and Medlar dies at the ends of failed links. -/
def heldBy (failed : Nat) : Nat :=
  (List.range 10).foldl (fun a d =>
    if (setBitsOf 18 failed).any fun l => (linkEnds l).1 == d || (linkEnds l).2 == d then a + 2 ^ d else a) 0

/-- SETT_SELF_TEST (R12): the failed links make the package DEFECT and hold the dies at their ends. -/
def execSettSelfTest (failed : Nat) (s : State) : Answer :=
  if !stepReached s 3 then stuck "the self-test does not run now"
  else
    let f := failed % 2 ^ 18
    let t : State := { atStep 4 (f == 0) s with settFail := f, diesHeld := heldBy f }
    .next (if f = 0 then t else { t with pkg := .defect })

/-! ### Step 5: CONFIG (R421) -/

/-- The records of a CONFIG payload: key and value. A record that the payload does not hold whole ends the list.
[DEDUCED, unsafe: assumption 73] -/
def configRecords : Nat → List Byte → List (Nat × List Byte)
  | 0, _ => []
  | n + 1, b =>
    let h := ofBytes (b.take 8)
    let len := fld h 4 2
    if b.length < 8 + len then []
    else (256 * fld h 0 2 + fld h 2 1, (b.drop 8).take len) :: configRecords n (b.drop (8 + roundUp len 8))

/-- The records are applied in order as firmware writes; a refused one is counted, and boot goes on. -/
def applyConfig (s : State) : State :=
  match s.boot.images.find 4 with
  | none => s
  | some i =>
    let p := i.payload.take (fld i.header 16 8)
    (configRecords (p.length / 8) p).foldl (fun t r => (valueWrite 3 r.1 r.2 t).2) s

/-- The sources of an image after the stage loader: its own slot, then the other, or its peer (R412).
[DEDUCED, unsafe: assumption 70] -/
def sources (s : State) (slotA slotB : Option Image) : List (Nat × Option Image) :=
  match s.boot.source with
  | 0 => [(0, slotA), (1, slotB)]
  | 1 => [(1, slotB), (0, slotA)]
  | _ => [(3, slotA)]

/-- CONFIG_APPLY (R421): CONFIG is loaded, verified and applied. After a peer load slotA holds what the peer sends. -/
def execConfigApply (slotA slotB : Option Image) (s : State) : Answer :=
  let resumed := alive s && s.boot.phase == 5 && !s.boot.stepDone && (s.boot.images.find 4).isSome
  if resumed then .next (applyConfig (atStep 5 true s))
  else if !stepReached s 4 then stuck "CONFIG is not loaded now"
  else
    let t := atStep 5 false s
    if s.boot.source = 2 then .next { t with boot := { t.boot with awaiting := some 4 } }
    else match fetchImage 4 (sources s slotA slotB) t with
      | (some _, u) => .next (applyConfig (atStep 5 true u))
      | (none, u) => .next u

/-! ### Steps 6 and 7: memory (R108, R250) -/

/-- The stacks that fail: at 6.4 Gb/s, or for want of their die's clock (R250, R458). -/
def stackFails (s : State) (best : List Nat) : Nat :=
  (List.range 32).foldl (fun a c =>
    if decide (2 < best.getD c 3) || bit s.board.clocksAbsent (c / 4) then a + 2 ^ c else a) 0

/-- Firmware clears the zero map and the firmware region: everything below offset 4 GiB (R108, R232). -/
def clearFirmware (s : State) : State :=
  { s with mem := { s.mem with
      hbm := s.mem.hbm.filter fun c => decide (2 ^ 32 ≤ c.1)
      hbmPoison := s.mem.hbmPoison.filter fun l => decide (2 ^ 25 ≤ l)
      errSyms := s.mem.errSyms.keep fun cw _ => decide (2 ^ 26 ≤ cw) } }

/-- HBM_TRAINING (R250): best: the highest rate at which each stack passes, 0–2; anything else fails. -/
def execHbmTraining (best : List Nat) (s : State) : Answer :=
  if !stepReached s 5 then stuck "no stack trains now"
  else
    let fails := stackFails s best
    let top := dv s K.hbmRateMax
    let t := (List.range 32).foldl (fun u c =>
      if bit fails c then u else setDv (K.hbmRate + c) (max top (best.getD c 0)) u) (setDv K.stackFailMap fails s)
    .next (if fails ≠ 0 then { atStep 6 false t with pkg := .defect }
      else storeWaiting (atStep 7 true (clearFirmware t)))

/-! ### Step 8: the images and their manifests (R424–R426) -/

/-- An image lists the triple of steppings found. -/
def listsTriple (s : State) (h : Nat) : Bool :=
  let t := s.part.ashlarStepping + s.part.medlarStepping * 2 ^ 8 + s.part.rowanStepping * 2 ^ 16
  (List.range 8).any fun i => fld h (96 + 4 * i) 3 == t && fld h (96 + 4 * i) 3 != 0

/-- An image's range for kind k contains an interface version. -/
def rangeHolds (h k v : Nat) : Bool := decide (fld h (128 + 4 * k) 2 ≤ v) && decide (v ≤ fld h (130 + 4 * k) 2)

/-- MISMATCH of the five running images (R424). -/
def mismatchOf (s : State) : Nat :=
  (List.range 5).foldl (fun a k =>
    let h := runningHeader s k
    let a1 := if listsTriple s h then a else a + 2 ^ k
    if (List.range 5).all fun i => i == k || rangeHolds (runningHeader s i) k (imgIface h) then a1 else a1 + 2 ^ (5 + k)) 0

/-- A payload goes into the firmware region. -/
def placePayload (base : Nat) (i : Image) (s : State) : State :=
  let n := fld i.header 16 8
  fwWrite (n / 128 + 2) base n (ofBytes (i.payload.take n)) s

/-- Kinds 1–3 are loaded in order; one without a valid copy, or awaited over the network, stops the step. -/
def loadKinds (slotA slotB : List Image) : List Nat → State → Bool × State
  | [], s => (true, s)
  | k :: ks, s =>
    let of_ (l : List Image) : Option Image := l.find? fun i => imgKind i.header == k
    if (s.boot.images.find k).isSome then loadKinds slotA slotB ks s
    else if s.boot.source = 2 then (false, { s with boot := { s.boot with awaiting := some k } })
    else match fetchImage k (sources s (of_ slotA) (of_ slotB)) s with
      | (some _, t) => loadKinds slotA slotB ks t
      | (none, t) => (false, t)

/-- The combination is judged, and FW_OVERRIDE examined (R424–R426). -/
def judgeCombination (s : State) : State :=
  let m := mismatchOf s
  let t : State := { s with boot := { s.boot with mismatch := m } }
  let b := blob t K.fwOverride
  let u := if overrideOk t (ofBytes b) then acceptOverride b t else t
  { u with boot := { u.boot with judgedRestricted := m != 0 && !u.boot.overridden } }

/-- Steps 9 and 10: the Weighbridge's first window begins, and every port trains (R344, R420). -/
def startFirmware (s : State) : State :=
  (List.range 24).foldl (fun t n => trainPort n t) (openWindow none s)

/-- Where the payloads go is the stage loader's choice within the firmware region. [DESIGN CHOICE, safe: assumption 74] -/
def basesOk (s : State) (bases : List Nat) : Bool :=
  (List.range 3).all fun i => inFirmware (bases.getD i 0) (fld (runningHeader s (i + 1)) 16 8)

/-- IMAGE_LOAD (R424): WEIGH, LINK and RUNTIME are loaded and verified, the manifests checked and FW_OVERRIDE examined; then
steps 9 and 10 run. -/
def execImageLoad (slotA slotB : List Image) (bases : List Nat) (s : State) : Answer :=
  let resumed := alive s && s.boot.phase == 8 && !s.boot.stepDone && s.boot.awaiting.isNone && bootSrc s != 3
  if !(stepReached s 7 || resumed) then stuck "the images are not loaded now"
  else
    let r := loadKinds slotA slotB [1, 2, 3] (atStep 8 false s)
    if !r.1 then .next r.2
    else if !basesOk r.2 bases then stuck "a payload does not lie in the firmware region"
    else
      let put (t : State) (k : Nat) : State := match t.boot.images.find k with
        | some i => placePayload (bases.getD (k - 1) 0) i t
        | none => t
      let t := [1, 2, 3].foldl put r.2
      let u : State := { t with boot := { t.boot with runtimeAt := bases.getD 2 0 } }
      .next (atStep 10 true (startFirmware (judgeCombination u)))

/-! ### Steps 11 and 12 (R422, R423, R425) -/

/-- A MEMORY segment of context 0 (R269, R422): permissions, region, virtual pages and physical base. -/
def firmwareSeg (perms region vpage pages pbase : Nat) : Nat :=
  1 + perms * 2 ^ 3 + region * 2 ^ 6 + vpage * 2 ^ 32 + (vpage + pages) * 2 ^ 64 + pbase * 2 ^ 128

/-- Context 0's entry and its two segments are put into the tables, and the tables are loaded. The firmware region is
mapped at virtual page fwPage, the dictionary window at winPage; which pages, the firmware chooses. -/
def loadContext0 (fwPage winPage : Nat) (s : State) : State :=
  let node := nodeId s * 2 ^ 44
  let sb := dv s K.segTableBase
  let t := fwWrite 2 (dv s K.ctxTableBase) 16 7 s
  let u := fwWrite 3 sb 32 (firmwareSeg 7 0 fwPage 1024 (node + 2 ^ 31)) t
  let v := fwWrite 3 (sb + 32) 32 (firmwareSeg 3 2 winPage (windowEnd / 2 ^ 21) (node + 2 ^ 42)) u
  (scalarWrite 3 K.tableLoad 1 v).2

/-- A core starts the runtime (R422). -/
def startCore (entry bootInfo c : Nat) (s : State) : State :=
  let a := BitVec.ofNat 64 entry
  setMedlar c { Medlar.fresh with running := true, pc := a, trapVec := a,
                                  g := (Medlar.fresh.g.set 0#64 1 (BitVec.ofNat 64 c)).set 0#64 2 (BitVec.ofNat 64 bootInfo) } s

/-- RUNTIME_START (R422): TABLE_LOAD installs context 0, and each core in service starts the runtime.
[DESIGN CHOICE, safe: assumption 74] -/
def execRuntimeStart (fwPage winPage bootInfo : Nat) (s : State) : Answer :=
  let t := loadContext0 fwPage winPage s
  let a := fwPage * 2 ^ 21
  let entry := a + (s.boot.runtimeAt - 2 ^ 31) + fld (runningHeader s 3) 24 8
  if !stepReached s 10 then stuck "the runtime does not start now"
  else if !(segValid (segOf t 0 0).raw && segValid (segOf t 0 1).raw && decide (a ≤ bootInfo) &&
      decide (bootInfo + 4096 ≤ a + 2 ^ 31)) then
    stuck "context 0 does not map the firmware region, the window and the boot information block"
  else
    let cores := (setBitsOf 192 s.part.coreMask).filter fun c => dieUp s (dieOfCore c)
    .next (atStep 11 true (cores.foldl (fun u c => startCore entry bootInfo c u) t))

/-- The locks that BOOT_LOCKS names, in the order of R423. -/
def setBootLocks (s : State) : State :=
  let l := dv s K.bootLocks
  [4, 5, 6, 3, 2, 1].foldl (fun t g => if bit l (g - 1) then (scalarWrite 3 (K.lockState + g) 1 t).2 else t) s

/-- BOOT_DONE (R423): locks, PACKAGE_STATE and the event. -/
def execBootDone (s : State) : Answer :=
  if !stepReached s 11 then stuck "boot does not end now"
  else
    let t := setBootLocks (atStep 12 true s)
    let restricted := t.boot.judgedRestricted && !t.boot.overridden
    let u : State := { t with pkg := if restricted then .restricted else .ready
                              time := { t.time with bootFrozen := some (t.time.now - t.time.epoch) } }
    let v := raise 0x1 10 (pkgCode u.pkg) 0 u
    .next (if restricted then raise 0x3 10 (blockValue v K.mismatch) 0 v else v)

/-! ### While it runs (R14, R18) -/

/-- SETT_STALL (R14): a direction of a link has stalled: traffic has waited on it, and no code word has completed, for
SETT_STALL_NS since a time not later than now; rev: the direction that the link's second end drives.
[DEDUCED, unsafe: assumption 10] -/
def execSettStall (link : Nat) (rev : Bool) (since : Nat) (s : State) : Answer :=
  let d := 2 * link + (if rev then 1 else 0)
  let die := if rev then (linkEnds link).2 else (linkEnds link).1
  if 18 ≤ link || !alive s then stuck "no such link"
  else if bit s.settStalled d then .next s
  else
    let u := atLeast (min since s.time.now + dv s K.settStallNs) s
    let t := sumErr 0 { u with settStalled := setBit u.settStalled d }
    .next (raise 0x10 die (stallMap t) link t)

/-- BEAT_RATE_UPDATE (R18): 10,000 ns after the last time, the counters of the eleven dies, in 1 M beats/s. -/
def execBeatRateUpdate (rates : List Nat) (s : State) : Answer :=
  let u := atLeast (s.weigh.beatAt + 10000) s
  when_ (alive s) "the package does not run" ((List.range 11).foldl (fun t d =>
    match rates[d]? with
    | some r => setDv (K.beatRate + d) (r % 2 ^ 32) t
    | none => t) { u with weigh := { u.weigh with beatAt := u.time.now } })

end Sys2Proof.Machine
end

