-- ==== Sys2Proof/Machine/Coherence.lean ====
section
/-! DEFINITION. The commands of coherence and of the Medlar cores' buffers (R206, R208, R219–R228). -/

namespace Sys2Proof.Machine

/-- The core's reduce-write at the head has been sent and its home has not granted it. -/
def reduceOut (s : State) (core : Nat) : Bool :=
  s.reqs.cells.any fun c => c.2.src == .medlar core && !c.2.missed &&
    (match c.2.kind with | .reduce _ _ => true | _ => false) &&
    (match c.2.st with | .issued | .stale | .denied | .refaulted => true | _ => false) &&
    !(s.coh.txns.cells.any fun x => x.2.serves == .request c.1)

/-- STORE_BUFFER_DRAIN (R208, R274): the head is written into a line held in Dirty or Sole, asks for its line, or, a
reduce-write, is sent to its home. A store into the installed tables is refused. -/
def execStoreBufferDrain (core : Nat) (s : State) : Answer :=
  let m := medlarOf s core
  match m.sb with
  | [] => stuck "the store buffer is empty"
  | e :: _ =>
    match lineOf e.xl with
    | none => stuck "the store has no line"
    | some line =>
      match e.reduce with
      | some (op, w) =>
        if reduceOut s core then stuck "the reduce-write is on its way"
        else .next (issueReq (plainReq (.medlar core) (.reduce op w) e.xl e.va [oneLane (e.va % 128) e.n e.val]) s)
      | none =>
        match m.lines.find line with
        | some l =>
          if l.st == .dirty || l.st == .sole then
            .next (if intoTables s e.xl then refuseHead core .domainDenied (countDenied e.xl.ctx e.xl.domain (128 * line) s)
                   else writeHead core line s)
          else if lineAsked s core line then stuck "the line has been asked for"
          else .next (askLine core line .upgrade e.xl e.va true s)
        | none =>
          if lineAsked s core line then stuck "the line has been asked for"
          else .next (askLine core line .readOwn e.xl e.va true s)

/-- PREFETCH (R206, R271): the prefetcher asks for a Normal-cached line the core may read, in a segment of which the core
has accessed lines; anything else is dropped. [DESIGN CHOICE, safe: assumption 99] -/
def execPrefetch (core va : Nat) (s : State) : Answer :=
  let m := medlarOf s core
  if !m.running then stuck "the core is not running"
  else
    match translate s (bits m.ctx.toNat 0 12) va needR with
    | .fault _ => .next s
    | .ok x =>
      if !m.segs.contains (16 * x.ctx + x.seg) then stuck "no access to the segment triggers it"
      else match lineOf x, x.region with
        | some line, 0 => .next (if (m.lines.find line).isSome then s else askLine core line .readShared x va false s)
        | _, _ => .next s

def execReadShared (core line : Nat) (s : State) : Answer := coreRequest core line .readShared s
def execReadOwn (core line : Nat) (s : State) : Answer := coreRequest core line .readOwn s
def execUpgrade (core line : Nat) (s : State) : Answer := coreRequest core line .upgrade s

def isGrant (core line : Nat) : CohMsg → Bool
  | .grant c l _ _ _ => c == core && l == line
  | _ => false

/-- A core evicts a line it holds, no longer inside a hold window, and its home hears of it (R222, R225, R228). While an
Upgrade that the home has granted is on its way, the core keeps the line. [DEDUCED, unsafe: assumption 98] -/
def evictFrom (core line : Nat) (dirty : Bool) (s : State) : Answer :=
  match (medlarOf s core).lines.find line with
  | none => stuck "the core does not hold the line"
  | some l =>
    if (l.st == .dirty) != dirty then stuck "the line is in another state"
    else if s.coh.msgs.any (isGrant core line) then stuck "the line is being granted"
    else if heldUntil s core line > s.time.now then stuck "the hold window runs"
    else if !routeOpen s (dieOfCore core) (homeDie s line) then stuck "the eviction is held on a stalled link"
    else .next (evictNow core line s)

/-- WRITE_BACK (R222): the home receives dirty data from an evicting core. -/
def execWriteBack (core line : Nat) (s : State) : Answer := evictFrom core line true s

/-- CLEAN_EVICT (R222): the home records a core's eviction of a clean line. -/
def execCleanEvict (core line : Nat) (s : State) : Answer := evictFrom core line false s

/-- A snoop on its way to a core, and whether it has begun to wait there. -/
def isSnoop (core line : Nat) (k : SnoopKind) : CohMsg → Bool
  | .snoop c l k' _ => c == core && l == line && k' == k
  | _ => false

def waited : CohMsg → Bool
  | .snoop _ _ _ w => w
  | _ => false

/-- The core answers, and the answer travels home. -/
def sendAnswer (core line : Nat) (k : SnoopKind) (s : State) : State :=
  let r := answerSnoop core line k s
  setMsgs (r.2.coh.msgs ++ [.resp core line k r.1.1 r.1.2]) r.2

/-- A snoop reaches a core: answered at once, or, inside the hold window, counted and kept waiting (R222, R228). -/
def snoopArrives (core line : Nat) (k : SnoopKind) (s : State) : Answer :=
  match takeFirst (isSnoop core line k) s.coh.msgs with
  | none => stuck "no such snoop"
  | some (m, rest) =>
    if !routeOpen s (homeDie s line) (dieOfCore core) then stuck "the snoop is held on a stalled link"
    else if s.coh.msgs.any (isGrant core line) then stuck "the line has not arrived"
    else if heldUntil s core line > s.time.now then
      if waited m then stuck "the hold window runs"
      else .next (countDeferral core (setMsgs (rest ++ [.snoop core line k true]) s))
    else .next (sendAnswer core line k (setMsgs rest s))

def execSnpShared (core line : Nat) (s : State) : Answer := snoopArrives core line .shared s
def execSnpOwn (core line : Nat) (s : State) : Answer := snoopArrives core line .own s
def execSnpClean (core line : Nat) (s : State) : Answer := snoopArrives core line .clean s
def execSnpInval (core line : Nat) (s : State) : Answer := snoopArrives core line .inval s

def isResp (core line : Nat) : CohMsg → Bool
  | .resp c l _ _ _ => c == core && l == line
  | _ => false

/-- SNOOP_RESPONSE (R222): the home takes a snoop's answer; with the last one the transaction goes on. -/
def execSnoopResponse (core line : Nat) (s : State) : Answer :=
  if !routeOpen s (dieOfCore core) (homeDie s line) then stuck "the answer is held on a stalled link"
  else match takeFirst (isResp core line) s.coh.msgs with
  | some (.resp _ _ k d dirty, rest) => .next (hearResp core line k d dirty (setMsgs rest s))
  | _ => stuck "no such response"

/-- LINE_ARRIVAL (R203, R228): a granted line reaches its core, whose set has room for it once an eviction has made some. -/
def execLineArrival (core line : Nat) (s : State) : Answer :=
  if !routeOpen s (homeDie s line) (dieOfCore core) then stuck "the line is held on a stalled link"
  else if l2Full s core line then stuck "the line's set is full"
  else match takeFirst (isGrant core line) s.coh.msgs with
  | some (.grant _ _ st d p, rest) => .next (arrive core line st d p (setMsgs rest s))
  | _ => stuck "no line is on its way"

/-- A snoop that has begun to wait at a core for a line. -/
def isWaiting (core line : Nat) : CohMsg → Bool
  | .snoop c l _ w => w && c == core && l == line
  | _ => false

/-- HOLD_WINDOW_EXPIRY (R228): the window of a held line ends, and a snoop that waited is answered. -/
def execHoldWindowExpiry (core line : Nat) (s : State) : Answer :=
  if heldUntil s core line = 0 then stuck "no hold window"
  else
    let t := atLeast (heldUntil s core line) s
    match takeFirst (isWaiting core line) t.coh.msgs with
    | some (.snoop _ _ k _, rest) => .next (sendAnswer core line k (setMsgs rest t))
    | _ => .next t

end Sys2Proof.Machine
end

