-- ==== Sys2Proof/Machine/Hdp.lean ====
section
/-! DEFINITION. The Heniskard Dictionary Protocol: requests, kept replies, subscriptions and event messages (R398–R405). -/

namespace Sys2Proof.Machine

/-- Data is padded to a multiple of 8 bytes (R399). -/
def pad8 (b : List Byte) : List Byte := b ++ List.replicate (roundUp b.length 8 - b.length) 0#8

/-- Largest message on a path (R398). -/
def hdpLimit (p : HdpPath) : Nat := match p with
  | .mgmt _ _ => 1472
  | .conn _ => 4096

/-- The source a write on a path is attributed to (R410). -/
def hdpSource (p : HdpPath) : Nat := match p with
  | .mgmt _ _ => 1
  | .conn _ => 2

/-- An operation record of a request (Table 5). -/
structure HdpOp where
  op : Nat
  final : Bool
  index : Nat
  sub : Nat
  len : Nat
  off : Nat
  data : List Byte
deriving DecidableEq, Repr

def HdpOp.key (o : HdpOp) : Nat := 256 * o.index + o.sub

/-- Bytes of data an operation carries: the value, or for COMPARE_WRITE the expected value and the new one. -/
def opDataLen (op len : Nat) : Nat := if op = 1 then len else if op = 2 then 2 * len else 0

/-- The records of a message; none where one overruns it, bytes are left over, or a reserved field, an operation code or the
padding is not as Table 5 gives. [DEDUCED, unsafe: assumption 78] -/
def parseOps : Nat → List Byte → Option (List HdpOp)
  | 0, b => if b.isEmpty then some [] else none
  | n + 1, b =>
    let h := ofBytes (b.take 16)
    let o : HdpOp := { op := fld h 0 1, final := bit (fld h 1 1) 0, index := fld h 2 2, sub := fld h 4 1, len := fld h 6 2,
                       off := fld h 8 4, data := (b.drop 16).take (opDataLen (fld h 0 1) (fld h 6 2)) }
    let d := opDataLen o.op o.len
    let whole := 16 + roundUp d 8
    if b.length < whole ∨ 5 < o.op ∨ bits (fld h 1 1) 1 7 ≠ 0 ∨ fld h 5 1 ≠ 0 ∨ fld h 12 4 ≠ 0 ∨
        ofBytes ((b.drop (16 + d)).take (roundUp d 8 - d)) ≠ 0 then none
    else match parseOps n (b.drop whole) with
      | some os => some (o :: os)
      | none => none

/-- The checks of a whole request (R401): its operations, or the STATUS that answers it. The form of the header comes first,
then the version, on which COUNT depends. [DEDUCED, unsafe: assumption 78] -/
def checkRequest (s : State) (p : HdpPath) (msg : List Byte) : Except Nat (List HdpOp) :=
  let h := ofBytes (msg.take 16)
  let ver := fld h 2 1
  let n := fld h 8 2
  if msg.length < 16 ∨ hdpLimit p < msg.length ∨ fld h 0 2 ≠ 0x4448 ∨ fld h 3 1 ≠ 0 ∨ fld h 10 2 ≠ msg.length ∨
      fld h 12 4 ≠ 0 then .error 1
  else if ver < 1 ∨ 3 < ver ∨ !bit (dv s K.hdpVersionsEnabled) (ver - 1) then .error 2
  else if n < 1 ∨ (if ver = 1 then 1 else 32) < n then .error 1
  else match parseOps n (msg.drop 16) with
    | none => .error 1
    | some os => .ok os

/-- Operations of a version (Table 7). -/
def inVersion (ver op : Nat) : Bool :=
  if ver = 1 then op == 0 || op == 1 || op == 3 else if ver = 2 then op != 2 else true

/-- The current value of an entry, as bytes; none where no entry is served. -/
def valueBytes (s : State) (key : Nat) : Option (List Byte) :=
  if served s key && (entryOf key).isSome then
    some (if isBlob key then readBlob s key else toBytes (sizeOf key) (readScalar s key))
  else none

/-- The bytes a READ returns; none where its LENGTH, OFFSET or FINAL is wrong (R400). [DEDUCED, unsafe: assumption 78] -/
def readData (o : HdpOp) (v : List Byte) : Option (List Byte) :=
  if o.final || (o.off != 0 && !isBlob o.key) || decide (v.length < o.off) then none
  else
    let rest := v.drop o.off
    some (if o.len = 0 then rest else rest.take o.len)

/-- DESCRIBE: access code, lock group, size (Table 5). -/
def describe (key : Nat) : List Byte :=
  match entryOf key with
  | some r => toBytes 1 r.acc ++ toBytes 1 (if r.lock = 0 then 0xFF else r.lock) ++ toBytes 2 r.size ++ toBytes 4 0
  | none => toBytes 8 0

def typeCode (key : Nat) : Nat := match entryOf key with
  | some r => r.ty
  | none => 0xFF

/-- A reply record (Table 5). -/
def replyRecord (ver : Nat) (o : HdpOp) (result ty total : Nat) (data : List Byte) (s : State) : List Byte :=
  toBytes 1 o.op ++ toBytes 1 result ++ toBytes 2 o.index ++ toBytes 1 o.sub ++ toBytes 1 ty ++ toBytes 2 data.length ++
  toBytes 4 total ++ toBytes 4 (if ver = 3 then dv s K.dictWriteSeq else 0) ++ pad8 data

/-- SUBSCRIBE and UNSUBSCRIBE (R404). -/
def subscribe (p : HdpPath) (ver : Nat) (o : HdpOp) (s : State) : WriteResult :=
  let subs := s.hdp.subs
  let put (l : List Subscriber) : State := { s with hdp := { s.hdp with subs := l } }
  let mine := subs.any fun u => u.path == p
  if o.key ≠ 0 then (3, s)
  else if o.op = 5 then (0, put (subs.filter fun u => u.path != p))
  else if mine then (0, put (subs.map fun u => if u.path = p then { u with version := ver } else u))
  else if subs.length ≥ 4 then (7, s)
  else (0, put (subs ++ [{ path := p, version := ver, waiting := [], lastSent := none }]))

/-- A WRITE to a STR or BLOB entry: up to 1,024 bytes are staged, and with FINAL the value is committed (R402). -/
def segmentWrite (src : Nat) (o : HdpOp) (s : State) : WriteResult :=
  if 1024 < o.len ∨ 4096 < o.off + o.len then commit src o.key (fun t => (5, t)) s
  else
    let t := stage o.key o.off o.data s
    if o.final then blobWrite src o.key ((stagedBytes t o.key).take (o.off + o.len)) t else (0, t)

/-- WRITE and COMPARE_WRITE to an entry whose value is v (R402). [DEDUCED, unsafe: assumption 78] -/
def writeOp (src : Nat) (o : HdpOp) (v : List Byte) (s : State) : WriteResult :=
  if o.op = 1 && isBlob o.key then segmentWrite src o s
  else if isBlob o.key || o.off != 0 || o.final || o.len != sizeOf o.key then commit src o.key (fun t => (5, t)) s
  else if o.op = 2 && o.data.take o.len != v then (6, s)
  else scalarWrite src o.key (ofBytes (o.data.drop (if o.op = 2 then o.len else 0))) s

/-- One operation: its reply record, and the state after it. [DEDUCED, unsafe: assumption 78] -/
def runOp (p : HdpPath) (ver : Nat) (o : HdpOp) (s : State) : List Byte × State :=
  if o.op = 4 ∨ o.op = 5 then
    if !inVersion ver o.op then (replyRecord ver o 8 0 0 [] s, s)
    else
      let r := subscribe p ver o s
      (replyRecord ver o r.1 0 0 [] r.2, r.2)
  else
    match valueBytes s o.key with
    | none =>
      let t := if inVersion ver o.op && (o.op == 1 || o.op == 2) then refuseWrite (hdpSource p) o.key 4 s else s
      (replyRecord ver o (if inVersion ver o.op then 4 else 8) 0xFF 0 [] t, t)
    | some v =>
      let ty := typeCode o.key
      if !inVersion ver o.op then (replyRecord ver o 8 ty v.length [] s, s)
      else if o.op = 0 then
        match readData o v with
        | some d => (replyRecord ver o 0 ty v.length d s, s)
        | none => (replyRecord ver o 5 ty v.length [] s, s)
      else if o.op = 3 then (replyRecord ver o 0 ty v.length (describe o.key) s, s)
      else
        let r := writeOp (hdpSource p) o v s
        (replyRecord ver o r.1 ty ((valueBytes r.2 o.key).getD []).length [] r.2, r.2)

def runOps (p : HdpPath) (ver : Nat) : List HdpOp → State → List Byte × State
  | [], s => ([], s)
  | o :: os, s =>
    let a := runOp p ver o s
    let b := runOps p ver os a.2
    (a.1 ++ b.1, b.2)

/-- Bytes of data the reply to an operation returns, with the values as they stand at the grant (R401). -/
def replyData (s : State) (ver : Nat) (o : HdpOp) : Nat :=
  if !inVersion ver o.op then 0
  else match valueBytes s o.key with
    | none => 0
    | some v => if o.op = 3 then 8 else if o.op = 0 then roundUp ((readData o v).getD []).length 8 else 0

def replyHeader (ver seq count len status : Nat) : List Byte :=
  toBytes 2 0x4448 ++ toBytes 1 ver ++ toBytes 1 1 ++ toBytes 4 seq ++ toBytes 2 count ++ toBytes 2 len ++ toBytes 1 status ++
  toBytes 3 0

/-- The highest enabled version, in which a request that is turned away is answered (R401). -/
def topVersion (s : State) : Nat :=
  let e := dv s K.hdpVersionsEnabled
  if bit e 2 then 3 else if bit e 1 then 2 else 1

/-- The reply to a request, and the state after its operations (R401). -/
def answerRequest (p : HdpPath) (msg : List Byte) (s : State) : List Byte × State :=
  let h := ofBytes (msg.take 16)
  let seq := fld h 4 4
  let ver := fld h 2 1
  let turnedAway (st : Nat) : List Byte × State :=
    (replyHeader (topVersion s) seq 0 16 st, s |> bump K.hdpMalformed 1 |> sumErr 13)
  match checkRequest s p msg with
  | .error st => turnedAway st
  | .ok os =>
    if hdpLimit p < 16 + os.foldl (fun a o => a + 16 + replyData s ver o) 0 then turnedAway 3
    else
      let r := runOps p ver os s
      (replyHeader ver seq os.length (16 + r.1.length) 0 ++ r.1, r.2)

/-- A source's request and reply are kept; of 17 sources the least recently used leaves (R405).
[DEDUCED, unsafe: assumption 78] -/
def keepReply (k : Kept) (s : State) : State :=
  let rest := s.hdp.kept.filter fun x => x.path != k.path
  { s with hdp := { s.hdp with kept := (if rest.length ≥ 16 then rest.drop (rest.length - 15) else rest) ++ [k] } }

/-- The engine serves a request; one whose source and SEQ are kept is answered again and not performed (R405). -/
def serveHdp (p : HdpPath) (msg : List Byte) (s : State) : State :=
  let seq := fld (ofBytes (msg.take 16)) 4 4
  let done (r : List Byte) (t : State) : State :=
    send (.hdpReply p r) (keepReply { path := p, seq := seq, reply := r } (bump K.hdpRequests 1 t))
  match s.hdp.kept.find? fun k => k.path == p && k.seq == seq with
  | some k => done k.reply (bump K.hdpDuplicates 1 s)
  | none =>
    let r := answerRequest p msg s
    done r.1 r.2

/-- HDP_REQUEST (R401): over the management port while it has link, or in-band on a connection whose HDP_IN flag is set. A
front-end's send of 16 bytes is a doorbell; one that is no doorbell, and longer than 4,096 bytes or on a connection without
the flag, is discarded (R469). -/
def execHdpRequest (path : HdpPath) (msg : List Byte) (s : State) : Answer :=
  outside s (match path with
    | .mgmt _ _ => if s.mgmt.link = 0 then s else serveHdp path msg s
    | .conn c =>
      let k := connOf s c
      let ready := connMode k == 2 && k.st == 1
      let t := if ready then send (.roceAck c) s else s
      if ready && msg.length == 16 then takeDoorbell c (ofBytes msg) t
      else if k.st = 1 && connFlag k 0 && decide (msg.length ≤ 4096) then serveHdp path msg t
      else refuseMessage c t)

/-- EVENT_SEND (R404): a subscriber's waiting records leave in one message, 10,000 ns or more after its last. -/
def execEventSend (sub : Nat) (s : State) : Answer :=
  match s.hdp.subs[sub]? with
  | none => stuck "no such subscriber"
  | some u =>
    if !alive s || u.waiting.isEmpty then stuck "no event waits for the subscriber"
    else
      let t := match u.lastSent with
        | some at_ => atLeast (at_ + 10000) s
        | none => s
      let v : State := { t with hdp := { t.hdp with
        subs := t.hdp.subs.set sub { u with waiting := u.waiting.drop 32, lastSent := some t.time.now } } }
      .next (send (.hdpEvents u.path u.version (u.waiting.take 32)) v)

end Sys2Proof.Machine
end

