-- ==== Sys2Proof/Machine/Mgmt.lean ====
section
/-! DEFINITION. The management port: its settings, its link, and what it answers besides HDP (R393). -/

namespace Sys2Proof.Machine

/-- The speed that a mode lets the port try first: 0 10GBASE-R, 1 1000BASE-X. -/
def firstTry (mode : Nat) : Nat := if mode = 1 then 1 else 0

/-- MGMT_LINK of a speed that is tried. -/
def linkCode (trying : Nat) : Nat := if trying = 1 then 1 else 2

/-- A mode takes effect: a link that it does not allow is lost. [PRESUMED, unsafe: assumption 77] -/
def setMode (mode now : Nat) (m : Mgmt) : Mgmt :=
  if m.link ≠ 0 ∧ (mode = 2 ∨ m.trying = firstTry mode) then { m with mode := mode }
  else { m with mode := mode, link := 0, trying := firstTry mode, since := now }

/-- A setting takes effect. -/
def applySetting (key v now : Nat) (m : Mgmt) : Mgmt :=
  if key = K.mgmtMode then setMode v now m
  else if key = K.mgmtIp then { m with ip := toBytes 16 v }
  else if key = K.mgmtPrefix then { m with prefixLen := v }
  else if key = K.mgmtGateway then { m with gateway := toBytes 16 v }
  else { m with vlan := v }

/-- MGMT_SETTINGS_APPLY (R393): 1,000,000 ns after its write, a setting takes effect. -/
def execMgmtSettingsApply (s : State) : Answer :=
  match s.mgmt.waiting with
  | [] => stuck "no setting waits"
  | (t, key, v) :: rest =>
    if !alive s then stuck "the package does not run"
    else
      let u := atLeast t s
      .next { u with mgmt := { applySetting key v u.time.now u.mgmt with waiting := rest } }

/-- MGMT_MODE_FALLBACK (R393): under MGMT_MODE 2, 500,000,000 ns without 10GBASE-R. -/
def execMgmtModeFallback (s : State) : Answer :=
  if !alive s || s.mgmt.mode != 2 || s.mgmt.link != 0 || s.mgmt.trying != 0 then stuck "the port does not try 10GBASE-R"
  else
    let t := atLeast (s.mgmt.since + 500000000) s
    .next { t with mgmt := { t.mgmt with trying := 1, since := t.time.now } }

/-- MGMT_LINK_UP (R393): the partner gives link at the speed the port tries; without its clock there is none (R458). -/
def execMgmtLinkUp (speed : Nat) (s : State) : Answer :=
  outside s (if speed = linkCode s.mgmt.trying ∧ !bit s.board.clocksAbsent 14 then
    { s with mgmt := { s.mgmt with link := speed } } else s)

/-- MGMT_LINK_DOWN (R393): link is lost, and the port tries again. -/
def execMgmtLinkDown (s : State) : Answer :=
  outside s (if s.mgmt.link = 0 then s
    else { s with mgmt := { s.mgmt with link := 0, trying := firstTry s.mgmt.mode, since := s.time.now } })

/-- The address the port answers at: MGMT_IP, or the IPv6 link-local address formed from MGMT_MAC by the modified EUI-64
method (R393). The first octet of the MAC address stands in bits [47:40]. [PRESUMED, unsafe: assumption 77] -/
def portAddress (s : State) : List Byte :=
  if s.mgmt.ip.any (· != 0#8) then s.mgmt.ip
  else
    let o (i : Nat) : Byte := BitVec.ofNat 8 (bits s.part.mgmtMac (40 - 8 * i) 8)
    [0xFE#8, 0x80#8, 0#8, 0#8, 0#8, 0#8, 0#8, 0#8, o 0 ^^^ 2#8, o 1, o 2, 0xFF#8, 0xFE#8, o 3, o 4, o 5]

/-- A message for the port's own address; ip: the 16 bytes of the address asked for, as MGMT_IP holds them. -/
def atAddress (s : State) (ip : Nat) : Bool := s.mgmt.link != 0 && toBytes 16 ip == portAddress s

/-- ARP_REQUEST (R393): answered at an IPv4 address. -/
def execArpRequest (ip : Nat) (s : State) : Answer :=
  outside s (if atAddress s ip && isIpv4 (portAddress s) then send (.arpReply ip) s else s)

/-- NEIGHBOUR_DISCOVERY (R393): answered at an IPv6 address. -/
def execNeighbourDiscovery (ip : Nat) (s : State) : Answer :=
  outside s (if atAddress s ip && !isIpv4 (portAddress s) then send (.ndReply ip) s else s)

/-- ICMP_ECHO (R393). -/
def execIcmpEcho (ip tag : Nat) (s : State) : Answer :=
  outside s (if atAddress s ip then send (.echoReply ip tag) s else s)

end Sys2Proof.Machine
end

