-- ==== Sys2Proof/Machine/Ptp.lean ====
section
/-! DEFINITION. The IEEE 1588 slave clock and the time of day (R441–R444). -/

namespace Sys2Proof.Machine

/-- The clock runs, and hears its domain over the port that PTP_SOURCE selects (R442). [DEDUCED, unsafe: assumption 76] -/
def ptpHears (s : State) (m : PtpMsg) : Bool :=
  m.domain == dv s K.ptpDomain &&
  (match dv s K.ptpSource with
   | 1 => s.mgmt.link != 0
   | 2 => portUp s (dv s K.ptpPort)
   | _ => false)

/-- The origin time of a Sync is known: the delay is asked for. -/
def syncKnown (origin : Nat) (s : State) : State :=
  send (.ptpDelayReq (timeOfDay s)) { s with time := { s.time with syncOrigin := some origin, awaitFollowUp := false } }

/-- PTP_SYNC (R442): a Sync is timestamped. A clock in HOLDOVER acquires again. -/
def execPtpSync (m : PtpMsg) (s : State) : Answer :=
  outside s (if !ptpHears s m then s
    else
      let back := s.time.ptpState != 1 && s.time.ptpState != 2
      let t : State := { s with time := { s.time with
        syncOrigin := none, syncLocal := m.local_, awaitFollowUp := m.twoStep, lastSync := s.time.now, gmId := m.gmId % 2 ^ 64
        ptpState := if back then 1 else s.time.ptpState
        good := if back then 0 else s.time.good } }
      if m.twoStep then t else syncKnown m.origin t)

/-- PTP_FOLLOW_UP (R442): the origin time of a two-step master's Sync. -/
def execPtpFollowUp (m : PtpMsg) (s : State) : Answer :=
  outside s (if ptpHears s m && s.time.awaitFollowUp then syncKnown m.origin s else s)

/-- The measured offset, in the direction in which it is applied: how far the master's time lies ahead (R443). A half
nanosecond goes either way. [DEDUCED, unsafe: assumption 76] -/
def measured (t1 t2 t3 t4 : Nat) : Int :=
  let x : Int := ((t4 : Int) - (t3 : Int)) - ((t2 : Int) - (t1 : Int))
  x / 2 + (if x % 2 = 1 ∧ Config.unitBegun x.natAbs 2 % 2 = 1 then 1 else 0)

/-- The time of day stands where the slew so far has brought it. -/
def holdSlew (t : TimeS) : TimeS := { t with offset := t.offset + slewDone t, slewAt := t.now, slewBy := 0, slewPpm := 0 }

/-- Every copy of the time of day is stepped (R443). -/
def stepTime (o : Int) (s : State) : State :=
  let h := holdSlew s.time
  { s with time := { h with offset := h.offset + o } } |> sumErr 16 |> bump K.timeSteps 1 |> raise 0x90 10 (unsigned 64 o) 0

/-- A smaller offset is removed by slewing, at a rate of 1 to 500 parts per million that is not known (R443).
[DEDUCED, unsafe: assumption 76] -/
def slewTime (o : Int) (s : State) : State :=
  let r := takeFree s
  let h := holdSlew r.2.time
  { r.2 with time := { h with slewBy := o, slewPpm := r.1 % 500 + 1 } }

/-- An offset is judged: ten in a row within 100 ns lock an acquiring clock (R443). -/
def judgeOffset (o : Int) (s : State) : State :=
  let good := if o.natAbs ≤ 100 then s.time.good + 1 else 0
  let t : State := { s with time := { s.time with ptpOffset := o, good := good } }
  let u := if o.natAbs > dv s K.ptpStepNs then stepTime o t else slewTime o t
  if u.time.ptpState = 1 ∧ 10 ≤ good then
    raise 0x91 10 u.time.gmId 0 { u with time := { u.time with ptpState := 2 } }
  else u

/-- PTP_DELAY_RESP (R443): with the Sync it follows it gives an offset. -/
def execPtpDelayResp (m : PtpMsg) (s : State) : Answer :=
  outside s (match s.time.syncOrigin with
    | some t1 =>
      if ptpHears s m then
        judgeOffset (measured t1 s.time.syncLocal m.local_ m.origin) { s with time := { s.time with syncOrigin := none } }
      else s
    | none => s)

/-- PTP_SYNC_TIMEOUT (R443): 4,000,000,000 ns without a Sync. -/
def execPtpSyncTimeout (s : State) : Answer :=
  if !alive s || (s.time.ptpState != 1 && s.time.ptpState != 2) then stuck "no clock waits for a Sync"
  else
    let t := atLeast (s.time.lastSync + 4000000000) s
    .next (raise 0x92 10 0 0 { t with time := { t.time with ptpState := 3, good := 0, syncOrigin := none, awaitFollowUp := false } })

end Sys2Proof.Machine
end

