-- ==== Sys2Proof/Machine/UrtexAlu.lean ====
section
/-! DEFINITION. The register instructions of Urtex: INT, INTI, MOVE, PRED, FP and FCVT (R173–R179). -/

namespace Sys2Proof.Machine

/-- A register instruction: its legality and operand files by profile (true: group), what it does to a Medlar core's and
to a group's registers, and the vector issue beats it takes on a group. -/
def alu (row : Row) (who : Agent) (w : Nat) (f : RFields) (ok : Bool → Bool) (k : Bool → OpKs) (beats : Nat)
    (med : Medlar → State → Medlar × State) (grp : Arch → State → Arch × State) (s : State) : Answer :=
  match who with
  | .medlar c =>
    issueMedlar row c w (fun m t =>
      withRegs false 0 (ok false) (k false) f.d f.a f.b f.c (medlarCtx m) t
        (let r := med m t; medlarNext c w r.1 r.2)) s
  | .group g =>
    issueGroup row g w (usedRegs (k true) f.d f.a f.b f.c f.pe f.preg) beats (fun x t =>
      withRegs true (regsCount (launchRaw t (launchKey g))) (ok true) (k true) f.d f.a f.b f.c
        (launchCtx t (launchKey g)) t
        (let r := grp x.arch t; groupNext g w x r.1 r.2)) s

/-- The fields that no register operation of this kind uses are zero (R174). -/
def plainFields (f : RFields) : Bool := f.resv == 0 && f.fmt == 0 && (!f.long || f.rm == 0)

/-- The file of an element operand: the scalar file, or the vector file with pairs for 64 bits per lane (R173). -/
def elK (f : RFields) (grp : Bool) (w : Nat) : OpK := if f.s then .sc else if grp && w == 64 then .pair else .vec

/-! ### INT -/

def intFieldsOk (f : RFields) (grp : Bool) : Bool :=
  plainFields f && decide (f.op ≤ 22) && (if f.s || grp then f.aux == 2 || f.aux == 3 else decide (f.aux ≤ 3)) &&
  predOk grp (!f.s) f.pe f.pn f.preg

def intKinds (f : RFields) (grp : Bool) : OpKs :=
  let k := elK f grp (8 * 2 ^ f.aux)
  { d := k, a := k, b := if f.op ≥ 21 then .unused else k, c := .unused }

/-- One operation in every element of a Medlar register, or in the scalar one. -/
def medlarMap2 (f : RFields) (w : Nat) (o : Nat → Nat → Nat) (m : Medlar) : Medlar :=
  if f.s then setG f.d (toScalar w (o (gReg m f.a) (gReg m f.b))) m
  else setMv f.d w (fun i => o (mvEl m w f.a i) (mvEl m w f.b i)) m

/-- One operation in every executing lane, or on the scalar registers. -/
def groupMap2 (f : RFields) (w : Nat) (o : Nat → Nat → Nat) (a : Arch) : Arch :=
  if f.s then setS f.d (toScalar w (o (sReg a f.a) (sReg a f.b))) a
  else setVOperand w f.d (execMask a f.pe f.pn f.preg) (fun i => o (vOperand a w f.a i) (vOperand a w f.b i)) a

/-- INT (R176, R177). -/
def execInt (who : Agent) (w : Nat) (s : State) : Answer :=
  let f := rFields w
  let n := 8 * 2 ^ f.aux
  alu .int who w f (intFieldsOk f) (intKinds f) (if f.s then 0 else 1)
    (fun m t => (medlarMap2 f n (intOp f.op n) m, t)) (fun a t => (groupMap2 f n (intOp f.op n) a, t)) s

/-! ### INTI -/

/-- The element width INTI acts on: 64 bits in scalar and Medlar vector registers, 32 in a group's lanes (R176). -/
def intiWidth (f : RFields) (grp : Bool) : Nat := if !f.s && grp then 32 else 64

def intiKinds (f : RFields) : OpKs :=
  let k : OpK := if f.s then .sc else .vec
  { d := k, a := k, b := .unused, c := .unused }

/-- INTI (R176). -/
def execInti (who : Agent) (w : Nat) (s : State) : Answer :=
  let f := iFields w
  let o (n x : Nat) : Nat := intOp (intiOp (f.op % 8)) n x f.imm
  alu .inti who w f (fun grp => predOk grp (!f.s) f.pe f.pn f.preg) (fun _ => intiKinds f) (if f.s then 0 else 1)
    (fun m t => (medlarMap2 f 64 (fun x _ => o 64 x) m, t))
    (fun a t => (groupMap2 f (intiWidth f true) (fun x _ => o (intiWidth f true) x) a, t)) s

/-! ### MOVE -/

def moveKinds (f : RFields) : OpKs :=
  let v : OpK := if f.s then .sc else .vec
  match f.op with
  | 0 => { d := v, a := v, b := .unused, c := .unused }
  | 1 => { d := .vec, a := .sc, b := .unused, c := .unused }
  | 2 => { d := .sc, a := .vec, b := .sc, c := .unused }
  | 3 => { d := .vec, a := .sc, b := .sc, c := .unused }
  | 4 => { d := .vec, a := .vec, b := .vec, c := .unused }
  | 5 => { d := .sc, a := .unused, b := .unused, c := .unused }
  | 6 => { d := .sc, a := .pred, b := .unused, c := .unused }
  | 7 => { d := .sc, a := .pred, b := .unused, c := .unused }
  | _ => { d := .pred, a := .sc, b := .unused, c := .unused }

/-- MOVE writes lanes: MOV of vectors, BCAST, INSERT and SHFL. -/
def moveIsVector (f : RFields) : Bool := (f.op == 0 && !f.s) || f.op == 1 || f.op == 3 || f.op == 4

def moveFieldsOk (f : RFields) (grp : Bool) : Bool :=
  plainFields f && f.aux == 0 && decide (f.op ≤ 8) && (grp || decide (f.op ≤ 4)) && (f.op == 0 || !f.s) &&
  predOk grp (moveIsVector f) f.pe f.pn f.preg

/-- LI and LIH: D's file is open (R176). [DESIGN CHOICE, safe: assumption 19] -/
def liKinds (f : RFields) (grp : Bool) : OpKs :=
  { d := if !(Config.liVector || f.pe) then .sc else if grp && f.op == 1 then .pair else .vec
    a := .unused, b := .unused, c := .unused }

def liFieldsOk (f : RFields) (grp : Bool) : Bool := decide (f.op ≤ 1) && predOk grp (Config.liVector || f.pe) f.pe f.pn f.preg

/-- Whether the fields and register fields of a form are legal on this profile. -/
def formLegal (ok : Bool) (grp : Bool) (k : OpKs) (f : RFields) : Bool :=
  ok && fieldOk grp k.d f.d && fieldOk grp k.a f.a && fieldOk grp k.b f.b && fieldOk grp k.c f.c

/-- A MOVE word is the immediate form: the only legal one of the two, or the open choice where both are. -/
def moveIsLi (w : Nat) (grp : Bool) : Bool :=
  bit w 0 &&
  (let r := formLegal (moveFieldsOk (rFields w) grp) grp (moveKinds (rFields w)) (rFields w)
   let i := formLegal (liFieldsOk (iFields w) grp) grp (liKinds (iFields w) grp) (iFields w)
   if r && i then Config.moveImmediate w else i)

/-- A register beyond the last lane or element is asked for: the value, or the place, is open.
[DEDUCED, unsafe: assumption 94] -/
def moveMedlar (f : RFields) (m : Medlar) (s : State) : Medlar × State :=
  let n := gReg m f.b
  match f.op with
  | 0 => (if f.s then setG f.d (gReg m f.a) m else setMv f.d 64 (mvEl m 64 f.a) m, s)
  | 1 => (setMv f.d 64 (fun _ => gReg m f.a) m, s)
  | 2 => if n < 8 then (setG f.d (mvEl m 64 f.a n) m, s) else let v := takeFree s; (setG f.d v.1 m, v.2)
  | 3 =>
    let put (k : Nat) : Medlar := setMv f.d 64 (fun i => if i = k then gReg m f.a else mvEl m 64 f.d i) m
    if n < 8 then (put n, s) else let v := takeFree s; (put (v.1 % 9), v.2)
  | _ => (setMv f.d 64 (fun i => mvEl m 64 f.a (mvEl m 64 f.b i % 8)) m, s)

def moveGroup (f : RFields) (a : Arch) (s : State) : Arch × State :=
  let n := sReg a f.b
  let x := execMask a f.pe f.pn f.preg
  match f.op with
  | 0 => (if f.s then setS f.d (sReg a f.a) a else setV f.d x (vLane a f.a) a, s)
  | 1 => (setV f.d x (fun _ => sReg a f.a) a, s)
  | 2 => if n < 32 then (setS f.d (sext 32 64 (vLane a f.a n)) a, s) else let v := takeFree s; (setS f.d v.1 a, v.2)
  | 3 =>
    let put (k : Nat) : Arch := setV f.d (x &&& 2 ^ k) (fun _ => sReg a f.a) a
    if n < 32 then (put n, s) else let v := takeFree s; (put (v.1 % 33), v.2)
  | 4 => (setV f.d x (fun i => vLane a f.a (vLane a f.b i % 32)) a, s)
  | 5 => (setS f.d a.mask.toNat a, s)
  | 6 => (setS f.d (pReg a f.a &&& a.mask.toNat) a, s)
  | 7 => (setS f.d (pReg a f.a) a, s)
  | _ => ({ a with p := a.p.set 0#32 f.d (BitVec.ofNat 32 (sReg a f.a)) }, s)

def liMedlar (f : RFields) (m : Medlar) : Medlar :=
  let v := Config.liVector
  if f.op = 0 then (if v then setMv f.d 64 (fun _ => f.imm) m else setG f.d f.imm m)
  else
    let hi (x : Nat) : Nat := x % 2 ^ 32 + f.imm % 2 ^ 32 * 2 ^ 32
    if v then setMv f.d 64 (fun i => hi (mvEl m 64 f.d i)) m else setG f.d (hi (gReg m f.d)) m

def liGroup (f : RFields) (a : Arch) : Arch :=
  let v := Config.liVector || f.pe
  let x := execMask a f.pe f.pn f.preg
  if f.op = 0 then (if v then setV f.d x (fun _ => f.imm) a else setS f.d f.imm a)
  else if v then setV (f.d + 1) x (fun _ => f.imm) a
  else setS f.d (sReg a f.d % 2 ^ 32 + f.imm % 2 ^ 32 * 2 ^ 32) a

/-- MOVE (R176). -/
def execMove (who : Agent) (w : Nat) (s : State) : Answer :=
  let grp : Bool := match who with | .group _ => true | .medlar _ => false
  if moveIsLi w grp then
    let f := iFields w
    alu .move who w f (liFieldsOk f) (liKinds f) (if Config.liVector || f.pe then 1 else 0)
      (fun m t => (liMedlar f m, t)) (fun a t => (liGroup f a, t)) s
  else
    let f := rFields w
    alu .move who w f (moveFieldsOk f) (fun _ => moveKinds f) (if moveIsVector f then 1 else 0) (moveMedlar f) (moveGroup f) s

/-! ### PRED -/

def predKinds (f : RFields) : OpKs :=
  let v : OpK := if 6 ≤ f.op && f.op ≤ 9 && f.aux == 0 then .pair else .vec
  if f.op ≤ 9 then { d := .pred, a := v, b := v, c := .unused }
  else { d := .pred, a := .pred, b := if f.op = 13 then .unused else .pred, c := .unused }

def predFieldsOk (f : RFields) (grp : Bool) : Bool :=
  grp && plainFields f && !f.s && decide (f.op ≤ 13) && (if 6 ≤ f.op ∧ f.op ≤ 9 then decide (f.aux ≤ 1) else f.aux == 0) &&
  predOk grp true f.pe f.pn f.preg

/-- FEQ, FLT, FLE and FUNORD, as PRED numbers them from 6. -/
def predCompare (f : RFields) (x y : Nat) : Bool × Nat := ieeeCompare (fpShape f.aux) (f.op - 6) x y

def predGroup (f : RFields) (a : Arch) : Arch :=
  let x := execMask a f.pe f.pn f.preg
  let w := fpBits f.aux
  if f.op ≤ 5 then setP f.d x (fun i => condHolds f.op 32 (vLane a f.a i) (vLane a f.b i)) a
  else if f.op ≤ 9 then
    let r (i : Nat) : Bool × Nat := predCompare f (vOperand a w f.a i) (vOperand a w f.b i)
    { setP f.d x (fun i => (r i).1) a with fpflags := stick a.fpflags (anyFlags (bit x) (fun i => (r i).2) 32) }
  else
    let p (i : Nat) : Bool := bit (pReg a f.a) i
    let q (i : Nat) : Bool := bit (pReg a f.b) i
    setP f.d x (fun i =>
      if f.op = 10 then p i && q i else if f.op = 11 then p i || q i else if f.op = 12 then p i != q i else !p i) a

/-- PRED (R176): bits of lanes that do not execute are unchanged. -/
def execPred (who : Agent) (w : Nat) (s : State) : Answer :=
  let f := rFields w
  alu .pred who w f (predFieldsOk f) (fun _ => predKinds f) (if 6 ≤ f.op && f.op ≤ 9 && f.aux == 0 then 2 else 1)
    (fun m t => (m, t)) (fun a t => (predGroup f a, t)) s

/-! ### FP -/

/-- RM of a long form: 0–4 or dynamic. -/
def rmOk (f : RFields) : Bool := decide (f.rm ≤ 4) || f.rm == 7

/-- The FP operations of one operand (R176). [DEDUCED, unsafe: assumption 94] -/
def fpUnary (op : Nat) : Bool := op == 4 || op == 12 || op == 13 || op == 14

def fpKinds (f : RFields) (grp : Bool) : OpKs :=
  let k := elK f grp (fpBits f.aux)
  { d := k, a := k, b := if fpUnary f.op then .unused else k, c := if f.op = 7 ∨ f.op = 8 then k else .unused }

/-- FMIN, FMAX, the compares, FABS, FNEG and FCLASS round nothing, so that RM is reserved in them (R174). -/
def fpRounds (op : Nat) : Bool := decide (op ≤ 4) || op == 7 || op == 8

def fpFieldsOk (f : RFields) (grp : Bool) : Bool :=
  f.resv == 0 && f.fmt == 0 && (if fpRounds f.op then rmOk f else !f.long || f.rm == 0) && decide (f.op ≤ 14) && decide (f.aux ≤ 1) &&
  (!(f.op == 7 || f.op == 8) || f.long) && predOk grp (!f.s) f.pe f.pn f.preg

def fpMedlar (f : RFields) (m : Medlar) : Medlar :=
  let w := fpBits f.aux
  let rnd := roundDir f.rm m.fpctl.toNat
  if f.s then
    let r := fpOp f.op f.aux rnd (gReg m f.a % 2 ^ w) (gReg m f.b % 2 ^ w) (gReg m f.c % 2 ^ w)
    { setG f.d (toScalar w r.1) m with fpflags := stick m.fpflags r.2 }
  else
    let r (i : Nat) : Nat × Nat := fpOp f.op f.aux rnd (mvEl m w f.a i) (mvEl m w f.b i) (mvEl m w f.c i)
    { setMv f.d w (fun i => (r i).1) m with
      fpflags := stick m.fpflags (anyFlags (fun _ => true) (fun i => (r i).2) (512 / w)) }

def fpGroup (f : RFields) (a : Arch) : Arch :=
  let w := fpBits f.aux
  let rnd := roundDir f.rm a.fpctl.toNat
  if f.s then
    let r := fpOp f.op f.aux rnd (sReg a f.a % 2 ^ w) (sReg a f.b % 2 ^ w) (sReg a f.c % 2 ^ w)
    { setS f.d (toScalar w r.1) a with fpflags := stick a.fpflags r.2 }
  else
    let x := execMask a f.pe f.pn f.preg
    let r (i : Nat) : Nat × Nat := fpOp f.op f.aux rnd (vOperand a w f.a i) (vOperand a w f.b i) (vOperand a w f.c i)
    { setVOperand w f.d x (fun i => (r i).1) a with
      fpflags := stick a.fpflags (anyFlags (bit x) (fun i => (r i).2) 32) }

/-- FP (R176, R178): the operation in each element, the flags of every executing one. An FP64 vector operation takes two
issue beats (R134). -/
def execFp (who : Agent) (w : Nat) (s : State) : Answer :=
  let f := rFields w
  alu .fp who w f (fpFieldsOk f) (fpKinds f) (if f.s then 0 else if f.aux = 0 then 2 else 1)
    (fun m t => (fpMedlar f m, t)) (fun a t => (fpGroup f a, t)) s

/-! ### FCVT -/

def fcvtKinds (f : RFields) (grp : Bool) : OpKs :=
  { d := elK f grp (cvtDstBits f.op f.fmt f.aux), a := elK f grp (cvtSrcBits f.op f.fmt f.aux), b := .unused, c := .unused }

def fcvtFieldsOk (f : RFields) (grp : Bool) : Bool :=
  f.long && f.resv == 0 && rmOk f && decide (f.op ≤ 4) && decide (f.fmt ≤ 3) &&
  (if f.op = 0 then decide (f.aux ≤ 3) else f.aux == 2 || f.aux == 3) && predOk grp (!f.s) f.pe f.pn f.preg

/-- A converted element in a wider register: 32-bit results sign-extend in a 64-bit register; the bits above a 16-bit
result are open. [DEDUCED, unsafe: assumption 94] -/
def widenCvt (wd reg x free : Nat) : Nat :=
  if wd = reg then x else if wd = 32 then sext 32 64 x else x + free % 2 ^ (reg - 16) * 2 ^ 16

/-- FCVT of a Medlar core: a scalar, or the elements of a vector (R178). [DEDUCED, unsafe: assumption 94] -/
def fcvtMedlar (f : RFields) (m : Medlar) (s : State) : Medlar × State :=
  let ws := cvtSrcBits f.op f.fmt f.aux
  let wd := cvtDstBits f.op f.fmt f.aux
  let rnd := roundDir f.rm m.fpctl.toNat
  let v := takeFree s
  if f.s then
    let r := cvtOp f.op f.fmt f.aux rnd (gReg m f.a % 2 ^ ws)
    ({ setG f.d (widenCvt wd 64 r.1 v.1) m with fpflags := stick m.fpflags r.2 }, if wd = 16 then v.2 else s)
  else
    let n := 512 / max ws wd
    let r (i : Nat) : Nat × Nat := cvtOp f.op f.fmt f.aux rnd (mvEl m ws f.a i)
    ({ setMv f.d wd (fun i => if i < n then (r i).1 else bits v.1 (wd * (i - n)) wd) m with
       fpflags := stick m.fpflags (anyFlags (fun _ => true) (fun i => (r i).2) n) },
      if n * wd = 512 then s else v.2)

def fcvtGroup (f : RFields) (a : Arch) (s : State) : Arch × State :=
  let ws := cvtSrcBits f.op f.fmt f.aux
  let wd := cvtDstBits f.op f.fmt f.aux
  let rnd := roundDir f.rm a.fpctl.toNat
  let v := takeFree s
  let t := if wd = 16 then v.2 else s
  if f.s then
    let r := cvtOp f.op f.fmt f.aux rnd (sReg a f.a % 2 ^ ws)
    ({ setS f.d (widenCvt wd 64 r.1 v.1) a with fpflags := stick a.fpflags r.2 }, t)
  else
    let x := execMask a f.pe f.pn f.preg
    let r (i : Nat) : Nat × Nat := cvtOp f.op f.fmt f.aux rnd (vOperand a ws f.a i)
    let reg := if wd = 64 then 64 else 32
    ({ setVOperand wd f.d x (fun i => widenCvt wd reg (r i).1 (v.1 / 2 ^ (16 * i))) a with
       fpflags := stick a.fpflags (anyFlags (bit x) (fun i => (r i).2) 32) }, t)

/-- FCVT (R176, R178). In a Medlar vector, source element i becomes destination element i, as many as the wider of the
two formats has. -/
def execFcvt (who : Agent) (w : Nat) (s : State) : Answer :=
  let f := rFields w
  alu .fcvt who w f (fcvtFieldsOk f) (fcvtKinds f)
    (if f.s then 0 else if cvtSrcBits f.op f.fmt f.aux = 64 ∨ cvtDstBits f.op f.fmt f.aux = 64 then 2 else 1)
    (fcvtMedlar f) (fcvtGroup f) s

end Sys2Proof.Machine
end

