-- ==== Sys2Proof/Machine/UrtexFence.lean ====
section
/-! DEFINITION. The fence family (R157, R190, R191, R212, R215, R216). -/

namespace Sys2Proof.Machine

/-- A fence with every field but OP, and D for FENCE.SYS, zero (R190). -/
def fenceFieldsOk (w : Nat) (sys : Bool) : Bool :=
  let f := rFields w
  f.resv == 0 && f.aux == 0 && !f.s && f.a == 0 && f.b == 0 && (sys || f.d == 0)

/-- A fence that one profile lacks, and on the other waits until ready, after a first effect. -/
def fenceMedlar (row : Row) (who : Agent) (w : Nat) (go : Nat → Medlar → State → Eff) (s : State) : Answer :=
  match who with
  | .medlar c =>
    issueMedlar row c w (fun m t =>
      if !fenceFieldsOk w false then bareTrap .illegal (medlarCtx m) t else go c m t) s
  | .group g => issueGroup row g w [] 0 (fun _ t => bareTrap .illegal (launchCtx t (launchKey g)) t) s

def fenceGroup (row : Row) (who : Agent) (w : Nat) (go : Nat → Group → State → Eff) (s : State) : Answer :=
  match who with
  | .medlar c => issueMedlar row c w (fun m t => bareTrap .illegal (medlarCtx m) t) s
  | .group g =>
    issueGroup row g w [] 0 (fun x t =>
      if !fenceFieldsOk w false then bareTrap .illegal (launchCtx t (launchKey g)) t else go g x t) s

/-- FENCE.SL: the combining buffer is sent, and the fence ends once the store buffer is empty and every write has reached
its home or been accepted by Rowan. -/
def execFenceSl (who : Agent) (w : Nat) (s : State) : Answer :=
  fenceMedlar .fenceSl who w (fun c m t =>
    if !m.comb.isEmpty then .done (drainComb c t)
    else if !m.sb.isEmpty then .wait "the store buffer drains"
    else if !(writesNear t (.medlar c)).isEmpty then .wait "a write has not reached its home"
    else medlarNext c w m t) s

/-- FENCE.WC: the combining buffer is sent, and the fence ends once its writes have reached their targets. -/
def execFenceWc (who : Agent) (w : Nat) (s : State) : Answer :=
  fenceMedlar .fenceWc who w (fun c m t =>
    if !m.comb.isEmpty then .done (drainComb c t)
    else if (writesNear t (.medlar c)).any fun r => r.2.xl.region == 1 then .wait "a combining write has not arrived"
    else medlarNext c w m t) s

/-- FENCE.I: the fetch buffers are discarded. A command carries the words it executes, so nothing else changes. -/
def execFenceI (who : Agent) (w : Nat) (s : State) : Answer :=
  fenceMedlar .fenceI who w (fun c m t => medlarNext c w m t) s

/-- FENCE.REL: the fence ends once the group's stores and atomics have been acknowledged. -/
def execFenceRel (who : Agent) (w : Nat) (s : State) : Answer :=
  fenceGroup .fenceRel who w (fun g x t =>
    if !(writesNear t (.group g)).isEmpty then .wait "a write has not been acknowledged" else groupNext g w x x.arch t) s

/-- FENCE.ACQ: once the group's loads have returned, the core's L1 is invalidated. -/
def execFenceAcq (who : Agent) (w : Nat) (s : State) : Answer :=
  fenceGroup .fenceAcq who w (fun g x t =>
    if !x.loads.isEmpty then .wait "a load has not returned"
    else groupNext g w x x.arch (invalidateL1 (coreKey x.die x.core) t)) s

/-- FENCE.SYS: nothing issues until every earlier write is resolved. -/
def execFenceSys (who : Agent) (w : Nat) (s : State) : Answer :=
  let d := (rFields w).d
  match who with
  | .medlar c =>
    issueMedlar .fenceSys c w (fun m t =>
      if !fenceFieldsOk w true then bareTrap .illegal (medlarCtx m) t
      else
        let u := drainComb c t
        medlarNext c w { medlarOf u c with sysWait := some d } u) s
  | .group g =>
    issueGroup .fenceSys g w [.s d] 0 (fun x t =>
      if !fenceFieldsOk w true then bareTrap .illegal (launchCtx t (launchKey g)) t
      else groupNext g w { x with sysWait := some d } x.arch t) s

/-- The status FENCE.SYS writes (R191). [DEDUCED, unsafe: assumption 95] -/
def sysStatus (abandoned : List RemoteFail) : Nat :=
  if abandoned.contains .frontendGone then 0x22 else if abandoned.contains .remoteAbandoned then 0x21 else 0

/-- FENCE_SYS_RESOLVE (R191): every earlier store, atomic and reduce-write has been acknowledged by its final target or
abandoned, posted Device-strict stores included (R216). -/
def execFenceSysResolve (who : Agent) (s : State) : Answer :=
  if !(writesOut s who).isEmpty then stuck "an earlier write is not resolved"
  else
    match who with
    | .medlar c =>
      let m := medlarOf s c
      match m.sysWait with
      | none => stuck "no FENCE.SYS waits"
      | some d =>
        if !m.sb.isEmpty || !m.posted.isEmpty then stuck "an earlier store is not performed"
        else .next (takeHeld c (setMedlar c { setG d (sysStatus m.abandoned) m with sysWait := none } s))
    | .group g =>
      match groupOf s g with
      | none => stuck "no such group"
      | some x =>
        match x.sysWait with
        | none => stuck "no FENCE.SYS waits"
        | some d => .next (setGroup g { x with arch := setS d (sysStatus x.abandoned) x.arch, sysWait := none } s)

end Sys2Proof.Machine
end

