-- ==== Sys2Proof/Machine/GroupMem.lean ====
section
/-! DEFINITION. How the accesses of a group's lanes become requests, how loads complete or fault, and the L1 (R152–R156,
R160, R163, R180–R186, R198). -/

namespace Sys2Proof.Machine

/-! ### Translation of every lane before any request is sent (R163, R182, R198) -/

/-- What one lane's access comes to at issue. -/
inductive Tried where
  | ok (x : Xl)
  | bad (c : Cause) (seg : Nat)
deriving DecidableEq, Repr

/-- Alignment, region and translation of one access of n bytes; only Normal-cached regions take atomics. -/
def tryAccess (s : State) (ctx : Nat) (need : Need) (n : Nat) (atomic : Bool) (va : Nat) : Tried :=
  let badRegion (r : Nat) : Bool := r == 2 || (atomic && r != 0)
  if va % n ≠ 0 then .bad .misaligned 255
  else
    match translate s ctx va need with
    | .fault seg =>
      if seg < 16 && badRegion (segRegion (segOf s ctx seg).raw) then .bad .region seg else .bad .segmentFault seg
    | .ok x => if badRegion x.region then .bad .region x.seg else .ok x

/-- A lane with its address and what came of it. -/
structure LaneTry where
  lane : Nat
  va : Nat
  res : Tried
deriving DecidableEq, Repr

/-- The first cause by R198, and the lowest lane that raised it. -/
def firstBad (ts : List LaneTry) : Option (Cause × Nat × Nat) :=
  ts.foldl (fun a t => match t.res, a with
    | .bad c seg, none => some (c, t.va, seg)
    | .bad c seg, some b => if causeRank c < causeRank b.1 then some (c, t.va, seg) else some b
    | .ok _, a => a) none

def accessFault (c : Cause) (va seg ctx : Nat) (write : Bool) : FaultInfo :=
  { plainFault c va ctx with seg := seg, write := write }

/-- The trap of an access whose lanes failed. -/
def accessTrap (b : Cause × Nat × Nat) (ctx : Nat) (write : Bool) (s : State) : Eff :=
  .trap (accessFault b.1 b.2.1 b.2.2 ctx write) (if b.1 = .segmentFault then countSegFault s else s)

/-! ### Parts: one request for each line (R160) -/

/-- The lanes that travel in one request. -/
structure LanePart where
  xl : Xl
  va : Nat
  lanes : List LaneAcc
deriving DecidableEq, Repr

/-- The lane joins the request for its line; a lane whose target lies elsewhere travels alone. -/
def addLane (x : Xl) (va : Nat) (l : LaneAcc) : List LanePart → List LanePart
  | [] => [{ xl := x, va := va, lanes := [l] }]
  | p :: ps =>
    if (lineOf x).isSome && lineOf p.xl == lineOf x && p.xl.seg == x.seg then { p with lanes := p.lanes ++ [l] } :: ps
    else p :: addLane x va l ps

/-- The requests of an instruction's lanes; acc gives a lane's value and compare operand. -/
def partsOf (n : Nat) (acc : Nat → Nat × Nat) (ts : List LaneTry) : List LanePart :=
  ts.foldl (fun ps t => match t.res with
    | .ok x =>
      let v := acc t.lane
      addLane x t.va { lane := t.lane, pos := t.va % 128, n := n, val := v.1 % 2 ^ (8 * n), cmp := v.2 % 2 ^ (8 * n), res := 0,
                       shift := 0 } ps
    | .bad _ _ => ps) []

def partReq (g : Nat) (k : ReqKind) (critical : Bool) (load : Nat) (l1 : Bool) (p : LanePart) : Req :=
  { plainReq (.group g) k p.xl p.va p.lanes with critical := critical, load := load, l1 := l1 }

def sendParts (g : Nat) (k : ReqKind) (critical : Bool) (load : Nat) (l1 : LanePart → Bool) (ps : List LanePart) (s : State) :
    State := ps.foldl (fun t p => issueReq (partReq g k critical load (l1 p) p) t) s

/-! ### The L1 (R152–R154) -/

def meetsLine (line : Nat) (r : Req) : Bool := lineOf r.xl == some line

/-- Requests of a core's groups for a line that are not yet performed, in order. -/
def coreOut (s : State) (k line : Nat) : List Req :=
  (s.reqs.cells.filter fun c => coreOfAgent s c.2.src == some k && meetsLine line c.2 &&
    (match c.2.st with | .issued | .stale | .waitFill => true | _ => false)).map Prod.snd

/-- The bytes of a line that stores of the core's groups, not yet performed, will write (R154, R156). -/
def coreStores (s : State) (k line : Nat) : Line × BitVec 128 :=
  (coreOut s k line).foldl (fun a r => if r.kind = .write then
    let w := lanesLine r.lanes; (overlay a.1 w.1 w.2, a.2 ||| w.2) else a) (0#1024, 0#128)

/-- The line a plain load of Normal-cached memory finds in the L1 (R153). -/
def l1Hit (s : State) (k : Nat) (plain : Bool) (p : LanePart) : Option Line :=
  match lineOf p.xl with
  | some line => if plain && p.xl.region == 0 then (gcoreOf s k).l1.find line else none
  | none => none

/-- A miss of a plain load fills the line when it returns (R153). While an atomic of the core's groups on the line is not
performed, the line would be invalidated again (R154), so it is not kept. [DEDUCED, unsafe: assumption 92] -/
def l1Fills (s : State) (k : Nat) (plain : Bool) (p : LanePart) : Bool :=
  match lineOf p.xl with
  | some line => plain && p.xl.region == 0 &&
      !((coreOut s k line).any fun r => match r.kind with | .atomic _ _ | .reduce _ _ => true | _ => false)
  | none => false

/-- A store updates the copy in the issuing core's L1, and lines on their way there (R154). -/
def l1Store (k : Nat) (p : LanePart) (s : State) : State :=
  match lineOf p.xl with
  | none => s
  | some line =>
    let x := gcoreOf s k
    let w := lanesLine p.lanes
    let t := match x.l1.find line with
      | some d => setGCore k { x with l1 := x.l1.put line (overlay d w.1 w.2) } s
      | none => s
    { t with reqs := t.reqs.map fun _ r =>
        if r.l1 && coreOfAgent s r.src == some k && meetsLine line r then
          { r with laidOver := (overlay r.laidOver.1 w.1 w.2, r.laidOver.2 ||| w.2) } else r }

/-- An atomic invalidates the line in the issuing core's L1 (R154). -/
def l1Drop (k : Nat) (p : LanePart) (s : State) : State :=
  match lineOf p.xl with
  | none => s
  | some line =>
    let x := gcoreOf s k
    unfill k (meetsLine line) (setGCore k { x with l1 := x.l1.del line } s)

/-- Lines an L1 of a split holds. -/
def l1Lines (split : Nat) : Nat :=
  match split with
  | 0 => 128
  | 1 => 256
  | 2 => 512
  | _ => 768

/-- A line fills the L1, which is 4-way set-associative (R152): in a full set it replaces another line, which one is open.
[DEDUCED, unsafe: assumption 92] -/
def l1Fill (k line : Nat) (d : Line) (s : State) : State :=
  let x := gcoreOf s k
  let sets := l1Lines x.split / 4
  let others := x.l1.del line
  let same := others.cells.filter fun c => Config.l1Hash c.1 % sets == Config.l1Hash line % sets
  if same.length < 4 then setGCore k { x with l1 := others.put line d } s
  else
    let v := takeFree s
    let kept := match same[v.1 % same.length]? with
      | some c => others.del c.1
      | none => others
    setGCore k { x with l1 := kept.put line d } v.2

/-! ### Loads that complete (R153, R181, R197, R198) -/

/-- One lane's result of n bytes in its register. -/
def laneValue (n : Nat) (sx : Bool) (x : Nat) : Nat :=
  if n = 8 then x else if sx then sext (8 * n) 32 x else x % 2 ^ (8 * n)

/-- A finished load writes its register. -/
def applyLoad (l : PendLoad) (a : Arch) : Arch :=
  match l.dest with
  | .lanes r => setVOperand (8 * l.width) r l.laneMask.toNat (fun i => laneValue l.width l.sx (l.got.get 0 i)) a
  | .s r => setS r (widen l.width l.sx (l.got.get 0 0)) a
  | _ => a

/-- The load is done: its register is written, also in what younger loads would restore. -/
def retireLoad (g : Nat) (l : PendLoad) (x : Group) (s : State) : State :=
  setGroup g { x with arch := applyLoad l x.arch
                      loads := (x.loads.filter (·.id != l.id)).map fun y =>
                        if y.id > l.id then { y with saved := y.saved.map (applyLoad l) } else y } s

/-- The first of the causes that lanes of a load raised. -/
def firstLane (bs : List (Nat × FaultInfo)) : Option FaultInfo :=
  (bs.foldl (fun (a : Option (Nat × FaultInfo)) b => match a with
    | none => some b
    | some c =>
      if causeRank b.2.cause < causeRank c.2.cause || (causeRank b.2.cause == causeRank c.2.cause && b.1 < c.1) then some b
      else some c) none).map Prod.snd

/-- A load faults: the group stands before it again, and what came after it has not happened (R163, R199). -/
def faultLoad (g : Nat) (l : PendLoad) (f : FaultInfo) (x : Group) (s : State) : State :=
  let old := x.faults.filter (·.imprecise)
  let x2 : Group := { x with arch := l.saved.getD x.arch, loads := x.loads.filter fun y => y.id < l.id, sysWait := none,
                             faults := old }
  if old.length = x.faults.length then groupTrap g f (setGroup g x2 s)
  else setGroup g { x2 with faults := old ++ [{ f with time := label x.die s }] } s

/-- A part of a group's load is back: values for its lanes, or what they raised. -/
def loadPart (g id : Nat) (got : List LaneAcc) (bad : List (Nat × FaultInfo)) (s : State) : State :=
  match groupOf s g with
  | none => s
  | some x =>
    match x.loads.find? (·.id == id) with
    | none => s
    | some l0 =>
      let l : PendLoad := { l0 with got := got.foldl (fun t a => t.put a.lane a.res) l0.got, bad := l0.bad ++ bad, left := l0.left - 1 }
      if l.left ≠ 0 then setGroup g { x with loads := x.loads.map fun y => if y.id = id then l else y } s
      else match firstLane l.bad with
        | none => retireLoad g l x s
        | some f => faultLoad g l f x s

/-- The address of a lane of a request. -/
def laneVa (r : Req) (l : LaneAcc) : Nat := r.va / 128 * 128 + l.pos

/-- What a refused or poisoned read raises in its lanes (R197, R276, R281). -/
def readFault (s : State) (r : Req) (c : Cause) : List (Nat × FaultInfo) :=
  match r.lanes with
  | [] => []
  | l :: _ =>
    let f := if c = .domainDenied then deniedInfo s r.xl (laneVa r l) r.kind.writes
             else accessFault c (laneVa r l) r.xl.seg r.xl.ctx r.kind.writes
    [(l.lane, f)]

/-! ### Issuing loads, stores and atomics of a group -/

/-- The lanes of a vector access, or the one access of a scalar load or store (R181). -/
def accessLanes (a : Arch) (f : MFields) (scalar : Bool) : List Nat :=
  if scalar then [0] else setBitsOf 32 (execMask a f.pe f.pn f.preg)

def tryLanes (s : State) (ctx : Nat) (need : Need) (n : Nat) (atomic : Bool) (addr : Nat → Nat) (ls : List Nat) : List LaneTry :=
  ls.map fun i => { lane := i, va := addr i, res := tryAccess s ctx need n atomic (addr i) }

/-- Some lanes of a store name overlapping bytes. -/
def lanesOverlap (n : Nat) : List LaneTry → Bool
  | [] => false
  | t :: ts => ts.any (fun u => decide (t.va < u.va + n) && decide (u.va < t.va + n)) || lanesOverlap n ts

/-- One of the orders of a list, by a number: every order is some number's. [DEDUCED, unsafe: assumption 92] -/
def shuffle {α : Type} : Nat → List α → List α
  | _, [] => []
  | v, x :: xs =>
    let r := shuffle (v / (xs.length + 1)) xs
    r.take (v % (xs.length + 1)) ++ x :: r.drop (v % (xs.length + 1))

/-- A load of the group may still be refused or find poison, so that the group would go back before it (R163).
[DEDUCED, unsafe: assumption 92] -/
def loadsOpen (s : State) (g : Nat) (x : Group) : Bool :=
  s.reqs.cells.any fun c => c.2.src == .group g && c.2.st != .served && (x.loads.any fun l => l.id == c.2.load) &&
    (match c.2.kind with | .write | .reduce _ _ => false | _ => true)

/-- A load: served from the L1 where it can be, and asked of its homes otherwise; the group goes on (R153, R156). -/
def groupLoad (g w : Nat) (f : MFields) (scalar : Bool) (x : Group) (s : State) : Eff :=
  let n := accessBytes f.width
  let ctx := launchCtx s (launchKey g)
  let raw := launchRaw s (launchKey g)
  let ls := accessLanes x.arch f scalar
  let ts := tryLanes s ctx needR n false (laneAddr f x.arch) ls
  match firstBad ts with
  | some b => accessTrap b ctx false s
  | none =>
    let k := coreKey x.die x.core
    let plain := !f.bench
    let ps := partsOf n (fun _ => (0, 0)) ts
    let hits := ps.filterMap fun p => (l1Hit s k plain p).map fun d =>
      p.lanes.map fun l => { l with res := lineBytes d l.pos l.n }
    let misses := ps.filter fun p => (l1Hit s k plain p).isNone
    let got : Tab Nat := hits.flatten.foldl (fun t a => t.put a.lane a.res) ⟨[]⟩
    let l : PendLoad :=
      { id := s.nextReq, dest := if scalar then .s f.d else .lanes f.d, width := n, sx := f.sx, got := got,
        laneMask := BitVec.ofNat 32 (ls.foldl (fun m i => m + 2 ^ i) 0), left := misses.length, poison := false, bad := [],
        va := (ts.head?.map LaneTry.va).getD 0, pc := x.arch.pc, saved := some x.arch, parts := [], base := 0 }
    if misses.isEmpty then groupNext g w x (applyLoad l x.arch) s
    else
      let t := setGroup g { x with arch := goNext w x.arch, loads := x.loads ++ [l] } s
      .done (misses.foldl (fun u p =>
        let q := partReq g .read (f.lc || bit (launchCtl raw) 3) l.id (l1Fills s k plain p) p
        issueReq { q with laidOver := match lineOf p.xl with | some line => coreStores s k line | none => q.laidOver } u) t)

/-- A store writes through; when some lane cannot be translated, others may already have been performed (R154, R163).
[DEDUCED, unsafe: assumption 92] -/
def groupStore (g w : Nat) (f : MFields) (scalar : Bool) (x : Group) (s : State) : Eff :=
  let n := accessBytes f.width
  let ctx := launchCtx s (launchKey g)
  let k := coreKey x.die x.core
  let ts := tryLanes s ctx needW n false (laneAddr f x.arch) (accessLanes x.arch f scalar)
  let val (i : Nat) : Nat × Nat := (if scalar then sReg x.arch f.d else vOperand x.arch (8 * n) f.d i, 0)
  let put (us : List LaneTry) (t : State) : State :=
    let ps := partsOf n val us
    sendParts g .write false 0 (fun _ => false) ps (ps.foldl (fun u p => l1Store k p u) t)
  if loadsOpen s g x then .wait "an earlier load may still fault"
  else match firstBad ts with
  | some b =>
    let v := takeFree s
    accessTrap b ctx true (put (ts.filter fun t => bit v.1 t.lane) v.2)
  | none =>
    if lanesOverlap n ts then
      let v := takeFree s
      groupNext g w x x.arch (put (shuffle v.1 ts) v.2)
    else groupNext g w x x.arch (put ts s)

/-- Lanes combined into another lane's Bench operation (R160). -/
def combined (ts : List LaneTry) : Nat :=
  ts.length - (ts.foldl (fun (a : List Nat) t => if a.contains t.va then a else t.va :: a) []).length

/-- An atomic, or with no destination a reduce-write: nothing is sent unless every lane translates (R160, R163, R184). -/
def groupAtomic (g w op : Nat) (f : MFields) (val : Nat → Nat × Nat) (returns : Bool) (x : Group) (s : State) : Eff :=
  let n := accessBytes f.width
  let ctx := launchCtx s (launchKey g)
  let k := coreKey x.die x.core
  let ls := accessLanes x.arch f false
  let ts := tryLanes s ctx (if returns then needRW else needW) n true (laneAddr f x.arch) ls
  if returns && !x.loads.isEmpty then .wait "an earlier load has not returned"
  else if loadsOpen s g x then .wait "an earlier load may still fault"
  else match firstBad ts with
  | some b => accessTrap b ctx true s
  | none =>
    let ps := partsOf n val ts
    let t := ps.foldl (fun u p => l1Drop k p u) (bump (K.groupAtomicsCombined + x.die) (combined ts) s)
    if ps.isEmpty then groupNext g w x x.arch t
    else if returns then
      let l : PendLoad :=
        { id := t.nextReq, dest := .lanes f.d, width := n, sx := false, got := ⟨[]⟩,
          laneMask := BitVec.ofNat 32 (ls.foldl (fun m i => m + 2 ^ i) 0), left := ps.length, poison := false, bad := [],
          va := (ts.head?.map LaneTry.va).getD 0, pc := x.arch.pc, saved := some x.arch, parts := [], base := 0 }
      let u := setGroup g { x with arch := goNext w x.arch, loads := x.loads ++ [l] } t
      .done (sendParts g (.atomic op f.width) false l.id (fun _ => false) ps u)
    else
      let u := setGroup g { x with arch := goNext w x.arch } t
      .done (sendParts g (.reduce op f.width) false 0 (fun _ => false) ps u)

/-! ### The local store (R155, R186) -/

def localRead (a : Arch) (addr n : Nat) : Nat :=
  (List.range n).foldr (fun i v => (a.localMem.get 0#8 (addr + i)).toNat + 256 * v) 0

def localWrite (addr n val : Nat) (a : Arch) : Arch :=
  (List.range n).foldl (fun b i =>
    { b with localMem := b.localMem.set 0#8 (addr + i) (BitVec.ofNat 8 (bits val (8 * i) 8)) }) a

/-- A local access: alignment and range of every lane first, then the lanes one after another. -/
def groupLocal (g w : Nat) (f : MFields) (store : Bool) (x : Group) (s : State) : Eff :=
  let n := accessBytes f.width
  let ctx := launchCtx s (launchKey g)
  let size := localBytes (launchRaw s (launchKey g))
  let ls := accessLanes x.arch f false
  let ts : List LaneTry := ls.map fun i =>
    let va := laneLocal f x.arch i
    { lane := i, va := va
      res := if va % n ≠ 0 then .bad .misaligned 255
             else if va + n > size then .bad .localRange 255
             else .ok { ctx := 0, seg := 0, gen := 0, epoch := 0, domain := 0, partition := 0, tracked := false, region := 0,
                        target := .memory va } }
  match firstBad ts with
  | some b => accessTrap b ctx store s
  | none =>
    if store then
      let order (us : List LaneTry) : Arch := us.foldl (fun a t => localWrite t.va n (vOperand x.arch (8 * n) f.d t.lane) a) x.arch
      if lanesOverlap n ts then let v := takeFree s; groupNext g w x (order (shuffle v.1 ts)) v.2
      else groupNext g w x (order ts) s
    else
      let m := ls.foldl (fun k i => k + 2 ^ i) 0
      groupNext g w x (setVOperand (8 * n) f.d m (fun i => laneValue n f.sx (localRead x.arch (laneLocal f x.arch i) n)) x.arch) s

end Sys2Proof.Machine
end

