-- ==== Sys2Proof/Machine/UrtexMem.lean ====
section
/-! DEFINITION. The memory instructions of both profiles, and what comes back to the core or group that sent a request
(R180–R186, R191, R197–R199, R204–R216, R276, R281, R290). -/

namespace Sys2Proof.Machine

/-! ### The parts of a Medlar access (R182) -/

/-- One line's part of a Medlar access: where its bytes lie in the access. -/
structure MedPart where
  va : Nat
  n : Nat
  shift : Nat
  xl : Xl
deriving DecidableEq, Repr

/-- An access that crosses a line is two accesses: address, bytes and place of each. [DEDUCED, unsafe: assumption 115] -/
def medlarSplit (va n : Nat) : List (Nat × Nat × Nat) :=
  let k := 128 - va % 128
  if n ≤ k then [(va, n, 0)] else [(va, k, 0), (va + k, n - k, k)]

/-- What a part comes to at issue; a misaligned access may not reach a Device-strict region. An access to the dictionary
window under an old GEN is translated again at once (R290). -/
def tryPart (s : State) (ctx : Nat) (need : Need) (aligned : Bool) (va : Nat) : Tried :=
  let refused := match translate s ctx va need with
    | .ok x => (match x.target with | .window _ => !genOk s 64 x | _ => false)
    | .fault _ => false
  match (if refused then retranslate s ctx va need else translate s ctx va need) with
  | .fault seg =>
    if seg < 16 && !aligned && segRegion (segOf s ctx seg).raw == 2 then .bad .misaligned 255 else .bad .segmentFault seg
  | .ok x => if x.region = 2 && !aligned then .bad .misaligned 255 else .ok x

/-- The causes of an access's parts, and the parts that translate. [DEDUCED, unsafe: assumption 83] -/
def medlarTries (s : State) (ctx : Nat) (need : Need) (va n : Nat) : Option (Cause × Nat × Nat) × List MedPart :=
  let ts := (medlarSplit va n).map fun p => (p, tryPart s ctx need (va % n == 0) p.1)
  (firstBad (ts.map fun t => { lane := t.1.2.2, va := t.1.1, res := t.2 }),
   ts.filterMap fun t => match t.2 with
     | .ok x => some { va := t.1.1, n := t.1.2.1, shift := t.1.2.2, xl := x }
     | .bad _ _ => none)

/-! ### The combining buffer (R215) -/

/-- A target moved back by some bytes. -/
def Target.minus (t : Target) (d : Nat) : Target := match t with
  | .memory o => .memory (o - d)
  | .window o => .window (o - d)
  | .peer n o c => .peer n (o - d) c
  | .frontend a c k => .frontend (a - d) c k

/-- The translation of the 128-byte block that an access lies in. -/
def blockXl (x : Xl) (va : Nat) : Xl := { x with target := x.target.minus (va % 128) }

/-- The entry holds bytes of the 128-byte block that an access reaches, whatever address or segment it came by.
[DEDUCED, unsafe: assumption 84] -/
def combFits (x : Xl) (va : Nat) (e : CombEntry) : Bool := e.xl.target == (blockXl x va).target

/-- Entries leave the buffer for their targets. -/
def sendCombs (c : Nat) (p : CombEntry → Bool) (s : State) : State :=
  let m := medlarOf s c
  (m.comb.filter p).foldl (fun t e => sendComb c e t) (setMedlar c { m with comb := m.comb.filter fun e => !p e } s)

/-- A write enters the buffer, merged with others to its block under the same translation. An entry of the block under
another one leaves first, and a full buffer gives up one entry: which one is open. [DEDUCED, unsafe: assumption 84] -/
def combWrite (c : Nat) (x : Xl) (va n val : Nat) (s : State) : State :=
  let pos := va % 128
  let mk := spanMask pos n
  let put (e : CombEntry) : CombEntry :=
    { e with data := overlay e.data (BitVec.ofNat 1024 (val * 2 ^ (8 * pos))) mk, mask := e.mask ||| mk }
  let m := medlarOf s c
  let same (e : CombEntry) : Bool := combFits x va e && e.xl == blockXl x va
  if m.comb.any same then setMedlar c { m with comb := m.comb.map fun e => if same e then put e else e } s
  else
    let t := sendCombs c (combFits x va) s
    let u := if (medlarOf t c).comb.length < 8 then t
      else
        let v := takeFree t
        match (medlarOf t c).comb[v.1 % 8]? with
        | some e => sendCombs c (· == e) v.2
        | none => v.2
    let m2 := medlarOf u c
    setMedlar c { m2 with comb := m2.comb ++ [put { xl := blockXl x va, block := va / 128 * 128, data := 0#1024, mask := 0#128 }] } u

/-- What the buffers make of a part of a load: all its bytes, or a read to be made. -/
structure Piece1 where
  part : MedPart
  held : Option Nat
  /-- Bytes of the part that the combining buffer holds, and their values. -/
  mask : Nat
  bytes : Nat
deriving DecidableEq, Repr

/-- A load from a combining region reads its target, except for bytes that the buffer holds. One read brings the others
together (R205, R215). [DEDUCED, unsafe: assumption 84] -/
def combPiece (m : Medlar) (p : MedPart) : Piece1 :=
  let pos := p.va % 128
  match m.comb.find? (combFits p.xl p.va) with
  | none => ⟨p, none, 0, 0⟩
  | some e =>
    let h := bits e.mask.toNat pos p.n
    let d := lineBytes e.data pos p.n
    ⟨p, if h = 2 ^ p.n - 1 then some d else none, h, d⟩

/-- The bytes of a read's result that the combining buffer supplied stand for those that were read. -/
def withHeld (n : Nat) (mask bytes read : Nat) : Nat :=
  let k := expandMask n mask
  (read - (read &&& k)) + (bytes &&& k)

/-! ### Device-strict accesses (R216, R217, R278) -/

/-- Why a Device-strict access must wait: the store buffer, or an earlier one on another path.
[DEDUCED, unsafe: assumption 85] -/
def strictWaits (s : State) (c : Nat) (store : Bool) (x : Xl) : Option String :=
  let m := medlarOf s c
  if !m.sb.isEmpty then some "the store buffer drains"
  else match x.target with
    | .memory _ => if m.posted.isEmpty then none else some "an earlier Device-strict store has not arrived"
    | .window _ =>
      if strictOut s c || (!(store && windowOpen s x) && !m.posted.isEmpty) then
        some "an earlier Device-strict access has not arrived" else none
    | _ =>
      if strictOut s c || !m.posted.isEmpty then some "an earlier Device-strict access has not arrived" else none

/-! ### Medlar loads and stores -/

def newLoad (s : State) (m : Medlar) (d : Dest) (n : Nat) (sx : Bool) (left va : Nat) : PendLoad :=
  { id := s.nextReq, dest := d, width := n, sx := sx, got := ⟨[]⟩, laneMask := 0#32, left := left, poison := false, bad := [],
    va := va, pc := m.pc, saved := none, parts := [], base := 0 }

/-- The load leaves: the core's next instruction waits for it. -/
def beginLoad (c w : Nat) (l : PendLoad) (s : State) : State :=
  let m := medlarOf s c
  setMedlar c { m with pc := m.pc + BitVec.ofNat 64 (wsize w), loads := m.loads ++ [l] } s

/-- A load from the window is answered at once; more than 8 bytes of it have no stated value (R395, R396).
[DEDUCED, unsafe: assumption 79] -/
def windowAnswer (off n : Nat) (s : State) : Nat × State :=
  if n ≤ 8 then (windowLoad s off n, s) else let v := takeFree s; (bits v.1 0 (8 * n), v.2)

/-- A Device-strict load, of one part. [DEDUCED, unsafe: assumption 85] -/
def strictLoad (c w : Nat) (d : Dest) (n : Nat) (sx : Bool) (p : MedPart) (s : State) : Eff :=
  match strictWaits s c false p.xl with
  | some why => .wait why
  | none =>
    let t := drainComb c s
    let l := newLoad t (medlarOf t c) d n sx 1 p.va
    let u := beginLoad c w l t
    match p.xl.target with
    | .window off =>
      if windowOpen s p.xl then let r := windowAnswer off n u; .done (medlarPart c l.id 0 r.1 false r.2)
      else .done (startPart c { id := l.id, xl := p.xl, va := p.va, n := n, shift := 0, held := 0, heldVal := 0 } u)
    | _ => .done (startPart c { id := l.id, xl := p.xl, va := p.va, n := n, shift := 0, held := 0, heldVal := 0 } u)

/-- What the buffers give a part of a load; none when it must wait for the store buffer (R209, R215). -/
def partPiece (m : Medlar) (p : MedPart) : Option Piece1 :=
  match lineOf p.xl, p.xl.region with
  | some line, 0 =>
    match forward m.sb line (p.va % 128) p.n with
    | .all v => some ⟨p, some v, 0, 0⟩
    | .clear => some ⟨p, none, 0, 0⟩
    | .wait => none
  | _, 0 => some ⟨p, none, 0, 0⟩
  | _, _ => some (combPiece m p)

/-- A load of Normal-cached memory, which a younger load may pass (R206). -/
def PendLoad.plain (l : PendLoad) : Bool := !l.parts.isEmpty || l.left == 0

/-- A load to a destination, with these address registers, may begin before the outstanding ones have returned: they are
loads of Normal-cached memory to other registers, and the load queue has room (R203, R206). [DEDUCED, safe: assumption 25] -/
def mayPass (m : Medlar) (ds : List Dest) : Bool :=
  decide (m.loads.length < 96) && m.loads.all fun l => l.plain && !ds.contains l.dest

/-- A Medlar load (R206, R209, R214–R216, R222). -/
def medlarLoad (c w : Nat) (ds : List Dest) (d : Dest) (n : Nat) (sx : Bool) (va : Nat) (m : Medlar) (s : State) : Eff :=
  let t := medlarTries s (medlarCtx m) needR va n
  let late := !m.loads.isEmpty
  let cached := t.2.all fun p => p.xl.region == 0
  if late && !(cached && mayPass m ds) then .wait "an earlier load has not returned"
  else match t.1, t.2.find? fun p => p.xl.region == 2 with
  | some b, _ => accessTrap b (medlarCtx m) false s
  | none, some p => strictLoad c w d n sx p s
  | none, none =>
    let ps := t.2.map (partPiece m)
    if ps.any Option.isNone then .wait "a buffered store supplies only some of the bytes"
    else
      let qs := ps.filterMap id
      let base := qs.foldl (fun a q => a + q.held.getD 0 * 2 ^ (8 * q.part.shift)) 0
      let l0 := newLoad s m d n sx 0 va
      let ws : List WaitLoad := (qs.filter fun q => q.held.isNone).map fun q =>
        { id := l0.id, xl := q.part.xl, va := q.part.va, n := q.part.n, shift := q.part.shift, held := q.mask, heldVal := q.bytes }
      let l : PendLoad := { l0 with got := Tab.set ⟨[]⟩ 0 0 base, left := ws.length, parts := if cached then ws else [], base := base }
      .done (ws.foldl (fun u p => startPart c p u) (onLoad c l.id id (beginLoad c w l s)))

/-- Stores that find no free entry do not retire (R208). [DEDUCED, safe: assumption 87] -/
def sbFull (c : Nat) (s : State) : Eff := .done (bump (K.medlarSbFullSteps + (dieOfCore c - 8)) 1 s)

/-- A Device-strict store, of one part: posted, it retires as it is issued. [DEDUCED, unsafe: assumption 85] -/
def strictStore (c w n val : Nat) (p : MedPart) (s : State) : Eff :=
  match strictWaits s c true p.xl with
  | some why => .wait why
  | none =>
    let t := drainComb c s
    let m := medlarOf t c
    let ask : Eff := medlarNext c w m (issueReq (plainReq (.medlar c) .write p.xl p.va [oneLane (p.va % 128) n val]) t)
    match p.xl.target with
    | .window _ => if windowOpen s p.xl then medlarNext c w { m with posted := m.posted ++ [{ xl := p.xl, va := p.va, reduce := none, n := n, val := val }] } t else ask
    | _ => ask

/-- A part of a store enters the store buffer or the combining buffer. -/
def bufferPart (c val : Nat) (p : MedPart) (s : State) : State :=
  let v := bits val (8 * p.shift) (8 * p.n)
  if p.xl.region = 0 then
    let m := medlarOf s c
    noteSeg c p.xl (setMedlar c { m with sb := m.sb ++ [{ xl := p.xl, va := p.va, reduce := none, n := p.n, val := v }] } s)
  else combWrite c p.xl p.va p.n v s

/-- A Medlar store (R208, R214–R216). -/
def medlarStore (c w n val va : Nat) (m : Medlar) (s : State) : Eff :=
  let t := medlarTries s (medlarCtx m) needW va n
  match t.1, t.2.find? fun p => p.xl.region == 2 with
  | some b, _ => accessTrap b (medlarCtx m) true s
  | none, some p => strictStore c w n val p s
  | none, none =>
    if m.sb.length + (t.2.filter fun p => p.xl.region == 0).length > 64 then sbFull c s
    else
      let u := t.2.foldl (fun v p => bufferPart c val p v) s
      medlarNext c w (medlarOf u c) u

/-- A Medlar atomic: performed after every earlier store, it sends the combining buffer on its way (R211, R215).
[DEDUCED, unsafe: assumption 86] -/
def medlarAtomic (c w op : Nat) (f : MFields) (val cmp va : Nat) (m : Medlar) (s : State) : Eff :=
  let n := accessBytes f.width
  match tryAccess s (medlarCtx m) needRW n true va with
  | .bad e seg => accessTrap (e, va, seg) (medlarCtx m) true s
  | .ok x =>
    if !m.sb.isEmpty then .wait "an earlier store is not performed"
    else
      let t := drainComb c s
      let l := newLoad t (medlarOf t c) (.g f.d) n false 1 va
      let a : LaneAcc := { oneLane (va % 128) n (val % 2 ^ (8 * n)) with cmp := cmp % 2 ^ (8 * n) }
      .done (issueReq { plainReq (.medlar c) (.atomic op f.width) x va [a] with load := l.id } (beginLoad c w l t))

/-- A Medlar reduce-write enters the store buffer (R208). -/
def medlarReduce (c w op : Nat) (f : MFields) (val va : Nat) (m : Medlar) (s : State) : Eff :=
  let n := accessBytes f.width
  match tryAccess s (medlarCtx m) needW n true va with
  | .bad e seg => accessTrap (e, va, seg) (medlarCtx m) true s
  | .ok x =>
    if m.sb.length ≥ 64 then sbFull c s
    else medlarNext c w
      { m with sb := m.sb ++ [{ xl := x, va := va, reduce := some (op, f.width), n := n, val := val % 2 ^ (8 * n) }] } s

/-! ### The instructions (R180–R186) -/

/-- AM, SCALE and the predicate fields of an access. [DEDUCED, unsafe: assumption 82] -/
def modeOk (grp vector : Bool) (f : MFields) : Bool :=
  decide (f.am ≤ if grp then 2 else 1) && (f.am == 1 || f.scale == 0) && predOk grp vector f.pe f.pn f.preg

/-- LD and ST: WIDTH, SX, BENCH, LC and OPF, whose bit 31 is SD. [DEDUCED, unsafe: assumption 82] -/
def loadStoreOk (grp load : Bool) (f : MFields) : Bool :=
  let sd := f.opf == 1
  modeOk grp (!sd) f && decide (f.width ≤ if grp then 3 else 4) &&
  decide (f.opf ≤ if grp then 1 else 0) && (!sd || f.am == 0) &&
  (!f.sx || (load && decide (f.width ≤ if grp && !sd then 1 else 2))) && ((grp && load) || (!f.bench && !f.lc))

/-- The operations and widths of Table 6b that return a value, or do not. -/
def atomicOk (returns : Bool) (op width : Nat) : Bool :=
  if op ≤ 7 ∨ (returns ∧ (op = 8 ∨ op = 9)) then width == 2 || width == 3
  else if op = 10 then width == 1 || width == 2 || width == 3
  else op == 11 && width == 1

/-- AMO, CAS and RED: no SX, BENCH or LC. -/
def atomicFieldsOk (grp returns : Bool) (f : MFields) : Bool :=
  modeOk grp true f && atomicOk returns f.opf f.width && !f.sx && !f.bench && !f.lc

/-- The operand files of an access whose data lie in D. -/
def accessKinds (grp sd : Bool) (f : MFields) : OpKs :=
  if grp then
    { d := if sd then .sc else if f.width = 3 then .pair else .vec
      a := if f.am = 2 then .pair else .sc
      b := if f.am = 1 then .vec else .unused, c := .unused }
  else { d := if f.width = 4 then .vec else .sc, a := .sc, b := if f.am = 1 then .sc else .unused, c := .unused }

/-- A Medlar core's memory instruction, once its fields and registers are good. -/
def memMedlar (row : Row) (c w : Nat) (ok : Bool) (k : OpKs) (go : MFields → Medlar → State → Eff) (s : State) : Answer :=
  let f := mFields w
  issueMedlar row c w (fun m t => withRegs false 0 ok k f.d f.a f.b 0 (medlarCtx m) t (go f m t)) s

/-- A group's memory instruction, once its fields and registers are good. -/
def memGroup (row : Row) (g w beats : Nat) (ok : Bool) (k : OpKs) (go : MFields → Group → State → Eff) (s : State) : Answer :=
  let f := mFields w
  issueGroup row g w (usedRegs k f.d f.a f.b 0 f.pe f.preg) beats (fun x t =>
    withRegs true (regsCount (launchRaw t (launchKey g))) ok k f.d f.a f.b 0 (launchCtx t (launchKey g)) t (go f x t)) s

/-- LD (R181–R183). -/
def execLd (who : Agent) (w : Nat) (s : State) : Answer :=
  let f := mFields w
  let sd := f.opf == 1
  match who with
  | .medlar c =>
    memMedlar .ld c w (loadStoreOk false true f) (accessKinds false false f) (fun f m t =>
      let d : Dest := if f.width = 4 then .v512 f.d else .g f.d
      medlarLoad c w (d :: .g f.a :: (if f.am = 1 then [Dest.g f.b] else [])) d (accessBytes f.width) f.sx (medlarAddr f m) m t) s
  | .group g =>
    memGroup .ld g w (if sd then 0 else 1) (loadStoreOk true true f) (accessKinds true sd f) (fun f x t =>
      groupLoad g w f sd x t) s

/-- ST (R154, R181, R208). -/
def execSt (who : Agent) (w : Nat) (s : State) : Answer :=
  let f := mFields w
  let sd := f.opf == 1
  match who with
  | .medlar c =>
    memMedlar .st c w (loadStoreOk false false f) (accessKinds false false f) (fun f m t =>
      medlarStore c w (accessBytes f.width) (if f.width = 4 then mvReg m f.d else gReg m f.d % 2 ^ (8 * accessBytes f.width))
        (medlarAddr f m) m t) s
  | .group g =>
    memGroup .st g w (if sd then 0 else 1) (loadStoreOk true false f) (accessKinds true sd f) (fun f x t =>
      groupStore g w f sd x t) s

/-- AMO (R160, R184, R211). -/
def execAmo (who : Agent) (w : Nat) (s : State) : Answer :=
  let f := mFields w
  match who with
  | .medlar c =>
    memMedlar .amo c w (atomicFieldsOk false true f && f.opf != 9) (accessKinds false false f) (fun f m t =>
      medlarAtomic c w f.opf f (gReg m f.d) 0 (medlarAddr f m) m t) s
  | .group g =>
    memGroup .amo g w 1 (atomicFieldsOk true true f && f.opf != 9) (accessKinds true false f) (fun f x t =>
      groupAtomic g w f.opf f (fun i => (vOperand x.arch (8 * accessBytes f.width) f.d i, 0)) true x t) s

/-- CAS takes its new value in B, so AM 1 is not for it (R185). -/
def casOk (grp : Bool) (f : MFields) : Bool := atomicFieldsOk grp true f && f.am != 1

/-- CAS (R185). -/
def execCas (who : Agent) (w : Nat) (s : State) : Answer :=
  let f := mFields w
  match who with
  | .medlar c =>
    memMedlar .cas c w (casOk false f) { accessKinds false false f with b := .sc } (fun f m t =>
      medlarAtomic c w 9 f (gReg m f.b) (gReg m f.d) (medlarAddr f m) m t) s
  | .group g =>
    memGroup .cas g w 1 (casOk true f) { accessKinds true false f with b := if f.width = 3 then .pair else .vec } (fun f x t =>
      let b := 8 * accessBytes f.width
      groupAtomic g w 9 f (fun i => (vOperand x.arch b f.b i, vOperand x.arch b f.d i)) true x t) s

/-- RED (R184, R208). -/
def execRed (who : Agent) (w : Nat) (s : State) : Answer :=
  let f := mFields w
  match who with
  | .medlar c =>
    memMedlar .red c w (atomicFieldsOk false false f) (accessKinds false false f) (fun f m t =>
      medlarReduce c w f.opf f (gReg m f.d) (medlarAddr f m) m t) s
  | .group g =>
    memGroup .red g w 1 (atomicFieldsOk true false f) (accessKinds true false f) (fun f x t =>
      groupAtomic g w f.opf f (fun i => (vOperand x.arch (8 * accessBytes f.width) f.d i, 0)) false x t) s

/-- LOCAL: OPF bit 31 is the direction. -/
def localOk (f : MFields) : Bool :=
  modeOk true true f && decide (f.width ≤ 3) && decide (f.opf ≤ 1) && !f.bench && !f.lc &&
  (!f.sx || (f.opf == 0 && decide (f.width ≤ 1)))

/-- LOCAL (R155, R186). -/
def execLocalAccess (who : Agent) (w : Nat) (s : State) : Answer :=
  let f := mFields w
  match who with
  | .medlar c => issueMedlar .local_ c w (fun m t => bareTrap .illegal (medlarCtx m) t) s
  | .group g =>
    memGroup .local_ g w 1 (localOk f) { accessKinds true false f with a := if f.am = 2 then .vec else .sc } (fun f x t =>
      groupLocal g w f (f.opf == 1) x t) s

/-! ### What comes back -/

/-- A line that the launch read was corrected (R164). [DEDUCED, unsafe: assumption 90] -/
def noteCorrected (g : Nat) (s : State) : State :=
  match s.grp.launches.find (launchKey g) with
  | some l => { s with grp := { s.grp with launches := s.grp.launches.put (launchKey g) { l with corrected := true } } }
  | none => s

/-- A served plain load fills the L1 of the core it came from. -/
def fillFrom (r : Req) (s : State) : State :=
  match r.l1, r.data, lineOf r.xl, coreOfAgent s r.src with
  | true, some d, some line, some k => l1Fill k line (overlay d r.laidOver.1 r.laidOver.2) s
  | _, _, _, _ => s

/-- What a read's or atomic's end gives a group: the values of its lanes, or what they raise. -/
def groupReturn (g : Nat) (r : Req) (s : State) : State :=
  match r.st with
  | .served =>
    let t := fillFrom r (if r.corrected then noteCorrected g s else s)
    loadPart g r.load r.lanes [] t
  | .denied => loadPart g r.load [] (readFault s r .domainDenied) s
  | .refaulted => loadPart g r.load [] (readFault s r .segmentFault) s
  | .dropped => loadPart g r.load [] [] s
  | _ => loadPart g r.load [] (readFault s r .poisonRead) s

/-- A Medlar load or atomic that is refused traps at its instruction. -/
def medlarRefused (c : Nat) (cause : Cause) (r : Req) (s : State) : State :=
  medlarLoadBad c r.load r.va cause s

def medlarReturn (c : Nat) (r : Req) (s : State) : State :=
  let l := r.lanes.headD (oneLane 0 0 0)
  match r.st with
  | .served => medlarPart c r.load l.shift (if r.kind = .read then withHeld l.n l.cmp l.val l.res else l.res) false s
  | .denied => medlarRefused c .domainDenied r s
  | .refaulted => medlarRefused c .segmentFault r s
  | _ => medlarPart c r.load l.shift 0 true s

/-- The request's outcome is known. -/
def resolved (r : Req) : Bool :=
  match r.st with
  | .issued | .stale | .waitFill | .remote _ => false
  | _ => true

/-- Whether a request returns a value. -/
def ReqKind.returns : ReqKind → Bool
  | .write | .reduce _ _ => false
  | _ => true

/-- What a request's home, or Rowan, sends back can reach its agent (R14). -/
def answerOpen (s : State) (r : Req) : Bool :=
  routeOpen s (match lineOf r.xl with | some l => homeDie s l | none => 10) r.die

/-- LOAD_RETURN (R153, R197, R281): a read's or an atomic's data, refusal or poison comes back. -/
def execLoadReturn (req : Nat) (s : State) : Answer :=
  match s.reqs.find req with
  | none => stuck "no such request"
  | some r =>
    if !r.kind.returns || !resolved r then stuck "nothing returns"
    else if !answerOpen s r then stuck "the answer is held on a stalled link"
    else .next (match r.src with
      | .medlar c => medlarReturn c r (dropReq req s)
      | .group g => groupReturn g r (dropReq req s))

/-- A write that was abandoned or refused at the far end is kept for FENCE.SYS and for the launch (R191, R282).
[DEDUCED, unsafe: assumption 90] -/
def noteFailed (a : Agent) (f : RemoteFail) (s : State) : State :=
  match a with
  | .medlar c => let m := medlarOf s c; setMedlar c { m with abandoned := m.abandoned ++ [f] } s
  | .group g =>
    let t := match groupOf s g with
      | some x => setGroup g { x with abandoned := x.abandoned ++ [f] } s
      | none => s
    match t.grp.launches.find (launchKey g) with
    | some l =>
      let l2 : Launch := { l with failed := l.failed ++ [remoteStatus f] }
      { t with grp := { t.grp with launches := t.grp.launches.put (launchKey g) l2 } }
    | none => t

/-- WRITE_ACK (R154, R191): a store's or reduce-write's home, or its final target, answers. [DEDUCED, unsafe: assumption 90] -/
def execWriteAck (req : Nat) (s : State) : Answer :=
  match s.reqs.find req with
  | none => stuck "no such request"
  | some r =>
    if r.kind.returns then stuck "an atomic's acknowledgement comes with its data"
    else if !answerOpen s r then stuck "the answer is held on a stalled link"
    else match r.st with
      | .served => .next (dropReq req s)
      | .remoteFailed f => .next (noteFailed r.src f (dropReq req s))
      | _ => stuck "no acknowledgement is on its way"

/-- The fault that an imprecise report carries to a group. -/
def impreciseFault (s : State) (r : Req) (cause : Cause) : FaultInfo :=
  let va := laneVa r (r.lanes.headD (oneLane 0 0 0))
  let f := if cause = .domainDenied then deniedInfo s r.xl va true else accessFault cause va r.xl.seg r.xl.ctx true
  { f with imprecise := true }

/-- The report reaches a group: on a core it is switched out at its next boundary, a saved one adds its record, and for one
that has ended the record says so. [DEDUCED, unsafe: assumption 89] -/
def groupReport (g die : Nat) (f : FaultInfo) (s : State) : State :=
  match groupOf s g with
  | some x =>
    match x.place with
    | .saved n => bump (K.groupTraps + x.die) 1 (addFault (groupRecord g n x { f with time := label x.die s }) s)
    | _ => groupTrap g f s
  | none =>
    let v := takeFree s
    let r := taskRecord 1 die (v.1 % 256) (launchKey g) (bits (v.1 / 256) 0 64) { f with time := label die s }
    addFault { r with groupIndex := g % 2 ^ 32, ended := true } v.2

/-- The report's record would find neither the fault queue nor its waiting list open (R329). [DEDUCED, unsafe: assumption 89] -/
def reportHeld (g : Nat) (s : State) : Bool :=
  match groupOf s g with
  | some x => (match x.place with | .saved _ => faultListFull 1 s | _ => false)
  | none => faultListFull 1 s

/-- IMPRECISE_REPORT (R199): a refused write is not performed, and its core or group hears of it.
[DEDUCED, unsafe: assumption 89] -/
def execImpreciseReport (req : Nat) (s : State) : Answer :=
  match s.reqs.find req with
  | none => stuck "no such request"
  | some r =>
    let report (cause : Cause) : Answer :=
      if r.kind.returns then stuck "a read is refused at its instruction"
      else if !answerOpen s r then stuck "the answer is held on a stalled link"
      else
        let t := dropReq req s
        match r.src with
        | .medlar c =>
          let u := if (match r.kind with | .reduce _ _ => !r.missed | _ => false) then advanceHead r.src t else t
          .next (medlarReport c { cause := cause, va := r.va } u)
        | .group g =>
          if reportHeld g s then
            (if r.listHeld then stuck "the fault queue and its waiting list are full"
             else .next (bump K.faultListStalls 1 (setReq req { r with listHeld := true } s)))
          else .next (groupReport g r.die (impreciseFault s r cause) t)
    match r.st with
    | .denied => report .domainDenied
    | .refaulted => report .segmentFault
    | _ => stuck "the write is not refused"

/-! ### Retranslation (R290) -/

def kindNeed : ReqKind → Need
  | .read => needR
  | .fetch => needX
  | .atomic _ _ => needRW
  | _ => needW

/-- Whether the agent may make this request of a region (R182, R214). [DEDUCED, unsafe: assumption 88] -/
def regionFits (r : Req) (x : Xl) : Bool :=
  match r.kind, r.src with
  | .atomic _ _, _ => x.region == 0
  | .reduce _ _, _ => x.region == 0
  | _, .group _ => x.region != 2
  | _, .medlar _ => true

/-- A load's request became several. [DEDUCED, unsafe: assumption 88] -/
def moreParts (a : Agent) (id k : Nat) (s : State) : State :=
  match a with
  | .medlar _ => s
  | .group g =>
    match groupOf s g with
    | none => s
    | some x => setGroup g { x with loads := x.loads.map fun l => if l.id = id then { l with left := l.left + k } else l } s

/-- The request goes out again under its new translation; to a peer or a front-end each lane goes alone.
[DEDUCED, unsafe: assumption 88] -/
def reissue (req : Nat) (r : Req) (x : Xl) (s : State) : State :=
  match lineOf x, r.src, r.kind with
  | _, .medlar c, .read =>
    let l := r.lanes.headD (oneLane 0 0 0)
    startPart c { id := r.load, xl := x, va := r.va, n := l.n, shift := l.shift, held := l.cmp, heldVal := l.val } (dropReq req s)
  | some _, _, _ => setReq req { r with xl := x, st := .issued } s
  | none, _, _ =>
    let t := dropReq req s
    let u := if r.kind.returns then moreParts r.src r.load (r.lanes.length - 1) t else t
    r.lanes.foldl (fun v l =>
      let d := l.pos - r.va % 128
      let b := r.va % 128 - l.pos
      issueReq { r with xl := { x with target := (x.target.plus d).minus b }, va := laneVa r l, lanes := [l], l1 := false,
                        st := .issued } v) u

/-- REQUEST_RETRANSLATE (R290): a refused request is translated again and goes out again, or its fault is reported. -/
def execRequestRetranslate (req : Nat) (s : State) : Answer :=
  match s.reqs.find req with
  | none => stuck "no such request"
  | some r =>
    if r.st != .stale then stuck "the request is not refused for its generation"
    else match retranslate s r.xl.ctx r.va (kindNeed r.kind) with
      | .ok x =>
        .next (if regionFits r x then reissue req r x s else setReq req { r with st := .refaulted } (countSegFault s))
      | .fault _ => .next (setReq req { r with st := .refaulted } (countSegFault s))

end Sys2Proof.Machine
end

