-- ==== Sys2Proof/Machine/UrtexMx.lean ====
section
/-! DEFINITION. Matrix regions and the group-wide multiply-accumulate (R147–R151, R192, R193). -/

namespace Sys2Proof.Machine

/-- Every field of MXBEGIN and MXEND but OP is zero. -/
def mxPlain (w : Nat) : Bool :=
  let f := rFields w
  f.resv == 0 && f.aux == 0 && !f.s && f.a == 0 && f.b == 0 && f.d == 0

/-- An MX instruction: a group's, or ILLEGAL. -/
def issueMx (row : Row) (who : Agent) (w : Nat) (uses : List RReg) (go : Nat → Group → State → Eff) (s : State) : Answer :=
  match who with
  | .medlar c => issueMedlar row c w (fun m t => bareTrap .illegal (medlarCtx m) t) s
  | .group g => issueGroup row g w uses 0 (fun x t => go g x t) s

/-- MXBEGIN. -/
def execMxbegin (who : Agent) (w : Nat) (s : State) : Answer :=
  issueMx .mxbegin who w [] (fun g x t =>
    let ctx := launchCtx t (launchKey g)
    if !mxPlain w then bareTrap .illegal ctx t
    else if x.arch.region then bareTrap .matrixNested ctx t
    else if x.arch.mask ≠ BitVec.allOnes 32 then bareTrap .matrixDivergent ctx t
    else groupNext g w x { x.arch with region := true } t) s

/-- MXEND. -/
def execMxend (who : Agent) (w : Nat) (s : State) : Answer :=
  issueMx .mxend who w [] (fun g x t =>
    let ctx := launchCtx t (launchKey g)
    if !mxPlain w then bareTrap .illegal ctx t
    else if !x.arch.region then bareTrap .matrixNotOpen ctx t
    else groupNext g w x { x.arch with region := false } t) s

/-! ### MMA -/

/-- Element (r, k) of A and element (k, c) of B, as bits of the registers from a base on (Table 9). -/
def mmaA (fp8 : Bool) (a : Arch) (base r k : Nat) : Nat :=
  if fp8 then bits (vLane a (base + r / 4) (r % 4 * 8 + k / 4)) (8 * (k % 4)) 8
  else bits (vLane a (base + r / 4) (r % 4 * 8 + k / 2)) (16 * (k % 2)) 16

def mmaB (fp8 : Bool) (a : Arch) (base k c : Nat) : Nat :=
  if fp8 then bits (vLane a (base + k / 8) (k % 8 / 4 * 16 + c)) (8 * (k % 4)) 8
  else bits (vLane a (base + k / 4) (k % 4 / 2 * 16 + c)) (16 * (k % 2)) 16

/-- Element (r, c) of C: lane by lane of the registers from base on (R151). [DEDUCED, unsafe: assumption 34] -/
def mmaC (a : Arch) (base r c : Nat) : Nat := vLane a (base + r / 2) (r % 2 * 16 + c)

/-- An FP32 operand as the unit takes it: subnormals are zeros of their sign (R29). [DEDUCED, unsafe: assumption 34] -/
def flushIn (x : Nat) : FNum :=
  match fshape 1 with
  | some f =>
    match f.decode x with
    | .fin s m e => if f.belowNormal m e then .fin s 0 0 else .fin s m e
    | v => v
  | none => .nan

/-- Format of B: A's own, or the other FP8 format. -/
def mmaFmtB (fmt aux : Nat) : Nat := if aux = 0 then fmt else 9 - fmt

/-- Element (r, c) of D: an addend for each product, or at FP8's rate of ×2 for each two, in order, from C (R42–R44, R150). -/
def mmaElem (f : RFields) (a : Arch) (r c : Nat) : Nat :=
  let fp8 := decide (f.fmt ≥ 4)
  let ps := (List.range (if fp8 then 32 else 16)).map fun k =>
    FNum.mul (decodeFmt f.fmt (mmaA fp8 a f.a r k)) (decodeFmt (mmaFmtB f.fmt f.aux) (mmaB fp8 a f.b k c))
  let c0 := if f.s then FNum.zero else flushIn (mmaC a f.c r c)
  accTrunc32 (accFeed .fp32 (if fp8 then 2 else 1) 33 (Accum.start c0) ps).val

/-- The eight rows of D. -/
def mmaRows (f : RFields) (a : Arch) : List (BitVec 1024) :=
  (List.range 8).map fun i =>
    BitVec.ofNat 1024 (mergeEls 32 0 (fun _ => true) (fun l => mmaElem f a (2 * i + l / 16) (l % 16)) 32)

def mmaFieldsOk (f : RFields) : Bool :=
  f.resv == 0 && f.rm == 0 && !f.pe && !f.pn && f.preg == 0 && decide (2 ≤ f.fmt) && decide (f.fmt ≤ 5) &&
  (f.aux == 0 || (f.aux == 1 && decide (f.fmt ≥ 4))) && (!f.s || f.c == 0) &&
  f.a % 4 == 0 && f.b % 4 == 0 && f.c % 8 == 0 && f.d % 8 == 0

def mmaInRange (f : RFields) (regs : Nat) : Bool :=
  decide (f.a + 4 ≤ regs) && decide (f.b + 4 ≤ regs) && decide (f.d + 8 ≤ regs) && (f.s || decide (f.c + 8 ≤ regs))

def rowsFrom (b n : Nat) : List RReg := (List.range n).map fun i => .v (b + i)

/-- MMA: A, B and C are read now, and D is written when the result is ready. -/
def execMma (who : Agent) (w : Nat) (s : State) : Answer :=
  let f := rFields w
  let uses := rowsFrom f.a 4 ++ rowsFrom f.b 4 ++ rowsFrom f.d 8 ++ (if f.s then [] else rowsFrom f.c 8)
  issueMx .mma who w uses (fun g x t =>
    let ctx := launchCtx t (launchKey g)
    if !mmaFieldsOk f then bareTrap .illegal ctx t
    else if !mmaInRange f (regsCount (launchRaw t (launchKey g))) then bareTrap .regRange ctx t
    else if !x.arch.region then bareTrap .matrixOutside ctx t
    else groupNext g w x { x.arch with mma := x.arch.mma ++ [(f.d, mmaRows f x.arch)] } t) s

/-- A matrix result is written to its eight registers. -/
def writeRows : Nat → List (BitVec 1024) → Arch → Arch
  | _, [], a => a
  | d, r :: rs, a => writeRows (d + 1) rs { a with v := a.v.set 0#1024 d r }

/-- The oldest result of an architectural state is written, when it is this one. -/
def mmaWrite (e : Nat × List (BitVec 1024)) (a : Arch) : Arch :=
  if a.mma.contains e then writeRows e.1 e.2 { a with mma := a.mma.erase e } else a

/-- MMA_RESULT (R193): the oldest result in flight is written, also in what pending loads would restore. -/
def execMmaResult (g : Nat) (s : State) : Answer :=
  match groupOf s g with
  | none => stuck "no such group"
  | some x =>
    match x.arch.mma with
    | [] => stuck "no matrix result is in flight"
    | e :: _ =>
      .next (setGroup g { x with arch := mmaWrite e x.arch
                                 loads := x.loads.map fun l => { l with saved := l.saved.map (mmaWrite e) } } s)

end Sys2Proof.Machine
end

