-- ==== Sys2Proof/Machine/Dispatch.lean ====
section
/-! DEFINITION. One arm for every command: its meaning, or its rejection by name. -/

namespace Sys2Proof.Machine

def exec (i : Instr) (s : State) : Host.Outcome State Fault Refusal :=
  match i with
  | .powerUp strapPins absentClocks => Sys2Proof.Machine.execPowerUp strapPins absentClocks s
  | .resetRelease => Sys2Proof.Machine.execResetRelease s
  | .resetAssert => Sys2Proof.Machine.execResetAssert s
  | .powerRemoval => Sys2Proof.Machine.execPowerRemoval s
  | .refclkLoss clk => Sys2Proof.Machine.execRefclkLoss clk s
  | .stageLoaderLoad slotA slotB peer => Sys2Proof.Machine.execStageLoaderLoad slotA slotB peer s
  | .peerBootTimeout => Sys2Proof.Machine.execPeerBootTimeout s
  | .peerBootRequest lport => Sys2Proof.Machine.execPeerBootRequest lport s
  | .bootLoadData src bytes => Sys2Proof.Machine.execBootLoadData src bytes s
  | .bootLoadGo src len => Sys2Proof.Machine.execBootLoadGo src len s
  | .settSelfTest failed => Sys2Proof.Machine.execSettSelfTest failed s
  | .configApply slotA slotB => Sys2Proof.Machine.execConfigApply slotA slotB s
  | .hbmTraining best => Sys2Proof.Machine.execHbmTraining best s
  | .imageLoad slotA slotB bases => Sys2Proof.Machine.execImageLoad slotA slotB bases s
  | .runtimeStart fwPage winPage bootInfo => Sys2Proof.Machine.execRuntimeStart fwPage winPage bootInfo s
  | .bootDone => Sys2Proof.Machine.execBootDone s
  | .settStall link rev since => Sys2Proof.Machine.execSettStall link rev since s
  | .beatRateUpdate rates => Sys2Proof.Machine.execBeatRateUpdate rates s
  | .faceOp q seq face => Sys2Proof.Machine.execFaceOp q seq face s
  | .faceOpStart die => Sys2Proof.Machine.execFaceOpStart die s
  | .tileCommit die order => Sys2Proof.Machine.execTileCommit die order s
  | .faceSwitchOut die => Sys2Proof.Machine.execFaceSwitchOut die s
  | .faceOpComplete die => Sys2Proof.Machine.execFaceOpComplete die s
  | .faceLfsrSeed src die seed => Sys2Proof.Machine.execFaceLfsrSeed src die seed s
  | .brambleRoute q seq => Sys2Proof.Machine.execBrambleRoute q seq s
  | .brambleGather die => Sys2Proof.Machine.execBrambleGather die s
  | .brambleIssue die => Sys2Proof.Machine.execBrambleIssue die s
  | .routeComplete q seq => Sys2Proof.Machine.execRouteComplete q seq s
  | .brambleCombine q seq order => Sys2Proof.Machine.execBrambleCombine q seq order s
  | .groupLaunch q seq => Sys2Proof.Machine.execGroupLaunch q seq s
  | .groupStart die core => Sys2Proof.Machine.execGroupStart die core s
  | .groupSwitchOut g => Sys2Proof.Machine.execGroupSwitchOut g s
  | .groupResume g core => Sys2Proof.Machine.execGroupResume g core s
  | .launchComplete q seq => Sys2Proof.Machine.execLaunchComplete q seq s
  | .int who w => Sys2Proof.Machine.execInt who w s
  | .inti who w => Sys2Proof.Machine.execInti who w s
  | .move who w => Sys2Proof.Machine.execMove who w s
  | .pred who w => Sys2Proof.Machine.execPred who w s
  | .fp who w => Sys2Proof.Machine.execFp who w s
  | .fcvt who w => Sys2Proof.Machine.execFcvt who w s
  | .ld who w => Sys2Proof.Machine.execLd who w s
  | .st who w => Sys2Proof.Machine.execSt who w s
  | .amo who w => Sys2Proof.Machine.execAmo who w s
  | .cas who w => Sys2Proof.Machine.execCas who w s
  | .red who w => Sys2Proof.Machine.execRed who w s
  | .localAccess who w => Sys2Proof.Machine.execLocalAccess who w s
  | .br who w => Sys2Proof.Machine.execBr who w s
  | .jal who w => Sys2Proof.Machine.execJal who w s
  | .jalr who w => Sys2Proof.Machine.execJalr who w s
  | .brx who w => Sys2Proof.Machine.execBrx who w s
  | .fenceSl who w => Sys2Proof.Machine.execFenceSl who w s
  | .fenceWc who w => Sys2Proof.Machine.execFenceWc who w s
  | .fenceI who w => Sys2Proof.Machine.execFenceI who w s
  | .fenceRel who w => Sys2Proof.Machine.execFenceRel who w s
  | .fenceAcq who w => Sys2Proof.Machine.execFenceAcq who w s
  | .fenceSys who w => Sys2Proof.Machine.execFenceSys who w s
  | .fenceSysResolve who => Sys2Proof.Machine.execFenceSysResolve who s
  | .mxbegin who w => Sys2Proof.Machine.execMxbegin who w s
  | .mxend who w => Sys2Proof.Machine.execMxend who w s
  | .mma who w => Sys2Proof.Machine.execMma who w s
  | .nopInstruction who w => Sys2Proof.Machine.execNopInstruction who w s
  | .endGroup who w => Sys2Proof.Machine.execEndGroup who w s
  | .tret who w => Sys2Proof.Machine.execTret who w s
  | .trap who w => Sys2Proof.Machine.execTrap who w s
  | .crr who w => Sys2Proof.Machine.execCrr who w s
  | .crw who w => Sys2Proof.Machine.execCrw who w s
  | .impreciseReport req => Sys2Proof.Machine.execImpreciseReport req s
  | .loadReturn req => Sys2Proof.Machine.execLoadReturn req s
  | .writeAck req => Sys2Proof.Machine.execWriteAck req s
  | .storeBufferDrain core => Sys2Proof.Machine.execStoreBufferDrain core s
  | .prefetch core va => Sys2Proof.Machine.execPrefetch core va s
  | .readShared core line => Sys2Proof.Machine.execReadShared core line s
  | .readOwn core line => Sys2Proof.Machine.execReadOwn core line s
  | .upgrade core line => Sys2Proof.Machine.execUpgrade core line s
  | .writeBack core line => Sys2Proof.Machine.execWriteBack core line s
  | .cleanEvict core line => Sys2Proof.Machine.execCleanEvict core line s
  | .snpShared core line => Sys2Proof.Machine.execSnpShared core line s
  | .snpOwn core line => Sys2Proof.Machine.execSnpOwn core line s
  | .snpClean core line => Sys2Proof.Machine.execSnpClean core line s
  | .snpInval core line => Sys2Proof.Machine.execSnpInval core line s
  | .snoopResponse core line => Sys2Proof.Machine.execSnoopResponse core line s
  | .lineArrival core line => Sys2Proof.Machine.execLineArrival core line s
  | .holdWindowExpiry core line => Sys2Proof.Machine.execHoldWindowExpiry core line s
  | .benchRead req => Sys2Proof.Machine.execBenchRead req s
  | .benchWrite req => Sys2Proof.Machine.execBenchWrite req s
  | .benchAtomic req => Sys2Proof.Machine.execBenchAtomic req s
  | .benchReduceWrite req => Sys2Proof.Machine.execBenchReduceWrite req s
  | .benchFill line inner => Sys2Proof.Machine.execBenchFill line inner s
  | .hbmSchedule pc pick => Sys2Proof.Machine.execHbmSchedule pc pick s
  | .wcbHoldExpiry ctl line => Sys2Proof.Machine.execWcbHoldExpiry ctl line s
  | .bwWindowEnd ctl => Sys2Proof.Machine.execBwWindowEnd ctl s
  | .refresh stack => Sys2Proof.Machine.execRefresh stack s
  | .stackTempRead stack temp => Sys2Proof.Machine.execStackTempRead stack temp s
  | .scrubRead stack inner => Sys2Proof.Machine.execScrubRead stack inner s
  | .localGib src v => Sys2Proof.Machine.execLocalGib src v s
  | .tableLoad src v => Sys2Proof.Machine.execTableLoad src v s
  | .tableLoadComplete => Sys2Proof.Machine.execTableLoadComplete s
  | .tableBaseWrite src sub v => Sys2Proof.Machine.execTableBaseWrite src sub v s
  | .claimAssign src v => Sys2Proof.Machine.execClaimAssign src v s
  | .claimEraseDone => Sys2Proof.Machine.execClaimEraseDone s
  | .peerRequest conn p => Sys2Proof.Machine.execPeerRequest conn p s
  | .feInboundRdma conn => Sys2Proof.Machine.execFeInboundRdma conn s
  | .segUpdate q seq => Sys2Proof.Machine.execSegUpdate q seq s
  | .segUpdateGrant q seq point => Sys2Proof.Machine.execSegUpdateGrant q seq point s
  | .requestRetranslate req => Sys2Proof.Machine.execRequestRetranslate req s
  | .segUpdateComplete q seq => Sys2Proof.Machine.execSegUpdateComplete q seq s
  | .queueOpen src q => Sys2Proof.Machine.execQueueOpen src q s
  | .queueClose src q => Sys2Proof.Machine.execQueueClose src q s
  | .queueCloseDone q => Sys2Proof.Machine.execQueueCloseDone q s
  | .doorbell conn payload => Sys2Proof.Machine.execDoorbell conn payload s
  | .qDoorbell src q v => Sys2Proof.Machine.execQDoorbell src q v s
  | .qCplHead src q v => Sys2Proof.Machine.execQCplHead src q v s
  | .sendDiscard conn len => Sys2Proof.Machine.execSendDiscard conn len s
  | .rocePacketDiscard conn => Sys2Proof.Machine.execRocePacketDiscard conn s
  | .commandFetch q => Sys2Proof.Machine.execCommandFetch q s
  | .seqReread q => Sys2Proof.Machine.execSeqReread q s
  | .commandStart q => Sys2Proof.Machine.execCommandStart q s
  | .completionRecordWrite q => Sys2Proof.Machine.execCompletionRecordWrite q s
  | .fence q seq => Sys2Proof.Machine.execFence q seq s
  | .signal q seq => Sys2Proof.Machine.execSignal q seq s
  | .wait q seq => Sys2Proof.Machine.execWait q seq s
  | .waitPoll q seq => Sys2Proof.Machine.execWaitPoll q seq s
  | .abort q seq => Sys2Proof.Machine.execAbort q seq s
  | .inlineWrite q seq => Sys2Proof.Machine.execInlineWrite q seq s
  | .shot q seq => Sys2Proof.Machine.execShot q seq s
  | .nop q seq => Sys2Proof.Machine.execNop q seq s
  | .haulCopy q seq => Sys2Proof.Machine.execHaulCopy q seq s
  | .haulFill q seq => Sys2Proof.Machine.execHaulFill q seq s
  | .haulPiece unit engine => Sys2Proof.Machine.execHaulPiece unit engine s
  | .haulComplete q seq => Sys2Proof.Machine.execHaulComplete q seq s
  | .taskSwitchOut kind unit index => Sys2Proof.Machine.execTaskSwitchOut kind unit index s
  | .faultQHead src v => Sys2Proof.Machine.execFaultQHead src v s
  | .faultResume src handle => Sys2Proof.Machine.execFaultResume src handle s
  | .faultEnd src handle => Sys2Proof.Machine.execFaultEnd src handle s
  | .portRetrain src port v => Sys2Proof.Machine.execPortRetrain src port v s
  | .portTrainingDone lport r => Sys2Proof.Machine.execPortTrainingDone lport r s
  | .portRetry lport => Sys2Proof.Machine.execPortRetry lport s
  | .laneLockLoss lport => Sys2Proof.Machine.execLaneLockLoss lport s
  | .retrainTimeout lport => Sys2Proof.Machine.execRetrainTimeout lport s
  | .flitReceive lport flitSeq crcOk fec h => Sys2Proof.Machine.execFlitReceive lport flitSeq crcOk fec h s
  | .pfcPause lport prio pause => Sys2Proof.Machine.execPfcPause lport prio pause s
  | .transitPacket lport dest hops vc => Sys2Proof.Machine.execTransitPacket lport dest hops vc s
  | .routeWrite src v => Sys2Proof.Machine.execRouteWrite src v s
  | .connWrite src record => Sys2Proof.Machine.execConnWrite src record s
  | .abandonedClear src v => Sys2Proof.Machine.execAbandonedClear src v s
  | .transportAck txn refused poison data => Sys2Proof.Machine.execTransportAck txn refused poison data s
  | .transportResend txn => Sys2Proof.Machine.execTransportResend txn s
  | .linkTimeout txn => Sys2Proof.Machine.execLinkTimeout txn s
  | .roceResponse conn kind psn data => Sys2Proof.Machine.execRoceResponse conn kind psn data s
  | .roceAckTimeout conn => Sys2Proof.Machine.execRoceAckTimeout conn s
  | .ecnMarkedPacket conn => Sys2Proof.Machine.execEcnMarkedPacket conn s
  | .cnpReceive conn => Sys2Proof.Machine.execCnpReceive conn s
  | .rateIncrease conn => Sys2Proof.Machine.execRateIncrease conn s
  | .pressCollective q seq => Sys2Proof.Machine.execPressCollective q seq s
  | .pressParameterMessage conn seqNo m => Sys2Proof.Machine.execPressParameterMessage conn seqNo m s
  | .pressReadyMessage conn seqNo domain collId => Sys2Proof.Machine.execPressReadyMessage conn seqNo domain collId s
  | .pressAbortNotice conn seqNo domain collId => Sys2Proof.Machine.execPressAbortNotice conn seqNo domain collId s
  | .pressChunk conn collId ch => Sys2Proof.Machine.execPressChunk conn collId ch s
  | .pressDataTimeout q seq rank => Sys2Proof.Machine.execPressDataTimeout q seq rank s
  | .collectiveComplete q seq => Sys2Proof.Machine.execCollectiveComplete q seq s
  | .windowStart e => Sys2Proof.Machine.execWindowStart e s
  | .avsTimeout rail => Sys2Proof.Machine.execAvsTimeout rail s
  | .weighStationStart die => Sys2Proof.Machine.execWeighStationStart die s
  | .thermalSensorRead die hottest => Sys2Proof.Machine.execThermalSensorRead die hottest s
  | .envelopeMaxW src v => Sys2Proof.Machine.execEnvelopeMaxW src v s
  | .dictWrite src key v => Sys2Proof.Machine.execDictWrite src key v s
  | .hdpRequest path msg => Sys2Proof.Machine.execHdpRequest path msg s
  | .eventSend sub => Sys2Proof.Machine.execEventSend sub s
  | .windowSlotStore core => Sys2Proof.Machine.execWindowSlotStore core s
  | .blobApertureStore core => Sys2Proof.Machine.execBlobApertureStore core s
  | .lockSet src g v => Sys2Proof.Machine.execLockSet src g v s
  | .mgmtSettingsApply => Sys2Proof.Machine.execMgmtSettingsApply s
  | .mgmtModeFallback => Sys2Proof.Machine.execMgmtModeFallback s
  | .arpRequest ip => Sys2Proof.Machine.execArpRequest ip s
  | .neighbourDiscovery ip => Sys2Proof.Machine.execNeighbourDiscovery ip s
  | .icmpEcho ip tag => Sys2Proof.Machine.execIcmpEcho ip tag s
  | .fwOverride src bytes => Sys2Proof.Machine.execFwOverride src bytes s
  | .ownerKeyDigest src dbg bytes => Sys2Proof.Machine.execOwnerKeyDigest src dbg bytes s
  | .minSecRaise src v => Sys2Proof.Machine.execMinSecRaise src v s
  | .measExtend src bytes => Sys2Proof.Machine.execMeasExtend src bytes s
  | .attestNonce src bytes => Sys2Proof.Machine.execAttestNonce src bytes s
  | .attestReportDone => Sys2Proof.Machine.execAttestReportDone s
  | .debugToken src bytes => Sys2Proof.Machine.execDebugToken src bytes s
  | .idcode => Sys2Proof.Machine.execIdcode s
  | .bypass => Sys2Proof.Machine.execBypass s
  | .samplePreload pins preload => Sys2Proof.Machine.execSamplePreload pins preload s
  | .extest v => Sys2Proof.Machine.execExtest v s
  | .dbgToken bytes => Sys2Proof.Machine.execDbgToken bytes s
  | .shotFire src v => Sys2Proof.Machine.execShotFire src v s
  | .shotIn heldNs => Sys2Proof.Machine.execShotIn heldNs s
  | .shotlineMessage conn node tag => Sys2Proof.Machine.execShotlineMessage conn node tag s
  | .snapLatchDone => Sys2Proof.Machine.execSnapLatchDone s
  | .ptpSync m => Sys2Proof.Machine.execPtpSync m s
  | .ptpFollowUp m => Sys2Proof.Machine.execPtpFollowUp m s
  | .ptpDelayResp m => Sys2Proof.Machine.execPtpDelayResp m s
  | .ptpSyncTimeout => Sys2Proof.Machine.execPtpSyncTimeout s
  | .counterClear src v => Sys2Proof.Machine.execCounterClear src v s
  | .eventRaise id => Sys2Proof.Machine.execEventRaise id s
  | .eventQHead src v => Sys2Proof.Machine.execEventQHead src v s
  | .errSummaryClear src v => Sys2Proof.Machine.execErrSummaryClear src v s
  | .mmaResult g => Sys2Proof.Machine.execMmaResult g s
  | .mgmtLinkUp speed => Sys2Proof.Machine.execMgmtLinkUp speed s
  | .mgmtLinkDown => Sys2Proof.Machine.execMgmtLinkDown s
  | .refclkReturn clk => Sys2Proof.Machine.execRefclkReturn clk s

end Sys2Proof.Machine
end

