-- ==== Sys2Proof/Machine/Step.lean ====
section
/-! DEFINITION. One step: the command at the front of the queue, or, on an empty queue, one nanosecond. -/

namespace Sys2Proof.Machine

/-- One nanosecond in which nothing is commanded (assumption 3): the clock of every interval advances.
[DESIGN CHOICE, unsafe: assumption 3] -/
def idle (s : State) : State := { s with time := { s.time with now := s.time.now + 1 } }

/-- The command at the front of the queue is taken and has its effect; an empty queue lets time pass. -/
def step (s : State) : Host.Outcome State Fault Refusal :=
  match s.pending with
  | [] => .next (idle s)
  | c :: rest => exec c { s with pending := rest }

/-- s with the command that a word spells put at the front of its queue. [DESIGN CHOICE, unsafe: assumption 1] -/
def State.withFetchWord (s : State) (nbits w : Nat) : State :=
  match decodeTableWord nbits w with
  | some c => { s with pending := c :: s.pending }
  | none => s

end Sys2Proof.Machine
end

