-- ==== Sys2Proof/Safety.lean ====
section
/-! DEFINITION. The terms in which the statements speak: what a command completing means, what writes leave alone, and the
canonical form of memory. -/

namespace Sys2Proof.Machine

/-- The stacked memory's contents are in canonical form. -/
def HbmCanonical (s : State) : Prop := Memory.wf s.mem.hbm = true

/-- The command completes from s, in a state of which P holds. -/
def Completes (c : Instr) (s : State) (P : State → Prop) : Prop := ∃ t, exec c s = .next t ∧ P t

/-- No byte of stacked memory moves from s to t, in HBM, its controllers or the Benches; only lines that were given to
units' steps are used up. -/
def MemoryKept (s t : State) : Prop := t.mem = { s.mem with given := t.mem.given }

/-- The command j, which s keeps under this key, has completed in t with this status and DETAIL: it has left its queue's
started commands, and its record waits for its ring slot, unless QUIET, a closed queue or an ended epoch forbids it
(R301, R324, R335). -/
def Completed (key : Nat) (o : Status) (detail : Nat) (j : Job) (s t : State) : Prop :=
  t.jobs.find key = none ∧ keySeq key ∉ (queueOf t (keyQueue key)).live ∧
  (j.gone = false → j.mute = false → (j.quiet = false ∨ (o ≠ .done ∧ o ≠ .doneCorrected)) →
    (queueOf s (keyQueue key)).cplDead = false →
    ∃ c, (queueOf t (keyQueue key)).cplWait = (queueOf s (keyQueue key)).cplWait ++ [c] ∧ c.seq = keySeq key ∧
      c.status = o ∧ c.opcode = j.opcode ∧ c.tag = j.tag ∧ c.detail = detail)

/-- The descriptor of a command is at hand: it is generation 2's own words, or it has been read. -/
def Job.hasDesc (j : Job) : Prop := j.gen = 2 ∨ j.staged = true

/-- The state in which a unit begins with a command whose descriptor it has. -/
def began (key : Nat) (s : State) : State := runJob key (dropArrived (.job key) s)

/-- The route or combine that a command (q, seq) brings to its turn on a Bramble: from the Bramble's waiting list, one that
waits in the middle of its work, or a new one on an idle Bramble; t is the state in which it runs there (R114). -/
def RouteStands (q seq die : Nat) (r : Route) (s t : State) : Prop :=
  leaveWaiting (jobKey q seq) s = some (die, r, t) ∨
  (leaveWaiting (jobKey q seq) s = none ∧ onBramble (jobKey q seq) s = some (die, r) ∧ t = s) ∨
  (leaveWaiting (jobKey q seq) s = none ∧ onBramble (jobKey q seq) s = none ∧ die = rSel r.raw ∧
    (∃ j, handed s q seq (if r.combine then 0x07 else 0x06) = some j ∧ j.hasDesc ∧
      r = Route.start (jobKey q seq) j.ctx j.raw r.combine) ∧
    (if r.combine then combineCheck r.raw else routeCheck r.raw) = none ∧
    (r.combine = false → s.pkg = .restricted → rIssue r.raw = false) ∧
    (brambleOf s die).run = none ∧ (brambleOf s die).waiting = [] ∧
    t = setBramble die { brambleOf s die with run := some r } (began (jobKey q seq) s))

/-- Medlar core c may issue the instruction word w of this row now: nothing holds it, only a load issues behind a load that
has not returned, and its words can be fetched (R196, R198, R204, R206). [DEDUCED, safe: assumption 25] -/
def MedlarIssues (row : Row) (c w : Nat) (s : State) : Prop :=
  medlarWaits s c = none ∧ rowOf w = some row ∧ ((medlarOf s c).loads = [] ∨ row = .ld) ∧
  (fetchInstr (some c) (medlarCtx (medlarOf s c)) (medlarOf s c).pc.toNat (wsize w) s).1 = none

/-- Group g, which is x, may issue the instruction word w of this row now, and its words can be fetched (R134, R198). -/
def GroupIssues (row : Row) (g w : Nat) (uses : List RReg) (x : Group) (s : State) : Prop :=
  groupOf s g = some x ∧ groupWaits s x uses = none ∧ rowOf w = some row ∧
  (fetchInstr none (launchCtx s (launchKey g)) x.arch.pc.toNat (wsize w) s).1 = none

/-- Registers per lane of the group's launch (R136). -/
def groupRegs (s : State) (g : Nat) : Nat := regsCount (launchRaw s (launchKey g))

/-- A Medlar instruction's fields are legal and its registers exist (R173, R198). -/
def MedlarRegs (ok : Bool) (k : OpKs) (f : RFields) : Prop :=
  ok = true ∧ regCause false 0 k f.d f.a f.b f.c = none

/-- A group's instruction's fields are legal and its registers exist and lie in range (R173, R198). -/
def GroupRegs (s : State) (g : Nat) (ok : Bool) (k : OpKs) (f : RFields) : Prop :=
  ok = true ∧ regCause true (groupRegs s g) k f.d f.a f.b f.c = none

/-- A Medlar memory instruction's fields are legal and its registers exist (R180, R198). -/
def MedlarMemRegs (ok : Bool) (k : OpKs) (f : MFields) : Prop :=
  ok = true ∧ regCause false 0 k f.d f.a f.b 0 = none

/-- A group's memory instruction's fields are legal and its registers exist and lie in range (R180, R198). -/
def GroupMemRegs (s : State) (g : Nat) (ok : Bool) (k : OpKs) (f : MFields) : Prop :=
  ok = true ∧ regCause true (groupRegs s g) k f.d f.a f.b 0 = none

/-- The registers a group's memory instruction uses. -/
def memUses (k : OpKs) (f : MFields) : List RReg := usedRegs k f.d f.a f.b 0 f.pe f.preg

/-- The request stands at its line's home and nothing refuses or holds it there; the Bench has the line whole and sound, and
no Medlar core holds it (R219, R224, R240, R249, R276, R290). -/
def ReadyAtHome (id line : Nat) (r : Req) (b : BLine) (s : State) : Prop :=
  s.reqs.find id = some r ∧ lineOf r.xl = some line ∧ r.st = .issued ∧ r.missed = false ∧ olderMeets s id r = false ∧
  routeOpen s r.die (homeDie s line) = true ∧ s.coh.txns.find line = none ∧ sliceHeld s (homeSlice s line) = false ∧
  genEarly s (homeSlice s line) r.xl = false ∧ genOk s (homeSlice s line) r.xl = true ∧
  (∀ o, r.xl.target = .memory o → domainOk s r.xl.domain o r.kind.writes = true) ∧ siblingRefused s id r = false ∧
  (dirOf s line).holders = [] ∧ (dirOf s line).owned = false ∧ s.mem.bench.find line = some b ∧
  b.valid = BitVec.allOnes 128 ∧ b.poison = false

/-- Core c holds m but for the pc, which stands behind the word w. -/
def medlarRetired (c w : Nat) (m : Medlar) (s : State) : State :=
  setMedlar c { m with pc := m.pc + BitVec.ofNat 64 (wsize w) } s

/-- Group g holds a and goes on behind the word w; the beats are counted. -/
def groupRetired (g w beats : Nat) (x : Group) (a : Arch) (s : State) : State :=
  bump (K.groupIssueBeats + x.die) beats (setGroup g { x with arch := goNext w a } s)

/-- From s to t Medlar core c has moved behind the word w, and only register d of its g and v registers, and FPFLAGS, have
changed; free values may have been counted. -/
def MedlarWrites (c w d : Nat) (s t : State) : Prop :=
  medlarOf t c = { medlarOf s c with g := (medlarOf t c).g, v := (medlarOf t c).v, fpflags := (medlarOf t c).fpflags,
                                     pc := (medlarOf s c).pc + BitVec.ofNat 64 (wsize w) } ∧
  (∀ r, r ≠ d → (medlarOf t c).g.get 0#64 r = (medlarOf s c).g.get 0#64 r ∧
    (medlarOf t c).v.get 0#512 r = (medlarOf s c).v.get 0#512 r) ∧
  (∀ k, k ≠ c → medlarOf t k = medlarOf s k) ∧ t = { s with medlars := t.medlars, freeN := t.freeN }

/-- From s to t group g, which is x, has moved behind the word w with the registers of a, of which only register d, the one
behind it in operations on pairs, and FPFLAGS differ from its own; the beats are counted, and free values may have been. -/
def GroupWrites (g w beats d : Nat) (pair : Bool) (x : Group) (a : Arch) (s t : State) : Prop :=
  a = { x.arch with v := a.v, s := a.s, p := a.p, fpflags := a.fpflags } ∧
  (∀ r, r ≠ d → (pair = true → r ≠ d + 1) → a.v.get 0#1024 r = x.arch.v.get 0#1024 r) ∧
  (∀ r, r ≠ d → a.s.get 0#64 r = x.arch.s.get 0#64 r ∧ a.p.get 0#32 r = x.arch.p.get 0#32 r) ∧
  t = groupRetired g w beats x a { s with freeN := t.freeN }

/-- Every part of a group's access has left the group as a request of this kind for its line, with its lanes, for the
pending load of this number (R160). -/
def PartsSent (g : Nat) (k : ReqKind) (load : Nat) (ps : List LanePart) (t : State) : Prop :=
  ∀ p, p ∈ ps → ∃ id r, t.reqs.find id = some r ∧ r.src = .group g ∧ r.kind = k ∧ r.xl = p.xl ∧ r.va = p.va ∧
    r.lanes = p.lanes ∧ r.load = load

/-- The command by which a snoop of this kind reaches a core. -/
def snoopCmd : SnoopKind → Nat → Nat → Instr
  | .shared, c, line => .snpShared c line
  | .own, c, line => .snpOwn c line
  | .clean, c, line => .snpClean c line
  | .inval, c, line => .snpInval c line

/-- A snoop of this kind for a line stands before its core: nothing holds it on its way, no grant of the line is still on its
way there, and rest are the other messages (R222). -/
def SnoopStands (k : SnoopKind) (c line : Nat) (m : CohMsg) (rest : List CohMsg) (s : State) : Prop :=
  takeFirst (isSnoop c line k) s.coh.msgs = some (m, rest) ∧ routeOpen s (homeDie s line) (dieOfCore c) = true ∧
  s.coh.msgs.any (isGrant c line) = false

/-- A core's request of this kind stands at its line's home, where nothing refuses or holds it (R14, R219, R249, R276, R290). -/
def AskStands (k : CohKind) (wr : Bool) (c line : Nat) (s : State) : Prop :=
  ∃ x va d o, coreReq s c line k = some (x, va, false, d) ∧ s.coh.txns.find line = none ∧
    sliceHeld s (homeSlice s line) = false ∧ routeOpen s (dieOfCore c) (homeDie s line) = true ∧
    genEarly s (homeSlice s line) x = false ∧ genOk s (homeSlice s line) x = true ∧ x.target = .memory o ∧
    domainOk s x.domain o wr = true

/-- A core may evict a line it holds: the hold window is over, no grant of the line is on its way, and its link is open
(R14, R222, R228). -/
def MayEvict (c line : Nat) (s : State) : Prop :=
  heldUntil s c line ≤ s.time.now ∧ s.coh.msgs.any (isGrant c line) = false ∧
  routeOpen s (dieOfCore c) (homeDie s line) = true

/-- From s to t no line of the Benches and no byte of HBM changes; a line may have been accessed (R239). -/
def LinesKept (s t : State) : Prop := t.mem = { s.mem with ways := t.mem.ways, accesses := t.mem.accesses }

/-- t differs from s in records alone: dictionary values, events on their way, and the count of free values. -/
def OnlyRecords (s t : State) : Prop := t = { s with dict := t.dict, ev := t.ev, freeN := t.freeN }

/-- A write of the entry from outside meets no refusal that the entry itself gives (R391). -/
def Writable (s : State) (key : Nat) : Prop := alive s = true ∧ writeCheck s key = 0

end Sys2Proof.Machine
end

