-- ==== Sys2Proof/Certificates/Slice0/Obligations.lean ====
section
/-! DEFINITION. The statements about the model that the provers are asked for. -/

open Sys2Proof Sys2Proof.Machine

/-- R461, R462: with the rails down, POWER_UP raises them with RESET_N low, the straps and clocks as the board drives them,
and nothing else changes; with the rails up and REFCLK_TIME present, RESET_RELEASE samples the straps and begins step 1, with
the time of day counting from that moment; memory, queues and fuses stay, but for an empty key store. -/
def Obligations.PowerAndResetBegin : Prop :=
  (∀ (p c : Nat) (s : State), s.board.railsUp = false →
    ∃ t, exec (.powerUp p c) s = .next t ∧ t.board.railsUp = true ∧ t.board.running = false ∧
      t.board.strapPins = p % 65536 ∧ t.board.clocksAbsent = c % 65536 ∧ alive t = false ∧ t = { s with board := t.board }) ∧
  (∀ s : State, s.board.railsUp = true → s.board.running = false → bit s.board.clocksAbsent 15 = false →
    ∃ t, exec .resetRelease s = .next t ∧ alive t = true ∧ t.board.straps = s.board.strapPins % 65536 ∧
      t.boot.phase = 1 ∧ t.boot.stepDone = true ∧ t.time.epoch = s.time.now ∧
      (s.part.identity = none → t.part.identity = some s.part.identities) ∧
      (s.part.identity ≠ none → t.part = s.part) ∧
      (bits s.board.strapPins 14 2 = 2 → (portOf t 0).st = .training) ∧
      t.mem = s.mem ∧ t.xlat = s.xlat ∧ t.queues = s.queues ∧ t.jobs = s.jobs ∧ t.out = s.out ∧ t.pending = s.pending)

/-- R386, R463: RESET_ASSERT with the rails up, and POWER_REMOVAL at any time, return every register to its reset value; the
fuses survive both, and what HBM holds survives RESET_ASSERT alone. -/
def Obligations.ResetAndPowerRemovalKeepTheFuses : Prop :=
  (∀ s : State, s.board.railsUp = true →
    ∃ t, exec .resetAssert s = .next t ∧ t.part = s.part ∧ t.board.running = false ∧ t.mem.hbm = s.mem.hbm ∧
      t = { State.reset with board := t.board, part := t.part, time := t.time, mem := t.mem, out := s.out,
                             freeN := s.freeN, pending := s.pending } ∧
      t.mem.bench = ⟨[]⟩ ∧ t.mem.sched = ⟨[]⟩ ∧ t.mem.spoil = ⟨[]⟩ ∧ t.mem.ctls = ⟨[]⟩) ∧
  (∀ s : State,
    ∃ t, exec .powerRemoval s = .next t ∧ t.part = s.part ∧ t.board.railsUp = false ∧ alive t = false ∧
      t = { State.reset with board := t.board, part := t.part, time := t.time, out := s.out, freeN := s.freeN,
                             pending := s.pending })

/-- R458, R459: a reference clock that stops while the package runs sets its CLOCK_STATUS bit; one of HBM marks its die's four
stacks lost, and their bytes and no others are gone; one of the SDS group takes its ports that are up or training DOWN, and
that of the management port drops its link, both leaving memory alone; a clock's return clears the bit and nothing else. -/
def Obligations.ReferenceClocksComeAndGo : Prop :=
  (∀ (clk : Nat) (s : State), clk ≤ 15 → bit s.board.clocksAbsent clk = false → alive s = true →
    ∃ t, exec (.refclkLoss clk) s = .next t ∧ bit t.board.clocksAbsent clk = true ∧ t.part = s.part ∧
      t.pending = s.pending ∧
      (clk < 8 → ∀ a, (homeCtl s (a / 128)) / 4 ≠ clk → Memory.read t.mem.hbm a = Memory.read s.mem.hbm a) ∧
      (clk < 8 → ∀ a, (homeCtl s (a / 128)) / 4 = clk → Memory.read t.mem.hbm a = 0#8) ∧
      (clk < 8 → ∀ c, c / 4 = clk → t.mem.lostStacks.getLsbD c = true) ∧
      (8 ≤ clk → t.mem = s.mem) ∧
      (8 ≤ clk → clk < 14 → ∀ lp, lp / 16 + 8 = clk → (portOf s lp).st = .up ∨ (portOf s lp).st = .training →
        (portOf t lp).st = .down) ∧
      (clk = 14 → t.mgmt.link = 0)) ∧
  (∀ (clk : Nat) (s : State), clk < 15 →
    ∃ t, exec (.refclkReturn clk) s = .next t ∧ bit t.board.clocksAbsent clk = false ∧
      (∀ i, i ≠ clk → bit t.board.clocksAbsent i = bit s.board.clocksAbsent i) ∧
      t = { s with board := { s.board with clocksAbsent := t.board.clocksAbsent } })

/-- R411, R412, R414, R415: the boot ROM takes a valid stage loader of slot A and ends step 3; with BOOT_SRC 1 it awaits one
over the network; 100,000,000 ns without an answer from LP0 is failure 6; and a neighbour that asks is sent the image set
while BOOT_SERVE is 1. -/
def Obligations.StageLoaderIsFound : Prop :=
  (∀ (i : Image) (b p : Option Image) (s : State), stepReached s 1 = true → (bootSrc s = 0 ∨ bootSrc s = 3) →
    ∃ t, exec (.stageLoaderLoad (some i) b p) s = .next t ∧
      (verifyImage (atStep 2 false s) 0 i = 0 →
        t.boot.phase = 3 ∧ t.boot.stepDone = true ∧ t.boot.source = 0 ∧ t.boot.images.find 0 = some i) ∧
      t.mem = s.mem ∧ t.links = s.links ∧ t.part = s.part ∧ t.pending = s.pending) ∧
  (∀ (a b : Option Image) (s : State), stepReached s 1 = true → bootSrc s = 1 →
    ∃ t, exec (.stageLoaderLoad a b none) s = .next t ∧ t.boot.phase = 2 ∧ t.boot.stepDone = false ∧
      t.boot.awaiting = some 0 ∧ t = { s with boot := t.boot }) ∧
  (∀ s : State, stepReached s 1 = true → bootSrc s = 2 →
    ∃ t, exec .peerBootTimeout s = .next t ∧ t.boot.phase = 2 ∧ t.boot.stepDone = false ∧
      bits t.boot.status 0 8 = 6 ∧ t.time.now = s.time.now + 100000000 ∧
      t = { s with boot := t.boot, time := { s.time with now := t.time.now } }) ∧
  (∀ (lp : Nat) (s : State), alive s = true → portUp s lp = true → dv s K.bootServe = 1 →
    ∃ t, exec (.peerBootRequest lp) s = .next t ∧
      t = { s with out := s.out ++ [.bootImages lp (s.boot.images.cells.map (·.2))] })

/-- R11–R13, R250: the Sett self-test writes SETT_FAIL_MAP; with every link sound no die is held and step 5 may begin, and a
link that fails makes the package DEFECT and holds the Ashlar and Medlar dies at its ends. When every stack passes within
4.8 Gb/s and its clock runs, HBM_TRAINING ends with each stack at the slower of its own rate and HBM_RATE_MAX, the failure map
empty, and, with no event waiting, zeros below offset 4 GiB; a stack that fails makes the package DEFECT. -/
def Obligations.LinksAndHbmAreTested : Prop :=
  (∀ (failed : Nat) (s : State), stepReached s 3 = true →
    ∃ t, exec (.settSelfTest failed) s = .next t ∧ t.settFail = failed % 2 ^ 18 ∧ t.boot.phase = 4 ∧
      (failed % 2 ^ 18 = 0 → t.diesHeld = 0 ∧ t.pkg = s.pkg ∧ t.boot.stepDone = true) ∧
      (failed % 2 ^ 18 ≠ 0 → t.pkg = .defect ∧ t.boot.stepDone = false) ∧
      (∀ l d, l < 18 → d < 10 → bit failed l = true → ((linkEnds l).1 = d ∨ (linkEnds l).2 = d) → bit t.diesHeld d = true) ∧
      (∀ d, 10 ≤ d → bit t.diesHeld d = false) ∧
      t = { s with boot := t.boot, settFail := t.settFail, diesHeld := t.diesHeld, pkg := t.pkg }) ∧
  (∀ (best : List Nat) (s : State), stepReached s 5 = true → s.ev.waiting = [] → (∀ c, c < 32 → best.getD c 3 ≤ 2) →
    (∀ d, d < 8 → bit s.board.clocksAbsent d = false) →
    ∃ t, exec (.hbmTraining best) s = .next t ∧ t.boot.phase = 7 ∧ t.boot.stepDone = true ∧ t.pkg = s.pkg ∧
      dv t K.stackFailMap = 0 ∧ (∀ c, c < 32 → dv t (K.hbmRate + c) = max (dv s K.hbmRateMax) (best.getD c 0)) ∧
      (∀ a, a < 2 ^ 32 → Memory.read t.mem.hbm a = 0#8) ∧
      (∀ a, 2 ^ 32 ≤ a → Memory.read t.mem.hbm a = Memory.read s.mem.hbm a)) ∧
  (∀ (best : List Nat) (s : State) (c : Nat), stepReached s 5 = true → c < 32 → 2 < best.getD c 3 →
    ∃ t, exec (.hbmTraining best) s = .next t ∧ t.pkg = .defect ∧ bit (dv t K.stackFailMap) c = true ∧ t.mem = s.mem)

/-- R421, R424: CONFIG_APPLY takes a valid CONFIG from slot A and applies its records in order as firmware writes;
IMAGE_LOAD with the three images already taken, and places for them in the firmware region, judges the combination, starts
the Weighbridge and ends step 10. -/
def Obligations.ConfigAndImagesAreLoaded : Prop :=
  (∀ (i : Image) (b : Option Image) (s : State), stepReached s 4 = true → s.boot.source = 0 →
    ∃ t, exec (.configApply (some i) b) s = .next t ∧
      (verifyImage (atStep 5 false s) 4 i = 0 →
        t = (configRecords ((i.payload.take (fld i.header 16 8)).length / 8) (i.payload.take (fld i.header 16 8))).foldl
          (fun u r => (valueWrite 3 r.1 r.2 u).2) (atStep 5 true (takeImage 4 i (atStep 5 false s))))) ∧
  (∀ (a b : List Image) (bases : List Nat) (s : State), stepReached s 7 = true →
    (∀ k, 1 ≤ k → k ≤ 3 → (s.boot.images.find k).isSome = true) → basesOk (atStep 8 false s) bases = true →
    ∃ t, exec (.imageLoad a b bases) s = .next t ∧ t.boot.phase = 10 ∧ t.boot.stepDone = true ∧
      t.weigh.started = true ∧ t.boot.mismatch = mismatchOf s ∧ t.boot.runtimeAt = bases.getD 2 0)

/-- R14, R18, R422, R423, R425: RUNTIME_START sets every core in service running in the firmware, at the entry point that
RUNTIME's header gives, with its number and the address of the boot information block in g1 and g2; BOOT_DONE ends step 12 in
READY, or in RESTRICTED where step 8 judged the combination untested and no override is accepted, freezes BOOT_ELAPSED_NS and
raises 0x1 with the package's state. A direction of a Sett link that stalls for SETT_STALL_NS sets its sticky bit and bit 0 of
ERR_SUMMARY and raises 0x10, once; and every 10,000 ns the beat-rate counters of the dies take the values read. -/
def Obligations.BootEndsAndTheDiesReport : Prop :=
  (∀ (fwPage winPage bootInfo : Nat) (s : State), stepReached s 10 = true →
    segValid (segOf (loadContext0 fwPage winPage s) 0 0).raw = true →
    segValid (segOf (loadContext0 fwPage winPage s) 0 1).raw = true →
    fwPage * 2 ^ 21 ≤ bootInfo → bootInfo + 4096 ≤ fwPage * 2 ^ 21 + 2 ^ 31 →
    ∃ t, exec (.runtimeStart fwPage winPage bootInfo) s = .next t ∧ t.boot.phase = 11 ∧ t.boot.stepDone = true ∧
      (∀ c, c < 192 → bit s.part.coreMask c = true → dieUp s (dieOfCore c) = true →
        (medlarOf t c).running = true ∧ (medlarOf t c).trapVec = (medlarOf t c).pc ∧
        (medlarOf t c).pc =
          BitVec.ofNat 64 (fwPage * 2 ^ 21 + (s.boot.runtimeAt - 2 ^ 31) + fld (runningHeader s 3) 24 8) ∧
        (medlarOf t c).g.get 0#64 1 = BitVec.ofNat 64 c ∧ (medlarOf t c).g.get 0#64 2 = BitVec.ofNat 64 bootInfo) ∧
      (∀ c, bit s.part.coreMask c = false →
        medlarOf t c = medlarOf (loadContext0 fwPage winPage s) c)) ∧
  (∀ s : State, stepReached s 11 = true →
    ∃ t, exec .bootDone s = .next t ∧ t.boot.phase = 12 ∧ t.boot.stepDone = true ∧
      t.time.bootFrozen = some (s.time.now - s.time.epoch) ∧
      (s.boot.judgedRestricted = false → t.pkg = .ready) ∧
      (s.boot.judgedRestricted = true → s.boot.overridden = true → t.pkg = .ready) ∧
      (s.boot.judgedRestricted = true → s.boot.overridden = false → t.pkg = .restricted) ∧
      (∃ e, e ∈ t.ev.inFlight ∧ e.code = 0x1 ∧ e.source = 10 ∧ e.arg0 = pkgCode t.pkg) ∧
      t.mem = s.mem ∧ t.medlars = s.medlars ∧ t.part = s.part) ∧
  (∀ (link since : Nat) (rev : Bool) (s : State), link < 18 → alive s = true →
    bit s.settStalled (2 * link + (if rev then 1 else 0)) = false →
    ∃ t e, exec (.settStall link rev since) s = .next t ∧
      bit t.settStalled (2 * link + (if rev then 1 else 0)) = true ∧
      (∀ i, i ≠ 2 * link + (if rev then 1 else 0) → bit t.settStalled i = bit s.settStalled i) ∧
      bit (dv t K.errSummary) 0 = true ∧ t.ev.inFlight = s.ev.inFlight ++ [e] ∧ e.code = 0x10 ∧
      t.time = { s.time with now := max s.time.now (min since s.time.now + dv s K.settStallNs) } ∧
      OnlyRecords { s with settStalled := t.settStalled, time := t.time } t) ∧
  (∀ (link since : Nat) (rev : Bool) (s : State), link < 18 → alive s = true →
    bit s.settStalled (2 * link + (if rev then 1 else 0)) = true → exec (.settStall link rev since) s = .next s) ∧
  (∀ (rates : List Nat) (s : State), alive s = true →
    ∃ t, exec (.beatRateUpdate rates) s = .next t ∧
      (∀ d r, d < 11 → rates[d]? = some r → dv t (K.beatRate + d) = r % 2 ^ 32) ∧
      t.time = { s.time with now := max s.time.now (s.weigh.beatAt + 10000) } ∧
      OnlyRecords { s with time := t.time, weigh := { s.weigh with beatAt := t.time.now } } t)

/-- R57, R69, R84, R425: a FACE_OP whose descriptor is at hand and passes every check is offered to its Face's weigh station
and runs, and nothing else changes; one whose check fails completes with the status of the first check that fails, and in
restricted mode every one completes RESTRICTED_MODE, its Face and station untouched; one whose descriptor a read in context
brings is offered just so. -/
def Obligations.FaceOpIsStaged : Prop :=
  (∀ (q seq face : Nat) (j : Job) (s : State), handed s q seq 0x01 = some j → j.hasDesc →
    s.pkg ≠ .restricted → face < 8 → dieUp s face = true → faceCheck j.raw = none →
    ∃ t, exec (.faceOp q seq face) s = .next t ∧
      (stationOf t face).offers = (stationOf s face).offers ++
        [{ work := .face (FRun.start { owner := .queue, key := jobKey q seq, raw := j.raw, ctx := j.ctx }),
           prio := fPriority j.raw, passed := 0 }] ∧
      t.jobs.find (jobKey q seq) = some { j with phase := .running } ∧ MemoryKept s t ∧
      t = { s with weigh := t.weigh, jobs := t.jobs, links := t.links, mem := t.mem }) ∧
  (∀ (q seq face : Nat) (j : Job) (o : Status) (s : State), handed s q seq 0x01 = some j → j.hasDesc →
    s.pkg ≠ .restricted → face < 8 → dieUp s face = true → faceCheck j.raw = some o →
    ∃ t, exec (.faceOp q seq face) s = .next t ∧ Completed (jobKey q seq) o j.detail j s t ∧ MemoryKept s t ∧
      t.faces = s.faces ∧ t.weigh = s.weigh) ∧
  (∀ (q seq face : Nat) (j : Job) (s : State), handed s q seq 0x01 = some j → s.pkg = .restricted →
    face < 8 → dieUp s face = true →
    ∃ t, exec (.faceOp q seq face) s = .next t ∧ Completed (jobKey q seq) .restrictedMode j.detail j s t ∧
      MemoryKept s t ∧ t.faces = s.faces ∧ t.weigh = s.weigh) ∧
  (∀ (q seq face d : Nat) (j : Job) (u : UStep) (s : State), handed s q seq 0x01 = some j → s.pkg ≠ .restricted →
    face < 8 → dieUp s face = true → stageDesc q seq face j s = (.desc d, u) → faceCheck d = none →
    ∃ t, exec (.faceOp q seq face) s = .next t ∧
      (stationOf t face).offers = (stationOf (uClose u) face).offers ++
        [{ work := .face (FRun.start { owner := .queue, key := jobKey q seq, raw := d, ctx := j.ctx }),
           prio := fPriority d, passed := 0 }] ∧
      t = { uClose u with weigh := t.weigh, jobs := t.jobs })

/-- R49, R60, R85: on an idle Face the first staged FACE_OP takes the array; unless it was resumed, a seed that was written
is loaded into the LFSR, 0 loading 1; while the FACE_OP before still drains its last tile, one with OVERLAP set takes the
array beside it. Its tables, where it has any that are not read yet, are read, and stay with it. -/
def Obligations.FaceOpStartTakesTheArray : Prop :=
  (∀ (die : Nat) (r : FRun) (rest : List FRun) (s : State), die < 8 → dieUp s die = true →
    (faceOf s die).run = none → (faceOf s die).staged = r :: rest →
    (fBFmt r.op.raw ≠ 11 ∨ r.lut.isSome = true) → (hasStep r.op.raw 4 = false ∨ r.act.isSome = true) →
    ∃ t, exec (.faceOpStart die) s = .next t ∧ (faceOf t die).run = some { r with resumed := false } ∧
      (faceOf t die).staged = rest ∧ (faceOf t die).saves = (faceOf s die).saves ∧ (faceOf t die).prior = (faceOf s die).prior ∧
      (r.resumed = false → ∀ x, (faceOf s die).seed = some x →
        (faceOf t die).lfsr = (if x = 0#32 then 1#32 else x) ∧ (faceOf t die).seed = none) ∧
      (r.resumed = true → (faceOf t die).lfsr = (faceOf s die).lfsr ∧ (faceOf t die).seed = (faceOf s die).seed) ∧
      (∀ d, d ≠ die → faceOf t d = faceOf s d) ∧ MemoryKept s t ∧
      t = { s with faces := t.faces, links := t.links, mem := t.mem }) ∧
  (∀ (die : Nat) (p r : FRun) (rest : List FRun) (s : State), die < 8 → dieUp s die = true →
    (faceOf s die).run = some p → (faceOf s die).prior = none → p.allFed = true → p.waitsAck = true → p.fault = none →
    (faceOf s die).staged = r :: rest → fOverlap r.op.raw = true →
    (fBFmt r.op.raw ≠ 11 ∨ r.lut.isSome = true) → (hasStep r.op.raw 4 = false ∨ r.act.isSome = true) →
    ∃ t, exec (.faceOpStart die) s = .next t ∧ (faceOf t die).run = some { r with resumed := false } ∧
      (faceOf t die).prior = some p ∧ (faceOf t die).staged = rest ∧ (∀ d, d ≠ die → faceOf t d = faceOf s d) ∧
      MemoryKept s t ∧ t = { s with faces := t.faces, links := t.links, mem := t.mem }) ∧
  (∀ (die : Nat) (r r2 : FRun) (rest : List FRun) (u : UStep) (s : State), die < 8 → dieUp s die = true →
    (faceOf s die).run = none → (faceOf s die).staged = r :: rest →
    readTables { r with resumed := false } (FRun.step die { r with resumed := false } (setFace die
      { (if r.resumed then faceOf s die else loadSeed (faceOf s die)) with
        staged := rest, run := some { r with resumed := false } } s)) = .on r2 u → u.fault = none → u.held = false →
    ∃ t, exec (.faceOpStart die) s = .next t ∧
      (faceOf t die).run = some { FRun.metAll u.outs r2 with fault := r2.fault } ∧ MemoryKept u.st t)

/-- R56, R75, R83: a drained tile whose writes are all acknowledged is committed: its bank is free, and the cursor moves to
the next tile, or past the last one to the next batch, while the tile that accumulates in the other bank stays as it is; the
last tile of the FACE_OP before is committed so too; and a tile that is computed leaves the run as its sequencer says. -/
def Obligations.TileCommitMovesTheCursor : Prop :=
  (∀ (die : Nat) (order : List Nat) (r : FRun) (s : State), die < 8 → dieUp s die = true →
    (faceOf s die).run = some r → (∀ p, (faceOf s die).prior = some p → p.waitsAck = false ∨ txnsOfRun s p ≠ 0) →
    r.waitsAck = true → txnsOfRun s r = 0 →
    ∃ t, exec (.tileCommit die order) s = .next t ∧
      (∃ r', (faceOf t die).run = some r' ∧ r'.drain = none ∧ r'.acc = r.acc ∧ r'.slice = r.slice ∧ r'.outs = r.outs ∧
        (r.tile + 1 < fTm r.op.raw * fTn r.op.raw → r'.tile = r.tile + 1 ∧ r'.batch = r.batch) ∧
        (fTm r.op.raw * fTn r.op.raw ≤ r.tile + 1 → r'.tile = 0 ∧ r'.batch = r.batch + 1)) ∧
      (faceOf t die).prior = (faceOf s die).prior ∧
      (∀ d, d ≠ die → faceOf t d = faceOf s d) ∧ t = { s with faces := t.faces }) ∧
  (∀ (die : Nat) (order : List Nat) (p : FRun) (s : State), die < 8 → dieUp s die = true →
    (faceOf s die).prior = some p → p.waitsAck = true → txnsOfRun s p = 0 →
    ∃ t, exec (.tileCommit die order) s = .next t ∧ (faceOf t die).run = (faceOf s die).run ∧
      (∃ p', (faceOf t die).prior = some p' ∧ p'.drain = none ∧ p'.outs = p.outs ∧
        (p.tile + 1 < fTm p.op.raw * fTn p.op.raw → p'.tile = p.tile + 1 ∧ p'.batch = p.batch) ∧
        (fTm p.op.raw * fTn p.op.raw ≤ p.tile + 1 → p'.tile = 0 ∧ p'.batch = p.batch + 1)) ∧
      (∀ d, d ≠ die → faceOf t d = faceOf s d) ∧ t = { s with faces := t.faces }) ∧
  (∀ (die : Nat) (order : List Nat) (r r2 : FRun) (u : UStep) (s : State), die < 8 → dieUp s die = true →
    (faceOf s die).run = some r → (∀ p, (faceOf s die).prior = some p → p.waitsAck = false ∨ txnsOfRun s p ≠ 0) →
    (r.waitsAck = false ∨ txnsOfRun s r ≠ 0) → r.ending = false → r.fault = none → r.allFed = false →
    (r.fed = false ∨ (r.waitsAck = false ∧ (faceOf s die).prior = none)) →
    doTile die order (faceOf s die).prior.isNone r (FRun.step die r s) = .on r2 u → u.fault = none → u.held = false →
    ∃ t, exec (.tileCommit die order) s = .next t ∧
      (faceOf t die).run = some { FRun.metAll u.outs r2 with fault := r2.fault } ∧ MemoryKept u.st t)

/-- R88, R89, R329: a FACE_OP that has faulted, with a save slot and room for its record, is saved with its cursor and both
banks of accumulators and without its panels, and the Face is idle; without them it stays in place, which counts once. A
queue's FACE_OP at its end leaves the Face, and its command completes with the first of the statuses it met, and the cursor in
DETAIL. -/
def Obligations.FaceOpIsSavedOrCompletes : Prop :=
  (∀ (die : Nat) (r : FRun) (i : FaultInfo) (s : State), die < 8 → dieUp s die = true → (faceOf s die).run = some r →
    r.fault = some i → (faceOf s die).saves.cells.length < 16 → faultListFull 1 s = false →
    ∃ t, exec (.faceSwitchOut die) s = .next t ∧ (faceOf t die).run = none ∧ (faceOf t die).stalled = false ∧
      (faceOf t die).staged = (faceOf s die).staged ∧ (faceOf t die).prior = (faceOf s die).prior ∧
      (∃ slot r', slot < 16 ∧ (faceOf s die).saves.find slot = none ∧ (faceOf t die).saves.find slot = some r' ∧
        r'.batch = r.batch ∧ r'.tile = r.tile ∧ r'.slice = r.slice ∧ r'.acc = r.acc ∧
        r'.drain.map TileBank.acc = r.drain.map TileBank.acc ∧ r'.outs = r.outs ∧ r'.panelA = none ∧ r'.panelB = none) ∧
      t.jobs = s.jobs ∧ t.queues = s.queues) ∧
  (∀ (die : Nat) (r : FRun) (i : FaultInfo) (s : State), die < 8 → dieUp s die = true → (faceOf s die).run = some r →
    r.fault = some i → (16 ≤ (faceOf s die).saves.cells.length ∨ faultListFull 1 s = true) → (faceOf s die).stalled = false →
    ∃ t, exec (.faceSwitchOut die) s = .next t ∧ faceOf t die = { faceOf s die with stalled := true } ∧
      OnlyRecords { s with faces := t.faces } t) ∧
  (∀ (die : Nat) (r : FRun) (j : Job) (s : State), die < 8 → dieUp s die = true →
    (faceOf s die).run = some r → (faceOf s die).prior = none → r.drain = none → r.fault = none →
    (r.ending = true ∨ r.allDone = true) → r.op.owner = .queue → s.jobs.find r.op.key = some j →
    ∃ t, exec (.faceOpComplete die) s = .next t ∧ (faceOf t die).run = none ∧
      (faceOf t die).lfsrShown = (faceOf s die).lfsr ∧
      Completed r.op.key (statusOf (j.outs ++ r.outs)) r.cursor j s t ∧ MemoryKept s t) ∧
  (∀ (die : Nat) (p : FRun) (j : Job) (s : State), die < 8 → dieUp s die = true →
    (faceOf s die).prior = some p → p.drain = none → p.fault = none →
    (p.ending = true ∨ p.allDone = true) → p.op.owner = .queue → s.jobs.find p.op.key = some j →
    ∃ t, exec (.faceOpComplete die) s = .next t ∧ (faceOf t die).run = (faceOf s die).run ∧ (faceOf t die).prior = none ∧
      Completed p.op.key (statusOf (j.outs ++ p.outs)) p.cursor j s t ∧ MemoryKept s t)

/-- R114, R118, R121–R123: a route whose descriptor passes its checks waits behind a busy Bramble that holds fewer than four,
and one whose check fails completes with that status; a route whose turn it is writes and keeps its lists; a gathered expert
gives way to the next; an offered expert's FACE_OP, built from its template, joins the station of its Face; and a route whose
FACE_OPs are over leaves the Bramble, and completes once its transfers are acknowledged, with the lowest failed expert and the
number of FACE_OPs issued in DETAIL. -/
def Obligations.RoutesGoThroughTheirBramble : Prop :=
  (∀ (q seq : Nat) (j : Job) (s : State), leaveWaiting (jobKey q seq) s = none → onBramble (jobKey q seq) s = none →
    handed s q seq 0x06 = some j → j.hasDesc → ¬(s.pkg = .restricted ∧ rIssue j.raw = true) → routeCheck j.raw = none →
    ((brambleOf s (rSel j.raw)).run.isSome = true ∨ (brambleOf s (rSel j.raw)).waiting ≠ []) →
    (brambleOf s (rSel j.raw)).waiting.length < 4 →
    ∃ t, exec (.brambleRoute q seq) s = .next t ∧
      (brambleOf t (rSel j.raw)).waiting = (brambleOf s (rSel j.raw)).waiting ++
        [Route.start (jobKey q seq) j.ctx j.raw false] ∧
      (brambleOf t (rSel j.raw)).run = (brambleOf s (rSel j.raw)).run ∧ MemoryKept s t ∧
      t = { s with brambles := t.brambles, jobs := t.jobs, links := t.links, mem := t.mem }) ∧
  (∀ (q seq : Nat) (j : Job) (o : Status) (s : State), leaveWaiting (jobKey q seq) s = none →
    onBramble (jobKey q seq) s = none → handed s q seq 0x06 = some j → j.hasDesc →
    (if s.pkg = .restricted ∧ rIssue j.raw = true then some .restrictedMode else routeCheck j.raw) = some o →
    ∃ t, exec (.brambleRoute q seq) s = .next t ∧ Completed (jobKey q seq) o j.detail j s t ∧ MemoryKept s t ∧
      t.brambles = s.brambles) ∧
  (∀ (q seq die : Nat) (r r2 : Route) (u : UStep) (s s1 : State), RouteStands q seq die r s s1 → r.combine = false →
    r.listed = false → routeWork r (UStep.start r.ctx r.key die s1) = .on r2 u → u.held = false →
    ∃ t r', exec (.brambleRoute q seq) s = .next t ∧ r'.counts = r2.counts ∧ r'.entries = r2.entries ∧ r'.listed = r2.listed ∧
      ((brambleOf t die).run = some r' ∨ r' ∈ (brambleOf t die).open_) ∧ MemoryKept u.st t) ∧
  (∀ (die : Nat) (r r2 : Route) (u : UStep) (s : State), (brambleOf s die).run = some r →
    r.combine = false → r.listed = true → r.aborted = false → r.fault = none → rGather r.raw = true →
    r.gathered < rExperts r.raw →
    gatherRows (r.counts.getD r.gathered 0 - r.position) r (UStep.start r.ctx r.key die s) = (r2, u) →
    u.stopped = false →
    ∃ t r', exec (.brambleGather die) s = .next t ∧ r'.gathered = nextExpert r2.counts (r2.gathered + 1) ∧
      r'.position = 0 ∧ ((brambleOf t die).run = some r' ∨ r' ∈ (brambleOf t die).open_) ∧ MemoryKept u.st t) ∧
  (∀ (die f tpl : Nat) (r : Route) (u1 u : UStep) (s : State), (brambleOf s die).run = some r →
    r.combine = false → r.listed = true → r.aborted = false → r.fault = none → rIssue r.raw = true →
    r.offered < rExperts r.raw → (rGather r.raw = true → r.offered < r.gathered ∧ txnsOf s r.key = 0) →
    ((rPlace r.raw = 0 ∧ f = r.offered % 8 ∧ u1 = UStep.start r.ctx r.key die s) ∨
      (rPlace r.raw ≠ 0 ∧ readTable (rPlace r.raw + r.offered) 1 (UStep.start r.ctx r.key die s) = .on f u1 ∧ f ≤ 7)) →
    u1.stopped = false →
    readTable (rTemplate r.raw + 256 * r.offered) 256 u1 = .on tpl u → u.stopped = false → templateBad tpl = false →
    faceCheck (expertOp tpl (r.counts.getD r.offered 0) (offsetOf r.counts r.offered)) = none →
    ∃ t r', exec (.brambleIssue die) s = .next t ∧ r'.live = r.live ++ [r.offered] ∧ r'.issued = r.issued + 1 ∧
      r'.offered = nextExpert r.counts (r.offered + 1) ∧
      ((brambleOf t die).run = some r' ∨ r' ∈ (brambleOf t die).open_) ∧
      (stationOf t f).offers = (stationOf u.st f).offers ++
        [{ work := .face (FRun.start
             { owner := .expert die r.offered, key := r.key, ctx := r.ctx,
               raw := expertOp tpl (r.counts.getD r.offered 0) (offsetOf r.counts r.offered) }),
           prio := fPriority (expertOp tpl (r.counts.getD r.offered 0) (offsetOf r.counts r.offered)), passed := 0 }]) ∧
  (∀ (q seq die : Nat) (r : Route) (s : State),
    (List.range 8).findSome? (fun d => ((brambleOf s d).open_.find? fun x => x.key == jobKey q seq).map fun x => (d, x)) =
      some (die, r) → r.live = [] → r.fault = none → txnsOf s (jobKey q seq) = 0 → (routeEnd die r s).stopped = false →
    ∃ t, exec (.routeComplete q seq) s = .next t ∧
      (∀ x, x ∈ (brambleOf t die).open_ → x.key ≠ jobKey q seq) ∧ MemoryKept (routeEnd die r s).st t ∧
      (∀ j, (routeEnd die r s).st.jobs.find (jobKey q seq) = some j → txnsOf (routeEnd die r s).st (jobKey q seq) = 0 →
        Completed (jobKey q seq) (statusOf (j.outs ++ (routeEnd die r s).outs ++ r.outs))
          ((firstFailed r * 2 ^ 16 + r.issued) % 2 ^ 64) j (routeEnd die r s).st t))

/-- R114, R127–R129: a combine whose descriptor passes its checks waits behind a busy Bramble, and one whose check fails
completes with that status; one whose turn it is leaves the Bramble free when nothing stops its rows, with its reduce-writes
performed, and completes once they are acknowledged. -/
def Obligations.CombineScattersItsRows : Prop :=
  (∀ (q seq : Nat) (order : List Nat) (j : Job) (s : State), leaveWaiting (jobKey q seq) s = none →
    onBramble (jobKey q seq) s = none → handed s q seq 0x07 = some j → j.hasDesc → combineCheck j.raw = none →
    ((brambleOf s (rSel j.raw)).run.isSome = true ∨ (brambleOf s (rSel j.raw)).waiting ≠ []) →
    (brambleOf s (rSel j.raw)).waiting.length < 4 →
    ∃ t, exec (.brambleCombine q seq order) s = .next t ∧
      (brambleOf t (rSel j.raw)).waiting = (brambleOf s (rSel j.raw)).waiting ++
        [Route.start (jobKey q seq) j.ctx j.raw true] ∧
      (brambleOf t (rSel j.raw)).run = (brambleOf s (rSel j.raw)).run ∧ MemoryKept s t ∧
      t = { s with brambles := t.brambles, jobs := t.jobs, links := t.links, mem := t.mem }) ∧
  (∀ (q seq : Nat) (order : List Nat) (j : Job) (o : Status) (s : State), leaveWaiting (jobKey q seq) s = none →
    onBramble (jobKey q seq) s = none → handed s q seq 0x07 = some j → j.hasDesc → combineCheck j.raw = some o →
    ∃ t, exec (.brambleCombine q seq order) s = .next t ∧ Completed (jobKey q seq) o j.detail j s t ∧ MemoryKept s t ∧
      t.brambles = s.brambles) ∧
  (∀ (q seq die : Nat) (order : List Nat) (r r2 : Route) (v : UStep) (w : Route × Bool × UStep) (s s1 : State),
    RouteStands q seq die r s s1 → r.combine = true →
    (if r.listed then .on r (UStep.start r.ctx r.key die s1) else combineLists r (UStep.start r.ctx r.key die s1)) = .on r2 v →
    combineRows die (combineOrder order r2) r2 v = w → w.2.2.stopped = false →
    ∃ t, exec (.brambleCombine q seq order) s = .next t ∧ (brambleOf t die).run = none ∧ MemoryKept w.2.2.st t ∧
      (∀ j, w.2.2.st.jobs.find r.key = some j → txnsOf w.2.2.st r.key = 0 →
        Completed r.key (statusOf (j.outs ++ w.1.outs ++ w.2.2.outs)) j.detail j w.2.2.st t))

/-- R137, R140, R164, R165: a GROUP_LAUNCH whose descriptor is at hand and passes its checks takes a pending slot on each of
its dies while each has one, and its groups are offered to their weigh stations; one whose check fails completes
DESCRIPTOR_INVALID; with 64 slots held on one of its dies the unit holds the command, and the die counts it once. Once every
group has started and ended and its writes are acknowledged, the launch completes with its status and its counts of ended
groups in DETAIL, and the L1s of its cores are empty. -/
def Obligations.LaunchesTakeSlotsAndComplete : Prop :=
  (∀ (q seq : Nat) (j : Job) (s : State), handed s q seq 0x02 = some j → j.hasDesc → launchOk j.raw = true →
    (∀ d, d < 8 → bit (launchDies j.raw) d = true → slotsHeld s d < 64) →
    ∃ t l, exec (.groupLaunch q seq) s = .next t ∧ t.grp.launches.find (jobKey q seq) = some l ∧ l.raw = j.raw ∧
      l.ctx = j.ctx ∧ l.next = 0 ∧ l.total = launchGroups j.raw ∧ l.slots = launchDies j.raw ∧ l.stopped = false ∧
      (∀ d, d < 8 → bit (launchDies j.raw) d = true →
        (stationOf t d).offers = (stationOf s d).offers ++
          [{ work := .group (jobKey q seq), prio := launchPriority j.raw, passed := 0 }]) ∧
      (∀ d, 8 ≤ d ∨ bit (launchDies j.raw) d = false → stationOf t d = stationOf s d) ∧ MemoryKept s t ∧
      t = { s with grp := { s.grp with launches := t.grp.launches }, weigh := t.weigh, jobs := t.jobs, links := t.links,
                   mem := t.mem }) ∧
  (∀ (q seq : Nat) (j : Job) (s : State), handed s q seq 0x02 = some j → j.hasDesc → launchOk j.raw = false →
    ∃ t, exec (.groupLaunch q seq) s = .next t ∧ Completed (jobKey q seq) .descriptorInvalid j.detail j s t ∧
      MemoryKept s t ∧ t.grp = s.grp ∧ t.weigh = s.weigh) ∧
  (∀ (q seq d : Nat) (j : Job) (s : State), handed s q seq 0x02 = some j → j.hasDesc → launchOk j.raw = true → d < 8 →
    bit (launchDies j.raw) d = true → 64 ≤ slotsHeld s d → bit j.counted d = false →
    ∃ t k, exec (.groupLaunch q seq) s = .next t ∧ t.grp = s.grp ∧ t.weigh = s.weigh ∧ bit k d = true ∧
      t.jobs.find (jobKey q seq) = some { j with phase := .blocked, staged := true, counted := k } ∧
      OnlyRecords { s with jobs := t.jobs } t) ∧
  (∀ (q seq : Nat) (l : Launch) (j : Job) (s : State), s.grp.launches.find (jobKey q seq) = some l →
    (l.stopped = true ∨ l.total ≤ l.next) → (∀ c, c ∈ s.grp.groups.cells → launchKey c.1 ≠ jobKey q seq) →
    launchWrites s (jobKey q seq) = false → s.jobs.find (jobKey q seq) = some j →
    ∃ t, exec (.launchComplete q seq) s = .next t ∧ t.grp.launches.find (jobKey q seq) = none ∧
      t.grp.groups = s.grp.groups ∧
      Completed (jobKey q seq) (launchStatus l j.outs) (l.ended % 2 ^ 32 + l.byHandler % 2 ^ 32 * 2 ^ 32) j s t ∧
      (∀ k, k ∈ l.cores → (gcoreOf t k).l1 = ⟨[]⟩) ∧ MemoryKept s t ∧ t.medlars = s.medlars)

/-- R139, R141: a core with room starts the next group of the launch whose start was granted first, with its registers as
Table 5 gives them; the launch's next index rises by one. -/
def Obligations.GroupStartsOnACoreWithRoom : Prop :=
  ∀ (die core key : Nat) (rest : List Nat) (l : Launch) (s : State), dieUp s die = true → die < 8 →
    (stationOf s die).starts = key :: rest → s.grp.launches.find key = some l → l.stopped = false → l.next < l.total →
    coreRoom s die core l.raw = true →
    ∃ t g l', exec (.groupStart die core) s = .next t ∧ groupOf t (key * 2 ^ 32 + l.next) = some g ∧
      g.index = l.next ∧ g.place = .resident ∧ g.die = die ∧ g.core = core ∧ g.arch = startArch l.raw die core l.next ∧
      g.loads = [] ∧ g.faults = [] ∧ t.grp.launches.find key = some l' ∧ l'.next = l.next + 1 ∧ l'.total = l.total ∧
      (∀ g', g' ≠ key * 2 ^ 32 + l.next → groupOf t g' = groupOf s g') ∧ (stationOf t die).starts = rest ∧
      t.mem = s.mem ∧ t.medlars = s.medlars

/-- R162, R163: a faulted group with nothing in flight, a save slot and room for its records is saved with its registers;
one that was resumed restarts on a core with room at the faulting instruction, with its registers as they were. -/
def Obligations.GroupsAreSavedAndResumed : Prop :=
  (∀ (g : Nat) (x : Group) (s : State), groupOf s g = some x → x.faults ≠ [] → x.place = .resident → x.loads = [] →
    x.arch.mma = [] → x.sysWait = none → faultListFull x.faults.length s = false → (groupSlots s x.die).length < 256 →
    ∃ t y n, exec (.groupSwitchOut g) s = .next t ∧ groupOf t g = some y ∧ n < 256 ∧ n ∉ groupSlots s x.die ∧
      y.place = .saved n ∧ y.arch = x.arch ∧ y.faults = [] ∧ y.cause = x.faults.head?.map (·.cause) ∧
      (∀ g', g' ≠ g → groupOf t g' = groupOf s g') ∧ t.medlars = s.medlars) ∧
  (∀ (g core n : Nat) (x : Group) (s : State), groupOf s g = some x → x.place = .runnable n →
    coreRoom s x.die core (launchRaw s (launchKey g)) = true →
    ∃ t y, exec (.groupResume g core) s = .next t ∧ groupOf t g = some y ∧ y.place = .resident ∧ y.core = core ∧
      y.die = x.die ∧ y.arch = x.arch ∧ y.cause = none ∧ (∀ g', g' ≠ g → groupOf t g' = groupOf s g') ∧
      (gcoreOf t (coreKey x.die core)).l1 = ⟨[]⟩ ∧ t.mem = s.mem ∧ t.jobs = s.jobs)

/-- R176, R177: an INT or INTI instruction that may issue, with legal fields and registers, writes its result to every element
of D on a Medlar core, to every executing lane on a group, and to the scalar register under S; the pc moves behind it, and
nothing else changes but the group's beat counter. -/
def Obligations.IntegerInstructionsExecute : Prop :=
  (∀ (c w : Nat) (s : State), MedlarIssues .int c w s →
    MedlarRegs (intFieldsOk (rFields w) false) (intKinds (rFields w) false) (rFields w) →
    exec (.int (.medlar c) w) s = .next (medlarRetired c w
      (medlarMap2 (rFields w) (8 * 2 ^ (rFields w).aux) (intOp (rFields w).op (8 * 2 ^ (rFields w).aux)) (medlarOf s c)) s)) ∧
  (∀ (g w : Nat) (x : Group) (s : State),
    GroupIssues .int g w (usedRegs (intKinds (rFields w) true) (rFields w).d (rFields w).a (rFields w).b (rFields w).c
      (rFields w).pe (rFields w).preg) x s →
    GroupRegs s g (intFieldsOk (rFields w) true) (intKinds (rFields w) true) (rFields w) →
    exec (.int (.group g) w) s = .next (groupRetired g w (if (rFields w).s then 0 else 1) x
      (groupMap2 (rFields w) (8 * 2 ^ (rFields w).aux) (intOp (rFields w).op (8 * 2 ^ (rFields w).aux)) x.arch) s)) ∧
  (∀ (c w : Nat) (s : State), MedlarIssues .inti c w s →
    MedlarRegs (predOk false (!(iFields w).s) (iFields w).pe (iFields w).pn (iFields w).preg) (intiKinds (iFields w))
      (iFields w) →
    exec (.inti (.medlar c) w) s = .next (medlarRetired c w
      (medlarMap2 (iFields w) 64 (fun x _ => intOp (intiOp ((iFields w).op % 8)) 64 x (iFields w).imm) (medlarOf s c)) s)) ∧
  (∀ (g w : Nat) (x : Group) (s : State),
    GroupIssues .inti g w (usedRegs (intiKinds (iFields w)) (iFields w).d (iFields w).a (iFields w).b (iFields w).c
      (iFields w).pe (iFields w).preg) x s →
    GroupRegs s g (predOk true (!(iFields w).s) (iFields w).pe (iFields w).pn (iFields w).preg) (intiKinds (iFields w))
      (iFields w) →
    exec (.inti (.group g) w) s = .next (groupRetired g w (if (iFields w).s then 0 else 1) x
      (groupMap2 (iFields w) (intiWidth (iFields w) true)
        (fun y _ => intOp (intiOp ((iFields w).op % 8)) (intiWidth (iFields w) true) y (iFields w).imm) x.arch) s))

/-- R177: integer operations wrap modulo 2^w at their element width; division by zero gives all ones and the dividend, the most
negative value by −1 gives itself and 0, shift counts are taken modulo w, a 32-bit scalar result is sign-extended into its
64-bit register, and none of it traps: INT under S completes on a Medlar core and on a group, with D the result and every
other register, FPFLAGS and memory as they were. -/
def Obligations.IntegerOperationsWrapAndNeverTrap : Prop :=
  (∀ w x y : Nat, (w = 8 ∨ w = 16 ∨ w = 32 ∨ w = 64) →
    intOp 0 w x y = (x + y) % 2 ^ w ∧ ((intOp 1 w x y : Nat) : Int) = ((x : Int) - y) % 2 ^ w ∧
    intOp 8 w x y = x * y % 2 ^ w ∧ (∀ op, intOp op w x y < 2 ^ w) ∧
    (y % 2 ^ w = 0 → intOp 11 w x y = 2 ^ w - 1 ∧ intOp 12 w x y = 2 ^ w - 1 ∧ intOp 13 w x y = x % 2 ^ w ∧
      intOp 14 w x y = x % 2 ^ w) ∧
    (x % 2 ^ w = 2 ^ (w - 1) → y % 2 ^ w = 2 ^ w - 1 → intOp 11 w x y = 2 ^ (w - 1) ∧ intOp 13 w x y = 0) ∧
    (∀ op, (op = 5 ∨ op = 6 ∨ op = 7) → intOp op w x y = intOp op w x (y % w))) ∧
  (∀ (c w : Nat) (s : State), MedlarIssues .int c w s →
    MedlarRegs (intFieldsOk (rFields w) false) (intKinds (rFields w) false) (rFields w) → (rFields w).s = true →
    ∃ t, exec (.int (.medlar c) w) s = .next t ∧
      ((rFields w).aux = 3 → gReg (medlarOf t c) (rFields w).d =
        intOp (rFields w).op 64 (gReg (medlarOf s c) (rFields w).a) (gReg (medlarOf s c) (rFields w).b)) ∧
      ((rFields w).aux = 2 → gReg (medlarOf t c) (rFields w).d = sext 32 64
        (intOp (rFields w).op 32 (gReg (medlarOf s c) (rFields w).a) (gReg (medlarOf s c) (rFields w).b))) ∧
      (∀ r, r ≠ (rFields w).d → gReg (medlarOf t c) r = gReg (medlarOf s c) r) ∧
      (medlarOf t c).v = (medlarOf s c).v ∧ (medlarOf t c).fpflags = (medlarOf s c).fpflags ∧
      (medlarOf t c).pc = (medlarOf s c).pc + BitVec.ofNat 64 (wsize w) ∧
      (∀ d, d ≠ c → medlarOf t d = medlarOf s d) ∧ t = { s with medlars := t.medlars }) ∧
  (∀ (g w : Nat) (x : Group) (s : State),
    GroupIssues .int g w (usedRegs (intKinds (rFields w) true) (rFields w).d (rFields w).a (rFields w).b (rFields w).c
      (rFields w).pe (rFields w).preg) x s →
    GroupRegs s g (intFieldsOk (rFields w) true) (intKinds (rFields w) true) (rFields w) → (rFields w).s = true →
    ∃ t y, exec (.int (.group g) w) s = .next t ∧ groupOf t g = some y ∧ y.faults = x.faults ∧
      y.arch = goNext w (setS (rFields w).d (toScalar (8 * 2 ^ (rFields w).aux) (intOp (rFields w).op
        (8 * 2 ^ (rFields w).aux) (sReg x.arch (rFields w).a) (sReg x.arch (rFields w).b))) x.arch) ∧ t.mem = s.mem)

/-- R176, R178, R179: MOVE that may issue, with legal fields and registers, copies, broadcasts, extracts, inserts, shuffles
or reads masks as Table 5 says, and loads immediates; PRED writes each executing lane's compare or logic bit; FP and FCVT write
each element's rounded result and set the flags it raised; every other register stays, and the pc moves behind the word. Of an
element or lane that does not exist, EXTRACT gives a free value (the model's choice, assumption 94). -/
def Obligations.MovesAndFloatingPointExecute : Prop :=
  (∀ (c w : Nat) (s : State), MedlarIssues .move c w s → moveIsLi w false = false →
    MedlarRegs (moveFieldsOk (rFields w) false) (moveKinds (rFields w)) (rFields w) →
    ∃ t, exec (.move (.medlar c) w) s = .next t ∧ MedlarWrites c w (rFields w).d s t ∧
      (medlarOf t c).fpflags = (medlarOf s c).fpflags ∧
      ((rFields w).op = 0 → (rFields w).s = true → gReg (medlarOf t c) (rFields w).d = gReg (medlarOf s c) (rFields w).a) ∧
      ((rFields w).op = 0 → (rFields w).s = false →
        ∀ i, i < 8 → mvEl (medlarOf t c) 64 (rFields w).d i = mvEl (medlarOf s c) 64 (rFields w).a i) ∧
      ((rFields w).op = 1 → ∀ i, i < 8 → mvEl (medlarOf t c) 64 (rFields w).d i = gReg (medlarOf s c) (rFields w).a) ∧
      ((rFields w).op = 2 → gReg (medlarOf s c) (rFields w).b < 8 → gReg (medlarOf t c) (rFields w).d =
        mvEl (medlarOf s c) 64 (rFields w).a (gReg (medlarOf s c) (rFields w).b)) ∧
      ((rFields w).op = 2 → 8 ≤ gReg (medlarOf s c) (rFields w).b →
        gReg (medlarOf t c) (rFields w).d = (takeFree s).1 % 2 ^ 64) ∧
      ((rFields w).op = 3 → gReg (medlarOf s c) (rFields w).b < 8 → ∀ i, i < 8 → mvEl (medlarOf t c) 64 (rFields w).d i =
        (if i = gReg (medlarOf s c) (rFields w).b then gReg (medlarOf s c) (rFields w).a
          else mvEl (medlarOf s c) 64 (rFields w).d i)) ∧
      ((rFields w).op = 4 → ∀ i, i < 8 → mvEl (medlarOf t c) 64 (rFields w).d i =
        mvEl (medlarOf s c) 64 (rFields w).a (mvEl (medlarOf s c) 64 (rFields w).b i % 8))) ∧
  (∀ (c w : Nat) (s : State), MedlarIssues .move c w s → moveIsLi w false = true →
    MedlarRegs (liFieldsOk (iFields w) false) (liKinds (iFields w) false) (iFields w) →
    exec (.move (.medlar c) w) s = .next (medlarRetired c w (liMedlar (iFields w) (medlarOf s c)) s)) ∧
  (∀ (g w : Nat) (x : Group) (s : State), moveIsLi w true = false →
    GroupIssues .move g w (usedRegs (moveKinds (rFields w)) (rFields w).d (rFields w).a (rFields w).b (rFields w).c
      (rFields w).pe (rFields w).preg) x s →
    GroupRegs s g (moveFieldsOk (rFields w) true) (moveKinds (rFields w)) (rFields w) →
    ∃ t y, exec (.move (.group g) w) s = .next t ∧
      GroupWrites g w (if moveIsVector (rFields w) then 1 else 0) (rFields w).d false x y s t ∧ y.fpflags = x.arch.fpflags ∧
      ((rFields w).op = 0 → (rFields w).s = true → sReg y (rFields w).d = sReg x.arch (rFields w).a) ∧
      (∀ i, i < 32 → bit (execMask x.arch (rFields w).pe (rFields w).pn (rFields w).preg) i = true →
        ((rFields w).op = 0 → (rFields w).s = false → vLane y (rFields w).d i = vLane x.arch (rFields w).a i) ∧
        ((rFields w).op = 1 → vLane y (rFields w).d i = sReg x.arch (rFields w).a % 2 ^ 32) ∧
        ((rFields w).op = 3 → sReg x.arch (rFields w).b < 32 → vLane y (rFields w).d i =
          (if i = sReg x.arch (rFields w).b then sReg x.arch (rFields w).a % 2 ^ 32 else vLane x.arch (rFields w).d i)) ∧
        ((rFields w).op = 4 → vLane y (rFields w).d i = vLane x.arch (rFields w).a (vLane x.arch (rFields w).b i % 32))) ∧
      ((rFields w).op = 2 → sReg x.arch (rFields w).b < 32 →
        sReg y (rFields w).d = sext 32 64 (vLane x.arch (rFields w).a (sReg x.arch (rFields w).b))) ∧
      ((rFields w).op = 2 → 32 ≤ sReg x.arch (rFields w).b → sReg y (rFields w).d = (takeFree s).1 % 2 ^ 64) ∧
      ((rFields w).op = 5 → sReg y (rFields w).d = x.arch.mask.toNat) ∧
      ((rFields w).op = 6 → sReg y (rFields w).d = pReg x.arch (rFields w).a &&& x.arch.mask.toNat) ∧
      ((rFields w).op = 7 → sReg y (rFields w).d = pReg x.arch (rFields w).a) ∧
      ((rFields w).op = 8 → pReg y (rFields w).d = sReg x.arch (rFields w).a % 2 ^ 32)) ∧
  (∀ (g w : Nat) (x : Group) (s : State), moveIsLi w true = true →
    GroupIssues .move g w (usedRegs (liKinds (iFields w) true) (iFields w).d (iFields w).a (iFields w).b (iFields w).c
      (iFields w).pe (iFields w).preg) x s →
    GroupRegs s g (liFieldsOk (iFields w) true) (liKinds (iFields w) true) (iFields w) →
    exec (.move (.group g) w) s = .next (groupRetired g w (if Config.liVector || (iFields w).pe then 1 else 0) x
      (liGroup (iFields w) x.arch) s)) ∧
  (∀ (g w : Nat) (x : Group) (s : State),
    GroupIssues .pred g w (usedRegs (predKinds (rFields w)) (rFields w).d (rFields w).a (rFields w).b (rFields w).c
      (rFields w).pe (rFields w).preg) x s →
    GroupRegs s g (predFieldsOk (rFields w) true) (predKinds (rFields w)) (rFields w) →
    ∃ t y, exec (.pred (.group g) w) s = .next t ∧
      GroupWrites g w (if 6 ≤ (rFields w).op && (rFields w).op ≤ 9 && (rFields w).aux == 0 then 2 else 1) (rFields w).d false
        x y s t ∧ y.v = x.arch.v ∧ y.s = x.arch.s ∧
      (∀ i, i < 32 → bit (execMask x.arch (rFields w).pe (rFields w).pn (rFields w).preg) i = true →
        ((rFields w).op ≤ 5 → bit (pReg y (rFields w).d) i =
          condHolds (rFields w).op 32 (vLane x.arch (rFields w).a i) (vLane x.arch (rFields w).b i)) ∧
        (6 ≤ (rFields w).op → (rFields w).op ≤ 9 → bit (pReg y (rFields w).d) i =
          (predCompare (rFields w) (vOperand x.arch (fpBits (rFields w).aux) (rFields w).a i)
            (vOperand x.arch (fpBits (rFields w).aux) (rFields w).b i)).1) ∧
        ((rFields w).op = 10 → bit (pReg y (rFields w).d) i =
          (bit (pReg x.arch (rFields w).a) i && bit (pReg x.arch (rFields w).b) i)) ∧
        ((rFields w).op = 11 → bit (pReg y (rFields w).d) i =
          (bit (pReg x.arch (rFields w).a) i || bit (pReg x.arch (rFields w).b) i)) ∧
        ((rFields w).op = 12 → bit (pReg y (rFields w).d) i =
          (bit (pReg x.arch (rFields w).a) i != bit (pReg x.arch (rFields w).b) i)) ∧
        ((rFields w).op = 13 → bit (pReg y (rFields w).d) i = !bit (pReg x.arch (rFields w).a) i)) ∧
      (∀ i, i < 32 → bit (execMask x.arch (rFields w).pe (rFields w).pn (rFields w).preg) i = false →
        bit (pReg y (rFields w).d) i = bit (pReg x.arch (rFields w).d) i)) ∧
  (∀ (c w : Nat) (s : State), MedlarIssues .fp c w s →
    MedlarRegs (fpFieldsOk (rFields w) false) (fpKinds (rFields w) false) (rFields w) →
    ∃ t, exec (.fp (.medlar c) w) s = .next t ∧ MedlarWrites c w (rFields w).d s t ∧ t.freeN = s.freeN ∧
      (∀ o : (Nat → Nat) → Nat × Nat, o = (fun e => fpOp (rFields w).op (rFields w).aux
          (roundDir (rFields w).rm (medlarOf s c).fpctl.toNat) (e (rFields w).a) (e (rFields w).b) (e (rFields w).c)) →
        ((rFields w).s = true →
          gReg (medlarOf t c) (rFields w).d = toScalar (fpBits (rFields w).aux)
            (o fun r => gReg (medlarOf s c) r % 2 ^ fpBits (rFields w).aux).1 % 2 ^ 64 ∧
          (medlarOf t c).fpflags = stick (medlarOf s c).fpflags
            (o fun r => gReg (medlarOf s c) r % 2 ^ fpBits (rFields w).aux).2) ∧
        ((rFields w).s = false →
          (∀ i, i < 512 / fpBits (rFields w).aux → mvEl (medlarOf t c) (fpBits (rFields w).aux) (rFields w).d i =
            (o fun r => mvEl (medlarOf s c) (fpBits (rFields w).aux) r i).1 % 2 ^ fpBits (rFields w).aux) ∧
          (medlarOf t c).fpflags = stick (medlarOf s c).fpflags (anyFlags (fun _ => true)
            (fun i => (o fun r => mvEl (medlarOf s c) (fpBits (rFields w).aux) r i).2) (512 / fpBits (rFields w).aux))))) ∧
  (∀ (g w : Nat) (x : Group) (s : State),
    GroupIssues .fp g w (usedRegs (fpKinds (rFields w) true) (rFields w).d (rFields w).a (rFields w).b (rFields w).c
      (rFields w).pe (rFields w).preg) x s →
    GroupRegs s g (fpFieldsOk (rFields w) true) (fpKinds (rFields w) true) (rFields w) →
    ∃ t y, exec (.fp (.group g) w) s = .next t ∧ t.freeN = s.freeN ∧
      GroupWrites g w (if (rFields w).s then 0 else if (rFields w).aux = 0 then 2 else 1) (rFields w).d
        ((rFields w).aux == 0) x y s t ∧
      (∀ o : (Nat → Nat) → Nat × Nat, o = (fun e => fpOp (rFields w).op (rFields w).aux
          (roundDir (rFields w).rm x.arch.fpctl.toNat) (e (rFields w).a) (e (rFields w).b) (e (rFields w).c)) →
        ((rFields w).s = true →
          sReg y (rFields w).d = toScalar (fpBits (rFields w).aux)
            (o fun r => sReg x.arch r % 2 ^ fpBits (rFields w).aux).1 % 2 ^ 64 ∧
          y.fpflags = stick x.arch.fpflags (o fun r => sReg x.arch r % 2 ^ fpBits (rFields w).aux).2) ∧
        ((rFields w).s = false →
          (∀ i, i < 32 → bit (execMask x.arch (rFields w).pe (rFields w).pn (rFields w).preg) i = true →
            vOperand y (fpBits (rFields w).aux) (rFields w).d i =
              (o fun r => vOperand x.arch (fpBits (rFields w).aux) r i).1 % 2 ^ fpBits (rFields w).aux) ∧
          y.fpflags = stick x.arch.fpflags
            (anyFlags (bit (execMask x.arch (rFields w).pe (rFields w).pn (rFields w).preg))
              (fun i => (o fun r => vOperand x.arch (fpBits (rFields w).aux) r i).2) 32)))) ∧
  (∀ (c w ws wd : Nat) (s : State), MedlarIssues .fcvt c w s →
    MedlarRegs (fcvtFieldsOk (rFields w) false) (fcvtKinds (rFields w) false) (rFields w) →
    ws = cvtSrcBits (rFields w).op (rFields w).fmt (rFields w).aux → wd = cvtDstBits (rFields w).op (rFields w).fmt (rFields w).aux →
    ∃ t, exec (.fcvt (.medlar c) w) s = .next t ∧ MedlarWrites c w (rFields w).d s t ∧
      (∀ o : Nat → Nat × Nat, o = cvtOp (rFields w).op (rFields w).fmt (rFields w).aux
          (roundDir (rFields w).rm (medlarOf s c).fpctl.toNat) →
        ((rFields w).s = true →
          gReg (medlarOf t c) (rFields w).d % 2 ^ wd = (o (gReg (medlarOf s c) (rFields w).a % 2 ^ ws)).1 % 2 ^ wd ∧
          (wd = 32 → gReg (medlarOf t c) (rFields w).d =
            sext 32 64 (o (gReg (medlarOf s c) (rFields w).a % 2 ^ ws)).1 % 2 ^ 64) ∧
          (medlarOf t c).fpflags = stick (medlarOf s c).fpflags (o (gReg (medlarOf s c) (rFields w).a % 2 ^ ws)).2) ∧
        ((rFields w).s = false →
          (∀ i, i < 512 / max ws wd → mvEl (medlarOf t c) wd (rFields w).d i =
            (o (mvEl (medlarOf s c) ws (rFields w).a i)).1 % 2 ^ wd) ∧
          (medlarOf t c).fpflags = stick (medlarOf s c).fpflags (anyFlags (fun _ => true)
            (fun i => (o (mvEl (medlarOf s c) ws (rFields w).a i)).2) (512 / max ws wd))))) ∧
  (∀ (g w ws wd : Nat) (x : Group) (s : State),
    GroupIssues .fcvt g w (usedRegs (fcvtKinds (rFields w) true) (rFields w).d (rFields w).a (rFields w).b (rFields w).c
      (rFields w).pe (rFields w).preg) x s →
    GroupRegs s g (fcvtFieldsOk (rFields w) true) (fcvtKinds (rFields w) true) (rFields w) →
    ws = cvtSrcBits (rFields w).op (rFields w).fmt (rFields w).aux → wd = cvtDstBits (rFields w).op (rFields w).fmt (rFields w).aux →
    ∃ t y, exec (.fcvt (.group g) w) s = .next t ∧
      GroupWrites g w (if (rFields w).s then 0 else if ws = 64 ∨ wd = 64 then 2 else 1) (rFields w).d (wd == 64) x y s t ∧
      (∀ o : Nat → Nat × Nat, o = cvtOp (rFields w).op (rFields w).fmt (rFields w).aux
          (roundDir (rFields w).rm x.arch.fpctl.toNat) →
        ((rFields w).s = true →
          sReg y (rFields w).d % 2 ^ wd = (o (sReg x.arch (rFields w).a % 2 ^ ws)).1 % 2 ^ wd ∧
          (wd = 32 → sReg y (rFields w).d = sext 32 64 (o (sReg x.arch (rFields w).a % 2 ^ ws)).1 % 2 ^ 64) ∧
          y.fpflags = stick x.arch.fpflags (o (sReg x.arch (rFields w).a % 2 ^ ws)).2) ∧
        ((rFields w).s = false →
          (∀ i, i < 32 → bit (execMask x.arch (rFields w).pe (rFields w).pn (rFields w).preg) i = true →
            vOperand y wd (rFields w).d i = (o (vOperand x.arch ws (rFields w).a i)).1 % 2 ^ wd) ∧
          y.fpflags = stick x.arch.fpflags
            (anyFlags (bit (execMask x.arch (rFields w).pe (rFields w).pn (rFields w).preg))
              (fun i => (o (vOperand x.arch ws (rFields w).a i)).2) 32))))

/-- R179: a predicated vector operation of INT, INTI, MOVE, PRED, FP or FCVT leaves the lanes that do not execute as they
were: a lane outside the active mask, or one whose predicate does not select it. -/
def Obligations.InactiveLanesAreUnchanged : Prop :=
  ∀ (f : RFields) (a : Arch) (r lane : Nat), lane < 32 → f.s = false →
    bit (execMask a f.pe f.pn f.preg) lane = false →
    (∀ w o, vLane (groupMap2 f w o a) r lane = vLane a r lane) ∧ vLane (fpGroup f a) r lane = vLane a r lane ∧
    (∀ s, vLane (fcvtGroup f a s).1 r lane = vLane a r lane) ∧ vLane (predGroup f a) r lane = vLane a r lane ∧
    bit (pReg (predGroup f a) r) lane = bit (pReg a r) lane ∧
    (∀ s, vLane (moveGroup f a s).1 r lane = vLane a r lane) ∧ vLane (liGroup f a) r lane = vLane a r lane

/-- R144, R187–R189: a Medlar branch and a group's uniform branch go to their target where the condition holds and on where
it does not; a per-lane branch goes on, or jumps, where its lanes agree, and otherwise, outside a matrix region and with fewer
than 32 entries on the stack, pushes one entry and runs the lanes that do not take it; JAL and JALR write the link and jump;
BRX goes to the target its lanes share, and where they name several, outside a matrix region and with room on the stack,
pushes one entry and runs the lanes of the lowest active lane's target first. -/
def Obligations.BranchesAndJumpsExecute : Prop :=
  (∀ (c w : Nat) (s : State), MedlarIssues .br c w s → brFieldsOk w (bFields w) false = true →
    regCause false 0 (brKinds (bFields w)) 0 (bFields w).a (bFields w).b 0 = none →
    ∃ t, exec (.br (.medlar c) w) s = .next t ∧
      (medlarOf t c).pc = (if condHolds (bFields w).cond 64 (gReg (medlarOf s c) (bFields w).a) (gReg (medlarOf s c) (bFields w).b)
        then pcPlus (medlarOf s c).pc (bFields w).target else (medlarOf s c).pc + BitVec.ofNat 64 (wsize w)) ∧
      (∀ d, d ≠ c → medlarOf t d = medlarOf s d) ∧ t = { s with medlars := t.medlars } ∧
      (medlarOf t c).g = (medlarOf s c).g) ∧
  (∀ (g w : Nat) (x : Group) (s : State),
    GroupIssues .br g w (usedRegs (brKinds (bFields w)) 0 (bFields w).a (bFields w).b 0 false 0) x s →
    brFieldsOk w (bFields w) true = true →
    regCause true (groupRegs s g) (brKinds (bFields w)) 0 (bFields w).a (bFields w).b 0 = none →
    ((bFields w).kind = 0 ∨ takenLanes (bFields w) x.arch = 0 ∨ takenLanes (bFields w) x.arch = x.arch.mask.toNat ∨
      (x.arch.region = false ∧ x.arch.stack.length < 32)) →
    ∃ t y, exec (.br (.group g) w) s = .next t ∧ groupOf t g = some y ∧ y.faults = [] ∧ y.arch.v = x.arch.v ∧
      y.arch.s = x.arch.s ∧ y.arch.p = x.arch.p ∧ t.mem = s.mem ∧
      ((bFields w).kind = 0 → y.arch =
        (if condHolds (bFields w).cond 64 (sReg x.arch (bFields w).a) (sReg x.arch (bFields w).b)
         then goTo (pcPlus x.arch.pc (bFields w).target) x.arch else goNext w x.arch)) ∧
      ((bFields w).kind ≠ 0 → takenLanes (bFields w) x.arch = 0 → y.arch = goNext w x.arch) ∧
      ((bFields w).kind ≠ 0 → takenLanes (bFields w) x.arch ≠ 0 → takenLanes (bFields w) x.arch = x.arch.mask.toNat →
        y.arch = goTo (pcPlus x.arch.pc (bFields w).target) x.arch) ∧
      ((bFields w).kind ≠ 0 → takenLanes (bFields w) x.arch ≠ 0 → takenLanes (bFields w) x.arch ≠ x.arch.mask.toNat →
        y.arch = diverge (pcPlus x.arch.pc (bFields w).reconv)
          (x.arch.pc + BitVec.ofNat 64 (wsize w), x.arch.mask &&& ~~~(BitVec.ofNat 32 (takenLanes (bFields w) x.arch)))
          [(pcPlus x.arch.pc (bFields w).target, BitVec.ofNat 32 (takenLanes (bFields w) x.arch))] x.arch)) ∧
  (∀ (c w : Nat) (s : State), MedlarIssues .jal c w s →
    ∃ t, exec (.jal (.medlar c) w) s = .next t ∧
      (medlarOf t c).pc = pcPlus (medlarOf s c).pc (4 * signed 20 (bits w 12 20)) ∧
      (medlarOf t c).g.get 0#64 (bits w 7 5) = (medlarOf s c).pc + 4#64 ∧
      (∀ r, r ≠ bits w 7 5 → gReg (medlarOf t c) r = gReg (medlarOf s c) r) ∧ t = { s with medlars := t.medlars }) ∧
  (∀ (g w : Nat) (x : Group) (s : State), GroupIssues .jal g w [.s (bits w 7 5)] x s →
    exec (.jal (.group g) w) s = .next (bump (K.groupIssueBeats + x.die) 0 (setGroup g { x with
      arch := goTo (pcPlus x.arch.pc (4 * signed 20 (bits w 12 20))) (setS (bits w 7 5) (x.arch.pc.toNat + 4) x.arch) } s))) ∧
  (∀ (c w : Nat) (s : State), MedlarIssues .jalr c w s → MedlarRegs (noPred (iFields w)) jalrKinds { iFields w with b := 0, c := 0 } →
    wrap64 ((gReg (medlarOf s c) (iFields w).a : Int) + signed 64 (iFields w).imm) % 4 = 0 →
    ∃ t, exec (.jalr (.medlar c) w) s = .next t ∧
      (medlarOf t c).pc = BitVec.ofNat 64 (wrap64 ((gReg (medlarOf s c) (iFields w).a : Int) + signed 64 (iFields w).imm)) ∧
      (medlarOf t c).g.get 0#64 (iFields w).d = (medlarOf s c).pc + 8#64 ∧
      (∀ r, r ≠ (iFields w).d → gReg (medlarOf t c) r = gReg (medlarOf s c) r) ∧ t = { s with medlars := t.medlars }) ∧
  (∀ (g w : Nat) (x : Group) (s : State), GroupIssues .jalr g w (usedRegs jalrKinds (iFields w).d (iFields w).a 0 0 false 0) x s →
    GroupRegs s g (noPred (iFields w)) jalrKinds { iFields w with b := 0, c := 0 } →
    wrap64 ((sReg x.arch (iFields w).a : Int) + signed 64 (iFields w).imm) % 4 = 0 →
    exec (.jalr (.group g) w) s = .next (bump (K.groupIssueBeats + x.die) 0 (setGroup g { x with
      arch := goTo (BitVec.ofNat 64 (wrap64 ((sReg x.arch (iFields w).a : Int) + signed 64 (iFields w).imm)))
        (setS (iFields w).d (x.arch.pc.toNat + 8) x.arch) } s))) ∧
  (∀ (g w : Nat) (x : Group) (first : BitVec 64 × BitVec 32) (rest : List (BitVec 64 × BitVec 32)) (s : State),
    GroupIssues .brx g w (usedRegs brxKinds 0 (iFields w).a 0 0 false 0) x s →
    GroupRegs s g (noPred (iFields w) && 4 * bits w 32 32 != 0) brxKinds { iFields w with b := 0, c := 0 } →
    targetsOf x.arch.mask.toNat (fun i => BitVec.ofNat 64 (vPair x.arch (iFields w).a i)) = first :: rest →
    (∀ u, u ∈ first :: rest → u.1.toNat % 4 = 0) → (rest = [] ∨ (x.arch.region = false ∧ x.arch.stack.length < 32)) →
    ∃ t y, exec (.brx (.group g) w) s = .next t ∧ groupOf t g = some y ∧ y.faults = [] ∧ t.mem = s.mem ∧
      (∀ i, i < 32 → x.arch.mask.getLsbD i = true → (∀ k, k < i → x.arch.mask.getLsbD k = false) →
        first.1 = BitVec.ofNat 64 (vPair x.arch (iFields w).a i) ∧ first.2.getLsbD i = true) ∧
      (rest = [] → y.arch = goTo first.1 x.arch) ∧
      (rest ≠ [] → y.arch = diverge (pcPlus x.arch.pc (4 * bits w 32 32)) first rest x.arch))

/-- R147, R150, R193: MXBEGIN with all 32 lanes active opens a matrix region and MXEND closes an open one; MMA in a region
keeps the eight rows of its product in flight, and MMA_RESULT writes the oldest of them to their registers. -/
def Obligations.MatrixInstructionsExecute : Prop :=
  (∀ (g w : Nat) (x : Group) (s : State), GroupIssues .mxbegin g w [] x s → mxPlain w = true → x.arch.region = false →
    x.arch.mask = BitVec.allOnes 32 →
    exec (.mxbegin (.group g) w) s = .next (groupRetired g w 0 x { x.arch with region := true } s)) ∧
  (∀ (g w : Nat) (x : Group) (s : State), GroupIssues .mxend g w [] x s → mxPlain w = true → x.arch.region = true →
    exec (.mxend (.group g) w) s = .next (groupRetired g w 0 x { x.arch with region := false } s)) ∧
  (∀ (g w : Nat) (x : Group) (s : State),
    GroupIssues .mma g w (rowsFrom (rFields w).a 4 ++ rowsFrom (rFields w).b 4 ++ rowsFrom (rFields w).d 8 ++
      (if (rFields w).s then [] else rowsFrom (rFields w).c 8)) x s →
    mmaFieldsOk (rFields w) = true → mmaInRange (rFields w) (groupRegs s g) = true → x.arch.region = true →
    exec (.mma (.group g) w) s = .next (groupRetired g w 0 x
      { x.arch with mma := x.arch.mma ++ [((rFields w).d, mmaRows (rFields w) x.arch)] } s)) ∧
  (∀ (g d : Nat) (rows : List (BitVec 1024)) (rest : List (Nat × List (BitVec 1024))) (x : Group) (s : State),
    groupOf s g = some x → x.arch.mma = (d, rows) :: rest → rows.length = 8 →
    ∃ t y, exec (.mmaResult g) s = .next t ∧ groupOf t g = some y ∧ y.arch.mma = rest ∧
      (∀ i, i < 8 → y.arch.v.get 0#1024 (d + i) = rows.getD i 0#1024) ∧
      (∀ r, r < d ∨ d + 8 ≤ r → y.arch.v.get 0#1024 r = x.arch.v.get 0#1024 r) ∧ y.arch.s = x.arch.s ∧
      (∀ g', g' ≠ g → groupOf t g' = groupOf s g') ∧ t.mem = s.mem)

/-- R157, R190, R191: each fence that may end does so and the pc moves on, FENCE.ACQ emptying its core's L1; FENCE.SL and
FENCE.WC first send the combining buffer; FENCE.SYS makes its core or group wait, and, once every earlier write is resolved,
writes to D 0x22 where one was abandoned with its front-end's epoch, else 0x21 where one was abandoned, else 0; a report held
for a Medlar core is taken then. -/
def Obligations.FencesEndOnceTheirWritesAreDone : Prop :=
  (∀ (c w : Nat) (s : State), MedlarIssues .fenceSl c w s → fenceFieldsOk w false = true → (medlarOf s c).comb = [] →
    (medlarOf s c).sb = [] → writesNear s (.medlar c) = [] →
    exec (.fenceSl (.medlar c) w) s = .next (medlarRetired c w (medlarOf s c) s)) ∧
  (∀ (c w : Nat) (s : State), MedlarIssues .fenceSl c w s → fenceFieldsOk w false = true → (medlarOf s c).comb ≠ [] →
    ∃ t, exec (.fenceSl (.medlar c) w) s = .next t ∧ (medlarOf t c).comb = [] ∧ (medlarOf t c).pc = (medlarOf s c).pc) ∧
  (∀ (c w : Nat) (s : State), MedlarIssues .fenceWc c w s → fenceFieldsOk w false = true → (medlarOf s c).comb = [] →
    (∀ r, r ∈ writesNear s (.medlar c) → r.2.xl.region ≠ 1) →
    exec (.fenceWc (.medlar c) w) s = .next (medlarRetired c w (medlarOf s c) s)) ∧
  (∀ (c w : Nat) (s : State), MedlarIssues .fenceI c w s → fenceFieldsOk w false = true →
    exec (.fenceI (.medlar c) w) s = .next (medlarRetired c w (medlarOf s c) s)) ∧
  (∀ (g w : Nat) (x : Group) (s : State), GroupIssues .fenceRel g w [] x s → fenceFieldsOk w false = true →
    writesNear s (.group g) = [] →
    exec (.fenceRel (.group g) w) s = .next (groupRetired g w 0 x x.arch s)) ∧
  (∀ (g w : Nat) (x : Group) (s : State), GroupIssues .fenceAcq g w [] x s → fenceFieldsOk w false = true → x.loads = [] →
    ∃ t y, exec (.fenceAcq (.group g) w) s = .next t ∧ groupOf t g = some y ∧ y.arch = goNext w x.arch ∧
      (gcoreOf t (coreKey x.die x.core)).l1 = ⟨[]⟩ ∧ t.mem = s.mem) ∧
  (∀ (c w : Nat) (s : State), MedlarIssues .fenceSys c w s → fenceFieldsOk w true = true →
    ∃ t, exec (.fenceSys (.medlar c) w) s = .next t ∧ (medlarOf t c).sysWait = some (rFields w).d ∧
      (medlarOf t c).comb = [] ∧ (medlarOf t c).pc = (medlarOf s c).pc + BitVec.ofNat 64 (wsize w)) ∧
  (∀ (g w : Nat) (x : Group) (s : State), GroupIssues .fenceSys g w [.s (rFields w).d] x s → fenceFieldsOk w true = true →
    exec (.fenceSys (.group g) w) s = .next (groupRetired g w 0 { x with sysWait := some (rFields w).d } x.arch s)) ∧
  (∀ (c d : Nat) (s : State), writesOut s (.medlar c) = [] → (medlarOf s c).sysWait = some d → (medlarOf s c).sb = [] →
    (medlarOf s c).posted = [] →
    ∃ code, exec (.fenceSysResolve (.medlar c)) s =
        .next (takeHeld c (setMedlar c { setG d code (medlarOf s c) with sysWait := none } s)) ∧
      (.frontendGone ∈ (medlarOf s c).abandoned → code = 0x22) ∧
      (.frontendGone ∉ (medlarOf s c).abandoned → .remoteAbandoned ∈ (medlarOf s c).abandoned → code = 0x21) ∧
      (.frontendGone ∉ (medlarOf s c).abandoned → .remoteAbandoned ∉ (medlarOf s c).abandoned → code = 0) ∧
      ((medlarOf s c).held = [] → exec (.fenceSysResolve (.medlar c)) s =
        .next (setMedlar c { setG d code (medlarOf s c) with sysWait := none } s))) ∧
  (∀ (g d : Nat) (x : Group) (s : State), writesOut s (.group g) = [] → groupOf s g = some x → x.sysWait = some d →
    ∃ t y code, exec (.fenceSysResolve (.group g)) s = .next t ∧ groupOf t g = some y ∧ y.sysWait = none ∧
      y.arch = setS d code x.arch ∧ t = { s with grp := t.grp } ∧
      (.frontendGone ∈ x.abandoned → code = 0x22) ∧
      (.frontendGone ∉ x.abandoned → .remoteAbandoned ∈ x.abandoned → code = 0x21) ∧
      (.frontendGone ∉ x.abandoned → .remoteAbandoned ∉ x.abandoned → code = 0))

/-- R194–R196, R201: NOP only moves the pc; END of a group with no load pending, no region open and an empty stack ends it;
TRET in RUNTIME mode restores the mode and the pc; TRAP saves the address behind it, its immediate and the mode and goes to
TRAP_VEC, and switches a group out with its immediate; CRR reads a control register that exists, TIME as the die's
time-of-day label (BEATS reads an open value, assumption 96); CRW writes the bits that are not reserved of one that may be written, and no other; in APP mode TRET
and CRW of any register but FPCTL, FPFLAGS and SCRATCH trap as PRIVILEGED. -/
def Obligations.SystemInstructionsExecute : Prop :=
  (∀ (c w : Nat) (s : State), MedlarIssues .nop c w s → sysPlain w = true →
    exec (.nopInstruction (.medlar c) w) s = .next (medlarRetired c w (medlarOf s c) s)) ∧
  (∀ (g w : Nat) (x : Group) (s : State), GroupIssues .nop g w [] x s → sysPlain w = true →
    exec (.nopInstruction (.group g) w) s = .next (groupRetired g w 0 x x.arch s)) ∧
  (∀ (g w : Nat) (x : Group) (l : Launch) (s : State), GroupIssues .end_ g w [] x s → sysPlain w = true →
    x.arch.region = false → x.arch.stack = [] → x.loads = [] → s.grp.launches.find (launchKey g) = some l →
    ∃ t l', exec (.endGroup (.group g) w) s = .next t ∧ groupOf t g = none ∧
      t.grp.launches.find (launchKey g) = some l' ∧ l'.ended = l.ended + 1 ∧
      (∀ g', g' ≠ g → groupOf t g' = groupOf s g') ∧ t.mem = s.mem) ∧
  (∀ (c w : Nat) (s : State), MedlarIssues .tret c w s → sysPlain w = true → (medlarOf s c).runtime = true →
    (medlarOf s c).held = [] →
    ∃ t, exec (.tret (.medlar c) w) s = .next t ∧ (medlarOf t c).pc = (medlarOf s c).trapPc ∧
      (medlarOf t c).runtime = (medlarOf s c).trapCause.getLsbD 9 ∧ (medlarOf t c).g = (medlarOf s c).g ∧
      (∀ d, d ≠ c → medlarOf t d = medlarOf s d) ∧ t = { s with medlars := t.medlars }) ∧
  (∀ (c w : Nat) (s : State), MedlarIssues .tret c w s → sysPlain w = true → (medlarOf s c).runtime = false →
    ∃ t, exec (.tret (.medlar c) w) s = .next t ∧ (medlarOf t c).pc = (medlarOf s c).trapVec ∧
      (medlarOf t c).trapPc = (medlarOf s c).pc ∧ (medlarOf t c).runtime = true ∧
      (medlarOf t c).trapCause = BitVec.ofNat 64 (causeCode .privileged) ∧ (medlarOf t c).g = (medlarOf s c).g) ∧
  (∀ (c w : Nat) (s : State), MedlarIssues .trap c w s → trapFieldsOk (iFields w) = true →
    ∃ t, exec (.trap (.medlar c) w) s = .next t ∧ (medlarOf t c).pc = (medlarOf s c).trapVec ∧
      (medlarOf t c).trapPc = (medlarOf s c).pc + 8#64 ∧ (medlarOf t c).trapAddr = BitVec.ofNat 64 (bits w 32 32) ∧
      (medlarOf t c).trapCause =
        BitVec.ofNat 64 (causeCode .software + (if (medlarOf s c).runtime then 512 else 0)) ∧
      (medlarOf t c).runtime = true ∧ (medlarOf t c).comb = [] ∧ (medlarOf t c).g = (medlarOf s c).g) ∧
  (∀ (g w : Nat) (x : Group) (s : State), GroupIssues .trap g w [] x s → trapFieldsOk (iFields w) = true →
    ∃ t y f, exec (.trap (.group g) w) s = .next t ∧ groupOf t g = some y ∧ y.arch = x.arch ∧ y.faults = [f] ∧
      f.cause = .software ∧ f.va = bits w 32 32) ∧
  (∀ (c w n : Nat) (s : State), MedlarIssues .crr c w s → crNumber w = some n →
    MedlarRegs (noPred (iFields w) && crExists false n) (crKinds false) { iFields w with b := 0, c := 0 } →
    ∃ v k, exec (.crr (.medlar c) w) s =
        .next (medlarRetired c w (setG (iFields w).d v (medlarOf s c)) { s with freeN := k }) ∧
      (n = 0x000 → v = (medlarOf s c).fpctl.toNat) ∧ (n = 0x001 → v = (medlarOf s c).fpflags.toNat) ∧
      (n = 0x003 → v = label (dieOfCore c) s) ∧ (n = 0x100 → v = if (medlarOf s c).runtime then 1 else 0) ∧
      (n = 0x101 → v = (medlarOf s c).trapVec.toNat) ∧ (n = 0x102 → v = (medlarOf s c).trapPc.toNat) ∧
      (n = 0x103 → v = (medlarOf s c).trapCause.toNat) ∧ (n = 0x104 → v = (medlarOf s c).trapAddr.toNat) ∧
      (n = 0x105 → v = (medlarOf s c).ctx.toNat) ∧ (n = 0x106 → v = (medlarOf s c).scratch.toNat)) ∧
  (∀ (g w n : Nat) (x : Group) (s : State), crNumber w = some n →
    GroupIssues .crr g w (usedRegs (crKinds false) (iFields w).d 0 0 0 false 0) x s →
    GroupRegs s g (noPred (iFields w) && crExists true n) (crKinds false) { iFields w with b := 0, c := 0 } →
    ∃ v k, exec (.crr (.group g) w) s = .next (groupRetired g w 0 x (setS (iFields w).d v x.arch) { s with freeN := k }) ∧
      (n = 0x000 → v = x.arch.fpctl.toNat) ∧ (n = 0x001 → v = x.arch.fpflags.toNat) ∧ (n = 0x003 → v = label x.die s)) ∧
  (∀ (c w n : Nat) (s : State), MedlarIssues .crw c w s → crNumber w = some n →
    MedlarRegs (noPred (iFields w) && crExists false n && !crReadOnly n) (crKinds true) { iFields w with b := 0, c := 0 } →
    ((medlarOf s c).runtime = true ∨ n = 0 ∨ n = 1 ∨ n = 0x106) →
    ∃ m, exec (.crw (.medlar c) w) s = .next (medlarRetired c w m s) ∧
      m = { medlarOf s c with fpctl := m.fpctl, fpflags := m.fpflags, trapVec := m.trapVec, trapPc := m.trapPc,
                              trapCause := m.trapCause, trapAddr := m.trapAddr, ctx := m.ctx, scratch := m.scratch } ∧
      crReadMedlar c n m s = (gReg (medlarOf s c) (iFields w).a &&& crMask n, s) ∧
      (∀ k, k ≠ n → crExists false k = true → (crReadMedlar c k m s).1 = (crReadMedlar c k (medlarOf s c) s).1)) ∧
  (∀ (c w n : Nat) (s : State), MedlarIssues .crw c w s → crNumber w = some n →
    MedlarRegs (noPred (iFields w) && crExists false n && !crReadOnly n) (crKinds true) { iFields w with b := 0, c := 0 } →
    (medlarOf s c).runtime = false → n ≠ 0 → n ≠ 1 → n ≠ 0x106 →
    ∃ t, exec (.crw (.medlar c) w) s = .next t ∧ (medlarOf t c).pc = (medlarOf s c).trapVec ∧
      (medlarOf t c).trapPc = (medlarOf s c).pc ∧ (medlarOf t c).runtime = true ∧
      (medlarOf t c).trapCause = BitVec.ofNat 64 (causeCode .privileged) ∧ (medlarOf t c).g = (medlarOf s c).g) ∧
  (∀ (g w n : Nat) (x : Group) (s : State), crNumber w = some n →
    GroupIssues .crw g w (usedRegs (crKinds true) 0 (iFields w).a 0 0 false 0) x s →
    GroupRegs s g (noPred (iFields w) && crExists true n && !crReadOnly n) (crKinds true) { iFields w with b := 0, c := 0 } →
    exec (.crw (.group g) w) s = .next (groupRetired g w 0 x
      (if n = 0 then { x.arch with fpctl := BitVec.ofNat 64 (sReg x.arch (iFields w).a &&& crMask n) }
       else { x.arch with fpflags := BitVec.ofNat 64 (sReg x.arch (iFields w).a &&& crMask n) }) s))

/-- R153, R154, R160, R163, R181, R183–R185: a group's LD, ST, AMO, CAS or RED whose lanes all translate sends the requests
of its lanes, one for each line, and the group goes on behind the instruction; stacked memory changes only at the homes. A load
asks for the lines its core's L1 lacks and keeps a pending load, or retires at once where the L1 has them all; a store, an
atomic and a reduce-write wait while an earlier load may still fault; AMO and CAS, with no load pending, keep a pending load
for D where some lane executes, and a store and RED keep none. -/
def Obligations.GroupMemoryInstructionsIssue : Prop :=
  (∀ (g w : Nat) (x : Group) (ts : List LaneTry) (miss : List LanePart) (s : State),
    GroupIssues .ld g w (memUses (accessKinds true ((mFields w).opf == 1) (mFields w)) (mFields w)) x s →
    GroupMemRegs s g (loadStoreOk true true (mFields w)) (accessKinds true ((mFields w).opf == 1) (mFields w)) (mFields w) →
    ts = tryLanes s (launchCtx s (launchKey g)) needR (accessBytes (mFields w).width) false (laneAddr (mFields w) x.arch)
      (accessLanes x.arch (mFields w) ((mFields w).opf == 1)) → firstBad ts = none →
    miss = (partsOf (accessBytes (mFields w).width) (fun _ => (0, 0)) ts).filter
      (fun p => (l1Hit s (coreKey x.die x.core) (!(mFields w).bench) p).isNone) →
    ∃ t y l, exec (.ld (.group g) w) s = .next t ∧ groupOf t g = some y ∧ y.faults = [] ∧ t.mem = s.mem ∧
      t.medlars = s.medlars ∧ l.width = accessBytes (mFields w).width ∧ l.sx = (mFields w).sx ∧
      l.dest = (if (mFields w).opf = 1 then .s (mFields w).d else .lanes (mFields w).d) ∧
      (miss = [] → y.loads = x.loads ∧ t.reqs = s.reqs ∧ y.arch = goNext w (applyLoad l x.arch)) ∧
      (miss ≠ [] → y.arch = goNext w x.arch ∧ y.loads = x.loads ++ [l] ∧ l.id = s.nextReq ∧ l.saved = some x.arch ∧
        l.left = miss.length ∧ PartsSent g .read l.id miss t)) ∧
  (∀ (g w : Nat) (x : Group) (ts : List LaneTry) (s : State),
    GroupIssues .st g w (memUses (accessKinds true ((mFields w).opf == 1) (mFields w)) (mFields w)) x s →
    GroupMemRegs s g (loadStoreOk true false (mFields w)) (accessKinds true ((mFields w).opf == 1) (mFields w)) (mFields w) →
    loadsOpen s g x = false →
    ts = tryLanes s (launchCtx s (launchKey g)) needW (accessBytes (mFields w).width) false (laneAddr (mFields w) x.arch)
      (accessLanes x.arch (mFields w) ((mFields w).opf == 1)) → firstBad ts = none →
    ∃ t y, exec (.st (.group g) w) s = .next t ∧ groupOf t g = some y ∧ y.faults = [] ∧ y.loads = x.loads ∧
      y.arch = goNext w x.arch ∧ t.mem = s.mem ∧ t.medlars = s.medlars ∧
      (lanesOverlap (accessBytes (mFields w).width) ts = false → PartsSent g .write 0
        (partsOf (accessBytes (mFields w).width) (fun i => (if (mFields w).opf == 1 then sReg x.arch (mFields w).d
          else vOperand x.arch (8 * accessBytes (mFields w).width) (mFields w).d i, 0)) ts) t)) ∧
  (∀ (g w : Nat) (x : Group) (ts : List LaneTry) (s : State),
    GroupIssues .amo g w (memUses (accessKinds true false (mFields w)) (mFields w)) x s →
    GroupMemRegs s g (atomicFieldsOk true true (mFields w) && (mFields w).opf != 9) (accessKinds true false (mFields w))
      (mFields w) →
    x.loads = [] → loadsOpen s g x = false →
    ts = tryLanes s (launchCtx s (launchKey g)) needRW (accessBytes (mFields w).width) true (laneAddr (mFields w) x.arch)
      (accessLanes x.arch (mFields w) false) → firstBad ts = none →
    ∃ t y, exec (.amo (.group g) w) s = .next t ∧ groupOf t g = some y ∧ y.faults = [] ∧ y.arch = goNext w x.arch ∧
      (accessLanes x.arch (mFields w) false = [] → y.loads = []) ∧
      (accessLanes x.arch (mFields w) false ≠ [] → ∃ l, y.loads = [l] ∧ l.id = s.nextReq ∧ l.dest = .lanes (mFields w).d ∧
        l.saved = some x.arch ∧ 0 < l.left ∧ PartsSent g (.atomic (mFields w).opf (mFields w).width) l.id
          (partsOf (accessBytes (mFields w).width)
            (fun i => (vOperand x.arch (8 * accessBytes (mFields w).width) (mFields w).d i, 0)) ts) t) ∧
      t.mem = s.mem) ∧
  (∀ (g w : Nat) (x : Group) (ts : List LaneTry) (s : State),
    GroupIssues .cas g w (memUses { accessKinds true false (mFields w) with
      b := if (mFields w).width = 3 then .pair else .vec } (mFields w)) x s →
    GroupMemRegs s g (casOk true (mFields w)) { accessKinds true false (mFields w) with
      b := if (mFields w).width = 3 then .pair else .vec } (mFields w) →
    x.loads = [] → loadsOpen s g x = false →
    ts = tryLanes s (launchCtx s (launchKey g)) needRW (accessBytes (mFields w).width) true (laneAddr (mFields w) x.arch)
      (accessLanes x.arch (mFields w) false) → firstBad ts = none →
    ∃ t y, exec (.cas (.group g) w) s = .next t ∧ groupOf t g = some y ∧ y.faults = [] ∧ y.arch = goNext w x.arch ∧
      (accessLanes x.arch (mFields w) false = [] → y.loads = []) ∧
      (accessLanes x.arch (mFields w) false ≠ [] → ∃ l, y.loads = [l] ∧ l.id = s.nextReq ∧ l.dest = .lanes (mFields w).d ∧
        PartsSent g (.atomic 9 (mFields w).width) l.id (partsOf (accessBytes (mFields w).width)
          (fun i => (vOperand x.arch (8 * accessBytes (mFields w).width) (mFields w).b i,
            vOperand x.arch (8 * accessBytes (mFields w).width) (mFields w).d i)) ts) t) ∧
      t.mem = s.mem) ∧
  (∀ (g w : Nat) (x : Group) (ts : List LaneTry) (s : State),
    GroupIssues .red g w (memUses (accessKinds true false (mFields w)) (mFields w)) x s →
    GroupMemRegs s g (atomicFieldsOk true false (mFields w)) (accessKinds true false (mFields w)) (mFields w) →
    loadsOpen s g x = false →
    ts = tryLanes s (launchCtx s (launchKey g)) needW (accessBytes (mFields w).width) true (laneAddr (mFields w) x.arch)
      (accessLanes x.arch (mFields w) false) → firstBad ts = none →
    ∃ t y, exec (.red (.group g) w) s = .next t ∧ groupOf t g = some y ∧ y.faults = [] ∧ y.loads = x.loads ∧
      y.arch = goNext w x.arch ∧ t.mem = s.mem ∧
      PartsSent g (.reduce (mFields w).opf (mFields w).width) 0 (partsOf (accessBytes (mFields w).width)
        (fun i => (vOperand x.arch (8 * accessBytes (mFields w).width) (mFields w).d i, 0)) ts) t)

/-- R155, R186: a LOCAL access whose lanes are aligned and lie in the group's local store completes: a load writes what the
local store holds to the executing lanes of D and changes no other lane, register or byte; a store whose lanes do not overlap
writes its lanes' bytes, and none changes a byte outside them or a register; neither touches stacked memory. -/
def Obligations.LocalAccessesComplete : Prop :=
  ∀ (g w n : Nat) (x : Group) (s : State), n = accessBytes (mFields w).width →
    GroupIssues .local_ g w (memUses { accessKinds true false (mFields w) with
      a := if (mFields w).am = 2 then .vec else .sc } (mFields w)) x s →
    GroupMemRegs s g (localOk (mFields w)) { accessKinds true false (mFields w) with
      a := if (mFields w).am = 2 then .vec else .sc } (mFields w) →
    (∀ i, i ∈ accessLanes x.arch (mFields w) false → laneLocal (mFields w) x.arch i % n = 0 ∧
      laneLocal (mFields w) x.arch i + n ≤ localBytes (launchRaw s (launchKey g))) →
    ∃ t y, exec (.localAccess (.group g) w) s = .next t ∧ groupOf t g = some y ∧ y.faults = [] ∧ y.loads = x.loads ∧
      y.arch.s = x.arch.s ∧ y.arch.p = x.arch.p ∧ t.mem = s.mem ∧ t.reqs = s.reqs ∧
      ((mFields w).opf = 0 → y.arch.localMem = x.arch.localMem ∧
        (∀ i, i ∈ accessLanes x.arch (mFields w) false →
          (n = 8 → vPair y.arch (mFields w).d i = localRead x.arch (laneLocal (mFields w) x.arch i) n) ∧
          (n ≠ 8 → vLane y.arch (mFields w).d i =
            laneValue n (mFields w).sx (localRead x.arch (laneLocal (mFields w) x.arch i) n) % 2 ^ 32)) ∧
        (∀ r lane, lane < 32 → (lane ∉ accessLanes x.arch (mFields w) false ∨
          (r ≠ (mFields w).d ∧ (n = 8 → r ≠ (mFields w).d + 1))) → vLane y.arch r lane = vLane x.arch r lane)) ∧
      ((mFields w).opf = 1 → y.arch.v = x.arch.v ∧
        ((∀ i j, i ∈ accessLanes x.arch (mFields w) false → j ∈ accessLanes x.arch (mFields w) false → i ≠ j →
            laneLocal (mFields w) x.arch i + n ≤ laneLocal (mFields w) x.arch j ∨
            laneLocal (mFields w) x.arch j + n ≤ laneLocal (mFields w) x.arch i) →
          ∀ i, i ∈ accessLanes x.arch (mFields w) false →
            localRead y.arch (laneLocal (mFields w) x.arch i) n = vOperand x.arch (8 * n) (mFields w).d i) ∧
        ∀ a, (∀ i, i ∈ accessLanes x.arch (mFields w) false →
            a < laneLocal (mFields w) x.arch i ∨ laneLocal (mFields w) x.arch i + n ≤ a) →
          y.arch.localMem.get 0#8 a = x.arch.localMem.get 0#8 a)

/-- R182, R208, R214–R216, R222: a Medlar load whose parts translate, and need not wait, is issued; one of a single part in an
uncached memory region, with nothing combined, sends one request and keeps the load pending; one of a Normal-cached line that
the core holds writes its register at once. A store to Normal-cached memory enters the store buffer part by part with its
bytes, while it has room; with none it does not retire. -/
def Obligations.MedlarLoadsAndStoresIssue : Prop :=
  (∀ (c w : Nat) (d : Dest) (s t : State), MedlarIssues .ld c w s →
    MedlarMemRegs (loadStoreOk false true (mFields w)) (accessKinds false false (mFields w)) (mFields w) →
    d = (if (mFields w).width = 4 then .v512 (mFields w).d else .g (mFields w).d) →
    medlarLoad c w (d :: .g (mFields w).a :: (if (mFields w).am = 1 then [Dest.g (mFields w).b] else [])) d
      (accessBytes (mFields w).width) (mFields w).sx (medlarAddr (mFields w) (medlarOf s c)) (medlarOf s c) s = .done t →
    exec (.ld (.medlar c) w) s = .next t) ∧
  (∀ (c w off : Nat) (p : MedPart) (s : State), MedlarIssues .ld c w s →
    MedlarMemRegs (loadStoreOk false true (mFields w)) (accessKinds false false (mFields w)) (mFields w) →
    medlarTries s (medlarCtx (medlarOf s c)) needR (medlarAddr (mFields w) (medlarOf s c)) (accessBytes (mFields w).width) =
      (none, [p]) →
    p.n = accessBytes (mFields w).width → p.xl.region = 1 → p.xl.target = .memory off → (medlarOf s c).comb = [] →
    (medlarOf s c).loads = [] →
    ∃ t l r, exec (.ld (.medlar c) w) s = .next t ∧ (medlarOf t c).loads = [l] ∧ l.left = 1 ∧
      l.pc = (medlarOf s c).pc ∧ (medlarOf t c).pc = (medlarOf s c).pc + BitVec.ofNat 64 (wsize w) ∧
      (medlarOf t c).g = (medlarOf s c).g ∧ t.reqs.find s.nextReq = some r ∧ r.kind = .read ∧ r.xl = p.xl ∧ r.va = p.va ∧
      r.load = l.id ∧ t.mem = s.mem) ∧
  (∀ (c w line : Nat) (p : MedPart) (e : CLine) (s : State), MedlarIssues .ld c w s →
    MedlarMemRegs (loadStoreOk false true (mFields w)) (accessKinds false false (mFields w)) (mFields w) →
    medlarTries s (medlarCtx (medlarOf s c)) needR (medlarAddr (mFields w) (medlarOf s c)) (accessBytes (mFields w).width) =
      (none, [p]) →
    (mFields w).width ≤ 3 → p.n = accessBytes (mFields w).width → p.shift = 0 → p.xl.region = 0 → lineOf p.xl = some line →
    (medlarOf s c).loads = [] → (medlarOf s c).sb = [] → (medlarOf s c).held = [] →
    (medlarOf s c).lines.find line = some e → e.poison = false →
    ∃ t, exec (.ld (.medlar c) w) s = .next t ∧ (medlarOf t c).loads = [] ∧
      (medlarOf t c).g.get 0#64 (mFields w).d =
        BitVec.ofNat 64 (widen p.n (mFields w).sx (lineBytes e.data (p.va % 128) p.n)) ∧
      (∀ r, r ≠ (mFields w).d → gReg (medlarOf t c) r = gReg (medlarOf s c) r) ∧
      (medlarOf t c).pc = (medlarOf s c).pc + BitVec.ofNat 64 (wsize w) ∧ t.mem = s.mem ∧ t.reqs = s.reqs) ∧
  (∀ (c w : Nat) (ps : List MedPart) (s : State), MedlarIssues .st c w s →
    MedlarMemRegs (loadStoreOk false false (mFields w)) (accessKinds false false (mFields w)) (mFields w) →
    medlarTries s (medlarCtx (medlarOf s c)) needW (medlarAddr (mFields w) (medlarOf s c)) (accessBytes (mFields w).width) =
      (none, ps) → (∀ p, p ∈ ps → p.xl.region = 0) → (medlarOf s c).sb.length + ps.length ≤ 64 →
    ∃ t, exec (.st (.medlar c) w) s = .next t ∧
      (medlarOf t c).sb.map (fun e => (e.va, e.n, e.val)) = (medlarOf s c).sb.map (fun e => (e.va, e.n, e.val)) ++
        ps.map (fun p => (p.va, p.n, bits (if (mFields w).width = 4 then mvReg (medlarOf s c) (mFields w).d
          else gReg (medlarOf s c) (mFields w).d % 2 ^ (8 * accessBytes (mFields w).width)) (8 * p.shift) (8 * p.n))) ∧
      (medlarOf t c).pc = (medlarOf s c).pc + BitVec.ofNat 64 (wsize w) ∧ (medlarOf t c).g = (medlarOf s c).g ∧
      (medlarOf t c).lines = (medlarOf s c).lines ∧ t = { s with medlars := t.medlars }) ∧
  (∀ (c w : Nat) (s t : State), MedlarIssues .st c w s →
    MedlarMemRegs (loadStoreOk false false (mFields w)) (accessKinds false false (mFields w)) (mFields w) →
    medlarStore c w (accessBytes (mFields w).width) (if (mFields w).width = 4 then mvReg (medlarOf s c) (mFields w).d
        else gReg (medlarOf s c) (mFields w).d % 2 ^ (8 * accessBytes (mFields w).width))
      (medlarAddr (mFields w) (medlarOf s c)) (medlarOf s c) s = .done t →
    exec (.st (.medlar c) w) s = .next t) ∧
  (∀ (c w : Nat) (ps : List MedPart) (s : State), MedlarIssues .st c w s →
    MedlarMemRegs (loadStoreOk false false (mFields w)) (accessKinds false false (mFields w)) (mFields w) →
    medlarTries s (medlarCtx (medlarOf s c)) needW (medlarAddr (mFields w) (medlarOf s c)) (accessBytes (mFields w).width) =
      (none, ps) → (∀ p, p ∈ ps → p.xl.region = 0) → 64 < (medlarOf s c).sb.length + ps.length →
    ∃ t, exec (.st (.medlar c) w) s = .next t ∧ t.medlars = s.medlars ∧ OnlyRecords s t)

/-- R184, R185, R208, R211: a Medlar AMO or CAS that translates, with every earlier store performed and nothing combined,
asks its home for one atomic, CAS with its new value from B and its expected one from D, and keeps a pending load for D; RED
enters the store buffer while it has room. -/
def Obligations.MedlarAtomicsIssue : Prop :=
  (∀ (c w off : Nat) (x : Xl) (s : State), MedlarIssues .amo c w s →
    MedlarMemRegs (atomicFieldsOk false true (mFields w) && (mFields w).opf != 9) (accessKinds false false (mFields w))
      (mFields w) →
    tryAccess s (medlarCtx (medlarOf s c)) needRW (accessBytes (mFields w).width) true
      (medlarAddr (mFields w) (medlarOf s c)) = .ok x → x.target = .memory off →
    (medlarOf s c).sb = [] → (medlarOf s c).comb = [] →
    ∃ t l r, exec (.amo (.medlar c) w) s = .next t ∧ (medlarOf t c).loads = (medlarOf s c).loads ++ [l] ∧
      l.dest = .g (mFields w).d ∧ t.reqs.find s.nextReq = some r ∧ r.kind = .atomic (mFields w).opf (mFields w).width ∧
      r.xl = x ∧ r.load = l.id ∧ r.src = .medlar c ∧
      r.lanes.map (fun a => (a.pos, a.n, a.val)) = [(medlarAddr (mFields w) (medlarOf s c) % 128, accessBytes (mFields w).width,
        gReg (medlarOf s c) (mFields w).d % 2 ^ (8 * accessBytes (mFields w).width))] ∧
      (medlarOf t c).pc = (medlarOf s c).pc + BitVec.ofNat 64 (wsize w) ∧ t.mem = s.mem) ∧
  (∀ (c w off : Nat) (x : Xl) (s : State), MedlarIssues .cas c w s →
    MedlarMemRegs (casOk false (mFields w)) { accessKinds false false (mFields w) with b := .sc } (mFields w) →
    tryAccess s (medlarCtx (medlarOf s c)) needRW (accessBytes (mFields w).width) true
      (medlarAddr (mFields w) (medlarOf s c)) = .ok x → x.target = .memory off →
    (medlarOf s c).sb = [] → (medlarOf s c).comb = [] →
    ∃ t l r, exec (.cas (.medlar c) w) s = .next t ∧ (medlarOf t c).loads = (medlarOf s c).loads ++ [l] ∧
      l.dest = .g (mFields w).d ∧ t.reqs.find s.nextReq = some r ∧ r.kind = .atomic 9 (mFields w).width ∧ r.xl = x ∧
      r.load = l.id ∧ r.lanes.map (fun a => (a.val, a.cmp)) =
        [(gReg (medlarOf s c) (mFields w).b % 2 ^ (8 * accessBytes (mFields w).width),
          gReg (medlarOf s c) (mFields w).d % 2 ^ (8 * accessBytes (mFields w).width))] ∧
      (medlarOf t c).pc = (medlarOf s c).pc + BitVec.ofNat 64 (wsize w) ∧ t.mem = s.mem) ∧
  (∀ (c w : Nat) (x : Xl) (s : State), MedlarIssues .red c w s →
    MedlarMemRegs (atomicFieldsOk false false (mFields w)) (accessKinds false false (mFields w)) (mFields w) →
    tryAccess s (medlarCtx (medlarOf s c)) needW (accessBytes (mFields w).width) true
      (medlarAddr (mFields w) (medlarOf s c)) = .ok x → (medlarOf s c).sb.length < 64 →
    ∃ t e, exec (.red (.medlar c) w) s = .next t ∧ (medlarOf t c).sb = (medlarOf s c).sb ++ [e] ∧
      e.reduce = some ((mFields w).opf, (mFields w).width) ∧ e.xl = x ∧
      e.val = gReg (medlarOf s c) (mFields w).d % 2 ^ (8 * accessBytes (mFields w).width) ∧
      (medlarOf t c).pc = (medlarOf s c).pc + BitVec.ofNat 64 (wsize w) ∧ t = { s with medlars := t.medlars })

/-- R153, R154, R181, R191, R199, R206, R290: what comes back, while no link on its way is stalled. A served read or atomic
ends a load of one part and writes its register; a write's acknowledgement ends its request, and an abandoned one is kept for
FENCE.SYS; a refused write is reported to its core or group imprecisely, a Medlar core holding the report in RUNTIME mode,
behind a pending load or in FENCE.SYS, and taking it in APP mode; a group's request refused for its generation goes out again
under its new translation, or is refused where it has none. -/
def Obligations.RequestsComeBack : Prop :=
  (∀ (id c reg : Nat) (r : Req) (a : LaneAcc) (l : PendLoad) (s : State), s.reqs.find id = some r → r.src = .medlar c →
    r.kind.returns = true → r.st = .served → answerOpen s r = true → r.lanes = [a] → a.shift = 0 →
    (medlarOf s c).loads = [l] → l.id = r.load → l.left = 1 → l.poison = false → l.bad = [] → l.got = ⟨[]⟩ →
    l.dest = .g reg → (medlarOf s c).held = [] →
    ∃ t, exec (.loadReturn id) s = .next t ∧ t.reqs.find id = none ∧
      (medlarOf t c).g.get 0#64 reg =
        BitVec.ofNat 64 (widen l.width l.sx (if r.kind = .read then withHeld a.n a.cmp a.val a.res else a.res)) ∧
      (∀ i, i ≠ reg → gReg (medlarOf t c) i = gReg (medlarOf s c) i) ∧
      (medlarOf t c).loads = [] ∧ (medlarOf t c).pc = (medlarOf s c).pc ∧
      (∀ d, d ≠ c → medlarOf t d = medlarOf s d) ∧ t.mem = s.mem) ∧
  (∀ (id g : Nat) (r : Req) (x : Group) (l : PendLoad) (s : State), s.reqs.find id = some r → r.src = .group g →
    r.kind.returns = true → r.st = .served → answerOpen s r = true → groupOf s g = some x →
    x.loads.find? (·.id == r.load) = some l → l.left = 1 → l.bad = [] →
    ∃ t y, exec (.loadReturn id) s = .next t ∧ t.reqs.find id = none ∧ groupOf t g = some y ∧
      y.arch = applyLoad { l with got := r.lanes.foldl (fun m a => m.put a.lane a.res) l.got, left := 0 } x.arch ∧
      (∀ m, m ∈ y.loads → m.id ≠ l.id) ∧ y.faults = x.faults ∧ t.mem = s.mem) ∧
  (∀ (id : Nat) (r : Req) (s : State), s.reqs.find id = some r → r.kind.returns = false → r.st = .served →
    answerOpen s r = true →
    ∃ t, exec (.writeAck id) s = .next t ∧ t.reqs.find id = none ∧ (∀ i, i ≠ id → t.reqs.find i = s.reqs.find i) ∧
      t = { s with reqs := t.reqs }) ∧
  (∀ (id c : Nat) (r : Req) (f : RemoteFail) (s : State), s.reqs.find id = some r → r.kind.returns = false →
    r.st = .remoteFailed f → answerOpen s r = true → r.src = .medlar c →
    ∃ t, exec (.writeAck id) s = .next t ∧ t.reqs.find id = none ∧
      (medlarOf t c).abandoned = (medlarOf s c).abandoned ++ [f] ∧ t = { s with reqs := t.reqs, medlars := t.medlars }) ∧
  (∀ (id g : Nat) (r : Req) (x : Group) (f : RemoteFail) (s : State), s.reqs.find id = some r → r.kind.returns = false →
    r.st = .remoteFailed f → answerOpen s r = true → r.src = .group g → groupOf s g = some x →
    ∃ t y, exec (.writeAck id) s = .next t ∧ t.reqs.find id = none ∧ groupOf t g = some y ∧
      y = { x with abandoned := x.abandoned ++ [f] } ∧ t = { s with reqs := t.reqs, grp := t.grp }) ∧
  (∀ (id c : Nat) (r : Req) (e : Cause) (s : State), s.reqs.find id = some r → r.kind.returns = false →
    ((r.st = .denied ∧ e = .domainDenied) ∨ (r.st = .refaulted ∧ e = .segmentFault)) → answerOpen s r = true →
    r.src = .medlar c →
    ∃ t, exec (.impreciseReport id) s = .next t ∧ t.mem = s.mem ∧
      (((medlarOf s c).runtime = true ∨ (medlarOf s c).loads ≠ [] ∨ (medlarOf s c).sysWait.isSome = true) →
        (medlarOf t c).held = (medlarOf s c).held ++ [{ cause := e, va := r.va }] ∧
        (medlarOf t c).pc = (medlarOf s c).pc ∧ t.reqs.find id = none) ∧
      ((medlarOf s c).runtime = false → (medlarOf s c).loads = [] → (medlarOf s c).sysWait = none →
        (medlarOf s c).held = [] → (medlarOf t c).runtime = true ∧ (medlarOf t c).trapPc = (medlarOf s c).pc ∧
        (medlarOf t c).pc = (medlarOf s c).trapVec ∧ (medlarOf t c).trapAddr = BitVec.ofNat 64 r.va ∧
        (medlarOf t c).trapCause = BitVec.ofNat 64 (causeCode e + 256))) ∧
  (∀ (id g : Nat) (r : Req) (e : Cause) (x : Group) (s : State), s.reqs.find id = some r → r.kind.returns = false →
    ((r.st = .denied ∧ e = .domainDenied) ∨ (r.st = .refaulted ∧ e = .segmentFault)) → answerOpen s r = true →
    r.src = .group g → groupOf s g = some x → x.place = .resident →
    ∃ t y f, exec (.impreciseReport id) s = .next t ∧ t.reqs.find id = none ∧ groupOf t g = some y ∧
      y.faults = x.faults ++ [f] ∧ f.imprecise = true ∧ f.cause = e ∧ y.arch = x.arch ∧ t.mem = s.mem) ∧
  (∀ (id g line : Nat) (r : Req) (x : Xl) (s : State), s.reqs.find id = some r → r.st = .stale → r.src = .group g →
    retranslate s r.xl.ctx r.va (kindNeed r.kind) = .ok x → regionFits r x = true → lineOf x = some line →
    ∃ t, exec (.requestRetranslate id) s = .next t ∧ t.reqs.find id = some { r with xl := x, st := .issued } ∧
      (∀ i, i ≠ id → t.reqs.find i = s.reqs.find i) ∧ t = { s with reqs := t.reqs }) ∧
  (∀ (id seg : Nat) (r : Req) (s : State), s.reqs.find id = some r → r.st = .stale →
    retranslate s r.xl.ctx r.va (kindNeed r.kind) = .fault seg →
    ∃ t, exec (.requestRetranslate id) s = .next t ∧ t.reqs.find id = some { r with st := .refaulted } ∧
      (∀ i, i ≠ id → t.reqs.find i = s.reqs.find i) ∧ OnlyRecords { s with reqs := t.reqs } t)

/-- R206, R208: the head of a Medlar core's store buffer is written into a line held Dirty or Sole, which is then Dirty; a head
whose line the core holds Shared asks for it with Upgrade, one whose line the core lacks asks with ReadOwn, and a reduce-write
is sent to its home. A prefetch of a readable Normal-cached line the core lacks, in a segment it has accessed, asks for it
with ReadShared. -/
def Obligations.StoreBuffersDrainAndLinesAreAsked : Prop :=
  (∀ (c line : Nat) (e : SbEntry) (rest : List SbEntry) (l : CLine) (s : State), (medlarOf s c).sb = e :: rest →
    lineOf e.xl = some line → e.reduce = none → intoTables s e.xl = false →
    (medlarOf s c).lines.find line = some l → (l.st = .dirty ∨ l.st = .sole) →
    ∃ t l', exec (.storeBufferDrain c) s = .next t ∧ (medlarOf t c).sb = rest ∧
      (medlarOf t c).lines.find line = some l' ∧ l'.st = .dirty ∧
      l'.data = overlay l.data (BitVec.ofNat 1024 (e.val * 2 ^ (8 * (e.va % 128)))) (spanMask (e.va % 128) e.n) ∧
      (∀ m, m ≠ line → (medlarOf t c).lines.find m = (medlarOf s c).lines.find m) ∧
      (medlarOf t c).pc = (medlarOf s c).pc ∧ (medlarOf t c).g = (medlarOf s c).g ∧ (medlarOf t c).v = (medlarOf s c).v ∧
      (∀ d, d ≠ c → medlarOf t d = medlarOf s d) ∧ t = { s with medlars := t.medlars }) ∧
  (∀ (c line : Nat) (e : SbEntry) (rest : List SbEntry) (l : CLine) (s : State), (medlarOf s c).sb = e :: rest →
    lineOf e.xl = some line → e.reduce = none → (medlarOf s c).lines.find line = some l → l.st = .shared →
    lineAsked s c line = false →
    exec (.storeBufferDrain c) s =
      .next { s with coh := { s.coh with msgs := s.coh.msgs ++ [.req c line .upgrade e.xl e.va false true] } }) ∧
  (∀ (c line : Nat) (e : SbEntry) (rest : List SbEntry) (s : State), (medlarOf s c).sb = e :: rest →
    lineOf e.xl = some line → e.reduce = none → (medlarOf s c).lines.find line = none → lineAsked s c line = false →
    exec (.storeBufferDrain c) s =
      .next { s with coh := { s.coh with msgs := s.coh.msgs ++ [.req c line .readOwn e.xl e.va false true] } }) ∧
  (∀ (c line op w : Nat) (e : SbEntry) (rest : List SbEntry) (s : State), (medlarOf s c).sb = e :: rest →
    lineOf e.xl = some line → e.reduce = some (op, w) → reduceOut s c = false →
    ∃ t r, exec (.storeBufferDrain c) s = .next t ∧ t.reqs.find s.nextReq = some r ∧ r.kind = .reduce op w ∧
      r.src = .medlar c ∧ r.xl = e.xl ∧ r.st = .issued ∧ r.lanes = [oneLane (e.va % 128) e.n e.val] ∧
      t = { s with reqs := t.reqs, nextReq := s.nextReq + 1 }) ∧
  (∀ (c va line : Nat) (x : Xl) (s : State), (medlarOf s c).running = true →
    translate s (medlarCtx (medlarOf s c)) va needR = .ok x → lineOf x = some line → x.region = 0 →
    16 * x.ctx + x.seg ∈ (medlarOf s c).segs →
    (medlarOf s c).lines.find line = none → lineAsked s c line = false →
    exec (.prefetch c va) s =
      .next { s with coh := { s.coh with msgs := s.coh.msgs ++ [.req c line .readShared x va false false] } })

/-- R219, R222, R223, R225, R226: at a home that has the line, a request that nothing there refuses or holds is granted at once
where no other core holds the line: ReadShared in Sole, ReadOwn and Upgrade in Dirty, and the directory names the core as owner.
With other holders, ReadOwn snoops each of them, and the home waits for every answer. -/
def Obligations.HomesGrantLines : Prop :=
  (∀ (c line : Nat) (b : BLine) (s : State), AskStands .readShared false c line s →
    (dirOf s line).holders = [] → (dirOf s line).owned = false →
    s.mem.bench.find line = some b → b.valid = BitVec.allOnes 128 →
    ∃ t, exec (.readShared c line) s = .next t ∧ .grant c line .sole b.data b.poison ∈ t.coh.msgs ∧
      coreReq t c line .readShared = none ∧
      (dirOf t line).owned = true ∧ (dirOf t line).holders = [c] ∧ LinesKept s t ∧ t.medlars = s.medlars) ∧
  (∀ (c line : Nat) (b : BLine) (s : State), AskStands .readOwn true c line s → (dirOf s line).holders = [] →
    s.mem.bench.find line = some b → b.valid = BitVec.allOnes 128 →
    ∃ t, exec (.readOwn c line) s = .next t ∧ .grant c line .dirty b.data b.poison ∈ t.coh.msgs ∧
      coreReq t c line .readOwn = none ∧
      (dirOf t line).owned = true ∧ (dirOf t line).holders = [c] ∧ LinesKept s t ∧ t.medlars = s.medlars) ∧
  (∀ (c line : Nat) (b : BLine) (s : State), AskStands .upgrade true c line s → (dirOf s line).holders = [c] →
    s.mem.bench.find line = some b →
    ∃ t, exec (.upgrade c line) s = .next t ∧ .grant c line .dirty b.data b.poison ∈ t.coh.msgs ∧
      coreReq t c line .upgrade = none ∧
      (dirOf t line).owned = true ∧ (dirOf t line).holders = [c] ∧ t.mem = s.mem ∧ t.medlars = s.medlars) ∧
  (∀ (c line : Nat) (o : List Nat) (s : State), AskStands .readOwn true c line s →
    (dirOf s line).holders.filter (· != c) = o → o ≠ [] →
    ∃ t, exec (.readOwn c line) s = .next t ∧ (∀ h, h ∈ o → .snoop h line .own false ∈ t.coh.msgs) ∧
      t.coh.txns.find line = some { serves := .core c .readOwn, awaiting := o } ∧ t.mem = s.mem ∧ t.medlars = s.medlars)

/-- R222, R225, R228: a core that evicts a line out of its hold window gives it up: the home takes dirty data, whole and dirty,
and the directory forgets the core. -/
def Obligations.EvictionsReachTheHome : Prop :=
  (∀ (c line : Nat) (l : CLine) (s : State), (medlarOf s c).lines.find line = some l → l.st = .dirty → MayEvict c line s →
    ∃ t b, exec (.writeBack c line) s = .next t ∧ (medlarOf t c).lines.find line = none ∧
      t.mem.bench.find line = some b ∧ b.data = l.data ∧ b.dirty = true ∧ b.valid = BitVec.allOnes 128 ∧
      b.poison = l.poison ∧ c ∉ (dirOf t line).holders ∧ t.mem.hbm = s.mem.hbm ∧
      (∀ d, d ≠ c → medlarOf t d = medlarOf s d)) ∧
  (∀ (c line : Nat) (l : CLine) (s : State), (medlarOf s c).lines.find line = some l → l.st ≠ .dirty → MayEvict c line s →
    ∃ t, exec (.cleanEvict c line) s = .next t ∧ (medlarOf t c).lines.find line = none ∧ c ∉ (dirOf t line).holders ∧
      t.mem = s.mem ∧ (∀ d, d ≠ c → medlarOf t d = medlarOf s d))

/-- R206, R222, R228: a snoop that meets no grant of its line on its way and no hold window is answered: SnpShared leaves
Shared, SnpOwn and SnpInval take the line, SnpClean leaves a dirty line Sole, and dirty data travels home. Loads that replay ask
for the line again. Inside the hold window a snoop of any kind waits, and the deferral is counted. -/
def Obligations.SnoopsAreAnswered : Prop :=
  (∀ (c line : Nat) (m : CohMsg) (rest : List CohMsg) (l : CLine) (s : State), SnoopStands .shared c line m rest s →
    heldUntil s c line ≤ s.time.now → (medlarOf s c).lines.find line = some l →
    ∃ t l' d, exec (.snpShared c line) s = .next t ∧
      t.coh.msgs = rest ++ [.resp c line .shared d (decide (l.st = .dirty))] ∧
      (l.st ≠ .shared → d = some (l.data, l.poison)) ∧ (l.st = .shared → d = none) ∧
      (medlarOf t c).lines.find line = some l' ∧ l'.st = .shared ∧ l'.data = l.data ∧ l'.poison = l.poison ∧
      t = { s with coh := { s.coh with msgs := t.coh.msgs }, medlars := t.medlars }) ∧
  (∀ (c line : Nat) (k : SnoopKind) (m : CohMsg) (rest : List CohMsg) (l : CLine) (s : State), k = .own ∨ k = .inval →
    SnoopStands k c line m rest s → heldUntil s c line ≤ s.time.now → (medlarOf s c).lines.find line = some l →
    ∃ t d asks, exec (snoopCmd k c line) s = .next t ∧
      t.coh.msgs = rest ++ asks ++ [.resp c line k d (decide (l.st = .dirty))] ∧
      (l.st = .dirty → d = some (l.data, l.poison)) ∧ ((medlarOf s c).loads.length ≤ 1 → asks = []) ∧
      (medlarOf t c).lines.find line = none ∧ (∀ n, n ≠ c → medlarOf t n = medlarOf s n) ∧ t.mem = s.mem) ∧
  (∀ (c line : Nat) (m : CohMsg) (rest : List CohMsg) (l : CLine) (s : State), SnoopStands .clean c line m rest s →
    heldUntil s c line ≤ s.time.now → (medlarOf s c).lines.find line = some l → l.st = .dirty →
    ∃ t l', exec (.snpClean c line) s = .next t ∧ t.coh.msgs = rest ++ [.resp c line .clean (some (l.data, l.poison)) true] ∧
      (medlarOf t c).lines.find line = some l' ∧ l'.st = .sole ∧ l'.data = l.data ∧
      t = { s with coh := { s.coh with msgs := t.coh.msgs }, medlars := t.medlars }) ∧
  (∀ (c line : Nat) (m : CohMsg) (rest : List CohMsg) (l : CLine) (s : State), SnoopStands .clean c line m rest s →
    heldUntil s c line ≤ s.time.now → (medlarOf s c).lines.find line = some l → l.st ≠ .dirty →
    exec (.snpClean c line) s =
      .next { s with coh := { s.coh with msgs := rest ++ [.resp c line .clean none false] } }) ∧
  (∀ (c line : Nat) (k : SnoopKind) (m : CohMsg) (rest : List CohMsg) (s : State), SnoopStands k c line m rest s →
    s.time.now < heldUntil s c line → waited m = false →
    exec (snoopCmd k c line) s =
      .next (countDeferral c { s with coh := { s.coh with msgs := rest ++ [.snoop c line k true] } }))

/-- R219, R222, R226, R228: an answer leaves its transaction waiting for the others, and the last answer of a directory
eviction ends it; dirty data stands in the home's Bench from then on. A line that arrives in Dirty or Sole is held for HOLD_NS
from its arrival; at the end of the window a snoop that waited is answered. -/
def Obligations.LinesArriveAndWindowsEnd : Prop :=
  (∀ (c line : Nat) (k : SnoopKind) (d : Option (Line × Bool)) (dirty : Bool) (rest : List CohMsg) (x : CohTxn) (s : State),
    takeFirst (isResp c line) s.coh.msgs = some (.resp c line k d dirty, rest) → s.coh.txns.find line = some x →
    routeOpen s (dieOfCore c) (homeDie s line) = true → (x.awaiting.filter (· != c) ≠ [] ∨ x.serves = .evict) →
    ∃ t, exec (.snoopResponse c line) s = .next t ∧ t.coh.msgs = rest ∧
      (x.awaiting.filter (· != c) ≠ [] → t.coh.txns.find line = some { x with awaiting := x.awaiting.filter (· != c) }) ∧
      (x.awaiting.filter (· != c) = [] → t.coh.txns.find line = none) ∧
      (∀ y p, dirty = true → d = some (y, p) →
        ∃ b, t.mem.bench.find line = some b ∧ b.data = y ∧ b.valid = BitVec.allOnes 128 ∧ b.dirty = true ∧ b.poison = p)) ∧
  (∀ (c line : Nat) (st : CState) (d : Line) (p : Bool) (rest : List CohMsg) (s : State),
    takeFirst (isGrant c line) s.coh.msgs = some (.grant c line st d p, rest) →
    routeOpen s (homeDie s line) (dieOfCore c) = true → l2Full s c line = false →
    ∃ t l, exec (.lineArrival c line) s = .next t ∧ (medlarOf t c).lines.find line = some l ∧
      (l.st = st ∨ (st = .sole ∧ l.st = .dirty)) ∧ l.performed = true ∧
      (st = .dirty ∨ st = .sole → heldUntil t c line = s.time.now + dv s K.holdNs)) ∧
  (∀ (c line : Nat) (k : SnoopKind) (w : Bool) (rest : List CohMsg) (s : State), heldUntil s c line ≠ 0 →
    takeFirst (isWaiting c line) s.coh.msgs = some (.snoop c line k w, rest) →
    ∃ t d dirty asks, exec (.holdWindowExpiry c line) s = .next t ∧ heldUntil s c line ≤ t.time.now ∧
      t.coh.msgs = rest ++ asks ++ [.resp c line k d dirty] ∧ ((medlarOf s c).loads.length ≤ 1 → asks = []) ∧ t.mem = s.mem)

/-- R208, R238, R240, R244–R246, R273, R290: at a home that has the line whole and sound, with no core holding it, a read takes
its lanes' bytes and changes nothing there; a write under no tracking lays its bytes over the line; an atomic returns what each
lane saw and leaves the line updated lane by lane, and so does a reduce-write, which returns nothing and, when granted, leaves
its core's store buffer; HBM itself is not touched. A request that comes with an old generation or table epoch is refused there
and performs nothing. -/
def Obligations.HomesPerformOrRefuseRequests : Prop :=
  (∀ (id line : Nat) (r : Req) (b : BLine) (s : State), ReadyAtHome id line r b s → (r.kind = .read ∨ r.kind = .fetch) →
    ∃ t r', exec (.benchRead id) s = .next t ∧ t.reqs.find id = some r' ∧ r'.st = .served ∧
      r'.lanes = r.lanes.map (fun l => { l with res := lineBytes b.data l.pos l.n }) ∧ LinesKept s t ∧
      (∀ i, i ≠ id → t.reqs.find i = s.reqs.find i) ∧ t.medlars = s.medlars) ∧
  (∀ (id line : Nat) (r : Req) (b : BLine) (s : State), ReadyAtHome id line r b s → r.kind = .write → r.xl.tracked = false →
    ∃ t r' b', exec (.benchWrite id) s = .next t ∧ t.reqs.find id = some r' ∧ r'.st = .served ∧
      t.mem.bench.find line = some b' ∧ b'.data = overlay b.data (lanesLine r.lanes).1 (lanesLine r.lanes).2 ∧
      b'.dirty = true ∧ b'.poison = false ∧ (∀ l, l ≠ line → t.mem.bench.find l = s.mem.bench.find l) ∧
      t.mem.hbm = s.mem.hbm ∧ t.medlars = s.medlars) ∧
  (∀ (id line op w : Nat) (r : Req) (b : BLine) (s : State), ReadyAtHome id line r b s → r.kind = .atomic op w →
    ∃ t r' b', exec (.benchAtomic id) s = .next t ∧ t.reqs.find id = some r' ∧ r'.st = .served ∧
      r'.lanes = (lanesAtomic op w r.lanes b.data.toNat).2 ∧ t.mem.bench.find line = some b' ∧
      b'.data = BitVec.ofNat 1024 (lanesAtomic op w r.lanes b.data.toNat).1 ∧ b'.dirty = true ∧
      (∀ l, l ≠ line → t.mem.bench.find l = s.mem.bench.find l) ∧ t.mem.hbm = s.mem.hbm ∧ t.medlars = s.medlars) ∧
  (∀ (id line op w : Nat) (r : Req) (b : BLine) (s : State), ReadyAtHome id line r b s → r.kind = .reduce op w →
    ∃ t r' b', exec (.benchReduceWrite id) s = .next t ∧ t.reqs.find id = some r' ∧ r'.st = .served ∧
      r'.lanes = r.lanes ∧ t.mem.bench.find line = some b' ∧
      b'.data = BitVec.ofNat 1024 (lanesAtomic op w r.lanes b.data.toNat).1 ∧ b'.dirty = true ∧
      (∀ c e rest, r.src = .medlar c → (medlarOf s c).sb = e :: rest → e.reduce.isSome = true → (medlarOf t c).sb = rest) ∧
      (∀ l, l ≠ line → t.mem.bench.find l = s.mem.bench.find l) ∧ t.mem.hbm = s.mem.hbm) ∧
  (∀ (id line : Nat) (r : Req) (s : State), s.reqs.find id = some r → lineOf r.xl = some line → r.st = .issued →
    (r.kind = .read ∨ r.kind = .fetch) → r.missed = false → olderMeets s id r = false →
    routeOpen s r.die (homeDie s line) = true → s.coh.txns.find line = none → sliceHeld s (homeSlice s line) = false →
    genEarly s (homeSlice s line) r.xl = false → genOk s (homeSlice s line) r.xl = false →
    exec (.benchRead id) s = .next (bump K.genRefusals 1 { s with reqs := s.reqs.put id { r with st := .stale } }))

/-- R240, R241, R252, R254, R256: the first codeword of a fill that the scheduler has served is installed, and the second makes
the line whole and frees its miss tag; a read that waited for the line takes its bytes. The reports of the stack's own code are
counted. The scheduler removes the request it serves from its queue, writes a full sound line into HBM and no other byte, or
marks the fill served. -/
def Obligations.SchedulersServeFillsAndWrites : Prop :=
  (∀ (line inner : Nat) (tg : MissTag) (s : State), s.mem.tags.find line = some tg → tg.served = true → tg.halves = 0 →
    tg.waiters = [] →
    ∃ t b tg', exec (.benchFill line inner) s = .next t ∧ t.mem.bench.find line = some b ∧
      b.valid &&& halfMask tg.lead = halfMask tg.lead ∧ t.mem.tags.find line = some tg' ∧
      tg' = { tg with halves := 1, corrected := tg'.corrected } ∧
      (homeCtl s line < 32 → 0 < inner → bits (dv s (K.innerReported + homeCtl s line)) 0 48 + inner < 2 ^ 48 - 1 →
        dv t (K.innerReported + homeCtl s line) = bits (dv s (K.innerReported + homeCtl s line)) 0 48 + inner) ∧
      t.mem.hbm = s.mem.hbm) ∧
  (∀ (line inner : Nat) (tg : MissTag) (b : BLine) (s : State), s.mem.tags.find line = some tg → tg.served = true →
    tg.halves = 1 → tg.waiters = [] → s.mem.bench.find line = some b → b.valid &&& halfMask tg.lead = halfMask tg.lead →
    tg.lead < 2 →
    ∃ t b', exec (.benchFill line inner) s = .next t ∧ t.mem.tags.find line = none ∧ t.mem.bench.find line = some b' ∧
      b'.valid = BitVec.allOnes 128 ∧ t.mem.hbm = s.mem.hbm) ∧
  (∀ (line inner id : Nat) (tg : MissTag) (b : BLine) (r : Req) (s : State), s.mem.tags.find line = some tg →
    tg.served = true → tg.halves = 1 → tg.waiters = [id] → s.mem.bench.find line = some b →
    b.valid &&& halfMask tg.lead = halfMask tg.lead → tg.lead < 2 → s.reqs.find id = some r → lineOf r.xl = some line →
    r.kind = .read → s.coh.txns.find line = none → (dirOf s line).owned = false →
    ∃ t b' r', exec (.benchFill line inner) s = .next t ∧ t.mem.bench.find line = some b' ∧
      t.reqs.find id = some r' ∧ r'.st = (if b'.poison then .poisoned else .served) ∧
      r'.lanes = r.lanes.map (fun l => { l with res := lineBytes b'.data l.pos l.n })) ∧
  (∀ (pc pick : Nat) (r : HbmReq) (tg : MissTag) (s : State), (schedOf s pc)[pick]? = some r → mayServe s pc pick = true →
    bit s.mem.lostStacks.toNat (pc / 32) = false → r.write = none → s.mem.tags.find r.line = some tg →
    ∃ t, exec (.hbmSchedule pc pick) s = .next t ∧ schedOf t pc = (schedOf s pc).eraseIdx pick ∧
      t.mem.tags.find r.line = some { tg with served := true } ∧ t.mem.hbm = s.mem.hbm ∧ t.mem.bench = s.mem.bench) ∧
  (∀ (pc pick : Nat) (r : HbmReq) (d : Line) (s : State), (schedOf s pc)[pick]? = some r → mayServe s pc pick = true →
    bit s.mem.lostStacks.toNat (pc / 32) = false → bit s.mem.lostStacks.toNat (homeCtl s r.line) = false →
    r.write = some (d, BitVec.allOnes 128) → r.poison = false → Memory.wf s.mem.hbm = true →
    ∃ t, exec (.hbmSchedule pc pick) s = .next t ∧ schedOf t pc = (schedOf s pc).eraseIdx pick ∧
      (∀ i, i < 128 → Memory.read t.mem.hbm (128 * r.line + i) = BitVec.ofNat 8 (lineBytes d i 1)) ∧
      (∀ a, a / 128 ≠ r.line → Memory.read t.mem.hbm a = Memory.read s.mem.hbm a) ∧
      r.line ∉ t.mem.hbmPoison ∧ t.mem.bench = s.mem.bench)

/-- R248, R253, R255, R256, R261: a write-combining entry that has been held for WCB_HOLD_NS departs for its scheduler; a window
lasts BW_WINDOW_NS, and a controller enters regulated mode at 8 starvation events in one and leaves it after one without an
over-age bulk service; a round of the banks is refreshed in the time of the refresh rate, 3,900, 1,950 or 975 ns; a temperature
is read 100,000 ns after the last time and kept, it sets the refresh rate, and above 105 °C it raises STACK_HOT; the patrol goes
on to its next line and begins a pass SCRUB_HOURS after the last. The refresh multiplier is 1 up to 85 °C, 2 to 95 °C and 4
beyond; it rises at once and falls only 3 °C below the threshold it crossed. -/
def Obligations.ControllersKeepTheirWindows : Prop :=
  (∀ (ctl line : Nat) (e : WcbEntry) (s : State), (ctlOf s ctl).wcb.find? (fun e => e.line == line) = some e →
    ∃ t q, exec (.wcbHoldExpiry ctl line) s = .next t ∧ e.since + dv s K.wcbHoldNs ≤ t.time.now ∧
      (∀ x, x ∈ (ctlOf t ctl).wcb → x.line ≠ line) ∧
      schedOf t (pchan s line) = schedOf s (pchan s line) ++ [q] ∧ q.line = line ∧ q.write = some (e.data, e.valid) ∧
      q.poison = e.poison ∧ t.mem.hbm = s.mem.hbm) ∧
  (∀ (ctl : Nat) (s : State), ctl < 32 →
    ∃ t, exec (.bwWindowEnd ctl) s = .next t ∧ (ctlOf t ctl).starved = 0 ∧ (ctlOf t ctl).agedServed = false ∧
      t.time.now = max s.time.now ((ctlOf s ctl).windowAt + dv s K.bwWindowNs) ∧ (ctlOf t ctl).windowAt = t.time.now ∧
      ((ctlOf s ctl).regulated = false → ((ctlOf t ctl).regulated = true ↔ 8 ≤ (ctlOf s ctl).starved)) ∧
      ((ctlOf s ctl).regulated = true → (ctlOf t ctl).regulated = (ctlOf s ctl).agedServed) ∧
      (ctlOf t ctl).wcb = (ctlOf s ctl).wcb ∧ (∀ c, c ≠ ctl → ctlOf t c = ctlOf s c) ∧ t.mem.hbm = s.mem.hbm) ∧
  (∀ (k : Nat) (s : State), k < 32 → bit s.mem.lostStacks.toNat k = false →
    ((ctlOf s k).bank + 1 < max 1 Config.refreshBanks →
      exec (.refresh k) s = .next (setCtl k { ctlOf s k with bank := (ctlOf s k).bank + 1 } s)) ∧
    (max 1 Config.refreshBanks ≤ (ctlOf s k).bank + 1 →
      ∃ t, exec (.refresh k) s = .next t ∧ (ctlOf t k).bank = 0 ∧ (ctlOf t k).roundAt = t.time.now ∧
        t.time.now = max s.time.now ((ctlOf s k).roundAt + refreshRound s k) ∧
        t = { s with time := t.time, mem := { s.mem with ctls := t.mem.ctls } })) ∧
  (∀ (k : Nat) (s : State),
    (dv s (K.refreshRate + k) = 1 → refreshRound s k = 3900) ∧ (dv s (K.refreshRate + k) = 2 → refreshRound s k = 1950) ∧
    (dv s (K.refreshRate + k) = 4 → refreshRound s k = 975)) ∧
  (∀ (k : Nat) (temp : Int) (s : State), k < 32 → alive s = true → temp ≤ 105 →
    ∃ t, exec (.stackTempRead k temp) s = .next t ∧ dv t (K.stackTemp + k) = unsigned 32 temp ∧
      dv t (K.refreshRate + k) = refreshRate (dv s (K.refreshRate + k)) temp ∧ t.weigh.stackLast.find k = some temp ∧
      t.time.now = max s.time.now ((ctlOf s k).tempAt + 100000) ∧ (ctlOf t k).tempAt = t.time.now ∧
      t.mem = { s.mem with ctls := t.mem.ctls }) ∧
  (∀ (k : Nat) (temp : Int) (s : State), k < 32 → alive s = true → 105 < temp →
    ∃ t e, exec (.stackTempRead k temp) s = .next t ∧ e ∈ t.ev.inFlight ∧ e.code = 0x21 ∧ e.arg1 = k ∧
      dv t (K.stackTemp + k) = unsigned 32 temp ∧
      dv t (K.refreshRate + k) = refreshRate (dv s (K.refreshRate + k)) temp ∧ t.mem = { s.mem with ctls := t.mem.ctls }) ∧
  (∀ (k inner : Nat) (s : State), k < 32 → dv s K.scrubHours ≠ 0 → bit s.mem.lostStacks.toNat k = false →
    schedOf s (32 * k + (ctlOf s k).scrubNext / 2 ^ 24 % 32) = [] →
    ∃ t, exec (.scrubRead k inner) s = .next t ∧ (ctlOf t k).scrubNext = ((ctlOf s k).scrubNext + 1) % 2 ^ 29 ∧
      ((ctlOf s k).scrubNext = 0 → t.time.now = max s.time.now ((ctlOf s k).scrubAt + dv s K.scrubHours * 3600000000000) ∧
        (ctlOf t k).scrubAt = t.time.now) ∧
      ((ctlOf s k).scrubNext ≠ 0 → t.time = s.time ∧ (ctlOf t k).scrubAt = (ctlOf s k).scrubAt)) ∧
  (∀ (old : Nat) (t : Int), (old = 1 ∨ old = 2 ∨ old = 4) →
    (95 < t → refreshRate old t = 4) ∧ (85 < t → t ≤ 95 → old ≤ 2 → refreshRate old t = 2) ∧
    (92 < t → old = 4 → refreshRate old t = 4) ∧ (t ≤ 92 → 82 < t → old = 4 → refreshRate old t = 2) ∧
    (82 < t → t ≤ 85 → refreshRate old t = (if old = 1 then 1 else 2)) ∧ (t ≤ 82 → refreshRate old t = 1))

/-- R390, R391, R410: a DICT_WRITE that the entry allows runs the entry's rule on the value, its reserved bits discarded; it is
counted where the rule accepts it, and refused with the rule's code where it does not. A refused write, whichever its reason,
changes nothing but records: DICT_LAST_REFUSED names entry, code and source, and event 0x60 is raised. A write of 1 sets a
lock and one of 0 does nothing (R408), and an entry of a set lock's group refuses LOCKED. -/
def Obligations.DictionaryWritesAreDecided : Prop :=
  (∀ (src key v : Nat) (r : EntryRow) (s : State), Writable s key → entryOf key = some r → isBlob key = false →
    ¬(0x940000 ≤ key ∧ key < 0x980000 ∧ key % 256 = 10) → (r.ty = 6 → v % 2 ^ (8 * r.size) ≤ 1) →
    ((scalarAct key (v % 2 ^ (8 * r.size) &&& r.mask) s).1 = 0 →
      exec (.dictWrite src key v) s = .next (acceptWrite (scalarAct key (v % 2 ^ (8 * r.size) &&& r.mask) s).2)) ∧
    ((scalarAct key (v % 2 ^ (8 * r.size) &&& r.mask) s).1 ≠ 0 →
      exec (.dictWrite src key v) s =
        .next (refuseWrite src key (scalarAct key (v % 2 ^ (8 * r.size) &&& r.mask) s).1 s))) ∧
  (∀ (src key v : Nat) (s : State), alive s = true → isBlob key = false → writeCheck s key ≠ 0 →
    exec (.dictWrite src key v) s = .next (refuseWrite src key (writeCheck s key) s)) ∧
  (∀ (src key code : Nat) (s : State), OnlyRecords s (refuseWrite src key code s) ∧
    dv (refuseWrite src key code s) K.dictLastRefused =
      key / 256 + key % 256 * 2 ^ 16 + code * 2 ^ 24 + src * 2 ^ 32 ∧
    bit (dv (refuseWrite src key code s) K.errSummary) 12 = true ∧
    ∃ e, e ∈ (refuseWrite src key code s).ev.inFlight ∧ e.code = 0x60 ∧ e.source = 10) ∧
  (∀ (src g : Nat) (s : State), 1 ≤ g → g ≤ 6 → Writable s (K.lockState + g) →
    exec (.lockSet src g 1) s = .next (acceptWrite (setDv (K.lockState + g) 1 s)) ∧
    exec (.lockSet src g 0) s = .next (acceptWrite s)) ∧
  (∀ (key : Nat) (r : EntryRow) (s : State), entryOf key = some r → served s key = true → r.acc = 4 → r.lock ≠ 0 →
    dv s (K.lockState + r.lock) = 1 → key ≠ K.localGib → writeCheck s key = 2)

/-- R6, R414, R418, R419, R426, R429, R430: BOOT_LOAD_DATA lays its bytes into the buffer at BOOT_LOAD_OFFSET; BOOT_LOAD_GO keeps
the parts of an image that is not whole, and judges a whole one; an override is accepted where its signature and the
combination match, its reserved bytes discarded; an owner key is taken once; MIN_SEC_RAISE lifts each running image's minimum; MEAS_EXTEND folds its digest
into register 6 or 7 alone; ATTEST_NONCE takes down the report's fields, and the report is then signed. -/
def Obligations.BootBufferAndKeysTakeTheirWrites : Prop :=
  (∀ (src : Nat) (b : List Byte) (s : State), Writable s K.bootLoadData → blobFits K.bootLoadData b = true →
    ∃ t, exec (.bootLoadData src b) s = .next t ∧
      (∀ i, i < b.length → t.boot.buffer.get 0#8 (dv s K.bootLoadOffset + i) = b.getD i 0#8) ∧
      (∀ a, (a < dv s K.bootLoadOffset ∨ dv s K.bootLoadOffset + b.length ≤ a) →
        t.boot.buffer.get 0#8 a = s.boot.buffer.get 0#8 a) ∧
      t = { s with dict := t.dict, boot := { s.boot with buffer := t.boot.buffer } }) ∧
  (∀ (src len kind : Nat) (data : List Byte) (s : State), Writable s K.bootLoadGo → s.boot.awaiting = some kind →
    1 ≤ len → len ≤ 2 ^ 22 → data = s.boot.parts ++ bufferBytes s len → 4096 ≤ data.length →
    headerFormat kind (ofBytes (data.take 4096)) = true →
    ∃ t, exec (.bootLoadGo src len) s = .next t ∧ t.mem = s.mem ∧ t.part = s.part ∧
      ((data.drop 4096).length < fld (ofBytes (data.take 4096)) 16 8 → t.boot = { s.boot with parts := data }) ∧
      (fld (ofBytes (data.take 4096)) 16 8 ≤ (data.drop 4096).length → t.boot.parts = [] ∧
        (verifyImage s kind { header := ofBytes (data.take 4096), payload := data.drop 4096 } = 0 →
          t.boot.awaiting = none ∧
          t.boot.images.find kind = some { header := ofBytes (data.take 4096), payload := data.drop 4096 }) ∧
        (verifyImage s kind { header := ofBytes (data.take 4096), payload := data.drop 4096 } ≠ 0 →
          t.boot.awaiting = some kind ∧ t.boot.images = s.boot.images ∧ bits t.boot.status 0 8 =
            verifyImage s kind { header := ofBytes (data.take 4096), payload := data.drop 4096 }))) ∧
  (∀ (src : Nat) (b : List Byte) (s : State), Writable s K.fwOverride → blobFits K.fwOverride b = true → 8 ≤ s.boot.phase →
    ∃ t, exec (.fwOverride src b) s = .next t ∧
      (overrideOk s (ofBytes (keepBytes overrideReserved b)) = true → t.boot.overridden = true ∧ (s.pkg = .restricted → t.pkg = .ready)) ∧
      (overrideOk s (ofBytes (keepBytes overrideReserved b)) = false → t.boot = s.boot ∧ t.pkg = s.pkg)) ∧
  (∀ (src : Nat) (dbg : Bool) (b : List Byte) (s : State),
    Writable s (if dbg then K.ownerDebugKeyDigest else K.ownerKeyDigest) →
    blobFits (if dbg then K.ownerDebugKeyDigest else K.ownerKeyDigest) b = true →
    ∃ t, exec (.ownerKeyDigest src dbg b) s = .next t ∧
      ((if dbg then s.part.ownerDebugKey else s.part.ownerKey) ≠ 0#512 → t.part = s.part) ∧
      (dbg = false → s.part.ownerKey = 0#512 → t.part = { s.part with ownerKey := BitVec.ofNat 512 (ofBytes b) }) ∧
      (dbg = true → s.part.ownerDebugKey = 0#512 → t.part = { s.part with ownerDebugKey := BitVec.ofNat 512 (ofBytes b) })) ∧
  (∀ (src : Nat) (s : State), Writable s K.minSecRaise → s.pkg = .ready → s.boot.minSecRaised = false →
    ∃ t, exec (.minSecRaise src 1) s = .next t ∧ t.boot.minSecRaised = true ∧
      (∀ k i, k < 5 → s.boot.images.find k = some i →
        t.part.minSec.get 0 k = max (s.part.minSec.get 0 k) (imgSec i.header)) ∧
      (∀ k, (5 ≤ k ∨ s.boot.images.find k = none) → t.part.minSec.get 0 k = s.part.minSec.get 0 k)) ∧
  (∀ (src : Nat) (b : List Byte) (s : State), Writable s K.measExtend → blobFits K.measExtend b = true →
    ((b.headD 0#8).toNat = 6 ∨ (b.headD 0#8).toNat = 7) →
    ∃ t, exec (.measExtend src b) s = .next t ∧
      t.boot.meas.get 0#512 (b.headD 0#8).toNat = Config.shake256
        (toBytes 64 (s.boot.meas.get 0#512 (b.headD 0#8).toNat).toNat ++
         toBytes 64 (BitVec.ofNat 512 (ofBytes (b.drop 8))).toNat) ∧
      (∀ n, n ≠ (b.headD 0#8).toNat → t.boot.meas.get 0#512 n = s.boot.meas.get 0#512 n)) ∧
  (∀ (src k : Nat) (b : List Byte) (s : State), Writable s K.attestNonce → blobFits K.attestNonce b = true →
    s.boot.attest = none → s.part.identity = some k →
    ∃ t, exec (.attestNonce src b) s = .next t ∧ t.boot.attest = some (reportFields s b, k) ∧ t.part = s.part) ∧
  (∀ (k : Nat) (f : List Byte) (s : State), alive s = true → s.boot.attest = some (f, k) →
    ∃ t, exec .attestReportDone s = .next t ∧ t.boot.attest = none ∧ t.boot.attestReport.length = f.length + 1280 ∧
      t.boot.attestReport.take f.length = f ∧ t = { s with boot := t.boot })

/-- R432–R434: a debug token that passes opens debug, counts an opening, erases the key store, the Benches and the Medlar
cores; one that does not leaves its reason in DEBUG_STATUS and opens nothing; either way from the dictionary or from JTAG.
JTAG shifts out the IDCODE, the bypass register or the pins, and drives the pins only while debug is open. -/
def Obligations.DebugOpensWithAToken : Prop :=
  (∀ (src : Nat) (b : List Byte) (s : State), Writable s K.debugToken → blobFits K.debugToken b = true →
    ∃ t, exec (.debugToken src b) s = .next t ∧ (src = 3 → exec (.dbgToken b) s = .next t) ∧
      (16 ≤ s.part.debugOpenings → t.boot.debugStatus = 6 ∧ t.boot.debugOpen = s.boot.debugOpen ∧ t.part = s.part) ∧
      (recordMagic (ofBytes (keepBytes tokenReserved b)) = 0x31474244 → judgeToken s (ofBytes (keepBytes tokenReserved b)) = 1 → t.boot.debugStatus = 1 ∧
        t.boot.debugOpen = true ∧ t.part.debugOpenings = s.part.debugOpenings + 1 ∧ t.part.identity = none ∧
        t.medlars = ⟨[]⟩ ∧ t.mem.bench = ⟨[]⟩) ∧
      (recordMagic (ofBytes (keepBytes tokenReserved b)) = 0x31474244 → judgeToken s (ofBytes (keepBytes tokenReserved b)) ≠ 1 →
        t.boot.debugStatus = judgeToken s (ofBytes (keepBytes tokenReserved b)) ∧ t.boot.debugOpen = s.boot.debugOpen ∧ t.part = s.part ∧
        t.medlars = s.medlars ∧ t.mem = s.mem)) ∧
  (∀ (b : List Byte) (s : State), Writable s K.debugToken → blobFits K.debugToken b = true →
    ∃ t, exec (.dbgToken b) s = .next t) ∧
  (∀ s : State, s.board.railsUp = true →
    exec .idcode s = .next { s with board := { s.board with jtagIr := 1, jtagOut := s.part.jtagIdcode } } ∧
    exec .bypass s = .next { s with board := { s.board with jtagIr := 0, jtagOut := 0 } }) ∧
  (∀ (pins preload : Nat) (s : State), s.board.railsUp = true →
    exec (.samplePreload pins preload) s =
      .next { s with board := { s.board with jtagIr := 2, jtagOut := pins, jtagData := preload } }) ∧
  (∀ (v : Nat) (s : State), s.board.railsUp = true → s.boot.debugOpen = true →
    exec (.extest v) s = .next { s with board := { s.board with jtagIr := 3, jtagData := v } }) ∧
  (∀ (v : Nat) (s : State), s.boot.debugOpen = false → exec (.extest v) s = .next s)

/-- R234, R273, R274, R275, R277, R291: LOCAL_GIB is stored before the first table load and refused after it; TABLE_LOAD with no
queue open installs both tables, and completes once no request of an earlier epoch remains; a table base is stored where it
is aligned in the firmware region; CLAIM_ASSIGN retags a claim at once, or tags it 0 until the erase is done, which gives it the new tag. -/
def Obligations.TablesAndClaimsAreWritten : Prop :=
  (∀ (src v : Nat) (s : State), Writable s K.localGib → v ≤ 240 → v % 16 = 0 →
    exec (.localGib src v) s = .next (acceptWrite (setDv K.localGib v s))) ∧
  (∀ (src v : Nat) (s : State), alive s = true → served s K.localGib = true → s.xlat.installed.isSome = true →
    exec (.localGib src v) s = .next (refuseWrite src K.localGib 7 s)) ∧
  (∀ (src : Nat) (s : State), Writable s K.tableLoad → queueOpenAny s = false → isLocked s 1 = false →
    ∃ t, exec (.tableLoad src 1) s = .next t ∧
      t.xlat.installed = some (dv s K.ctxTableBase, dv s K.segTableBase) ∧ t.xlat.loading.isSome = true ∧
      t.xlat.epoch = (if s.xlat.installed.isSome then s.xlat.epoch + 1 else s.xlat.epoch) ∧
      t.queues = s.queues ∧ t.jobs = s.jobs) ∧
  (∀ (st : Nat) (lost : List (Nat × Nat)) (s : State), s.xlat.loading = some (st, lost) →
    anyAccess s (fun x => x.epoch != s.xlat.epoch) = false →
    ∃ t, exec .tableLoadComplete s = .next t ∧ dv t K.tableLoadStatus = st ∧ t.xlat = { s.xlat with loading := none } ∧
      t.medlars = s.medlars ∧ t.queues = s.queues) ∧
  (∀ (src v : Nat) (s : State), Writable s K.ctxTableBase → queueOpenAny s = false → v % 65536 = 0 →
    inFirmware v 65536 = true → exec (.tableBaseWrite src 0 v) s = .next (acceptWrite (setDv K.ctxTableBase v s))) ∧
  (∀ (src v : Nat) (s : State), Writable s K.segTableBase → queueOpenAny s = false → v % 2 ^ 21 = 0 →
    inFirmware v (2 ^ 21) = true → rangesMeet v (2 ^ 21) (dv s K.ctxTableBase) 65536 = false →
    exec (.tableBaseWrite src 1 v) s = .next (acceptWrite (setDv K.segTableBase v s))) ∧
  (∀ (src v : Nat) (s : State), Writable s K.claimAssign → s.xlat.erasing = none → 64 ≤ bits v 0 15 → bit v 31 = false →
    exec (.claimAssign src v) s = .next (acceptWrite
      (setClaimTag (bits v 0 15) (bits v 16 8) (setDv K.claimAssign (v &&& 0x80FF7FFF) s)))) ∧
  (∀ (src v : Nat) (s : State), Writable s K.claimAssign → s.xlat.erasing = none → 64 ≤ bits v 0 15 → bit v 31 = true →
    ∃ t, exec (.claimAssign src v) s = .next t ∧ t.xlat = { s.xlat with erasing := some (bits v 0 15, bits v 16 8) } ∧
      claimTag t (bits v 0 15) = 0 ∧ t.mem = s.mem) ∧
  (∀ (claim dom : Nat) (s : State), s.xlat.erasing = some (claim, dom) →
    ∃ t, exec .claimEraseDone s = .next t ∧ t.xlat = { s.xlat with erasing := none } ∧
      claimTag t claim = claimTag (setClaimTag claim dom s) claim ∧ t.queues = s.queues ∧
      t.jobs = s.jobs)

/-- R280, R285, R287–R291, R357, R469: a SEG_UPDATE of a segment that passes its checks writes its descriptor with the GEN one
higher and is granted point by point; it completes when all 65 points have granted it and no request of the old GEN remains. A
peer's transaction that its import entry does not allow is refused; an allowed read is answered with the bytes its target's home
gives, an allowed write is performed there and acknowledged, and one that was performed before is acknowledged again and not
performed. An inbound RDMA is counted, and answered with a remote access error on a connection that is ready. -/
def Obligations.SegUpdatesAndPeersAreChecked : Prop :=
  (∀ (q seq : Nat) (j : Job) (s : State), handed s q seq 0x0B = some j → j.hasDesc →
    segUpdateForm j.raw = true → segUpdateDenied s j.ctx j.raw = false → segUpdateOk s j.raw = true →
    fld j.raw 18 1 ≠ 255 → (∀ u, u ∈ s.xlat.updates → u.ctx ≠ bits (fld j.raw 16 2) 0 12) →
    ∃ t u, exec (.segUpdate q seq) s = .next t ∧ t.xlat.updates = s.xlat.updates ++ [u] ∧ u.key = jobKey q seq ∧
      u.granted = 0#65 ∧ u.ctx = bits (fld j.raw 16 2) 0 12 ∧ u.seg = fld j.raw 18 1 ∧
      segOf t u.ctx u.seg = { raw := setBits (fld j.raw 32 32) 16 16 0, gen := ((segOf s u.ctx u.seg).gen + 1) % 65536 } ∧
      (∀ k, k ≠ 16 * u.ctx + u.seg → t.xlat.segs.find k = s.xlat.segs.find k) ∧ t.xlat.ctxs = s.xlat.ctxs ∧
      t.queues = s.queues) ∧
  (∀ (q seq : Nat) (j : Job) (s : State), handed s q seq 0x0B = some j → j.hasDesc →
    segUpdateForm j.raw = true → segUpdateDenied s j.ctx j.raw = true →
    ∃ t, exec (.segUpdate q seq) s = .next t ∧ t.xlat = s.xlat ∧ Completed (jobKey q seq) .domainDenied j.detail j s t ∧
      MemoryKept s t) ∧
  (∀ (q seq point : Nat) (u : SegUpd) (s : State), (s.xlat.updates.find? fun u => u.key == jobKey q seq) = some u →
    point < 65 → u.granted.getLsbD point = false →
    ∃ t v, exec (.segUpdateGrant q seq point) s = .next t ∧
      (t.xlat.updates.find? fun u => u.key == jobKey q seq) = some v ∧ v.granted.getLsbD point = true ∧
      (∀ p, p ≠ point → v.granted.getLsbD p = u.granted.getLsbD p) ∧
      t = { s with xlat := { s.xlat with updates := t.xlat.updates }, mem := { s.mem with watches := t.mem.watches } }) ∧
  (∀ (q seq : Nat) (u : SegUpd) (j : Job) (s : State), (s.xlat.updates.find? fun u => u.key == jobKey q seq) = some u →
    s.jobs.find (jobKey q seq) = some j → u.granted = BitVec.allOnes 65 → anyAccess s (oldXl s u.ctx u.seg) = false →
    (s.links.txns.cells.any fun c => c.2.seg / 16 == u.ctx && (u.seg == 255 || c.2.seg % 16 == u.seg) &&
      c.2.gen != (segOf s (c.2.seg / 16) (c.2.seg % 16)).gen) = false →
    ∃ t, exec (.segUpdateComplete q seq) s = .next t ∧ Completed (jobKey q seq) (statusOf j.outs) j.detail j s t ∧
      t.xlat = { s.xlat with updates := s.xlat.updates.filter (·.key != jobKey q seq) } ∧ t.medlars = s.medlars) ∧
  (∀ (conn : Nat) (p : PeerReq) (s : State), alive s = true →
    (connMode (connOf s conn) ≠ 1 ∨ (connOf s conn).st ≠ 1 ∨ peerAllowed s conn p = false) →
    exec (.peerRequest conn p) s =
      .next (s |> bump K.peerRefusedIn 1 |> sumErr 6 |> send (.peerReply conn p.seqNo true false []))) ∧
  (∀ (conn : Nat) (p : PeerReq) (r : (List Byte × Bool) × UStep) (s : State), alive s = true →
    connMode (connOf s conn) = 1 → (connOf s conn).st = 1 → peerAllowed s conn p = true →
    ((lineParts p.offset p.len 40).all fun q => routesOpen s 10 (homeDie s (q.1 / 128))) = true →
    strictTurn (connOf s conn) p = true → p.kind = .read →
    r = peerRead (peerXl s conn p) p { UStep.start 0 0 10 s with owner := .peer conn p.seqNo } → r.2.held = false →
    ∃ t, exec (.peerRequest conn p) s = .next t ∧ OutMsg.peerReply conn p.seqNo false r.1.2 r.1.1 ∈ t.out ∧
      (connOf t conn).performed.head? = some p.seqNo ∧ MemoryKept r.2.st t) ∧
  (∀ (conn : Nat) (p : PeerReq) (u : UStep) (s : State), alive s = true →
    connMode (connOf s conn) = 1 → (connOf s conn).st = 1 → peerAllowed s conn p = true →
    ((lineParts p.offset p.len 40).all fun q => routesOpen s 10 (homeDie s (q.1 / 128))) = true →
    strictTurn (connOf s conn) p = true → p.kind ≠ .read →
    ((connOf s conn).performed.contains p.seqNo = true →
      exec (.peerRequest conn p) s = .next (send (.peerReply conn p.seqNo false false []) s)) ∧
    ((connOf s conn).performed.contains p.seqNo = false →
      u = peerWrite (peerXl s conn p) p { UStep.start 0 0 10 s with owner := .peer conn p.seqNo } → u.held = false →
      ∃ t, exec (.peerRequest conn p) s = .next t ∧ OutMsg.peerReply conn p.seqNo false false [] ∈ t.out ∧
        (connOf t conn).performed.head? = some p.seqNo ∧ MemoryKept u.st t)) ∧
  (∀ (conn : Nat) (s : State), alive s = true →
    exec (.feInboundRdma conn) s = .next (if connMode (connOf s conn) = 2 ∧ (connOf s conn).st = 1
      then send (.roceAccessError conn) (bump K.feInboundRefused 1 s) else bump K.feInboundRefused 1 s))

/-- R233: claims are numbered by the memory they cover: ⌊a / 64 MiB⌋ for Global offset a, and for offset b within the Local
window of die n the claims of Global memory, those of the windows before it, and ⌊b / 64 MiB⌋. Whatever LOCAL_GIB is, the
numbers run from 0 to 32,767 and every claim lies wholly in one region. -/
def Obligations.ClaimsAreNumberedByTheirMemory : Prop :=
  ∀ s : State, localGib s ≤ 240 → localGib s % 16 = 0 →
    (∀ a, a < globalBytes s → claimOf s a = a / 2 ^ 26 ∧ claimOf s a ≤ 128 * (256 - localGib s) - 1) ∧
    (∀ n b, n < 8 → b < localGib s * gib →
      claimOf s (localBase n + b) = globalBytes s / 2 ^ 26 + n * localGib s * 16 + b / 2 ^ 26 ∧
      128 * (256 - localGib s) + n * (localGib s * 16) ≤ claimOf s (localBase n + b) ∧
      claimOf s (localBase n + b) < 128 * (256 - localGib s) + (n + 1) * (localGib s * 16)) ∧
    (∀ a, regionOf s a ≠ none → claimOf s a < 32768) ∧
    (∀ k, k < 32768 → regionOf s (claimBase s k) ≠ none ∧ claimOf s (claimBase s k) = k ∧
      ∀ i, i < 2 ^ 26 → regionOf s (claimBase s k + i) = regionOf s (claimBase s k) ∧ claimOf s (claimBase s k + i) = k) ∧
    (∀ a b, regionOf s a ≠ none → regionOf s b ≠ none → claimOf s a = claimOf s b → regionOf s a = regionOf s b)

/-- R297, R298, R300, R306, R307, R469: a CLOSED queue whose configuration passes opens with that configuration and an empty
ring; closing discards what is fetched and aborts what has started, and a CLOSING queue with nothing started is CLOSED; a
doorbell that lies within the ring moves TAIL, one that does not is refused and counted; a completion head moves forward over
written records only; a send that nothing accepts is discarded and counted. -/
def Obligations.QueuesOpenAndClose : Prop :=
  (∀ (src q : Nat) (s : State), q < 1024 → Writable s (qKey q 0) → (queueOf s q).st = .closed → canOpen s q = true →
    ∃ t, exec (.queueOpen src q) s = .next t ∧
      queueOf t q = { Queue.closed with
        st := .opened, gen := dv s (qKey q 1), ctx := bits (dv s (qKey q 2)) 0 12, ringLoc := dv s (qKey q 3),
        ringAddr := dv s (qKey q 4), ringEntries := dv s (qKey q 5), cplAddr := dv s (qKey q 6),
        cplEntries := dv s (qKey q 7), conn := bits (dv s (qKey q 8)) 0 14, rkey := dv s (qKey q 9),
        epoch := (connOf s (bits (dv s (qKey q 8)) 0 14)).epoch } ∧
      (∀ p, p ≠ q → queueOf t p = queueOf s p) ∧ t = { s with queues := t.queues, dict := t.dict }) ∧
  (∀ (src q : Nat) (s : State), q < 1024 → Writable s (qKey q 0) → (queueOf s q).st ≠ .closed → (queueOf s q).st ≠ .closing →
    exec (.queueClose src q) s = .next (acceptWrite ((queueOf s q).live.foldl (closeJob q)
      (endFetch q (setQueue q { queueOf s q with
        st := .closing, status := 0, fetched := [], killed := [], cplWait := [] } s))))) ∧
  (∀ (src q : Nat) (s : State), q < 1024 → Writable s (qKey q 0) → (queueOf s q).st = .closing →
    exec (.queueClose src q) s = .next (acceptWrite s)) ∧
  (∀ (q : Nat) (s : State), (queueOf s q).st = .closing → (queueOf s q).live = [] →
    exec (.queueCloseDone q) s = .next (setQueue q { queueOf s q with st := .closed } s)) ∧
  (∀ (src q v : Nat) (s : State), q < 1024 → v < 2 ^ 32 → Writable s (qKey q 10) → (queueOf s q).ringLoc = 0 →
    (queueOf s q).st = .opened →
    ∃ t, exec (.qDoorbell src q v) s = .next t ∧
      (tailOk (queueOf s q) v = true → queueOf t q = { queueOf s q with tail := v } ∧
        t = { s with queues := t.queues, dict := t.dict, ev := t.ev, freeN := t.freeN }) ∧
      (tailOk (queueOf s q) v = false → OnlyRecords s t ∧
        dv t K.doorbellRefused = dv (bump K.doorbellRefused 1 s) K.doorbellRefused)) ∧
  (∀ (src q v : Nat) (s : State), q < 1024 → v < 2 ^ 32 → Writable s (qKey q 11) → (queueOf s q).ringLoc = 0 →
    (queueOf s q).st ≠ .closed →
    ∃ t, exec (.qCplHead src q v) s = .next t ∧
      (cplHeadOk (queueOf s q) v = true → queueOf t q = { queueOf s q with cplHead := v }) ∧
      (cplHeadOk (queueOf s q) v = false → OnlyRecords s t)) ∧
  (∀ (conn p : Nat) (s : State), alive s = true → connMode (connOf s conn) = 2 → (connOf s conn).st = 1 →
    ∃ t, exec (.doorbell conn p) s = .next t ∧ t.out = s.out ++ [.roceAck conn] ∧
      (fld p 0 2 < 1024 → fld p 2 2 = 0 → fld p 12 4 = 0 → (queueOf s (fld p 0 2)).ringLoc = 1 →
        (queueOf s (fld p 0 2)).conn = conn → (queueOf s (fld p 0 2)).st = .opened →
        tailOk (queueOf s (fld p 0 2)) (fld p 4 4) = true → cplHeadOk (queueOf s (fld p 0 2)) (fld p 8 4) = true →
        queueOf t (fld p 0 2) = { queueOf s (fld p 0 2) with tail := fld p 4 4, cplHead := fld p 8 4 }) ∧
      (1024 ≤ fld p 0 2 → t.queues = s.queues)) ∧
  (∀ (conn len : Nat) (s : State), alive s = true →
    (connMode (connOf s conn) = 2 → (connOf s conn).st = 1 →
      len ≠ 16 ∧ (4096 < len ∨ connFlag (connOf s conn) 0 = false)) →
    (connMode (connOf s conn) = 2 → (connOf s conn).st = 1 → exec (.sendDiscard conn len) s =
      .next (bump K.feInboundRefused 1 (send (.roceAck conn) s))) ∧
    (connMode (connOf s conn) = 1 → (connOf s conn).st = 1 →
      exec (.sendDiscard conn len) s = .next (bump K.peerRefusedIn 1 s)) ∧
    ((connOf s conn).st ≠ 1 → exec (.sendDiscard conn len) s = .next (bump K.feInboundRefused 1 s))) ∧
  (∀ (conn : Nat) (s : State), alive s = true → (connOf s conn).st ≠ 1 →
    exec (.rocePacketDiscard conn) s = .next (bump K.feInboundRefused 1 s))

/-- R299, R302, R304, R308, R310, R324, R336: a slot that holds the SEQ expected is fetched and the head goes on; one that does
not is read again, and stops the queue the second time. A front-end ring is first read by one RDMA read that carries its
address and key. The next fetched command is handed to its unit, or refused for its header; the first waiting record takes the
next slot of the completion ring. -/
def Obligations.CommandsAreFetchedStartedAndRecorded : Prop :=
  (∀ (q : Nat) (s : State), (queueOf s q).st = .opened → (queueOf s q).reread = none →
    (queueOf s q).tail ≠ (queueOf s q).head → inflight (queueOf s q) < 256 → (queueOf s q).ringLoc ≠ 1 →
    (∀ u, readSlot q (setQueue q { queueOf s q with held := false } s) ≠ .waits u) →
    exec (.commandFetch q) s = .next (fetchDevice q
      (min 16 (min (ahead (queueOf s q).tail (queueOf s q).head) (256 - inflight (queueOf s q))))
      (setQueue q { queueOf s q with held := false } s))) ∧
  (∀ (q : Nat) (s : State), (queueOf s q).st = .opened → (queueOf s q).reread = none →
    (queueOf s q).tail ≠ (queueOf s q).head → inflight (queueOf s q) < 256 → (queueOf s q).ringLoc = 1 →
    epochStands s (queueOf s q) = true → ringSlots s q = none → ringOut s q = false →
    ∃ t x, exec (.commandFetch q) s = .next t ∧ t.links.txns.find s.links.nextTxn = some x ∧ x.read = true ∧
      x.owner = .ring q ∧ x.conn = (queueOf s q).conn ∧ x.rkey = (queueOf s q).rkey ∧
      x.addr = (queueOf s q).ringAddr +
        cmdBytes (queueOf s q).gen * ((queueOf s q).head % (queueOf s q).ringEntries) ∧
      x.len = cmdBytes (queueOf s q).gen * ringSpan (queueOf s q)
        (min 16 (min (ahead (queueOf s q).tail (queueOf s q).head) (256 - inflight (queueOf s q)))) ∧
      t.mem = s.mem ∧ t.medlars = s.medlars) ∧
  (∀ (q raw : Nat) (s : State), (queueOf s q).st = .opened → (queueOf s q).reread = none →
    ahead (queueOf s q).tail (queueOf s q).head = 1 → (queueOf s q).tail ≠ (queueOf s q).head →
    inflight (queueOf s q) < 256 → (queueOf s q).killed = [] →
    (((queueOf s q).ringLoc = 1 ∧ epochStands s (queueOf s q) = true ∧ ringSlots s q = some [raw]) ∨
      ((queueOf s q).ringLoc ≠ 1 ∧
        ∃ u, readSlot q (setQueue q { queueOf s q with held := false } s) = .got raw u)) →
    ∃ t, exec (.commandFetch q) s = .next t ∧
      (fld raw 4 4 ≠ (queueOf s q).head →
        queueOf t q = { queueOf s q with held := false, reread := some s.time.now }) ∧
      (fld raw 4 4 = (queueOf s q).head → (queueOf t q).head = ((queueOf s q).head + 1) % 2 ^ 32) ∧
      (fld raw 4 4 = (queueOf s q).head → ¬((queueOf s q).gen = 2 ∧ fld raw 0 1 = 0x0C ∧ fld raw 2 1 = 2) →
        queueOf t q = { queueOf s q with
          held := false, head := ((queueOf s q).head + 1) % 2 ^ 32
          fetched := (queueOf s q).fetched ++ [{ seq := (queueOf s q).head, raw := raw }] })) ∧
  (∀ (q slot since : Nat) (rest : List Nat) (s : State), (queueOf s q).reread = some since →
    (((queueOf s q).ringLoc = 1 ∧ ringSlots s q = some (slot :: rest)) ∨
      ((queueOf s q).ringLoc ≠ 1 ∧ ∃ u, readSlot q (atLeast (since + 1000) s) = .got slot u)) →
    (queueOf s q).killed = [] → (queueOf s q).cplDead = false →
    ∃ t, exec (.seqReread q) s = .next t ∧ since + 1000 ≤ t.time.now ∧ (queueOf t q).reread = none ∧
      (fld slot 4 4 ≠ (queueOf s q).head → (queueOf t q).st = .stopped ∧ (queueOf t q).status = 0x12 ∧
        ∃ r, (queueOf t q).cplWait = (queueOf s q).cplWait ++ [r] ∧ r.seq = (queueOf s q).head ∧
          r.status = .descriptorInvalid) ∧
      (fld slot 4 4 = (queueOf s q).head → (queueOf t q).head = ((queueOf s q).head + 1) % 2 ^ 32 ∧
        (queueOf t q).st = (queueOf s q).st)) ∧
  (∀ (q : Nat) (f : Fetched) (rest : List Fetched) (s : State), (queueOf s q).fetched = f :: rest →
    (queueOf s q).live.any (holdsQueue s q) = false → headerOk (queueOf s q) f.raw = true →
    isFence (queueOf s q) f.raw = false →
    ∃ t j, exec (.commandStart q) s = .next t ∧ t.jobs.find (jobKey q f.seq) = some j ∧ j.raw = f.raw ∧
      j.opcode = fld f.raw 0 1 ∧ j.gen = (queueOf s q).gen ∧ j.ctx = (queueOf s q).ctx ∧ j.phase = .handed ∧
      (queueOf t q).fetched = rest ∧ (queueOf t q).live = (queueOf s q).live ++ [f.seq] ∧
      t = { s with jobs := t.jobs, queues := t.queues }) ∧
  (∀ (q : Nat) (f : Fetched) (rest : List Fetched) (s : State), (queueOf s q).fetched = f :: rest →
    (queueOf s q).live.any (holdsQueue s q) = false → headerOk (queueOf s q) f.raw = false → (queueOf s q).cplDead = false →
    ∃ t r, exec (.commandStart q) s = .next t ∧ (queueOf t q).fetched = rest ∧
      (queueOf t q).cplWait = (queueOf s q).cplWait ++ [r] ∧ r.seq = f.seq ∧ r.status = .descriptorInvalid ∧
      t.jobs = s.jobs ∧ t.mem = s.mem) ∧
  (∀ (q : Nat) (r : CplRec) (rest : List CplRec) (s : State), (queueOf s q).cplWait = r :: rest →
    ahead (queueOf s q).cplWritten (queueOf s q).cplHead < (queueOf s q).cplEntries → (queueOf s q).ringLoc = 1 →
    epochStands s (queueOf s q) = true →
    ∃ t x, exec (.completionRecordWrite q) s = .next t ∧
      queueOf t q = { queueOf s q with cplWait := rest, cplWritten := ((queueOf s q).cplWritten + 1) % 2 ^ 32 } ∧
      t.links.txns.find s.links.nextTxn = some x ∧
      x.bytes = toBytes 32 (recordBytes q (queueOf s q).cplWritten (queueOf s q).cplEntries r) ∧
      x.addr = (queueOf s q).cplAddr + 32 * ((queueOf s q).cplWritten % (queueOf s q).cplEntries) ∧
      x.conn = (queueOf s q).conn ∧ x.read = false ∧ t.mem = s.mem) ∧
  (∀ (q : Nat) (r : CplRec) (rest : List CplRec) (u : UStep) (s : State), (queueOf s q).cplWait = r :: rest →
    ahead (queueOf s q).cplWritten (queueOf s q).cplHead < (queueOf s q).cplEntries → (queueOf s q).ringLoc ≠ 1 →
    u = uPut ((queueOf s q).cplAddr + 32 * ((queueOf s q).cplWritten % (queueOf s q).cplEntries)) 32
      (recordBytes q (queueOf s q).cplWritten (queueOf s q).cplEntries r)
      { UStep.start (queueOf s q).ctx 0 10 (setQueue q { queueOf s q with
          cplWait := rest, cplWritten := ((queueOf s q).cplWritten + 1) % 2 ^ 32 } s) with owner := .record q } →
    u.held = false → u.fault = none → exec (.completionRecordWrite q) s = .next (dropArrived (.record q) u.st))

/-- R302, R311, R316–R319, R437: each control command that its queue has handed over has its effect and completes: NOP, FENCE
and SHOT at once; SIGNAL and INLINE_WRITE once their bytes are written; WAIT when the value it reads meets its condition, or
by the write of its line that does; WAIT_POLL after WAIT_POLL_NS; ABORT with what it did to its target, which leaves its queue
ABORTED where it was only fetched. A completed command leaves its queue's started commands and its result is kept. -/
def Obligations.ControlCommandsComplete : Prop :=
  (∀ (q seq : Nat) (j : Job) (s : State), handed s q seq 0x0F = some j →
    exec (.nop q seq) s =
      .next (finishWith (jobKey q seq) (if zeros j.raw 16 255 then .done else .descriptorInvalid) s)) ∧
  (∀ (key : Nat) (st : Status) (j : Job) (s : State), s.jobs.find key = some j → j.gone = false →
    (finishWith key st s).jobs.find key = none ∧
    (queueOf (finishWith key st s) (keyQueue key)).live = (queueOf s (keyQueue key)).live.filter (· != keySeq key) ∧
    (queueOf (finishWith key st s) (keyQueue key)).results = (queueOf s (keyQueue key)).results ++ [(keySeq key, st)] ∧
    MemoryKept s (finishWith key st s) ∧ (finishWith key st s).medlars = s.medlars ∧
    (j.mute = false → (queueOf s (keyQueue key)).cplDead = false → j.quiet = false →
      ∃ r, (queueOf (finishWith key st s) (keyQueue key)).cplWait = (queueOf s (keyQueue key)).cplWait ++ [r] ∧
        r.status = st ∧ r.tag = j.tag ∧ r.opcode = j.opcode ∧ r.detail = j.detail)) ∧
  (∀ (q seq : Nat) (j : Job) (s : State), handed s q seq 0x08 = some j →
    ∃ t o, exec (.fence q seq) s = .next t ∧
      Completed (jobKey q seq) o (intervalLength (queueOf s q) seq % 2 ^ 64) j s t ∧ MemoryKept s t ∧
      o = (if ∃ r, r ∈ intervalResults (queueOf s q) seq ∧ r.2 = .frontendGone then .frontendGone
        else if ∃ r, r ∈ intervalResults (queueOf s q) seq ∧ r.2 = .remoteAbandoned then .remoteAbandoned else .done) ∧
      t.medlars = s.medlars ∧ t.grp = s.grp ∧ t.faces = s.faces) ∧
  (∀ (q seq : Nat) (j : Job) (s : State), handed s q seq 0x0E = some j → zeros j.raw 20 255 = true →
    (ctxOf s j.ctx).dict = true →
    exec (.shot q seq) s = .next (finishWith (jobKey q seq) .done (fireShot 1 (nodeId s) (fld j.raw 16 4) s))) ∧
  (∀ (q seq : Nat) (j : Job) (s : State), handed s q seq 0x0E = some j → zeros j.raw 20 255 = true →
    (ctxOf s j.ctx).dict = false → exec (.shot q seq) s = .next (finishWith (jobKey q seq) .domainDenied s)) ∧
  (∀ (q seq : Nat) (j : Job) (s : State), handed s q seq 0x0D = some j → inlineOk j.raw = true →
    (inlinePut (fld j.raw 16 8) (fld j.raw 24 2) (fld j.raw 64 (fld j.raw 24 2))
      (UStep.start j.ctx (jobKey q seq) 10 s)).held = false →
    exec (.inlineWrite q seq) s = .next (finishAcked (jobKey q seq) (ctlClose (inlinePut (fld j.raw 16 8) (fld j.raw 24 2)
      (fld j.raw 64 (fld j.raw 24 2)) (UStep.start j.ctx (jobKey q seq) 10 s))))) ∧
  (∀ (q seq : Nat) (j : Job) (s : State), handed s q seq 0x09 = some j → signalOk j.raw = true → fld j.raw 32 1 ≠ 2 →
    (uPut (fld j.raw 16 8) (signalWidth j.raw) (fld j.raw 24 8)
      (UStep.start j.ctx (jobKey q seq) 10 s)).held = false →
    exec (.signal q seq) s = .next (finishAcked (jobKey q seq) (ctlClose (uPut (fld j.raw 16 8) (signalWidth j.raw)
      (fld j.raw 24 8) (UStep.start j.ctx (jobKey q seq) 10 s))))) ∧
  (∀ (q seq : Nat) (j : Job) (u : UStep) (s : State), handed s q seq 0x09 = some j → signalOk j.raw = true →
    fld j.raw 32 1 = 2 → signalAddOk s j.ctx (fld j.raw 16 8) = true →
    u = uReduceLine (fld j.raw 16 8 - fld j.raw 16 8 % 128) 0 3
      (BitVec.ofNat 1024 (fld j.raw 24 8 * 2 ^ (8 * (fld j.raw 16 8 % 128)))) (spanMask (fld j.raw 16 8 % 128) 8)
      (UStep.start j.ctx (jobKey q seq) 10 s) → u.held = false →
    exec (.signal q seq) s = .next (finishAcked (jobKey q seq) (ctlClose u))) ∧
  (∀ (q seq : Nat) (j : Job) (s : State) (r : Rd × UStep), handed s q seq 0x0A = some j →
    waitOk j.raw = true → r = uGet (waitAddr j.raw) 8 (UStep.start j.ctx (jobKey q seq) 10 s) → r.2.held = false →
    r.2.fault = none → r.1.poison = false → r.1.failed = false → waitTest j.raw r.1.val = true →
    exec (.wait q seq) s = .next (endWait (jobKey q seq) r.1.val (ctlClose r.2))) ∧
  (∀ (q seq v : Nat) (w : Watch) (j : Job) (s : State), handed s q seq 0x0A = none →
    s.mem.watches.find (jobKey q seq) = some w → s.jobs.find (jobKey q seq) = some j → w.hit = some (v, false) →
    ∃ t, exec (.wait q seq) s = .next t ∧ t.mem.watches.find (jobKey q seq) = none ∧
      Completed (jobKey q seq) (statusOf j.outs) (v % 2 ^ 64) j s t) ∧
  (∀ (q seq : Nat) (j : Job) (s : State) (r : Rd × UStep), s.jobs.find (jobKey q seq) = some j →
    j.phase = .running → opGen2 j.gen j.opcode = some 0x0A → s.mem.watches.find (jobKey q seq) = none →
    r = uGet (waitAddr j.raw) 8 (UStep.start j.ctx (jobKey q seq) 10 (atLeast (j.detail + dv s K.waitPollNs) s)) →
    r.2.held = false → r.2.fault = none → r.1.poison = false → r.1.failed = false → waitTest j.raw r.1.val = true →
    exec (.waitPoll q seq) s = .next (endWait (jobKey q seq) r.1.val (ctlClose r.2))) ∧
  (∀ (q seq : Nat) (j : Job) (s : State), handed s q seq 0x0C = some j →
    fld j.raw 1 1 &&& 0xFD = 0 → fld j.raw 3 1 = 0 → fld j.raw 16 2 < 1024 → zeros j.raw 18 19 = true →
    zeros j.raw 24 255 = true →
    ((ctxOf s j.ctx).domain = 0 ∨
      (ctxOf s j.ctx).domain = (ctxOf s (bits (dv s (qKey (fld j.raw 16 2) 2)) 0 12)).domain) →
    ∃ r, r = abortTarget (fld j.raw 16 2) (fld j.raw 20 4) (setDetail (jobKey q seq) (abortDetail j.raw) s) ∧
      exec (.abort q seq) s = .next (finishWith (jobKey q seq) r.1 r.2)) ∧
  (∀ (tq ts : Nat) (f : Fetched) (s : State), (queueOf s tq).st = .opened → notBehind ts (queueOf s tq).tail = false →
    ((queueOf s tq).fetched.find? fun g => g.seq == ts) = some f →
    (abortTarget tq ts s).1 = .done ∧ (queueOf (abortTarget tq ts s).2 tq).results = (queueOf s tq).results ++ [(ts, .aborted)] ∧
    (∀ g, g ∈ (queueOf (abortTarget tq ts s).2 tq).fetched → g.seq ≠ ts) ∧ (abortTarget tq ts s).2.jobs = s.jobs)

/-- R320–R323, R326: a HAUL_COPY or HAUL_FILL that passes its checks is dealt to its engines and moves nothing yet; HAUL_PIECE
moves an engine's piece forward, and the share goes on to its next piece where the piece is whole; with every share finished
and every write acknowledged the command completes. -/
def Obligations.HaulCommandsMoveBytes : Prop :=
  (∀ (q seq : Nat) (j : Job) (s : State), handed s q seq 0x03 = some j → haulOk true j.raw = true →
    ∃ t h, exec (.haulCopy q seq) s = .next t ∧ t.hauls.find (jobKey q seq) = some h ∧
      h.unit = haulUnit s true j.ctx j.raw ∧ h.left = haulWidth true h.unit j.raw ∧ h.bytesDone = 0 ∧ h.poisonAt = none ∧
      t = { s with hauls := t.hauls, engines := t.engines, jobs := t.jobs, freeN := t.freeN }) ∧
  (∀ (q seq : Nat) (j : Job) (s : State), handed s q seq 0x04 = some j → haulOk false j.raw = true →
    ∃ t h, exec (.haulFill q seq) s = .next t ∧ t.hauls.find (jobKey q seq) = some h ∧
      h.unit = haulUnit s false j.ctx j.raw ∧ h.left = haulWidth false h.unit j.raw ∧ h.bytesDone = 0 ∧ h.poisonAt = none ∧
      t = { s with hauls := t.hauls, engines := t.engines, jobs := t.jobs, freeN := t.freeN }) ∧
  (∀ (q seq : Nat) (j : Job) (copy : Bool) (s : State),
    handed s q seq (if copy then 0x03 else 0x04) = some j → haulOk copy j.raw = false →
    exec (if copy then .haulCopy q seq else .haulFill q seq) s = .next (finishWith (jobKey q seq) .descriptorInvalid s)) ∧
  (∀ (unit engine : Nat) (p : Piece) (rest : List Piece) (j : Job) (h : Haul) (m : Moved × UStep) (s : State),
    unit ≤ 8 → engine < engineCount unit → dieUp s (unitDie unit) = true →
    (engineOf s (engineKey unit engine)).pieces = p :: rest → s.jobs.find p.key = some j → s.hauls.find p.key = some h →
    p.fault = none → txnsOfEngine s (engineKey unit engine) < 512 →
    m = moveLines (opGen2 j.gen j.opcode == some 0x03) j.raw (min (p.start + 65536) p.total)
      (512 - txnsOfEngine s (engineKey unit engine)) ⟨p.start + p.done, 0, none⟩
      { UStep.start j.ctx p.key (unitDie unit) s with owner := .share p.key (engineKey unit engine) } →
    m.2.held = false → m.2.fault = none →
    ∃ t, exec (.haulPiece unit engine) s = .next t ∧
      (m.1.at_ ≠ min (p.start + 65536) p.total → (engineOf t (engineKey unit engine)).pieces =
        { p with done := m.1.at_ - p.start, fault := none } :: rest) ∧
      (m.1.at_ = min (p.start + 65536) p.total → p.start + p.stride < p.total →
        (engineOf t (engineKey unit engine)).pieces = { p with start := p.start + p.stride, done := 0, fault := none } :: rest) ∧
      (m.1.at_ = min (p.start + 65536) p.total → p.total ≤ p.start + p.stride →
        (engineOf t (engineKey unit engine)).pieces = rest ∧
        ∃ g, t.hauls.find p.key = some g ∧ g.left = h.left - 1)) ∧
  (∀ (q seq : Nat) (h : Haul) (j : Job) (s : State), s.hauls.find (jobKey q seq) = some h →
    s.jobs.find (jobKey q seq) = some j → h.left = 0 → txnsOf s (jobKey q seq) = 0 →
    ∃ t, exec (.haulComplete q seq) s = .next t ∧ t.hauls.find (jobKey q seq) = none ∧
      Completed (jobKey q seq) (statusOf j.outs) ((match statusOf j.outs, h.poisonAt with
        | .poisonRead, some x => x
        | _, _ => h.bytesDone) % 2 ^ 64) j s t ∧ MemoryKept s t ∧ t.engines = s.engines)

/-- R327, R329, R331, R332: a faulted share, route or collective with a save slot free is switched out with its record written
or parked; FAULT_Q_HEAD moves over written records only; FAULT_RESUME makes a saved group runnable and gives a saved share
back to its engine, FAULT_END ends the share with its fault's status, and a handle that no switched-out task bears is refused
with STATE. -/
def Obligations.FaultedTasksAreSavedAndResolved : Prop :=
  (∀ (unit engine : Nat) (p : Piece) (rest : List Piece) (f : FaultInfo) (s : State), unit ≤ 8 → engine < engineCount unit →
    (engineOf s (engineKey unit engine)).pieces = p :: rest → p.fault = some f →
    (engineOf s (engineKey unit engine)).saved = none → faultListFull 1 s = false →
    ∃ t, exec (.taskSwitchOut 3 unit engine) s = .next t ∧
      engineOf t (engineKey unit engine) = { pieces := rest, saved := some p, stalled := false } ∧
      (faultRingFull s = false → s.faultq.waiting = [] → t.faultq.tail = (s.faultq.tail + 1) % 2 ^ 32 ∧
        t.faultq.waiting = []) ∧
      ((faultRingFull s = true ∨ s.faultq.waiting ≠ []) →
        t.faultq.waiting = s.faultq.waiting ++ [taskRecord 3 unit engine p.key p.done f])) ∧
  (∀ (die index : Nat) (r : Route) (f : FaultInfo) (s : State), (brambleFaulted (brambleOf s die))[index]? = some r →
    r.fault = some f →
    faultListFull 1 s = false → (brambleOf s die).saves.cells = [] →
    ∃ t n, exec (.taskSwitchOut 4 die index) s = .next t ∧ n < 4 ∧ (brambleOf t die).saves.find n = some { r with stalled := false } ∧
      (∀ x, (brambleOf t die).run = some x → x.key ≠ r.key) ∧ (∀ x, x ∈ (brambleOf t die).open_ → x.key ≠ r.key) ∧
      (faultRingFull s = false → s.faultq.waiting = [] → t.faultq.tail = (s.faultq.tail + 1) % 2 ^ 32 ∧
        t.faultq.waiting = []) ∧
      ((faultRingFull s = true ∨ s.faultq.waiting ≠ []) → t.faultq.waiting = s.faultq.waiting ++ [taskRecord 4 die n r.key r.position f])) ∧
  (∀ (unit index key : Nat) (c : Coll) (f : FaultInfo) (s : State),
    (s.press.colls.cells.filter fun c => c.2.fault.isSome && c.2.saved.isNone)[index]? = some (key, c) → c.fault = some f →
    faultListFull 1 s = false → pressSlots s = [] →
    ∃ t n, exec (.taskSwitchOut 5 unit index) s = .next t ∧ n < 16 ∧
      t.press.colls.find key = some { c with saved := some n, stalled := false } ∧
      (faultRingFull s = false → s.faultq.waiting = [] → t.faultq.tail = (s.faultq.tail + 1) % 2 ^ 32 ∧
        t.faultq.waiting = []) ∧
      ((faultRingFull s = true ∨ s.faultq.waiting ≠ []) → t.faultq.waiting = s.faultq.waiting ++ [taskRecord 5 8 n key c.position f])) ∧
  (∀ (src v : Nat) (s : State), Writable s K.faultQHead → v < 2 ^ 32 →
    ∃ t, exec (.faultQHead src v) s = .next t ∧
      (ahead v s.faultq.head ≤ ahead s.faultq.tail s.faultq.head → t.faultq.head = v ∧
        (s.faultq.waiting = [] → t.faultq.tail = s.faultq.tail ∧ t.faultq.waiting = [])) ∧
      (ahead s.faultq.tail s.faultq.head < ahead v s.faultq.head → t.faultq = s.faultq)) ∧
  (∀ (src unit slot g : Nat) (x : Group) (s : State), Writable s K.faultResolve → unit < 8 → slot < 256 →
    isParked (slot + unit * 2 ^ 8 + 1 * 2 ^ 12) s = false →
    (s.grp.groups.cells.find? fun c => c.2.die == unit && c.2.place == .saved slot) = some (g, x) →
    ∃ t, exec (.faultResume src (slot + unit * 2 ^ 8 + 1 * 2 ^ 12)) s = .next t ∧
      groupOf t g = some { x with place := .runnable slot } ∧ t.mem = s.mem ∧
      t.grp = { s.grp with groups := t.grp.groups }) ∧
  (∀ (src unit slot : Nat) (p : Piece) (s : State), Writable s K.faultResolve → unit ≤ 8 → slot < 64 →
    isParked (slot + unit * 2 ^ 8 + 3 * 2 ^ 12) s = false → (engineOf s (engineKey unit slot)).saved = some p →
    (∃ t, exec (.faultResume src (slot + unit * 2 ^ 8 + 3 * 2 ^ 12)) s = .next t ∧
      engineOf t (engineKey unit slot) = { engineOf s (engineKey unit slot) with
        saved := none, pieces := (engineOf s (engineKey unit slot)).pieces ++ [{ p with fault := none }] } ∧
      t.jobs = s.jobs) ∧
    (∃ t, exec (.faultEnd src (slot + unit * 2 ^ 8 + 3 * 2 ^ 12)) s = .next t ∧
      (engineOf t (engineKey unit slot)).saved = none ∧
      ∀ j f, s.jobs.find p.key = some j → p.fault = some f →
        ∃ k, t.jobs.find p.key = some k ∧ causeStatus f.cause ∈ k.outs)) ∧
  (∀ (src handle : Nat) (s : State), Writable s K.faultResolve → handle < 2 ^ 15 → isParked handle s = false →
    (bits handle 12 3 = 1 →
      (s.grp.groups.cells.find? fun c => c.2.die == bits handle 8 4 && c.2.place == .saved (bits handle 0 8)) = none) →
    (bits handle 12 3 = 2 → (faceOf s (bits handle 8 4)).saves.find (bits handle 0 8) = none) →
    (bits handle 12 3 = 3 → (engineOf s (engineKey (bits handle 8 4) (bits handle 0 8))).saved = none) →
    (bits handle 12 3 = 4 → (brambleOf s (bits handle 8 4)).saves.find (bits handle 0 8) = none) →
    (bits handle 12 3 = 5 → bits handle 8 4 ≠ 8 ∨
      (s.press.colls.cells.find? fun c => c.2.saved == some (bits handle 0 8)) = none) →
    exec (.faultResume src handle) s = .next (refuseWrite src K.faultResolve 7 s) ∧
    exec (.faultEnd src handle) s = .next (refuseWrite src K.faultResolve 7 s))

/-- R297: a write of 1 to Q_STATE opens a CLOSED queue that can be opened, and a write of 0 closes a queue in any other state;
a value other than 0 and 1 is refused with RANGE, and a 1 written to a queue that is not CLOSED, or a 0 written to a CLOSED
queue, with STATE. A refused write changes nothing but records. -/
def Obligations.QueueStateWritesAreDecided : Prop :=
  (∀ (src q v : Nat) (s : State), q < 1024 → v < 256 → Writable s (qKey q 0) →
    (2 ≤ v → exec (.dictWrite src (qKey q 0) v) s = .next (refuseWrite src (qKey q 0) 3 s)) ∧
    (v = 1 → (queueOf s q).st ≠ .closed → exec (.dictWrite src (qKey q 0) v) s = .next (refuseWrite src (qKey q 0) 7 s)) ∧
    (v = 0 → (queueOf s q).st = .closed → exec (.dictWrite src (qKey q 0) v) s = .next (refuseWrite src (qKey q 0) 7 s)) ∧
    (v = 1 → (queueOf s q).st = .closed → canOpen s q = false →
      exec (.dictWrite src (qKey q 0) v) s = .next (refuseWrite src (qKey q 0) 7 s)) ∧
    (v = 1 → (queueOf s q).st = .closed → canOpen s q = true →
      ∃ t, exec (.dictWrite src (qKey q 0) v) s = .next t ∧ (queueOf t q).st = .opened ∧ (queueOf t q).head = 0 ∧
        (queueOf t q).tail = 0 ∧ ∀ p, p ≠ q → queueOf t p = queueOf s p) ∧
    (v = 0 → (queueOf s q).st ≠ .closed → (queueOf s q).live = [] →
      ∃ t, exec (.dictWrite src (qKey q 0) v) s = .next t ∧ (queueOf t q).st = .closing ∧
        ∀ p, p ≠ q → queueOf t p = queueOf s p) ∧
    (v = 0 → (queueOf s q).st ≠ .closed →
      ∃ t, exec (.dictWrite src (qKey q 0) v) s = .next t ∧ (queueOf t q).st = .closing)) ∧
  (∀ (src key code : Nat) (s : State), OnlyRecords s (refuseWrite src key code s))

/-- R344, R345, R348–R351, R353, R354: a training ends UP with its rate, DOWN or NODE_CONFLICT, each with its event, or in
CONFIG_INVALID; a port that is DOWN tries again 1,000,000,000 ns later, and one outside every bond trains under PORT_CFG when it is
asked to; a lane that loses lock retrains the port, which goes DOWN after 500,000,000 ns; a flit in order is taken, one
with a CRC error or after a gap asks for a replay, and one that asks for a replay has the replay buffer sent again; PFC pauses a selected priority; a transit packet leaves over a usable hop or waits, or is
discarded; a routing entry is stored whole. -/
def Obligations.PortsTrainAndCarry : Prop :=
  (∀ (lp : Nat) (r : TrainResult) (cap : Bool) (s : State), alive s = true → lp < 96 → (portOf s lp).st = .training →
    cfgOk (lp / 4) (portOf s lp).cfg = true → bit s.board.clocksAbsent (8 + lp / 16) = false → r.up = true →
    upFits (linkCap s) (portOf s lp).cfg r = some cap → ((portOf s lp).retraining = none ∨ r.rate = (portOf s lp).rate) →
    (∀ m, m ∈ bondRuns s lp → (portOf s m).rate = r.rate) →
    ∃ t, exec (.portTrainingDone lp r) s = .next t ∧ (portOf t lp).rate = r.rate ∧ (portOf t lp).retraining = none ∧
      (portOf t lp).capped = cap ∧ (portOf t lp).cfg = (portOf s lp).cfg ∧ t.mem = s.mem ∧
      ((cfgMode (portOf s lp).cfg ≠ 1 ∨ (portOf s lp).retraining ≠ none ∨ r.neighbour ≠ nodeId s) → (portOf t lp).st = .up ∧
        ∃ e, e ∈ t.ev.inFlight ∧ e.code = 0x40 ∧ e.arg1 = lp) ∧
      (cfgMode (portOf s lp).cfg = 1 → (portOf s lp).retraining = none → r.neighbour = nodeId s → (portOf t lp).st = .nodeConflict ∧
        ∃ e, e ∈ t.ev.inFlight ∧ e.code = 0x42 ∧ e.arg1 = lp)) ∧
  (∀ (lp : Nat) (r : TrainResult) (s : State), alive s = true → (portOf s lp).st = .training →
    cfgOk (lp / 4) (portOf s lp).cfg = true → r.up = false → (portOf s lp).retraining = none → lp < 96 →
    ∃ t e, exec (.portTrainingDone lp r) s = .next t ∧ (portOf t lp).st = .down ∧ (portOf t lp).downAt = s.time.now ∧
      e ∈ t.ev.inFlight ∧ e.code = 0x41 ∧ e.arg1 = lp ∧ bit (dv t K.errSummary) 9 = true ∧
      ∀ p, p ≠ lp → portOf t p = portOf s p) ∧
  (∀ (lp : Nat) (r : TrainResult) (s : State), alive s = true → (portOf s lp).st = .training →
    cfgOk (lp / 4) (portOf s lp).cfg = false →
    exec (.portTrainingDone lp r) s = .next (setPort lp { portOf s lp with st := .configInvalid } s)) ∧
  (∀ (lp : Nat) (s : State), alive s = true → (portOf s lp).st = .down → cfgMode (portOf s lp).cfg ≠ 0 →
    (portOf s lp).cfg = dv s (K.portCfg + lp / 4) →
    ∃ t, exec (.portRetry lp) s = .next t ∧ (portOf s lp).downAt + 1000000000 ≤ t.time.now ∧
      portOf t lp = { Port.idle with cfg := (portOf s lp).cfg, st := .training } ∧
      ∀ p, p ≠ lp → portOf t p = portOf s p) ∧
  (∀ (src port : Nat) (s : State), port < 24 → Writable s (K.portRetrain + port) → bondLead s (4 * port) = none →
    bondMembers s (4 * port) = [] → cfgBond (dv s (K.portCfg + port)) = 0 →
    (exec (.portRetrain src port 0) s = .next (acceptWrite s)) ∧
    ∃ t, exec (.portRetrain src port 1) s = .next t ∧
      (∀ i, i < 4 → portOf t (4 * port + i) = Port.starting (dv s (K.portCfg + port)) i) ∧
      (∀ p, p / 4 ≠ port → portOf t p = portOf s p)) ∧
  (∀ (lp : Nat) (s : State), alive s = true → cfgMode (portOf s lp).cfg = 1 → (portOf s lp).st = .up →
    ∃ t, exec (.laneLockLoss lp) s = .next t ∧ (portOf t lp).st = .training ∧
      (portOf t lp).retraining = some s.time.now ∧ (portOf t lp).rate = (portOf s lp).rate ∧
      (layerOf t lp).nextFlit = (layerOf s lp).nextFlit ∧
      (layerOf t lp).replayBuf = (layerOf s lp).replayBuf ∧ t.links.txns = s.links.txns ∧
      bit (dv t K.errSummary) 9 = true) ∧
  (∀ (lp since : Nat) (s : State), alive s = true → (portOf s lp).st = .training → (portOf s lp).retraining = some since →
    ∃ t, exec (.retrainTimeout lp) s = .next t ∧ since + 500000000 ≤ t.time.now ∧ (portOf t lp).st = .down) ∧
  (∀ (lp n fec : Nat) (h : FlitHeader) (s : State), alive s = true → cfgMode (portOf s lp).cfg = 1 →
    (portOf s lp).st = .up →
    (∃ t, exec (.flitReceive lp n true fec h) s = .next t ∧
      (h.replay = false → n ≤ (layerOf s lp).nextFlit → (portOf t lp).st = .up ∧ t.out = s.out) ∧
      (h.replay = false → n = (layerOf s lp).nextFlit →
        (layerOf t lp).nextFlit = n + 1 ∧ (layerOf t lp).replayAsked = false) ∧
      (h.replay = false → n < (layerOf s lp).nextFlit → (layerOf t lp).nextFlit = (layerOf s lp).nextFlit) ∧
      (h.replay = false → (layerOf s lp).nextFlit < n → (layerOf s lp).replayAsked = false →
        OutMsg.replayRequest lp ∈ t.out) ∧
      (h.replay = true → (∃ f, f ∈ (layerOf s lp).replayBuf ∧ h.ack ≤ f.1) → h.ack ≤ (layerOf s lp).nextSent →
        OutMsg.flitResend lp ((layerOf s lp).replayBuf.filter fun f => decide (h.ack ≤ f.1)) ∈ t.out)) ∧
    (∃ t, exec (.flitReceive lp n false fec h) s = .next t ∧ OutMsg.replayRequest lp ∈ t.out ∧
      (layerOf t lp).nextFlit = (layerOf s lp).nextFlit)) ∧
  (∀ (lp prio : Nat) (pause : Bool) (s : State), alive s = true → prio < 8 →
    (cfgMode (portOf s lp).cfg = 2 ∨ cfgMode (portOf s lp).cfg = 3) → (portOf s lp).st = .up →
    bit (dv s (K.portPfc + lp)) prio = true →
    ∃ t, exec (.pfcPause lp prio pause) s = .next t ∧ bit (portOf t lp).paused prio = pause ∧ t.mem = s.mem) ∧
  (∀ (lp dest hops vc : Nat) (s : State), alive s = true → portUp s lp = true →
    (dest % 4096 = nodeId s → exec (.transitPacket lp dest hops vc) s = .next s) ∧
    (dest % 4096 ≠ nodeId s → routeValid (routeEntry s (dest % 4096)) = false →
      exec (.transitPacket lp dest hops vc) s = .next (s |> bump K.transitDiscarded 1 |> sumErr 10)) ∧
    (dest % 4096 ≠ nodeId s → dv s K.hopLimit ≤ hops + 1 →
      exec (.transitPacket lp dest hops vc) s = .next (s |> bump K.transitDiscarded 1 |> sumErr 10)) ∧
    (dest % 4096 ≠ nodeId s → routeValid (routeEntry s (dest % 4096)) = true → hops + 1 < dv s K.hopLimit →
      vc + (if bit (routeEntry s (dest % 4096)) 58 then 1 else 0) ≤ 3 →
      ∃ t, exec (.transitPacket lp dest hops vc) s = .next t ∧
        ((usableHops s (dest % 4096)).filter (portTakes s) = [] →
          t.links.transit = s.links.transit ++ [(dest % 4096, hops, vc)] ∧ t.out = s.out) ∧
        ((usableHops s (dest % 4096)).filter (portTakes s) ≠ [] →
          ∃ h, h ∈ usableHops s (dest % 4096) ∧ portTakes s h = true ∧ t.links.transit = s.links.transit ∧ t.out = s.out ++
          [.transit h (dest % 4096) (hops + 1) (vc + (if bit (routeEntry s (dest % 4096)) 58 then 1 else 0))]))) ∧
  (∀ (src v : Nat) (s : State), v < 2 ^ 64 → Writable s K.routeWrite →
    ∃ t, exec (.routeWrite src v) s = .next t ∧
      (((List.range 4).all fun i => hopOk (routeHop v i)) = true →
        routeEntry t (bits v 0 12) = bits v 0 59 ∧ ∀ n, n ≠ bits v 0 12 → routeEntry t n = routeEntry s n) ∧
      (((List.range 4).all fun i => hopOk (routeHop v i)) = false → OnlyRecords s t))

/-- R335, R336, R352, R356–R359: an acknowledged or refused peer transaction is resolved and forgotten, one that is late goes
again and in the end is abandoned, which its node's bit records, while a front-end's connection ends its epoch; an
acknowledgement resolves the writes up to its packet, and a NAK or a timeout goes back to the first unacknowledged; a
notification halves the rate at most once in 50,000 ns, and 50,000 ns without one raise it; a connection record begins a new
epoch. -/
def Obligations.TransactionsResolve : Prop :=
  (∀ (id : Nat) (x : Txn) (poison : Bool) (data : List Byte) (s : State), s.links.txns.find id = some x → x.peer = true →
    x.sent = true → (x.read = true → x.len ≤ data.length) →
    (exec (.transportAck id false poison data) s = .next (ackTxn id poison data s)) ∧
    (ackTxn id poison data s).links.txns.find id = none ∧
    (∃ t, exec (.transportAck id true poison data) s = .next t ∧ t.links.txns.find id = none)) ∧
  (∀ (id : Nat) (refused poison : Bool) (data : List Byte) (s : State), s.links.txns.find id = none →
    exec (.transportAck id refused poison data) s = .next s) ∧
  (∀ (id : Nat) (x : Txn) (s : State), s.links.txns.find id = some x → x.peer = true → x.sent = true →
    routeValid (routeEntry s x.node) = true → (usableHops s x.node).filter (portTakes s) ≠ [] →
    ∃ t y, exec (.transportResend id) s = .next t ∧ x.resentAt + 20000 ≤ t.time.now ∧ t.links.txns.find id = some y ∧
      y = { x with resentAt := t.time.now, hop := y.hop } ∧ (∃ h, y.hop = some h ∧ h ∈ usableHops s x.node) ∧ t.out = s.out ++ [.retransmit x.conn x.psn] ∧ t.mem = s.mem) ∧
  (∀ (id : Nat) (x : Txn) (s : State), s.links.txns.find id = some x →
    ∃ t, exec (.linkTimeout id) s = .next t ∧
      (x.peer = true → t.links.txns.find id = none ∧
        blob t K.abandonedNodes = blob (setBlobBit K.abandonedNodes x.node true s) K.abandonedNodes ∧ x.since + dv s K.linkTimeoutNs ≤ t.time.now) ∧
      (x.peer = false → t = endEpoch x.conn (atLeast (x.since + dv s K.linkTimeoutNs) s))) ∧
  (∀ (conn psn : Nat) (data : List Byte) (s : State), alive s = true → frontendReady s conn = true →
    exec (.roceResponse conn .ack psn data) s = .next (ackUpTo conn (psn % 2 ^ 24) s) ∧
    exec (.roceResponse conn .nakRemoteError psn data) s = .next (endEpoch conn s) ∧
    (∀ u, u = ackUpTo conn ((psn % 2 ^ 24 + 2 ^ 24 - 1) % 2 ^ 24) s →
      exec (.roceResponse conn .nakSequence psn data) s =
        .next (if psnOut (connOf s conn) (psn % 2 ^ 24) then goBack conn (connOf u conn).ackPsn u else s))) ∧
  (∀ (conn psn : Nat) (s : State), (connOf s conn).retries < connRetry (connOf s conn) →
    ∃ t, goBack conn psn s = t ∧ t.out = s.out ++ [.retransmit conn psn] ∧
      (connOf t conn).retries = (connOf s conn).retries + 1) ∧
  (∀ (conn id psn : Nat) (x : Txn) (data : List Byte) (s : State), alive s = true → frontendReady s conn = true →
    ((roceOut s conn).find? fun c => c.2.read && c.2.psn == psn % 2 ^ 24) = some (id, x) → x.len ≤ data.length →
    ∃ u t, u = ackUpTo conn ((x.psn + 2 ^ 24 - psnCount (connOf s conn) x.len) % 2 ^ 24) s ∧
      exec (.roceResponse conn .readResponse psn data) s = .next t ∧
      (((roceOut u conn).find? fun c => c.2.read).map Prod.fst = some id → psnOut (connOf u conn) x.psn = true →
        t = ackTxn id false data (setConn conn { connOf u conn with ackPsn := (x.psn + 1) % 2 ^ 24, retries := 0 } u)) ∧
      (((roceOut u conn).find? fun c => c.2.read).map Prod.fst ≠ some id → t = u)) ∧
  (∀ (conn : Nat) (c : Nat × Txn) (rest : List (Nat × Txn)) (s : State), roceOut s conn = c :: rest →
    frontendReady s conn = true → (connOf s conn).retries < connRetry (connOf s conn) →
    ∃ t, exec (.roceAckTimeout conn) s = .next t ∧ c.2.resentAt + connAckTimeout (connOf s conn) ≤ t.time.now ∧
      (connOf t conn).retries = (connOf s conn).retries + 1 ∧
      t.out = s.out ++ [.retransmit conn (connOf s conn).ackPsn] ∧ t.mem = s.mem) ∧
  (∀ (conn : Nat) (s : State), alive s = true → frontendReady s conn = true →
    (elapsed s.time.now (connOf s conn).lastCnp 50000 = true → exec (.ecnMarkedPacket conn) s =
      .next (send (.cnp conn) (setConn conn { connOf s conn with lastCnp := some s.time.now } s))) ∧
    (elapsed s.time.now (connOf s conn).lastCnp 50000 = false → exec (.ecnMarkedPacket conn) s = .next s) ∧
    (elapsed s.time.now (connOf s conn).lastCut 50000 = true → exec (.cnpReceive conn) s =
      .next (setConn conn { connOf s conn with
        rate := (connOf s conn).rate / 2, lastCut := some s.time.now, lastRaise := s.time.now } s)) ∧
    (elapsed s.time.now (connOf s conn).lastCut 50000 = false → exec (.cnpReceive conn) s =
      .next (setConn conn { connOf s conn with lastRaise := s.time.now } s)) ∧
    (∃ t, exec (.rateIncrease conn) s = .next t ∧ (connOf s conn).lastRaise + 50000 ≤ t.time.now ∧
      (connOf t conn).rate = min (20 * 2 ^ 40) ((connOf s conn).rate + 2 ^ 40) ∧
      (connOf t conn).lastRaise = t.time.now)) ∧
  (∀ (src v : Nat) (s : State), Writable s K.abandonedClear → v < 4096 →
    exec (.abandonedClear src v) s = .next (acceptWrite (setBlobBit K.abandonedNodes v false s))) ∧
  (∀ (src r : Nat) (s : State), Writable s K.connWrite → r < 2 ^ 512 →
    (recordOk s r = true → fld r 2 1 ≠ 0 →
      ∃ t, exec (.connWrite src r) s = .next t ∧ (connOf t (bits (fld r 0 2) 0 14)).record = r ∧
        (connOf t (bits (fld r 0 2) 0 14)).st = 1 ∧ (connOf t (bits (fld r 0 2) 0 14)).epochEnded = false ∧
        (connOf t (bits (fld r 0 2) 0 14)).epoch =
          ((connOf (endEpoch (bits (fld r 0 2) 0 14) s) (bits (fld r 0 2) 0 14)).epoch + 1) % 2 ^ 32) ∧
    (recordOk s r = false → ∃ t, exec (.connWrite src r) s = .next t ∧ t.links = s.links))

/-- R357, R360–R369: a collective whose list names the own NODE once is staged with its rank and peers, and its parameter
messages leave; a parameter message that comes first waits, one that differs ends the collective; a ready message opens the way
to its sender, an abort notice or LINK_TIMEOUT_NS without what is needed ends the collective, and one that has sent and received
everything completes. Data that a collective expects is applied and acknowledged, once. Collective messages that no valid import
entry allows, and data that no collective expects, are refused and counted. -/
def Obligations.CollectivesExchangeAndEnd : Prop :=
  (∀ (q seq r : Nat) (j : Job) (c0 : Coll) (l : Rd × UStep) (k : (Option (Nat × Nat) × Bool) × UStep) (cp : Bool × UStep)
    (s : State), s.press.colls.find (jobKey q seq) = none → handed s q seq 0x05 = some j → j.hasDesc →
    pressOk j.raw = true → (∀ c, c ∈ s.press.colls.cells → c.2.raw ≠ 0 → pId c.2.raw ≠ pId j.raw) →
    s.press.colls.cells.length < 64 → c0 = Coll.begun j.raw j.ctx s.time.now →
    l = uGet (pList j.raw) (4 * pN j.raw) (UStep.start j.ctx (jobKey q seq) 10
      (setColl (jobKey q seq) c0 (began (jobKey q seq) s))) →
    l.2.held = false → l.2.fault = none → l.1.poison = false → ownRank s (pN j.raw) l.1.val = some r →
    k = keptBlock c0 r l.2 →
    cp = (if k.2.stopped then (false, k.2) else match ownCopy j.raw r with
      | some (a, b, n) => if a = b then (false, k.2) else pressCopy (n / 128 + 2) a b n k.2
      | none => (false, k.2)) → cp.2.held = false → cp.2.fault = none →
    ∃ t c, exec (.pressCollective q seq) s = .next t ∧ t.press.colls.find (jobKey q seq) = some c ∧ c.staged = true ∧
      c.rank = r ∧ c.peers = namedPeers j.raw r ∧ c.raw = j.raw ∧
      (c.ended = false → ∀ p, p ∈ c.peers → ∃ m, OutMsg.collParams (connOfRank c p) m ∈ t.out ∧ m.collId = pId j.raw)) ∧
  (∀ (q seq : Nat) (c : Coll) (s : State), s.press.colls.find (jobKey q seq) = some c → c.staged = true →
    c.fault = none → c.saved = none → c.ended = false →
    exec (.pressCollective q seq) s = .next (pumpPress (jobKey q seq) (c.plan.length + 1) s)) ∧
  (∀ (conn seqNo : Nat) (m : CollParams) (s : State), alive s = true →
    (pressAccepts s conn m.domain = false → exec (.pressParameterMessage conn seqNo m) s =
      .next (s |> bump K.peerRefusedIn 1 |> sumErr 6 |> send (.peerReply conn seqNo true false []))) ∧
    (pressAccepts s conn m.domain = true → collOn s conn m.collId = none →
      exec (.pressParameterMessage conn seqNo m) s = .next (send (.peerReply conn seqNo false false [])
        { s with press := { s.press with early := s.press.early ++ [(conn, m)] } })) ∧
    (∀ key c r, pressAccepts s conn m.domain = true → collOn s conn m.collId = some (key, c, r) → c.ended = false →
      s.press.colls.find key = some c → c.peers.contains r = true →
      ∃ t d, exec (.pressParameterMessage conn seqNo m) s = .next t ∧ t.press.colls.find key = some d ∧
        OutMsg.peerReply conn seqNo false false [] ∈ t.out ∧
        (sameParams m (ownParams c s r) = true → r ∈ d.paramsFrom ∧ d.ended = false) ∧
        (sameParams m (ownParams c s r) = false → d.ended = true))) ∧
  (∀ (conn seqNo dom collId : Nat) (s : State), alive s = true →
    (pressAccepts s conn dom = false →
      exec (.pressReadyMessage conn seqNo dom collId) s =
        .next (s |> bump K.peerRefusedIn 1 |> sumErr 6 |> send (.peerReply conn seqNo true false [])) ∧
      exec (.pressAbortNotice conn seqNo dom collId) s =
        .next (s |> bump K.peerRefusedIn 1 |> sumErr 6 |> send (.peerReply conn seqNo true false []))) ∧
    (∀ key c r, pressAccepts s conn dom = true → collOn s conn collId = some (key, c, r) → c.plan = [] → c.relay = [] →
      ∃ t, exec (.pressReadyMessage conn seqNo dom collId) s = .next t ∧
        OutMsg.peerReply conn seqNo false false [] ∈ t.out ∧
        t.press.colls.find key = some { c with readyFrom := insertNew r c.readyFrom, heard := c.heard.put r s.time.now }) ∧
    (∀ key c r, pressAccepts s conn dom = true → collOn s conn collId = some (key, c, r) → c.ended = false →
      s.press.colls.find key = some c →
      ∃ t d, exec (.pressAbortNotice conn seqNo dom collId) s = .next t ∧ t.press.colls.find key = some d ∧ d.ended = true ∧
        d.plan = [] ∧ d.expect = [] ∧ t.out = s.out ++ [.peerReply conn seqNo false false []])) ∧
  (∀ (conn collId : Nat) (ch : Chunk) (s : State), alive s = true →
    (pressAccepts s conn ch.domain = false ∨
      ((connOf s conn).performed.contains ch.seqNo = false ∧ collOn s conn collId = none)) →
    exec (.pressChunk conn collId ch) s =
      .next (s |> bump K.peerRefusedIn 1 |> sumErr 6 |> send (.peerReply conn ch.seqNo true false []))) ∧
  (∀ (conn collId : Nat) (ch : Chunk) (s : State), alive s = true → pressAccepts s conn ch.domain = true →
    (connOf s conn).performed.contains ch.seqNo = true →
    exec (.pressChunk conn collId ch) s = .next (send (.peerReply conn ch.seqNo false false []) s)) ∧
  (∀ (conn collId key r : Nat) (ch : Chunk) (c : Coll) (e : PNeed) (x : Nat × Coll × UStep) (s : State), alive s = true →
    pressAccepts s conn ch.domain = true → (connOf s conn).performed.contains ch.seqNo = false →
    collOn s conn collId = some (key, c, r) →
    (c.expect.find? fun e => e.src == r && e.off == ch.offset && e.reduce == ch.reduce) = some e →
    c.fault = none → c.saved = none → c.ended = false → c.plan = [] →
    x = takeChunk c r e ch (UStep.start c.ctx key 10 s) → x.2.2.held = false → x.2.2.fault = none → x.2.1.relay = [] →
    ∃ t d, exec (.pressChunk conn collId ch) s = .next t ∧ t.press.colls.find key = some d ∧
      OutMsg.peerReply conn ch.seqNo false false [] ∈ t.out ∧ (connOf t conn).performed.head? = some ch.seqNo ∧
      MemoryKept x.2.2.st t ∧
      d.expect = (c.expect.map fun y => if y == e then { y with left := y.left - x.1 } else y).filter fun y => y.left != 0) ∧
  (∀ (q seq rank : Nat) (c : Coll) (s : State), s.press.colls.find (jobKey q seq) = some c → c.ended = false →
    c.staged = true → needsFrom c rank = true →
    ∃ t d, exec (.pressDataTimeout q seq rank) s = .next t ∧ t.press.colls.find (jobKey q seq) = some d ∧ d.ended = true ∧
      c.heard.get c.since rank + dv s K.linkTimeoutNs ≤ t.time.now ∧
      (∀ p, p ∈ c.peers → ∃ dom, OutMsg.collAbort (connOfRank c p) dom (pId c.raw) ∈ t.out)) ∧
  (∀ (q seq : Nat) (c : Coll) (j : Job) (s : State), s.press.colls.find (jobKey q seq) = some c →
    s.jobs.find (jobKey q seq) = some j → c.fault = none → c.saved = none → txnsOf s (jobKey q seq) = 0 →
    (c.ended = true ∨ (c.staged = true ∧ c.peers = []) ∨ (c.staged = true ∧ c.plan = [] ∧ c.expect = [] ∧ c.relay = [] ∧
      c.peers.all c.readyFrom.contains = true ∧ c.readySent = true)) →
    ∃ t, exec (.collectiveComplete q seq) s = .next t ∧ t.press.colls.find (jobKey q seq) = none ∧
      Completed (jobKey q seq) (statusOf j.outs) j.detail j s t ∧ MemoryKept s t ∧ t.medlars = s.medlars)

/-- R371, R377, R380, R383, R384, R385, R457, R464: a window ends 100,000 ns after its start and the next begins under ENVELOPE_W,
every point at 0 while THERMTRIP_N is low; a regulator that does not answer is written again there; a station starts what its rules
choose and pays its estimate; a die reads its sensors 10,000 ns after the last time, and one at 105 °C trips its Ashlar or Medlar die to point 0, one at 120 °C lowers THERMTRIP_N;
ENVELOPE_MAX_W lowers ENVELOPE_W with it. -/
def Obligations.WeighbridgeGovernsThePoints : Prop :=
  (∀ (e : RailEnergy) (s : State), alive s = true → s.weigh.started = true →
    ∃ t, exec (.windowStart e) s = .next t ∧ t.weigh.started = true ∧ s.weigh.windowAt + 100000 ≤ t.time.now ∧
      t.weigh.windowAt = t.time.now ∧ t.weigh.avsRetry = [] ∧ t.weigh.envelope = dv s K.envelopeW ∧ t.mem = s.mem ∧
      (∀ d, d < 10 → d ∈ s.weigh.avsRetry → bit s.diesHeld d = false →
        OutMsg.avsWrite d (pointMv (diePower t d).point) ∈ t.out) ∧
      (10 ∈ s.weigh.avsRetry → OutMsg.avsWrite 10 (pointMv 8) ∈ t.out) ∧
      (s.board.thermtrip = true → ∀ d, d < 10 → bit s.diesHeld d = false → (diePower t d).point = 0)) ∧
  (∀ (rail : Nat) (s : State), alive s = true → rail < 11 →
    ∃ t, exec (.avsTimeout rail) s = .next t ∧ t.weigh.avsRetry = s.weigh.avsRetry.filter (· != rail) ++ [rail] ∧
      t = { s with weigh := { s.weigh with avsRetry := t.weigh.avsRetry }, dict := t.dict, ev := t.ev, freeN := t.freeN }) ∧
  (∀ (die : Nat) (w : Work) (s : State), dieUp s die = true → die < 8 → s.weigh.started = true →
    s.board.thermtrip = false → (diePower s die).tripped = false → chooseWork s die = some w →
    ∃ t, exec (.weighStationStart die) s = .next t ∧
      (stationOf t die).tokens = (stationOf s die).tokens - estimate s die w ∧
      (∀ r, w = .face r → (faceOf t die).staged = (faceOf s die).staged ++ [r] ∧
        (stationOf t die).starts = (stationOf s die).starts) ∧
      (∀ key, w = .group key → (stationOf t die).starts = (stationOf s die).starts ++ [key] ∧ t.faces = s.faces) ∧
      t.mem = s.mem ∧ t.grp = s.grp) ∧
  (∀ (die : Nat) (h : Int) (s : State), dieUp s die = true → h < 105 →
    ∃ t, exec (.thermalSensorRead die h) s = .next t ∧ (diePower t die).hot = h ∧
      t.time.now = max s.time.now ((diePower s die).readAt + 10000) ∧ (diePower t die).readAt = t.time.now ∧
      (diePower t die).point = (diePower s die).point ∧
      ((diePower s die).tripped = false → (diePower t die).tripped = false) ∧ t.board = s.board) ∧
  (∀ (die : Nat) (h : Int) (s : State), dieUp s die = true → die < 10 → 105 ≤ h → (diePower s die).tripped = false →
    ∃ t e, exec (.thermalSensorRead die h) s = .next t ∧ (diePower t die).point = 0 ∧ (diePower t die).ceiling = 0 ∧
      (diePower t die).tripped = true ∧ e ∈ t.ev.inFlight ∧ e.code = 0x30 ∧ e.source = die ∧
      (120 ≤ h → t.board.thermtrip = true)) ∧
  (∀ (src v : Nat) (s : State), Writable s K.envelopeMaxW → v < 65536 →
    ∃ t, exec (.envelopeMaxW src v) s = .next t ∧
      (1200 ≤ v → v ≤ 3600 → dv t K.envelopeMaxW = v ∧ dv t K.envelopeW = min (dv s K.envelopeW) v) ∧
      ((v < 1200 ∨ 3600 < v) → OnlyRecords s t))

/-- R393, R442, R443, R458: a management setting takes effect 1,000,000 ns after its write; the port gets link at the speed it
tries and tries again when it is lost, and answers ARP, Neighbour Discovery and echo at its own address. A Sync is timestamped
and its offset, once measured, steps the time of day above PTP_STEP_NS and slews it otherwise; 4,000,000,000 ns without a Sync
put the clock in HOLDOVER. -/
def Obligations.ManagementPortAndClockFollow : Prop :=
  (∀ (at_ key v : Nat) (rest : List (Nat × Nat × Nat)) (s : State), s.mgmt.waiting = (at_, key, v) :: rest → alive s = true →
    ∃ t, exec .mgmtSettingsApply s = .next t ∧ at_ ≤ t.time.now ∧ t.mgmt.waiting = rest ∧
      (key = K.mgmtIp → t.mgmt.ip = toBytes 16 v) ∧ (key = K.mgmtPrefix → t.mgmt.prefixLen = v) ∧
      (key = K.mgmtMode → t.mgmt.mode = v) ∧ t.mem = s.mem ∧ t.dict = s.dict) ∧
  (∀ s : State, alive s = true → s.mgmt.mode = 2 → s.mgmt.link = 0 → s.mgmt.trying = 0 →
    ∃ t, exec .mgmtModeFallback s = .next t ∧ t.mgmt.trying = 1 ∧ s.mgmt.since + 500000000 ≤ t.time.now ∧
      t.mgmt.since = t.time.now) ∧
  (∀ (speed : Nat) (s : State), alive s = true →
    (speed = linkCode s.mgmt.trying → bit s.board.clocksAbsent 14 = false →
      exec (.mgmtLinkUp speed) s = .next { s with mgmt := { s.mgmt with link := speed } }) ∧
    (speed ≠ linkCode s.mgmt.trying → exec (.mgmtLinkUp speed) s = .next s)) ∧
  (∀ s : State, alive s = true → s.mgmt.link ≠ 0 → exec .mgmtLinkDown s =
    .next { s with mgmt := { s.mgmt with link := 0, trying := firstTry s.mgmt.mode, since := s.time.now } }) ∧
  (∀ (ip tag : Nat) (s : State), alive s = true → atAddress s ip = true →
    exec (.icmpEcho ip tag) s = .next (send (.echoReply ip tag) s) ∧
    (isIpv4 (portAddress s) = true → exec (.arpRequest ip) s = .next (send (.arpReply ip) s) ∧
      exec (.neighbourDiscovery ip) s = .next s) ∧
    (isIpv4 (portAddress s) = false → exec (.neighbourDiscovery ip) s = .next (send (.ndReply ip) s) ∧
      exec (.arpRequest ip) s = .next s)) ∧
  (∀ (m : PtpMsg) (s : State), alive s = true → ptpHears s m = true →
    ∃ t, exec (.ptpSync m) s = .next t ∧ t.time.syncLocal = m.local_ ∧ t.time.lastSync = s.time.now ∧
      (m.twoStep = true → t.time.awaitFollowUp = true ∧ t.time.syncOrigin = none ∧ t.out = s.out) ∧
      (m.twoStep = false → t.time.syncOrigin = some m.origin ∧ t.out = s.out ++ [.ptpDelayReq (timeOfDay s)]) ∧
      ((s.time.ptpState = 0 ∨ s.time.ptpState = 3) → t.time.ptpState = 1) ∧ timeOfDay t = timeOfDay s) ∧
  (∀ (m : PtpMsg) (s : State), alive s = true → ptpHears s m = true → s.time.awaitFollowUp = true →
    ∃ t, exec (.ptpFollowUp m) s = .next t ∧ t.time.syncOrigin = some m.origin ∧ t.time.awaitFollowUp = false ∧
      t.out = s.out ++ [.ptpDelayReq (timeOfDay s)]) ∧
  (∀ (m : PtpMsg) (t1 : Nat) (s : State), alive s = true → ptpHears s m = true → s.time.syncOrigin = some t1 →
    ∃ t o, exec (.ptpDelayResp m) s = .next t ∧ o = measured t1 s.time.syncLocal m.local_ m.origin ∧
      t.time.ptpOffset = o ∧ t.time.syncOrigin = none ∧
      (dv s K.ptpStepNs < o.natAbs → timeOfDay t = unsigned 64 ((timeOfDay s : Int) + o)) ∧
      (o.natAbs ≤ dv s K.ptpStepNs → timeOfDay t = timeOfDay s) ∧
      (s.time.ptpState = 1 → 9 ≤ s.time.good → o.natAbs ≤ 100 → t.time.ptpState = 2)) ∧
  (∀ s : State, alive s = true → (s.time.ptpState = 1 ∨ s.time.ptpState = 2) →
    ∃ t e, exec .ptpSyncTimeout s = .next t ∧ t.time.ptpState = 3 ∧ s.time.lastSync + 4000000000 ≤ t.time.now ∧
      e ∈ t.ev.inFlight ∧ e.code = 0x92)

/-- R437–R440, R446–R450: a firing that finds no block latching captures every scalar RO entry with one time and SEQ, drives
SHOT_OUT and raises 0x80; one that finds SHOT_CTL held or a block latching is only counted. COUNTER_CLEAR zeroes the counters
it names and no other entry; an event that is granted takes the next SEQ or is folded into a waiting record, and a match fires
the Shotline; the head frees slots; ERR_SUMMARY loses the bits named. -/
def Obligations.SnapshotsCountersAndEvents : Prop :=
  (∀ (src v : Nat) (s : State), Writable s K.shotFire → v ≤ 1 →
    exec (.shotFire src v) s = .next (acceptWrite (if v = 1 then fireShot 0 (nodeId s) 0 s else s))) ∧
  (∀ (source node tag : Nat) (s : State),
    (bit (dv s K.shotCtl) 0 = false → s.snap.busy = false →
      (fireShot source node tag s).snap = { seq := (s.snap.seq + 1) % 2 ^ 32, time := timeOfDay s, busy := true, captured := captureAll s, info := source % 8 + node % 4096 * 2 ^ 3 + tag % 2 ^ 32 * 2 ^ 16 } ∧
      (fireShot source node tag s).board.shotOutUntil = s.time.now + 100 ∧
      (fireShot source node tag s).mem = s.mem ∧
      ∃ e, e ∈ (fireShot source node tag s).ev.inFlight ∧ e.code = 0x80) ∧
    ((bit (dv s K.shotCtl) 0 = true ∨ s.snap.busy = true) → OnlyRecords s (fireShot source node tag s))) ∧
  (∀ (ns : Nat) (s : State), alive s = true →
    (bit (dv s K.shotCtl) 1 = true → 20 ≤ ns → exec (.shotIn ns) s = .next (fireShot 3 (nodeId s) 0 s)) ∧
    ((bit (dv s K.shotCtl) 1 = false ∨ ns < 20) → exec (.shotIn ns) s = .next s)) ∧
  (∀ (conn node tag : Nat) (s : State), alive s = true →
    (connFlag (connOf s conn) 1 = true → (connOf s conn).st = 1 →
      exec (.shotlineMessage conn node tag) s = .next (fireShot 4 node tag s)) ∧
    (connFlag (connOf s conn) 1 = false →
      exec (.shotlineMessage conn node tag) s = .next (refuseMessage conn s))) ∧
  (∀ s : State, alive s = true → s.snap.busy = true →
    exec .snapLatchDone s = .next { s with snap := { s.snap with busy := false } }) ∧
  (∀ (src v : Nat) (s : State), Writable s K.counterClear → v < 2 ^ 26 →
    (bit v 25 = true ∨ bit v 24 = true ∨ isCounter (256 * bits v 0 16 + bits v 16 8) = true) →
    ∃ t, exec (.counterClear src v) s = .next t ∧
      (∀ k, isCounter k = true →
        (bit v 25 = true ∨ (bit v 24 = true ∧ k / 256 = bits v 0 16) ∨
          (bit v 24 = false ∧ k = 256 * bits v 0 16 + bits v 16 8)) → dv t k = 0) ∧
      (∀ k, isCounter k = false → k ≠ K.dictWriteSeq → dv t k = dv s k) ∧
      t = { s with dict := { s.dict with vals := t.dict.vals } }) ∧
  (∀ (src v : Nat) (s : State), Writable s K.errSummaryClear → v < 2 ^ 32 →
    exec (.errSummaryClear src v) s =
      .next (acceptWrite (setDv K.errSummary (dv s K.errSummary &&& (2 ^ 32 - 1 - v)) s))) ∧
  (∀ (i : Nat) (r : EventRec) (t : State) (s : State), s.ev.inFlight[i]? = some r → alive s = true →
    routeOpen s r.source 10 = true →
    t = grantEvent r { s with ev := { s.ev with inFlight := s.ev.inFlight.eraseIdx i } } →
    exec (.eventRaise i) s = .next (if r.code = dv t K.shotMatch then fireShot 2 (nodeId t) 0 t else t)) ∧
  (∀ (r : EventRec) (s : State),
    (foldTarget (bump K.eventsRaised 1 s) r.code = none → (grantEvent r s).ev.tail = (s.ev.tail + 1) % 2 ^ 32) ∧
    (∀ n, foldTarget (bump K.eventsRaised 1 s) r.code = some n → (grantEvent r s).ev.tail = s.ev.tail ∧
      (grantEvent r s).ev.waiting.length = s.ev.waiting.length)) ∧
  (∀ (src v : Nat) (s : State), Writable s K.eventQHead → v < 2 ^ 32 →
    ∃ t, exec (.eventQHead src v) s = .next t ∧
      (ahead v s.ev.head ≤ ahead s.ev.tail s.ev.head → t.ev.head = v ∧ t.ev.tail = s.ev.tail) ∧
      (ahead s.ev.tail s.ev.head < ahead v s.ev.head → OnlyRecords s t ∧ t.ev.head = s.ev.head))

/-- R66, R394–R397, R401, R404, R405: a store that a core has posted to a slot writes the scalar it covers, or is refused
LENGTH where it does not cover it; one to the aperture stages bytes. A request whose source and SEQ are kept is answered with
the same reply and not performed again; any other is answered and its reply kept; a subscriber gets up to 32 waiting records
in one message. FACE_LFSR_SEED leaves the seed for its Face. -/
def Obligations.WindowAndProtocolAreServed : Prop :=
  (∀ (core off n v : Nat) (s t : State), dieUp s (dieOfCore core) = true → takePosted core s = .arrives off n v t →
    (off < 0x100000000 → exec (.windowSlotStore core) s = .next (slotStore off n v t)) ∧
    (0x100000000 ≤ off → exec (.blobApertureStore core) s = .next (apertureStore off n v t))) ∧
  (∀ (core : Nat) (s t : State), dieUp s (dieOfCore core) = true → takePosted core s = .refused t →
    exec (.windowSlotStore core) s = .next t ∧ exec (.blobApertureStore core) s = .next t) ∧
  (∀ (off n v : Nat) (r : EntryRow) (s : State), off < 0x8000000 → entryOf (off / 8) = some r → isBlob (off / 8) = false →
    writeCheck s (off / 8) = 0 →
    (off % 8 = 0 → r.size ≤ n →
      slotStore off n v s = (scalarWrite 0 (off / 8) (v % 2 ^ (8 * r.size)) s).2) ∧
    ((off % 8 ≠ 0 ∨ n < r.size) → slotStore off n v s = refuseWrite 0 (off / 8) 5 s)) ∧
  (∀ (off n v : Nat) (s : State), isBlob ((off - 0x100000000) / 4096) = true →
    served s ((off - 0x100000000) / 4096) = true → n ≤ 8 →
    apertureStore off n v s =
      stage ((off - 0x100000000) / 4096) ((off - 0x100000000) % 4096) (toBytes n v) s) ∧
  (∀ (a b : Nat) (msg : List Byte) (s : State), alive s = true →
    (s.mgmt.link = 0 → exec (.hdpRequest (.mgmt a b) msg) s = .next s) ∧
    (s.mgmt.link ≠ 0 → exec (.hdpRequest (.mgmt a b) msg) s = .next (serveHdp (.mgmt a b) msg s))) ∧
  (∀ (c : Nat) (msg : List Byte) (s : State), alive s = true → connMode (connOf s c) = 2 → (connOf s c).st = 1 →
    connFlag (connOf s c) 0 = true → msg.length ≠ 16 → msg.length ≤ 4096 →
    exec (.hdpRequest (.conn c) msg) s = .next (serveHdp (.conn c) msg (send (.roceAck c) s))) ∧
  (∀ (p : HdpPath) (msg : List Byte) (s : State),
    (∀ k, (s.hdp.kept.find? fun k => k.path == p && k.seq == fld (ofBytes (msg.take 16)) 4 4) = some k →
      (serveHdp p msg s).out = s.out ++ [.hdpReply p k.reply] ∧ (serveHdp p msg s).mem = s.mem ∧
      (serveHdp p msg s).queues = s.queues ∧ (serveHdp p msg s).hdp.subs = s.hdp.subs) ∧
    ((s.hdp.kept.find? fun k => k.path == p && k.seq == fld (ofBytes (msg.take 16)) 4 4) = none →
      (serveHdp p msg s).out = (answerRequest p msg s).2.out ++ [.hdpReply p (answerRequest p msg s).1] ∧
      (serveHdp p msg s).hdp.kept.getLast? =
        some { path := p, seq := fld (ofBytes (msg.take 16)) 4 4, reply := (answerRequest p msg s).1 })) ∧
  (∀ (p : HdpPath) (msg : List Byte) (n : Nat) (s : State), checkRequest s p msg = .error n →
    (answerRequest p msg s).1 = replyHeader (topVersion s) (fld (ofBytes (msg.take 16)) 4 4) 0 16 n ∧
    OnlyRecords s (answerRequest p msg s).2) ∧
  (∀ (i : Nat) (u : Subscriber) (s : State), s.hdp.subs[i]? = some u → alive s = true → u.waiting ≠ [] →
    ∃ t v, exec (.eventSend i) s = .next t ∧ t.out = s.out ++ [.hdpEvents u.path u.version (u.waiting.take 32)] ∧
      t.hdp.subs[i]? = some v ∧ v.waiting = u.waiting.drop 32 ∧ v.lastSent = some t.time.now ∧
      (∀ l, u.lastSent = some l → l + 10000 ≤ t.time.now)) ∧
  (∀ (src die seed : Nat) (s : State), die < 8 → seed < 2 ^ 32 → Writable s (K.faceLfsrSeed + die) →
    exec (.faceLfsrSeed src die seed) s =
      .next (acceptWrite (setFace die { faceOf s die with seed := some (BitVec.ofNat 32 seed) } s)))

/-- The block's step: the command at the front of the queue is taken and has its effect on everything but the queue. On an
empty queue one nanosecond passes and nothing else happens: that is the model's choice (assumption 3). -/
def Obligations.StepTakesTheFrontCommand : Prop :=
  (∀ (c : Instr) (rest : List Instr) (s : State), s.pending = c :: rest →
    step s = exec c { s with pending := rest }) ∧
  (∀ s : State, s.pending = [] → step s = .next { s with time := { s.time with now := s.time.now + 1 } })

/-- Stacked memory after reset lists nothing, which is its canonical form; every byte then reads 0, which is the model's choice
(assumption 2). -/
def Obligations.ResetMemoryIsCanonical : Prop := HbmCanonical State.reset ∧ State.reset.mem.hbm = []

/-- Every step, of whatever command from whatever state, keeps stacked memory in its canonical form: addresses strictly rising,
and no byte listed that an unlisted address reads as. What an unlisted address reads as, 0, is the model's choice
(assumption 2). -/
def Obligations.EveryStepKeepsMemoryCanonical : Prop :=
  ∀ s t : State, HbmCanonical s → step s = .next t → HbmCanonical t

/-- R170–R172: the words of the eight Urtex formats and their fields determine each other: the fields of an encoded word are
the fields that were encoded, each at every value its bits admit, and a word is the encoding of its own fields. -/
def Obligations.UrtexWordsRoundTrip : Prop :=
  (∀ (maj : Nat) (f : RFields), maj < 64 → f.fits = true →
    rFields (encodeR maj f) = f ∧ major (encodeR maj f) = maj ∧ wsize (encodeR maj f) = (if f.long then 8 else 4)) ∧
  (∀ (maj : Nat) (f : RFields), maj < 64 → f.fitsI = true →
    iFields (encodeI maj f) = f ∧ major (encodeI maj f) = maj ∧ wsize (encodeI maj f) = (if f.long then 8 else 4)) ∧
  (∀ (maj : Nat) (f : MFields), maj < 64 → f.fits = true →
    mFields (encodeM maj f) = f ∧ major (encodeM maj f) = maj ∧ wsize (encodeM maj f) = (if f.long then 8 else 4)) ∧
  (∀ (maj : Nat) (long : Bool) (f : BFields), maj < 64 → f.fits long = true →
    bFields (encodeB maj long f) = f ∧ major (encodeB maj long f) = maj ∧ wsize (encodeB maj long f) = (if long then 8 else 4)) ∧
  (∀ w : Nat, w < 2 ^ (8 * wsize w) →
    encodeR (major w) (rFields w) = w ∧ encodeI (major w) (iFields w) = w ∧ encodeM (major w) (mFields w) = w ∧
    encodeB (major w) (bit w 0) (bFields w) = w)
end

