-- ==== Sys2Proof/Laws/Memory.lean ====
section
/-! SUPPORT. Stacked memory: every write keeps the canonical form, a read after a write gives the byte written, and a
write leaves every other byte alone. -/

namespace Sys2Proof.Machine

/-- The canonical form of a list whose addresses all lie above a. -/
theorem Memory.wf_cons (c : Host.Cell) (t : List Host.Cell) :
    Memory.wf (c :: t) = true ↔ c.2 ≠ 0#8 ∧ (∀ d ∈ t.head?, c.1 < d.1) ∧ Memory.wf t = true := by
  cases t with
  | nil => simp [Memory.wf]
  | cons d t => simp [Memory.wf, and_assoc]

theorem Memory.head_write (l : List Host.Cell) (a : Nat) (b : Byte) (x : Nat)
    (hx : x < a) (hl : ∀ d ∈ l.head?, x < d.1) (hw : Memory.wf l = true) : ∀ d ∈ (Memory.write l a b).head?, x < d.1 := by
  cases l with
  | nil =>
    intro d hd
    unfold Memory.write at hd
    split at hd <;> simp at hd
    subst hd; exact hx
  | cons c t =>
    have hc := hl c (by simp)
    intro d hd
    unfold Memory.write at hd
    split at hd
    · split at hd
      · exact hl d hd
      · simp at hd; subst hd; exact hx
    · split at hd
      · split at hd
        · have h2 := (Memory.wf_cons c t).1 hw
          have := h2.2.1 d hd
          omega
        · simp at hd; subst hd; exact hx
      · simp at hd; subst hd; exact hc

theorem Memory.wf_write (l : List Host.Cell) (a : Nat) (b : Byte) (h : Memory.wf l = true) :
    Memory.wf (Memory.write l a b) = true := by
  induction l with
  | nil =>
    unfold Memory.write
    split
    · rfl
    · simpa [Memory.wf] using ‹¬b = 0#8›
  | cons c t ih =>
    have hc := (Memory.wf_cons c t).1 h
    unfold Memory.write
    split
    · split
      · exact h
      · next hlt hb => exact (Memory.wf_cons _ _).2 ⟨hb, by simpa using hlt, h⟩
    · split
      · next hlt heq =>
        split
        · exact hc.2.2
        · next hb => exact (Memory.wf_cons _ _).2 ⟨hb, by rw [heq]; exact hc.2.1, hc.2.2⟩
      · next hlt hne =>
        exact (Memory.wf_cons _ _).2
          ⟨hc.1, Memory.head_write t a b c.1 (by omega) hc.2.1 hc.2.2, ih hc.2.2⟩

theorem Memory.wf_writeMasked (n : Nat) (l : List Host.Cell) (a v m : Nat) (h : Memory.wf l = true) :
    Memory.wf (Memory.writeMasked l a n v m) = true := by
  induction n generalizing l a v m with
  | zero => exact h
  | succ n ih =>
    unfold Memory.writeMasked
    apply ih
    split
    · exact Memory.wf_write l a _ h
    · exact h

theorem Memory.wf_filter (p : Host.Cell → Bool) (l : List Host.Cell) (h : Memory.wf l = true) :
    Memory.wf (l.filter p) = true := by
  have key : ∀ l : List Host.Cell, Memory.wf l = true →
      Memory.wf (l.filter p) = true ∧ ∀ x, (∀ d ∈ l.head?, x < d.1) → ∀ d ∈ (l.filter p).head?, x < d.1 := by
    intro l
    induction l with
    | nil => intro _; simp [Memory.wf]
    | cons c t ih =>
      intro h
      have hc := (Memory.wf_cons c t).1 h
      have iht := ih hc.2.2
      by_cases hp : p c = true
      · simp only [List.filter_cons, hp, if_true]
        refine ⟨(Memory.wf_cons _ _).2 ⟨hc.1, iht.2 c.1 hc.2.1, iht.1⟩, ?_⟩
        intro x hx d hd
        simp at hd; subst hd
        exact hx c (by simp)
      · simp only [List.filter_cons, hp]
        refine ⟨iht.1, ?_⟩
        intro x hx
        apply iht.2 x
        intro d hd
        have h1 := hx c (by simp)
        have h2 := hc.2.1 d hd
        omega
  exact (key l h).1

/-- Below its first address a canonical list reads zeros. -/
theorem Memory.read_below (l : List Host.Cell) (h : Memory.wf l = true) (a : Nat) (ha : ∀ d ∈ l.head?, a < d.1) :
    Memory.read l a = 0#8 := by
  induction l with
  | nil => rfl
  | cons c t ih =>
    have hc := (Memory.wf_cons c t).1 h
    have h1 := ha c (by simp)
    unfold Memory.read
    rw [if_neg (by omega)]
    exact ih hc.2.2 (fun d hd => Nat.lt_trans h1 (hc.2.1 d hd))

theorem Memory.read_write_self (l : List Host.Cell) (a : Nat) (b : Byte) (h : Memory.wf l = true) :
    Memory.read (Memory.write l a b) a = b := by
  induction l with
  | nil =>
    unfold Memory.write
    split
    · next hb => simp [Memory.read, hb]
    · simp [Memory.read]
  | cons c t ih =>
    have hc := (Memory.wf_cons c t).1 h
    unfold Memory.write
    split
    · next hlt =>
      split
      · next hb => rw [hb]; exact Memory.read_below _ h a (by simpa using hlt)
      · simp [Memory.read]
    · split
      · next hlt heq =>
        split
        · next hb => rw [hb]; exact Memory.read_below t hc.2.2 a (by rw [heq]; exact hc.2.1)
        · simp [Memory.read]
      · next hlt hne =>
        unfold Memory.read
        rw [if_neg (by omega)]
        exact ih hc.2.2

theorem Memory.read_write_of_ne (l : List Host.Cell) {a x : Nat} (b : Byte) (hx : x ≠ a) :
    Memory.read (Memory.write l a b) x = Memory.read l x := by
  induction l with
  | nil =>
    unfold Memory.write
    split
    · rfl
    · simp [Memory.read, Ne.symm hx]
  | cons c t ih =>
    unfold Memory.write
    split
    · split
      · rfl
      · simp [Memory.read, Ne.symm hx]
    · split
      · next heq =>
        split
        · simp [Memory.read, show c.1 ≠ x by omega]
        · simp [Memory.read, Ne.symm hx, show c.1 ≠ x by omega]
      · simp [Memory.read, ih]

theorem Memory.read_writeMasked_outside (n : Nat) (l : List Host.Cell) (a v m x : Nat) (hx : x < a ∨ a + n ≤ x) :
    Memory.read (Memory.writeMasked l a n v m) x = Memory.read l x := by
  induction n generalizing l a v m with
  | zero => rfl
  | succ n ih =>
    unfold Memory.writeMasked
    rw [ih _ _ _ _ (by omega)]
    split
    · exact Memory.read_write_of_ne l _ (by omega)
    · rfl

theorem Memory.wf_reset : Memory.wf State.reset.mem.hbm = true := rfl

end Sys2Proof.Machine
end

