-- ==== Sys2Proof/Laws/State.lean ====
section
/-! SUPPORT. What each update of State leaves: one lemma for each update and each field it does not touch. -/

namespace Sys2Proof.Machine

@[simp] theorem takeFree_board (s : State) : (takeFree s).2.board = s.board := rfl
@[simp] theorem takeFree_part (s : State) : (takeFree s).2.part = s.part := rfl
@[simp] theorem takeFree_dict (s : State) : (takeFree s).2.dict = s.dict := rfl
@[simp] theorem takeFree_hdp (s : State) : (takeFree s).2.hdp = s.hdp := rfl
@[simp] theorem takeFree_mgmt (s : State) : (takeFree s).2.mgmt = s.mgmt := rfl
@[simp] theorem takeFree_ev (s : State) : (takeFree s).2.ev = s.ev := rfl
@[simp] theorem takeFree_snap (s : State) : (takeFree s).2.snap = s.snap := rfl
@[simp] theorem takeFree_time (s : State) : (takeFree s).2.time = s.time := rfl
@[simp] theorem takeFree_boot (s : State) : (takeFree s).2.boot = s.boot := rfl
@[simp] theorem takeFree_pkg (s : State) : (takeFree s).2.pkg = s.pkg := rfl
@[simp] theorem takeFree_diesHeld (s : State) : (takeFree s).2.diesHeld = s.diesHeld := rfl
@[simp] theorem takeFree_settFail (s : State) : (takeFree s).2.settFail = s.settFail := rfl
@[simp] theorem takeFree_settStalled (s : State) : (takeFree s).2.settStalled = s.settStalled := rfl
@[simp] theorem takeFree_mem (s : State) : (takeFree s).2.mem = s.mem := rfl
@[simp] theorem takeFree_xlat (s : State) : (takeFree s).2.xlat = s.xlat := rfl
@[simp] theorem takeFree_reqs (s : State) : (takeFree s).2.reqs = s.reqs := rfl
@[simp] theorem takeFree_nextReq (s : State) : (takeFree s).2.nextReq = s.nextReq := rfl
@[simp] theorem takeFree_medlars (s : State) : (takeFree s).2.medlars = s.medlars := rfl
@[simp] theorem takeFree_coh (s : State) : (takeFree s).2.coh = s.coh := rfl
@[simp] theorem takeFree_grp (s : State) : (takeFree s).2.grp = s.grp := rfl
@[simp] theorem takeFree_faces (s : State) : (takeFree s).2.faces = s.faces := rfl
@[simp] theorem takeFree_brambles (s : State) : (takeFree s).2.brambles = s.brambles := rfl
@[simp] theorem takeFree_engines (s : State) : (takeFree s).2.engines = s.engines := rfl
@[simp] theorem takeFree_hauls (s : State) : (takeFree s).2.hauls = s.hauls := rfl
@[simp] theorem takeFree_press (s : State) : (takeFree s).2.press = s.press := rfl
@[simp] theorem takeFree_queues (s : State) : (takeFree s).2.queues = s.queues := rfl
@[simp] theorem takeFree_jobs (s : State) : (takeFree s).2.jobs = s.jobs := rfl
@[simp] theorem takeFree_faultq (s : State) : (takeFree s).2.faultq = s.faultq := rfl
@[simp] theorem takeFree_links (s : State) : (takeFree s).2.links = s.links := rfl
@[simp] theorem takeFree_weigh (s : State) : (takeFree s).2.weigh = s.weigh := rfl
@[simp] theorem takeFree_out (s : State) : (takeFree s).2.out = s.out := rfl
@[simp] theorem takeFree_pending (s : State) : (takeFree s).2.pending = s.pending := rfl

@[simp] theorem atLeast_board (t : Nat) (s : State) : (atLeast t s).board = s.board := rfl
@[simp] theorem atLeast_part (t : Nat) (s : State) : (atLeast t s).part = s.part := rfl
@[simp] theorem atLeast_dict (t : Nat) (s : State) : (atLeast t s).dict = s.dict := rfl
@[simp] theorem atLeast_hdp (t : Nat) (s : State) : (atLeast t s).hdp = s.hdp := rfl
@[simp] theorem atLeast_mgmt (t : Nat) (s : State) : (atLeast t s).mgmt = s.mgmt := rfl
@[simp] theorem atLeast_ev (t : Nat) (s : State) : (atLeast t s).ev = s.ev := rfl
@[simp] theorem atLeast_snap (t : Nat) (s : State) : (atLeast t s).snap = s.snap := rfl
@[simp] theorem atLeast_boot (t : Nat) (s : State) : (atLeast t s).boot = s.boot := rfl
@[simp] theorem atLeast_pkg (t : Nat) (s : State) : (atLeast t s).pkg = s.pkg := rfl
@[simp] theorem atLeast_diesHeld (t : Nat) (s : State) : (atLeast t s).diesHeld = s.diesHeld := rfl
@[simp] theorem atLeast_settFail (t : Nat) (s : State) : (atLeast t s).settFail = s.settFail := rfl
@[simp] theorem atLeast_settStalled (t : Nat) (s : State) : (atLeast t s).settStalled = s.settStalled := rfl
@[simp] theorem atLeast_mem (t : Nat) (s : State) : (atLeast t s).mem = s.mem := rfl
@[simp] theorem atLeast_xlat (t : Nat) (s : State) : (atLeast t s).xlat = s.xlat := rfl
@[simp] theorem atLeast_reqs (t : Nat) (s : State) : (atLeast t s).reqs = s.reqs := rfl
@[simp] theorem atLeast_nextReq (t : Nat) (s : State) : (atLeast t s).nextReq = s.nextReq := rfl
@[simp] theorem atLeast_medlars (t : Nat) (s : State) : (atLeast t s).medlars = s.medlars := rfl
@[simp] theorem atLeast_coh (t : Nat) (s : State) : (atLeast t s).coh = s.coh := rfl
@[simp] theorem atLeast_grp (t : Nat) (s : State) : (atLeast t s).grp = s.grp := rfl
@[simp] theorem atLeast_faces (t : Nat) (s : State) : (atLeast t s).faces = s.faces := rfl
@[simp] theorem atLeast_brambles (t : Nat) (s : State) : (atLeast t s).brambles = s.brambles := rfl
@[simp] theorem atLeast_engines (t : Nat) (s : State) : (atLeast t s).engines = s.engines := rfl
@[simp] theorem atLeast_hauls (t : Nat) (s : State) : (atLeast t s).hauls = s.hauls := rfl
@[simp] theorem atLeast_press (t : Nat) (s : State) : (atLeast t s).press = s.press := rfl
@[simp] theorem atLeast_queues (t : Nat) (s : State) : (atLeast t s).queues = s.queues := rfl
@[simp] theorem atLeast_jobs (t : Nat) (s : State) : (atLeast t s).jobs = s.jobs := rfl
@[simp] theorem atLeast_faultq (t : Nat) (s : State) : (atLeast t s).faultq = s.faultq := rfl
@[simp] theorem atLeast_links (t : Nat) (s : State) : (atLeast t s).links = s.links := rfl
@[simp] theorem atLeast_weigh (t : Nat) (s : State) : (atLeast t s).weigh = s.weigh := rfl
@[simp] theorem atLeast_out (t : Nat) (s : State) : (atLeast t s).out = s.out := rfl
@[simp] theorem atLeast_freeN (t : Nat) (s : State) : (atLeast t s).freeN = s.freeN := rfl
@[simp] theorem atLeast_pending (t : Nat) (s : State) : (atLeast t s).pending = s.pending := rfl

@[simp] theorem setDv_board (k v : Nat) (s : State) : (setDv k v s).board = s.board := rfl
@[simp] theorem setDv_part (k v : Nat) (s : State) : (setDv k v s).part = s.part := rfl
@[simp] theorem setDv_hdp (k v : Nat) (s : State) : (setDv k v s).hdp = s.hdp := rfl
@[simp] theorem setDv_mgmt (k v : Nat) (s : State) : (setDv k v s).mgmt = s.mgmt := rfl
@[simp] theorem setDv_ev (k v : Nat) (s : State) : (setDv k v s).ev = s.ev := rfl
@[simp] theorem setDv_snap (k v : Nat) (s : State) : (setDv k v s).snap = s.snap := rfl
@[simp] theorem setDv_time (k v : Nat) (s : State) : (setDv k v s).time = s.time := rfl
@[simp] theorem setDv_boot (k v : Nat) (s : State) : (setDv k v s).boot = s.boot := rfl
@[simp] theorem setDv_pkg (k v : Nat) (s : State) : (setDv k v s).pkg = s.pkg := rfl
@[simp] theorem setDv_diesHeld (k v : Nat) (s : State) : (setDv k v s).diesHeld = s.diesHeld := rfl
@[simp] theorem setDv_settFail (k v : Nat) (s : State) : (setDv k v s).settFail = s.settFail := rfl
@[simp] theorem setDv_settStalled (k v : Nat) (s : State) : (setDv k v s).settStalled = s.settStalled := rfl
@[simp] theorem setDv_mem (k v : Nat) (s : State) : (setDv k v s).mem = s.mem := rfl
@[simp] theorem setDv_xlat (k v : Nat) (s : State) : (setDv k v s).xlat = s.xlat := rfl
@[simp] theorem setDv_reqs (k v : Nat) (s : State) : (setDv k v s).reqs = s.reqs := rfl
@[simp] theorem setDv_nextReq (k v : Nat) (s : State) : (setDv k v s).nextReq = s.nextReq := rfl
@[simp] theorem setDv_medlars (k v : Nat) (s : State) : (setDv k v s).medlars = s.medlars := rfl
@[simp] theorem setDv_coh (k v : Nat) (s : State) : (setDv k v s).coh = s.coh := rfl
@[simp] theorem setDv_grp (k v : Nat) (s : State) : (setDv k v s).grp = s.grp := rfl
@[simp] theorem setDv_faces (k v : Nat) (s : State) : (setDv k v s).faces = s.faces := rfl
@[simp] theorem setDv_brambles (k v : Nat) (s : State) : (setDv k v s).brambles = s.brambles := rfl
@[simp] theorem setDv_engines (k v : Nat) (s : State) : (setDv k v s).engines = s.engines := rfl
@[simp] theorem setDv_hauls (k v : Nat) (s : State) : (setDv k v s).hauls = s.hauls := rfl
@[simp] theorem setDv_press (k v : Nat) (s : State) : (setDv k v s).press = s.press := rfl
@[simp] theorem setDv_queues (k v : Nat) (s : State) : (setDv k v s).queues = s.queues := rfl
@[simp] theorem setDv_jobs (k v : Nat) (s : State) : (setDv k v s).jobs = s.jobs := rfl
@[simp] theorem setDv_faultq (k v : Nat) (s : State) : (setDv k v s).faultq = s.faultq := rfl
@[simp] theorem setDv_links (k v : Nat) (s : State) : (setDv k v s).links = s.links := rfl
@[simp] theorem setDv_weigh (k v : Nat) (s : State) : (setDv k v s).weigh = s.weigh := rfl
@[simp] theorem setDv_out (k v : Nat) (s : State) : (setDv k v s).out = s.out := rfl
@[simp] theorem setDv_freeN (k v : Nat) (s : State) : (setDv k v s).freeN = s.freeN := rfl
@[simp] theorem setDv_pending (k v : Nat) (s : State) : (setDv k v s).pending = s.pending := rfl

@[simp] theorem setBlob_board (k : Nat) (b : List Byte) (s : State) : (setBlob k b s).board = s.board := rfl
@[simp] theorem setBlob_part (k : Nat) (b : List Byte) (s : State) : (setBlob k b s).part = s.part := rfl
@[simp] theorem setBlob_hdp (k : Nat) (b : List Byte) (s : State) : (setBlob k b s).hdp = s.hdp := rfl
@[simp] theorem setBlob_mgmt (k : Nat) (b : List Byte) (s : State) : (setBlob k b s).mgmt = s.mgmt := rfl
@[simp] theorem setBlob_ev (k : Nat) (b : List Byte) (s : State) : (setBlob k b s).ev = s.ev := rfl
@[simp] theorem setBlob_snap (k : Nat) (b : List Byte) (s : State) : (setBlob k b s).snap = s.snap := rfl
@[simp] theorem setBlob_time (k : Nat) (b : List Byte) (s : State) : (setBlob k b s).time = s.time := rfl
@[simp] theorem setBlob_boot (k : Nat) (b : List Byte) (s : State) : (setBlob k b s).boot = s.boot := rfl
@[simp] theorem setBlob_pkg (k : Nat) (b : List Byte) (s : State) : (setBlob k b s).pkg = s.pkg := rfl
@[simp] theorem setBlob_diesHeld (k : Nat) (b : List Byte) (s : State) : (setBlob k b s).diesHeld = s.diesHeld := rfl
@[simp] theorem setBlob_settFail (k : Nat) (b : List Byte) (s : State) : (setBlob k b s).settFail = s.settFail := rfl
@[simp] theorem setBlob_settStalled (k : Nat) (b : List Byte) (s : State) : (setBlob k b s).settStalled = s.settStalled := rfl
@[simp] theorem setBlob_mem (k : Nat) (b : List Byte) (s : State) : (setBlob k b s).mem = s.mem := rfl
@[simp] theorem setBlob_xlat (k : Nat) (b : List Byte) (s : State) : (setBlob k b s).xlat = s.xlat := rfl
@[simp] theorem setBlob_reqs (k : Nat) (b : List Byte) (s : State) : (setBlob k b s).reqs = s.reqs := rfl
@[simp] theorem setBlob_nextReq (k : Nat) (b : List Byte) (s : State) : (setBlob k b s).nextReq = s.nextReq := rfl
@[simp] theorem setBlob_medlars (k : Nat) (b : List Byte) (s : State) : (setBlob k b s).medlars = s.medlars := rfl
@[simp] theorem setBlob_coh (k : Nat) (b : List Byte) (s : State) : (setBlob k b s).coh = s.coh := rfl
@[simp] theorem setBlob_grp (k : Nat) (b : List Byte) (s : State) : (setBlob k b s).grp = s.grp := rfl
@[simp] theorem setBlob_faces (k : Nat) (b : List Byte) (s : State) : (setBlob k b s).faces = s.faces := rfl
@[simp] theorem setBlob_brambles (k : Nat) (b : List Byte) (s : State) : (setBlob k b s).brambles = s.brambles := rfl
@[simp] theorem setBlob_engines (k : Nat) (b : List Byte) (s : State) : (setBlob k b s).engines = s.engines := rfl
@[simp] theorem setBlob_hauls (k : Nat) (b : List Byte) (s : State) : (setBlob k b s).hauls = s.hauls := rfl
@[simp] theorem setBlob_press (k : Nat) (b : List Byte) (s : State) : (setBlob k b s).press = s.press := rfl
@[simp] theorem setBlob_queues (k : Nat) (b : List Byte) (s : State) : (setBlob k b s).queues = s.queues := rfl
@[simp] theorem setBlob_jobs (k : Nat) (b : List Byte) (s : State) : (setBlob k b s).jobs = s.jobs := rfl
@[simp] theorem setBlob_faultq (k : Nat) (b : List Byte) (s : State) : (setBlob k b s).faultq = s.faultq := rfl
@[simp] theorem setBlob_links (k : Nat) (b : List Byte) (s : State) : (setBlob k b s).links = s.links := rfl
@[simp] theorem setBlob_weigh (k : Nat) (b : List Byte) (s : State) : (setBlob k b s).weigh = s.weigh := rfl
@[simp] theorem setBlob_out (k : Nat) (b : List Byte) (s : State) : (setBlob k b s).out = s.out := rfl
@[simp] theorem setBlob_freeN (k : Nat) (b : List Byte) (s : State) : (setBlob k b s).freeN = s.freeN := rfl
@[simp] theorem setBlob_pending (k : Nat) (b : List Byte) (s : State) : (setBlob k b s).pending = s.pending := rfl

@[simp] theorem sumErr_board (b : Nat) (s : State) : (sumErr b s).board = s.board := rfl
@[simp] theorem sumErr_part (b : Nat) (s : State) : (sumErr b s).part = s.part := rfl
@[simp] theorem sumErr_hdp (b : Nat) (s : State) : (sumErr b s).hdp = s.hdp := rfl
@[simp] theorem sumErr_mgmt (b : Nat) (s : State) : (sumErr b s).mgmt = s.mgmt := rfl
@[simp] theorem sumErr_ev (b : Nat) (s : State) : (sumErr b s).ev = s.ev := rfl
@[simp] theorem sumErr_snap (b : Nat) (s : State) : (sumErr b s).snap = s.snap := rfl
@[simp] theorem sumErr_time (b : Nat) (s : State) : (sumErr b s).time = s.time := rfl
@[simp] theorem sumErr_boot (b : Nat) (s : State) : (sumErr b s).boot = s.boot := rfl
@[simp] theorem sumErr_pkg (b : Nat) (s : State) : (sumErr b s).pkg = s.pkg := rfl
@[simp] theorem sumErr_diesHeld (b : Nat) (s : State) : (sumErr b s).diesHeld = s.diesHeld := rfl
@[simp] theorem sumErr_settFail (b : Nat) (s : State) : (sumErr b s).settFail = s.settFail := rfl
@[simp] theorem sumErr_settStalled (b : Nat) (s : State) : (sumErr b s).settStalled = s.settStalled := rfl
@[simp] theorem sumErr_mem (b : Nat) (s : State) : (sumErr b s).mem = s.mem := rfl
@[simp] theorem sumErr_xlat (b : Nat) (s : State) : (sumErr b s).xlat = s.xlat := rfl
@[simp] theorem sumErr_reqs (b : Nat) (s : State) : (sumErr b s).reqs = s.reqs := rfl
@[simp] theorem sumErr_nextReq (b : Nat) (s : State) : (sumErr b s).nextReq = s.nextReq := rfl
@[simp] theorem sumErr_medlars (b : Nat) (s : State) : (sumErr b s).medlars = s.medlars := rfl
@[simp] theorem sumErr_coh (b : Nat) (s : State) : (sumErr b s).coh = s.coh := rfl
@[simp] theorem sumErr_grp (b : Nat) (s : State) : (sumErr b s).grp = s.grp := rfl
@[simp] theorem sumErr_faces (b : Nat) (s : State) : (sumErr b s).faces = s.faces := rfl
@[simp] theorem sumErr_brambles (b : Nat) (s : State) : (sumErr b s).brambles = s.brambles := rfl
@[simp] theorem sumErr_engines (b : Nat) (s : State) : (sumErr b s).engines = s.engines := rfl
@[simp] theorem sumErr_hauls (b : Nat) (s : State) : (sumErr b s).hauls = s.hauls := rfl
@[simp] theorem sumErr_press (b : Nat) (s : State) : (sumErr b s).press = s.press := rfl
@[simp] theorem sumErr_queues (b : Nat) (s : State) : (sumErr b s).queues = s.queues := rfl
@[simp] theorem sumErr_jobs (b : Nat) (s : State) : (sumErr b s).jobs = s.jobs := rfl
@[simp] theorem sumErr_faultq (b : Nat) (s : State) : (sumErr b s).faultq = s.faultq := rfl
@[simp] theorem sumErr_links (b : Nat) (s : State) : (sumErr b s).links = s.links := rfl
@[simp] theorem sumErr_weigh (b : Nat) (s : State) : (sumErr b s).weigh = s.weigh := rfl
@[simp] theorem sumErr_out (b : Nat) (s : State) : (sumErr b s).out = s.out := rfl
@[simp] theorem sumErr_freeN (b : Nat) (s : State) : (sumErr b s).freeN = s.freeN := rfl
@[simp] theorem sumErr_pending (b : Nat) (s : State) : (sumErr b s).pending = s.pending := rfl

@[simp] theorem raise_board (c o a b : Nat) (s : State) : (raise c o a b s).board = s.board := rfl
@[simp] theorem raise_part (c o a b : Nat) (s : State) : (raise c o a b s).part = s.part := rfl
@[simp] theorem raise_dict (c o a b : Nat) (s : State) : (raise c o a b s).dict = s.dict := rfl
@[simp] theorem raise_hdp (c o a b : Nat) (s : State) : (raise c o a b s).hdp = s.hdp := rfl
@[simp] theorem raise_mgmt (c o a b : Nat) (s : State) : (raise c o a b s).mgmt = s.mgmt := rfl
@[simp] theorem raise_snap (c o a b : Nat) (s : State) : (raise c o a b s).snap = s.snap := rfl
@[simp] theorem raise_time (c o a b : Nat) (s : State) : (raise c o a b s).time = s.time := rfl
@[simp] theorem raise_boot (c o a b : Nat) (s : State) : (raise c o a b s).boot = s.boot := rfl
@[simp] theorem raise_pkg (c o a b : Nat) (s : State) : (raise c o a b s).pkg = s.pkg := rfl
@[simp] theorem raise_diesHeld (c o a b : Nat) (s : State) : (raise c o a b s).diesHeld = s.diesHeld := rfl
@[simp] theorem raise_settFail (c o a b : Nat) (s : State) : (raise c o a b s).settFail = s.settFail := rfl
@[simp] theorem raise_settStalled (c o a b : Nat) (s : State) : (raise c o a b s).settStalled = s.settStalled := rfl
@[simp] theorem raise_mem (c o a b : Nat) (s : State) : (raise c o a b s).mem = s.mem := rfl
@[simp] theorem raise_xlat (c o a b : Nat) (s : State) : (raise c o a b s).xlat = s.xlat := rfl
@[simp] theorem raise_reqs (c o a b : Nat) (s : State) : (raise c o a b s).reqs = s.reqs := rfl
@[simp] theorem raise_nextReq (c o a b : Nat) (s : State) : (raise c o a b s).nextReq = s.nextReq := rfl
@[simp] theorem raise_medlars (c o a b : Nat) (s : State) : (raise c o a b s).medlars = s.medlars := rfl
@[simp] theorem raise_coh (c o a b : Nat) (s : State) : (raise c o a b s).coh = s.coh := rfl
@[simp] theorem raise_grp (c o a b : Nat) (s : State) : (raise c o a b s).grp = s.grp := rfl
@[simp] theorem raise_faces (c o a b : Nat) (s : State) : (raise c o a b s).faces = s.faces := rfl
@[simp] theorem raise_brambles (c o a b : Nat) (s : State) : (raise c o a b s).brambles = s.brambles := rfl
@[simp] theorem raise_engines (c o a b : Nat) (s : State) : (raise c o a b s).engines = s.engines := rfl
@[simp] theorem raise_hauls (c o a b : Nat) (s : State) : (raise c o a b s).hauls = s.hauls := rfl
@[simp] theorem raise_press (c o a b : Nat) (s : State) : (raise c o a b s).press = s.press := rfl
@[simp] theorem raise_queues (c o a b : Nat) (s : State) : (raise c o a b s).queues = s.queues := rfl
@[simp] theorem raise_jobs (c o a b : Nat) (s : State) : (raise c o a b s).jobs = s.jobs := rfl
@[simp] theorem raise_faultq (c o a b : Nat) (s : State) : (raise c o a b s).faultq = s.faultq := rfl
@[simp] theorem raise_links (c o a b : Nat) (s : State) : (raise c o a b s).links = s.links := rfl
@[simp] theorem raise_weigh (c o a b : Nat) (s : State) : (raise c o a b s).weigh = s.weigh := rfl
@[simp] theorem raise_out (c o a b : Nat) (s : State) : (raise c o a b s).out = s.out := rfl
@[simp] theorem raise_pending (c o a b : Nat) (s : State) : (raise c o a b s).pending = s.pending := rfl

@[simp] theorem send_board (m : OutMsg) (s : State) : (send m s).board = s.board := rfl
@[simp] theorem send_part (m : OutMsg) (s : State) : (send m s).part = s.part := rfl
@[simp] theorem send_dict (m : OutMsg) (s : State) : (send m s).dict = s.dict := rfl
@[simp] theorem send_hdp (m : OutMsg) (s : State) : (send m s).hdp = s.hdp := rfl
@[simp] theorem send_mgmt (m : OutMsg) (s : State) : (send m s).mgmt = s.mgmt := rfl
@[simp] theorem send_ev (m : OutMsg) (s : State) : (send m s).ev = s.ev := rfl
@[simp] theorem send_snap (m : OutMsg) (s : State) : (send m s).snap = s.snap := rfl
@[simp] theorem send_time (m : OutMsg) (s : State) : (send m s).time = s.time := rfl
@[simp] theorem send_boot (m : OutMsg) (s : State) : (send m s).boot = s.boot := rfl
@[simp] theorem send_pkg (m : OutMsg) (s : State) : (send m s).pkg = s.pkg := rfl
@[simp] theorem send_diesHeld (m : OutMsg) (s : State) : (send m s).diesHeld = s.diesHeld := rfl
@[simp] theorem send_settFail (m : OutMsg) (s : State) : (send m s).settFail = s.settFail := rfl
@[simp] theorem send_settStalled (m : OutMsg) (s : State) : (send m s).settStalled = s.settStalled := rfl
@[simp] theorem send_mem (m : OutMsg) (s : State) : (send m s).mem = s.mem := rfl
@[simp] theorem send_xlat (m : OutMsg) (s : State) : (send m s).xlat = s.xlat := rfl
@[simp] theorem send_reqs (m : OutMsg) (s : State) : (send m s).reqs = s.reqs := rfl
@[simp] theorem send_nextReq (m : OutMsg) (s : State) : (send m s).nextReq = s.nextReq := rfl
@[simp] theorem send_medlars (m : OutMsg) (s : State) : (send m s).medlars = s.medlars := rfl
@[simp] theorem send_coh (m : OutMsg) (s : State) : (send m s).coh = s.coh := rfl
@[simp] theorem send_grp (m : OutMsg) (s : State) : (send m s).grp = s.grp := rfl
@[simp] theorem send_faces (m : OutMsg) (s : State) : (send m s).faces = s.faces := rfl
@[simp] theorem send_brambles (m : OutMsg) (s : State) : (send m s).brambles = s.brambles := rfl
@[simp] theorem send_engines (m : OutMsg) (s : State) : (send m s).engines = s.engines := rfl
@[simp] theorem send_hauls (m : OutMsg) (s : State) : (send m s).hauls = s.hauls := rfl
@[simp] theorem send_press (m : OutMsg) (s : State) : (send m s).press = s.press := rfl
@[simp] theorem send_queues (m : OutMsg) (s : State) : (send m s).queues = s.queues := rfl
@[simp] theorem send_jobs (m : OutMsg) (s : State) : (send m s).jobs = s.jobs := rfl
@[simp] theorem send_faultq (m : OutMsg) (s : State) : (send m s).faultq = s.faultq := rfl
@[simp] theorem send_links (m : OutMsg) (s : State) : (send m s).links = s.links := rfl
@[simp] theorem send_weigh (m : OutMsg) (s : State) : (send m s).weigh = s.weigh := rfl
@[simp] theorem send_freeN (m : OutMsg) (s : State) : (send m s).freeN = s.freeN := rfl
@[simp] theorem send_pending (m : OutMsg) (s : State) : (send m s).pending = s.pending := rfl

@[simp] theorem acceptWrite_board (s : State) : (acceptWrite s).board = s.board := rfl
@[simp] theorem acceptWrite_part (s : State) : (acceptWrite s).part = s.part := rfl
@[simp] theorem acceptWrite_hdp (s : State) : (acceptWrite s).hdp = s.hdp := rfl
@[simp] theorem acceptWrite_mgmt (s : State) : (acceptWrite s).mgmt = s.mgmt := rfl
@[simp] theorem acceptWrite_ev (s : State) : (acceptWrite s).ev = s.ev := rfl
@[simp] theorem acceptWrite_snap (s : State) : (acceptWrite s).snap = s.snap := rfl
@[simp] theorem acceptWrite_time (s : State) : (acceptWrite s).time = s.time := rfl
@[simp] theorem acceptWrite_boot (s : State) : (acceptWrite s).boot = s.boot := rfl
@[simp] theorem acceptWrite_pkg (s : State) : (acceptWrite s).pkg = s.pkg := rfl
@[simp] theorem acceptWrite_diesHeld (s : State) : (acceptWrite s).diesHeld = s.diesHeld := rfl
@[simp] theorem acceptWrite_settFail (s : State) : (acceptWrite s).settFail = s.settFail := rfl
@[simp] theorem acceptWrite_settStalled (s : State) : (acceptWrite s).settStalled = s.settStalled := rfl
@[simp] theorem acceptWrite_mem (s : State) : (acceptWrite s).mem = s.mem := rfl
@[simp] theorem acceptWrite_xlat (s : State) : (acceptWrite s).xlat = s.xlat := rfl
@[simp] theorem acceptWrite_reqs (s : State) : (acceptWrite s).reqs = s.reqs := rfl
@[simp] theorem acceptWrite_nextReq (s : State) : (acceptWrite s).nextReq = s.nextReq := rfl
@[simp] theorem acceptWrite_medlars (s : State) : (acceptWrite s).medlars = s.medlars := rfl
@[simp] theorem acceptWrite_coh (s : State) : (acceptWrite s).coh = s.coh := rfl
@[simp] theorem acceptWrite_grp (s : State) : (acceptWrite s).grp = s.grp := rfl
@[simp] theorem acceptWrite_faces (s : State) : (acceptWrite s).faces = s.faces := rfl
@[simp] theorem acceptWrite_brambles (s : State) : (acceptWrite s).brambles = s.brambles := rfl
@[simp] theorem acceptWrite_engines (s : State) : (acceptWrite s).engines = s.engines := rfl
@[simp] theorem acceptWrite_hauls (s : State) : (acceptWrite s).hauls = s.hauls := rfl
@[simp] theorem acceptWrite_press (s : State) : (acceptWrite s).press = s.press := rfl
@[simp] theorem acceptWrite_queues (s : State) : (acceptWrite s).queues = s.queues := rfl
@[simp] theorem acceptWrite_jobs (s : State) : (acceptWrite s).jobs = s.jobs := rfl
@[simp] theorem acceptWrite_faultq (s : State) : (acceptWrite s).faultq = s.faultq := rfl
@[simp] theorem acceptWrite_links (s : State) : (acceptWrite s).links = s.links := rfl
@[simp] theorem acceptWrite_weigh (s : State) : (acceptWrite s).weigh = s.weigh := rfl
@[simp] theorem acceptWrite_out (s : State) : (acceptWrite s).out = s.out := rfl
@[simp] theorem acceptWrite_freeN (s : State) : (acceptWrite s).freeN = s.freeN := rfl
@[simp] theorem acceptWrite_pending (s : State) : (acceptWrite s).pending = s.pending := rfl

@[simp] theorem setCtl_board (c : Nat) (k : Ctl) (s : State) : (setCtl c k s).board = s.board := rfl
@[simp] theorem setCtl_part (c : Nat) (k : Ctl) (s : State) : (setCtl c k s).part = s.part := rfl
@[simp] theorem setCtl_dict (c : Nat) (k : Ctl) (s : State) : (setCtl c k s).dict = s.dict := rfl
@[simp] theorem setCtl_hdp (c : Nat) (k : Ctl) (s : State) : (setCtl c k s).hdp = s.hdp := rfl
@[simp] theorem setCtl_mgmt (c : Nat) (k : Ctl) (s : State) : (setCtl c k s).mgmt = s.mgmt := rfl
@[simp] theorem setCtl_ev (c : Nat) (k : Ctl) (s : State) : (setCtl c k s).ev = s.ev := rfl
@[simp] theorem setCtl_snap (c : Nat) (k : Ctl) (s : State) : (setCtl c k s).snap = s.snap := rfl
@[simp] theorem setCtl_time (c : Nat) (k : Ctl) (s : State) : (setCtl c k s).time = s.time := rfl
@[simp] theorem setCtl_boot (c : Nat) (k : Ctl) (s : State) : (setCtl c k s).boot = s.boot := rfl
@[simp] theorem setCtl_pkg (c : Nat) (k : Ctl) (s : State) : (setCtl c k s).pkg = s.pkg := rfl
@[simp] theorem setCtl_diesHeld (c : Nat) (k : Ctl) (s : State) : (setCtl c k s).diesHeld = s.diesHeld := rfl
@[simp] theorem setCtl_settFail (c : Nat) (k : Ctl) (s : State) : (setCtl c k s).settFail = s.settFail := rfl
@[simp] theorem setCtl_settStalled (c : Nat) (k : Ctl) (s : State) : (setCtl c k s).settStalled = s.settStalled := rfl
@[simp] theorem setCtl_xlat (c : Nat) (k : Ctl) (s : State) : (setCtl c k s).xlat = s.xlat := rfl
@[simp] theorem setCtl_reqs (c : Nat) (k : Ctl) (s : State) : (setCtl c k s).reqs = s.reqs := rfl
@[simp] theorem setCtl_nextReq (c : Nat) (k : Ctl) (s : State) : (setCtl c k s).nextReq = s.nextReq := rfl
@[simp] theorem setCtl_medlars (c : Nat) (k : Ctl) (s : State) : (setCtl c k s).medlars = s.medlars := rfl
@[simp] theorem setCtl_coh (c : Nat) (k : Ctl) (s : State) : (setCtl c k s).coh = s.coh := rfl
@[simp] theorem setCtl_grp (c : Nat) (k : Ctl) (s : State) : (setCtl c k s).grp = s.grp := rfl
@[simp] theorem setCtl_faces (c : Nat) (k : Ctl) (s : State) : (setCtl c k s).faces = s.faces := rfl
@[simp] theorem setCtl_brambles (c : Nat) (k : Ctl) (s : State) : (setCtl c k s).brambles = s.brambles := rfl
@[simp] theorem setCtl_engines (c : Nat) (k : Ctl) (s : State) : (setCtl c k s).engines = s.engines := rfl
@[simp] theorem setCtl_hauls (c : Nat) (k : Ctl) (s : State) : (setCtl c k s).hauls = s.hauls := rfl
@[simp] theorem setCtl_press (c : Nat) (k : Ctl) (s : State) : (setCtl c k s).press = s.press := rfl
@[simp] theorem setCtl_queues (c : Nat) (k : Ctl) (s : State) : (setCtl c k s).queues = s.queues := rfl
@[simp] theorem setCtl_jobs (c : Nat) (k : Ctl) (s : State) : (setCtl c k s).jobs = s.jobs := rfl
@[simp] theorem setCtl_faultq (c : Nat) (k : Ctl) (s : State) : (setCtl c k s).faultq = s.faultq := rfl
@[simp] theorem setCtl_links (c : Nat) (k : Ctl) (s : State) : (setCtl c k s).links = s.links := rfl
@[simp] theorem setCtl_weigh (c : Nat) (k : Ctl) (s : State) : (setCtl c k s).weigh = s.weigh := rfl
@[simp] theorem setCtl_out (c : Nat) (k : Ctl) (s : State) : (setCtl c k s).out = s.out := rfl
@[simp] theorem setCtl_freeN (c : Nat) (k : Ctl) (s : State) : (setCtl c k s).freeN = s.freeN := rfl
@[simp] theorem setCtl_pending (c : Nat) (k : Ctl) (s : State) : (setCtl c k s).pending = s.pending := rfl

@[simp] theorem setSched_board (p : Nat) (q : List HbmReq) (s : State) : (setSched p q s).board = s.board := rfl
@[simp] theorem setSched_part (p : Nat) (q : List HbmReq) (s : State) : (setSched p q s).part = s.part := rfl
@[simp] theorem setSched_dict (p : Nat) (q : List HbmReq) (s : State) : (setSched p q s).dict = s.dict := rfl
@[simp] theorem setSched_hdp (p : Nat) (q : List HbmReq) (s : State) : (setSched p q s).hdp = s.hdp := rfl
@[simp] theorem setSched_mgmt (p : Nat) (q : List HbmReq) (s : State) : (setSched p q s).mgmt = s.mgmt := rfl
@[simp] theorem setSched_ev (p : Nat) (q : List HbmReq) (s : State) : (setSched p q s).ev = s.ev := rfl
@[simp] theorem setSched_snap (p : Nat) (q : List HbmReq) (s : State) : (setSched p q s).snap = s.snap := rfl
@[simp] theorem setSched_time (p : Nat) (q : List HbmReq) (s : State) : (setSched p q s).time = s.time := rfl
@[simp] theorem setSched_boot (p : Nat) (q : List HbmReq) (s : State) : (setSched p q s).boot = s.boot := rfl
@[simp] theorem setSched_pkg (p : Nat) (q : List HbmReq) (s : State) : (setSched p q s).pkg = s.pkg := rfl
@[simp] theorem setSched_diesHeld (p : Nat) (q : List HbmReq) (s : State) : (setSched p q s).diesHeld = s.diesHeld := rfl
@[simp] theorem setSched_settFail (p : Nat) (q : List HbmReq) (s : State) : (setSched p q s).settFail = s.settFail := rfl
@[simp] theorem setSched_settStalled (p : Nat) (q : List HbmReq) (s : State) : (setSched p q s).settStalled = s.settStalled := rfl
@[simp] theorem setSched_xlat (p : Nat) (q : List HbmReq) (s : State) : (setSched p q s).xlat = s.xlat := rfl
@[simp] theorem setSched_reqs (p : Nat) (q : List HbmReq) (s : State) : (setSched p q s).reqs = s.reqs := rfl
@[simp] theorem setSched_nextReq (p : Nat) (q : List HbmReq) (s : State) : (setSched p q s).nextReq = s.nextReq := rfl
@[simp] theorem setSched_medlars (p : Nat) (q : List HbmReq) (s : State) : (setSched p q s).medlars = s.medlars := rfl
@[simp] theorem setSched_coh (p : Nat) (q : List HbmReq) (s : State) : (setSched p q s).coh = s.coh := rfl
@[simp] theorem setSched_grp (p : Nat) (q : List HbmReq) (s : State) : (setSched p q s).grp = s.grp := rfl
@[simp] theorem setSched_faces (p : Nat) (q : List HbmReq) (s : State) : (setSched p q s).faces = s.faces := rfl
@[simp] theorem setSched_brambles (p : Nat) (q : List HbmReq) (s : State) : (setSched p q s).brambles = s.brambles := rfl
@[simp] theorem setSched_engines (p : Nat) (q : List HbmReq) (s : State) : (setSched p q s).engines = s.engines := rfl
@[simp] theorem setSched_hauls (p : Nat) (q : List HbmReq) (s : State) : (setSched p q s).hauls = s.hauls := rfl
@[simp] theorem setSched_press (p : Nat) (q : List HbmReq) (s : State) : (setSched p q s).press = s.press := rfl
@[simp] theorem setSched_queues (p : Nat) (q : List HbmReq) (s : State) : (setSched p q s).queues = s.queues := rfl
@[simp] theorem setSched_jobs (p : Nat) (q : List HbmReq) (s : State) : (setSched p q s).jobs = s.jobs := rfl
@[simp] theorem setSched_faultq (p : Nat) (q : List HbmReq) (s : State) : (setSched p q s).faultq = s.faultq := rfl
@[simp] theorem setSched_links (p : Nat) (q : List HbmReq) (s : State) : (setSched p q s).links = s.links := rfl
@[simp] theorem setSched_weigh (p : Nat) (q : List HbmReq) (s : State) : (setSched p q s).weigh = s.weigh := rfl
@[simp] theorem setSched_out (p : Nat) (q : List HbmReq) (s : State) : (setSched p q s).out = s.out := rfl
@[simp] theorem setSched_freeN (p : Nat) (q : List HbmReq) (s : State) : (setSched p q s).freeN = s.freeN := rfl
@[simp] theorem setSched_pending (p : Nat) (q : List HbmReq) (s : State) : (setSched p q s).pending = s.pending := rfl

@[simp] theorem setTag_board (l : Nat) (t : MissTag) (s : State) : (setTag l t s).board = s.board := rfl
@[simp] theorem setTag_part (l : Nat) (t : MissTag) (s : State) : (setTag l t s).part = s.part := rfl
@[simp] theorem setTag_dict (l : Nat) (t : MissTag) (s : State) : (setTag l t s).dict = s.dict := rfl
@[simp] theorem setTag_hdp (l : Nat) (t : MissTag) (s : State) : (setTag l t s).hdp = s.hdp := rfl
@[simp] theorem setTag_mgmt (l : Nat) (t : MissTag) (s : State) : (setTag l t s).mgmt = s.mgmt := rfl
@[simp] theorem setTag_ev (l : Nat) (t : MissTag) (s : State) : (setTag l t s).ev = s.ev := rfl
@[simp] theorem setTag_snap (l : Nat) (t : MissTag) (s : State) : (setTag l t s).snap = s.snap := rfl
@[simp] theorem setTag_time (l : Nat) (t : MissTag) (s : State) : (setTag l t s).time = s.time := rfl
@[simp] theorem setTag_boot (l : Nat) (t : MissTag) (s : State) : (setTag l t s).boot = s.boot := rfl
@[simp] theorem setTag_pkg (l : Nat) (t : MissTag) (s : State) : (setTag l t s).pkg = s.pkg := rfl
@[simp] theorem setTag_diesHeld (l : Nat) (t : MissTag) (s : State) : (setTag l t s).diesHeld = s.diesHeld := rfl
@[simp] theorem setTag_settFail (l : Nat) (t : MissTag) (s : State) : (setTag l t s).settFail = s.settFail := rfl
@[simp] theorem setTag_settStalled (l : Nat) (t : MissTag) (s : State) : (setTag l t s).settStalled = s.settStalled := rfl
@[simp] theorem setTag_xlat (l : Nat) (t : MissTag) (s : State) : (setTag l t s).xlat = s.xlat := rfl
@[simp] theorem setTag_reqs (l : Nat) (t : MissTag) (s : State) : (setTag l t s).reqs = s.reqs := rfl
@[simp] theorem setTag_nextReq (l : Nat) (t : MissTag) (s : State) : (setTag l t s).nextReq = s.nextReq := rfl
@[simp] theorem setTag_medlars (l : Nat) (t : MissTag) (s : State) : (setTag l t s).medlars = s.medlars := rfl
@[simp] theorem setTag_coh (l : Nat) (t : MissTag) (s : State) : (setTag l t s).coh = s.coh := rfl
@[simp] theorem setTag_grp (l : Nat) (t : MissTag) (s : State) : (setTag l t s).grp = s.grp := rfl
@[simp] theorem setTag_faces (l : Nat) (t : MissTag) (s : State) : (setTag l t s).faces = s.faces := rfl
@[simp] theorem setTag_brambles (l : Nat) (t : MissTag) (s : State) : (setTag l t s).brambles = s.brambles := rfl
@[simp] theorem setTag_engines (l : Nat) (t : MissTag) (s : State) : (setTag l t s).engines = s.engines := rfl
@[simp] theorem setTag_hauls (l : Nat) (t : MissTag) (s : State) : (setTag l t s).hauls = s.hauls := rfl
@[simp] theorem setTag_press (l : Nat) (t : MissTag) (s : State) : (setTag l t s).press = s.press := rfl
@[simp] theorem setTag_queues (l : Nat) (t : MissTag) (s : State) : (setTag l t s).queues = s.queues := rfl
@[simp] theorem setTag_jobs (l : Nat) (t : MissTag) (s : State) : (setTag l t s).jobs = s.jobs := rfl
@[simp] theorem setTag_faultq (l : Nat) (t : MissTag) (s : State) : (setTag l t s).faultq = s.faultq := rfl
@[simp] theorem setTag_links (l : Nat) (t : MissTag) (s : State) : (setTag l t s).links = s.links := rfl
@[simp] theorem setTag_weigh (l : Nat) (t : MissTag) (s : State) : (setTag l t s).weigh = s.weigh := rfl
@[simp] theorem setTag_out (l : Nat) (t : MissTag) (s : State) : (setTag l t s).out = s.out := rfl
@[simp] theorem setTag_freeN (l : Nat) (t : MissTag) (s : State) : (setTag l t s).freeN = s.freeN := rfl
@[simp] theorem setTag_pending (l : Nat) (t : MissTag) (s : State) : (setTag l t s).pending = s.pending := rfl

@[simp] theorem setReq_board (i : Nat) (r : Req) (s : State) : (setReq i r s).board = s.board := rfl
@[simp] theorem setReq_part (i : Nat) (r : Req) (s : State) : (setReq i r s).part = s.part := rfl
@[simp] theorem setReq_dict (i : Nat) (r : Req) (s : State) : (setReq i r s).dict = s.dict := rfl
@[simp] theorem setReq_hdp (i : Nat) (r : Req) (s : State) : (setReq i r s).hdp = s.hdp := rfl
@[simp] theorem setReq_mgmt (i : Nat) (r : Req) (s : State) : (setReq i r s).mgmt = s.mgmt := rfl
@[simp] theorem setReq_ev (i : Nat) (r : Req) (s : State) : (setReq i r s).ev = s.ev := rfl
@[simp] theorem setReq_snap (i : Nat) (r : Req) (s : State) : (setReq i r s).snap = s.snap := rfl
@[simp] theorem setReq_time (i : Nat) (r : Req) (s : State) : (setReq i r s).time = s.time := rfl
@[simp] theorem setReq_boot (i : Nat) (r : Req) (s : State) : (setReq i r s).boot = s.boot := rfl
@[simp] theorem setReq_pkg (i : Nat) (r : Req) (s : State) : (setReq i r s).pkg = s.pkg := rfl
@[simp] theorem setReq_diesHeld (i : Nat) (r : Req) (s : State) : (setReq i r s).diesHeld = s.diesHeld := rfl
@[simp] theorem setReq_settFail (i : Nat) (r : Req) (s : State) : (setReq i r s).settFail = s.settFail := rfl
@[simp] theorem setReq_settStalled (i : Nat) (r : Req) (s : State) : (setReq i r s).settStalled = s.settStalled := rfl
@[simp] theorem setReq_mem (i : Nat) (r : Req) (s : State) : (setReq i r s).mem = s.mem := rfl
@[simp] theorem setReq_xlat (i : Nat) (r : Req) (s : State) : (setReq i r s).xlat = s.xlat := rfl
@[simp] theorem setReq_nextReq (i : Nat) (r : Req) (s : State) : (setReq i r s).nextReq = s.nextReq := rfl
@[simp] theorem setReq_medlars (i : Nat) (r : Req) (s : State) : (setReq i r s).medlars = s.medlars := rfl
@[simp] theorem setReq_coh (i : Nat) (r : Req) (s : State) : (setReq i r s).coh = s.coh := rfl
@[simp] theorem setReq_grp (i : Nat) (r : Req) (s : State) : (setReq i r s).grp = s.grp := rfl
@[simp] theorem setReq_faces (i : Nat) (r : Req) (s : State) : (setReq i r s).faces = s.faces := rfl
@[simp] theorem setReq_brambles (i : Nat) (r : Req) (s : State) : (setReq i r s).brambles = s.brambles := rfl
@[simp] theorem setReq_engines (i : Nat) (r : Req) (s : State) : (setReq i r s).engines = s.engines := rfl
@[simp] theorem setReq_hauls (i : Nat) (r : Req) (s : State) : (setReq i r s).hauls = s.hauls := rfl
@[simp] theorem setReq_press (i : Nat) (r : Req) (s : State) : (setReq i r s).press = s.press := rfl
@[simp] theorem setReq_queues (i : Nat) (r : Req) (s : State) : (setReq i r s).queues = s.queues := rfl
@[simp] theorem setReq_jobs (i : Nat) (r : Req) (s : State) : (setReq i r s).jobs = s.jobs := rfl
@[simp] theorem setReq_faultq (i : Nat) (r : Req) (s : State) : (setReq i r s).faultq = s.faultq := rfl
@[simp] theorem setReq_links (i : Nat) (r : Req) (s : State) : (setReq i r s).links = s.links := rfl
@[simp] theorem setReq_weigh (i : Nat) (r : Req) (s : State) : (setReq i r s).weigh = s.weigh := rfl
@[simp] theorem setReq_out (i : Nat) (r : Req) (s : State) : (setReq i r s).out = s.out := rfl
@[simp] theorem setReq_freeN (i : Nat) (r : Req) (s : State) : (setReq i r s).freeN = s.freeN := rfl
@[simp] theorem setReq_pending (i : Nat) (r : Req) (s : State) : (setReq i r s).pending = s.pending := rfl

@[simp] theorem dropReq_board (i : Nat) (s : State) : (dropReq i s).board = s.board := rfl
@[simp] theorem dropReq_part (i : Nat) (s : State) : (dropReq i s).part = s.part := rfl
@[simp] theorem dropReq_dict (i : Nat) (s : State) : (dropReq i s).dict = s.dict := rfl
@[simp] theorem dropReq_hdp (i : Nat) (s : State) : (dropReq i s).hdp = s.hdp := rfl
@[simp] theorem dropReq_mgmt (i : Nat) (s : State) : (dropReq i s).mgmt = s.mgmt := rfl
@[simp] theorem dropReq_ev (i : Nat) (s : State) : (dropReq i s).ev = s.ev := rfl
@[simp] theorem dropReq_snap (i : Nat) (s : State) : (dropReq i s).snap = s.snap := rfl
@[simp] theorem dropReq_time (i : Nat) (s : State) : (dropReq i s).time = s.time := rfl
@[simp] theorem dropReq_boot (i : Nat) (s : State) : (dropReq i s).boot = s.boot := rfl
@[simp] theorem dropReq_pkg (i : Nat) (s : State) : (dropReq i s).pkg = s.pkg := rfl
@[simp] theorem dropReq_diesHeld (i : Nat) (s : State) : (dropReq i s).diesHeld = s.diesHeld := rfl
@[simp] theorem dropReq_settFail (i : Nat) (s : State) : (dropReq i s).settFail = s.settFail := rfl
@[simp] theorem dropReq_settStalled (i : Nat) (s : State) : (dropReq i s).settStalled = s.settStalled := rfl
@[simp] theorem dropReq_mem (i : Nat) (s : State) : (dropReq i s).mem = s.mem := rfl
@[simp] theorem dropReq_xlat (i : Nat) (s : State) : (dropReq i s).xlat = s.xlat := rfl
@[simp] theorem dropReq_nextReq (i : Nat) (s : State) : (dropReq i s).nextReq = s.nextReq := rfl
@[simp] theorem dropReq_medlars (i : Nat) (s : State) : (dropReq i s).medlars = s.medlars := rfl
@[simp] theorem dropReq_coh (i : Nat) (s : State) : (dropReq i s).coh = s.coh := rfl
@[simp] theorem dropReq_grp (i : Nat) (s : State) : (dropReq i s).grp = s.grp := rfl
@[simp] theorem dropReq_faces (i : Nat) (s : State) : (dropReq i s).faces = s.faces := rfl
@[simp] theorem dropReq_brambles (i : Nat) (s : State) : (dropReq i s).brambles = s.brambles := rfl
@[simp] theorem dropReq_engines (i : Nat) (s : State) : (dropReq i s).engines = s.engines := rfl
@[simp] theorem dropReq_hauls (i : Nat) (s : State) : (dropReq i s).hauls = s.hauls := rfl
@[simp] theorem dropReq_press (i : Nat) (s : State) : (dropReq i s).press = s.press := rfl
@[simp] theorem dropReq_queues (i : Nat) (s : State) : (dropReq i s).queues = s.queues := rfl
@[simp] theorem dropReq_jobs (i : Nat) (s : State) : (dropReq i s).jobs = s.jobs := rfl
@[simp] theorem dropReq_faultq (i : Nat) (s : State) : (dropReq i s).faultq = s.faultq := rfl
@[simp] theorem dropReq_links (i : Nat) (s : State) : (dropReq i s).links = s.links := rfl
@[simp] theorem dropReq_weigh (i : Nat) (s : State) : (dropReq i s).weigh = s.weigh := rfl
@[simp] theorem dropReq_out (i : Nat) (s : State) : (dropReq i s).out = s.out := rfl
@[simp] theorem dropReq_freeN (i : Nat) (s : State) : (dropReq i s).freeN = s.freeN := rfl
@[simp] theorem dropReq_pending (i : Nat) (s : State) : (dropReq i s).pending = s.pending := rfl

@[simp] theorem setMedlar_board (c : Nat) (m : Medlar) (s : State) : (setMedlar c m s).board = s.board := rfl
@[simp] theorem setMedlar_part (c : Nat) (m : Medlar) (s : State) : (setMedlar c m s).part = s.part := rfl
@[simp] theorem setMedlar_dict (c : Nat) (m : Medlar) (s : State) : (setMedlar c m s).dict = s.dict := rfl
@[simp] theorem setMedlar_hdp (c : Nat) (m : Medlar) (s : State) : (setMedlar c m s).hdp = s.hdp := rfl
@[simp] theorem setMedlar_mgmt (c : Nat) (m : Medlar) (s : State) : (setMedlar c m s).mgmt = s.mgmt := rfl
@[simp] theorem setMedlar_ev (c : Nat) (m : Medlar) (s : State) : (setMedlar c m s).ev = s.ev := rfl
@[simp] theorem setMedlar_snap (c : Nat) (m : Medlar) (s : State) : (setMedlar c m s).snap = s.snap := rfl
@[simp] theorem setMedlar_time (c : Nat) (m : Medlar) (s : State) : (setMedlar c m s).time = s.time := rfl
@[simp] theorem setMedlar_boot (c : Nat) (m : Medlar) (s : State) : (setMedlar c m s).boot = s.boot := rfl
@[simp] theorem setMedlar_pkg (c : Nat) (m : Medlar) (s : State) : (setMedlar c m s).pkg = s.pkg := rfl
@[simp] theorem setMedlar_diesHeld (c : Nat) (m : Medlar) (s : State) : (setMedlar c m s).diesHeld = s.diesHeld := rfl
@[simp] theorem setMedlar_settFail (c : Nat) (m : Medlar) (s : State) : (setMedlar c m s).settFail = s.settFail := rfl
@[simp] theorem setMedlar_settStalled (c : Nat) (m : Medlar) (s : State) : (setMedlar c m s).settStalled = s.settStalled := rfl
@[simp] theorem setMedlar_mem (c : Nat) (m : Medlar) (s : State) : (setMedlar c m s).mem = s.mem := rfl
@[simp] theorem setMedlar_xlat (c : Nat) (m : Medlar) (s : State) : (setMedlar c m s).xlat = s.xlat := rfl
@[simp] theorem setMedlar_reqs (c : Nat) (m : Medlar) (s : State) : (setMedlar c m s).reqs = s.reqs := rfl
@[simp] theorem setMedlar_nextReq (c : Nat) (m : Medlar) (s : State) : (setMedlar c m s).nextReq = s.nextReq := rfl
@[simp] theorem setMedlar_coh (c : Nat) (m : Medlar) (s : State) : (setMedlar c m s).coh = s.coh := rfl
@[simp] theorem setMedlar_grp (c : Nat) (m : Medlar) (s : State) : (setMedlar c m s).grp = s.grp := rfl
@[simp] theorem setMedlar_faces (c : Nat) (m : Medlar) (s : State) : (setMedlar c m s).faces = s.faces := rfl
@[simp] theorem setMedlar_brambles (c : Nat) (m : Medlar) (s : State) : (setMedlar c m s).brambles = s.brambles := rfl
@[simp] theorem setMedlar_engines (c : Nat) (m : Medlar) (s : State) : (setMedlar c m s).engines = s.engines := rfl
@[simp] theorem setMedlar_hauls (c : Nat) (m : Medlar) (s : State) : (setMedlar c m s).hauls = s.hauls := rfl
@[simp] theorem setMedlar_press (c : Nat) (m : Medlar) (s : State) : (setMedlar c m s).press = s.press := rfl
@[simp] theorem setMedlar_queues (c : Nat) (m : Medlar) (s : State) : (setMedlar c m s).queues = s.queues := rfl
@[simp] theorem setMedlar_jobs (c : Nat) (m : Medlar) (s : State) : (setMedlar c m s).jobs = s.jobs := rfl
@[simp] theorem setMedlar_faultq (c : Nat) (m : Medlar) (s : State) : (setMedlar c m s).faultq = s.faultq := rfl
@[simp] theorem setMedlar_links (c : Nat) (m : Medlar) (s : State) : (setMedlar c m s).links = s.links := rfl
@[simp] theorem setMedlar_weigh (c : Nat) (m : Medlar) (s : State) : (setMedlar c m s).weigh = s.weigh := rfl
@[simp] theorem setMedlar_out (c : Nat) (m : Medlar) (s : State) : (setMedlar c m s).out = s.out := rfl
@[simp] theorem setMedlar_freeN (c : Nat) (m : Medlar) (s : State) : (setMedlar c m s).freeN = s.freeN := rfl
@[simp] theorem setMedlar_pending (c : Nat) (m : Medlar) (s : State) : (setMedlar c m s).pending = s.pending := rfl

@[simp] theorem setDir_board (l : Nat) (e : DirEntry) (s : State) : (setDir l e s).board = s.board := by unfold setDir; split <;> rfl
@[simp] theorem setDir_part (l : Nat) (e : DirEntry) (s : State) : (setDir l e s).part = s.part := by unfold setDir; split <;> rfl
@[simp] theorem setDir_dict (l : Nat) (e : DirEntry) (s : State) : (setDir l e s).dict = s.dict := by unfold setDir; split <;> rfl
@[simp] theorem setDir_hdp (l : Nat) (e : DirEntry) (s : State) : (setDir l e s).hdp = s.hdp := by unfold setDir; split <;> rfl
@[simp] theorem setDir_mgmt (l : Nat) (e : DirEntry) (s : State) : (setDir l e s).mgmt = s.mgmt := by unfold setDir; split <;> rfl
@[simp] theorem setDir_ev (l : Nat) (e : DirEntry) (s : State) : (setDir l e s).ev = s.ev := by unfold setDir; split <;> rfl
@[simp] theorem setDir_snap (l : Nat) (e : DirEntry) (s : State) : (setDir l e s).snap = s.snap := by unfold setDir; split <;> rfl
@[simp] theorem setDir_time (l : Nat) (e : DirEntry) (s : State) : (setDir l e s).time = s.time := by unfold setDir; split <;> rfl
@[simp] theorem setDir_boot (l : Nat) (e : DirEntry) (s : State) : (setDir l e s).boot = s.boot := by unfold setDir; split <;> rfl
@[simp] theorem setDir_pkg (l : Nat) (e : DirEntry) (s : State) : (setDir l e s).pkg = s.pkg := by unfold setDir; split <;> rfl
@[simp] theorem setDir_diesHeld (l : Nat) (e : DirEntry) (s : State) : (setDir l e s).diesHeld = s.diesHeld := by unfold setDir; split <;> rfl
@[simp] theorem setDir_settFail (l : Nat) (e : DirEntry) (s : State) : (setDir l e s).settFail = s.settFail := by unfold setDir; split <;> rfl
@[simp] theorem setDir_settStalled (l : Nat) (e : DirEntry) (s : State) : (setDir l e s).settStalled = s.settStalled := by unfold setDir; split <;> rfl
@[simp] theorem setDir_mem (l : Nat) (e : DirEntry) (s : State) : (setDir l e s).mem = s.mem := by unfold setDir; split <;> rfl
@[simp] theorem setDir_xlat (l : Nat) (e : DirEntry) (s : State) : (setDir l e s).xlat = s.xlat := by unfold setDir; split <;> rfl
@[simp] theorem setDir_reqs (l : Nat) (e : DirEntry) (s : State) : (setDir l e s).reqs = s.reqs := by unfold setDir; split <;> rfl
@[simp] theorem setDir_nextReq (l : Nat) (e : DirEntry) (s : State) : (setDir l e s).nextReq = s.nextReq := by unfold setDir; split <;> rfl
@[simp] theorem setDir_medlars (l : Nat) (e : DirEntry) (s : State) : (setDir l e s).medlars = s.medlars := by unfold setDir; split <;> rfl
@[simp] theorem setDir_grp (l : Nat) (e : DirEntry) (s : State) : (setDir l e s).grp = s.grp := by unfold setDir; split <;> rfl
@[simp] theorem setDir_faces (l : Nat) (e : DirEntry) (s : State) : (setDir l e s).faces = s.faces := by unfold setDir; split <;> rfl
@[simp] theorem setDir_brambles (l : Nat) (e : DirEntry) (s : State) : (setDir l e s).brambles = s.brambles := by unfold setDir; split <;> rfl
@[simp] theorem setDir_engines (l : Nat) (e : DirEntry) (s : State) : (setDir l e s).engines = s.engines := by unfold setDir; split <;> rfl
@[simp] theorem setDir_hauls (l : Nat) (e : DirEntry) (s : State) : (setDir l e s).hauls = s.hauls := by unfold setDir; split <;> rfl
@[simp] theorem setDir_press (l : Nat) (e : DirEntry) (s : State) : (setDir l e s).press = s.press := by unfold setDir; split <;> rfl
@[simp] theorem setDir_queues (l : Nat) (e : DirEntry) (s : State) : (setDir l e s).queues = s.queues := by unfold setDir; split <;> rfl
@[simp] theorem setDir_jobs (l : Nat) (e : DirEntry) (s : State) : (setDir l e s).jobs = s.jobs := by unfold setDir; split <;> rfl
@[simp] theorem setDir_faultq (l : Nat) (e : DirEntry) (s : State) : (setDir l e s).faultq = s.faultq := by unfold setDir; split <;> rfl
@[simp] theorem setDir_links (l : Nat) (e : DirEntry) (s : State) : (setDir l e s).links = s.links := by unfold setDir; split <;> rfl
@[simp] theorem setDir_weigh (l : Nat) (e : DirEntry) (s : State) : (setDir l e s).weigh = s.weigh := by unfold setDir; split <;> rfl
@[simp] theorem setDir_out (l : Nat) (e : DirEntry) (s : State) : (setDir l e s).out = s.out := by unfold setDir; split <;> rfl
@[simp] theorem setDir_freeN (l : Nat) (e : DirEntry) (s : State) : (setDir l e s).freeN = s.freeN := by unfold setDir; split <;> rfl
@[simp] theorem setDir_pending (l : Nat) (e : DirEntry) (s : State) : (setDir l e s).pending = s.pending := by unfold setDir; split <;> rfl

@[simp] theorem touchLine_board (l : Nat) (s : State) : (touchLine l s).board = s.board := rfl
@[simp] theorem touchLine_part (l : Nat) (s : State) : (touchLine l s).part = s.part := rfl
@[simp] theorem touchLine_dict (l : Nat) (s : State) : (touchLine l s).dict = s.dict := rfl
@[simp] theorem touchLine_hdp (l : Nat) (s : State) : (touchLine l s).hdp = s.hdp := rfl
@[simp] theorem touchLine_mgmt (l : Nat) (s : State) : (touchLine l s).mgmt = s.mgmt := rfl
@[simp] theorem touchLine_ev (l : Nat) (s : State) : (touchLine l s).ev = s.ev := rfl
@[simp] theorem touchLine_snap (l : Nat) (s : State) : (touchLine l s).snap = s.snap := rfl
@[simp] theorem touchLine_time (l : Nat) (s : State) : (touchLine l s).time = s.time := rfl
@[simp] theorem touchLine_boot (l : Nat) (s : State) : (touchLine l s).boot = s.boot := rfl
@[simp] theorem touchLine_pkg (l : Nat) (s : State) : (touchLine l s).pkg = s.pkg := rfl
@[simp] theorem touchLine_diesHeld (l : Nat) (s : State) : (touchLine l s).diesHeld = s.diesHeld := rfl
@[simp] theorem touchLine_settFail (l : Nat) (s : State) : (touchLine l s).settFail = s.settFail := rfl
@[simp] theorem touchLine_settStalled (l : Nat) (s : State) : (touchLine l s).settStalled = s.settStalled := rfl
@[simp] theorem touchLine_xlat (l : Nat) (s : State) : (touchLine l s).xlat = s.xlat := rfl
@[simp] theorem touchLine_reqs (l : Nat) (s : State) : (touchLine l s).reqs = s.reqs := rfl
@[simp] theorem touchLine_nextReq (l : Nat) (s : State) : (touchLine l s).nextReq = s.nextReq := rfl
@[simp] theorem touchLine_medlars (l : Nat) (s : State) : (touchLine l s).medlars = s.medlars := rfl
@[simp] theorem touchLine_coh (l : Nat) (s : State) : (touchLine l s).coh = s.coh := rfl
@[simp] theorem touchLine_grp (l : Nat) (s : State) : (touchLine l s).grp = s.grp := rfl
@[simp] theorem touchLine_faces (l : Nat) (s : State) : (touchLine l s).faces = s.faces := rfl
@[simp] theorem touchLine_brambles (l : Nat) (s : State) : (touchLine l s).brambles = s.brambles := rfl
@[simp] theorem touchLine_engines (l : Nat) (s : State) : (touchLine l s).engines = s.engines := rfl
@[simp] theorem touchLine_hauls (l : Nat) (s : State) : (touchLine l s).hauls = s.hauls := rfl
@[simp] theorem touchLine_press (l : Nat) (s : State) : (touchLine l s).press = s.press := rfl
@[simp] theorem touchLine_queues (l : Nat) (s : State) : (touchLine l s).queues = s.queues := rfl
@[simp] theorem touchLine_jobs (l : Nat) (s : State) : (touchLine l s).jobs = s.jobs := rfl
@[simp] theorem touchLine_faultq (l : Nat) (s : State) : (touchLine l s).faultq = s.faultq := rfl
@[simp] theorem touchLine_links (l : Nat) (s : State) : (touchLine l s).links = s.links := rfl
@[simp] theorem touchLine_weigh (l : Nat) (s : State) : (touchLine l s).weigh = s.weigh := rfl
@[simp] theorem touchLine_out (l : Nat) (s : State) : (touchLine l s).out = s.out := rfl
@[simp] theorem touchLine_freeN (l : Nat) (s : State) : (touchLine l s).freeN = s.freeN := rfl
@[simp] theorem touchLine_pending (l : Nat) (s : State) : (touchLine l s).pending = s.pending := rfl

@[simp] theorem benchPut_board (l : Nat) (b : BLine) (s : State) : (benchPut l b s).board = s.board := rfl
@[simp] theorem benchPut_part (l : Nat) (b : BLine) (s : State) : (benchPut l b s).part = s.part := rfl
@[simp] theorem benchPut_dict (l : Nat) (b : BLine) (s : State) : (benchPut l b s).dict = s.dict := rfl
@[simp] theorem benchPut_hdp (l : Nat) (b : BLine) (s : State) : (benchPut l b s).hdp = s.hdp := rfl
@[simp] theorem benchPut_mgmt (l : Nat) (b : BLine) (s : State) : (benchPut l b s).mgmt = s.mgmt := rfl
@[simp] theorem benchPut_ev (l : Nat) (b : BLine) (s : State) : (benchPut l b s).ev = s.ev := rfl
@[simp] theorem benchPut_snap (l : Nat) (b : BLine) (s : State) : (benchPut l b s).snap = s.snap := rfl
@[simp] theorem benchPut_time (l : Nat) (b : BLine) (s : State) : (benchPut l b s).time = s.time := rfl
@[simp] theorem benchPut_boot (l : Nat) (b : BLine) (s : State) : (benchPut l b s).boot = s.boot := rfl
@[simp] theorem benchPut_pkg (l : Nat) (b : BLine) (s : State) : (benchPut l b s).pkg = s.pkg := rfl
@[simp] theorem benchPut_diesHeld (l : Nat) (b : BLine) (s : State) : (benchPut l b s).diesHeld = s.diesHeld := rfl
@[simp] theorem benchPut_settFail (l : Nat) (b : BLine) (s : State) : (benchPut l b s).settFail = s.settFail := rfl
@[simp] theorem benchPut_settStalled (l : Nat) (b : BLine) (s : State) : (benchPut l b s).settStalled = s.settStalled := rfl
@[simp] theorem benchPut_xlat (l : Nat) (b : BLine) (s : State) : (benchPut l b s).xlat = s.xlat := rfl
@[simp] theorem benchPut_reqs (l : Nat) (b : BLine) (s : State) : (benchPut l b s).reqs = s.reqs := rfl
@[simp] theorem benchPut_nextReq (l : Nat) (b : BLine) (s : State) : (benchPut l b s).nextReq = s.nextReq := rfl
@[simp] theorem benchPut_medlars (l : Nat) (b : BLine) (s : State) : (benchPut l b s).medlars = s.medlars := rfl
@[simp] theorem benchPut_coh (l : Nat) (b : BLine) (s : State) : (benchPut l b s).coh = s.coh := rfl
@[simp] theorem benchPut_grp (l : Nat) (b : BLine) (s : State) : (benchPut l b s).grp = s.grp := rfl
@[simp] theorem benchPut_faces (l : Nat) (b : BLine) (s : State) : (benchPut l b s).faces = s.faces := rfl
@[simp] theorem benchPut_brambles (l : Nat) (b : BLine) (s : State) : (benchPut l b s).brambles = s.brambles := rfl
@[simp] theorem benchPut_engines (l : Nat) (b : BLine) (s : State) : (benchPut l b s).engines = s.engines := rfl
@[simp] theorem benchPut_hauls (l : Nat) (b : BLine) (s : State) : (benchPut l b s).hauls = s.hauls := rfl
@[simp] theorem benchPut_press (l : Nat) (b : BLine) (s : State) : (benchPut l b s).press = s.press := rfl
@[simp] theorem benchPut_queues (l : Nat) (b : BLine) (s : State) : (benchPut l b s).queues = s.queues := rfl
@[simp] theorem benchPut_jobs (l : Nat) (b : BLine) (s : State) : (benchPut l b s).jobs = s.jobs := rfl
@[simp] theorem benchPut_faultq (l : Nat) (b : BLine) (s : State) : (benchPut l b s).faultq = s.faultq := rfl
@[simp] theorem benchPut_links (l : Nat) (b : BLine) (s : State) : (benchPut l b s).links = s.links := rfl
@[simp] theorem benchPut_weigh (l : Nat) (b : BLine) (s : State) : (benchPut l b s).weigh = s.weigh := rfl
@[simp] theorem benchPut_out (l : Nat) (b : BLine) (s : State) : (benchPut l b s).out = s.out := rfl
@[simp] theorem benchPut_freeN (l : Nat) (b : BLine) (s : State) : (benchPut l b s).freeN = s.freeN := rfl
@[simp] theorem benchPut_pending (l : Nat) (b : BLine) (s : State) : (benchPut l b s).pending = s.pending := rfl

@[simp] theorem setSpoil_board (l : Nat) (q : List (Nat × BLine)) (s : State) : (setSpoil l q s).board = s.board := rfl
@[simp] theorem setSpoil_part (l : Nat) (q : List (Nat × BLine)) (s : State) : (setSpoil l q s).part = s.part := rfl
@[simp] theorem setSpoil_dict (l : Nat) (q : List (Nat × BLine)) (s : State) : (setSpoil l q s).dict = s.dict := rfl
@[simp] theorem setSpoil_hdp (l : Nat) (q : List (Nat × BLine)) (s : State) : (setSpoil l q s).hdp = s.hdp := rfl
@[simp] theorem setSpoil_mgmt (l : Nat) (q : List (Nat × BLine)) (s : State) : (setSpoil l q s).mgmt = s.mgmt := rfl
@[simp] theorem setSpoil_ev (l : Nat) (q : List (Nat × BLine)) (s : State) : (setSpoil l q s).ev = s.ev := rfl
@[simp] theorem setSpoil_snap (l : Nat) (q : List (Nat × BLine)) (s : State) : (setSpoil l q s).snap = s.snap := rfl
@[simp] theorem setSpoil_time (l : Nat) (q : List (Nat × BLine)) (s : State) : (setSpoil l q s).time = s.time := rfl
@[simp] theorem setSpoil_boot (l : Nat) (q : List (Nat × BLine)) (s : State) : (setSpoil l q s).boot = s.boot := rfl
@[simp] theorem setSpoil_pkg (l : Nat) (q : List (Nat × BLine)) (s : State) : (setSpoil l q s).pkg = s.pkg := rfl
@[simp] theorem setSpoil_diesHeld (l : Nat) (q : List (Nat × BLine)) (s : State) : (setSpoil l q s).diesHeld = s.diesHeld := rfl
@[simp] theorem setSpoil_settFail (l : Nat) (q : List (Nat × BLine)) (s : State) : (setSpoil l q s).settFail = s.settFail := rfl
@[simp] theorem setSpoil_settStalled (l : Nat) (q : List (Nat × BLine)) (s : State) : (setSpoil l q s).settStalled = s.settStalled := rfl
@[simp] theorem setSpoil_xlat (l : Nat) (q : List (Nat × BLine)) (s : State) : (setSpoil l q s).xlat = s.xlat := rfl
@[simp] theorem setSpoil_reqs (l : Nat) (q : List (Nat × BLine)) (s : State) : (setSpoil l q s).reqs = s.reqs := rfl
@[simp] theorem setSpoil_nextReq (l : Nat) (q : List (Nat × BLine)) (s : State) : (setSpoil l q s).nextReq = s.nextReq := rfl
@[simp] theorem setSpoil_medlars (l : Nat) (q : List (Nat × BLine)) (s : State) : (setSpoil l q s).medlars = s.medlars := rfl
@[simp] theorem setSpoil_coh (l : Nat) (q : List (Nat × BLine)) (s : State) : (setSpoil l q s).coh = s.coh := rfl
@[simp] theorem setSpoil_grp (l : Nat) (q : List (Nat × BLine)) (s : State) : (setSpoil l q s).grp = s.grp := rfl
@[simp] theorem setSpoil_faces (l : Nat) (q : List (Nat × BLine)) (s : State) : (setSpoil l q s).faces = s.faces := rfl
@[simp] theorem setSpoil_brambles (l : Nat) (q : List (Nat × BLine)) (s : State) : (setSpoil l q s).brambles = s.brambles := rfl
@[simp] theorem setSpoil_engines (l : Nat) (q : List (Nat × BLine)) (s : State) : (setSpoil l q s).engines = s.engines := rfl
@[simp] theorem setSpoil_hauls (l : Nat) (q : List (Nat × BLine)) (s : State) : (setSpoil l q s).hauls = s.hauls := rfl
@[simp] theorem setSpoil_press (l : Nat) (q : List (Nat × BLine)) (s : State) : (setSpoil l q s).press = s.press := rfl
@[simp] theorem setSpoil_queues (l : Nat) (q : List (Nat × BLine)) (s : State) : (setSpoil l q s).queues = s.queues := rfl
@[simp] theorem setSpoil_jobs (l : Nat) (q : List (Nat × BLine)) (s : State) : (setSpoil l q s).jobs = s.jobs := rfl
@[simp] theorem setSpoil_faultq (l : Nat) (q : List (Nat × BLine)) (s : State) : (setSpoil l q s).faultq = s.faultq := rfl
@[simp] theorem setSpoil_links (l : Nat) (q : List (Nat × BLine)) (s : State) : (setSpoil l q s).links = s.links := rfl
@[simp] theorem setSpoil_weigh (l : Nat) (q : List (Nat × BLine)) (s : State) : (setSpoil l q s).weigh = s.weigh := rfl
@[simp] theorem setSpoil_out (l : Nat) (q : List (Nat × BLine)) (s : State) : (setSpoil l q s).out = s.out := rfl
@[simp] theorem setSpoil_freeN (l : Nat) (q : List (Nat × BLine)) (s : State) : (setSpoil l q s).freeN = s.freeN := rfl
@[simp] theorem setSpoil_pending (l : Nat) (q : List (Nat × BLine)) (s : State) : (setSpoil l q s).pending = s.pending := rfl

@[simp] theorem setLayer_board (p : Nat) (x : LinkLayer) (s : State) : (setLayer p x s).board = s.board := rfl
@[simp] theorem setLayer_part (p : Nat) (x : LinkLayer) (s : State) : (setLayer p x s).part = s.part := rfl
@[simp] theorem setLayer_dict (p : Nat) (x : LinkLayer) (s : State) : (setLayer p x s).dict = s.dict := rfl
@[simp] theorem setLayer_hdp (p : Nat) (x : LinkLayer) (s : State) : (setLayer p x s).hdp = s.hdp := rfl
@[simp] theorem setLayer_mgmt (p : Nat) (x : LinkLayer) (s : State) : (setLayer p x s).mgmt = s.mgmt := rfl
@[simp] theorem setLayer_ev (p : Nat) (x : LinkLayer) (s : State) : (setLayer p x s).ev = s.ev := rfl
@[simp] theorem setLayer_snap (p : Nat) (x : LinkLayer) (s : State) : (setLayer p x s).snap = s.snap := rfl
@[simp] theorem setLayer_time (p : Nat) (x : LinkLayer) (s : State) : (setLayer p x s).time = s.time := rfl
@[simp] theorem setLayer_boot (p : Nat) (x : LinkLayer) (s : State) : (setLayer p x s).boot = s.boot := rfl
@[simp] theorem setLayer_pkg (p : Nat) (x : LinkLayer) (s : State) : (setLayer p x s).pkg = s.pkg := rfl
@[simp] theorem setLayer_diesHeld (p : Nat) (x : LinkLayer) (s : State) : (setLayer p x s).diesHeld = s.diesHeld := rfl
@[simp] theorem setLayer_settFail (p : Nat) (x : LinkLayer) (s : State) : (setLayer p x s).settFail = s.settFail := rfl
@[simp] theorem setLayer_settStalled (p : Nat) (x : LinkLayer) (s : State) : (setLayer p x s).settStalled = s.settStalled := rfl
@[simp] theorem setLayer_mem (p : Nat) (x : LinkLayer) (s : State) : (setLayer p x s).mem = s.mem := rfl
@[simp] theorem setLayer_xlat (p : Nat) (x : LinkLayer) (s : State) : (setLayer p x s).xlat = s.xlat := rfl
@[simp] theorem setLayer_reqs (p : Nat) (x : LinkLayer) (s : State) : (setLayer p x s).reqs = s.reqs := rfl
@[simp] theorem setLayer_nextReq (p : Nat) (x : LinkLayer) (s : State) : (setLayer p x s).nextReq = s.nextReq := rfl
@[simp] theorem setLayer_medlars (p : Nat) (x : LinkLayer) (s : State) : (setLayer p x s).medlars = s.medlars := rfl
@[simp] theorem setLayer_coh (p : Nat) (x : LinkLayer) (s : State) : (setLayer p x s).coh = s.coh := rfl
@[simp] theorem setLayer_grp (p : Nat) (x : LinkLayer) (s : State) : (setLayer p x s).grp = s.grp := rfl
@[simp] theorem setLayer_faces (p : Nat) (x : LinkLayer) (s : State) : (setLayer p x s).faces = s.faces := rfl
@[simp] theorem setLayer_brambles (p : Nat) (x : LinkLayer) (s : State) : (setLayer p x s).brambles = s.brambles := rfl
@[simp] theorem setLayer_engines (p : Nat) (x : LinkLayer) (s : State) : (setLayer p x s).engines = s.engines := rfl
@[simp] theorem setLayer_hauls (p : Nat) (x : LinkLayer) (s : State) : (setLayer p x s).hauls = s.hauls := rfl
@[simp] theorem setLayer_press (p : Nat) (x : LinkLayer) (s : State) : (setLayer p x s).press = s.press := rfl
@[simp] theorem setLayer_queues (p : Nat) (x : LinkLayer) (s : State) : (setLayer p x s).queues = s.queues := rfl
@[simp] theorem setLayer_jobs (p : Nat) (x : LinkLayer) (s : State) : (setLayer p x s).jobs = s.jobs := rfl
@[simp] theorem setLayer_faultq (p : Nat) (x : LinkLayer) (s : State) : (setLayer p x s).faultq = s.faultq := rfl
@[simp] theorem setLayer_weigh (p : Nat) (x : LinkLayer) (s : State) : (setLayer p x s).weigh = s.weigh := rfl
@[simp] theorem setLayer_out (p : Nat) (x : LinkLayer) (s : State) : (setLayer p x s).out = s.out := rfl
@[simp] theorem setLayer_freeN (p : Nat) (x : LinkLayer) (s : State) : (setLayer p x s).freeN = s.freeN := rfl
@[simp] theorem setLayer_pending (p : Nat) (x : LinkLayer) (s : State) : (setLayer p x s).pending = s.pending := rfl

@[simp] theorem dropWatch_board (k : Nat) (s : State) : (dropWatch k s).board = s.board := rfl
@[simp] theorem dropWatch_part (k : Nat) (s : State) : (dropWatch k s).part = s.part := rfl
@[simp] theorem dropWatch_dict (k : Nat) (s : State) : (dropWatch k s).dict = s.dict := rfl
@[simp] theorem dropWatch_hdp (k : Nat) (s : State) : (dropWatch k s).hdp = s.hdp := rfl
@[simp] theorem dropWatch_mgmt (k : Nat) (s : State) : (dropWatch k s).mgmt = s.mgmt := rfl
@[simp] theorem dropWatch_ev (k : Nat) (s : State) : (dropWatch k s).ev = s.ev := rfl
@[simp] theorem dropWatch_snap (k : Nat) (s : State) : (dropWatch k s).snap = s.snap := rfl
@[simp] theorem dropWatch_time (k : Nat) (s : State) : (dropWatch k s).time = s.time := rfl
@[simp] theorem dropWatch_boot (k : Nat) (s : State) : (dropWatch k s).boot = s.boot := rfl
@[simp] theorem dropWatch_pkg (k : Nat) (s : State) : (dropWatch k s).pkg = s.pkg := rfl
@[simp] theorem dropWatch_diesHeld (k : Nat) (s : State) : (dropWatch k s).diesHeld = s.diesHeld := rfl
@[simp] theorem dropWatch_settFail (k : Nat) (s : State) : (dropWatch k s).settFail = s.settFail := rfl
@[simp] theorem dropWatch_settStalled (k : Nat) (s : State) : (dropWatch k s).settStalled = s.settStalled := rfl
@[simp] theorem dropWatch_xlat (k : Nat) (s : State) : (dropWatch k s).xlat = s.xlat := rfl
@[simp] theorem dropWatch_reqs (k : Nat) (s : State) : (dropWatch k s).reqs = s.reqs := rfl
@[simp] theorem dropWatch_nextReq (k : Nat) (s : State) : (dropWatch k s).nextReq = s.nextReq := rfl
@[simp] theorem dropWatch_medlars (k : Nat) (s : State) : (dropWatch k s).medlars = s.medlars := rfl
@[simp] theorem dropWatch_coh (k : Nat) (s : State) : (dropWatch k s).coh = s.coh := rfl
@[simp] theorem dropWatch_grp (k : Nat) (s : State) : (dropWatch k s).grp = s.grp := rfl
@[simp] theorem dropWatch_faces (k : Nat) (s : State) : (dropWatch k s).faces = s.faces := rfl
@[simp] theorem dropWatch_brambles (k : Nat) (s : State) : (dropWatch k s).brambles = s.brambles := rfl
@[simp] theorem dropWatch_engines (k : Nat) (s : State) : (dropWatch k s).engines = s.engines := rfl
@[simp] theorem dropWatch_hauls (k : Nat) (s : State) : (dropWatch k s).hauls = s.hauls := rfl
@[simp] theorem dropWatch_press (k : Nat) (s : State) : (dropWatch k s).press = s.press := rfl
@[simp] theorem dropWatch_queues (k : Nat) (s : State) : (dropWatch k s).queues = s.queues := rfl
@[simp] theorem dropWatch_jobs (k : Nat) (s : State) : (dropWatch k s).jobs = s.jobs := rfl
@[simp] theorem dropWatch_faultq (k : Nat) (s : State) : (dropWatch k s).faultq = s.faultq := rfl
@[simp] theorem dropWatch_links (k : Nat) (s : State) : (dropWatch k s).links = s.links := rfl
@[simp] theorem dropWatch_weigh (k : Nat) (s : State) : (dropWatch k s).weigh = s.weigh := rfl
@[simp] theorem dropWatch_out (k : Nat) (s : State) : (dropWatch k s).out = s.out := rfl
@[simp] theorem dropWatch_freeN (k : Nat) (s : State) : (dropWatch k s).freeN = s.freeN := rfl
@[simp] theorem dropWatch_pending (k : Nat) (s : State) : (dropWatch k s).pending = s.pending := rfl

@[simp] theorem setMsgs_board (m : List CohMsg) (s : State) : (setMsgs m s).board = s.board := rfl
@[simp] theorem setMsgs_part (m : List CohMsg) (s : State) : (setMsgs m s).part = s.part := rfl
@[simp] theorem setMsgs_dict (m : List CohMsg) (s : State) : (setMsgs m s).dict = s.dict := rfl
@[simp] theorem setMsgs_hdp (m : List CohMsg) (s : State) : (setMsgs m s).hdp = s.hdp := rfl
@[simp] theorem setMsgs_mgmt (m : List CohMsg) (s : State) : (setMsgs m s).mgmt = s.mgmt := rfl
@[simp] theorem setMsgs_ev (m : List CohMsg) (s : State) : (setMsgs m s).ev = s.ev := rfl
@[simp] theorem setMsgs_snap (m : List CohMsg) (s : State) : (setMsgs m s).snap = s.snap := rfl
@[simp] theorem setMsgs_time (m : List CohMsg) (s : State) : (setMsgs m s).time = s.time := rfl
@[simp] theorem setMsgs_boot (m : List CohMsg) (s : State) : (setMsgs m s).boot = s.boot := rfl
@[simp] theorem setMsgs_pkg (m : List CohMsg) (s : State) : (setMsgs m s).pkg = s.pkg := rfl
@[simp] theorem setMsgs_diesHeld (m : List CohMsg) (s : State) : (setMsgs m s).diesHeld = s.diesHeld := rfl
@[simp] theorem setMsgs_settFail (m : List CohMsg) (s : State) : (setMsgs m s).settFail = s.settFail := rfl
@[simp] theorem setMsgs_settStalled (m : List CohMsg) (s : State) : (setMsgs m s).settStalled = s.settStalled := rfl
@[simp] theorem setMsgs_mem (m : List CohMsg) (s : State) : (setMsgs m s).mem = s.mem := rfl
@[simp] theorem setMsgs_xlat (m : List CohMsg) (s : State) : (setMsgs m s).xlat = s.xlat := rfl
@[simp] theorem setMsgs_reqs (m : List CohMsg) (s : State) : (setMsgs m s).reqs = s.reqs := rfl
@[simp] theorem setMsgs_nextReq (m : List CohMsg) (s : State) : (setMsgs m s).nextReq = s.nextReq := rfl
@[simp] theorem setMsgs_medlars (m : List CohMsg) (s : State) : (setMsgs m s).medlars = s.medlars := rfl
@[simp] theorem setMsgs_grp (m : List CohMsg) (s : State) : (setMsgs m s).grp = s.grp := rfl
@[simp] theorem setMsgs_faces (m : List CohMsg) (s : State) : (setMsgs m s).faces = s.faces := rfl
@[simp] theorem setMsgs_brambles (m : List CohMsg) (s : State) : (setMsgs m s).brambles = s.brambles := rfl
@[simp] theorem setMsgs_engines (m : List CohMsg) (s : State) : (setMsgs m s).engines = s.engines := rfl
@[simp] theorem setMsgs_hauls (m : List CohMsg) (s : State) : (setMsgs m s).hauls = s.hauls := rfl
@[simp] theorem setMsgs_press (m : List CohMsg) (s : State) : (setMsgs m s).press = s.press := rfl
@[simp] theorem setMsgs_queues (m : List CohMsg) (s : State) : (setMsgs m s).queues = s.queues := rfl
@[simp] theorem setMsgs_jobs (m : List CohMsg) (s : State) : (setMsgs m s).jobs = s.jobs := rfl
@[simp] theorem setMsgs_faultq (m : List CohMsg) (s : State) : (setMsgs m s).faultq = s.faultq := rfl
@[simp] theorem setMsgs_links (m : List CohMsg) (s : State) : (setMsgs m s).links = s.links := rfl
@[simp] theorem setMsgs_weigh (m : List CohMsg) (s : State) : (setMsgs m s).weigh = s.weigh := rfl
@[simp] theorem setMsgs_out (m : List CohMsg) (s : State) : (setMsgs m s).out = s.out := rfl
@[simp] theorem setMsgs_freeN (m : List CohMsg) (s : State) : (setMsgs m s).freeN = s.freeN := rfl
@[simp] theorem setMsgs_pending (m : List CohMsg) (s : State) : (setMsgs m s).pending = s.pending := rfl

@[simp] theorem setTxn_board (l : Nat) (t : CohTxn) (s : State) : (setTxn l t s).board = s.board := rfl
@[simp] theorem setTxn_part (l : Nat) (t : CohTxn) (s : State) : (setTxn l t s).part = s.part := rfl
@[simp] theorem setTxn_dict (l : Nat) (t : CohTxn) (s : State) : (setTxn l t s).dict = s.dict := rfl
@[simp] theorem setTxn_hdp (l : Nat) (t : CohTxn) (s : State) : (setTxn l t s).hdp = s.hdp := rfl
@[simp] theorem setTxn_mgmt (l : Nat) (t : CohTxn) (s : State) : (setTxn l t s).mgmt = s.mgmt := rfl
@[simp] theorem setTxn_ev (l : Nat) (t : CohTxn) (s : State) : (setTxn l t s).ev = s.ev := rfl
@[simp] theorem setTxn_snap (l : Nat) (t : CohTxn) (s : State) : (setTxn l t s).snap = s.snap := rfl
@[simp] theorem setTxn_time (l : Nat) (t : CohTxn) (s : State) : (setTxn l t s).time = s.time := rfl
@[simp] theorem setTxn_boot (l : Nat) (t : CohTxn) (s : State) : (setTxn l t s).boot = s.boot := rfl
@[simp] theorem setTxn_pkg (l : Nat) (t : CohTxn) (s : State) : (setTxn l t s).pkg = s.pkg := rfl
@[simp] theorem setTxn_diesHeld (l : Nat) (t : CohTxn) (s : State) : (setTxn l t s).diesHeld = s.diesHeld := rfl
@[simp] theorem setTxn_settFail (l : Nat) (t : CohTxn) (s : State) : (setTxn l t s).settFail = s.settFail := rfl
@[simp] theorem setTxn_settStalled (l : Nat) (t : CohTxn) (s : State) : (setTxn l t s).settStalled = s.settStalled := rfl
@[simp] theorem setTxn_mem (l : Nat) (t : CohTxn) (s : State) : (setTxn l t s).mem = s.mem := rfl
@[simp] theorem setTxn_xlat (l : Nat) (t : CohTxn) (s : State) : (setTxn l t s).xlat = s.xlat := rfl
@[simp] theorem setTxn_reqs (l : Nat) (t : CohTxn) (s : State) : (setTxn l t s).reqs = s.reqs := rfl
@[simp] theorem setTxn_nextReq (l : Nat) (t : CohTxn) (s : State) : (setTxn l t s).nextReq = s.nextReq := rfl
@[simp] theorem setTxn_medlars (l : Nat) (t : CohTxn) (s : State) : (setTxn l t s).medlars = s.medlars := rfl
@[simp] theorem setTxn_grp (l : Nat) (t : CohTxn) (s : State) : (setTxn l t s).grp = s.grp := rfl
@[simp] theorem setTxn_faces (l : Nat) (t : CohTxn) (s : State) : (setTxn l t s).faces = s.faces := rfl
@[simp] theorem setTxn_brambles (l : Nat) (t : CohTxn) (s : State) : (setTxn l t s).brambles = s.brambles := rfl
@[simp] theorem setTxn_engines (l : Nat) (t : CohTxn) (s : State) : (setTxn l t s).engines = s.engines := rfl
@[simp] theorem setTxn_hauls (l : Nat) (t : CohTxn) (s : State) : (setTxn l t s).hauls = s.hauls := rfl
@[simp] theorem setTxn_press (l : Nat) (t : CohTxn) (s : State) : (setTxn l t s).press = s.press := rfl
@[simp] theorem setTxn_queues (l : Nat) (t : CohTxn) (s : State) : (setTxn l t s).queues = s.queues := rfl
@[simp] theorem setTxn_jobs (l : Nat) (t : CohTxn) (s : State) : (setTxn l t s).jobs = s.jobs := rfl
@[simp] theorem setTxn_faultq (l : Nat) (t : CohTxn) (s : State) : (setTxn l t s).faultq = s.faultq := rfl
@[simp] theorem setTxn_links (l : Nat) (t : CohTxn) (s : State) : (setTxn l t s).links = s.links := rfl
@[simp] theorem setTxn_weigh (l : Nat) (t : CohTxn) (s : State) : (setTxn l t s).weigh = s.weigh := rfl
@[simp] theorem setTxn_out (l : Nat) (t : CohTxn) (s : State) : (setTxn l t s).out = s.out := rfl
@[simp] theorem setTxn_freeN (l : Nat) (t : CohTxn) (s : State) : (setTxn l t s).freeN = s.freeN := rfl
@[simp] theorem setTxn_pending (l : Nat) (t : CohTxn) (s : State) : (setTxn l t s).pending = s.pending := rfl

@[simp] theorem dropCohTxn_board (l : Nat) (s : State) : (dropCohTxn l s).board = s.board := rfl
@[simp] theorem dropCohTxn_part (l : Nat) (s : State) : (dropCohTxn l s).part = s.part := rfl
@[simp] theorem dropCohTxn_dict (l : Nat) (s : State) : (dropCohTxn l s).dict = s.dict := rfl
@[simp] theorem dropCohTxn_hdp (l : Nat) (s : State) : (dropCohTxn l s).hdp = s.hdp := rfl
@[simp] theorem dropCohTxn_mgmt (l : Nat) (s : State) : (dropCohTxn l s).mgmt = s.mgmt := rfl
@[simp] theorem dropCohTxn_ev (l : Nat) (s : State) : (dropCohTxn l s).ev = s.ev := rfl
@[simp] theorem dropCohTxn_snap (l : Nat) (s : State) : (dropCohTxn l s).snap = s.snap := rfl
@[simp] theorem dropCohTxn_time (l : Nat) (s : State) : (dropCohTxn l s).time = s.time := rfl
@[simp] theorem dropCohTxn_boot (l : Nat) (s : State) : (dropCohTxn l s).boot = s.boot := rfl
@[simp] theorem dropCohTxn_pkg (l : Nat) (s : State) : (dropCohTxn l s).pkg = s.pkg := rfl
@[simp] theorem dropCohTxn_diesHeld (l : Nat) (s : State) : (dropCohTxn l s).diesHeld = s.diesHeld := rfl
@[simp] theorem dropCohTxn_settFail (l : Nat) (s : State) : (dropCohTxn l s).settFail = s.settFail := rfl
@[simp] theorem dropCohTxn_settStalled (l : Nat) (s : State) : (dropCohTxn l s).settStalled = s.settStalled := rfl
@[simp] theorem dropCohTxn_mem (l : Nat) (s : State) : (dropCohTxn l s).mem = s.mem := rfl
@[simp] theorem dropCohTxn_xlat (l : Nat) (s : State) : (dropCohTxn l s).xlat = s.xlat := rfl
@[simp] theorem dropCohTxn_reqs (l : Nat) (s : State) : (dropCohTxn l s).reqs = s.reqs := rfl
@[simp] theorem dropCohTxn_nextReq (l : Nat) (s : State) : (dropCohTxn l s).nextReq = s.nextReq := rfl
@[simp] theorem dropCohTxn_medlars (l : Nat) (s : State) : (dropCohTxn l s).medlars = s.medlars := rfl
@[simp] theorem dropCohTxn_grp (l : Nat) (s : State) : (dropCohTxn l s).grp = s.grp := rfl
@[simp] theorem dropCohTxn_faces (l : Nat) (s : State) : (dropCohTxn l s).faces = s.faces := rfl
@[simp] theorem dropCohTxn_brambles (l : Nat) (s : State) : (dropCohTxn l s).brambles = s.brambles := rfl
@[simp] theorem dropCohTxn_engines (l : Nat) (s : State) : (dropCohTxn l s).engines = s.engines := rfl
@[simp] theorem dropCohTxn_hauls (l : Nat) (s : State) : (dropCohTxn l s).hauls = s.hauls := rfl
@[simp] theorem dropCohTxn_press (l : Nat) (s : State) : (dropCohTxn l s).press = s.press := rfl
@[simp] theorem dropCohTxn_queues (l : Nat) (s : State) : (dropCohTxn l s).queues = s.queues := rfl
@[simp] theorem dropCohTxn_jobs (l : Nat) (s : State) : (dropCohTxn l s).jobs = s.jobs := rfl
@[simp] theorem dropCohTxn_faultq (l : Nat) (s : State) : (dropCohTxn l s).faultq = s.faultq := rfl
@[simp] theorem dropCohTxn_links (l : Nat) (s : State) : (dropCohTxn l s).links = s.links := rfl
@[simp] theorem dropCohTxn_weigh (l : Nat) (s : State) : (dropCohTxn l s).weigh = s.weigh := rfl
@[simp] theorem dropCohTxn_out (l : Nat) (s : State) : (dropCohTxn l s).out = s.out := rfl
@[simp] theorem dropCohTxn_freeN (l : Nat) (s : State) : (dropCohTxn l s).freeN = s.freeN := rfl
@[simp] theorem dropCohTxn_pending (l : Nat) (s : State) : (dropCohTxn l s).pending = s.pending := rfl

@[simp] theorem setGroup_board (g : Nat) (x : Group) (s : State) : (setGroup g x s).board = s.board := rfl
@[simp] theorem setGroup_part (g : Nat) (x : Group) (s : State) : (setGroup g x s).part = s.part := rfl
@[simp] theorem setGroup_dict (g : Nat) (x : Group) (s : State) : (setGroup g x s).dict = s.dict := rfl
@[simp] theorem setGroup_hdp (g : Nat) (x : Group) (s : State) : (setGroup g x s).hdp = s.hdp := rfl
@[simp] theorem setGroup_mgmt (g : Nat) (x : Group) (s : State) : (setGroup g x s).mgmt = s.mgmt := rfl
@[simp] theorem setGroup_ev (g : Nat) (x : Group) (s : State) : (setGroup g x s).ev = s.ev := rfl
@[simp] theorem setGroup_snap (g : Nat) (x : Group) (s : State) : (setGroup g x s).snap = s.snap := rfl
@[simp] theorem setGroup_time (g : Nat) (x : Group) (s : State) : (setGroup g x s).time = s.time := rfl
@[simp] theorem setGroup_boot (g : Nat) (x : Group) (s : State) : (setGroup g x s).boot = s.boot := rfl
@[simp] theorem setGroup_pkg (g : Nat) (x : Group) (s : State) : (setGroup g x s).pkg = s.pkg := rfl
@[simp] theorem setGroup_diesHeld (g : Nat) (x : Group) (s : State) : (setGroup g x s).diesHeld = s.diesHeld := rfl
@[simp] theorem setGroup_settFail (g : Nat) (x : Group) (s : State) : (setGroup g x s).settFail = s.settFail := rfl
@[simp] theorem setGroup_settStalled (g : Nat) (x : Group) (s : State) : (setGroup g x s).settStalled = s.settStalled := rfl
@[simp] theorem setGroup_mem (g : Nat) (x : Group) (s : State) : (setGroup g x s).mem = s.mem := rfl
@[simp] theorem setGroup_xlat (g : Nat) (x : Group) (s : State) : (setGroup g x s).xlat = s.xlat := rfl
@[simp] theorem setGroup_reqs (g : Nat) (x : Group) (s : State) : (setGroup g x s).reqs = s.reqs := rfl
@[simp] theorem setGroup_nextReq (g : Nat) (x : Group) (s : State) : (setGroup g x s).nextReq = s.nextReq := rfl
@[simp] theorem setGroup_medlars (g : Nat) (x : Group) (s : State) : (setGroup g x s).medlars = s.medlars := rfl
@[simp] theorem setGroup_coh (g : Nat) (x : Group) (s : State) : (setGroup g x s).coh = s.coh := rfl
@[simp] theorem setGroup_faces (g : Nat) (x : Group) (s : State) : (setGroup g x s).faces = s.faces := rfl
@[simp] theorem setGroup_brambles (g : Nat) (x : Group) (s : State) : (setGroup g x s).brambles = s.brambles := rfl
@[simp] theorem setGroup_engines (g : Nat) (x : Group) (s : State) : (setGroup g x s).engines = s.engines := rfl
@[simp] theorem setGroup_hauls (g : Nat) (x : Group) (s : State) : (setGroup g x s).hauls = s.hauls := rfl
@[simp] theorem setGroup_press (g : Nat) (x : Group) (s : State) : (setGroup g x s).press = s.press := rfl
@[simp] theorem setGroup_queues (g : Nat) (x : Group) (s : State) : (setGroup g x s).queues = s.queues := rfl
@[simp] theorem setGroup_jobs (g : Nat) (x : Group) (s : State) : (setGroup g x s).jobs = s.jobs := rfl
@[simp] theorem setGroup_faultq (g : Nat) (x : Group) (s : State) : (setGroup g x s).faultq = s.faultq := rfl
@[simp] theorem setGroup_links (g : Nat) (x : Group) (s : State) : (setGroup g x s).links = s.links := rfl
@[simp] theorem setGroup_weigh (g : Nat) (x : Group) (s : State) : (setGroup g x s).weigh = s.weigh := rfl
@[simp] theorem setGroup_out (g : Nat) (x : Group) (s : State) : (setGroup g x s).out = s.out := rfl
@[simp] theorem setGroup_freeN (g : Nat) (x : Group) (s : State) : (setGroup g x s).freeN = s.freeN := rfl
@[simp] theorem setGroup_pending (g : Nat) (x : Group) (s : State) : (setGroup g x s).pending = s.pending := rfl

@[simp] theorem setGCore_board (k : Nat) (x : GCore) (s : State) : (setGCore k x s).board = s.board := rfl
@[simp] theorem setGCore_part (k : Nat) (x : GCore) (s : State) : (setGCore k x s).part = s.part := rfl
@[simp] theorem setGCore_dict (k : Nat) (x : GCore) (s : State) : (setGCore k x s).dict = s.dict := rfl
@[simp] theorem setGCore_hdp (k : Nat) (x : GCore) (s : State) : (setGCore k x s).hdp = s.hdp := rfl
@[simp] theorem setGCore_mgmt (k : Nat) (x : GCore) (s : State) : (setGCore k x s).mgmt = s.mgmt := rfl
@[simp] theorem setGCore_ev (k : Nat) (x : GCore) (s : State) : (setGCore k x s).ev = s.ev := rfl
@[simp] theorem setGCore_snap (k : Nat) (x : GCore) (s : State) : (setGCore k x s).snap = s.snap := rfl
@[simp] theorem setGCore_time (k : Nat) (x : GCore) (s : State) : (setGCore k x s).time = s.time := rfl
@[simp] theorem setGCore_boot (k : Nat) (x : GCore) (s : State) : (setGCore k x s).boot = s.boot := rfl
@[simp] theorem setGCore_pkg (k : Nat) (x : GCore) (s : State) : (setGCore k x s).pkg = s.pkg := rfl
@[simp] theorem setGCore_diesHeld (k : Nat) (x : GCore) (s : State) : (setGCore k x s).diesHeld = s.diesHeld := rfl
@[simp] theorem setGCore_settFail (k : Nat) (x : GCore) (s : State) : (setGCore k x s).settFail = s.settFail := rfl
@[simp] theorem setGCore_settStalled (k : Nat) (x : GCore) (s : State) : (setGCore k x s).settStalled = s.settStalled := rfl
@[simp] theorem setGCore_mem (k : Nat) (x : GCore) (s : State) : (setGCore k x s).mem = s.mem := rfl
@[simp] theorem setGCore_xlat (k : Nat) (x : GCore) (s : State) : (setGCore k x s).xlat = s.xlat := rfl
@[simp] theorem setGCore_reqs (k : Nat) (x : GCore) (s : State) : (setGCore k x s).reqs = s.reqs := rfl
@[simp] theorem setGCore_nextReq (k : Nat) (x : GCore) (s : State) : (setGCore k x s).nextReq = s.nextReq := rfl
@[simp] theorem setGCore_medlars (k : Nat) (x : GCore) (s : State) : (setGCore k x s).medlars = s.medlars := rfl
@[simp] theorem setGCore_coh (k : Nat) (x : GCore) (s : State) : (setGCore k x s).coh = s.coh := rfl
@[simp] theorem setGCore_faces (k : Nat) (x : GCore) (s : State) : (setGCore k x s).faces = s.faces := rfl
@[simp] theorem setGCore_brambles (k : Nat) (x : GCore) (s : State) : (setGCore k x s).brambles = s.brambles := rfl
@[simp] theorem setGCore_engines (k : Nat) (x : GCore) (s : State) : (setGCore k x s).engines = s.engines := rfl
@[simp] theorem setGCore_hauls (k : Nat) (x : GCore) (s : State) : (setGCore k x s).hauls = s.hauls := rfl
@[simp] theorem setGCore_press (k : Nat) (x : GCore) (s : State) : (setGCore k x s).press = s.press := rfl
@[simp] theorem setGCore_queues (k : Nat) (x : GCore) (s : State) : (setGCore k x s).queues = s.queues := rfl
@[simp] theorem setGCore_jobs (k : Nat) (x : GCore) (s : State) : (setGCore k x s).jobs = s.jobs := rfl
@[simp] theorem setGCore_faultq (k : Nat) (x : GCore) (s : State) : (setGCore k x s).faultq = s.faultq := rfl
@[simp] theorem setGCore_links (k : Nat) (x : GCore) (s : State) : (setGCore k x s).links = s.links := rfl
@[simp] theorem setGCore_weigh (k : Nat) (x : GCore) (s : State) : (setGCore k x s).weigh = s.weigh := rfl
@[simp] theorem setGCore_out (k : Nat) (x : GCore) (s : State) : (setGCore k x s).out = s.out := rfl
@[simp] theorem setGCore_freeN (k : Nat) (x : GCore) (s : State) : (setGCore k x s).freeN = s.freeN := rfl
@[simp] theorem setGCore_pending (k : Nat) (x : GCore) (s : State) : (setGCore k x s).pending = s.pending := rfl

@[simp] theorem setLaunch_board (k : Nat) (l : Launch) (s : State) : (setLaunch k l s).board = s.board := rfl
@[simp] theorem setLaunch_part (k : Nat) (l : Launch) (s : State) : (setLaunch k l s).part = s.part := rfl
@[simp] theorem setLaunch_dict (k : Nat) (l : Launch) (s : State) : (setLaunch k l s).dict = s.dict := rfl
@[simp] theorem setLaunch_hdp (k : Nat) (l : Launch) (s : State) : (setLaunch k l s).hdp = s.hdp := rfl
@[simp] theorem setLaunch_mgmt (k : Nat) (l : Launch) (s : State) : (setLaunch k l s).mgmt = s.mgmt := rfl
@[simp] theorem setLaunch_ev (k : Nat) (l : Launch) (s : State) : (setLaunch k l s).ev = s.ev := rfl
@[simp] theorem setLaunch_snap (k : Nat) (l : Launch) (s : State) : (setLaunch k l s).snap = s.snap := rfl
@[simp] theorem setLaunch_time (k : Nat) (l : Launch) (s : State) : (setLaunch k l s).time = s.time := rfl
@[simp] theorem setLaunch_boot (k : Nat) (l : Launch) (s : State) : (setLaunch k l s).boot = s.boot := rfl
@[simp] theorem setLaunch_pkg (k : Nat) (l : Launch) (s : State) : (setLaunch k l s).pkg = s.pkg := rfl
@[simp] theorem setLaunch_diesHeld (k : Nat) (l : Launch) (s : State) : (setLaunch k l s).diesHeld = s.diesHeld := rfl
@[simp] theorem setLaunch_settFail (k : Nat) (l : Launch) (s : State) : (setLaunch k l s).settFail = s.settFail := rfl
@[simp] theorem setLaunch_settStalled (k : Nat) (l : Launch) (s : State) : (setLaunch k l s).settStalled = s.settStalled := rfl
@[simp] theorem setLaunch_mem (k : Nat) (l : Launch) (s : State) : (setLaunch k l s).mem = s.mem := rfl
@[simp] theorem setLaunch_xlat (k : Nat) (l : Launch) (s : State) : (setLaunch k l s).xlat = s.xlat := rfl
@[simp] theorem setLaunch_reqs (k : Nat) (l : Launch) (s : State) : (setLaunch k l s).reqs = s.reqs := rfl
@[simp] theorem setLaunch_nextReq (k : Nat) (l : Launch) (s : State) : (setLaunch k l s).nextReq = s.nextReq := rfl
@[simp] theorem setLaunch_medlars (k : Nat) (l : Launch) (s : State) : (setLaunch k l s).medlars = s.medlars := rfl
@[simp] theorem setLaunch_coh (k : Nat) (l : Launch) (s : State) : (setLaunch k l s).coh = s.coh := rfl
@[simp] theorem setLaunch_faces (k : Nat) (l : Launch) (s : State) : (setLaunch k l s).faces = s.faces := rfl
@[simp] theorem setLaunch_brambles (k : Nat) (l : Launch) (s : State) : (setLaunch k l s).brambles = s.brambles := rfl
@[simp] theorem setLaunch_engines (k : Nat) (l : Launch) (s : State) : (setLaunch k l s).engines = s.engines := rfl
@[simp] theorem setLaunch_hauls (k : Nat) (l : Launch) (s : State) : (setLaunch k l s).hauls = s.hauls := rfl
@[simp] theorem setLaunch_press (k : Nat) (l : Launch) (s : State) : (setLaunch k l s).press = s.press := rfl
@[simp] theorem setLaunch_queues (k : Nat) (l : Launch) (s : State) : (setLaunch k l s).queues = s.queues := rfl
@[simp] theorem setLaunch_jobs (k : Nat) (l : Launch) (s : State) : (setLaunch k l s).jobs = s.jobs := rfl
@[simp] theorem setLaunch_faultq (k : Nat) (l : Launch) (s : State) : (setLaunch k l s).faultq = s.faultq := rfl
@[simp] theorem setLaunch_links (k : Nat) (l : Launch) (s : State) : (setLaunch k l s).links = s.links := rfl
@[simp] theorem setLaunch_weigh (k : Nat) (l : Launch) (s : State) : (setLaunch k l s).weigh = s.weigh := rfl
@[simp] theorem setLaunch_out (k : Nat) (l : Launch) (s : State) : (setLaunch k l s).out = s.out := rfl
@[simp] theorem setLaunch_freeN (k : Nat) (l : Launch) (s : State) : (setLaunch k l s).freeN = s.freeN := rfl
@[simp] theorem setLaunch_pending (k : Nat) (l : Launch) (s : State) : (setLaunch k l s).pending = s.pending := rfl

@[simp] theorem setQueue_board (q : Nat) (x : Queue) (s : State) : (setQueue q x s).board = s.board := rfl
@[simp] theorem setQueue_part (q : Nat) (x : Queue) (s : State) : (setQueue q x s).part = s.part := rfl
@[simp] theorem setQueue_dict (q : Nat) (x : Queue) (s : State) : (setQueue q x s).dict = s.dict := rfl
@[simp] theorem setQueue_hdp (q : Nat) (x : Queue) (s : State) : (setQueue q x s).hdp = s.hdp := rfl
@[simp] theorem setQueue_mgmt (q : Nat) (x : Queue) (s : State) : (setQueue q x s).mgmt = s.mgmt := rfl
@[simp] theorem setQueue_ev (q : Nat) (x : Queue) (s : State) : (setQueue q x s).ev = s.ev := rfl
@[simp] theorem setQueue_snap (q : Nat) (x : Queue) (s : State) : (setQueue q x s).snap = s.snap := rfl
@[simp] theorem setQueue_time (q : Nat) (x : Queue) (s : State) : (setQueue q x s).time = s.time := rfl
@[simp] theorem setQueue_boot (q : Nat) (x : Queue) (s : State) : (setQueue q x s).boot = s.boot := rfl
@[simp] theorem setQueue_pkg (q : Nat) (x : Queue) (s : State) : (setQueue q x s).pkg = s.pkg := rfl
@[simp] theorem setQueue_diesHeld (q : Nat) (x : Queue) (s : State) : (setQueue q x s).diesHeld = s.diesHeld := rfl
@[simp] theorem setQueue_settFail (q : Nat) (x : Queue) (s : State) : (setQueue q x s).settFail = s.settFail := rfl
@[simp] theorem setQueue_settStalled (q : Nat) (x : Queue) (s : State) : (setQueue q x s).settStalled = s.settStalled := rfl
@[simp] theorem setQueue_mem (q : Nat) (x : Queue) (s : State) : (setQueue q x s).mem = s.mem := rfl
@[simp] theorem setQueue_xlat (q : Nat) (x : Queue) (s : State) : (setQueue q x s).xlat = s.xlat := rfl
@[simp] theorem setQueue_reqs (q : Nat) (x : Queue) (s : State) : (setQueue q x s).reqs = s.reqs := rfl
@[simp] theorem setQueue_nextReq (q : Nat) (x : Queue) (s : State) : (setQueue q x s).nextReq = s.nextReq := rfl
@[simp] theorem setQueue_medlars (q : Nat) (x : Queue) (s : State) : (setQueue q x s).medlars = s.medlars := rfl
@[simp] theorem setQueue_coh (q : Nat) (x : Queue) (s : State) : (setQueue q x s).coh = s.coh := rfl
@[simp] theorem setQueue_grp (q : Nat) (x : Queue) (s : State) : (setQueue q x s).grp = s.grp := rfl
@[simp] theorem setQueue_faces (q : Nat) (x : Queue) (s : State) : (setQueue q x s).faces = s.faces := rfl
@[simp] theorem setQueue_brambles (q : Nat) (x : Queue) (s : State) : (setQueue q x s).brambles = s.brambles := rfl
@[simp] theorem setQueue_engines (q : Nat) (x : Queue) (s : State) : (setQueue q x s).engines = s.engines := rfl
@[simp] theorem setQueue_hauls (q : Nat) (x : Queue) (s : State) : (setQueue q x s).hauls = s.hauls := rfl
@[simp] theorem setQueue_press (q : Nat) (x : Queue) (s : State) : (setQueue q x s).press = s.press := rfl
@[simp] theorem setQueue_jobs (q : Nat) (x : Queue) (s : State) : (setQueue q x s).jobs = s.jobs := rfl
@[simp] theorem setQueue_faultq (q : Nat) (x : Queue) (s : State) : (setQueue q x s).faultq = s.faultq := rfl
@[simp] theorem setQueue_links (q : Nat) (x : Queue) (s : State) : (setQueue q x s).links = s.links := rfl
@[simp] theorem setQueue_weigh (q : Nat) (x : Queue) (s : State) : (setQueue q x s).weigh = s.weigh := rfl
@[simp] theorem setQueue_out (q : Nat) (x : Queue) (s : State) : (setQueue q x s).out = s.out := rfl
@[simp] theorem setQueue_freeN (q : Nat) (x : Queue) (s : State) : (setQueue q x s).freeN = s.freeN := rfl
@[simp] theorem setQueue_pending (q : Nat) (x : Queue) (s : State) : (setQueue q x s).pending = s.pending := rfl

@[simp] theorem setJob_board (k : Nat) (j : Job) (s : State) : (setJob k j s).board = s.board := rfl
@[simp] theorem setJob_part (k : Nat) (j : Job) (s : State) : (setJob k j s).part = s.part := rfl
@[simp] theorem setJob_dict (k : Nat) (j : Job) (s : State) : (setJob k j s).dict = s.dict := rfl
@[simp] theorem setJob_hdp (k : Nat) (j : Job) (s : State) : (setJob k j s).hdp = s.hdp := rfl
@[simp] theorem setJob_mgmt (k : Nat) (j : Job) (s : State) : (setJob k j s).mgmt = s.mgmt := rfl
@[simp] theorem setJob_ev (k : Nat) (j : Job) (s : State) : (setJob k j s).ev = s.ev := rfl
@[simp] theorem setJob_snap (k : Nat) (j : Job) (s : State) : (setJob k j s).snap = s.snap := rfl
@[simp] theorem setJob_time (k : Nat) (j : Job) (s : State) : (setJob k j s).time = s.time := rfl
@[simp] theorem setJob_boot (k : Nat) (j : Job) (s : State) : (setJob k j s).boot = s.boot := rfl
@[simp] theorem setJob_pkg (k : Nat) (j : Job) (s : State) : (setJob k j s).pkg = s.pkg := rfl
@[simp] theorem setJob_diesHeld (k : Nat) (j : Job) (s : State) : (setJob k j s).diesHeld = s.diesHeld := rfl
@[simp] theorem setJob_settFail (k : Nat) (j : Job) (s : State) : (setJob k j s).settFail = s.settFail := rfl
@[simp] theorem setJob_settStalled (k : Nat) (j : Job) (s : State) : (setJob k j s).settStalled = s.settStalled := rfl
@[simp] theorem setJob_mem (k : Nat) (j : Job) (s : State) : (setJob k j s).mem = s.mem := rfl
@[simp] theorem setJob_xlat (k : Nat) (j : Job) (s : State) : (setJob k j s).xlat = s.xlat := rfl
@[simp] theorem setJob_reqs (k : Nat) (j : Job) (s : State) : (setJob k j s).reqs = s.reqs := rfl
@[simp] theorem setJob_nextReq (k : Nat) (j : Job) (s : State) : (setJob k j s).nextReq = s.nextReq := rfl
@[simp] theorem setJob_medlars (k : Nat) (j : Job) (s : State) : (setJob k j s).medlars = s.medlars := rfl
@[simp] theorem setJob_coh (k : Nat) (j : Job) (s : State) : (setJob k j s).coh = s.coh := rfl
@[simp] theorem setJob_grp (k : Nat) (j : Job) (s : State) : (setJob k j s).grp = s.grp := rfl
@[simp] theorem setJob_faces (k : Nat) (j : Job) (s : State) : (setJob k j s).faces = s.faces := rfl
@[simp] theorem setJob_brambles (k : Nat) (j : Job) (s : State) : (setJob k j s).brambles = s.brambles := rfl
@[simp] theorem setJob_engines (k : Nat) (j : Job) (s : State) : (setJob k j s).engines = s.engines := rfl
@[simp] theorem setJob_hauls (k : Nat) (j : Job) (s : State) : (setJob k j s).hauls = s.hauls := rfl
@[simp] theorem setJob_press (k : Nat) (j : Job) (s : State) : (setJob k j s).press = s.press := rfl
@[simp] theorem setJob_queues (k : Nat) (j : Job) (s : State) : (setJob k j s).queues = s.queues := rfl
@[simp] theorem setJob_faultq (k : Nat) (j : Job) (s : State) : (setJob k j s).faultq = s.faultq := rfl
@[simp] theorem setJob_links (k : Nat) (j : Job) (s : State) : (setJob k j s).links = s.links := rfl
@[simp] theorem setJob_weigh (k : Nat) (j : Job) (s : State) : (setJob k j s).weigh = s.weigh := rfl
@[simp] theorem setJob_out (k : Nat) (j : Job) (s : State) : (setJob k j s).out = s.out := rfl
@[simp] theorem setJob_freeN (k : Nat) (j : Job) (s : State) : (setJob k j s).freeN = s.freeN := rfl
@[simp] theorem setJob_pending (k : Nat) (j : Job) (s : State) : (setJob k j s).pending = s.pending := rfl

@[simp] theorem setPort_board (p : Nat) (x : Port) (s : State) : (setPort p x s).board = s.board := rfl
@[simp] theorem setPort_part (p : Nat) (x : Port) (s : State) : (setPort p x s).part = s.part := rfl
@[simp] theorem setPort_dict (p : Nat) (x : Port) (s : State) : (setPort p x s).dict = s.dict := rfl
@[simp] theorem setPort_hdp (p : Nat) (x : Port) (s : State) : (setPort p x s).hdp = s.hdp := rfl
@[simp] theorem setPort_mgmt (p : Nat) (x : Port) (s : State) : (setPort p x s).mgmt = s.mgmt := rfl
@[simp] theorem setPort_ev (p : Nat) (x : Port) (s : State) : (setPort p x s).ev = s.ev := rfl
@[simp] theorem setPort_snap (p : Nat) (x : Port) (s : State) : (setPort p x s).snap = s.snap := rfl
@[simp] theorem setPort_time (p : Nat) (x : Port) (s : State) : (setPort p x s).time = s.time := rfl
@[simp] theorem setPort_boot (p : Nat) (x : Port) (s : State) : (setPort p x s).boot = s.boot := rfl
@[simp] theorem setPort_pkg (p : Nat) (x : Port) (s : State) : (setPort p x s).pkg = s.pkg := rfl
@[simp] theorem setPort_diesHeld (p : Nat) (x : Port) (s : State) : (setPort p x s).diesHeld = s.diesHeld := rfl
@[simp] theorem setPort_settFail (p : Nat) (x : Port) (s : State) : (setPort p x s).settFail = s.settFail := rfl
@[simp] theorem setPort_settStalled (p : Nat) (x : Port) (s : State) : (setPort p x s).settStalled = s.settStalled := rfl
@[simp] theorem setPort_mem (p : Nat) (x : Port) (s : State) : (setPort p x s).mem = s.mem := rfl
@[simp] theorem setPort_xlat (p : Nat) (x : Port) (s : State) : (setPort p x s).xlat = s.xlat := rfl
@[simp] theorem setPort_reqs (p : Nat) (x : Port) (s : State) : (setPort p x s).reqs = s.reqs := rfl
@[simp] theorem setPort_nextReq (p : Nat) (x : Port) (s : State) : (setPort p x s).nextReq = s.nextReq := rfl
@[simp] theorem setPort_medlars (p : Nat) (x : Port) (s : State) : (setPort p x s).medlars = s.medlars := rfl
@[simp] theorem setPort_coh (p : Nat) (x : Port) (s : State) : (setPort p x s).coh = s.coh := rfl
@[simp] theorem setPort_grp (p : Nat) (x : Port) (s : State) : (setPort p x s).grp = s.grp := rfl
@[simp] theorem setPort_faces (p : Nat) (x : Port) (s : State) : (setPort p x s).faces = s.faces := rfl
@[simp] theorem setPort_brambles (p : Nat) (x : Port) (s : State) : (setPort p x s).brambles = s.brambles := rfl
@[simp] theorem setPort_engines (p : Nat) (x : Port) (s : State) : (setPort p x s).engines = s.engines := rfl
@[simp] theorem setPort_hauls (p : Nat) (x : Port) (s : State) : (setPort p x s).hauls = s.hauls := rfl
@[simp] theorem setPort_press (p : Nat) (x : Port) (s : State) : (setPort p x s).press = s.press := rfl
@[simp] theorem setPort_queues (p : Nat) (x : Port) (s : State) : (setPort p x s).queues = s.queues := rfl
@[simp] theorem setPort_jobs (p : Nat) (x : Port) (s : State) : (setPort p x s).jobs = s.jobs := rfl
@[simp] theorem setPort_faultq (p : Nat) (x : Port) (s : State) : (setPort p x s).faultq = s.faultq := rfl
@[simp] theorem setPort_weigh (p : Nat) (x : Port) (s : State) : (setPort p x s).weigh = s.weigh := rfl
@[simp] theorem setPort_out (p : Nat) (x : Port) (s : State) : (setPort p x s).out = s.out := rfl
@[simp] theorem setPort_freeN (p : Nat) (x : Port) (s : State) : (setPort p x s).freeN = s.freeN := rfl
@[simp] theorem setPort_pending (p : Nat) (x : Port) (s : State) : (setPort p x s).pending = s.pending := rfl

@[simp] theorem setConn_board (c : Nat) (k : Conn) (s : State) : (setConn c k s).board = s.board := rfl
@[simp] theorem setConn_part (c : Nat) (k : Conn) (s : State) : (setConn c k s).part = s.part := rfl
@[simp] theorem setConn_dict (c : Nat) (k : Conn) (s : State) : (setConn c k s).dict = s.dict := rfl
@[simp] theorem setConn_hdp (c : Nat) (k : Conn) (s : State) : (setConn c k s).hdp = s.hdp := rfl
@[simp] theorem setConn_mgmt (c : Nat) (k : Conn) (s : State) : (setConn c k s).mgmt = s.mgmt := rfl
@[simp] theorem setConn_ev (c : Nat) (k : Conn) (s : State) : (setConn c k s).ev = s.ev := rfl
@[simp] theorem setConn_snap (c : Nat) (k : Conn) (s : State) : (setConn c k s).snap = s.snap := rfl
@[simp] theorem setConn_time (c : Nat) (k : Conn) (s : State) : (setConn c k s).time = s.time := rfl
@[simp] theorem setConn_boot (c : Nat) (k : Conn) (s : State) : (setConn c k s).boot = s.boot := rfl
@[simp] theorem setConn_pkg (c : Nat) (k : Conn) (s : State) : (setConn c k s).pkg = s.pkg := rfl
@[simp] theorem setConn_diesHeld (c : Nat) (k : Conn) (s : State) : (setConn c k s).diesHeld = s.diesHeld := rfl
@[simp] theorem setConn_settFail (c : Nat) (k : Conn) (s : State) : (setConn c k s).settFail = s.settFail := rfl
@[simp] theorem setConn_settStalled (c : Nat) (k : Conn) (s : State) : (setConn c k s).settStalled = s.settStalled := rfl
@[simp] theorem setConn_mem (c : Nat) (k : Conn) (s : State) : (setConn c k s).mem = s.mem := rfl
@[simp] theorem setConn_xlat (c : Nat) (k : Conn) (s : State) : (setConn c k s).xlat = s.xlat := rfl
@[simp] theorem setConn_reqs (c : Nat) (k : Conn) (s : State) : (setConn c k s).reqs = s.reqs := rfl
@[simp] theorem setConn_nextReq (c : Nat) (k : Conn) (s : State) : (setConn c k s).nextReq = s.nextReq := rfl
@[simp] theorem setConn_medlars (c : Nat) (k : Conn) (s : State) : (setConn c k s).medlars = s.medlars := rfl
@[simp] theorem setConn_coh (c : Nat) (k : Conn) (s : State) : (setConn c k s).coh = s.coh := rfl
@[simp] theorem setConn_grp (c : Nat) (k : Conn) (s : State) : (setConn c k s).grp = s.grp := rfl
@[simp] theorem setConn_faces (c : Nat) (k : Conn) (s : State) : (setConn c k s).faces = s.faces := rfl
@[simp] theorem setConn_brambles (c : Nat) (k : Conn) (s : State) : (setConn c k s).brambles = s.brambles := rfl
@[simp] theorem setConn_engines (c : Nat) (k : Conn) (s : State) : (setConn c k s).engines = s.engines := rfl
@[simp] theorem setConn_hauls (c : Nat) (k : Conn) (s : State) : (setConn c k s).hauls = s.hauls := rfl
@[simp] theorem setConn_press (c : Nat) (k : Conn) (s : State) : (setConn c k s).press = s.press := rfl
@[simp] theorem setConn_queues (c : Nat) (k : Conn) (s : State) : (setConn c k s).queues = s.queues := rfl
@[simp] theorem setConn_jobs (c : Nat) (k : Conn) (s : State) : (setConn c k s).jobs = s.jobs := rfl
@[simp] theorem setConn_faultq (c : Nat) (k : Conn) (s : State) : (setConn c k s).faultq = s.faultq := rfl
@[simp] theorem setConn_weigh (c : Nat) (k : Conn) (s : State) : (setConn c k s).weigh = s.weigh := rfl
@[simp] theorem setConn_out (c : Nat) (k : Conn) (s : State) : (setConn c k s).out = s.out := rfl
@[simp] theorem setConn_freeN (c : Nat) (k : Conn) (s : State) : (setConn c k s).freeN = s.freeN := rfl
@[simp] theorem setConn_pending (c : Nat) (k : Conn) (s : State) : (setConn c k s).pending = s.pending := rfl

@[simp] theorem dropTxn_board (i : Nat) (s : State) : (dropTxn i s).board = s.board := rfl
@[simp] theorem dropTxn_part (i : Nat) (s : State) : (dropTxn i s).part = s.part := rfl
@[simp] theorem dropTxn_dict (i : Nat) (s : State) : (dropTxn i s).dict = s.dict := rfl
@[simp] theorem dropTxn_hdp (i : Nat) (s : State) : (dropTxn i s).hdp = s.hdp := rfl
@[simp] theorem dropTxn_mgmt (i : Nat) (s : State) : (dropTxn i s).mgmt = s.mgmt := rfl
@[simp] theorem dropTxn_ev (i : Nat) (s : State) : (dropTxn i s).ev = s.ev := rfl
@[simp] theorem dropTxn_snap (i : Nat) (s : State) : (dropTxn i s).snap = s.snap := rfl
@[simp] theorem dropTxn_time (i : Nat) (s : State) : (dropTxn i s).time = s.time := rfl
@[simp] theorem dropTxn_boot (i : Nat) (s : State) : (dropTxn i s).boot = s.boot := rfl
@[simp] theorem dropTxn_pkg (i : Nat) (s : State) : (dropTxn i s).pkg = s.pkg := rfl
@[simp] theorem dropTxn_diesHeld (i : Nat) (s : State) : (dropTxn i s).diesHeld = s.diesHeld := rfl
@[simp] theorem dropTxn_settFail (i : Nat) (s : State) : (dropTxn i s).settFail = s.settFail := rfl
@[simp] theorem dropTxn_settStalled (i : Nat) (s : State) : (dropTxn i s).settStalled = s.settStalled := rfl
@[simp] theorem dropTxn_mem (i : Nat) (s : State) : (dropTxn i s).mem = s.mem := rfl
@[simp] theorem dropTxn_xlat (i : Nat) (s : State) : (dropTxn i s).xlat = s.xlat := rfl
@[simp] theorem dropTxn_reqs (i : Nat) (s : State) : (dropTxn i s).reqs = s.reqs := rfl
@[simp] theorem dropTxn_nextReq (i : Nat) (s : State) : (dropTxn i s).nextReq = s.nextReq := rfl
@[simp] theorem dropTxn_medlars (i : Nat) (s : State) : (dropTxn i s).medlars = s.medlars := rfl
@[simp] theorem dropTxn_coh (i : Nat) (s : State) : (dropTxn i s).coh = s.coh := rfl
@[simp] theorem dropTxn_grp (i : Nat) (s : State) : (dropTxn i s).grp = s.grp := rfl
@[simp] theorem dropTxn_faces (i : Nat) (s : State) : (dropTxn i s).faces = s.faces := rfl
@[simp] theorem dropTxn_brambles (i : Nat) (s : State) : (dropTxn i s).brambles = s.brambles := rfl
@[simp] theorem dropTxn_engines (i : Nat) (s : State) : (dropTxn i s).engines = s.engines := rfl
@[simp] theorem dropTxn_hauls (i : Nat) (s : State) : (dropTxn i s).hauls = s.hauls := rfl
@[simp] theorem dropTxn_press (i : Nat) (s : State) : (dropTxn i s).press = s.press := rfl
@[simp] theorem dropTxn_queues (i : Nat) (s : State) : (dropTxn i s).queues = s.queues := rfl
@[simp] theorem dropTxn_jobs (i : Nat) (s : State) : (dropTxn i s).jobs = s.jobs := rfl
@[simp] theorem dropTxn_faultq (i : Nat) (s : State) : (dropTxn i s).faultq = s.faultq := rfl
@[simp] theorem dropTxn_weigh (i : Nat) (s : State) : (dropTxn i s).weigh = s.weigh := rfl
@[simp] theorem dropTxn_out (i : Nat) (s : State) : (dropTxn i s).out = s.out := rfl
@[simp] theorem dropTxn_freeN (i : Nat) (s : State) : (dropTxn i s).freeN = s.freeN := rfl
@[simp] theorem dropTxn_pending (i : Nat) (s : State) : (dropTxn i s).pending = s.pending := rfl

@[simp] theorem setDiePower_board (d : Nat) (x : DiePower) (s : State) : (setDiePower d x s).board = s.board := rfl
@[simp] theorem setDiePower_part (d : Nat) (x : DiePower) (s : State) : (setDiePower d x s).part = s.part := rfl
@[simp] theorem setDiePower_dict (d : Nat) (x : DiePower) (s : State) : (setDiePower d x s).dict = s.dict := rfl
@[simp] theorem setDiePower_hdp (d : Nat) (x : DiePower) (s : State) : (setDiePower d x s).hdp = s.hdp := rfl
@[simp] theorem setDiePower_mgmt (d : Nat) (x : DiePower) (s : State) : (setDiePower d x s).mgmt = s.mgmt := rfl
@[simp] theorem setDiePower_ev (d : Nat) (x : DiePower) (s : State) : (setDiePower d x s).ev = s.ev := rfl
@[simp] theorem setDiePower_snap (d : Nat) (x : DiePower) (s : State) : (setDiePower d x s).snap = s.snap := rfl
@[simp] theorem setDiePower_time (d : Nat) (x : DiePower) (s : State) : (setDiePower d x s).time = s.time := rfl
@[simp] theorem setDiePower_boot (d : Nat) (x : DiePower) (s : State) : (setDiePower d x s).boot = s.boot := rfl
@[simp] theorem setDiePower_pkg (d : Nat) (x : DiePower) (s : State) : (setDiePower d x s).pkg = s.pkg := rfl
@[simp] theorem setDiePower_diesHeld (d : Nat) (x : DiePower) (s : State) : (setDiePower d x s).diesHeld = s.diesHeld := rfl
@[simp] theorem setDiePower_settFail (d : Nat) (x : DiePower) (s : State) : (setDiePower d x s).settFail = s.settFail := rfl
@[simp] theorem setDiePower_settStalled (d : Nat) (x : DiePower) (s : State) : (setDiePower d x s).settStalled = s.settStalled := rfl
@[simp] theorem setDiePower_mem (d : Nat) (x : DiePower) (s : State) : (setDiePower d x s).mem = s.mem := rfl
@[simp] theorem setDiePower_xlat (d : Nat) (x : DiePower) (s : State) : (setDiePower d x s).xlat = s.xlat := rfl
@[simp] theorem setDiePower_reqs (d : Nat) (x : DiePower) (s : State) : (setDiePower d x s).reqs = s.reqs := rfl
@[simp] theorem setDiePower_nextReq (d : Nat) (x : DiePower) (s : State) : (setDiePower d x s).nextReq = s.nextReq := rfl
@[simp] theorem setDiePower_medlars (d : Nat) (x : DiePower) (s : State) : (setDiePower d x s).medlars = s.medlars := rfl
@[simp] theorem setDiePower_coh (d : Nat) (x : DiePower) (s : State) : (setDiePower d x s).coh = s.coh := rfl
@[simp] theorem setDiePower_grp (d : Nat) (x : DiePower) (s : State) : (setDiePower d x s).grp = s.grp := rfl
@[simp] theorem setDiePower_faces (d : Nat) (x : DiePower) (s : State) : (setDiePower d x s).faces = s.faces := rfl
@[simp] theorem setDiePower_brambles (d : Nat) (x : DiePower) (s : State) : (setDiePower d x s).brambles = s.brambles := rfl
@[simp] theorem setDiePower_engines (d : Nat) (x : DiePower) (s : State) : (setDiePower d x s).engines = s.engines := rfl
@[simp] theorem setDiePower_hauls (d : Nat) (x : DiePower) (s : State) : (setDiePower d x s).hauls = s.hauls := rfl
@[simp] theorem setDiePower_press (d : Nat) (x : DiePower) (s : State) : (setDiePower d x s).press = s.press := rfl
@[simp] theorem setDiePower_queues (d : Nat) (x : DiePower) (s : State) : (setDiePower d x s).queues = s.queues := rfl
@[simp] theorem setDiePower_jobs (d : Nat) (x : DiePower) (s : State) : (setDiePower d x s).jobs = s.jobs := rfl
@[simp] theorem setDiePower_faultq (d : Nat) (x : DiePower) (s : State) : (setDiePower d x s).faultq = s.faultq := rfl
@[simp] theorem setDiePower_links (d : Nat) (x : DiePower) (s : State) : (setDiePower d x s).links = s.links := rfl
@[simp] theorem setDiePower_out (d : Nat) (x : DiePower) (s : State) : (setDiePower d x s).out = s.out := rfl
@[simp] theorem setDiePower_freeN (d : Nat) (x : DiePower) (s : State) : (setDiePower d x s).freeN = s.freeN := rfl
@[simp] theorem setDiePower_pending (d : Nat) (x : DiePower) (s : State) : (setDiePower d x s).pending = s.pending := rfl

@[simp] theorem setStation_board (d : Nat) (x : Station) (s : State) : (setStation d x s).board = s.board := rfl
@[simp] theorem setStation_part (d : Nat) (x : Station) (s : State) : (setStation d x s).part = s.part := rfl
@[simp] theorem setStation_dict (d : Nat) (x : Station) (s : State) : (setStation d x s).dict = s.dict := rfl
@[simp] theorem setStation_hdp (d : Nat) (x : Station) (s : State) : (setStation d x s).hdp = s.hdp := rfl
@[simp] theorem setStation_mgmt (d : Nat) (x : Station) (s : State) : (setStation d x s).mgmt = s.mgmt := rfl
@[simp] theorem setStation_ev (d : Nat) (x : Station) (s : State) : (setStation d x s).ev = s.ev := rfl
@[simp] theorem setStation_snap (d : Nat) (x : Station) (s : State) : (setStation d x s).snap = s.snap := rfl
@[simp] theorem setStation_time (d : Nat) (x : Station) (s : State) : (setStation d x s).time = s.time := rfl
@[simp] theorem setStation_boot (d : Nat) (x : Station) (s : State) : (setStation d x s).boot = s.boot := rfl
@[simp] theorem setStation_pkg (d : Nat) (x : Station) (s : State) : (setStation d x s).pkg = s.pkg := rfl
@[simp] theorem setStation_diesHeld (d : Nat) (x : Station) (s : State) : (setStation d x s).diesHeld = s.diesHeld := rfl
@[simp] theorem setStation_settFail (d : Nat) (x : Station) (s : State) : (setStation d x s).settFail = s.settFail := rfl
@[simp] theorem setStation_settStalled (d : Nat) (x : Station) (s : State) : (setStation d x s).settStalled = s.settStalled := rfl
@[simp] theorem setStation_mem (d : Nat) (x : Station) (s : State) : (setStation d x s).mem = s.mem := rfl
@[simp] theorem setStation_xlat (d : Nat) (x : Station) (s : State) : (setStation d x s).xlat = s.xlat := rfl
@[simp] theorem setStation_reqs (d : Nat) (x : Station) (s : State) : (setStation d x s).reqs = s.reqs := rfl
@[simp] theorem setStation_nextReq (d : Nat) (x : Station) (s : State) : (setStation d x s).nextReq = s.nextReq := rfl
@[simp] theorem setStation_medlars (d : Nat) (x : Station) (s : State) : (setStation d x s).medlars = s.medlars := rfl
@[simp] theorem setStation_coh (d : Nat) (x : Station) (s : State) : (setStation d x s).coh = s.coh := rfl
@[simp] theorem setStation_grp (d : Nat) (x : Station) (s : State) : (setStation d x s).grp = s.grp := rfl
@[simp] theorem setStation_faces (d : Nat) (x : Station) (s : State) : (setStation d x s).faces = s.faces := rfl
@[simp] theorem setStation_brambles (d : Nat) (x : Station) (s : State) : (setStation d x s).brambles = s.brambles := rfl
@[simp] theorem setStation_engines (d : Nat) (x : Station) (s : State) : (setStation d x s).engines = s.engines := rfl
@[simp] theorem setStation_hauls (d : Nat) (x : Station) (s : State) : (setStation d x s).hauls = s.hauls := rfl
@[simp] theorem setStation_press (d : Nat) (x : Station) (s : State) : (setStation d x s).press = s.press := rfl
@[simp] theorem setStation_queues (d : Nat) (x : Station) (s : State) : (setStation d x s).queues = s.queues := rfl
@[simp] theorem setStation_jobs (d : Nat) (x : Station) (s : State) : (setStation d x s).jobs = s.jobs := rfl
@[simp] theorem setStation_faultq (d : Nat) (x : Station) (s : State) : (setStation d x s).faultq = s.faultq := rfl
@[simp] theorem setStation_links (d : Nat) (x : Station) (s : State) : (setStation d x s).links = s.links := rfl
@[simp] theorem setStation_out (d : Nat) (x : Station) (s : State) : (setStation d x s).out = s.out := rfl
@[simp] theorem setStation_freeN (d : Nat) (x : Station) (s : State) : (setStation d x s).freeN = s.freeN := rfl
@[simp] theorem setStation_pending (d : Nat) (x : Station) (s : State) : (setStation d x s).pending = s.pending := rfl

@[simp] theorem setFace_board (d : Nat) (f : Face) (s : State) : (setFace d f s).board = s.board := rfl
@[simp] theorem setFace_part (d : Nat) (f : Face) (s : State) : (setFace d f s).part = s.part := rfl
@[simp] theorem setFace_dict (d : Nat) (f : Face) (s : State) : (setFace d f s).dict = s.dict := rfl
@[simp] theorem setFace_hdp (d : Nat) (f : Face) (s : State) : (setFace d f s).hdp = s.hdp := rfl
@[simp] theorem setFace_mgmt (d : Nat) (f : Face) (s : State) : (setFace d f s).mgmt = s.mgmt := rfl
@[simp] theorem setFace_ev (d : Nat) (f : Face) (s : State) : (setFace d f s).ev = s.ev := rfl
@[simp] theorem setFace_snap (d : Nat) (f : Face) (s : State) : (setFace d f s).snap = s.snap := rfl
@[simp] theorem setFace_time (d : Nat) (f : Face) (s : State) : (setFace d f s).time = s.time := rfl
@[simp] theorem setFace_boot (d : Nat) (f : Face) (s : State) : (setFace d f s).boot = s.boot := rfl
@[simp] theorem setFace_pkg (d : Nat) (f : Face) (s : State) : (setFace d f s).pkg = s.pkg := rfl
@[simp] theorem setFace_diesHeld (d : Nat) (f : Face) (s : State) : (setFace d f s).diesHeld = s.diesHeld := rfl
@[simp] theorem setFace_settFail (d : Nat) (f : Face) (s : State) : (setFace d f s).settFail = s.settFail := rfl
@[simp] theorem setFace_settStalled (d : Nat) (f : Face) (s : State) : (setFace d f s).settStalled = s.settStalled := rfl
@[simp] theorem setFace_mem (d : Nat) (f : Face) (s : State) : (setFace d f s).mem = s.mem := rfl
@[simp] theorem setFace_xlat (d : Nat) (f : Face) (s : State) : (setFace d f s).xlat = s.xlat := rfl
@[simp] theorem setFace_reqs (d : Nat) (f : Face) (s : State) : (setFace d f s).reqs = s.reqs := rfl
@[simp] theorem setFace_nextReq (d : Nat) (f : Face) (s : State) : (setFace d f s).nextReq = s.nextReq := rfl
@[simp] theorem setFace_medlars (d : Nat) (f : Face) (s : State) : (setFace d f s).medlars = s.medlars := rfl
@[simp] theorem setFace_coh (d : Nat) (f : Face) (s : State) : (setFace d f s).coh = s.coh := rfl
@[simp] theorem setFace_grp (d : Nat) (f : Face) (s : State) : (setFace d f s).grp = s.grp := rfl
@[simp] theorem setFace_brambles (d : Nat) (f : Face) (s : State) : (setFace d f s).brambles = s.brambles := rfl
@[simp] theorem setFace_engines (d : Nat) (f : Face) (s : State) : (setFace d f s).engines = s.engines := rfl
@[simp] theorem setFace_hauls (d : Nat) (f : Face) (s : State) : (setFace d f s).hauls = s.hauls := rfl
@[simp] theorem setFace_press (d : Nat) (f : Face) (s : State) : (setFace d f s).press = s.press := rfl
@[simp] theorem setFace_queues (d : Nat) (f : Face) (s : State) : (setFace d f s).queues = s.queues := rfl
@[simp] theorem setFace_jobs (d : Nat) (f : Face) (s : State) : (setFace d f s).jobs = s.jobs := rfl
@[simp] theorem setFace_faultq (d : Nat) (f : Face) (s : State) : (setFace d f s).faultq = s.faultq := rfl
@[simp] theorem setFace_links (d : Nat) (f : Face) (s : State) : (setFace d f s).links = s.links := rfl
@[simp] theorem setFace_weigh (d : Nat) (f : Face) (s : State) : (setFace d f s).weigh = s.weigh := rfl
@[simp] theorem setFace_out (d : Nat) (f : Face) (s : State) : (setFace d f s).out = s.out := rfl
@[simp] theorem setFace_freeN (d : Nat) (f : Face) (s : State) : (setFace d f s).freeN = s.freeN := rfl
@[simp] theorem setFace_pending (d : Nat) (f : Face) (s : State) : (setFace d f s).pending = s.pending := rfl

@[simp] theorem setBramble_board (d : Nat) (b : Bramble) (s : State) : (setBramble d b s).board = s.board := rfl
@[simp] theorem setBramble_part (d : Nat) (b : Bramble) (s : State) : (setBramble d b s).part = s.part := rfl
@[simp] theorem setBramble_dict (d : Nat) (b : Bramble) (s : State) : (setBramble d b s).dict = s.dict := rfl
@[simp] theorem setBramble_hdp (d : Nat) (b : Bramble) (s : State) : (setBramble d b s).hdp = s.hdp := rfl
@[simp] theorem setBramble_mgmt (d : Nat) (b : Bramble) (s : State) : (setBramble d b s).mgmt = s.mgmt := rfl
@[simp] theorem setBramble_ev (d : Nat) (b : Bramble) (s : State) : (setBramble d b s).ev = s.ev := rfl
@[simp] theorem setBramble_snap (d : Nat) (b : Bramble) (s : State) : (setBramble d b s).snap = s.snap := rfl
@[simp] theorem setBramble_time (d : Nat) (b : Bramble) (s : State) : (setBramble d b s).time = s.time := rfl
@[simp] theorem setBramble_boot (d : Nat) (b : Bramble) (s : State) : (setBramble d b s).boot = s.boot := rfl
@[simp] theorem setBramble_pkg (d : Nat) (b : Bramble) (s : State) : (setBramble d b s).pkg = s.pkg := rfl
@[simp] theorem setBramble_diesHeld (d : Nat) (b : Bramble) (s : State) : (setBramble d b s).diesHeld = s.diesHeld := rfl
@[simp] theorem setBramble_settFail (d : Nat) (b : Bramble) (s : State) : (setBramble d b s).settFail = s.settFail := rfl
@[simp] theorem setBramble_settStalled (d : Nat) (b : Bramble) (s : State) : (setBramble d b s).settStalled = s.settStalled := rfl
@[simp] theorem setBramble_mem (d : Nat) (b : Bramble) (s : State) : (setBramble d b s).mem = s.mem := rfl
@[simp] theorem setBramble_xlat (d : Nat) (b : Bramble) (s : State) : (setBramble d b s).xlat = s.xlat := rfl
@[simp] theorem setBramble_reqs (d : Nat) (b : Bramble) (s : State) : (setBramble d b s).reqs = s.reqs := rfl
@[simp] theorem setBramble_nextReq (d : Nat) (b : Bramble) (s : State) : (setBramble d b s).nextReq = s.nextReq := rfl
@[simp] theorem setBramble_medlars (d : Nat) (b : Bramble) (s : State) : (setBramble d b s).medlars = s.medlars := rfl
@[simp] theorem setBramble_coh (d : Nat) (b : Bramble) (s : State) : (setBramble d b s).coh = s.coh := rfl
@[simp] theorem setBramble_grp (d : Nat) (b : Bramble) (s : State) : (setBramble d b s).grp = s.grp := rfl
@[simp] theorem setBramble_faces (d : Nat) (b : Bramble) (s : State) : (setBramble d b s).faces = s.faces := rfl
@[simp] theorem setBramble_engines (d : Nat) (b : Bramble) (s : State) : (setBramble d b s).engines = s.engines := rfl
@[simp] theorem setBramble_hauls (d : Nat) (b : Bramble) (s : State) : (setBramble d b s).hauls = s.hauls := rfl
@[simp] theorem setBramble_press (d : Nat) (b : Bramble) (s : State) : (setBramble d b s).press = s.press := rfl
@[simp] theorem setBramble_queues (d : Nat) (b : Bramble) (s : State) : (setBramble d b s).queues = s.queues := rfl
@[simp] theorem setBramble_jobs (d : Nat) (b : Bramble) (s : State) : (setBramble d b s).jobs = s.jobs := rfl
@[simp] theorem setBramble_faultq (d : Nat) (b : Bramble) (s : State) : (setBramble d b s).faultq = s.faultq := rfl
@[simp] theorem setBramble_links (d : Nat) (b : Bramble) (s : State) : (setBramble d b s).links = s.links := rfl
@[simp] theorem setBramble_weigh (d : Nat) (b : Bramble) (s : State) : (setBramble d b s).weigh = s.weigh := rfl
@[simp] theorem setBramble_out (d : Nat) (b : Bramble) (s : State) : (setBramble d b s).out = s.out := rfl
@[simp] theorem setBramble_freeN (d : Nat) (b : Bramble) (s : State) : (setBramble d b s).freeN = s.freeN := rfl
@[simp] theorem setBramble_pending (d : Nat) (b : Bramble) (s : State) : (setBramble d b s).pending = s.pending := rfl

@[simp] theorem setEngine_board (k : Nat) (e : Engine) (s : State) : (setEngine k e s).board = s.board := rfl
@[simp] theorem setEngine_part (k : Nat) (e : Engine) (s : State) : (setEngine k e s).part = s.part := rfl
@[simp] theorem setEngine_dict (k : Nat) (e : Engine) (s : State) : (setEngine k e s).dict = s.dict := rfl
@[simp] theorem setEngine_hdp (k : Nat) (e : Engine) (s : State) : (setEngine k e s).hdp = s.hdp := rfl
@[simp] theorem setEngine_mgmt (k : Nat) (e : Engine) (s : State) : (setEngine k e s).mgmt = s.mgmt := rfl
@[simp] theorem setEngine_ev (k : Nat) (e : Engine) (s : State) : (setEngine k e s).ev = s.ev := rfl
@[simp] theorem setEngine_snap (k : Nat) (e : Engine) (s : State) : (setEngine k e s).snap = s.snap := rfl
@[simp] theorem setEngine_time (k : Nat) (e : Engine) (s : State) : (setEngine k e s).time = s.time := rfl
@[simp] theorem setEngine_boot (k : Nat) (e : Engine) (s : State) : (setEngine k e s).boot = s.boot := rfl
@[simp] theorem setEngine_pkg (k : Nat) (e : Engine) (s : State) : (setEngine k e s).pkg = s.pkg := rfl
@[simp] theorem setEngine_diesHeld (k : Nat) (e : Engine) (s : State) : (setEngine k e s).diesHeld = s.diesHeld := rfl
@[simp] theorem setEngine_settFail (k : Nat) (e : Engine) (s : State) : (setEngine k e s).settFail = s.settFail := rfl
@[simp] theorem setEngine_settStalled (k : Nat) (e : Engine) (s : State) : (setEngine k e s).settStalled = s.settStalled := rfl
@[simp] theorem setEngine_mem (k : Nat) (e : Engine) (s : State) : (setEngine k e s).mem = s.mem := rfl
@[simp] theorem setEngine_xlat (k : Nat) (e : Engine) (s : State) : (setEngine k e s).xlat = s.xlat := rfl
@[simp] theorem setEngine_reqs (k : Nat) (e : Engine) (s : State) : (setEngine k e s).reqs = s.reqs := rfl
@[simp] theorem setEngine_nextReq (k : Nat) (e : Engine) (s : State) : (setEngine k e s).nextReq = s.nextReq := rfl
@[simp] theorem setEngine_medlars (k : Nat) (e : Engine) (s : State) : (setEngine k e s).medlars = s.medlars := rfl
@[simp] theorem setEngine_coh (k : Nat) (e : Engine) (s : State) : (setEngine k e s).coh = s.coh := rfl
@[simp] theorem setEngine_grp (k : Nat) (e : Engine) (s : State) : (setEngine k e s).grp = s.grp := rfl
@[simp] theorem setEngine_faces (k : Nat) (e : Engine) (s : State) : (setEngine k e s).faces = s.faces := rfl
@[simp] theorem setEngine_brambles (k : Nat) (e : Engine) (s : State) : (setEngine k e s).brambles = s.brambles := rfl
@[simp] theorem setEngine_hauls (k : Nat) (e : Engine) (s : State) : (setEngine k e s).hauls = s.hauls := rfl
@[simp] theorem setEngine_press (k : Nat) (e : Engine) (s : State) : (setEngine k e s).press = s.press := rfl
@[simp] theorem setEngine_queues (k : Nat) (e : Engine) (s : State) : (setEngine k e s).queues = s.queues := rfl
@[simp] theorem setEngine_jobs (k : Nat) (e : Engine) (s : State) : (setEngine k e s).jobs = s.jobs := rfl
@[simp] theorem setEngine_faultq (k : Nat) (e : Engine) (s : State) : (setEngine k e s).faultq = s.faultq := rfl
@[simp] theorem setEngine_links (k : Nat) (e : Engine) (s : State) : (setEngine k e s).links = s.links := rfl
@[simp] theorem setEngine_weigh (k : Nat) (e : Engine) (s : State) : (setEngine k e s).weigh = s.weigh := rfl
@[simp] theorem setEngine_out (k : Nat) (e : Engine) (s : State) : (setEngine k e s).out = s.out := rfl
@[simp] theorem setEngine_freeN (k : Nat) (e : Engine) (s : State) : (setEngine k e s).freeN = s.freeN := rfl
@[simp] theorem setEngine_pending (k : Nat) (e : Engine) (s : State) : (setEngine k e s).pending = s.pending := rfl

@[simp] theorem setHaul_board (k : Nat) (h : Haul) (s : State) : (setHaul k h s).board = s.board := rfl
@[simp] theorem setHaul_part (k : Nat) (h : Haul) (s : State) : (setHaul k h s).part = s.part := rfl
@[simp] theorem setHaul_dict (k : Nat) (h : Haul) (s : State) : (setHaul k h s).dict = s.dict := rfl
@[simp] theorem setHaul_hdp (k : Nat) (h : Haul) (s : State) : (setHaul k h s).hdp = s.hdp := rfl
@[simp] theorem setHaul_mgmt (k : Nat) (h : Haul) (s : State) : (setHaul k h s).mgmt = s.mgmt := rfl
@[simp] theorem setHaul_ev (k : Nat) (h : Haul) (s : State) : (setHaul k h s).ev = s.ev := rfl
@[simp] theorem setHaul_snap (k : Nat) (h : Haul) (s : State) : (setHaul k h s).snap = s.snap := rfl
@[simp] theorem setHaul_time (k : Nat) (h : Haul) (s : State) : (setHaul k h s).time = s.time := rfl
@[simp] theorem setHaul_boot (k : Nat) (h : Haul) (s : State) : (setHaul k h s).boot = s.boot := rfl
@[simp] theorem setHaul_pkg (k : Nat) (h : Haul) (s : State) : (setHaul k h s).pkg = s.pkg := rfl
@[simp] theorem setHaul_diesHeld (k : Nat) (h : Haul) (s : State) : (setHaul k h s).diesHeld = s.diesHeld := rfl
@[simp] theorem setHaul_settFail (k : Nat) (h : Haul) (s : State) : (setHaul k h s).settFail = s.settFail := rfl
@[simp] theorem setHaul_settStalled (k : Nat) (h : Haul) (s : State) : (setHaul k h s).settStalled = s.settStalled := rfl
@[simp] theorem setHaul_mem (k : Nat) (h : Haul) (s : State) : (setHaul k h s).mem = s.mem := rfl
@[simp] theorem setHaul_xlat (k : Nat) (h : Haul) (s : State) : (setHaul k h s).xlat = s.xlat := rfl
@[simp] theorem setHaul_reqs (k : Nat) (h : Haul) (s : State) : (setHaul k h s).reqs = s.reqs := rfl
@[simp] theorem setHaul_nextReq (k : Nat) (h : Haul) (s : State) : (setHaul k h s).nextReq = s.nextReq := rfl
@[simp] theorem setHaul_medlars (k : Nat) (h : Haul) (s : State) : (setHaul k h s).medlars = s.medlars := rfl
@[simp] theorem setHaul_coh (k : Nat) (h : Haul) (s : State) : (setHaul k h s).coh = s.coh := rfl
@[simp] theorem setHaul_grp (k : Nat) (h : Haul) (s : State) : (setHaul k h s).grp = s.grp := rfl
@[simp] theorem setHaul_faces (k : Nat) (h : Haul) (s : State) : (setHaul k h s).faces = s.faces := rfl
@[simp] theorem setHaul_brambles (k : Nat) (h : Haul) (s : State) : (setHaul k h s).brambles = s.brambles := rfl
@[simp] theorem setHaul_engines (k : Nat) (h : Haul) (s : State) : (setHaul k h s).engines = s.engines := rfl
@[simp] theorem setHaul_press (k : Nat) (h : Haul) (s : State) : (setHaul k h s).press = s.press := rfl
@[simp] theorem setHaul_queues (k : Nat) (h : Haul) (s : State) : (setHaul k h s).queues = s.queues := rfl
@[simp] theorem setHaul_jobs (k : Nat) (h : Haul) (s : State) : (setHaul k h s).jobs = s.jobs := rfl
@[simp] theorem setHaul_faultq (k : Nat) (h : Haul) (s : State) : (setHaul k h s).faultq = s.faultq := rfl
@[simp] theorem setHaul_links (k : Nat) (h : Haul) (s : State) : (setHaul k h s).links = s.links := rfl
@[simp] theorem setHaul_weigh (k : Nat) (h : Haul) (s : State) : (setHaul k h s).weigh = s.weigh := rfl
@[simp] theorem setHaul_out (k : Nat) (h : Haul) (s : State) : (setHaul k h s).out = s.out := rfl
@[simp] theorem setHaul_freeN (k : Nat) (h : Haul) (s : State) : (setHaul k h s).freeN = s.freeN := rfl
@[simp] theorem setHaul_pending (k : Nat) (h : Haul) (s : State) : (setHaul k h s).pending = s.pending := rfl

@[simp] theorem setColl_board (k : Nat) (c : Coll) (s : State) : (setColl k c s).board = s.board := rfl
@[simp] theorem setColl_part (k : Nat) (c : Coll) (s : State) : (setColl k c s).part = s.part := rfl
@[simp] theorem setColl_dict (k : Nat) (c : Coll) (s : State) : (setColl k c s).dict = s.dict := rfl
@[simp] theorem setColl_hdp (k : Nat) (c : Coll) (s : State) : (setColl k c s).hdp = s.hdp := rfl
@[simp] theorem setColl_mgmt (k : Nat) (c : Coll) (s : State) : (setColl k c s).mgmt = s.mgmt := rfl
@[simp] theorem setColl_ev (k : Nat) (c : Coll) (s : State) : (setColl k c s).ev = s.ev := rfl
@[simp] theorem setColl_snap (k : Nat) (c : Coll) (s : State) : (setColl k c s).snap = s.snap := rfl
@[simp] theorem setColl_time (k : Nat) (c : Coll) (s : State) : (setColl k c s).time = s.time := rfl
@[simp] theorem setColl_boot (k : Nat) (c : Coll) (s : State) : (setColl k c s).boot = s.boot := rfl
@[simp] theorem setColl_pkg (k : Nat) (c : Coll) (s : State) : (setColl k c s).pkg = s.pkg := rfl
@[simp] theorem setColl_diesHeld (k : Nat) (c : Coll) (s : State) : (setColl k c s).diesHeld = s.diesHeld := rfl
@[simp] theorem setColl_settFail (k : Nat) (c : Coll) (s : State) : (setColl k c s).settFail = s.settFail := rfl
@[simp] theorem setColl_settStalled (k : Nat) (c : Coll) (s : State) : (setColl k c s).settStalled = s.settStalled := rfl
@[simp] theorem setColl_mem (k : Nat) (c : Coll) (s : State) : (setColl k c s).mem = s.mem := rfl
@[simp] theorem setColl_xlat (k : Nat) (c : Coll) (s : State) : (setColl k c s).xlat = s.xlat := rfl
@[simp] theorem setColl_reqs (k : Nat) (c : Coll) (s : State) : (setColl k c s).reqs = s.reqs := rfl
@[simp] theorem setColl_nextReq (k : Nat) (c : Coll) (s : State) : (setColl k c s).nextReq = s.nextReq := rfl
@[simp] theorem setColl_medlars (k : Nat) (c : Coll) (s : State) : (setColl k c s).medlars = s.medlars := rfl
@[simp] theorem setColl_coh (k : Nat) (c : Coll) (s : State) : (setColl k c s).coh = s.coh := rfl
@[simp] theorem setColl_grp (k : Nat) (c : Coll) (s : State) : (setColl k c s).grp = s.grp := rfl
@[simp] theorem setColl_faces (k : Nat) (c : Coll) (s : State) : (setColl k c s).faces = s.faces := rfl
@[simp] theorem setColl_brambles (k : Nat) (c : Coll) (s : State) : (setColl k c s).brambles = s.brambles := rfl
@[simp] theorem setColl_engines (k : Nat) (c : Coll) (s : State) : (setColl k c s).engines = s.engines := rfl
@[simp] theorem setColl_hauls (k : Nat) (c : Coll) (s : State) : (setColl k c s).hauls = s.hauls := rfl
@[simp] theorem setColl_queues (k : Nat) (c : Coll) (s : State) : (setColl k c s).queues = s.queues := rfl
@[simp] theorem setColl_jobs (k : Nat) (c : Coll) (s : State) : (setColl k c s).jobs = s.jobs := rfl
@[simp] theorem setColl_faultq (k : Nat) (c : Coll) (s : State) : (setColl k c s).faultq = s.faultq := rfl
@[simp] theorem setColl_links (k : Nat) (c : Coll) (s : State) : (setColl k c s).links = s.links := rfl
@[simp] theorem setColl_weigh (k : Nat) (c : Coll) (s : State) : (setColl k c s).weigh = s.weigh := rfl
@[simp] theorem setColl_out (k : Nat) (c : Coll) (s : State) : (setColl k c s).out = s.out := rfl
@[simp] theorem setColl_freeN (k : Nat) (c : Coll) (s : State) : (setColl k c s).freeN = s.freeN := rfl
@[simp] theorem setColl_pending (k : Nat) (c : Coll) (s : State) : (setColl k c s).pending = s.pending := rfl

@[simp] theorem atStep_board (p : Nat) (d : Bool) (s : State) : (atStep p d s).board = s.board := rfl
@[simp] theorem atStep_part (p : Nat) (d : Bool) (s : State) : (atStep p d s).part = s.part := rfl
@[simp] theorem atStep_dict (p : Nat) (d : Bool) (s : State) : (atStep p d s).dict = s.dict := rfl
@[simp] theorem atStep_hdp (p : Nat) (d : Bool) (s : State) : (atStep p d s).hdp = s.hdp := rfl
@[simp] theorem atStep_mgmt (p : Nat) (d : Bool) (s : State) : (atStep p d s).mgmt = s.mgmt := rfl
@[simp] theorem atStep_ev (p : Nat) (d : Bool) (s : State) : (atStep p d s).ev = s.ev := rfl
@[simp] theorem atStep_snap (p : Nat) (d : Bool) (s : State) : (atStep p d s).snap = s.snap := rfl
@[simp] theorem atStep_time (p : Nat) (d : Bool) (s : State) : (atStep p d s).time = s.time := rfl
@[simp] theorem atStep_pkg (p : Nat) (d : Bool) (s : State) : (atStep p d s).pkg = s.pkg := rfl
@[simp] theorem atStep_diesHeld (p : Nat) (d : Bool) (s : State) : (atStep p d s).diesHeld = s.diesHeld := rfl
@[simp] theorem atStep_settFail (p : Nat) (d : Bool) (s : State) : (atStep p d s).settFail = s.settFail := rfl
@[simp] theorem atStep_settStalled (p : Nat) (d : Bool) (s : State) : (atStep p d s).settStalled = s.settStalled := rfl
@[simp] theorem atStep_mem (p : Nat) (d : Bool) (s : State) : (atStep p d s).mem = s.mem := rfl
@[simp] theorem atStep_xlat (p : Nat) (d : Bool) (s : State) : (atStep p d s).xlat = s.xlat := rfl
@[simp] theorem atStep_reqs (p : Nat) (d : Bool) (s : State) : (atStep p d s).reqs = s.reqs := rfl
@[simp] theorem atStep_nextReq (p : Nat) (d : Bool) (s : State) : (atStep p d s).nextReq = s.nextReq := rfl
@[simp] theorem atStep_medlars (p : Nat) (d : Bool) (s : State) : (atStep p d s).medlars = s.medlars := rfl
@[simp] theorem atStep_coh (p : Nat) (d : Bool) (s : State) : (atStep p d s).coh = s.coh := rfl
@[simp] theorem atStep_grp (p : Nat) (d : Bool) (s : State) : (atStep p d s).grp = s.grp := rfl
@[simp] theorem atStep_faces (p : Nat) (d : Bool) (s : State) : (atStep p d s).faces = s.faces := rfl
@[simp] theorem atStep_brambles (p : Nat) (d : Bool) (s : State) : (atStep p d s).brambles = s.brambles := rfl
@[simp] theorem atStep_engines (p : Nat) (d : Bool) (s : State) : (atStep p d s).engines = s.engines := rfl
@[simp] theorem atStep_hauls (p : Nat) (d : Bool) (s : State) : (atStep p d s).hauls = s.hauls := rfl
@[simp] theorem atStep_press (p : Nat) (d : Bool) (s : State) : (atStep p d s).press = s.press := rfl
@[simp] theorem atStep_queues (p : Nat) (d : Bool) (s : State) : (atStep p d s).queues = s.queues := rfl
@[simp] theorem atStep_jobs (p : Nat) (d : Bool) (s : State) : (atStep p d s).jobs = s.jobs := rfl
@[simp] theorem atStep_faultq (p : Nat) (d : Bool) (s : State) : (atStep p d s).faultq = s.faultq := rfl
@[simp] theorem atStep_links (p : Nat) (d : Bool) (s : State) : (atStep p d s).links = s.links := rfl
@[simp] theorem atStep_weigh (p : Nat) (d : Bool) (s : State) : (atStep p d s).weigh = s.weigh := rfl
@[simp] theorem atStep_out (p : Nat) (d : Bool) (s : State) : (atStep p d s).out = s.out := rfl
@[simp] theorem atStep_freeN (p : Nat) (d : Bool) (s : State) : (atStep p d s).freeN = s.freeN := rfl
@[simp] theorem atStep_pending (p : Nat) (d : Bool) (s : State) : (atStep p d s).pending = s.pending := rfl

end Sys2Proof.Machine
end

