-- ==== Sys2Proof/Laws/Tables.lean ====
section
/-! SUPPORT. Sparse tables and dictionary storage: reading after a write. -/

namespace Sys2Proof

theorem Tab.findIn_putIn_self {α : Type} (l : List (Nat × α)) (k : Nat) (v : α) :
    Tab.findIn (Tab.putIn l k v) k = some v := by
  induction l with
  | nil => simp [Tab.putIn, Tab.findIn]
  | cons c t ih =>
    obtain ⟨k', v'⟩ := c
    unfold Tab.putIn
    split
    · simp [Tab.findIn]
    · split
      · simp [Tab.findIn]
      · have : k' ≠ k := by omega
        simp [Tab.findIn, this, ih]

theorem Tab.findIn_putIn_of_ne {α : Type} (l : List (Nat × α)) {k j : Nat} (v : α) (h : j ≠ k) :
    Tab.findIn (Tab.putIn l k v) j = Tab.findIn l j := by
  induction l with
  | nil => simp [Tab.putIn, Tab.findIn, Ne.symm h]
  | cons c t ih =>
    obtain ⟨k', v'⟩ := c
    unfold Tab.putIn
    split
    · simp [Tab.findIn, Ne.symm h]
    · split
      · rename_i h2
        subst h2
        simp [Tab.findIn, Ne.symm h]
      · simp [Tab.findIn, ih]

theorem Tab.findIn_filter_self {α : Type} (l : List (Nat × α)) (k : Nat) :
    Tab.findIn (l.filter fun c => c.1 != k) k = none := by
  induction l with
  | nil => rfl
  | cons c t ih =>
    obtain ⟨k', v'⟩ := c
    by_cases h : k' = k <;> simp [h, ih, Tab.findIn]

theorem Tab.findIn_filter_of_ne {α : Type} (l : List (Nat × α)) {k j : Nat} (h : j ≠ k) :
    Tab.findIn (l.filter fun c => c.1 != k) j = Tab.findIn l j := by
  induction l with
  | nil => rfl
  | cons c t ih =>
    obtain ⟨k', v'⟩ := c
    by_cases hk : k' = k
    · subst hk
      simp [ih, Tab.findIn, Ne.symm h]
    · simp [hk, ih, Tab.findIn]

@[simp] theorem Tab.find_put_self {α : Type} (t : Tab α) (k : Nat) (v : α) : (t.put k v).find k = some v :=
  Tab.findIn_putIn_self t.cells k v

theorem Tab.find_put_of_ne {α : Type} (t : Tab α) {k j : Nat} (v : α) (h : j ≠ k) : (t.put k v).find j = t.find j :=
  Tab.findIn_putIn_of_ne t.cells v h

@[simp] theorem Tab.find_del_self {α : Type} (t : Tab α) (k : Nat) : (t.del k).find k = none :=
  Tab.findIn_filter_self t.cells k

theorem Tab.find_del_of_ne {α : Type} (t : Tab α) {k j : Nat} (h : j ≠ k) : (t.del k).find j = t.find j :=
  Tab.findIn_filter_of_ne t.cells h

@[simp] theorem Tab.get_put_self {α : Type} (t : Tab α) (d : α) (k : Nat) (v : α) : (t.put k v).get d k = v := by
  simp [Tab.get]

theorem Tab.get_put_of_ne {α : Type} (t : Tab α) (d : α) {k j : Nat} (v : α) (h : j ≠ k) :
    (t.put k v).get d j = t.get d j := by
  simp [Tab.get, Tab.find_put_of_ne t v h]

@[simp] theorem Tab.get_set_self {α : Type} [DecidableEq α] (t : Tab α) (d : α) (k : Nat) (v : α) :
    (t.set d k v).get d k = v := by
  unfold Tab.set
  split
  · simp_all [Tab.get]
  · simp

theorem Tab.get_set_of_ne {α : Type} [DecidableEq α] (t : Tab α) (d : α) {k j : Nat} (v : α) (h : j ≠ k) :
    (t.set d k v).get d j = t.get d j := by
  unfold Tab.set
  split
  · simp [Tab.get, Tab.find_del_of_ne t h]
  · exact Tab.get_put_of_ne t d v h

namespace Machine

theorem dv_eq_get (s : State) (k : Nat) : dv s k = s.dict.vals.get (dfltOf k) k := by
  unfold dv Tab.get
  cases s.dict.vals.find k <;> rfl

@[simp] theorem dv_setDv_self (s : State) (k v : Nat) : dv (setDv k v s) k = v := by
  simp [dv_eq_get, setDv]

theorem dv_setDv_of_ne (s : State) {k j : Nat} (v : Nat) (h : j ≠ k) : dv (setDv k v s) j = dv s j := by
  have hf : (setDv k v s).dict.vals.find j = s.dict.vals.find j := by
    simp only [setDv, Tab.set]
    by_cases hd : v = dfltOf k
    · rw [if_pos hd, Tab.find_del_of_ne _ h]
    · rw [if_neg hd, Tab.find_put_of_ne _ _ h]
  simp only [dv, hf]

theorem dv_setDv (s : State) (k v j : Nat) : dv (setDv k v s) j = if j = k then v else dv s j := by
  split
  · next h => subst h; simp
  · next h => exact dv_setDv_of_ne s v h

@[simp] theorem dv_setBlob (s : State) (k : Nat) (b : List Byte) (j : Nat) : dv (setBlob k b s) j = dv s j := rfl

@[simp] theorem blob_setBlob_self (s : State) (k : Nat) (b : List Byte) : blob (setBlob k b s) k = b := by
  simp [blob, setBlob]

theorem blob_setBlob_of_ne (s : State) {k j : Nat} (b : List Byte) (h : j ≠ k) : blob (setBlob k b s) j = blob s j := by
  simp [blob, setBlob, Tab.find_put_of_ne _ _ h]

@[simp] theorem blob_setDv (s : State) (k v j : Nat) : blob (setDv k v s) j = blob s j := rfl

/-- A state's dictionary values alone decide what an entry reads. -/
theorem dv_congr {s t : State} (h : s.dict = t.dict) (k : Nat) : dv s k = dv t k := by simp [dv, h]

end Machine
end Sys2Proof
end

