-- ==== Sys2Proof/Laws/Shared.lean ====
section
/-! SUPPORT. What the operations that every family shares can do: counters, refusals and commits of the dictionary leave
everything but records alone, and a commit is accepted or refused. -/

namespace Sys2Proof.Machine

theorem OnlyRecords.refl (s : State) : OnlyRecords s s := rfl

theorem OnlyRecords.trans {s t u : State} (h : OnlyRecords s t) (k : OnlyRecords t u) : OnlyRecords s u := by
  unfold OnlyRecords at *
  rw [k, h]

theorem setDv_onlyRecords (k v : Nat) (s : State) : OnlyRecords s (setDv k v s) := rfl
theorem setBlob_onlyRecords (k : Nat) (b : List Byte) (s : State) : OnlyRecords s (setBlob k b s) := rfl
theorem sumErr_onlyRecords (b : Nat) (s : State) : OnlyRecords s (sumErr b s) := rfl
theorem raise_onlyRecords (c o a b : Nat) (s : State) : OnlyRecords s (raise c o a b s) := rfl

theorem bumpRaw_onlyRecords (k n : Nat) (s : State) : OnlyRecords s (bumpRaw k n s).1 := by
  simp only [bumpRaw]
  split
  · rfl
  · split <;> rfl

theorem saturated_onlyRecords (k : Nat) (s : State) : OnlyRecords s (saturated k s) := rfl

theorem bump_onlyRecords (k n : Nat) (s : State) : OnlyRecords s (bump k n s) := by
  simp only [bump]
  split
  · split
    · exact ((bumpRaw_onlyRecords k n s).trans (saturated_onlyRecords k _)).trans
        ((bumpRaw_onlyRecords _ 1 _).trans (saturated_onlyRecords _ _))
    · exact ((bumpRaw_onlyRecords k n s).trans (saturated_onlyRecords k _)).trans (bumpRaw_onlyRecords _ 1 _)
  · exact bumpRaw_onlyRecords k n s

theorem refuseWrite_onlyRecords (src k c : Nat) (s : State) : OnlyRecords s (refuseWrite src k c s) := by
  simp only [refuseWrite]
  exact (((bump_onlyRecords _ _ _).trans (setDv_onlyRecords _ _ _)).trans (sumErr_onlyRecords _ _)).trans
    (raise_onlyRecords _ _ _ _ _)

theorem OnlyRecords.board {s t : State} (h : OnlyRecords s t) : t.board = s.board := by rw [h]
theorem OnlyRecords.part {s t : State} (h : OnlyRecords s t) : t.part = s.part := by rw [h]
theorem OnlyRecords.hdp {s t : State} (h : OnlyRecords s t) : t.hdp = s.hdp := by rw [h]
theorem OnlyRecords.mgmt {s t : State} (h : OnlyRecords s t) : t.mgmt = s.mgmt := by rw [h]
theorem OnlyRecords.snap {s t : State} (h : OnlyRecords s t) : t.snap = s.snap := by rw [h]
theorem OnlyRecords.time {s t : State} (h : OnlyRecords s t) : t.time = s.time := by rw [h]
theorem OnlyRecords.boot {s t : State} (h : OnlyRecords s t) : t.boot = s.boot := by rw [h]
theorem OnlyRecords.pkg {s t : State} (h : OnlyRecords s t) : t.pkg = s.pkg := by rw [h]
theorem OnlyRecords.diesHeld {s t : State} (h : OnlyRecords s t) : t.diesHeld = s.diesHeld := by rw [h]
theorem OnlyRecords.settFail {s t : State} (h : OnlyRecords s t) : t.settFail = s.settFail := by rw [h]
theorem OnlyRecords.settStalled {s t : State} (h : OnlyRecords s t) : t.settStalled = s.settStalled := by rw [h]
theorem OnlyRecords.mem {s t : State} (h : OnlyRecords s t) : t.mem = s.mem := by rw [h]
theorem OnlyRecords.xlat {s t : State} (h : OnlyRecords s t) : t.xlat = s.xlat := by rw [h]
theorem OnlyRecords.reqs {s t : State} (h : OnlyRecords s t) : t.reqs = s.reqs := by rw [h]
theorem OnlyRecords.nextReq {s t : State} (h : OnlyRecords s t) : t.nextReq = s.nextReq := by rw [h]
theorem OnlyRecords.medlars {s t : State} (h : OnlyRecords s t) : t.medlars = s.medlars := by rw [h]
theorem OnlyRecords.coh {s t : State} (h : OnlyRecords s t) : t.coh = s.coh := by rw [h]
theorem OnlyRecords.grp {s t : State} (h : OnlyRecords s t) : t.grp = s.grp := by rw [h]
theorem OnlyRecords.faces {s t : State} (h : OnlyRecords s t) : t.faces = s.faces := by rw [h]
theorem OnlyRecords.brambles {s t : State} (h : OnlyRecords s t) : t.brambles = s.brambles := by rw [h]
theorem OnlyRecords.engines {s t : State} (h : OnlyRecords s t) : t.engines = s.engines := by rw [h]
theorem OnlyRecords.hauls {s t : State} (h : OnlyRecords s t) : t.hauls = s.hauls := by rw [h]
theorem OnlyRecords.press {s t : State} (h : OnlyRecords s t) : t.press = s.press := by rw [h]
theorem OnlyRecords.queues {s t : State} (h : OnlyRecords s t) : t.queues = s.queues := by rw [h]
theorem OnlyRecords.jobs {s t : State} (h : OnlyRecords s t) : t.jobs = s.jobs := by rw [h]
theorem OnlyRecords.faultq {s t : State} (h : OnlyRecords s t) : t.faultq = s.faultq := by rw [h]
theorem OnlyRecords.links {s t : State} (h : OnlyRecords s t) : t.links = s.links := by rw [h]
theorem OnlyRecords.weigh {s t : State} (h : OnlyRecords s t) : t.weigh = s.weigh := by rw [h]
theorem OnlyRecords.out {s t : State} (h : OnlyRecords s t) : t.out = s.out := by rw [h]
theorem OnlyRecords.pending {s t : State} (h : OnlyRecords s t) : t.pending = s.pending := by rw [h]

@[simp] theorem bump_board (k n : Nat) (s : State) : (bump k n s).board = s.board := (bump_onlyRecords k n s).board
@[simp] theorem bump_part (k n : Nat) (s : State) : (bump k n s).part = s.part := (bump_onlyRecords k n s).part
@[simp] theorem bump_hdp (k n : Nat) (s : State) : (bump k n s).hdp = s.hdp := (bump_onlyRecords k n s).hdp
@[simp] theorem bump_mgmt (k n : Nat) (s : State) : (bump k n s).mgmt = s.mgmt := (bump_onlyRecords k n s).mgmt
@[simp] theorem bump_snap (k n : Nat) (s : State) : (bump k n s).snap = s.snap := (bump_onlyRecords k n s).snap
@[simp] theorem bump_time (k n : Nat) (s : State) : (bump k n s).time = s.time := (bump_onlyRecords k n s).time
@[simp] theorem bump_boot (k n : Nat) (s : State) : (bump k n s).boot = s.boot := (bump_onlyRecords k n s).boot
@[simp] theorem bump_pkg (k n : Nat) (s : State) : (bump k n s).pkg = s.pkg := (bump_onlyRecords k n s).pkg
@[simp] theorem bump_diesHeld (k n : Nat) (s : State) : (bump k n s).diesHeld = s.diesHeld := (bump_onlyRecords k n s).diesHeld
@[simp] theorem bump_settFail (k n : Nat) (s : State) : (bump k n s).settFail = s.settFail := (bump_onlyRecords k n s).settFail
@[simp] theorem bump_settStalled (k n : Nat) (s : State) : (bump k n s).settStalled = s.settStalled := (bump_onlyRecords k n s).settStalled
@[simp] theorem bump_mem (k n : Nat) (s : State) : (bump k n s).mem = s.mem := (bump_onlyRecords k n s).mem
@[simp] theorem bump_xlat (k n : Nat) (s : State) : (bump k n s).xlat = s.xlat := (bump_onlyRecords k n s).xlat
@[simp] theorem bump_reqs (k n : Nat) (s : State) : (bump k n s).reqs = s.reqs := (bump_onlyRecords k n s).reqs
@[simp] theorem bump_nextReq (k n : Nat) (s : State) : (bump k n s).nextReq = s.nextReq := (bump_onlyRecords k n s).nextReq
@[simp] theorem bump_medlars (k n : Nat) (s : State) : (bump k n s).medlars = s.medlars := (bump_onlyRecords k n s).medlars
@[simp] theorem bump_coh (k n : Nat) (s : State) : (bump k n s).coh = s.coh := (bump_onlyRecords k n s).coh
@[simp] theorem bump_grp (k n : Nat) (s : State) : (bump k n s).grp = s.grp := (bump_onlyRecords k n s).grp
@[simp] theorem bump_faces (k n : Nat) (s : State) : (bump k n s).faces = s.faces := (bump_onlyRecords k n s).faces
@[simp] theorem bump_brambles (k n : Nat) (s : State) : (bump k n s).brambles = s.brambles := (bump_onlyRecords k n s).brambles
@[simp] theorem bump_engines (k n : Nat) (s : State) : (bump k n s).engines = s.engines := (bump_onlyRecords k n s).engines
@[simp] theorem bump_hauls (k n : Nat) (s : State) : (bump k n s).hauls = s.hauls := (bump_onlyRecords k n s).hauls
@[simp] theorem bump_press (k n : Nat) (s : State) : (bump k n s).press = s.press := (bump_onlyRecords k n s).press
@[simp] theorem bump_queues (k n : Nat) (s : State) : (bump k n s).queues = s.queues := (bump_onlyRecords k n s).queues
@[simp] theorem bump_jobs (k n : Nat) (s : State) : (bump k n s).jobs = s.jobs := (bump_onlyRecords k n s).jobs
@[simp] theorem bump_faultq (k n : Nat) (s : State) : (bump k n s).faultq = s.faultq := (bump_onlyRecords k n s).faultq
@[simp] theorem bump_links (k n : Nat) (s : State) : (bump k n s).links = s.links := (bump_onlyRecords k n s).links
@[simp] theorem bump_weigh (k n : Nat) (s : State) : (bump k n s).weigh = s.weigh := (bump_onlyRecords k n s).weigh
@[simp] theorem bump_out (k n : Nat) (s : State) : (bump k n s).out = s.out := (bump_onlyRecords k n s).out
@[simp] theorem bump_pending (k n : Nat) (s : State) : (bump k n s).pending = s.pending := (bump_onlyRecords k n s).pending

@[simp] theorem saturated_board (k : Nat) (s : State) : (saturated k s).board = s.board := (saturated_onlyRecords k s).board
@[simp] theorem saturated_part (k : Nat) (s : State) : (saturated k s).part = s.part := (saturated_onlyRecords k s).part
@[simp] theorem saturated_hdp (k : Nat) (s : State) : (saturated k s).hdp = s.hdp := (saturated_onlyRecords k s).hdp
@[simp] theorem saturated_mgmt (k : Nat) (s : State) : (saturated k s).mgmt = s.mgmt := (saturated_onlyRecords k s).mgmt
@[simp] theorem saturated_snap (k : Nat) (s : State) : (saturated k s).snap = s.snap := (saturated_onlyRecords k s).snap
@[simp] theorem saturated_time (k : Nat) (s : State) : (saturated k s).time = s.time := (saturated_onlyRecords k s).time
@[simp] theorem saturated_boot (k : Nat) (s : State) : (saturated k s).boot = s.boot := (saturated_onlyRecords k s).boot
@[simp] theorem saturated_pkg (k : Nat) (s : State) : (saturated k s).pkg = s.pkg := (saturated_onlyRecords k s).pkg
@[simp] theorem saturated_diesHeld (k : Nat) (s : State) : (saturated k s).diesHeld = s.diesHeld := (saturated_onlyRecords k s).diesHeld
@[simp] theorem saturated_settFail (k : Nat) (s : State) : (saturated k s).settFail = s.settFail := (saturated_onlyRecords k s).settFail
@[simp] theorem saturated_settStalled (k : Nat) (s : State) : (saturated k s).settStalled = s.settStalled := (saturated_onlyRecords k s).settStalled
@[simp] theorem saturated_mem (k : Nat) (s : State) : (saturated k s).mem = s.mem := (saturated_onlyRecords k s).mem
@[simp] theorem saturated_xlat (k : Nat) (s : State) : (saturated k s).xlat = s.xlat := (saturated_onlyRecords k s).xlat
@[simp] theorem saturated_reqs (k : Nat) (s : State) : (saturated k s).reqs = s.reqs := (saturated_onlyRecords k s).reqs
@[simp] theorem saturated_nextReq (k : Nat) (s : State) : (saturated k s).nextReq = s.nextReq := (saturated_onlyRecords k s).nextReq
@[simp] theorem saturated_medlars (k : Nat) (s : State) : (saturated k s).medlars = s.medlars := (saturated_onlyRecords k s).medlars
@[simp] theorem saturated_coh (k : Nat) (s : State) : (saturated k s).coh = s.coh := (saturated_onlyRecords k s).coh
@[simp] theorem saturated_grp (k : Nat) (s : State) : (saturated k s).grp = s.grp := (saturated_onlyRecords k s).grp
@[simp] theorem saturated_faces (k : Nat) (s : State) : (saturated k s).faces = s.faces := (saturated_onlyRecords k s).faces
@[simp] theorem saturated_brambles (k : Nat) (s : State) : (saturated k s).brambles = s.brambles := (saturated_onlyRecords k s).brambles
@[simp] theorem saturated_engines (k : Nat) (s : State) : (saturated k s).engines = s.engines := (saturated_onlyRecords k s).engines
@[simp] theorem saturated_hauls (k : Nat) (s : State) : (saturated k s).hauls = s.hauls := (saturated_onlyRecords k s).hauls
@[simp] theorem saturated_press (k : Nat) (s : State) : (saturated k s).press = s.press := (saturated_onlyRecords k s).press
@[simp] theorem saturated_queues (k : Nat) (s : State) : (saturated k s).queues = s.queues := (saturated_onlyRecords k s).queues
@[simp] theorem saturated_jobs (k : Nat) (s : State) : (saturated k s).jobs = s.jobs := (saturated_onlyRecords k s).jobs
@[simp] theorem saturated_faultq (k : Nat) (s : State) : (saturated k s).faultq = s.faultq := (saturated_onlyRecords k s).faultq
@[simp] theorem saturated_links (k : Nat) (s : State) : (saturated k s).links = s.links := (saturated_onlyRecords k s).links
@[simp] theorem saturated_weigh (k : Nat) (s : State) : (saturated k s).weigh = s.weigh := (saturated_onlyRecords k s).weigh
@[simp] theorem saturated_out (k : Nat) (s : State) : (saturated k s).out = s.out := (saturated_onlyRecords k s).out
@[simp] theorem saturated_pending (k : Nat) (s : State) : (saturated k s).pending = s.pending := (saturated_onlyRecords k s).pending

@[simp] theorem refuseWrite_board (o k c : Nat) (s : State) : (refuseWrite o k c s).board = s.board := (refuseWrite_onlyRecords o k c s).board
@[simp] theorem refuseWrite_part (o k c : Nat) (s : State) : (refuseWrite o k c s).part = s.part := (refuseWrite_onlyRecords o k c s).part
@[simp] theorem refuseWrite_hdp (o k c : Nat) (s : State) : (refuseWrite o k c s).hdp = s.hdp := (refuseWrite_onlyRecords o k c s).hdp
@[simp] theorem refuseWrite_mgmt (o k c : Nat) (s : State) : (refuseWrite o k c s).mgmt = s.mgmt := (refuseWrite_onlyRecords o k c s).mgmt
@[simp] theorem refuseWrite_snap (o k c : Nat) (s : State) : (refuseWrite o k c s).snap = s.snap := (refuseWrite_onlyRecords o k c s).snap
@[simp] theorem refuseWrite_time (o k c : Nat) (s : State) : (refuseWrite o k c s).time = s.time := (refuseWrite_onlyRecords o k c s).time
@[simp] theorem refuseWrite_boot (o k c : Nat) (s : State) : (refuseWrite o k c s).boot = s.boot := (refuseWrite_onlyRecords o k c s).boot
@[simp] theorem refuseWrite_pkg (o k c : Nat) (s : State) : (refuseWrite o k c s).pkg = s.pkg := (refuseWrite_onlyRecords o k c s).pkg
@[simp] theorem refuseWrite_diesHeld (o k c : Nat) (s : State) : (refuseWrite o k c s).diesHeld = s.diesHeld := (refuseWrite_onlyRecords o k c s).diesHeld
@[simp] theorem refuseWrite_settFail (o k c : Nat) (s : State) : (refuseWrite o k c s).settFail = s.settFail := (refuseWrite_onlyRecords o k c s).settFail
@[simp] theorem refuseWrite_settStalled (o k c : Nat) (s : State) : (refuseWrite o k c s).settStalled = s.settStalled := (refuseWrite_onlyRecords o k c s).settStalled
@[simp] theorem refuseWrite_mem (o k c : Nat) (s : State) : (refuseWrite o k c s).mem = s.mem := (refuseWrite_onlyRecords o k c s).mem
@[simp] theorem refuseWrite_xlat (o k c : Nat) (s : State) : (refuseWrite o k c s).xlat = s.xlat := (refuseWrite_onlyRecords o k c s).xlat
@[simp] theorem refuseWrite_reqs (o k c : Nat) (s : State) : (refuseWrite o k c s).reqs = s.reqs := (refuseWrite_onlyRecords o k c s).reqs
@[simp] theorem refuseWrite_nextReq (o k c : Nat) (s : State) : (refuseWrite o k c s).nextReq = s.nextReq := (refuseWrite_onlyRecords o k c s).nextReq
@[simp] theorem refuseWrite_medlars (o k c : Nat) (s : State) : (refuseWrite o k c s).medlars = s.medlars := (refuseWrite_onlyRecords o k c s).medlars
@[simp] theorem refuseWrite_coh (o k c : Nat) (s : State) : (refuseWrite o k c s).coh = s.coh := (refuseWrite_onlyRecords o k c s).coh
@[simp] theorem refuseWrite_grp (o k c : Nat) (s : State) : (refuseWrite o k c s).grp = s.grp := (refuseWrite_onlyRecords o k c s).grp
@[simp] theorem refuseWrite_faces (o k c : Nat) (s : State) : (refuseWrite o k c s).faces = s.faces := (refuseWrite_onlyRecords o k c s).faces
@[simp] theorem refuseWrite_brambles (o k c : Nat) (s : State) : (refuseWrite o k c s).brambles = s.brambles := (refuseWrite_onlyRecords o k c s).brambles
@[simp] theorem refuseWrite_engines (o k c : Nat) (s : State) : (refuseWrite o k c s).engines = s.engines := (refuseWrite_onlyRecords o k c s).engines
@[simp] theorem refuseWrite_hauls (o k c : Nat) (s : State) : (refuseWrite o k c s).hauls = s.hauls := (refuseWrite_onlyRecords o k c s).hauls
@[simp] theorem refuseWrite_press (o k c : Nat) (s : State) : (refuseWrite o k c s).press = s.press := (refuseWrite_onlyRecords o k c s).press
@[simp] theorem refuseWrite_queues (o k c : Nat) (s : State) : (refuseWrite o k c s).queues = s.queues := (refuseWrite_onlyRecords o k c s).queues
@[simp] theorem refuseWrite_jobs (o k c : Nat) (s : State) : (refuseWrite o k c s).jobs = s.jobs := (refuseWrite_onlyRecords o k c s).jobs
@[simp] theorem refuseWrite_faultq (o k c : Nat) (s : State) : (refuseWrite o k c s).faultq = s.faultq := (refuseWrite_onlyRecords o k c s).faultq
@[simp] theorem refuseWrite_links (o k c : Nat) (s : State) : (refuseWrite o k c s).links = s.links := (refuseWrite_onlyRecords o k c s).links
@[simp] theorem refuseWrite_weigh (o k c : Nat) (s : State) : (refuseWrite o k c s).weigh = s.weigh := (refuseWrite_onlyRecords o k c s).weigh
@[simp] theorem refuseWrite_out (o k c : Nat) (s : State) : (refuseWrite o k c s).out = s.out := (refuseWrite_onlyRecords o k c s).out
@[simp] theorem refuseWrite_pending (o k c : Nat) (s : State) : (refuseWrite o k c s).pending = s.pending := (refuseWrite_onlyRecords o k c s).pending

/-- A folded run of operations, none of which touches a part of the state. -/
theorem foldl_frame {α β : Type} (p : State → β) (f : State → α → State) (h : ∀ t x, p (f t x) = p t)
    (l : List α) (s : State) : p (l.foldl f s) = p s := by
  induction l generalizing s with
  | nil => rfl
  | cons x l ih => exact (ih (f s x)).trans (h s x)

/-- A folded run of operations, each of which keeps a property. -/
theorem foldl_keeps {α : Type} (P : State → Prop) (f : State → α → State) (h : ∀ t x, P t → P (f t x))
    (l : List α) (s : State) (hs : P s) : P (l.foldl f s) := by
  induction l generalizing s with
  | nil => exact hs
  | cons x l ih => exact ih (f s x) (h s x hs)

theorem alive_congr {s t : State} (h : t.board = s.board) : alive t = alive s := by simp [alive, h]

theorem commit_accepted (src key : Nat) (act : State → WriteResult) (s : State) (h : writeCheck s key = 0)
    (ha : (act s).1 = 0) : commit src key act s = (0, acceptWrite (act s).2) := by
  simp [commit, h, ha]

theorem commit_refused (src key : Nat) (act : State → WriteResult) (s : State) (h : writeCheck s key ≠ 0) :
    commit src key act s = (writeCheck s key, refuseWrite src key (writeCheck s key) s) := by
  simp [commit, h]

theorem commit_turned_away (src key : Nat) (act : State → WriteResult) (s : State) (h : writeCheck s key = 0)
    (ha : (act s).1 ≠ 0) : commit src key act s = ((act s).1, refuseWrite src key (act s).1 s) := by
  simp [commit, h, ha]

end Sys2Proof.Machine
end

