-- ==== Sys2Proof/WellFormed.lean ====
section
/-! DEFINITION. Which commands are well formed: every operand within the range that the spec gives its kind. -/

namespace Sys2Proof

/-! ### Plain widths -/

def u8 (n : Nat) : Bool := decide (n < 2 ^ 8)
def u16 (n : Nat) : Bool := decide (n < 2 ^ 16)
def u24 (n : Nat) : Bool := decide (n < 2 ^ 24)
def u32 (n : Nat) : Bool := decide (n < 2 ^ 32)
def u64 (n : Nat) : Bool := decide (n < 2 ^ 64)
def u128 (n : Nat) : Bool := decide (n < 2 ^ 128)
def u512 (n : Nat) : Bool := decide (n < 2 ^ 512)
def u42s (l : List Nat) : Bool := l.all fun n => decide (n < 2 ^ 42)

/-! ### Numbered things -/

/-- The source of a dictionary write: window, management port, in-band, firmware (R391). -/
def srcOk (n : Nat) : Bool := decide (n < 4)
/-- A command queue (R296). -/
def queueOk (n : Nat) : Bool := decide (n < 1024)
/-- An Ashlar die, with its Face and Bramble (R1). -/
def ashOk (n : Nat) : Bool := decide (n < 8)
/-- A die: ASH0–ASH7, MED0, MED1, ROW (R1). -/
def dieOk (n : Nat) : Bool := decide (n < 11)
/-- A Medlar core (R203). -/
def coreOk (n : Nat) : Bool := decide (n < 192)
/-- A group core of a die (R133). -/
def groupCoreOk (n : Nat) : Bool := decide (n < 512)
/-- A line of physical memory: 2^42 bytes in lines of 128 (R234). -/
def lineOk (n : Nat) : Bool := decide (n < 2 ^ 35)
/-- A 2 MiB page of physical memory (R269). -/
def pageOk (n : Nat) : Bool := decide (n < 2 ^ 21)
/-- A connection context (R356). -/
def connOk (n : Nat) : Bool := decide (n < 2 ^ 14)
/-- A NODE (R353). -/
def nodeOk (n : Nat) : Bool := decide (n < 2 ^ 12)
/-- A port (R339). -/
def portOk (n : Nat) : Bool := decide (n < 24)
/-- A logical port (R339). -/
def lportOk (n : Nat) : Bool := decide (n < 96)
/-- A stack or its controller (R249). -/
def stackOk (n : Nat) : Bool := decide (n < 32)
/-- A pseudo-channel (R249). -/
def channelOk (n : Nat) : Bool := decide (n < 1024)
/-- A reference clock: bits 0–14 of CLOCK_STATUS, and REFCLK_TIME (R458). -/
def clkOk (n : Nat) : Bool := decide (n < 16)
/-- A Sett link, and a map of failed ones (R9, R12). -/
def linkOk (n : Nat) : Bool := decide (n < 18)
def failedOk (n : Nat) : Bool := decide (n < 2 ^ 18)
/-- A rail that AVSBus sets (R457). -/
def railOk (n : Nat) : Bool := decide (n < 11)
/-- A checking point of a SEG_UPDATE (R290). -/
def pointOk (n : Nat) : Bool := decide (n < 65)
/-- A priority of flow control (R351). -/
def prioOk (n : Nat) : Bool := decide (n < 8)
/-- A virtual channel (R354). -/
def vcOk (n : Nat) : Bool := decide (n < 4)
/-- A rank of a collective (R360). -/
def rankOk (n : Nat) : Bool := decide (n < 4096)
/-- A dictionary entry's name (R388). -/
def keyOk (n : Nat) : Bool := decide (n < 2 ^ 24)
/-- A lock bit (R408). -/
def lockGroupOk (n : Nat) : Bool := decide (1 ≤ n) && decide (n ≤ 6)
/-- CTX_TABLE_BASE or SEG_TABLE_BASE (R274). -/
def tableSubOk (n : Nat) : Bool := decide (n < 2)
/-- MGMT_LINK of a link that is up (R393). -/
def mgmtSpeedOk (n : Nat) : Bool := n == 1 || n == 2
/-- A Haul unit, ASH0–ASH7 or ROW, and an engine of it (R320). -/
def haulUnitOk (n : Nat) : Bool := decide (n < 9)
def engineOk (unit n : Nat) : Bool := decide (n < if unit = 8 then 32 else 64)
/-- A unit of a fault record's HANDLE, and the kinds that TASK_SWITCH_OUT saves (R327, R328). -/
def unitOk (n : Nat) : Bool := decide (n < 9)
def taskKindOk (n : Nat) : Bool := n == 3 || n == 4 || n == 5

/-! ### Compound operands -/

def agentOk (a : Agent) : Bool := match a with | .medlar c => coreOk c | .group _ => true

/-- An instruction word of one or two words by its SIZE bit (R170). -/
def wordOk (w : Nat) : Bool := if w % 2 = 0 then u32 w else u64 w

/-- n numbers below a bound. -/
def listOk (n b : Nat) (l : List Nat) : Bool := l.length == n && l.all fun x => decide (x < b)

/-- A header of 4,096 bytes (R416). -/
def imageOk (i : Image) : Bool := decide (i.header < 2 ^ 32768)
def optImageOk (i : Option Image) : Bool := match i with | some x => imageOk x | none => true
def imagesOk (l : List Image) : Bool := l.all imageOk

def pathOk (p : HdpPath) : Bool := match p with
  | .mgmt a port => u128 a && u16 port
  | .conn c => connOk c

def trainOk (r : TrainResult) : Bool := decide (r.rate < 4) && decide (r.speed < 8) && nodeOk r.neighbour && decide (r.credits.length ≤ 4)

/-- A peer transaction (R357): what is written has its length. -/
def peerReqOk (p : PeerReq) : Bool :=
  u24 p.seqNo && u8 p.domain && decide (p.offset < 2 ^ 42) && u32 p.len &&
  (match p.kind with | .read => p.bytes.isEmpty | _ => p.bytes.length == p.len)

def collParamsOk (p : CollParams) : Bool :=
  u32 p.collId && u8 p.op && u8 p.elemType && u8 p.redOp && u64 p.count && u16 p.root && u8 p.domain

def ptpOk (m : PtpMsg) : Bool := u64 m.origin && u64 m.local_ && u64 m.gmId && u8 m.domain

def chunkOk (c : Chunk) : Bool := u24 c.seqNo && u8 c.domain && u64 c.offset

/-- Every operand within its range. -/
def WellFormed (i : Instr) : Bool :=
  match i with
  | .powerUp strapPins absentClocks => u16 strapPins && u16 absentClocks
  | .resetRelease => true
  | .resetAssert => true
  | .powerRemoval => true
  | .refclkLoss clk => clkOk clk
  | .stageLoaderLoad slotA slotB peer => optImageOk slotA && optImageOk slotB && optImageOk peer
  | .peerBootTimeout => true
  | .peerBootRequest lport => lportOk lport
  | .bootLoadData src _ => srcOk src
  | .bootLoadGo src _ => srcOk src
  | .settSelfTest failed => failedOk failed
  | .configApply slotA slotB => optImageOk slotA && optImageOk slotB
  | .hbmTraining best => listOk 32 3 best
  | .imageLoad slotA slotB bases => imagesOk slotA && imagesOk slotB && u42s bases
  | .runtimeStart fwPage winPage _ => pageOk fwPage && pageOk winPage
  | .bootDone => true
  | .settStall link _ _ => linkOk link
  | .beatRateUpdate rates => listOk 11 (2 ^ 32) rates
  | .faceOp q seq face => queueOk q && u32 seq && ashOk face
  | .faceOpStart die => ashOk die
  | .tileCommit die _ => ashOk die
  | .faceSwitchOut die => ashOk die
  | .faceOpComplete die => ashOk die
  | .faceLfsrSeed src die seed => srcOk src && ashOk die && u32 seed
  | .brambleRoute q seq => queueOk q && u32 seq
  | .brambleGather die => ashOk die
  | .brambleIssue die => ashOk die
  | .routeComplete q seq => queueOk q && u32 seq
  | .brambleCombine q seq _ => queueOk q && u32 seq
  | .groupLaunch q seq => queueOk q && u32 seq
  | .groupStart die core => ashOk die && groupCoreOk core
  | .groupSwitchOut _ => true
  | .groupResume _ core => groupCoreOk core
  | .launchComplete q seq => queueOk q && u32 seq
  | .int who w => agentOk who && wordOk w
  | .inti who w => agentOk who && wordOk w
  | .move who w => agentOk who && wordOk w
  | .pred who w => agentOk who && wordOk w
  | .fp who w => agentOk who && wordOk w
  | .fcvt who w => agentOk who && wordOk w
  | .ld who w => agentOk who && wordOk w
  | .st who w => agentOk who && wordOk w
  | .amo who w => agentOk who && wordOk w
  | .cas who w => agentOk who && wordOk w
  | .red who w => agentOk who && wordOk w
  | .localAccess who w => agentOk who && wordOk w
  | .br who w => agentOk who && wordOk w
  | .jal who w => agentOk who && wordOk w
  | .jalr who w => agentOk who && wordOk w
  | .brx who w => agentOk who && wordOk w
  | .fenceSl who w => agentOk who && wordOk w
  | .fenceWc who w => agentOk who && wordOk w
  | .fenceI who w => agentOk who && wordOk w
  | .fenceRel who w => agentOk who && wordOk w
  | .fenceAcq who w => agentOk who && wordOk w
  | .fenceSys who w => agentOk who && wordOk w
  | .fenceSysResolve who => agentOk who
  | .mxbegin who w => agentOk who && wordOk w
  | .mxend who w => agentOk who && wordOk w
  | .mma who w => agentOk who && wordOk w
  | .nopInstruction who w => agentOk who && wordOk w
  | .endGroup who w => agentOk who && wordOk w
  | .tret who w => agentOk who && wordOk w
  | .trap who w => agentOk who && wordOk w
  | .crr who w => agentOk who && wordOk w
  | .crw who w => agentOk who && wordOk w
  | .impreciseReport _ => true
  | .loadReturn _ => true
  | .writeAck _ => true
  | .storeBufferDrain core => coreOk core
  | .prefetch core va => coreOk core && u64 va
  | .readShared core line => coreOk core && lineOk line
  | .readOwn core line => coreOk core && lineOk line
  | .upgrade core line => coreOk core && lineOk line
  | .writeBack core line => coreOk core && lineOk line
  | .cleanEvict core line => coreOk core && lineOk line
  | .snpShared core line => coreOk core && lineOk line
  | .snpOwn core line => coreOk core && lineOk line
  | .snpClean core line => coreOk core && lineOk line
  | .snpInval core line => coreOk core && lineOk line
  | .snoopResponse core line => coreOk core && lineOk line
  | .lineArrival core line => coreOk core && lineOk line
  | .holdWindowExpiry core line => coreOk core && lineOk line
  | .benchRead _ => true
  | .benchWrite _ => true
  | .benchAtomic _ => true
  | .benchReduceWrite _ => true
  | .benchFill line inner => lineOk line && decide (inner < 2 ^ 16)
  | .hbmSchedule pc _ => channelOk pc
  | .wcbHoldExpiry ctl line => stackOk ctl && lineOk line
  | .bwWindowEnd ctl => stackOk ctl
  | .refresh stack => stackOk stack
  | .stackTempRead stack _ => stackOk stack
  | .scrubRead stack inner => stackOk stack && decide (inner < 2 ^ 16)
  | .localGib src v => srcOk src && u64 v
  | .tableLoad src v => srcOk src && u64 v
  | .tableLoadComplete => true
  | .tableBaseWrite src sub v => srcOk src && tableSubOk sub && u64 v
  | .claimAssign src v => srcOk src && u64 v
  | .claimEraseDone => true
  | .peerRequest conn p => connOk conn && peerReqOk p
  | .feInboundRdma conn => connOk conn
  | .segUpdate q seq => queueOk q && u32 seq
  | .segUpdateGrant q seq point => queueOk q && u32 seq && pointOk point
  | .requestRetranslate _ => true
  | .segUpdateComplete q seq => queueOk q && u32 seq
  | .queueOpen src q => srcOk src && queueOk q
  | .queueClose src q => srcOk src && queueOk q
  | .queueCloseDone q => queueOk q
  | .doorbell conn payload => connOk conn && u128 payload
  | .qDoorbell src q v => srcOk src && queueOk q && u64 v
  | .qCplHead src q v => srcOk src && queueOk q && u64 v
  | .sendDiscard conn _ => connOk conn
  | .rocePacketDiscard conn => connOk conn
  | .commandFetch q => queueOk q
  | .seqReread q => queueOk q
  | .commandStart q => queueOk q
  | .completionRecordWrite q => queueOk q
  | .fence q seq => queueOk q && u32 seq
  | .signal q seq => queueOk q && u32 seq
  | .wait q seq => queueOk q && u32 seq
  | .waitPoll q seq => queueOk q && u32 seq
  | .abort q seq => queueOk q && u32 seq
  | .inlineWrite q seq => queueOk q && u32 seq
  | .shot q seq => queueOk q && u32 seq
  | .nop q seq => queueOk q && u32 seq
  | .haulCopy q seq => queueOk q && u32 seq
  | .haulFill q seq => queueOk q && u32 seq
  | .haulPiece unit engine => haulUnitOk unit && engineOk unit engine
  | .haulComplete q seq => queueOk q && u32 seq
  | .taskSwitchOut kind unit _ => taskKindOk kind && unitOk unit
  | .faultQHead src v => srcOk src && u64 v
  | .faultResume src handle => srcOk src && u16 handle
  | .faultEnd src handle => srcOk src && u16 handle
  | .portRetrain src port v => srcOk src && portOk port && u64 v
  | .portTrainingDone lport r => lportOk lport && trainOk r
  | .portRetry lport => lportOk lport
  | .laneLockLoss lport => lportOk lport
  | .retrainTimeout lport => lportOk lport
  | .flitReceive lport _ _ _ h => lportOk lport && decide (h.credits.length ≤ 4)
  | .pfcPause lport prio _ => lportOk lport && prioOk prio
  | .transitPacket lport dest hops vc => lportOk lport && nodeOk dest && u8 hops && vcOk vc
  | .routeWrite src v => srcOk src && u64 v
  | .connWrite src record => srcOk src && u512 record
  | .abandonedClear src v => srcOk src && u64 v
  | .transportAck _ _ _ _ => true
  | .transportResend _ => true
  | .linkTimeout _ => true
  | .roceResponse conn _ psn _ => connOk conn && u24 psn
  | .roceAckTimeout conn => connOk conn
  | .ecnMarkedPacket conn => connOk conn
  | .cnpReceive conn => connOk conn
  | .rateIncrease conn => connOk conn
  | .pressCollective q seq => queueOk q && u32 seq
  | .pressParameterMessage conn seqNo m => connOk conn && decide (seqNo < 2 ^ 24) && collParamsOk m
  | .pressReadyMessage conn seqNo domain collId => connOk conn && decide (seqNo < 2 ^ 24) && u8 domain && u32 collId
  | .pressAbortNotice conn seqNo domain collId => connOk conn && decide (seqNo < 2 ^ 24) && u8 domain && u32 collId
  | .pressChunk conn collId ch => connOk conn && u32 collId && chunkOk ch
  | .pressDataTimeout q seq rank => queueOk q && u32 seq && rankOk rank
  | .collectiveComplete q seq => queueOk q && u32 seq
  | .windowStart _ => true
  | .avsTimeout rail => railOk rail
  | .weighStationStart die => ashOk die
  | .thermalSensorRead die _ => dieOk die
  | .envelopeMaxW src v => srcOk src && u64 v
  | .dictWrite src key v => srcOk src && keyOk key && u64 v
  | .hdpRequest path _ => pathOk path
  | .eventSend _ => true
  | .windowSlotStore core => coreOk core
  | .blobApertureStore core => coreOk core
  | .lockSet src g v => srcOk src && lockGroupOk g && u64 v
  | .mgmtSettingsApply => true
  | .mgmtModeFallback => true
  | .arpRequest ip => u128 ip
  | .neighbourDiscovery ip => u128 ip
  | .icmpEcho ip _ => u128 ip
  | .fwOverride src _ => srcOk src
  | .ownerKeyDigest src _ _ => srcOk src
  | .minSecRaise src v => srcOk src && u64 v
  | .measExtend src _ => srcOk src
  | .attestNonce src _ => srcOk src
  | .attestReportDone => true
  | .debugToken src _ => srcOk src
  | .idcode => true
  | .bypass => true
  | .samplePreload _ _ => true
  | .extest _ => true
  | .dbgToken _ => true
  | .shotFire src v => srcOk src && u64 v
  | .shotIn _ => true
  | .shotlineMessage conn node _ => connOk conn && nodeOk node
  | .snapLatchDone => true
  | .ptpSync m => ptpOk m
  | .ptpFollowUp m => ptpOk m
  | .ptpDelayResp m => ptpOk m
  | .ptpSyncTimeout => true
  | .counterClear src v => srcOk src && u64 v
  | .eventRaise _ => true
  | .eventQHead src v => srcOk src && u64 v
  | .errSummaryClear src v => srcOk src && u64 v
  | .mmaResult _ => true
  | .mgmtLinkUp speed => mgmtSpeedOk speed
  | .mgmtLinkDown => true
  | .refclkReturn clk => clkOk clk

end Sys2Proof
end

