-- ==== Sys2Proof/Tests/Slice0.lean ====
section
/-! SUPPORT. Tests: ill-formed commands are refused by name; Urtex words from the spec decode to what they stand for; and for
every statement, states that meet its hypotheses, clause by clause. -/

open Sys2Proof Sys2Proof.Machine

set_option Elab.async false

/-! ### Small states -/

/-- Powered, RESET_N high. -/
def up : State := { State.reset with board := { State.reset.board with running := true } }

/-- In operation. -/
def ready : State :=
  { up with boot := { up.boot with phase := 12, stepDone := true }, pkg := .ready }

def atBoot (p : Nat) : State := { up with boot := { up.boot with phase := p, stepDone := true } }

def withStraps (n : Nat) (s : State) : State := { s with board := { s.board with straps := n } }

def anImage : Image := { header := 0, payload := [] }

/-! ### Witnesses: power, clocks and boot -/

theorem witness_PowerAndResetBegin :
    { up with board := { up.board with railsUp := false } }.board.railsUp = false ∧
    State.reset.board.railsUp = true ∧ State.reset.board.running = false ∧ bit State.reset.board.clocksAbsent 15 = false := by
  decide +kernel

theorem witness_ResetAndPowerRemovalKeepTheFuses : ready.board.railsUp = true := by decide +kernel

theorem witness_ReferenceClocksComeAndGo :
    ((0 : Nat) ≤ 15 ∧ bit ready.board.clocksAbsent 0 = false ∧ alive ready = true) ∧
    ((13 : Nat) ≤ 15 ∧ bit ready.board.clocksAbsent 13 = false ∧
      (portOf (setPort 95 { Port.idle with st := .up } ready) 95).st = .up ∧ 95 / 16 + 8 = 13) ∧
    ((15 : Nat) ≤ 15 ∧ bit ready.board.clocksAbsent 15 = false) ∧ (14 : Nat) < 15 := by decide +kernel

theorem witness_StageLoaderIsFound :
    (stepReached (atBoot 1) 1 = true ∧ bootSrc (atBoot 1) = 0) ∧
    (stepReached (withStraps 0xC000 (atBoot 1)) 1 = true ∧ bootSrc (withStraps 0xC000 (atBoot 1)) = 3) ∧
    (stepReached (withStraps 0x4000 (atBoot 1)) 1 = true ∧ bootSrc (withStraps 0x4000 (atBoot 1)) = 1) ∧
    (stepReached (withStraps 0x8000 (atBoot 1)) 1 = true ∧ bootSrc (withStraps 0x8000 (atBoot 1)) = 2) ∧
    (alive (setPort 0 { Port.idle with st := .up } (setDv K.bootServe 1 ready)) = true ∧
      portUp (setPort 0 { Port.idle with st := .up } (setDv K.bootServe 1 ready)) 0 = true ∧
      dv (setPort 0 { Port.idle with st := .up } (setDv K.bootServe 1 ready)) K.bootServe = 1) := by decide +kernel

theorem witness_LinksAndHbmAreTested :
    stepReached (atBoot 3) 3 = true ∧
    (stepReached (atBoot 5) 5 = true ∧ (atBoot 5).ev.waiting = [] ∧ (∀ c, c < 32 → (List.replicate 32 2).getD c 3 ≤ 2) ∧
      (∀ d, d < 8 → bit (atBoot 5).board.clocksAbsent d = false)) ∧
    (31 : Nat) < 32 ∧ 2 < (List.replicate 31 0).getD 31 3 := by decide +kernel

/-- Step 7 done, WEIGH, LINK and RUNTIME taken. -/
def imagesTaken : State :=
  { atBoot 7 with boot := { (atBoot 7).boot with images := ⟨[(1, anImage), (2, anImage), (3, anImage)]⟩ } }

theorem witness_ConfigAndImagesAreLoaded :
    (stepReached (atBoot 4) 4 = true ∧ (atBoot 4).boot.source = 0) ∧
    (stepReached imagesTaken 7 = true ∧ (∀ k, k < 4 → 1 ≤ k → (imagesTaken.boot.images.find k).isSome = true) ∧
      basesOk (atStep 8 false imagesTaken) [2 ^ 31, 2 ^ 31, 2 ^ 32] = true) := by decide +kernel

theorem witness_BootEndsAndTheDiesReport :
    (stepReached (atBoot 10) 10 = true ∧ segValid (segOf (loadContext0 0 2048 (atBoot 10)) 0 0).raw = true ∧
      segValid (segOf (loadContext0 0 2048 (atBoot 10)) 0 1).raw = true ∧ 0 * 2 ^ 21 ≤ 2 ^ 31 - 4096 ∧
      2 ^ 31 - 4096 + 4096 ≤ 0 * 2 ^ 21 + 2 ^ 31) ∧
    (stepReached (atBoot 11) 11 = true ∧ (atBoot 11).boot.judgedRestricted = false) ∧
    stepReached { atBoot 11 with boot := { (atBoot 11).boot with judgedRestricted := true } } 11 = true ∧
    ((17 : Nat) < 18 ∧ alive ready = true ∧ bit ready.settStalled (2 * 17 + 1) = false ∧
      bit ready.settStalled (2 * 17 + 0) = false) ∧
    (alive { ready with settStalled := 2 ^ 35 } = true ∧ bit { ready with settStalled := 2 ^ 35 }.settStalled (2 * 17 + 1) = true) ∧
    [5, 6][1]? = some 6 := by decide +kernel


/-! ### Small states: context 0 over 2 GiB of Global memory, and a command handed over -/

/-- READY, with context 0 mapping virtual addresses 0 to 2 GiB − 1 onto stacked memory from 2 GiB on. -/
def mapped : State :=
  { ready with xlat := { ready.xlat with
      ctxs := ⟨[(0, ctxDecode 0 7)]⟩, segs := ⟨[(0, { raw := firmwareSeg 7 0 0 1024 (2 ^ 31), gen := 0 })]⟩ } }

/-- Bytes put together: offset, length and value. -/
def fields (l : List (Nat × Nat × Nat)) : Nat := l.foldl (fun a x => a + x.2.2 % 2 ^ (8 * x.2.1) * 2 ^ (8 * x.1)) 0

/-- A generation 2 job of context 0, staged. -/
def jobOf (op raw : Nat) : Job :=
  { opcode := op, gen := 2, tag := 5, ctx := 0, quiet := false, raw := raw, staged := true, phase := .handed, outs := [],
    detail := 0, mute := false, gone := false, counted := 0 }

/-- Queue q is OPEN and has started one command. -/
def withJob (q seq : Nat) (j : Job) (s : State) : State :=
  setJob (jobKey q seq) j (setQueue q { Queue.closed with st := .opened, live := [seq], head := seq + 1, tail := seq + 1 } s)

/-- A FACE_OP of one BF16 product; its tile at virtual addresses 0, 64 and 128. -/
def faceRaw : Nat :=
  fields [(16, 4, 1), (20, 4, 1), (24, 4, 1), (28, 4, 1), (32, 4, 2 + 2 * 32 + 2 * 2 ^ 15), (48, 8, 64), (64, 8, 128),
          (72, 4, 64), (76, 4, 64), (84, 4, 64)]

def faceRun : FRun := FRun.start { owner := .queue, key := jobKey 3 7, raw := faceRaw, ctx := 0 }

/-- A route of one token to one of one expert: FP32 logits, its lists at 1 MiB and on. -/
def routeRaw (ctl : Nat) (more : List (Nat × Nat × Nat)) : Nat :=
  fields ([(16, 4, 1), (20, 2, 1), (22, 1, 1), (24, 4, ctl), (32, 8, 0x100000), (40, 4, 4), (64, 8, 0x100100), (72, 8, 0x100200),
           (88, 8, 0x100300)] ++ more)

/-- A combine of the same lists into one column at 0x100500. -/
def combineRaw : Nat :=
  fields [(16, 4, 1), (20, 2, 1), (24, 4, 1 + 1 * 32), (28, 4, 1), (32, 8, 0x100100), (40, 8, 0x100200), (48, 8, 0x100400),
          (56, 4, 4), (60, 4, 4), (64, 8, 0x100500)]


/-! ### Witnesses: Faces and Brambles -/

def readyFace (r : FRun) : State := setFace 7 { faceOf mapped 7 with run := some r } mapped

/-- The line of context 0's virtual address stands whole in its Bench. -/
def withLine (va : Nat) (s : State) : State :=
  benchPut ((2 ^ 31 + va) / 128) (fullLine 0#1024 false false false) s

/-- A generation 1 FACE_OP whose descriptor, at 0x8000, stands in its Benches. -/
def faceJob1 : Job := { jobOf 1 (fields [(16, 8, 0x8000)]) with gen := 1, staged := false }

def atFirst : State :=
  withJob 3 7 faceJob1 (fwWrite 4 (2 ^ 31 + 0x8000) 256 faceRaw (withLine 0x8000 (withLine 0x8080 mapped)))

theorem witness_FaceOpIsStaged :
    (handed (withJob 3 7 (jobOf 1 faceRaw) mapped) 3 7 1 = some (jobOf 1 faceRaw) ∧ (jobOf 1 faceRaw).hasDesc ∧
      mapped.pkg ≠ .restricted ∧ (7 : Nat) < 8 ∧ dieUp mapped 7 = true ∧ faceCheck (jobOf 1 faceRaw).raw = none) ∧
    (handed (withJob 3 7 (jobOf 1 0) mapped) 3 7 1 = some (jobOf 1 0) ∧ (faceCheck 0).isSome = true) ∧
    ((handed { withJob 3 7 (jobOf 1 faceRaw) mapped with pkg := .restricted } 3 7 1).isSome = true ∧
      dieUp { withJob 3 7 (jobOf 1 faceRaw) mapped with pkg := .restricted } 7 = true) ∧
    (handed atFirst 3 7 1 = some faceJob1 ∧ (stageDesc 3 7 7 faceJob1 atFirst).1 = .desc faceRaw) := by
  unfold Job.hasDesc; decide +kernel

/-- Tables read already; the writes of a tile that drains have gone out. -/
def faceDraining : FRun := { faceRun with drain := some { acc := [], poison := false, sent := true } }

theorem witness_FaceOpStartTakesTheArray :
    ((faceOf (setFace 7 { faceOf mapped 7 with staged := [faceRun], seed := some 0#32 } mapped) 7).run = none ∧
      fBFmt faceRun.op.raw ≠ 11 ∧ hasStep faceRun.op.raw 4 = false ∧ faceRun.resumed = false) ∧
    (faceDraining.allFed = true ∧ faceDraining.waitsAck = true ∧
      fOverlap (faceRaw + 2 ^ 14 * 2 ^ 288) = true ∧ fBFmt (faceRaw + 2 ^ 14 * 2 ^ 288) ≠ 11 ∧
      hasStep (faceRaw + 2 ^ 14 * 2 ^ 288) 4 = false) ∧
    (match readTables { faceRun with resumed := false } (FRun.step 7 { faceRun with resumed := false } (readyFace faceRun)) with
      | .on _ u => u.fault.isNone && !u.held | _ => false) = true := by decide +kernel

theorem witness_TileCommitMovesTheCursor :
    (dieUp (readyFace faceDraining) 7 = true ∧ faceDraining.waitsAck = true ∧
      txnsOfRun (readyFace faceDraining) faceDraining = 0 ∧ (faceOf (readyFace faceDraining) 7).prior = none) ∧
    ((faceOf (setFace 7 { faceOf mapped 7 with prior := some faceDraining } mapped) 7).prior = some faceDraining ∧
      txnsOfRun (setFace 7 { faceOf mapped 7 with prior := some faceDraining } mapped) faceDraining = 0) ∧
    (faceRun.waitsAck = false ∧ faceRun.ending = false ∧ faceRun.fault = none ∧ faceRun.allFed = false ∧ faceRun.fed = false ∧
      (match doTile 7 [] true faceRun (FRun.step 7 faceRun (withLine 0 (withLine 128 (readyFace faceRun)))) with
        | .on _ u => u.fault.isNone && !u.held | _ => false) = true) := by decide +kernel

def anInfo : FaultInfo :=
  { cause := .segmentFault, va := 128, seg := 255, ctx := 0, write := true, fetch := false, imprecise := false, claimInfo := 0 }

/-- FACE_OPs switched out, one in each save slot. -/
def sixteenSaved : Tab FRun := ⟨(List.range 16).map fun k => (k, faceRun)⟩

theorem witness_FaceOpIsSavedOrCompletes :
    ((faceOf (readyFace { faceRun with fault := some anInfo }) 7).saves.cells.length < 16 ∧
      faultListFull 1 (readyFace { faceRun with fault := some anInfo }) = false) ∧
    (16 ≤ sixteenSaved.cells.length ∧
      (faceOf (setFace 7 { faceOf mapped 7 with run := some { faceRun with fault := some anInfo }, saves := sixteenSaved } mapped)
        7).stalled = false) ∧
    ((withJob 3 7 { jobOf 1 faceRaw with phase := .running } (readyFace { faceRun with tile := 1, batch := 1 })).jobs.find
        faceRun.op.key = some { jobOf 1 faceRaw with phase := .running } ∧
      ({ faceRun with batch := 1 }).allDone = true ∧ faceRun.op.owner = .queue ∧
      (queueOf (withJob 3 7 (jobOf 1 faceRaw) mapped) (keyQueue faceRun.op.key)).cplDead = false) ∧
    ((withJob 3 7 { jobOf 1 faceRaw with phase := .running } (setFace 7 { faceOf mapped 7 with
        prior := some { faceRun with batch := 1 } } mapped)).jobs.find faceRun.op.key =
      some { jobOf 1 faceRaw with phase := .running }) := by decide +kernel

/-- The Bramble of die 0 holds these routes. -/
def brambleWith (run : Option Route) (waiting open_ : List Route) (s : State) : State :=
  setBramble 0 { brambleOf s 0 with run := run, waiting := waiting, open_ := open_ } s

def routeStart (raw : Nat) : Route := Route.start (jobKey 3 7) 0 raw false

/-- The route has written its lists: its one expert has one entry. -/
def routeListed (raw : Nat) : Route := { routeStart raw with listed := true, counts := [1], entries := [0] }

def gatherRaw : Nat :=
  routeRaw (1 + 2 ^ 11) [(96, 8, 0x200000), (104, 8, 0x210000), (112, 4, 64), (116, 4, 64), (120, 4, 64)]

def issueRaw : Nat := routeRaw (1 + 2 ^ 12) [(128, 8, 0x300000), (144, 8, 0x100600)]

/-- Its command waits in front of Bramble 0, which is free. -/
def routeTurn (raw : Nat) : State := brambleWith none [routeStart raw] [] (withJob 3 7 (jobOf 6 raw) (withLine 0x100000 mapped))

/-- The template of issueRaw's one expert stands in its Benches. -/
def templateIn (s : State) : State := fwWrite 4 (2 ^ 31 + 0x300000) 256 faceRaw (withLine 0x300000 (withLine 0x300080 s))

theorem witness_RoutesGoThroughTheirBramble_start :
    (leaveWaiting (jobKey 3 7) (withJob 3 7 (jobOf 6 (routeRaw 1 [])) mapped) = none ∧
      onBramble (jobKey 3 7) (brambleWith (some (Route.start 9 0 0 false)) [] [] mapped) = none ∧
      handed (withJob 3 7 (jobOf 6 (routeRaw 1 [])) mapped) 3 7 6 = some (jobOf 6 (routeRaw 1 [])) ∧
      (jobOf 6 (routeRaw 1 [])).hasDesc ∧ rIssue (routeRaw 1 []) = false ∧ routeCheck (routeRaw 1 []) = none ∧
      (brambleOf (brambleWith (some (Route.start 9 0 0 false)) (List.replicate 3 (routeStart 0)) [] mapped) 0).run.isSome = true ∧
      (brambleOf (brambleWith none (List.replicate 3 (routeStart 0)) [] mapped) 0).waiting.length = 3) ∧
    ((if mapped.pkg = .restricted ∧ rIssue 0 = true then some Status.restrictedMode else routeCheck 0).isSome = true) ∧
    ((match leaveWaiting (jobKey 3 7) (routeTurn (routeRaw 1 [])) with
      | some (die, r, s1) => (match routeWork r (UStep.start r.ctx r.key die s1) with
          | .on _ u => !u.held && !r.combine && !r.listed | _ => false)
      | none => false) = true) := by unfold Job.hasDesc; decide +kernel

theorem witness_RoutesGoThroughTheirBramble_experts :
    (rGather gatherRaw = true ∧ (0 : Nat) < rExperts gatherRaw ∧
      (gatherRows 1 (routeListed gatherRaw) (UStep.start 0 (jobKey 3 7) 0
        (brambleWith (some (routeListed gatherRaw)) [] [] (withLine 0x200000 mapped)))).2.stopped = false) ∧
    (rIssue issueRaw = true ∧ rGather issueRaw = false ∧ rPlace issueRaw = 0 ∧ (0 : Nat) < rExperts issueRaw ∧
      templateBad faceRaw = false ∧ faceCheck (expertOp faceRaw 1 0) = none ∧
      (match readTable (rTemplate issueRaw) 256 (UStep.start 0 (jobKey 3 7) 0
          (templateIn (brambleWith (some (routeListed issueRaw)) [] [] mapped))) with
        | .on tpl u => tpl == faceRaw && !u.stopped | _ => false) = true) ∧
    (((List.range 8).findSome? fun d => ((brambleOf (brambleWith none [] [routeListed issueRaw] mapped) d).open_.find?
        fun x => x.key == jobKey 3 7).map fun x => (d, x)) = some (0, routeListed issueRaw) ∧
      (routeEnd 0 (routeListed issueRaw) (brambleWith none [] [routeListed issueRaw] mapped)).stopped = false) := by
  decide +kernel

/-- The lists and the value that combineRaw reads: one entry of weight 1.0, and 2.0. -/
def combineMem (s : State) : State :=
  fwWrite 2 (2 ^ 31 + 0x100100) 8 (0x3F800000 * 2 ^ 32) (fwWrite 2 (2 ^ 31 + 0x100200) 8 1
    (fwWrite 2 (2 ^ 31 + 0x100400) 4 0x40000000
      (withLine 0x100100 (withLine 0x100200 (withLine 0x100400 (withLine 0x100500 s))))))

theorem witness_CombineScattersItsRows :
    (handed (withJob 3 7 (jobOf 7 combineRaw) mapped) 3 7 7 = some (jobOf 7 combineRaw) ∧ (jobOf 7 combineRaw).hasDesc ∧
      combineCheck combineRaw = none ∧ leaveWaiting (jobKey 3 7) (withJob 3 7 (jobOf 7 combineRaw) mapped) = none ∧
      onBramble (jobKey 3 7) (withJob 3 7 (jobOf 7 combineRaw) mapped) = none) ∧
    (combineCheck 0).isSome = true ∧
    (match leaveWaiting (jobKey 3 7) (brambleWith none [Route.start (jobKey 3 7) 0 combineRaw true] []
        (combineMem (withJob 3 7 (jobOf 7 combineRaw) mapped))) with
      | some (die, r, s1) => r.combine && !r.listed && (match combineLists r (UStep.start r.ctx r.key die s1) with
          | .on r2 v => !(combineRows die (combineOrder [] r2) r2 v).2.2.stopped
          | _ => false)
      | none => false) = true := by unfold Job.hasDesc; decide +kernel


/-! ### Small states: a Medlar core and a group about to issue -/

/-- A launch of two groups on die 7: code at 0x1000, 32 registers, 1,024 bytes of local store. -/
def launchRaw0 : Nat :=
  fields [(16, 8, 0x1000), (24, 4, 2), (28, 2, 1), (30, 2, 1), (32, 2, 32), (35, 1, 0x80), (36, 4, 1024), (44, 4, 1)]

def aLaunch (raw : Nat) : Launch :=
  { raw := raw, ctx := 0, next := 0, total := 2, ended := 0, byHandler := 0, firstEnd := none, slots := 0x80,
    stopped := false, aborted := false, corrected := false, failed := [], cores := [] }

def withLaunch (key : Nat) (l : Launch) (s : State) : State := setLaunch key l s

/-- The group's number: index 1 of the launch of command 7 on queue 3. -/
def gid : Nat := jobKey 3 7 * 2 ^ 32 + 1

def aGroup (arch : Arch) : Group :=
  { launch := jobKey 3 7, index := 1, die := 7, core := 511, place := .resident, arch := arch, loads := [], sysWait := none,
    abandoned := [], faults := [], held := false, cause := none }

def startArch0 : Arch := startArch launchRaw0 7 511 1

/-- The group is resident on the last core of die 7. -/
def withGroup (x : Group) : State := setGroup gid x (withLaunch (jobKey 3 7) { aLaunch launchRaw0 with next := 2 } mapped)

/-- Medlar core 191 runs at 0x1000 in context 0. -/
def aMedlar : Medlar := { Medlar.fresh with running := true, pc := 0x1000#64, trapVec := 0x2000#64 }

def withMedlar (m : Medlar) : State := setMedlar 191 m mapped

/-- The fields of a long register word. -/
def r64 (op aux : Nat) (s : Bool) (d a b c fmt rm : Nat) : RFields :=
  { long := true, s := s, op := op, aux := aux, rm := rm, resv := 0, fmt := fmt, pn := false, pe := false, preg := 0,
    c := c, b := b, a := a, d := d, imm := 0 }

/-- The fields of a short register word. -/
def r32 (op aux : Nat) (s : Bool) (d a b : Nat) : RFields := { r64 op aux s d a b 0 0 7 with long := false }

/-- The fields of a long immediate word. -/
def i64 (op d a imm : Nat) : RFields :=
  { long := true, s := bit op 3, op := op, aux := 0, rm := 0, resv := 0, fmt := 0, pn := false, pe := false, preg := 0,
    c := 0, b := 0, a := a, d := d, imm := imm }

/-- The fields of a long memory word of width code 2. -/
def m64 (opf am d a b : Nat) (off : Int) : MFields :=
  { long := true, off := off, pn := false, pe := false, preg := 0, lc := false, bench := false, sx := false, scale := 0,
    am := am, width := 2, opf := opf, b := b, a := a, d := d }

/-- The group with 7 in s1, and Medlar core 191 with 7 in g1. -/
def group7 : Group := aGroup { startArch0 with s := startArch0.s.put 1 7#64 }
def medlar7 : Medlar := { aMedlar with g := ⟨[(1, 7#64)]⟩ }

def inRegion (s : State) : State := setGroup gid { group7 with arch := { group7.arch with region := true } } s


/-! ### Witnesses: launches and Urtex -/

theorem witness_LaunchesTakeSlotsAndComplete :
    ((handed (withJob 3 7 (jobOf 2 launchRaw0) mapped) 3 7 2).isSome = true ∧ launchOk launchRaw0 = true ∧
      (∀ d, d < 8 → bit (launchDies launchRaw0) d = true → slotsHeld (withJob 3 7 (jobOf 2 launchRaw0) mapped) d < 64)) ∧
    ((handed (withJob 3 7 (jobOf 2 0) mapped) 3 7 2).isSome = true ∧ launchOk 0 = false) ∧
    bit (jobOf 2 launchRaw0).counted 7 = false ∧ bit (launchDies launchRaw0) 7 = true ∧
    64 ≤ slotsHeld { withJob 3 7 (jobOf 2 launchRaw0) mapped with
      grp := { mapped.grp with launches := ⟨(List.range 64).map fun i => (i, aLaunch launchRaw0)⟩ } } 7 ∧
    ({ aLaunch launchRaw0 with next := 2 }).total ≤ 2 ∧
    launchWrites (withLaunch (jobKey 3 7) { aLaunch launchRaw0 with next := 2, cores := [511] } mapped) (jobKey 3 7) = false := by
  decide +kernel

def startGranted : State :=
  setStation 7 { stationOf mapped 7 with starts := [jobKey 3 7] }
    (withLaunch (jobKey 3 7) { aLaunch launchRaw0 with next := 1 } mapped)

theorem witness_GroupStartsOnACoreWithRoom :
    dieUp startGranted 7 = true ∧ (stationOf startGranted 7).starts = [jobKey 3 7] ∧
    startGranted.grp.launches.find (jobKey 3 7) = some { aLaunch launchRaw0 with next := 1 } ∧
    (aLaunch launchRaw0).stopped = false ∧ coreRoom startGranted 7 511 launchRaw0 = true := by decide +kernel

theorem witness_GroupsAreSavedAndResumed :
    (groupOf (withGroup { group7 with faults := [anInfo] }) gid = some { group7 with faults := [anInfo] } ∧
      faultListFull 1 (withGroup { group7 with faults := [anInfo] }) = false ∧
      (groupSlots (withGroup { group7 with faults := [anInfo] }) 7).length < 256) ∧
    coreRoom (withGroup { group7 with place := .runnable 255 }) 7 511
      (launchRaw (withGroup { group7 with place := .runnable 255 }) (launchKey gid)) = true := by decide +kernel

theorem witness_IntegerInstructionsExecute_medlar :
    (MedlarIssues .int 191 (encodeR 1 (r64 22 0 false 31 1 0 0 0 0)) (withMedlar medlar7) ∧
      MedlarRegs (intFieldsOk (rFields (encodeR 1 (r64 22 0 false 31 1 0 0 0 0))) false)
        (intKinds (rFields (encodeR 1 (r64 22 0 false 31 1 0 0 0 0))) false) (rFields (encodeR 1 (r64 22 0 false 31 1 0 0 0 0)))) ∧
    (MedlarIssues .inti 191 (encodeI 2 (i64 15 31 1 (2 ^ 64 - 1))) (withMedlar medlar7) ∧
      MedlarRegs (predOk false (!(iFields (encodeI 2 (i64 15 31 1 (2 ^ 64 - 1)))).s) false false 0)
        (intiKinds (iFields (encodeI 2 (i64 15 31 1 (2 ^ 64 - 1))))) (iFields (encodeI 2 (i64 15 31 1 (2 ^ 64 - 1))))) := by
  unfold MedlarIssues MedlarRegs
  decide +kernel

theorem witness_IntegerInstructionsExecute_group :
    (GroupIssues .int gid (encodeR 1 (r64 0 3 false 30 28 26 0 0 0)) [.v 30, .v 31, .v 28, .v 29, .v 26, .v 27] group7 (withGroup group7) ∧
      GroupRegs (withGroup group7) gid (intFieldsOk (rFields (encodeR 1 (r64 0 3 false 30 28 26 0 0 0))) true)
        (intKinds (rFields (encodeR 1 (r64 0 3 false 30 28 26 0 0 0))) true) (rFields (encodeR 1 (r64 0 3 false 30 28 26 0 0 0)))) ∧
    (GroupIssues .inti gid (encodeI 2 (i64 0 31 1 5)) [.v 31, .v 1] group7 (withGroup group7) ∧
      GroupRegs (withGroup group7) gid (predOk true (!(iFields (encodeI 2 (i64 0 31 1 5))).s) false false 0)
        (intiKinds (iFields (encodeI 2 (i64 0 31 1 5)))) (iFields (encodeI 2 (i64 0 31 1 5)))) := by
  unfold GroupIssues GroupRegs
  decide +kernel

theorem witness_IntegerOperationsWrapAndNeverTrap :
    (rFields (encodeR 1 (r64 11 3 true 31 1 2 0 0 0))).s = true ∧ (rFields (encodeR 1 (r64 11 2 true 63 1 2 0 0 0))).s = true ∧
    (0 : Nat) % 2 ^ 64 = 0 ∧ (2 ^ 63) % 2 ^ 64 = 2 ^ (64 - 1) ∧
    (MedlarIssues .int 191 (encodeR 1 (r64 11 3 true 31 1 2 0 0 0)) (withMedlar medlar7) ∧
      MedlarRegs (intFieldsOk (rFields (encodeR 1 (r64 11 3 true 31 1 2 0 0 0))) false)
        (intKinds (rFields (encodeR 1 (r64 11 3 true 31 1 2 0 0 0))) false) (rFields (encodeR 1 (r64 11 3 true 31 1 2 0 0 0)))) ∧
    (GroupIssues .int gid (encodeR 1 (r64 11 2 true 63 1 2 0 0 0)) [.s 63, .s 1, .s 2] group7 (withGroup group7) ∧
      GroupRegs (withGroup group7) gid (intFieldsOk (rFields (encodeR 1 (r64 11 2 true 63 1 2 0 0 0))) true)
        (intKinds (rFields (encodeR 1 (r64 11 2 true 63 1 2 0 0 0))) true) (rFields (encodeR 1 (r64 11 2 true 63 1 2 0 0 0)))) := by
  unfold MedlarIssues MedlarRegs GroupIssues GroupRegs
  decide +kernel

/-- A MOVE of a scalar register; LI of −0x1FFFFFFF into register 31, whose word is no legal register form. -/
def moveWord : Nat := encodeR 3 (r64 0 0 true 31 1 0 0 0 0)
def liWord : Nat := encodeI 3 (i64 0 31 0 0xFFFFFFFFE0000001)

theorem witness_MovesAndFloatingPointExecute_move :
    (MedlarIssues .move 191 moveWord (withMedlar medlar7) ∧ moveFieldsOk (rFields moveWord) false = true ∧
      regCause false 0 (moveKinds (rFields moveWord)) 31 1 0 0 = none) ∧
    (GroupIssues .move gid moveWord [.s 31, .s 1] group7 (withGroup group7) ∧
      GroupRegs (withGroup group7) gid (moveFieldsOk (rFields moveWord) true) (moveKinds (rFields moveWord)) (rFields moveWord)) ∧
    MedlarIssues .move 191 liWord (withMedlar medlar7) ∧ GroupIssues .move gid liWord [.s 31, .v 31] group7 (withGroup group7) := by
  unfold MedlarIssues GroupIssues GroupRegs
  decide +kernel

/-- Which of its two forms a MOVE word has, where D's file does not matter. -/
theorem witness_MovesAndFloatingPointExecute_li :
    moveIsLi moveWord false = false ∧ moveIsLi moveWord true = false ∧ moveIsLi liWord false = true ∧
    moveIsLi liWord true = true ∧
    MedlarRegs (liFieldsOk (iFields liWord) false) (liKinds (iFields liWord) false) (iFields liWord) ∧
    GroupRegs (withGroup group7) gid (liFieldsOk (iFields liWord) true) (liKinds (iFields liWord) true) (iFields liWord) := by
  unfold moveIsLi liFieldsOk liKinds MedlarRegs GroupRegs
  generalize Config.liVector = b
  generalize Config.moveImmediate moveWord = p
  generalize Config.moveImmediate liWord = r
  revert b p r
  decide +kernel

def predWord : Nat := encodeR 4 (r64 9 0 false 7 30 28 0 0 0)
def fpWord : Nat := encodeR 8 (r64 8 0 true 31 2 2 2 0 7)
def cvtWord : Nat := encodeR 9 (r64 4 3 true 31 2 0 0 3 0)

theorem witness_MovesAndFloatingPointExecute_fp :
    (GroupIssues .pred gid predWord [.p 7, .v 30, .v 31, .v 28, .v 29] group7 (withGroup group7) ∧
      GroupRegs (withGroup group7) gid (predFieldsOk (rFields predWord) true) (predKinds (rFields predWord)) (rFields predWord)) ∧
    (MedlarIssues .fp 191 fpWord (withMedlar medlar7) ∧
      MedlarRegs (fpFieldsOk (rFields fpWord) false) (fpKinds (rFields fpWord) false) (rFields fpWord)) ∧
    (GroupIssues .fp gid fpWord [.s 31, .s 2] group7 (withGroup group7) ∧
      GroupRegs (withGroup group7) gid (fpFieldsOk (rFields fpWord) true) (fpKinds (rFields fpWord) true) (rFields fpWord)) ∧
    (MedlarIssues .fcvt 191 cvtWord (withMedlar medlar7) ∧
      MedlarRegs (fcvtFieldsOk (rFields cvtWord) false) (fcvtKinds (rFields cvtWord) false) (rFields cvtWord)) ∧
    (GroupIssues .fcvt gid cvtWord [.s 31, .s 2] group7 (withGroup group7) ∧
      GroupRegs (withGroup group7) gid (fcvtFieldsOk (rFields cvtWord) true) (fcvtKinds (rFields cvtWord) true) (rFields cvtWord)) := by
  unfold MedlarIssues MedlarRegs GroupIssues GroupRegs
  decide +kernel

theorem witness_InactiveLanesAreUnchanged :
    bit (execMask { startArch0 with mask := 0x7FFFFFFF#32 } false false 0) 31 = false ∧
    bit (execMask startArch0 true true 0) 0 = false ∧ (r64 0 2 false 31 1 2 0 0 0).s = false := by decide +kernel

/-- BR to −8,192 bytes if g1 ≠ g2; a per-lane branch of the lanes whose v1 ≠ v0; JAL by 16 bytes, JALR to g1 − 7, BRX. -/
def brWord : Nat := encodeB 0x18 false { target := -8192, reconv := 0, resv := 0, kind := 0, cond := 1, b := 1, a := 2 }
def brLanesWord : Nat := encodeB 0x18 true { target := 64, reconv := 128, resv := 0, kind := 1, cond := 1, b := 1, a := 0 }
def jalWord : Nat := 0x19 * 2 + 31 * 2 ^ 7 + 4 * 2 ^ 12
def jalrWord : Nat := encodeI 0x19 (i64 0 31 1 (2 ^ 64 - 7))
def brxWord : Nat := encodeI 0x19 (i64 1 0 30 8)

theorem witness_BranchesAndJumpsExecute_branches :
    (MedlarIssues .br 191 brWord (withMedlar medlar7) ∧ brFieldsOk brWord (bFields brWord) false = true ∧
      regCause false 0 (brKinds (bFields brWord)) 0 2 1 0 = none) ∧
    (GroupIssues .br gid brLanesWord [.v 0, .v 1] group7 (withGroup group7) ∧
      brFieldsOk brLanesWord (bFields brLanesWord) true = true ∧
      regCause true 32 (brKinds (bFields brLanesWord)) 0 0 1 0 = none ∧ groupRegs (withGroup group7) gid = 32 ∧
      group7.arch.region = false ∧ group7.arch.stack.length < 32 ∧
      takenLanes (bFields brLanesWord) group7.arch ≠ 0 ∧
      takenLanes (bFields brLanesWord) group7.arch ≠ group7.arch.mask.toNat) := by
  unfold MedlarIssues GroupIssues
  decide +kernel

theorem witness_BranchesAndJumpsExecute_jumps :
    MedlarIssues .jal 191 jalWord (withMedlar medlar7) ∧ GroupIssues .jal gid jalWord [.s 31] group7 (withGroup group7) ∧
    (MedlarIssues .jalr 191 jalrWord (withMedlar medlar7) ∧
      MedlarRegs (noPred (iFields jalrWord)) jalrKinds (iFields jalrWord) ∧
      wrap64 ((gReg (medlarOf (withMedlar medlar7) 191) 1 : Int) + signed 64 (iFields jalrWord).imm) % 4 = 0) ∧
    (GroupIssues .jalr gid jalrWord [.s 31, .s 1] group7 (withGroup group7) ∧
      GroupRegs (withGroup group7) gid (noPred (iFields jalrWord)) jalrKinds (iFields jalrWord)) ∧
    (GroupIssues .brx gid brxWord [.v 30, .v 31] group7 (withGroup group7) ∧
      GroupRegs (withGroup group7) gid (noPred (iFields brxWord) && 4 * bits brxWord 32 32 != 0) brxKinds (iFields brxWord) ∧
      (targetsOf group7.arch.mask.toNat (fun i => BitVec.ofNat 64 (vPair group7.arch 30 i))).length = 1 ∧
      (∀ i, i < 32 → vPair group7.arch 30 i % 4 = 0)) := by
  unfold MedlarIssues MedlarRegs GroupIssues GroupRegs
  decide +kernel

def mmaWord : Nat := encodeR 0x1D (r64 2 0 true 24 20 16 0 2 0)

def mmaDone : Group := { group7 with arch := { group7.arch with mma := [(24, List.replicate 8 5#1024)] } }

theorem witness_MatrixInstructionsExecute :
    (GroupIssues .mxbegin gid (0x1D * 2) [] group7 (withGroup group7) ∧ mxPlain (0x1D * 2) = true ∧
      group7.arch.region = false ∧ group7.arch.mask = BitVec.allOnes 32) ∧
    (GroupIssues .mxend gid (0x1D * 2 + 2 ^ 23) [] { group7 with arch := { group7.arch with region := true } }
        (inRegion (withGroup group7)) ∧ mxPlain (0x1D * 2 + 2 ^ 23) = true) ∧
    (GroupIssues .mma gid mmaWord (rowsFrom 20 4 ++ rowsFrom 16 4 ++ rowsFrom 24 8)
        { group7 with arch := { group7.arch with region := true } } (inRegion (withGroup group7)) ∧
      mmaFieldsOk (rFields mmaWord) = true ∧ mmaInRange (rFields mmaWord) 32 = true) ∧
    groupOf (withGroup mmaDone) gid = some mmaDone := by
  unfold GroupIssues
  decide +kernel

def fenceWord (op d : Nat) : Nat := 0x1C * 2 + op * 2 ^ 23 + d * 2 ^ 7

theorem witness_FencesEndOnceTheirWritesAreDone :
    (∀ r, r < 3 → fenceFieldsOk (fenceWord r 0) false = true) ∧
    MedlarIssues .fenceSl 191 (fenceWord 0 0) (withMedlar medlar7) ∧ MedlarIssues .fenceWc 191 (fenceWord 1 0) (withMedlar medlar7) ∧
    MedlarIssues .fenceI 191 (fenceWord 2 0) (withMedlar medlar7) ∧ writesNear (withMedlar medlar7) (.medlar 191) = [] ∧
    (medlarOf (withMedlar medlar7) 191).comb = [] ∧ GroupIssues .fenceRel gid (fenceWord 3 0) [] group7 (withGroup group7) ∧
    writesNear (withGroup group7) (.group gid) = [] ∧ GroupIssues .fenceAcq gid (fenceWord 4 0) [] group7 (withGroup group7) ∧
    MedlarIssues .fenceSys 191 (fenceWord 5 31) (withMedlar medlar7) ∧ fenceFieldsOk (fenceWord 5 31) true = true ∧
    GroupIssues .fenceSys gid (fenceWord 5 31) [.s 31] group7 (withGroup group7) ∧
    writesOut (withMedlar { medlar7 with sysWait := some 31, abandoned := [.frontendGone] }) (.medlar 191) = [] ∧
    writesOut (withGroup { group7 with sysWait := some 31 }) (.group gid) = [] := by
  unfold MedlarIssues GroupIssues
  decide +kernel

def combined : Medlar :=
  { medlar7 with comb := [{ xl := { ctx := 0, seg := 0, gen := 0, epoch := 0, domain := 0, partition := 0, tracked := false,
                                    region := 1, target := .memory (2 ^ 31) }, block := 0, data := 0#1024, mask := 1#128 }] }

theorem witness_FencesEndOnceTheirWritesAreDone_combined :
    MedlarIssues .fenceSl 191 (fenceWord 0 0) (withMedlar combined) ∧ (medlarOf (withMedlar combined) 191).comb ≠ [] := by
  unfold MedlarIssues
  decide +kernel

def sysWord (op : Nat) : Nat := 0x1E * 2 + op * 2 ^ 23
def trapWord : Nat := encodeI 0x1E (i64 1 0 0 (2 ^ 64 - 1))
def crrWord (n : Nat) : Nat := encodeI 0x1E (i64 2 31 0 n)
def crwWord (n : Nat) : Nat := encodeI 0x1E (i64 3 0 1 n)
def domainMode : Medlar := { medlar7 with runtime := false }

theorem witness_SystemInstructionsExecute_plain :
    (sysPlain (sysWord 0) = true ∧ MedlarIssues .nop 191 (sysWord 0) (withMedlar medlar7) ∧
      GroupIssues .nop gid (sysWord 0) [] group7 (withGroup group7) ∧ GroupIssues .end_ gid (sysWord 1) [] group7 (withGroup group7) ∧
      ((withGroup group7).grp.launches.find (launchKey gid)).isSome = true) ∧
    (MedlarIssues .tret 191 (sysWord 2) (withMedlar medlar7) ∧ sysPlain (sysWord 2) = true ∧ medlar7.runtime = true ∧
      medlar7.held = [] ∧ MedlarIssues .tret 191 (sysWord 2) (withMedlar domainMode) ∧ domainMode.runtime = false) ∧
    (MedlarIssues .trap 191 trapWord (withMedlar medlar7) ∧ trapFieldsOk (iFields trapWord) = true ∧
      GroupIssues .trap gid trapWord [] group7 (withGroup group7)) := by
  unfold MedlarIssues GroupIssues
  decide +kernel

theorem witness_SystemInstructionsExecute_control :
    (MedlarIssues .crr 191 (crrWord 0x106) (withMedlar medlar7) ∧ crNumber (crrWord 0x106) = some 0x106 ∧
      MedlarRegs (noPred (iFields (crrWord 0x106)) && crExists false 0x106) (crKinds false) (iFields (crrWord 0x106)) ∧
      GroupIssues .crr gid (crrWord 3) [.s 31] group7 (withGroup group7) ∧
      GroupRegs (withGroup group7) gid (noPred (iFields (crrWord 3)) && crExists true 3) (crKinds false) (iFields (crrWord 3))) ∧
    (MedlarIssues .crw 191 (crwWord 0x106) (withMedlar domainMode) ∧
      MedlarRegs (noPred (iFields (crwWord 0x106)) && crExists false 0x106 && !crReadOnly 0x106) (crKinds true)
        (iFields (crwWord 0x106)) ∧
      GroupIssues .crw gid (crwWord 1) [.s 1] group7 (withGroup group7) ∧
      GroupRegs (withGroup group7) gid (noPred (iFields (crwWord 1)) && crExists true 1 && !crReadOnly 1) (crKinds true)
        (iFields (crwWord 1))) := by
  unfold MedlarIssues MedlarRegs GroupIssues GroupRegs
  decide +kernel


/-! ### Witnesses: memory instructions and what comes back -/

/-- Context 0 with cached pages from 0 and uncached ones from 0x40000000. -/
def onMap (s : State) : State :=
  { s with xlat := { s.xlat with segs := ⟨[(0, { raw := firmwareSeg 7 0 0 512 (2 ^ 31), gen := 0 }),
                                            (1, { raw := firmwareSeg 3 1 512 256 (2 ^ 31 + 2 ^ 30), gen := 0 })]⟩ } }

def groupM : Group := aGroup { startArch0 with s := startArch0.s.put 1 0x10000#64 }
def medlarM : Medlar := { aMedlar with g := ⟨[(1, 0x10000#64), (2, 0x40000000#64), (4, 0x11223344#64)]⟩ }
def onGroup : State := onMap (withGroup groupM)
def onMedlar : State := onMap (withMedlar medlarM)

def ldWord : Nat := encodeM 0x10 (m64 0 0 4 1 0 8)
def stWord : Nat := encodeM 0x11 { m64 0 1 4 1 0 0 with scale := 2 }
def amoWord : Nat := encodeM 0x12 { m64 0 1 4 1 0 0 with scale := 2 }
def casWord : Nat := encodeM 0x12 (m64 9 0 4 1 0 0)
def redAmo : Nat := encodeM 0x12 (m64 0 0 4 1 0 0)
def redWord : Nat := encodeM 0x13 (m64 0 0 4 1 0 0)
def localWord : Nat := encodeM 0x14 (m64 1 0 4 1 0 1020)

theorem witness_GroupMemoryInstructionsIssue_loads :
    (GroupIssues .ld gid ldWord (memUses (accessKinds true false (mFields ldWord)) (mFields ldWord)) groupM onGroup ∧
      GroupMemRegs onGroup gid (loadStoreOk true true (mFields ldWord)) (accessKinds true false (mFields ldWord)) (mFields ldWord) ∧
      firstBad (tryLanes onGroup 0 needR 4 false (laneAddr (mFields ldWord) groupM.arch)
        (accessLanes groupM.arch (mFields ldWord) false)) = none) ∧
    (GroupIssues .st gid stWord (memUses (accessKinds true false (mFields stWord)) (mFields stWord)) groupM onGroup ∧
      GroupMemRegs onGroup gid (loadStoreOk true false (mFields stWord)) (accessKinds true false (mFields stWord)) (mFields stWord) ∧
      loadsOpen onGroup gid groupM = false ∧ firstBad (tryLanes onGroup 0 needW 4 false (laneAddr (mFields stWord) groupM.arch)
        (accessLanes groupM.arch (mFields stWord) false)) = none) := by
  unfold GroupIssues GroupMemRegs
  decide +kernel

theorem witness_GroupMemoryInstructionsIssue_atomics :
    (GroupIssues .amo gid amoWord (memUses (accessKinds true false (mFields amoWord)) (mFields amoWord)) groupM onGroup ∧
      GroupMemRegs onGroup gid (atomicFieldsOk true true (mFields amoWord) && (mFields amoWord).opf != 9)
        (accessKinds true false (mFields amoWord)) (mFields amoWord) ∧ groupM.loads = [] ∧
      firstBad (tryLanes onGroup 0 needRW 4 true (laneAddr (mFields amoWord) groupM.arch)
        (accessLanes groupM.arch (mFields amoWord) false)) = none ∧ accessLanes groupM.arch (mFields amoWord) false ≠ []) ∧
    (GroupIssues .cas gid casWord [.v 4, .s 1, .v 0] groupM onGroup ∧
      GroupMemRegs onGroup gid (casOk true (mFields casWord)) { accessKinds true false (mFields casWord) with b := .vec }
        (mFields casWord) ∧
      firstBad (tryLanes onGroup 0 needRW 4 true (laneAddr (mFields casWord) groupM.arch)
        (accessLanes groupM.arch (mFields casWord) false)) = none) ∧
    (GroupIssues .red gid redWord (memUses (accessKinds true false (mFields redWord)) (mFields redWord)) groupM onGroup ∧
      GroupMemRegs onGroup gid (atomicFieldsOk true false (mFields redWord)) (accessKinds true false (mFields redWord))
        (mFields redWord) ∧
      firstBad (tryLanes onGroup 0 needW 4 true (laneAddr (mFields redWord) groupM.arch)
        (accessLanes groupM.arch (mFields redWord) false)) = none) := by
  unfold GroupIssues GroupMemRegs
  decide +kernel

def groupL : Group := aGroup { startArch0 with s := startArch0.s.put 1 0#64 }

theorem witness_LocalAccessesComplete :
    GroupIssues .local_ gid localWord (memUses { accessKinds true false (mFields localWord) with a := .sc } (mFields localWord))
      groupL (withGroup groupL) ∧
    GroupMemRegs (withGroup groupL) gid (localOk (mFields localWord)) { accessKinds true false (mFields localWord) with a := .sc }
      (mFields localWord) ∧
    (∀ i, i ∈ accessLanes groupL.arch (mFields localWord) false →
      laneLocal (mFields localWord) groupL.arch i % 4 = 0 ∧
      laneLocal (mFields localWord) groupL.arch i + 4 ≤ localBytes (launchRaw (withGroup groupL) (launchKey gid))) ∧
    accessBytes (mFields localWord).width = 4 ∧ (mFields localWord).opf = 1 := by
  unfold GroupIssues GroupMemRegs
  decide +kernel

/-- A load from uncached memory by g2; a store whose bytes lie in two lines. -/
def ldOne : Nat := encodeM 0x10 (m64 0 0 4 2 0 8)
def stTwo : Nat := encodeM 0x11 (m64 0 0 4 1 0 126)

/-- A translated access of cached memory at 2 GiB. -/
def lineXl : Xl :=
  { ctx := 0, seg := 0, gen := 0, epoch := 0, domain := 0, partition := 0, tracked := false, region := 0,
    target := .memory (2 ^ 31) }

/-- A core whose store buffer holds n entries. -/
def buffered (n : Nat) : State :=
  onMap (withMedlar { medlarM with sb := List.replicate n { xl := lineXl, va := 0, reduce := none, n := 1, val := 0 } })

/-- A line of zeros that a core holds. -/
def aLine (st : CState) : CLine :=
  { st := st, data := 0#1024, poison := false, wrote := 0#128, arrived := 0, hold := 0, performed := true }

theorem witness_MedlarLoadsAndStoresIssue_held :
    MedlarIssues .ld 191 ldWord onMedlar ∧
    MedlarMemRegs (loadStoreOk false true (mFields ldWord)) (accessKinds false false (mFields ldWord)) (mFields ldWord) ∧
    (match medlarTries onMedlar 0 needR (medlarAddr (mFields ldWord) (medlarOf onMedlar 191)) 4 with
      | (none, [p]) => p.n == 4 && p.shift == 0 && p.xl.region == 0 && lineOf p.xl == some ((2 ^ 31 + 0x10008) / 128)
      | _ => false) = true ∧
    (medlarOf (onMap (withMedlar { medlarM with lines := ⟨[((2 ^ 31 + 0x10008) / 128,
        aLine .sole)]⟩ })) 191
      ).lines.cells.length = 1 := by
  unfold MedlarIssues MedlarMemRegs
  decide +kernel

theorem witness_MedlarLoadsAndStoresIssue :
    (MedlarIssues .ld 191 ldOne onMedlar ∧
      MedlarMemRegs (loadStoreOk false true (mFields ldOne)) (accessKinds false false (mFields ldOne)) (mFields ldOne) ∧
      ((medlarTries onMedlar 0 needR (medlarAddr (mFields ldOne) (medlarOf onMedlar 191)) 4).2.map fun p => (p.n, p.xl.region)) =
        [(4, 1)] ∧
      (match medlarLoad 191 ldOne [.g 4, .g 2] (.g 4) 4 false (medlarAddr (mFields ldOne) (medlarOf onMedlar 191)) (medlarOf onMedlar 191)
          onMedlar with | .done _ => true | _ => false) = true) ∧
    (MedlarIssues .st 191 stTwo (buffered 62) ∧ MedlarIssues .st 191 stTwo (buffered 63) ∧
      MedlarMemRegs (loadStoreOk false false (mFields stTwo)) (accessKinds false false (mFields stTwo)) (mFields stTwo) ∧
      ((medlarTries (buffered 62) 0 needW (medlarAddr (mFields stTwo) (medlarOf (buffered 62) 191)) 4).2.map
        fun p => (p.n, p.xl.region)) = [(2, 0), (2, 0)] ∧
      (medlarOf (buffered 62) 191).sb.length + 2 ≤ 64 ∧ 64 < (medlarOf (buffered 63) 191).sb.length + 2) := by
  unfold MedlarIssues MedlarMemRegs
  decide +kernel

def tryOk (t : Tried) : Bool := match t with | .ok x => decide (x.target = .memory (2 ^ 31 + 0x10000)) | _ => false

theorem witness_MedlarAtomicsIssue :
    (MedlarIssues .amo 191 redAmo onMedlar ∧
      MedlarMemRegs (atomicFieldsOk false true (mFields redAmo) && (mFields redAmo).opf != 9)
        (accessKinds false false (mFields redAmo)) (mFields redAmo) ∧
      tryOk (tryAccess onMedlar 0 needRW 4 true (medlarAddr (mFields redAmo) (medlarOf onMedlar 191))) = true) ∧
    (MedlarIssues .cas 191 casWord onMedlar ∧
      MedlarMemRegs (casOk false (mFields casWord)) { accessKinds false false (mFields casWord) with b := .sc } (mFields casWord)) ∧
    (MedlarIssues .red 191 redWord (buffered 63) ∧
      MedlarMemRegs (atomicFieldsOk false false (mFields redWord)) (accessKinds false false (mFields redWord)) (mFields redWord) ∧
      (medlarOf (buffered 63) 191).sb.length < 64) ∧
    (medlarOf onMedlar 191).sb = [] ∧ (medlarOf onMedlar 191).comb = [] := by
  unfold MedlarIssues MedlarMemRegs
  decide +kernel

/-- What a command leaves, where it answers a next state. -/
def after (a : Answer) (s : State) : State := match a with | .next t => t | _ => s

/-- Every request's stage, and where it comes from. -/
def staged (st : ReqSt) (src : Agent) (s : State) : State := { s with reqs := s.reqs.map fun _ r => { r with st := st, src := src } }

def firstReq (s : State) : Option (Nat × Req) := s.reqs.cells.head?

def loaded : State := staged .served (.medlar 191) (after (exec (.ld (.medlar 191) ldOne) onMedlar) onMedlar)
def groupLoaded : State := staged .served (.group gid) (after (exec (.ld (.group gid) ldWord) onGroup) onGroup)
def stored : State := after (exec (.st (.group gid) stWord) onGroup) onGroup

theorem witness_RequestsComeBack_loads :
    ((firstReq loaded).any fun c => c.2.src == .medlar 191 && c.2.kind.returns && c.2.st == .served &&
      answerOpen loaded c.2 && c.2.lanes.map (·.shift) == [0] && c.2.load == 0) = true ∧
    ((medlarOf loaded 191).loads.all fun l => l.id == 0 && l.left == 1 && !l.poison && l.got == ⟨[]⟩ && l.dest == .g 4) = true ∧
    (medlarOf loaded 191).loads.length = 1 ∧
    ((firstReq groupLoaded).any fun c => c.2.src == .group gid && c.2.kind.returns && c.2.st == .served &&
      answerOpen groupLoaded c.2) = true ∧
    ((groupOf groupLoaded gid).any fun x => x.loads.length == 1 && x.loads.all fun l => l.left == 1 && l.bad == []) = true := by
  decide +kernel

theorem witness_RequestsComeBack_writes :
    ((firstReq stored).map fun c => answerOpen stored c.2) = some true ∧
    ((firstReq (staged .stale (.group gid) stored)).any fun c =>
      match retranslate mapped 7 c.2.va (kindNeed c.2.kind) with | .fault _ => true | _ => false) = true ∧
    ({ medlarM with runtime := false }).loads = [] ∧
    ((firstReq stored).map fun c => (c.1, c.2.kind.returns, c.2.src, c.2.st)) = some (0, false, .group gid, .issued) ∧
    ((firstReq (staged (.remoteFailed .frontendGone) (.medlar 191) stored)).map fun c => c.2.src) = some (.medlar 191) ∧
    ((firstReq (staged .denied (.medlar 191) stored)).map fun c => c.2.st) = some .denied ∧
    (groupOf (staged .denied (.group gid) stored) gid).any (·.place == .resident) = true ∧
    ((firstReq (staged .stale (.group gid) stored)).any fun c =>
      match retranslate stored c.2.xl.ctx c.2.va (kindNeed c.2.kind) with
      | .ok x => regionFits c.2 x && (lineOf x).isSome
      | _ => false) = true := by decide +kernel


/-! ### Witnesses: coherence, homes and memory controllers -/

/-- The line at 2 GiB. -/
def line2G : Nat := 2 ^ 31 / 128

def cachedLine (st : CState) (hold : Nat) : CLine :=
  { st := st, data := 5#1024, poison := false, wrote := 0#128, arrived := 0, hold := hold, performed := true }

/-- Core 191 holds the line. -/
def holding (st : CState) (hold : Nat) : State :=
  onMap (withMedlar { medlarM with sb := [{ xl := lineXl, va := 3, reduce := none, n := 2, val := 0xABCD }],
                                   lines := ⟨[(line2G, cachedLine st hold)]⟩ })

/-- The line's home with its copy, these messages on their way, and these holders. -/
def atHome (ms : List CohMsg) (holders : List Nat) (s : State) : State :=
  { s with coh := { dir := if holders.isEmpty then ⟨[]⟩ else
                      ⟨[(line2G, { owned := true, holders := holders, speaker := none, tracked := false, way := 0, used := 0 })]⟩
                    txns := ⟨[]⟩, msgs := ms, updates := 0 }
           mem := { s.mem with bench := ⟨[(line2G,
             { data := 9#1024, valid := BitVec.allOnes 128, dirty := false, poison := false, tracked := false })]⟩ } }

def asks (k : CohKind) : List CohMsg := [.req 191 line2G k lineXl 0 false true]

theorem witness_StoreBuffersDrainAndLinesAreAsked :
    intoTables (holding .sole 0) lineXl = false ∧
    ((medlarOf (holding .shared 0) 191).lines.find line2G = some (cachedLine .shared 0) ∧
      lineAsked (holding .shared 0) 191 line2G = false ∧ reduceOut (holding .shared 0) 191 = false) ∧
    (0 ∈ (medlarOf (onMap (withMedlar { medlarM with segs := [0] })) 191).segs) ∧
    ((medlarOf (holding .sole 0) 191).sb.map fun e => (lineOf e.xl, e.reduce)) = [(some line2G, none)] ∧
    (medlarOf (holding .sole 0) 191).lines.find line2G = some (cachedLine .sole 0) ∧
    ((medlarOf (buffered 1) 191).lines.find line2G = none ∧ lineAsked (buffered 1) 191 line2G = false ∧
      (medlarOf (buffered 1) 191).running = true ∧
      (match translate (buffered 1) 0 127 needR with
        | .ok x => decide (lineOf x = some line2G ∧ x.region = 0) | _ => false) = true) := by decide +kernel

def homeChecks (k : CohKind) (w : Bool) (holders : List Nat) : Bool :=
  let s := atHome (asks k) holders (onMap (withMedlar medlarM))
  decide (coreReq s 191 line2G k = some (lineXl, 0, false, true)) && decide (s.coh.txns.find line2G = none) &&
  !sliceHeld s (homeSlice s line2G) && !genEarly s (homeSlice s line2G) lineXl &&
  routeOpen s (dieOfCore 191) (homeDie s line2G) && genOk s (homeSlice s line2G) lineXl && domainOk s 0 (2 ^ 31) w &&
  decide ((dirOf s line2G).holders = holders)

theorem witness_HomesGrantLines :
    homeChecks .readShared false [] = true ∧ homeChecks .readOwn true [] = true ∧ homeChecks .upgrade true [191] = true ∧
    homeChecks .readOwn true [0] = true ∧ (0 : Nat) ≠ 191 := by decide +kernel

theorem witness_EvictionsReachTheHome :
    ((medlarOf (holding .dirty 0) 191).lines.find line2G = some (cachedLine .dirty 0) ∧
      MayEvict 191 line2G (holding .dirty 0)) ∧
    ((medlarOf (holding .shared 1) 191).lines.find line2G = some (cachedLine .shared 1) ∧
      MayEvict 191 line2G (holding .shared 1)) := by
  unfold MayEvict
  decide +kernel

def snooped (k : SnoopKind) (st : CState) (hold : Nat) : State := atHome [.snoop 191 line2G k false] [191] (holding st hold)

theorem witness_SnoopsAreAnswered :
    (∀ k, k ∈ [SnoopKind.shared, .own, .clean, .inval] → ∀ st, st ∈ [CState.dirty, .sole, .shared] →
      SnoopStands k 191 line2G (.snoop 191 line2G k false) [] (snooped k st 0) ∧
      heldUntil (snooped k st 0) 191 line2G ≤ (snooped k st 0).time.now ∧
      (medlarOf (snooped k st 0) 191).lines.find line2G = some (cachedLine st 0)) ∧
    (SnoopStands .shared 191 line2G (.snoop 191 line2G .shared false) [] (snooped .shared .dirty 1) ∧
      (snooped .shared .dirty 1).time.now < heldUntil (snooped .shared .dirty 1) 191 line2G ∧
      waited (.snoop 191 line2G .shared false) = false) := by
  unfold SnoopStands
  decide +kernel

def answered (holders : List Nat) (d : Option (Line × Bool)) (dirty : Bool) : State :=
  let s := atHome [.resp 191 line2G .own d dirty] holders (onMap (withMedlar medlarM))
  { s with coh := { s.coh with txns := ⟨[(line2G, { serves := .evict, awaiting := holders })]⟩ } }

theorem witness_LinesArriveAndWindowsEnd :
    (takeFirst (isResp 191 line2G) (answered [0, 191] (some (7#1024, true)) true).coh.msgs =
        some (.resp 191 line2G .own (some (7#1024, true)) true, []) ∧
      routeOpen (answered [0, 191] (some (7#1024, true)) true) (dieOfCore 191)
        (homeDie (answered [0, 191] (some (7#1024, true)) true) line2G) = true ∧ [0, 191].filter (· != 191) ≠ []) ∧
    (takeFirst (isResp 191 line2G) (answered [191] none false).coh.msgs = some (.resp 191 line2G .own none false, []) ∧
      [191].filter (· != 191) = []) ∧
    takeFirst (isGrant 191 line2G) (atHome [.grant 191 line2G .sole 6#1024 false] [191] (onMap (withMedlar medlarM))).coh.msgs =
      some (.grant 191 line2G .sole 6#1024 false, []) ∧
    l2Full (atHome [.grant 191 line2G .sole 6#1024 false] [191] (onMap (withMedlar medlarM))) 191 line2G = false ∧
    (heldUntil (atHome [.snoop 191 line2G .shared true] [191] (holding .dirty 1)) 191 line2G ≠ 0 ∧
      takeFirst (isWaiting 191 line2G) [.snoop 191 line2G .shared true] = some (.snoop 191 line2G .shared true, [])) := by
  decide +kernel

/-- Lane 0's access of the last four bytes of the line, by a group of die 7. -/
def aReq (k : ReqKind) : Req :=
  { src := .group gid, die := 7, kind := k, xl := lineXl, va := 124, critical := true
    lanes := [{ lane := 0, pos := 124, n := 4, val := 3, cmp := 0, res := 0, shift := 0 }], load := 0, l1 := false,
    data := none, st := .issued, corrected := false, missed := false, laidOver := (0#1024, 0#128), listHeld := false }

def requested (k : ReqKind) (epoch : Nat) : State :=
  let s := atHome [] [] (onMap (withGroup groupM))
  { s with reqs := ⟨[(4, aReq k)]⟩, xlat := { s.xlat with epoch := epoch } }

/-- What ReadyAtHome asks, as a test. -/
def homeReady (k : ReqKind) : Bool :=
  let s := requested k 0
  let r := aReq k
  decide (s.reqs.find 4 = some r ∧ lineOf r.xl = some line2G ∧ r.st = .issued) && !r.missed && !olderMeets s 4 r &&
  routeOpen s 7 (homeDie s line2G) && decide (s.coh.txns.find line2G = none) && !sliceHeld s (homeSlice s line2G) &&
  !genEarly s (homeSlice s line2G) r.xl && genOk s (homeSlice s line2G) r.xl &&
  domainOk s 0 (2 ^ 31) k.writes && !siblingRefused s 4 r && decide ((dirOf s line2G).holders = []) && !(dirOf s line2G).owned &&
  (s.mem.bench.find line2G).any fun b => decide (b.valid = BitVec.allOnes 128) && !b.poison

theorem witness_HomesPerformOrRefuseRequests :
    homeReady .read = true ∧ homeReady .fetch = true ∧ homeReady .write = true ∧ (aReq .write).xl.tracked = false ∧
    homeReady (.atomic 11 1) = true ∧ homeReady (.reduce 0 3) = true ∧
    (let s := requested .read 1
     olderMeets s 4 (aReq .read) = false ∧ routeOpen s 7 (homeDie s line2G) = true ∧
     sliceHeld s (homeSlice s line2G) = false ∧ genEarly s (homeSlice s line2G) lineXl = false ∧
     genOk s (homeSlice s line2G) lineXl = false) := by decide +kernel

/-- A miss tag of the line whose fill has brought this many codewords, the second one first. -/
def tagWith (ws : List Nat) (n : Nat) (served : Bool) : MissTag :=
  { waiters := ws, units := [], tracked := false, lead := 1, served := served, halves := n, corrected := false }

/-- The line misses; n codewords are installed, and request 4 waits for it. -/
def filling (ws : List Nat) (n : Nat) : State :=
  let s := requested .read 0
  { s with mem := { s.mem with tags := ⟨[(line2G, tagWith ws n true)]⟩, bench := if n = 0 then ⟨[]⟩ else
      ⟨[(line2G, { data := 9#1024, valid := halfMask 1, dirty := false, poison := false, tracked := false })]⟩ } }

def queuedHbm (w : Option (Line × BitVec 128)) : State :=
  { mapped with mem := { mapped.mem with
      tags := ⟨[(line2G, tagWith [] 0 false)]⟩
      sched := ⟨[(pchan mapped line2G,
        [{ line := line2G, critical := true, partition := 0, since := 0, write := w, poison := false }])]⟩ } }

theorem witness_SchedulersServeFillsAndWrites :
    ((filling [] 0).mem.tags.find line2G = some (tagWith [] 0 true) ∧ homeCtl (filling [] 0) line2G < 32 ∧
      bits (dv (filling [] 0) (K.innerReported + homeCtl (filling [] 0) line2G)) 0 48 + 1 < 2 ^ 48 - 1) ∧
    ((filling [] 1).mem.tags.find line2G = some (tagWith [] 1 true) ∧
      ((filling [] 1).mem.bench.find line2G).any (fun b => b.valid &&& halfMask 1 == halfMask 1) = true) ∧
    ((filling [4] 1).mem.tags.find line2G = some (tagWith [4] 1 true) ∧
      (filling [4] 1).reqs.find 4 = some (aReq .read) ∧ lineOf (aReq .read).xl = some line2G ∧
      (filling [4] 1).coh.txns.find line2G = none ∧ (dirOf (filling [4] 1) line2G).owned = false) ∧
    mayServe (queuedHbm none) (pchan mapped line2G) 0 = true ∧ ((queuedHbm none).mem.tags.find line2G).isSome = true ∧
    mayServe (queuedHbm (some (7#1024, BitVec.allOnes 128))) (pchan mapped line2G) 0 = true ∧
    bit mapped.mem.lostStacks.toNat (pchan mapped line2G / 32) = false ∧ Memory.wf mapped.mem.hbm = true := by decide +kernel

def withCtl31 (starved : Nat) (regulated aged : Bool) : State :=
  setCtl 31 { ctlOf mapped 31 with wcb := [{ line := line2G, data := 8#1024, valid := 1#128, poison := false, since := 0 }], starved := starved,
                                   regulated := regulated, agedServed := aged } mapped

theorem witness_ControllersKeepTheirWindows :
    (((ctlOf (withCtl31 8 false false) 31).wcb.find? fun e => e.line == line2G).isSome = true ∧
      (ctlOf (withCtl31 8 false false) 31).regulated = false ∧ (ctlOf (withCtl31 7 true true) 31).regulated = true) ∧
    (bit mapped.mem.lostStacks.toNat 31 = false ∧ alive mapped = true ∧ (105 : Int) ≤ 105 ∧ (105 : Int) < 106) ∧
    (dv mapped K.scrubHours ≠ 0 ∧ schedOf mapped (32 * 31 + (ctlOf mapped 31).scrubNext / 2 ^ 24 % 32) = []) := by
  decide +kernel


/-! ### Witnesses: the dictionary, security, tables and peers -/

theorem witness_DictionaryWritesAreDecided :
    (alive mapped = true ∧ writeCheck mapped K.holdNs = 0 ∧ (entryOf K.holdNs).isSome = true ∧ isBlob K.holdNs = false ∧
      (scalarAct K.holdNs 0 mapped).1 = 0 ∧ (scalarAct K.holdNs (2 ^ 32 - 1) mapped).1 ≠ 0) ∧
    writeCheck mapped 0x100200 = 1 ∧ isBlob 0x100200 = false ∧ writeCheck mapped 0 = 4 ∧
    (writeCheck mapped (K.lockState + 1) = 0 ∧ writeCheck mapped (K.lockState + 6) = 0) ∧
    (served mapped K.envelopeMaxW = true ∧ ((entryOf K.envelopeMaxW).map fun r => (r.acc, r.lock)) = some (4, 6) ∧
      dv (setDv (K.lockState + 6) 1 mapped) (K.lockState + 6) = 1) := by decide +kernel

def zeroBytes (n : Nat) : List Byte := List.replicate n 0#8

/-- The header of a whole image of a kind with a payload of n bytes. -/
def headerOf (kind n : Nat) : Nat := fields [(0, 4, 0x31474D49), (4, 1, kind), (5, 1, 1), (16, 8, n)]

/-- An image of a kind is awaited, and the buffer's first 4,096 bytes hold its header. -/
def bufferedImage (kind n : Nat) : State :=
  { atBoot 1 with boot := { (atBoot 1).boot with awaiting := some kind, parts := toBytes 4096 (headerOf kind n) } }

theorem witness_BootBufferAndKeysTakeTheirWrites_buffer :
    writeCheck (atBoot 1) K.bootLoadData = 0 ∧ blobFits K.bootLoadData (zeroBytes 4096) = true ∧ alive (atBoot 1) = true := by
  decide +kernel

theorem witness_BootBufferAndKeysTakeTheirWrites_go :
    writeCheck (bufferedImage 0 1) K.bootLoadGo = 0 ∧ alive (bufferedImage 0 1) = true ∧
    (bufferedImage 0 1).boot.awaiting = some 0 ∧ (bufferBytes (bufferedImage 0 1) 1).length = 1 := by decide +kernel

theorem witness_BootBufferAndKeysTakeTheirWrites_parts : (bufferedImage 0 1).boot.parts.length = 4096 := by decide +kernel

theorem witness_BootBufferAndKeysTakeTheirWrites_bytes : ofBytes (toBytes 4096 (headerOf 0 1)) = headerOf 0 1 := by
  decide +kernel

theorem witness_BootBufferAndKeysTakeTheirWrites_header :
    headerFormat 0 (headerOf 0 1) = true ∧ headerFormat 0 (headerOf 0 2) = true ∧ fld (headerOf 0 1) 16 8 = 1 ∧
    fld (headerOf 0 2) 16 8 = 2 := by decide +kernel

theorem witness_BootBufferAndKeysTakeTheirWrites_keys :
    (writeCheck ready K.fwOverride = 0 ∧ blobFits K.fwOverride (zeroBytes 3200) = true ∧ 8 ≤ ready.boot.phase) ∧
    (writeCheck ready K.ownerKeyDigest = 0 ∧ writeCheck ready K.ownerDebugKeyDigest = 0 ∧
      blobFits K.ownerKeyDigest (zeroBytes 64) = true ∧ blobFits K.ownerDebugKeyDigest (zeroBytes 64) = true ∧
      ready.part.ownerKey = 0#512) ∧
    (writeCheck ready K.minSecRaise = 0 ∧ ready.pkg = .ready ∧ ready.boot.minSecRaised = false) ∧
    (writeCheck ready K.measExtend = 0 ∧ blobFits K.measExtend (7#8 :: zeroBytes 71) = true ∧
      ((7#8 :: zeroBytes 71).headD 0#8).toNat = 7) ∧
    (writeCheck ready K.attestNonce = 0 ∧ blobFits K.attestNonce (zeroBytes 32) = true ∧ ready.boot.attest = none ∧
      ready.part.identity = some 0 ∧ alive ready = true) := by decide +kernel

theorem witness_DebugOpensWithAToken :
    (writeCheck ready K.debugToken = 0 ∧ blobFits K.debugToken (toBytes 3200 0x31474244) = true ∧
      recordMagic (ofBytes (toBytes 3200 0x31474244)) = 0x31474244) ∧
    16 ≤ ({ ready with part := { ready.part with debugOpenings := 16 } }).part.debugOpenings ∧
    (ready.board.railsUp = true ∧ ready.boot.debugOpen = false ∧ alive ready = true) := by decide +kernel

def basesSet : State := setDv K.ctxTableBase (2 ^ 31 + 2 ^ 20) (setDv K.segTableBase (2 ^ 31 + 2 ^ 21) mapped)

theorem witness_TablesAndClaimsAreWritten :
    (writeCheck mapped K.localGib = 0 ∧ (240 : Nat) % 16 = 0 ∧
      served { mapped with xlat := { mapped.xlat with installed := some (0, 0) } } K.localGib = true) ∧
    (writeCheck basesSet K.tableLoad = 0 ∧ queueOpenAny basesSet = false ∧ isLocked basesSet 1 = false ∧
      basesSet.xlat.loading = none) ∧
    anyAccess mapped (fun x => x.epoch != mapped.xlat.epoch) = false ∧
    (writeCheck mapped K.ctxTableBase = 0 ∧ inFirmware (2 ^ 32 - 65536) 65536 = true ∧
      writeCheck mapped K.segTableBase = 0 ∧ inFirmware (2 ^ 32 - 2 ^ 21) (2 ^ 21) = true ∧
      rangesMeet (2 ^ 32 - 2 ^ 21) (2 ^ 21) (dv mapped K.ctxTableBase) 65536 = false) ∧
    (writeCheck mapped K.claimAssign = 0 ∧ mapped.xlat.erasing = none ∧ bits (64 + 2 ^ 31) 0 15 = 64 ∧
      bit (64 + 2 ^ 31) 31 = true ∧ bit 32767 31 = false) := by decide +kernel

/-- A SEG_UPDATE of context 0's segment 15, to one page of uncached memory. -/
def segUpdateRaw : Nat := fields [(16, 2, 0), (18, 1, 15), (32, 32, firmwareSeg 7 1 2048 1 (2 ^ 31))]

def updating : State :=
  after (exec (.segUpdate 3 7) (withJob 3 7 (jobOf 11 segUpdateRaw) mapped)) mapped

theorem witness_SegUpdatesAndPeersAreChecked_updates :
    ((handed (withJob 3 7 (jobOf 11 segUpdateRaw) mapped) 3 7 0x0B).isSome = true ∧ segUpdateForm segUpdateRaw = true ∧
      segUpdateDenied mapped 0 segUpdateRaw = false ∧ segUpdateOk mapped segUpdateRaw = true ∧ fld segUpdateRaw 18 1 ≠ 255 ∧
      mapped.xlat.updates = []) ∧
    segUpdateDenied mapped 5 segUpdateRaw = true ∧
    ((updating.xlat.updates.find? fun u => u.key == jobKey 3 7).map fun u => u.granted.getLsbD 64) = some false ∧
    (anyAccess updating (oldXl updating 0 15) = false ∧ updating.links.txns.cells.length = 0) := by decide +kernel

def peerConn : Conn :=
  { record := fields [(2, 1, 1)], st := 1, epoch := 0, epochEnded := false, sent := 0, performed := [9], rate := 0,
    lastCut := none, lastRaise := 0, lastCnp := none, nextPsn := 0, ackPsn := 0, retries := 0 }

/-- Connection 0 leads to a peer whose domain 2 acts as domain 5 here, and claim 64 belongs to domain 5. -/
def peered : State :=
  setBlob K.importTable ([1#8, 2#8, 5#8] ++ zeroBytes 4093) <| benchPut (2 ^ 32 / 128) (fullLine 7#1024 false false false)
    (setClaimTag 64 5 { mapped with links := { mapped.links with conns := ⟨[(0, peerConn)]⟩ } })

def peerReq (k : PeerKind) (n : Nat) : PeerReq :=
  { seqNo := n, after := none, domain := 2, kind := k, offset := 64 * 2 ^ 26, len := 4, bytes := [1#8, 2#8, 3#8, 4#8] }

theorem witness_SegUpdatesAndPeersAreChecked_peers :
    (alive peered = true ∧ connMode (connOf peered 1) ≠ 1) ∧
    (connMode (connOf peered 0) = 1 ∧ (connOf peered 0).st = 1 ∧ peerAllowed peered 0 (peerReq .read 1) = true ∧
      peerAllowed peered 0 (peerReq .write 1) = true ∧ (connOf peered 0).performed.contains 9 = true ∧
      (connOf peered 0).performed.contains 1 = false ∧
      strictTurn (connOf peered 0) (peerReq .read 1) = true ∧
      (peerRead (peerXl peered 0 (peerReq .read 1)) (peerReq .read 1)
        { UStep.start 0 0 10 peered with owner := .peer 0 1 }).2.held = false ∧
      (peerWrite (peerXl peered 0 (peerReq .write 1)) (peerReq .write 1)
        { UStep.start 0 0 10 peered with owner := .peer 0 1 }).held = false ∧
      ((lineParts (64 * 2 ^ 26) 4 40).all fun q => routesOpen peered 10 (homeDie peered (q.1 / 128))) = true) := by
  decide +kernel

theorem witness_ClaimsAreNumberedByTheirMemory :
    (localGib mapped ≤ 240 ∧ localGib mapped % 16 = 0) ∧
    (localGib (setDv K.localGib 240 mapped) = 240 ∧ 7 < 8 ∧ 240 * gib - 1 < localGib (setDv K.localGib 240 mapped) * gib ∧
      regionOf (setDv K.localGib 240 mapped) (localBase 7 + 240 * gib - 1) ≠ none) := by decide +kernel


/-! ### Witnesses: queues, control commands, Haul and faulted tasks -/

/-- Queue 1,023, open, its rings in context 0. -/
def openQ (f : Queue → Queue) (s : State) : State :=
  setQueue 1023 (f { Queue.closed with st := .opened, ringAddr := 0x10000, ringEntries := 16, cplAddr := 0x20000, cplEntries := 16 }) s

def configured : State :=
  [(1, 2), (4, 0x10000), (5, 16), (6, 0x20000), (7, 65536)].foldl (fun s (p : Nat × Nat) => setDv (qKey 1023 p.1) p.2 s) mapped

/-- Connection 5 leads to a front-end, and queue 1,023 to it. -/
def frontended (f : Queue → Queue) : State :=
  openQ (fun x => f { x with ringLoc := 1, conn := 5, tail := 1 })
    { mapped with links := { mapped.links with
        conns := ⟨[(5, { peerConn with record := fields [(2, 1, 2), (8, 1, 3)] })]⟩ } }

theorem witness_QueuesOpenAndClose :
    (writeCheck configured (qKey 1023 0) = 0 ∧ (queueOf configured 1023).st = .closed ∧ canOpen configured 1023 = true) ∧
    (writeCheck (openQ id mapped) (qKey 1023 0) = 0 ∧ (queueOf (openQ id mapped) 1023).st = .opened) ∧
    ((queueOf (openQ (fun x => { x with st := .closing }) mapped) 1023).st = .closing ∧
      (queueOf (openQ (fun x => { x with st := .closing }) mapped) 1023).live = []) ∧
    (writeCheck (openQ id mapped) (qKey 1023 10) = 0 ∧ tailOk (queueOf (openQ id mapped) 1023) 16 = true ∧
      tailOk (queueOf (openQ id mapped) 1023) 17 = false) ∧
    (writeCheck (openQ id mapped) (qKey 1023 11) = 0 ∧ cplHeadOk (queueOf (openQ id mapped) 1023) 0 = true ∧
      cplHeadOk (queueOf (openQ id mapped) 1023) 1 = false) ∧
    (connMode (connOf (frontended id) 5) = 2 ∧ (connOf (frontended id) 5).st = 1 ∧
      tailOk (queueOf (frontended id) 1023) 16 = true ∧ fld (fields [(0, 2, 1023), (4, 4, 16)]) 0 2 = 1023) := by decide +kernel

def cmdRaw (op seq : Nat) : Nat := fields [(0, 1, op), (2, 1, 2), (4, 4, seq), (8, 8, 5)]

/-- Slots of queue 1,023's ring in device memory, and its completion ring, stand in the Benches. -/
def inRing (raw : Nat) (s : State) : State :=
  withLine 0x20180 (fwWrite 4 (2 ^ 31 + 0x10000) 256 raw (withLine 0x10000 (withLine 0x10080 s)))

def oneSlot (raw : Nat) : State := openQ (fun x => { x with tail := 1 }) (inRing raw mapped)

/-- The answer of the front-end ring's read of one slot has come. -/
def ringCame (raw : Nat) (f : Queue → Queue) : State :=
  let s := frontended f
  { s with links := { s.links with arrived :=
      [{ owner := .ring 1023, conn := 5, addr := 0x10000, len := 256, answer := .data (toBytes 256 raw) }] } }

def slotIs (raw : Nat) (r : Slot) : Bool := match r with | .got x _ => x == raw | _ => false
def slotWaits (r : Slot) : Bool := match r with | .waits _ => true | _ => false

theorem witness_CommandsAreFetchedStartedAndRecorded_fetch :
    ((queueOf (oneSlot (cmdRaw 0x0F 0)) 1023).tail ≠ (queueOf (oneSlot (cmdRaw 0x0F 0)) 1023).head ∧
      inflight (queueOf (oneSlot (cmdRaw 0x0F 0)) 1023) < 256 ∧
      slotWaits (readSlot 1023 (setQueue 1023 { queueOf (oneSlot (cmdRaw 0x0F 0)) 1023 with held := false }
        (oneSlot (cmdRaw 0x0F 0)))) = false) ∧
    (epochStands (frontended id) (queueOf (frontended id) 1023) = true ∧ ringSlots (frontended id) 1023 = none ∧
      ringOut (frontended id) 1023 = false ∧ (queueOf (frontended id) 1023).tail ≠ (queueOf (frontended id) 1023).head) ∧
    (ahead (queueOf (frontended id) 1023).tail (queueOf (frontended id) 1023).head = 1 ∧
      ringSlots (ringCame (cmdRaw 0x0F 0) id) 1023 = some [cmdRaw 0x0F 0] ∧ fld (cmdRaw 0x0F 9) 4 4 ≠ 0 ∧
      slotIs (cmdRaw 0x0F 9) (readSlot 1023 (setQueue 1023 { queueOf (oneSlot (cmdRaw 0x0F 9)) 1023 with held := false }
        (oneSlot (cmdRaw 0x0F 9)))) = true) ∧
    ((queueOf (ringCame (cmdRaw 0x0F 9) fun x => { x with reread := some 7 }) 1023).reread = some 7 ∧
      ringSlots (ringCame (cmdRaw 0x0F 9) fun x => { x with reread := some 7 }) 1023 = some [cmdRaw 0x0F 9] ∧
      slotIs (cmdRaw 0x0F 0) (readSlot 1023 (atLeast 1007 (oneSlot (cmdRaw 0x0F 0)))) = true) := by decide +kernel

def fetchedQ (raw : Nat) : State := openQ (fun x => { x with head := 1, tail := 1, fetched := [{ seq := 0, raw := raw }] }) mapped

def aRecord : CplRec := { seq := 0, status := .done, opcode := 15, tag := 5, detail := 0, time := 9 }

theorem witness_CommandsAreFetchedStartedAndRecorded_start :
    (headerOk (queueOf (fetchedQ (cmdRaw 0x0F 0)) 1023) (cmdRaw 0x0F 0) = true ∧
      isFence (queueOf (fetchedQ (cmdRaw 0x0F 0)) 1023) (cmdRaw 0x0F 0) = false ∧
      (queueOf (fetchedQ (cmdRaw 0x0F 0)) 1023).live.any (holdsQueue (fetchedQ (cmdRaw 0x0F 0)) 1023) = false) ∧
    headerOk (queueOf (fetchedQ (cmdRaw 0x10 0)) 1023) (cmdRaw 0x10 0) = false ∧
    (ahead 15 (queueOf (frontended fun x => { x with cplWait := [aRecord], cplWritten := 15 }) 1023).cplHead < 16) ∧
    ((uPut (0x20180 + 32 * 3) 32 (recordBytes 1023 15 16 aRecord)
        { UStep.start 0 0 10 (inRing 0 (openQ (fun x => { x with cplWritten := 16 }) mapped)) with owner := .record 1023 }).held = false) ∧
    ((uPut (0x20180 + 32 * 3) 32 (recordBytes 1023 15 16 aRecord)
        { UStep.start 0 0 10 (inRing 0 (openQ (fun x => { x with cplWritten := 16 }) mapped)) with owner := .record 1023 }).fault = none) := by
  decide +kernel

def ctlJob (op raw : Nat) : State :=
  withJob 3 7 (jobOf op raw) (withLine 0x10000 (withLine 0x10080 (withLine 0x10100 mapped)))
def ctlStep (s : State) : UStep := UStep.start 0 (jobKey 3 7) 10 s
def inlineRaw : Nat := fields [(16, 8, 0x1007F), (24, 2, 192), (64, 8, 0x1122334455667788)]
def signalRaw (m : Nat) : Nat := fields [(16, 8, 0x10008), (24, 8, 5), (32, 1, m)]
def waitRaw (v : Nat) : Nat := fields [(16, 8, 0x10008), (24, 8, v)]

theorem witness_ControlCommandsComplete_writes :
    ((handed (ctlJob 0x0F 0) 3 7 0x0F).isSome = true ∧ (handed (ctlJob 8 0) 3 7 8).isSome = true ∧
      (handed (ctlJob 0x0E 77) 3 7 0x0E).isSome = true ∧ zeros 77 20 255 = true ∧ (ctxOf mapped 0).dict = true ∧
      (ctxOf mapped 9).dict = false) ∧
    (inlineOk inlineRaw = true ∧ (inlinePut 0x1007F 192 (fld inlineRaw 64 192) (ctlStep (ctlJob 0x0D inlineRaw))).held = false) ∧
    (signalOk (signalRaw 0) = true ∧ signalOk (signalRaw 1) = true ∧ signalOk (signalRaw 2) = true ∧
      signalAddOk (ctlJob 9 (signalRaw 2)) 0 0x10008 = true ∧
      (uReduceLine 0x10000 0 3 (BitVec.ofNat 1024 (5 * 2 ^ 64)) (spanMask 8 8) (ctlStep (ctlJob 9 (signalRaw 2)))).held = false) := by
  decide +kernel

def waiting9 : State := after (exec (.wait 3 7) (ctlJob 0x0A (waitRaw 9))) mapped
def waitHit : State :=
  { waiting9 with mem := { waiting9.mem with watches := waiting9.mem.watches.map fun _ w => { w with hit := some (9, false) } } }
def abortRaw : Nat := fields [(16, 2, 1023), (20, 4, 4)]
def abortable : State := openQ (fun x => { x with tail := 5, fetched := [{ seq := 4, raw := 0 }] }) (ctlJob 0x0C abortRaw)

theorem witness_ControlCommandsComplete_waits :
    (waitOk (waitRaw 0) = true ∧ (uGet 0x10008 8 (ctlStep (ctlJob 0x0A (waitRaw 0)))).2.held = false ∧
      (uGet 0x10008 8 (ctlStep (ctlJob 0x0A (waitRaw 0)))).1.failed = false ∧
      waitTest (waitRaw 0) (uGet 0x10008 8 (ctlStep (ctlJob 0x0A (waitRaw 0)))).1.val = true) ∧
    (handed waiting9 3 7 0x0A = none ∧ (waitHit.mem.watches.find (jobKey 3 7)).any (fun w => w.hit == some (9, false)) = true ∧
      handed waitHit 3 7 0x0A = none ∧ (waitHit.jobs.find (jobKey 3 7)).isSome = true) ∧
    (opGen2 2 0x0A = some 0x0A ∧
      (uGet 0x10008 8 (ctlStep (atLeast (dv mapped K.waitPollNs) (ctlJob 0x0A (waitRaw 0))))).2.fault = none) ∧
    ((handed abortable 3 7 0x0C).isSome = true ∧ fld abortRaw 16 2 < 1024 ∧ zeros abortRaw 18 19 = true ∧
      zeros abortRaw 24 255 = true ∧ (ctxOf abortable 0).domain = 0 ∧ notBehind 4 (queueOf abortable 1023).tail = false ∧
      ((queueOf abortable 1023).fetched.find? fun g => g.seq == 4).isSome = true) := by decide +kernel

def copyRaw : Nat := fields [(16, 8, 0x100000), (24, 8, 0x200000), (32, 8, 65536), (40, 4, 1), (64, 1, 7), (65, 1, 2)]
def fillRaw : Nat := fields [(16, 8, 0x200000), (24, 8, 256), (32, 4, 1), (48, 8, 0x5A), (56, 1, 1), (64, 1, 8), (65, 1, 1)]
def aPiece : Piece := { key := jobKey 3 7, start := 0, done := 0, stride := 65536, total := 256, fault := none }
def pieceAt : State :=
  setEngine (engineKey 8 31) { Engine.idle with pieces := [aPiece] }
    (setHaul (jobKey 3 7) { unit := 8, left := 1, bytesDone := 0, poisonAt := none }
      (withJob 3 7 { jobOf 4 fillRaw with phase := .running } mapped))

theorem witness_HaulCommandsMoveBytes :
    (haulOk true copyRaw = true ∧ haulOk false fillRaw = true ∧ haulOk true 0 = false ∧ haulOk false 0 = false ∧
      (handed (ctlJob 3 copyRaw) 3 7 3).isSome = true ∧ (handed (ctlJob 4 fillRaw) 3 7 4).isSome = true) ∧
    (31 < engineCount 8 ∧ dieUp pieceAt (unitDie 8) = true ∧ (engineOf pieceAt (engineKey 8 31)).pieces = [aPiece] ∧
      txnsOfEngine pieceAt (engineKey 8 31) < 512 ∧
      (moveLines false fillRaw 256 512 ⟨0, 0, none⟩
        { UStep.start 0 (jobKey 3 7) 10 pieceAt with owner := .share (jobKey 3 7) (engineKey 8 31) }).2.stopped = false ∧
      (moveLines false fillRaw 256 512 ⟨0, 0, none⟩
        { UStep.start 0 (jobKey 3 7) 10 pieceAt with owner := .share (jobKey 3 7) (engineKey 8 31) }).1.at_ = 256) ∧
    txnsOf pieceAt (jobKey 3 7) = 0 := by decide +kernel

def faultyPiece : Piece := { aPiece with done := 128, fault := some anInfo }
def faultyRoute : Route := { routeListed issueRaw with fault := some anInfo }
def faultyColl : State :=
  { mapped with press := { mapped.press with colls := ⟨[(jobKey 3 7, { Coll.begun 0 0 0 with fault := some anInfo })]⟩ } }

theorem witness_FaultedTasksAreSavedAndResolved_out :
    ((engineOf (setEngine (engineKey 8 31) { Engine.idle with pieces := [faultyPiece] } mapped) (engineKey 8 31)).pieces =
        [faultyPiece] ∧ faultListFull 1 mapped = false ∧ faultRingFull mapped = false ∧
      faultRingFull { mapped with faultq := { head := 0, tail := 4096, waiting := [] } } = true) ∧
    (brambleFaulted (brambleOf (brambleWith none [] [faultyRoute] mapped) 0) = [faultyRoute] ∧
      (brambleOf (brambleWith none [] [faultyRoute] mapped) 0).saves.cells = []) ∧
    ((faultyColl.press.colls.cells.filter fun c => c.2.fault.isSome && c.2.saved.isNone).length = 1 ∧ pressSlots faultyColl = []) := by
  decide +kernel

theorem witness_FaultedTasksAreSavedAndResolved_handler :
    writeCheck mapped K.faultQHead = 0 ∧ writeCheck mapped K.faultResolve = 0 ∧ ahead 1 0 ≤ ahead 1 0 ∧ ahead 1 0 < ahead 2 0 ∧
    (isParked (255 + 7 * 2 ^ 8 + 1 * 2 ^ 12) (withGroup { group7 with place := .saved 255 }) = false ∧
      ((withGroup { group7 with place := .saved 255 }).grp.groups.cells.find? fun c => c.2.die == 7 && c.2.place == .saved 255) =
        some (gid, { group7 with place := .saved 255 })) ∧
    (isParked (31 + 8 * 2 ^ 8 + 3 * 2 ^ 12) mapped = false ∧
      (engineOf (setEngine (engineKey 8 31) { Engine.idle with saved := some faultyPiece } mapped) (engineKey 8 31)).saved =
        some faultyPiece) ∧
    (∀ k, k < 6 → isParked (4095 + k * 2 ^ 12) mapped = false ∧ (faceOf mapped 15).saves.find 255 = none ∧
      (engineOf mapped (engineKey 15 255)).saved = none ∧ (brambleOf mapped 15).saves.find 255 = none) := by decide +kernel

theorem witness_QueueStateWritesAreDecided :
    writeCheck mapped (qKey 1023 0) = 0 ∧ (queueOf mapped 1023).st = .closed ∧ canOpen { mapped with pkg := .defect } 1023 = false ∧
    canOpen configured 1023 = true ∧ (queueOf (openQ id mapped) 1023).st ≠ .closed ∧
    (queueOf (openQ id mapped) 1023).live = [] := by decide +kernel

/-! ### Witnesses: ports, transactions and collectives -/

/-- Port 23's last logical port, trained as Direct x2 (PORT_CFG 6). -/
def port95 (f : Port → Port) : State := setPort 95 (f { Port.idle with st := .training, cfg := 6 }) mapped

def trained (up : Bool) (nb : Nat) : TrainResult := { up := up, rate := 3, speed := 0, neighbour := nb, credits := [8, 8, 8, 8] }

def downPort : State := setDv (K.portCfg + 23) 6 (port95 fun p => { p with st := .down, downAt := 3 })
def upPort : State :=
  setLayer 95 { LinkLayer.start [8, 8, 8, 8] with nextFlit := 9, nextSent := 5, replayBuf := [(4, 0)] }
    (port95 fun p => { p with st := .up, rate := 1 })
def pfcPort : State := setDv (K.portPfc + 95) 255 (port95 fun p => { p with st := .up, cfg := 8 })

/-- The routing entry of NODE 4,095 with one hop over `hop` and the crossing bit. -/
def entry4095 (hop : Nat) : Nat := 4095 + hop * 2 ^ 12 + 2 ^ 40 + 2 ^ 56 + 2 ^ 58

def routedBy (hop : Nat) : State := { upPort with links := { upPort.links with routes := ⟨[(4095, entry4095 hop)]⟩ } }

theorem witness_PortsTrainAndCarry_training :
    (alive (port95 id) = true ∧ (portOf (port95 id) 95).st = .training ∧ cfgOk (95 / 4) (portOf (port95 id) 95).cfg = true ∧
      bit (port95 id).board.clocksAbsent (8 + 95 / 16) = false ∧
      upFits (linkCap (port95 id)) (portOf (port95 id) 95).cfg (trained true 5) = some false ∧
      (portOf (port95 id) 95).retraining = none ∧ bondRuns (port95 id) 95 = [] ∧ cfgMode (portOf (port95 id) 95).cfg = 1 ∧ nodeId (port95 id) = 0) ∧
    cfgOk (95 / 4) (portOf (port95 fun p => { p with cfg := 7 }) 95).cfg = false ∧
    ((portOf downPort 95).st = .down ∧ cfgMode (portOf downPort 95).cfg ≠ 0 ∧
      (portOf downPort 95).cfg = dv downPort (K.portCfg + 95 / 4)) ∧
    (writeCheck downPort (K.portRetrain + 23) = 0 ∧ bondLead downPort 92 = none ∧ bondMembers downPort 92 = [] ∧
      cfgBond (dv downPort (K.portCfg + 23)) = 0) ∧
    (portOf (port95 fun p => { p with retraining := some 4 }) 95).retraining = some 4 := by decide +kernel

theorem witness_PortsTrainAndCarry_carrying :
    (alive upPort = true ∧ cfgMode (portOf upPort 95).cfg = 1 ∧ (portOf upPort 95).st = .up ∧
      (layerOf upPort 95).nextFlit = 9 ∧ (layerOf upPort 95).replayAsked = false ∧
      (layerOf upPort 95).replayBuf = [(4, 0)] ∧ (layerOf upPort 95).nextSent = 5) ∧
    (cfgMode (portOf pfcPort 95).cfg = 2 ∧ (portOf pfcPort 95).st = .up ∧ bit (dv pfcPort (K.portPfc + 95)) 7 = true) ∧
    (portUp upPort 95 = true ∧ nodeId upPort = 4096 % 4096 ∧ routeValid (routeEntry upPort 4095) = false) ∧
    (portUp (routedBy 95) 95 = true ∧ routeValid (routeEntry (routedBy 95) 4095) = true ∧
      1 < dv (routedBy 95) K.hopLimit ∧ bit (routeEntry (routedBy 95) 4095) 58 = true ∧
      (usableHops (routedBy 95) 4095).filter (portTakes (routedBy 95)) = [95] ∧ usableHops (routedBy 94) 4095 = []) ∧
    (writeCheck mapped K.routeWrite = 0 ∧ ((List.range 4).all fun i => hopOk (routeHop (entry4095 95) i)) = true ∧
      ((List.range 4).all fun i => hopOk (routeHop (entry4095 96) i)) = false) := by decide +kernel

/-- Transaction 8 is out over connection 5 for request 4. -/
def outTxn (peer rd : Bool) : Txn :=
  { conn := 5, epoch := 0, peer := peer, node := 4095, addr := 0, len := 4, read := rd, rkey := 0, seg := 0, gen := 0, bytes := [1#8],
    poison := false, reduce := none, owner := .req 4, psn := 3, since := 2, resentAt := 2, sent := true, hop := some 95 }

def withTxn (x : Txn) : State :=
  let s := requested .read 0
  { s with
    links := { (routedBy 95).links with
      conns := ⟨[(5, { peerConn with
        record := fields [(2, 1, if x.peer then 1 else 2), (6, 2, 4), (8, 1, 3)], ackPsn := 3, nextPsn := 4 })]⟩
      txns := ⟨[(8, x)]⟩
      nextTxn := 9 }
    reqs := ⟨[(4, { aReq .read with st := .remote 8 })]⟩ }

def cnpSeen : State :=
  setConn 5 { connOf (withTxn (outTxn false false)) 5 with lastCnp := some 0, lastCut := some 0 } (withTxn (outTxn false false))

def connRecord : Nat := fields [(0, 2, 16383), (2, 1, 1), (6, 2, 1)]

theorem witness_TransactionsResolve :
    ((withTxn (outTxn true true)).links.txns.find 8 = some (outTxn true true) ∧ routeValid (routeEntry (withTxn (outTxn true true)) 4095) = true ∧
      (usableHops (withTxn (outTxn true true)) 4095).filter (portTakes (withTxn (outTxn true true))) = [95] ∧
      (withTxn (outTxn true true)).links.txns.find 7 = none) ∧
    ((withTxn (outTxn false true)).links.txns.find 8 = some (outTxn false true) ∧
      alive (withTxn (outTxn false true)) = true ∧ frontendReady (withTxn (outTxn false true)) 5 = true ∧
      ((roceOut (withTxn (outTxn false true)) 5).find? fun c => c.2.read && c.2.psn == (3 + 2 ^ 24) % 2 ^ 24) =
        some (8, outTxn false true) ∧
      roceOut (withTxn (outTxn false true)) 5 = [(8, outTxn false true)] ∧
      (connOf (withTxn (outTxn false true)) 5).retries < connRetry (connOf (withTxn (outTxn false true)) 5)) ∧
    (frontendReady (withTxn (outTxn false false)) 5 = true ∧
      elapsed (withTxn (outTxn false false)).time.now (connOf (withTxn (outTxn false false)) 5).lastCnp 50000 = true ∧
      elapsed (withTxn (outTxn false false)).time.now (connOf (withTxn (outTxn false false)) 5).lastCut 50000 = true) ∧
    (alive cnpSeen = true ∧ frontendReady cnpSeen 5 = true ∧
      elapsed cnpSeen.time.now (connOf cnpSeen 5).lastCnp 50000 = false ∧
      elapsed cnpSeen.time.now (connOf cnpSeen 5).lastCut 50000 = false) ∧
    writeCheck mapped K.abandonedClear = 0 ∧
    (writeCheck mapped K.connWrite = 0 ∧ recordOk mapped connRecord = true ∧ fld connRecord 2 1 ≠ 0 ∧
      recordOk mapped (3 * 2 ^ 16) = false) := by decide +kernel


/-- ALL_REDUCE of 64 INT32 over a tree of two members, rank 0 here and rank 1 at NODE 4,095 over connection 5. -/
def pressRaw : Nat :=
  fields [(17, 1, 2), (18, 1, 4), (20, 4, 77), (24, 8, 64), (32, 8, 4096), (40, 8, 8192), (48, 8, 0x100000), (56, 2, 2)]

def pressJob : State :=
  fwWrite 2 (2 ^ 31 + 0x100000) 8 (fields [(4, 2, 5), (6, 2, 4095)]) <|
    [0x100000, 4096, 4224, 8192, 8320].foldl (fun s va => withLine va s)
    (withJob 3 7 (jobOf 5 pressRaw)
      (setBlob K.importTable (zeroBytes 20 ++ [1#8, 2#8, 5#8] ++ zeroBytes 4073)
        { (routedBy 95) with links := { (routedBy 95).links with conns := ⟨[(5, peerConn)]⟩ } }))

def pressBegun : Coll := Coll.begun pressRaw 0 0

def pressList : Rd × UStep :=
  uGet (pList pressRaw) (4 * pN pressRaw) (UStep.start 0 (jobKey 3 7) 10
    (setColl (jobKey 3 7) pressBegun (began (jobKey 3 7) pressJob)))

theorem witness_CollectivesExchangeAndEnd_staging :
    pressJob.press.colls.find (jobKey 3 7) = none ∧
    ((handed pressJob 3 7 5).any fun j => j.gen == 2 && j.raw == pressRaw && j.ctx == 0) = true ∧ pressJob.time.now = 0 ∧
    pressOk pressRaw = true ∧ pressJob.press.colls.cells = [] ∧ pressList.2.held = false ∧ pressList.2.fault = none ∧
    pressList.1.poison = false ∧ ownRank pressJob 2 pressList.1.val = some 0 ∧
    (let k := keptBlock pressBegun 0 pressList.2
     k.2.stopped = false ∧ ownCopy pressRaw 0 = some (4096, 8192, 256) ∧ (pressCopy 4 4096 8192 256 k.2).2.stopped = false) := by
  unfold pressList began
  decide +kernel

/-- The collective staged: its parameters agree, and it waits for rank 1's ready message. -/
def aColl (f : Coll → Coll) : Coll :=
  f { Coll.begun pressRaw 0 0 with
    staged := true, members := [(0, 0), (5, 4095)], peers := [1], paramsFrom := [1], readySent := true
    plan := pressPlan pressRaw 0 0, expect := pressExpect pressRaw 0 0 }

def colled (f : Coll → Coll) : State := setColl (jobKey 3 7) (aColl f) pressJob

def aChunk : Chunk :=
  { seqNo := 1, origin := 1, domain := 2, reduce := true, offset := 0, index := 0, skip := 0, size := 4
    bytes := [1#8, 0#8, 0#8, 0#8], poison := 0 }

def aNeed : PNeed := { src := 1, off := 0, len := 256, reduce := true, left := 256 }

def waitsData (c : Coll) : Coll := { c with plan := [] }

theorem witness_CollectivesExchangeAndEnd_messages :
    (pressAccepts (colled id) 5 2 = true ∧ pressAccepts (colled id) 5 3 = false ∧ collOn (colled id) 5 78 = none) ∧
    (collOn (colled id) 5 77 = some (jobKey 3 7, aColl id, 1) ∧ (aColl id).ended = false ∧
      (colled id).press.colls.find (jobKey 3 7) = some (aColl id) ∧ (aColl id).peers.contains 1 = true ∧
      (aColl id).fault = none ∧ (aColl id).saved = none ∧ (aColl id).staged = true ∧ needsFrom (aColl id) 1 = true) ∧
    (collOn (colled waitsData) 5 77 = some (jobKey 3 7, aColl waitsData, 1) ∧ pSparse pressRaw = false ∧
      ((aColl waitsData).expect.find? fun e => e.src == 1 && e.off == aChunk.offset && e.reduce == aChunk.reduce) =
        some aNeed ∧
      (connOf (colled waitsData) 5).performed.contains 1 = false ∧ (connOf (colled waitsData) 5).performed.contains 9 = true ∧
      (let x := takeChunk (aColl waitsData) 1 aNeed aChunk (UStep.start 0 (jobKey 3 7) 10 (colled waitsData))
       x.2.2.held = false ∧ x.2.2.fault = none ∧ x.2.1.relay = [])) := by decide +kernel

theorem witness_CollectivesExchangeAndEnd_end :
    (∃ m, sameParams m (ownParams (aColl id) (colled id) 1) = true) ∧
    (∃ m, sameParams m (ownParams (aColl id) (colled id) 1) = false) ∧
    (txnsOf (colled fun c => { c with ended := true }) (jobKey 3 7) = 0) ∧
    (txnsOf (colled fun c => { c with plan := [], expect := [], readyFrom := [1] }) (jobKey 3 7) = 0 ∧
      (aColl fun c => { c with plan := [], expect := [], readyFrom := [1] }).peers.all
        (aColl fun c => { c with plan := [], expect := [], readyFrom := [1] }).readyFrom.contains = true) := by
  refine ⟨⟨ownParams (aColl id) (colled id) 1, by simp [sameParams]⟩,
    ⟨{ ownParams (aColl id) (colled id) 1 with op := 9 }, ?_⟩, by decide +kernel⟩
  simp [sameParams, ownParams, collParamsOf, aColl, Coll.begun]
  decide +kernel


/-! ### Witnesses: the Weighbridge, time, snapshots, events and the window -/

def started (f : State → State) : State :=
  f { mapped with weigh := { mapped.weigh with started := true, windowAt := 50, avsRetry := [3] } }

def offering (w : Work) (s : State) : State :=
  setStation 7 { stationOf s 7 with tokens := 1000000000, offers := [{ work := w, prio := 7, passed := 0 }] } s

/-- Work whose estimate is a whole number of µJ: a FACE_OP that has been charged, and groups of 1,000 nJ. -/
def chargedFace : Work := .face { faceRun with resumed := true }
def manyGroups (s : State) : State := withLaunch (jobKey 3 7) (aLaunch (launchRaw0 + 999 * 2 ^ 352)) s

def hotBoard : State := started fun s => { s with board := { s.board with thermtrip := true } }

theorem witness_WeighbridgeGovernsThePoints :
    (alive (started id) = true ∧ (started id).weigh.started = true ∧ alive hotBoard = true ∧
      hotBoard.board.thermtrip = true ∧ bit hotBoard.diesHeld 9 = false) ∧
    (dieUp (started id) 7 = true ∧ (started id).board.thermtrip = false ∧ (diePower (started id) 7).tripped = false ∧
      (chooseWork (started (offering chargedFace)) 7 == some chargedFace) = true ∧
      estimate (started manyGroups) 7 (.group (jobKey 3 7)) = 1 ∧
      (chooseWork (started fun s => offering (.group (jobKey 3 7)) (manyGroups s)) 7 == some (.group (jobKey 3 7))) = true) ∧
    (dieUp mapped 9 = true ∧ (diePower mapped 9).tripped = false) ∧
    writeCheck mapped K.envelopeMaxW = 0 := by decide +kernel

def mgmtBy (f : Mgmt → Mgmt) : State := { mapped with mgmt := f mapped.mgmt }

/-- The port has link at the address whose 16 bytes are the number. -/
def atIp (ip : Nat) : State := mgmtBy fun m => { m with link := 1, ip := toBytes 16 ip }

/-- 10.0.0.1, written as MGMT_IP holds an IPv4 address. -/
def ip4 : Nat := 0x0100000A * 2 ^ 96 + 0xFFFF * 2 ^ 80

def hearing (f : TimeS → TimeS) : State :=
  setDv K.ptpSource 1 { atIp 5 with time := f { (atIp 5).time with now := 7000000, slewAt := 3, slewBy := 100, slewPpm := 400 } }

def aSync (twoStep : Bool) : PtpMsg := { origin := 60, local_ := 50, gmId := 3, domain := 0, twoStep := twoStep }

theorem witness_ManagementPortAndClockFollow :
    ((mgmtBy fun m => { m with waiting := [(9, K.mgmtIp, 5)] }).mgmt.waiting = [(9, K.mgmtIp, 5)] ∧ alive mapped = true ∧
      mapped.mgmt.mode = 2 ∧ mapped.mgmt.link = 0 ∧ mapped.mgmt.trying = 0 ∧ linkCode mapped.mgmt.trying = 2 ∧
      bit mapped.board.clocksAbsent 14 = false ∧ (atIp 5).mgmt.link ≠ 0) ∧
    (atAddress (atIp ip4) ip4 = true ∧ isIpv4 (portAddress (atIp ip4)) = true ∧ atAddress (atIp 5) 5 = true ∧
      isIpv4 (portAddress (atIp 5)) = false) ∧
    (alive (hearing id) = true ∧ ptpHears (hearing id) (aSync true) = true ∧ ptpHears (hearing id) (aSync false) = true ∧
      (hearing fun t => { t with awaitFollowUp := true }).time.awaitFollowUp = true) ∧
    (ptpHears (hearing fun t => { t with syncOrigin := some 40, syncLocal := 60, ptpState := 1, good := 9 }) (aSync true) = true ∧
      (hearing fun t => { t with syncOrigin := some 40, syncLocal := 60, ptpState := 1, good := 9 }).time.syncOrigin = some 40) ∧
    (dv (hearing id) K.ptpStepNs = 1000000) := by decide +kernel

def shotHeld : State := setDv K.shotCtl 3 mapped

def flagged (flags : Nat) : State :=
  { mapped with links := { mapped.links with
      conns := ⟨[(5, { peerConn with record := fields [(2, 1, 1), (4, 2, flags)] })]⟩ } }

/-- Two events are on their way to the arbiter. -/
def twoEvents : State := raise 0x42 3 1 2 (raise 0x41 3 1 2 mapped)

def waitingEvent (r : EventRec) : State := { twoEvents with ev := { twoEvents.ev with waiting := [{ r with more := 1 }] } }

def eventRing : State := { mapped with ev := { mapped.ev with head := 5, tail := 9 } }

theorem witness_SnapshotsCountersAndEvents :
    (writeCheck mapped K.shotFire = 0 ∧ bit (dv mapped K.shotCtl) 0 = false ∧ mapped.snap.busy = false ∧
      bit (dv shotHeld K.shotCtl) 0 = true ∧ bit (dv shotHeld K.shotCtl) 1 = true ∧ alive shotHeld = true) ∧
    (connFlag (connOf (flagged 2) 5) 1 = true ∧ (connOf (flagged 2) 5).st = 1 ∧ connFlag (connOf (flagged 0) 5) 1 = false) ∧
    (alive { mapped with snap := { mapped.snap with busy := true } } = true) ∧
    (writeCheck mapped K.counterClear = 0 ∧ isCounter (256 * 0x6120 + 1) = true ∧ isCounter K.dictWriteSeq = false) ∧
    writeCheck mapped K.errSummaryClear = 0 ∧
    ((twoEvents.ev.inFlight[1]?.any fun r => r.code == 0x42 && (foldTarget (bump K.eventsRaised 1 twoEvents) r.code).isNone &&
      foldTarget (bump K.eventsRaised 1 (waitingEvent r)) r.code == some r.seq) = true ∧ alive twoEvents = true ∧
      (twoEvents.ev.inFlight[1]?.any fun r => routeOpen twoEvents r.source 10) = true) ∧
    (writeCheck eventRing K.eventQHead = 0 ∧ ahead 9 eventRing.ev.head ≤ ahead eventRing.ev.tail eventRing.ev.head ∧
      ahead eventRing.ev.tail eventRing.ev.head < ahead 4 eventRing.ev.head) := by decide +kernel

def windowXl (off gen : Nat) : Xl :=
  { ctx := 0, seg := 0, gen := gen, epoch := 0, domain := 0, partition := 0, tracked := false, region := 2, target := .window off }

def posted (off gen : Nat) : State :=
  withMedlar { aMedlar with posted := [{ xl := windowXl off gen, va := 64, reduce := none, n := 2, val := 2000 }] }

def arrivesAt (p : Posted) (off : Nat) : Bool := match p with
  | .arrives o _ _ _ => o == off
  | _ => false

def refusedAt (p : Posted) : Bool := match p with
  | .refused _ => true
  | _ => false

def hdpMsg (seq ver n : Nat) (body : List Byte) : List Byte :=
  toBytes 2 0x4448 ++ toBytes 1 ver ++ [0#8] ++ toBytes 4 seq ++ toBytes 2 n ++ toBytes 2 (16 + body.length) ++
  toBytes 4 0 ++ body

def readOp (key : Nat) : List Byte :=
  [0#8, 0#8] ++ toBytes 2 (key / 256) ++ toBytes 1 (key % 256) ++ [0#8] ++ toBytes 2 0 ++ toBytes 8 0

def askedOnce : State := serveHdp (.mgmt 1 2) (hdpMsg 9 1 1 (readOp K.envelopeW)) (atIp 5)

def isError (e : Except Nat (List HdpOp)) (n : Nat) : Bool := match e with
  | .error m => m == n
  | .ok _ => false

def subscribed : State :=
  { mapped with hdp := { mapped.hdp with
      subs := [{ path := .mgmt 1 2, version := 2, waiting := [⟨9, 1, 2, 3, 4, 5, 0⟩], lastSent := some 70 }] } }

/-- Connection 5 leads to a front-end whose sends are dictionary messages. -/
def asking : State :=
  { mapped with links := { mapped.links with
      conns := ⟨[(5, { peerConn with record := fields [(2, 1, 2), (4, 2, 1)] })]⟩ } }

theorem witness_WindowAndProtocolAreServed :
    (connMode (connOf asking 5) = 2 ∧ (connOf asking 5).st = 1 ∧ connFlag (connOf asking 5) 0 = true) ∧
    (dieUp (posted 64 0) (dieOfCore 191) = true ∧ arrivesAt (takePosted 191 (posted 64 0)) 64 = true ∧
      arrivesAt (takePosted 191 (posted 0x100000000 0)) 0x100000000 = true ∧ refusedAt (takePosted 191 (posted 64 9)) = true) ∧
    (8 * K.envelopeW < 0x8000000 ∧ ((entryOf K.envelopeW).any fun r => r.size == 2) = true ∧ isBlob K.envelopeW = false ∧
      writeCheck mapped K.envelopeW = 0) ∧
    (isBlob K.importTable = true ∧ served mapped K.importTable = true) ∧
    (alive (atIp 5) = true ∧ (atIp 5).mgmt.link ≠ 0 ∧ mapped.mgmt.link = 0 ∧
      (askedOnce.hdp.kept.find? fun k => k.path == .mgmt 1 2 && k.seq == fld (ofBytes ((hdpMsg 9 7 0 []).take 16)) 4 4).isSome = true ∧
      ((atIp 5).hdp.kept.find? fun k => k.path == .mgmt 1 2 && k.seq == 9) = none) ∧
    (isError (checkRequest mapped (.mgmt 1 2) (hdpMsg 4 9 1 [])) 2 = true ∧
      isError (checkRequest mapped (.conn 5) []) 1 = true) ∧
    ((subscribed.hdp.subs[0]?.any fun u => u.waiting != []) = true ∧ alive subscribed = true) ∧
    writeCheck mapped (K.faceLfsrSeed + 7) = 0 := by decide +kernel

theorem witness_StepTakesTheFrontCommand :
    { State.reset with pending := [.shotIn 20, .mgmtLinkDown] }.pending = .shotIn 20 :: [.mgmtLinkDown] ∧
    State.reset.pending = [] := by decide

theorem witness_EveryStepKeepsMemoryCanonical :
    HbmCanonical State.reset ∧ ∃ t, step State.reset = .next t :=
  ⟨by unfold HbmCanonical; decide +kernel, _, rfl⟩

theorem witness_UrtexWordsRoundTrip :
    (r64 7 3 false 255 254 253 252 6 5).fits = true ∧ (r64 7 3 false 255 254 253 252 6 5).long = true ∧
    (i64 3 5 6 (2 ^ 64 - 1)).fitsI = true ∧ (m64 3 1 5 6 7 (-8)).fits = true ∧
    (bFields 0x0010002005019431).fits true = true ∧ 0x01001A5008811421 < 2 ^ (8 * wsize 0x01001A5008811421) := by decide +kernel


/-! ### Ill-formed commands, one for each check -/

theorem test_wellformed_numbers_refused :
    [Instr.powerUp (2 ^ 16) 0, .ownerKeyDigest 4 false [], .queueOpen 0 1024, .faceOp 0 (2 ^ 32) 0,
      .faceOp 0 0 8, .thermalSensorRead 11 0, .storeBufferDrain 192, .groupStart 0 512, .readShared 0 (2 ^ 35),
      .benchFill (2 ^ 35) 0, .runtimeStart (2 ^ 21) 0 0, .cnpReceive (2 ^ 14), .transitPacket 0 4096 0 0,
      .transitPacket 0 0 256 0, .transitPacket 0 0 0 4, .portRetrain 0 24 0, .portRetry 96, .refresh 32, .hbmSchedule 1024 0,
      .refclkLoss 16, .settStall 18 false 0, .settSelfTest (2 ^ 18), .avsTimeout 11, .segUpdateGrant 0 0 65, .pfcPause 0 8 true,
      .pressDataTimeout 0 0 4096, .dictWrite 0 (2 ^ 24) 0, .dictWrite 0 0 (2 ^ 64), .lockSet 0 0 0, .lockSet 0 7 0,
      .tableBaseWrite 0 2 0, .mgmtLinkUp 0, .mgmtLinkUp 3, .haulPiece 9 0, .haulPiece 8 32, .haulPiece 7 64,
      .taskSwitchOut 6 0 0, .taskSwitchOut 3 9 0, .faultEnd 0 (2 ^ 16), .roceResponse 0 .ack (2 ^ 24) [],
      .arpRequest (2 ^ 128), .connWrite 0 (2 ^ 512)].all (fun i => !WellFormed i) = true := by decide +kernel

theorem test_wellformed_compounds_refused :
    [Instr.int (.medlar 192) 0, .int (.group 0) (2 ^ 32), .int (.group 0) (2 ^ 64 + 1), .hbmTraining [0], .hbmTraining (List.replicate 32 3),
      .beatRateUpdate (List.replicate 11 (2 ^ 32)), .imageLoad [] [] [2 ^ 42], .hdpRequest (.mgmt (2 ^ 128) 0) [],
      .hdpRequest (.mgmt 0 (2 ^ 16)) [], .hdpRequest (.conn (2 ^ 14)) [], .portTrainingDone 0 ⟨true, 4, 0, 0, []⟩,
      .portTrainingDone 0 ⟨true, 0, 8, 0, []⟩, .portTrainingDone 0 ⟨true, 0, 0, 4096, []⟩, .peerRequest 0 ⟨2 ^ 24, none, 0, .read, 0, 4, []⟩,
      .peerRequest 0 ⟨0, none, 256, .read, 0, 4, []⟩, .peerRequest 0 ⟨0, none, 0, .read, 2 ^ 42, 4, []⟩,
      .peerRequest 0 ⟨0, none, 0, .read, 0, 4, [1#8]⟩, .peerRequest 0 ⟨0, none, 0, .write, 0, 4, [1#8]⟩,
      .pressParameterMessage 0 0 ⟨2 ^ 32, 0, 0, 0, 0, 0, 0, 0⟩, .ptpSync ⟨2 ^ 64, 0, 0, 0, false⟩, .ptpSync ⟨0, 0, 0, 256, false⟩,
      .pressChunk 0 0 ⟨0, 0, 0, false, 2 ^ 64, 0, 0, 0, [], 0⟩].all (fun i => !WellFormed i) = true := by decide +kernel

theorem test_wellformed_image_refused : imageOk { header := 2 ^ 32768, payload := [] } = false := by decide +kernel

theorem test_wellformed_commands_accepted :
    [Instr.int (.medlar 191) 0xFFFFFFFE, .queueOpen 3 1023, .thermalSensorRead 10 0, .lockSet 0 6 1, .haulPiece 8 31,
      .peerRequest 0 ⟨0, none, 0, .write, 0, 1, [1#8]⟩, .hbmTraining (List.replicate 32 2)].all WellFormed = true := by decide +kernel

/-! ### Urtex words of the spec's own worked example (R180, R187) -/

theorem test_load_word_of_the_spec :
    major 0x01001A5008811421 = 0x10 ∧ wsize 0x01001A5008811421 = 8 ∧
    mFields 0x01001A5008811421 =
      { long := true, off := 64, pn := false, pe := false, preg := 0, lc := true, bench := true, sx := false, scale := 2, am := 1,
        width := 2, opf := 0, b := 17, a := 2, d := 40 } := by decide

theorem test_branch_word_of_the_spec :
    major 0x0010002005019431 = 0x18 ∧ wsize 0x0010002005019431 = 8 ∧
    bFields 0x0010002005019431 = { target := 64, reconv := 128, resv := 0, kind := 1, cond := 2, b := 3, a := 40 } := by decide

/-! ### The queue of commands -/

theorem test_no_row_has_bits : decodeTableWord 64 5 = none ∧ State.reset.withFetchWord 64 5 = State.reset := by decide +kernel

theorem test_idle_lets_time_pass : (match step State.reset with
    | .next t => t.time.now
    | _ => 0) = 1 := by decide +kernel
end

/-! ### Integer operations of Urtex: one equation per group of operations (R177) -/

namespace Sys2Proof.Machine

theorem two_pow_pred_add_self {w : Nat} (hw : 0 < w) : 2 ^ (w - 1) + 2 ^ (w - 1) = 2 ^ w := by
  rw [← Nat.two_mul, Nat.mul_comm, Nat.two_pow_pred_mul_two hw]

theorem natCast_two_pow (w : Nat) : ((2 ^ w : Nat) : Int) = 2 ^ w := Int.natCast_pow 2 w

theorem signed_signBit {w : Nat} (hw : 0 < w) : signed w (2 ^ (w - 1)) = -2 ^ (w - 1) := by
  have hpos : 0 < 2 ^ (w - 1) := Nat.two_pow_pos (w - 1)
  have hsum : 2 ^ (w - 1) + 2 ^ (w - 1) = 2 ^ w := two_pow_pred_add_self hw
  have hlt : 2 ^ (w - 1) < 2 ^ w := by omega
  simp only [signed, Nat.mod_eq_of_lt hlt, Nat.lt_irrefl, if_false]
  rw [← natCast_two_pow w, ← natCast_two_pow (w - 1)]
  omega

theorem signed_allOnes {w : Nat} (hw : 0 < w) : signed w (2 ^ w - 1) = -1 := by
  have hpos : 0 < 2 ^ (w - 1) := Nat.two_pow_pos (w - 1)
  have hsum : 2 ^ (w - 1) + 2 ^ (w - 1) = 2 ^ w := two_pow_pred_add_self hw
  have hlt : 2 ^ w - 1 < 2 ^ w := by omega
  have hnot : ¬ 2 ^ w - 1 < 2 ^ (w - 1) := by omega
  simp only [signed, Nat.mod_eq_of_lt hlt, hnot, if_false]
  rw [← natCast_two_pow w]
  omega

theorem unsigned_natCast (w x : Nat) : unsigned w (x : Int) = x % 2 ^ w := by
  rw [unsigned, ← natCast_two_pow w, ← Int.natCast_emod, Int.toNat_natCast]

theorem unsigned_zero (w : Nat) : unsigned w 0 = 0 := by
  rw [unsigned, Int.zero_emod, Int.toNat_zero]

theorem unsigned_lt (w : Nat) (i : Int) : unsigned w i < 2 ^ w := by
  have hpos : 0 < ((2 ^ w : Nat) : Int) := Int.natCast_pos.mpr (Nat.two_pow_pos w)
  have hlt : i % ((2 ^ w : Nat) : Int) < ((2 ^ w : Nat) : Int) := Int.emod_lt_of_pos i hpos
  rw [unsigned, ← natCast_two_pow w]
  omega

theorem unsigned_signBit {w : Nat} (hw : 0 < w) : unsigned w (2 ^ (w - 1)) = 2 ^ (w - 1) := by
  have hlt : 2 ^ (w - 1) < 2 ^ w := Nat.pow_lt_pow_right (by decide) (Nat.sub_lt hw (by decide))
  rw [← natCast_two_pow (w - 1), unsigned_natCast, Nat.mod_eq_of_lt hlt]

theorem allOnes_mod (w : Nat) : (2 ^ w - 1) % 2 ^ w = 2 ^ w - 1 :=
  Nat.mod_eq_of_lt (Nat.sub_lt (Nat.two_pow_pos w) Nat.one_pos)

theorem intOp_lt (op w x y : Nat) : intOp op w x y < 2 ^ w := Nat.mod_lt _ (Nat.two_pow_pos w)

theorem intOp_add (w x y : Nat) : intOp 0 w x y = (x + y) % 2 ^ w := (Nat.add_mod x y (2 ^ w)).symm

theorem intOp_mul (w x y : Nat) : intOp 8 w x y = x * y % 2 ^ w := (Nat.mul_mod x y (2 ^ w)).symm

theorem intOp_sub (w x y : Nat) : ((intOp 1 w x y : Nat) : Int) = ((x : Int) - y) % 2 ^ w := by
  have hle : y % 2 ^ w ≤ 2 ^ w := Nat.le_of_lt (Nat.mod_lt y (Nat.two_pow_pos w))
  have hcomm (a b p : Int) : a + (p - b) = a - b + p := by omega
  calc ((intOp 1 w x y : Nat) : Int)
      = (((x % 2 ^ w + (2 ^ w - y % 2 ^ w)) % 2 ^ w : Nat) : Int) := rfl
    _ = ((x : Int) % 2 ^ w + (2 ^ w - (y : Int) % 2 ^ w)) % 2 ^ w := by
        rw [Int.natCast_emod, Int.natCast_add, Int.ofNat_sub hle, Int.natCast_emod, Int.natCast_emod, natCast_two_pow]
    _ = ((x : Int) % 2 ^ w - (y : Int) % 2 ^ w + 2 ^ w) % 2 ^ w := by rw [hcomm]
    _ = ((x : Int) - y) % 2 ^ w := by rw [Int.add_emod_right, ← Int.sub_emod]

/-- DIV, DIVU, REM and REMU by zero. -/
theorem intOp_div_by_zero {w y : Nat} (x : Nat) (hy : y % 2 ^ w = 0) :
    intOp 11 w x y = 2 ^ w - 1 ∧ intOp 12 w x y = 2 ^ w - 1 ∧ intOp 13 w x y = x % 2 ^ w ∧ intOp 14 w x y = x % 2 ^ w := by
  simp only [intOp, divS, divU, remS, remU, hy, allOnes_mod, Nat.zero_mod, Nat.mod_mod, if_true, and_self]

/-- DIV and REM of the most negative value by −1: the quotient 2^(w−1) is the pattern of the dividend again. -/
theorem intOp_div_overflow {w x y : Nat} (hw : 0 < w) (hx : x % 2 ^ w = 2 ^ (w - 1)) (hy : y % 2 ^ w = 2 ^ w - 1) :
    intOp 11 w x y = 2 ^ (w - 1) ∧ intOp 13 w x y = 0 := by
  have hlt : (2 : Nat) ^ (w - 1) < 2 ^ w := Nat.pow_lt_pow_right (by decide) (Nat.sub_lt hw (by decide))
  have hne : 2 ^ w - 1 ≠ 0 := Nat.sub_ne_zero_of_lt (Nat.one_lt_two_pow (Nat.ne_of_gt hw))
  constructor
  · calc intOp 11 w x y = divS w (x % 2 ^ w) (y % 2 ^ w) % 2 ^ w := rfl
      _ = 2 ^ (w - 1) := by
        rw [hx, hy, divS, allOnes_mod, if_neg hne, signed_signBit hw, signed_allOnes hw, Int.tdiv_neg, Int.tdiv_one, Int.neg_neg,
          unsigned_signBit hw, Nat.mod_eq_of_lt hlt]
  · calc intOp 13 w x y = remS w (x % 2 ^ w) (y % 2 ^ w) % 2 ^ w := rfl
      _ = 0 := by
        rw [hx, hy, remS, allOnes_mod, if_neg hne, signed_signBit hw, signed_allOnes hw, Int.tmod_neg, Int.tmod_one,
          unsigned_zero, Nat.zero_mod]

/-- SLL, SRL and SRA see only y mod w of their count, where w divides 2^w. -/
theorem intOp_shift_count {op w : Nat} (x y : Nat) (hw : w ∣ 2 ^ w) (hop : op = 5 ∨ op = 6 ∨ op = 7) :
    intOp op w x y = intOp op w x (y % w) := by
  have hcount : y % w % 2 ^ w % w = y % 2 ^ w % w := by
    rw [Nat.mod_mod_of_dvd _ hw, Nat.mod_mod, Nat.mod_mod_of_dvd _ hw]
  rcases hop with rfl | rfl | rfl <;> simp only [intOp, hcount]

theorem toScalar_lt {w x : Nat} (hx : x < 2 ^ 64) : toScalar w x < 2 ^ 64 := by
  unfold toScalar
  split
  · exact unsigned_lt 64 _
  · exact hx

/-! ### Registers of a Medlar core and of a group, where they stand in the state -/

@[simp] theorem medlarOf_setMedlar_self (c : Nat) (m : Medlar) (s : State) : medlarOf (setMedlar c m s) c = m :=
  Tab.get_put_self s.medlars Medlar.fresh c m

theorem medlarOf_setMedlar_of_ne {c d : Nat} (m : Medlar) (s : State) (h : d ≠ c) :
    medlarOf (setMedlar c m s) d = medlarOf s d :=
  Tab.get_put_of_ne s.medlars Medlar.fresh m h

@[simp] theorem groupOf_setGroup_self (g : Nat) (x : Group) (s : State) : groupOf (setGroup g x s) g = some x :=
  Tab.find_put_self s.grp.groups g x

@[simp] theorem groupOf_bump (k n g : Nat) (s : State) : groupOf (bump k n s) g = groupOf s g := by
  rw [groupOf, groupOf, bump_grp]

theorem gReg_setG_self {x : Nat} (r : Nat) (m : Medlar) (hx : x < 2 ^ 64) : gReg (setG r x m) r = x := by
  rw [gReg, setG, Tab.get_set_self, BitVec.toNat_ofNat, Nat.mod_eq_of_lt hx]

theorem gReg_setG_of_ne {r d : Nat} (x : Nat) (m : Medlar) (h : r ≠ d) : gReg (setG d x m) r = gReg m r := by
  rw [gReg, setG, Tab.get_set_of_ne _ _ _ h, gReg]

/-! ### Issue of a register instruction that nothing holds and whose fields are legal (R173, R174, R198) -/

theorem issueMedlar_of_done {row : Row} {c w : Nat} {s t : State} {med : Medlar → State → Eff}
    (hi : MedlarIssues row c w s) (hd : med (medlarOf s c) s = .done t) : issueMedlar row c w med s = .next t := by
  obtain ⟨hwaits, hrow, hloads, hfetch⟩ := hi
  have hlate : (!(medlarOf s c).loads.isEmpty && row != .ld) = false := by
    rcases hloads with h | h
    · rw [h, List.isEmpty_nil, Bool.not_true, Bool.false_and]
    · rw [h, bne_self_eq_false, Bool.and_false]
  simp only [issueMedlar, hwaits, wordFits, hrow, beq_self_eq_true, Bool.not_true, Bool.false_eq_true, hlate, hfetch, hd,
    reduceCtorEq, if_false]

theorem issueGroup_of_done {row : Row} {g w beats : Nat} {uses : List RReg} {x : Group} {s t : State}
    {grp : Group → State → Eff} (hi : GroupIssues row g w uses x s) (hd : grp x s = .done t) :
    issueGroup row g w uses beats grp s = .next (bump (K.groupIssueBeats + x.die) beats t) := by
  obtain ⟨hgroup, hwaits, hrow, hfetch⟩ := hi
  simp only [issueGroup, hgroup, hwaits, wordFits, hrow, beq_self_eq_true, Bool.not_true, Bool.false_eq_true, hfetch, hd,
    reduceCtorEq, if_false]

theorem withRegs_of_legal {grp ok : Bool} {regs d a b c : Nat} {k : OpKs} (ctx : Nat) (s : State) (go : Eff)
    (hok : ok = true) (hregs : regCause grp regs k d a b c = none) : withRegs grp regs ok k d a b c ctx s go = go := by
  simp only [withRegs, hok, hregs, Bool.not_true, Bool.false_eq_true, if_false]

section
variable {row : Row} {w : Nat} {f : RFields} {ok : Bool → Bool} {k : Bool → OpKs} {beats : Nat}
  {med : Medlar → State → Medlar × State} {grp : Arch → State → Arch × State} {s : State}

theorem alu_medlar_retires {c : Nat} (hi : MedlarIssues row c w s) (hr : MedlarRegs (ok false) (k false) f) :
    alu row (.medlar c) w f ok k beats med grp s =
      .next (medlarRetired c w (med (medlarOf s c) s).1 (med (medlarOf s c) s).2) := by
  obtain ⟨hok, hregs⟩ := hr
  rw [alu]
  exact issueMedlar_of_done hi (withRegs_of_legal _ _ _ hok hregs)

theorem alu_group_retires {g : Nat} {x : Group}
    (hi : GroupIssues row g w (usedRegs (k true) f.d f.a f.b f.c f.pe f.preg) x s) (hr : GroupRegs s g (ok true) (k true) f) :
    alu row (.group g) w f ok k beats med grp s =
      .next (groupRetired g w beats x (grp x.arch s).1 (grp x.arch s).2) := by
  obtain ⟨hok, hregs⟩ := hr
  rw [alu]
  exact issueGroup_of_done hi (withRegs_of_legal _ _ _ hok hregs)

end

theorem exec_int (who : Agent) (w : Nat) (s : State) : exec (.int who w) s = execInt who w s := rfl

theorem exec_int_medlar {c w : Nat} {s : State} (hi : MedlarIssues .int c w s)
    (hr : MedlarRegs (intFieldsOk (rFields w) false) (intKinds (rFields w) false) (rFields w)) :
    exec (.int (.medlar c) w) s = .next (medlarRetired c w
      (medlarMap2 (rFields w) (8 * 2 ^ (rFields w).aux) (intOp (rFields w).op (8 * 2 ^ (rFields w).aux)) (medlarOf s c)) s) := by
  rw [exec_int, execInt, alu_medlar_retires hi hr]

theorem exec_int_group {g w : Nat} {x : Group} {s : State}
    (hi : GroupIssues .int g w (usedRegs (intKinds (rFields w) true) (rFields w).d (rFields w).a (rFields w).b (rFields w).c
      (rFields w).pe (rFields w).preg) x s)
    (hr : GroupRegs s g (intFieldsOk (rFields w) true) (intKinds (rFields w) true) (rFields w)) :
    exec (.int (.group g) w) s = .next (groupRetired g w (if (rFields w).s then 0 else 1) x
      (groupMap2 (rFields w) (8 * 2 ^ (rFields w).aux) (intOp (rFields w).op (8 * 2 ^ (rFields w).aux)) x.arch) s) := by
  rw [exec_int, execInt, alu_group_retires hi hr]

/-! ### The scalar form of an integer operation, and what a retired instruction leaves -/

theorem medlarMap2_scalar {f : RFields} (hs : f.s = true) (w : Nat) (o : Nat → Nat → Nat) (m : Medlar) :
    medlarMap2 f w o m = setG f.d (toScalar w (o (gReg m f.a) (gReg m f.b))) m := if_pos hs

theorem groupMap2_scalar {f : RFields} (hs : f.s = true) (w : Nat) (o : Nat → Nat → Nat) (a : Arch) :
    groupMap2 f w o a = setS f.d (toScalar w (o (sReg a f.a) (sReg a f.b))) a := if_pos hs

theorem medlarOf_medlarRetired_self (c w : Nat) (m : Medlar) (s : State) :
    medlarOf (medlarRetired c w m s) c = { m with pc := m.pc + BitVec.ofNat 64 (wsize w) } :=
  medlarOf_setMedlar_self c _ s

theorem medlarOf_medlarRetired_of_ne {c d : Nat} (w : Nat) (m : Medlar) (s : State) (h : d ≠ c) :
    medlarOf (medlarRetired c w m s) d = medlarOf s d :=
  medlarOf_setMedlar_of_ne _ s h

theorem gReg_medlarRetired (c w r : Nat) (m : Medlar) (s : State) :
    gReg (medlarOf (medlarRetired c w m s) c) r = gReg m r := by
  rw [medlarOf_medlarRetired_self]
  rfl

theorem v_medlarRetired (c w : Nat) (m : Medlar) (s : State) : (medlarOf (medlarRetired c w m s) c).v = m.v := by
  rw [medlarOf_medlarRetired_self]

theorem fpflags_medlarRetired (c w : Nat) (m : Medlar) (s : State) :
    (medlarOf (medlarRetired c w m s) c).fpflags = m.fpflags := by
  rw [medlarOf_medlarRetired_self]

theorem pc_medlarRetired (c w : Nat) (m : Medlar) (s : State) :
    (medlarOf (medlarRetired c w m s) c).pc = m.pc + BitVec.ofNat 64 (wsize w) := by
  rw [medlarOf_medlarRetired_self]

theorem groupOf_groupRetired_self (g w beats : Nat) (x : Group) (a : Arch) (s : State) :
    groupOf (groupRetired g w beats x a s) g = some { x with arch := goNext w a } := by
  rw [groupRetired, groupOf_bump, groupOf_setGroup_self]

theorem groupRetired_mem (g w beats : Nat) (x : Group) (a : Arch) (s : State) :
    (groupRetired g w beats x a s).mem = s.mem := by
  rw [groupRetired, bump_mem, setGroup_mem]

/-- D of a core that has retired a scalar integer operation of at most 64 bits. -/
theorem gReg_scalarInt_retired {n : Nat} (hn : n ≤ 64) (c w r op x y : Nat) (m : Medlar) (s : State) :
    gReg (medlarOf (medlarRetired c w (setG r (toScalar n (intOp op n x y)) m) s) c) r = toScalar n (intOp op n x y) := by
  have hlt : intOp op n x y < 2 ^ 64 := Nat.lt_of_lt_of_le (intOp_lt op n x y) (Nat.pow_le_pow_right Nat.two_pos hn)
  rw [gReg_medlarRetired]
  exact gReg_setG_self r m (toScalar_lt hlt)

/-- Settles O18: the arithmetic of each operation, then exec of INT under S on a Medlar core and on a group. -/
theorem integerOperationsWrapAndNeverTrap : Obligations.IntegerOperationsWrapAndNeverTrap := by
  refine ⟨fun w x y hw => ?arithmetic, fun c w s hi hr hs => ?medlar, fun g w x s hi hr hs => ?group⟩
  case arithmetic =>
    have hpos : 0 < w := by omega
    have hdvd : w ∣ 2 ^ w := by rcases hw with rfl | rfl | rfl | rfl <;> decide
    exact ⟨intOp_add w x y, intOp_sub w x y, intOp_mul w x y, fun op => intOp_lt op w x y, intOp_div_by_zero x,
      intOp_div_overflow hpos, fun _ => intOp_shift_count x y hdvd⟩
  case medlar =>
    rw [exec_int_medlar hi hr, medlarMap2_scalar hs]
    refine ⟨_, rfl, fun h64 => ?_, fun h32 => ?_, fun r hne => ?_, v_medlarRetired .., fpflags_medlarRetired ..,
      pc_medlarRetired .., fun d hne => medlarOf_medlarRetired_of_ne w _ s hne, rfl⟩
    · rw [h64]
      exact gReg_scalarInt_retired (n := 64) (by decide) c w _ _ _ _ _ s
    · rw [h32]
      exact gReg_scalarInt_retired (n := 32) (by decide) c w _ _ _ _ _ s
    · rw [gReg_medlarRetired]
      exact gReg_setG_of_ne _ _ hne
  case group =>
    rw [exec_int_group hi hr, groupMap2_scalar hs]
    exact ⟨_, _, rfl, groupOf_groupRetired_self .., rfl, rfl, groupRetired_mem ..⟩

end Sys2Proof.Machine

/-! ### Offsets, regions and claims of the memory map (R232, R233) -/

namespace Sys2Proof.Machine

section
variable {s : State}

theorem globalBytes_eq_claims (s : State) : globalBytes s = 128 * (256 - localGib s) * 2 ^ 26 := by
  simp only [globalBytes, gib]
  omega

theorem globalBytes_div_claim (s : State) : globalBytes s / 2 ^ 26 = 128 * (256 - localGib s) := by
  rw [globalBytes_eq_claims, Nat.mul_div_cancel _ (Nat.two_pow_pos 26)]

theorem globalBytes_le (s : State) : globalBytes s ≤ 2 ^ 41 := by
  rw [globalBytes_eq_claims]
  omega

/-- A Local window of at most 240 GiB ends before the next one starts. -/
theorem lt_window_of_lt_local {b : Nat} (hL : localGib s ≤ 240) (hb : b < localGib s * gib) : b < 2 ^ 38 := by
  rw [gib] at hb
  omega

theorem div_claim_lt_of_lt_local {b : Nat} (hb : b < localGib s * gib) : b / 2 ^ 26 < localGib s * 16 := by
  rw [gib] at hb
  omega

theorem two_pow_le_localBase_add (n b : Nat) : 2 ^ 41 ≤ localBase n + b := by
  rw [localBase]
  omega

theorem localBase_window {b : Nat} (n : Nat) (hb : b < 2 ^ 38) : (localBase n + b - 2 ^ 41) / 2 ^ 38 = n := by
  rw [localBase]
  omega

theorem localBase_offset {b : Nat} (n : Nat) (hb : b < 2 ^ 38) : (localBase n + b - 2 ^ 41) % 2 ^ 38 = b := by
  rw [localBase]
  omega

/-- Every offset from 2^41 on is an offset within the window it lies in. -/
theorem eq_localBase_add {a : Nat} (ha : 2 ^ 41 ≤ a) :
    a = localBase ((a - 2 ^ 41) / 2 ^ 38) + (a - 2 ^ 41) % 2 ^ 38 := by
  rw [localBase]
  omega

/-! The region an offset lies in -/

theorem regionOf_global {a : Nat} (ha : a < globalBytes s) : regionOf s a = some 0 := if_pos ha

theorem regionOf_local {n b : Nat} (hL : localGib s ≤ 240) (hn : n < 8) (hb : b < localGib s * gib) :
    regionOf s (localBase n + b) = some (1 + n) := by
  have hwin : b < 2 ^ 38 := lt_window_of_lt_local hL hb
  have hlow : ¬ localBase n + b < globalBytes s :=
    Nat.not_lt.mpr (Nat.le_trans (globalBytes_le s) (two_pow_le_localBase_add n b))
  simp only [regionOf, hlow, two_pow_le_localBase_add, localBase_window n hwin, localBase_offset n hwin, hn,
    hb, and_self, if_true, if_false]

theorem global_or_local_of_regionOf {a : Nat} (h : regionOf s a ≠ none) :
    a < globalBytes s ∨ ∃ n b, n < 8 ∧ b < localGib s * gib ∧ a = localBase n + b := by
  by_cases hglobal : a < globalBytes s
  · exact .inl hglobal
  by_cases hlocal : 2 ^ 41 ≤ a
  · by_cases hin : (a - 2 ^ 41) / 2 ^ 38 < 8 ∧ (a - 2 ^ 41) % 2 ^ 38 < localGib s * gib
    · exact .inr ⟨_, _, hin.1, hin.2, eq_localBase_add hlocal⟩
    · exact absurd (by simp only [regionOf, hglobal, hlocal, hin, if_true, if_false]) h
  · exact absurd (by simp only [regionOf, hglobal, hlocal, if_false]) h

/-! The claim an offset lies in -/

theorem claimOf_global {a : Nat} (ha : a < globalBytes s) : claimOf s a = a / 2 ^ 26 :=
  if_pos (Nat.lt_of_lt_of_le ha (globalBytes_le s))

theorem claimOf_global_lt {a : Nat} (ha : a < globalBytes s) : claimOf s a < 128 * (256 - localGib s) := by
  rw [claimOf_global ha]
  rw [globalBytes_eq_claims] at ha
  exact Nat.div_lt_of_lt_mul (Nat.mul_comm .. ▸ ha)

theorem claimOf_local {n b : Nat} (hL : localGib s ≤ 240) (hb : b < localGib s * gib) :
    claimOf s (localBase n + b) = 128 * (256 - localGib s) + n * (localGib s * 16) + b / 2 ^ 26 := by
  have hwin : b < 2 ^ 38 := lt_window_of_lt_local hL hb
  have hlow : ¬ localBase n + b < 2 ^ 41 := Nat.not_lt.mpr (two_pow_le_localBase_add n b)
  simp only [claimOf, hlow, if_false, localBase_window n hwin, localBase_offset n hwin, globalBytes_div_claim, Nat.mul_assoc]

theorem claimOf_local_lt {n b : Nat} (hL : localGib s ≤ 240) (hb : b < localGib s * gib) :
    claimOf s (localBase n + b) < 128 * (256 - localGib s) + (n + 1) * (localGib s * 16) := by
  have hj : b / 2 ^ 26 < localGib s * 16 := div_claim_lt_of_lt_local hb
  rw [claimOf_local hL hb, Nat.add_one_mul n]
  omega

theorem claimOf_lt_of_regionOf {a : Nat} (hL : localGib s ≤ 240) (h : regionOf s a ≠ none) : claimOf s a < 32768 := by
  rcases global_or_local_of_regionOf h with ha | ⟨n, b, hn, hb, rfl⟩
  · have hlt : claimOf s a < 128 * (256 - localGib s) := claimOf_global_lt ha
    omega
  · have hlt := claimOf_local_lt (n := n) hL hb
    have hle : (n + 1) * (localGib s * 16) ≤ 8 * (localGib s * 16) := Nat.mul_le_mul_right _ hn
    omega

/-! The first offset of a claim, and the offsets of a claim -/

theorem claimBase_global {k : Nat} (hk : k < 128 * (256 - localGib s)) : claimBase s k = k * 2 ^ 26 := by
  simp only [claimBase, globalBytes_div_claim, hk, if_true]

theorem claimBase_local {n j : Nat} (hj : j < localGib s * 16) :
    claimBase s (128 * (256 - localGib s) + n * (localGib s * 16) + j) = localBase n + j * 2 ^ 26 := by
  have hpos : 0 < localGib s * 16 := Nat.zero_lt_of_lt hj
  have hnot : ¬ 128 * (256 - localGib s) + (n * (localGib s * 16) + j) < 128 * (256 - localGib s) := by omega
  have hdiv : (n * (localGib s * 16) + j) / (localGib s * 16) = n := by
    rw [Nat.mul_comm, Nat.mul_add_div hpos, Nat.div_eq_of_lt hj, Nat.add_zero]
  have hmod : (n * (localGib s * 16) + j) % (localGib s * 16) = j := by
    rw [Nat.mul_add_mod', Nat.mod_eq_of_lt hj]
  simp only [claimBase, globalBytes_div_claim, Nat.add_assoc, hnot, if_false, Nat.add_sub_cancel_left, hdiv, hmod]

/-- A claim's number is one of Global memory, or the j-th of the Local window of a die n. -/
theorem claim_global_or_local {k : Nat} (hL : localGib s ≤ 240) (hk : k < 32768) :
    k < 128 * (256 - localGib s) ∨
    ∃ n j, n < 8 ∧ j < localGib s * 16 ∧ k = 128 * (256 - localGib s) + n * (localGib s * 16) + j := by
  by_cases hglobal : k < 128 * (256 - localGib s)
  · exact .inl hglobal
  obtain ⟨m, rfl⟩ := Nat.exists_eq_add_of_le (Nat.le_of_not_lt hglobal)
  have hm : m < localGib s * 16 * 8 := by omega
  have hpos : 0 < localGib s * 16 := by omega
  refine .inr ⟨m / (localGib s * 16), m % (localGib s * 16), Nat.div_lt_of_lt_mul hm, Nat.mod_lt _ hpos, ?_⟩
  rw [Nat.add_assoc, Nat.div_add_mod']

/-- The 64 MiB from a claim's first offset on lie in one region, and have the claim's number. -/
theorem claim_in_one_region {k : Nat} (hL : localGib s ≤ 240) (hk : k < 32768) :
    ∃ r, ∀ i, i < 2 ^ 26 → regionOf s (claimBase s k + i) = some r ∧ claimOf s (claimBase s k + i) = k := by
  rcases claim_global_or_local hL hk with hglobal | ⟨n, j, hn, hj, rfl⟩
  · refine ⟨0, fun i hi => ?_⟩
    have hin : k * 2 ^ 26 + i < globalBytes s := by
      rw [globalBytes_eq_claims]
      omega
    rw [claimBase_global hglobal]
    refine ⟨regionOf_global hin, ?_⟩
    rw [claimOf_global hin]
    omega
  · refine ⟨1 + n, fun i hi => ?_⟩
    have hin : j * 2 ^ 26 + i < localGib s * gib := by
      rw [gib]
      omega
    have hdiv : (j * 2 ^ 26 + i) / 2 ^ 26 = j := by omega
    rw [claimBase_local hj, Nat.add_assoc (localBase n)]
    exact ⟨regionOf_local hL hn hin, by rw [claimOf_local hL hin, hdiv]⟩

/-- An offset that holds memory lies in its claim: less than 64 MiB after the claim's first offset. -/
theorem eq_claimBase_add {a : Nat} (hL : localGib s ≤ 240) (h : regionOf s a ≠ none) :
    ∃ i, i < 2 ^ 26 ∧ a = claimBase s (claimOf s a) + i := by
  rcases global_or_local_of_regionOf h with ha | ⟨n, b, hn, hb, rfl⟩
  · refine ⟨a % 2 ^ 26, Nat.mod_lt _ (Nat.two_pow_pos 26), ?_⟩
    rw [claimBase_global (claimOf_global_lt ha), claimOf_global ha, Nat.div_add_mod']
  · refine ⟨b % 2 ^ 26, Nat.mod_lt _ (Nat.two_pow_pos 26), ?_⟩
    rw [claimOf_local hL hb, claimBase_local (div_claim_lt_of_lt_local hb), Nat.add_assoc, Nat.div_add_mod']

/-- The claim's number decides the region. -/
theorem regionOf_eq_of_claimOf_eq {a b : Nat} (hL : localGib s ≤ 240) (ha : regionOf s a ≠ none) (hb : regionOf s b ≠ none)
    (hab : claimOf s a = claimOf s b) : regionOf s a = regionOf s b := by
  obtain ⟨r, hr⟩ := claim_in_one_region hL (claimOf_lt_of_regionOf hL ha)
  obtain ⟨i, hi, hai⟩ := eq_claimBase_add hL ha
  obtain ⟨j, hj, hbj⟩ := eq_claimBase_add hL hb
  rw [← hab] at hbj
  rw [hai, hbj, (hr i hi).1, (hr j hj).1]

end

/-- Settles O43: Global memory and the Local windows are whole numbers of claims, so claimBase inverts claimOf. -/
theorem claimsAreNumberedByTheirMemory : Obligations.ClaimsAreNumberedByTheirMemory := by
  intro s hL _
  refine ⟨fun a ha => ?inGlobal, fun n b _ hb => ?inWindow, fun a => claimOf_lt_of_regionOf hL, fun k hk => ?inverse,
    fun a b => regionOf_eq_of_claimOf_eq hL⟩
  case inGlobal => exact ⟨claimOf_global ha, Nat.le_sub_one_of_lt (claimOf_global_lt ha)⟩
  case inWindow =>
    refine ⟨?_, ?_, claimOf_local_lt hL hb⟩
    · rw [claimOf_local hL hb, globalBytes_div_claim, Nat.mul_assoc]
    · rw [claimOf_local hL hb]
      exact Nat.le_add_right ..
  case inverse =>
    obtain ⟨r, hr⟩ := claim_in_one_region hL hk
    obtain ⟨hregion, hclaim⟩ := hr 0 (Nat.two_pow_pos 26)
    rw [Nat.add_zero] at hregion hclaim
    refine ⟨hregion ▸ Option.some_ne_none r, hclaim, fun i hi => ?_⟩
    rw [hregion]
    exact hr i hi

end Sys2Proof.Machine

/-! ### The command queues stand still while memory is written -/

namespace Sys2Proof.Machine

theorem foldl_queues {α : Type} {f : State → α → State} (h : ∀ t x, (f t x).queues = t.queues) (l : List α) (s : State) :
    (l.foldl f s).queues = s.queues :=
  foldl_frame State.queues f h l s

theorem ite_queues (c : Prop) [Decidable c] (s t : State) : (if c then s else t).queues = if c then s.queues else t.queues :=
  apply_ite State.queues c s t

/-! Stacked memory and its controllers -/

@[simp] theorem foundUncorrectable_queues (line : Nat) (s : State) : (foundUncorrectable line s).queues = s.queues := by
  simp only [foundUncorrectable, raise_queues, sumErr_queues, setDv_queues, bump_queues]

@[simp] theorem foundCorrected_queues (line : Nat) (s : State) : (foundCorrected line s).queues = s.queues := by
  simp only [foundCorrected, sumErr_queues, bump_queues]

@[simp] theorem decodeHalf_queues (line h : Nat) (f : Fetched128) (s : State) : (decodeHalf line h f s).2.queues = s.queues := by
  unfold decodeHalf
  split <;> simp

@[simp] theorem schedPush_queues (r : HbmReq) (s : State) : (schedPush r s).queues = s.queues := by
  simp only [schedPush, setSched_queues, ite_queues, bump_queues, ite_self]

@[simp] theorem schedWrite_queues (line : Nat) (d : Line) (m : BitVec 128) (p : Bool) (s : State) :
    (schedWrite line d m p s).queues = s.queues :=
  schedPush_queues _ s

@[simp] theorem wcbDepart_queues (c : Nat) (e : WcbEntry) (s : State) : (wcbDepart c e s).queues = s.queues := by
  simp only [wcbDepart, schedWrite_queues, setCtl_queues]

@[simp] theorem wcbMerge_queues (line : Nat) (d : Line) (m : BitVec 128) (p : Bool) (s : State) :
    (wcbMerge line d m p s).queues = s.queues := by
  simp only [wcbMerge]
  split
  · simp only [ite_queues, wcbDepart_queues, setCtl_queues, ite_self]
  · rw [setCtl_queues]
    split
    · simp only [ite_queues, wcbDepart_queues, ite_self]
    · rfl

@[simp] theorem writeBackFull_queues (line : Nat) (d : Line) (p : Bool) (s : State) :
    (writeBackFull line d p s).queues = s.queues := by
  simp only [writeBackFull, schedWrite_queues, setCtl_queues]

@[simp] theorem hbmHalf_queues (line h : Nat) (s : State) : (hbmHalf line h s).2.queues = s.queues := by
  simp only [hbmHalf]
  split
  · rfl
  · split
    · rfl
    · exact decodeHalf_queues ..

/-! The Bench, its Spoil buffers and the zero map -/

@[simp] theorem benchDrop_queues (line : Nat) (s : State) : (benchDrop line s).queues = s.queues := rfl

@[simp] theorem pickVictim_queues (line : Nat) (s : State) : (pickVictim line s).2.queues = s.queues := by
  simp only [pickVictim]
  split <;> rfl

@[simp] theorem recallLine_queues (line : Nat) (s : State) : (recallLine line s).queues = s.queues := by
  simp only [recallLine]
  split
  · exact touchLine_queues line s
  · split
    · rfl
    · rw [bump_queues, benchPut_queues]
      split
      · split <;> simp
      · exact setSpoil_queues ..

@[simp] theorem fillHalf_queues (line h : Nat) (tracked : Bool) (s : State) : (fillHalf line h tracked s).2.queues = s.queues := by
  simp only [fillHalf, benchPut_queues, hbmHalf_queues]

@[simp] theorem wholePlain_queues (line : Nat) (s : State) : (wholePlain line s).2.queues = s.queues := by
  simp only [wholePlain]
  split <;> simp

@[simp] theorem zmapGet_queues (line : Nat) (s : State) : (zmapGet line s).2.queues = s.queues := by
  simp only [zmapGet]
  split <;> exact wholePlain_queues ..

@[simp] theorem zmapSet_queues (line : Nat) (v : Bool) (s : State) : (zmapSet line v s).queues = s.queues := by
  simp only [zmapSet, ite_queues, benchPut_queues, wholePlain_queues, ite_self]

@[simp] theorem spoilDepart_queues (line : Nat) (b : BLine) (s : State) : (spoilDepart line b s).queues = s.queues := by
  simp only [spoilDepart, ite_queues, bump_queues, zmapSet_queues, zmapGet_queues, writeBackFull_queues, wcbMerge_queues, ite_self]

@[simp] theorem evictLine_queues (line : Nat) (s : State) : (evictLine line s).queues = s.queues := by
  simp only [evictLine]
  split
  · rfl
  · split
    · simp only [ite_queues, spoilDepart_queues, setSpoil_queues, benchDrop_queues, ite_self]
    · simp only [setSpoil_queues, benchDrop_queues]

@[simp] theorem makeRoom_queues (line n : Nat) (s : State) : (makeRoom line n s).queues = s.queues := by
  induction n generalizing s with
  | zero => rfl
  | succ n ih =>
    simp only [makeRoom]
    split
    · split
      · rw [ih, evictLine_queues, pickVictim_queues]
      · exact pickVictim_queues line s
    · rfl

@[simp] theorem allocPut_queues (line : Nat) (b : BLine) (s : State) : (allocPut line b s).queues = s.queues := by
  simp only [allocPut, benchPut_queues, makeRoom_queues]

@[simp] theorem zeroFill_queues (line : Nat) (s : State) : (zeroFill line s).2.queues = s.queues := by
  simp only [zeroFill]
  split <;> simp

@[simp] theorem noteWrite_queues (line : Nat) (s : State) : (noteWrite line s).queues = s.queues := by
  simp only [noteWrite, ite_queues, ite_self]

@[simp] theorem storeData_queues (line : Nat) (tracked : Bool) (d : Line) (m : BitVec 128) (p : Bool) (s : State) :
    (storeData line tracked d m p s).queues = s.queues := by
  simp only [storeData]
  split
  · split
    · split <;> split <;> simp
    · simp only [allocPut_queues, ite_queues, zmapSet_queues, zmapGet_queues, recallLine_queues, ite_self]
  · simp only [allocPut_queues, recallLine_queues]

@[simp] theorem storeLine_queues (line : Nat) (tracked : Bool) (d : Line) (m : BitVec 128) (p : Bool) (s : State) :
    (storeLine line tracked d m p s).queues = s.queues := by
  simp only [storeLine, noteWrite_queues, storeData_queues]

@[simp] theorem benchWrite_queues (line : Nat) (tracked : Bool) (d : Line) (s : State) :
    (benchWrite line tracked d s).queues = s.queues := by
  simp only [benchWrite, noteWrite_queues, benchPut_queues]

/-! Translation, and transactions over the links -/

@[simp] theorem countSegFault_queues (s : State) : (countSegFault s).queues = s.queues := by
  simp only [countSegFault, sumErr_queues, bump_queues]

@[simp] theorem countStale_queues (s : State) : (countStale s).queues = s.queues := bump_queues _ _ s

@[simp] theorem landing_queues (s : State) (c va : Nat) (n : Need) : (landing s c va n).2.queues = s.queues := by
  unfold landing
  split
  · rfl
  · split
    · rfl
    · split
      · exact countStale_queues s
      · split <;> simp

@[simp] theorem countDenied_queues (ctx domain off : Nat) (s : State) : (countDenied ctx domain off s).queues = s.queues := by
  rw [countDenied, setDv_queues, sumErr_queues, bump_queues]

@[simp] theorem sendFlits_queues (lp vc n : Nat) (s : State) : (sendFlits lp vc n s).queues = s.queues := by
  simp only [sendFlits, ite_queues, setLayer_queues, ite_self]

@[simp] theorem leaveTxn_queues (id : Nat) (x : Txn) (s : State) : (leaveTxn id x s).queues = s.queues := by
  simp only [leaveTxn]
  split <;> simp

@[simp] theorem pumpConn_queues (conn n : Nat) (s : State) : (pumpConn conn n s).queues = s.queues := by
  induction n generalizing s with
  | zero => rfl
  | succ n ih =>
    unfold pumpConn
    split
    · rfl
    · simp only [ite_queues, ih, leaveTxn_queues, ite_self]

@[simp] theorem openTxnWith_queues (p : Bool) (reduce : Option (Nat × Nat)) (xl : Xl) (len : Nat) (read : Bool)
    (bytes : List Byte) (owner : TOwner) (s : State) : (openTxnWith p reduce xl len read bytes owner s).2.queues = s.queues := by
  simp only [openTxnWith, pumpConn_queues, setConn_queues, ite_queues, bump_queues, ite_self]

@[simp] theorem openTxn_queues (xl : Xl) (len : Nat) (read : Bool) (bytes : List Byte) (owner : TOwner) (s : State) :
    (openTxn xl len read bytes owner s).2.queues = s.queues :=
  openTxnWith_queues ..

@[simp] theorem dropAnswers_queues (p : TOwner → Bool) (s : State) : (dropAnswers p s).queues = s.queues := rfl

@[simp] theorem issueReq_queues (r : Req) (s : State) : (issueReq r s).queues = s.queues := by
  simp only [issueReq]
  split
  · rfl
  · exact countDenied_queues r.xl.ctx r.xl.domain 0 s
  all_goals
    split
    · rfl
    · split
      · exact countStale_queues s
      · split
        · rfl
        · exact openTxn_queues ..

/-! Medlar cores: combining buffers, traps, pending loads and the lines they hold -/

@[simp] theorem sendComb_queues (c : Nat) (e : CombEntry) (s : State) : (sendComb c e s).queues = s.queues :=
  foldl_queues (fun t _ => issueReq_queues _ t) _ s

@[simp] theorem drainComb_queues (c : Nat) (s : State) : (drainComb c s).queues = s.queues :=
  foldl_queues (fun t e => sendComb_queues c e t) _ _

@[simp] theorem medlarTrap_queues (c : Nat) (cause : Cause) (addr : Nat) (tpc : BitVec 64) (imprecise : Bool) (s : State) :
    (medlarTrap c cause addr tpc imprecise s).queues = s.queues := by
  simp only [medlarTrap, setMedlar_queues, bump_queues, drainComb_queues]

@[simp] theorem takeHeld_queues (c : Nat) (s : State) : (takeHeld c s).queues = s.queues := by
  simp only [takeHeld]
  split
  · rfl
  · simp only [ite_queues, medlarTrap_queues, setMedlar_queues, ite_self]

@[simp] theorem retireLoads_queues (c n : Nat) (s : State) : (retireLoads c n s).queues = s.queues := by
  induction n generalizing s with
  | zero => exact takeHeld_queues c s
  | succ n ih =>
    simp only [retireLoads]
    split
    · exact takeHeld_queues c s
    · split
      · rfl
      · split
        · exact medlarTrap_queues ..
        · simp only [ite_queues, medlarTrap_queues, ih, setMedlar_queues, ite_self]

@[simp] theorem onLoad_queues (c id : Nat) (f : PendLoad → PendLoad) (s : State) : (onLoad c id f s).queues = s.queues := by
  simp only [onLoad, retireLoads_queues, setMedlar_queues]

@[simp] theorem medlarPart_queues (c id shift val : Nat) (p : Bool) (s : State) :
    (medlarPart c id shift val p s).queues = s.queues :=
  onLoad_queues ..

@[simp] theorem askLine_queues (c line : Nat) (k : CohKind) (x : Xl) (va : Nat) (demand : Bool) (s : State) :
    (askLine c line k x va demand s).queues = s.queues := by
  simp only [askLine, ite_queues, setMsgs_queues, ite_self]

@[simp] theorem noteSeg_queues (c : Nat) (x : Xl) (s : State) : (noteSeg c x s).queues = s.queues := by
  simp only [noteSeg, ite_queues, setMedlar_queues, ite_self]

@[simp] theorem startPart_queues (c : Nat) (w : WaitLoad) (s : State) : (startPart c w s).queues = s.queues := by
  simp only [startPart]
  split
  · split <;> simp
  · exact issueReq_queues _ s

@[simp] theorem replayLoads_queues (c line : Nat) (s : State) : (replayLoads c line s).queues = s.queues := by
  refine foldl_queues (fun t l => ?_) _ s
  rw [foldl_queues fun v p => startPart_queues c p v, setMedlar_queues, bump_queues]

@[simp] theorem serveWaiting_queues (c line : Nat) (d : Line) (p : Bool) (s : State) :
    (serveWaiting c line d p s).queues = s.queues :=
  foldl_queues (fun t _ => medlarPart_queues c _ _ _ p t) _ _

@[simp] theorem writeHead_queues (c line : Nat) (s : State) : (writeHead c line s).queues = s.queues := by
  simp only [writeHead]
  split
  · simp only [ite_queues, setMedlar_queues, ite_self]
  · rfl

@[simp] theorem arrive_queues (c line : Nat) (st : CState) (d : Line) (p : Bool) (s : State) :
    (arrive c line st d p s).queues = s.queues := by
  simp only [arrive]
  split <;> simp

@[simp] theorem answerSnoop_queues (c line : Nat) (k : SnoopKind) (s : State) : (answerSnoop c line k s).2.queues = s.queues := by
  simp only [answerSnoop]
  split
  · rfl
  · split <;> simp

/-! The homes: directory, misses, requests and transactions of the protocol -/

@[simp] theorem dropHolder_queues (line c : Nat) (s : State) : (dropHolder line c s).queues = s.queues := setDir_queues ..

@[simp] theorem takeData_queues (line : Nat) (d : Option (Line × Bool)) (dirty : Bool) (s : State) :
    (takeData line d dirty s).queues = s.queues := by
  simp only [takeData]
  split
  · rfl
  · simp only [ite_queues, noteWrite_queues, allocPut_queues, recallLine_queues, ite_self]

@[simp] theorem dirAfter_queues (line c : Nat) (k : SnoopKind) (s : State) : (dirAfter line c k s).queues = s.queues := by
  simp only [dirAfter]
  split <;> simp

@[simp] theorem countSnoop_queues (line : Nat) (s : State) : (countSnoop line s).queues = s.queues := bump_queues _ _ s

@[simp] theorem countDeferral_queues (c : Nat) (s : State) : (countDeferral c s).queues = s.queues := bump_queues _ _ s

@[simp] theorem homeHears_queues (c line : Nat) (k : SnoopKind) (d : Option (Line × Bool)) (dirty : Bool) (s : State) :
    (homeHears c line k d dirty s).queues = s.queues := by
  simp only [homeHears, dirAfter_queues, takeData_queues]

@[simp] theorem heldForTag_queues (line : Nat) (req : Option Nat) (s : State) : (heldForTag line req s).queues = s.queues := by
  simp only [heldForTag, ite_queues, bump_queues, ite_self]

@[simp] theorem missLine_queues (line : Nat) (a : Asker) (s : State) : (missLine line a s).2.queues = s.queues := by
  simp only [missLine]
  split
  · exact setTag_queues ..
  · split
    · exact heldForTag_queues ..
    · split
      · split <;> simp
      · simp

@[simp] theorem performReq_queues (id line : Nat) (r : Req) (s : State) : (performReq id line r s).queues = s.queues := by
  have hfound : (recallLine line (if r.missed then s else bump (K.benchHits + homeDie s line) 1 s)).queues = s.queues := by
    simp only [recallLine_queues, ite_queues, bump_queues, ite_self]
  simp only [performReq]
  split
  · rw [setReq_queues, hfound]
  · rw [setReq_queues, hfound]
  · rw [setReq_queues, storeLine_queues, hfound]
  · simp only [ite_queues, setReq_queues, benchWrite_queues, hfound, ite_self]
  · simp only [ite_queues, setReq_queues, benchWrite_queues, sumErr_queues, bump_queues, hfound, ite_self]

@[simp] theorem serveReq_queues (id : Nat) (s : State) : (serveReq id s).queues = s.queues := by
  simp only [serveReq]
  split
  · rfl
  · split
    · rfl
    · split
      · exact performReq_queues ..
      · split <;> simp

@[simp] theorem startSnoops_queues (line : Nat) (serves : CohFor) (k : SnoopKind) (cores : List Nat) (s : State) :
    (startSnoops line serves k cores s).queues = s.queues := by
  refine foldl_queues (fun u c => ?_) cores _
  rw [countSnoop_queues, setMsgs_queues]

@[simp] theorem markGranted_queues (c line : Nat) (k : CohKind) (s : State) : (markGranted c line k s).queues = s.queues :=
  setMsgs_queues _ s

@[simp] theorem demoteSpeaker_queues (c line : Nat) (s : State) : (demoteSpeaker c line s).queues = s.queues := by
  simp only [demoteSpeaker]
  split
  · rfl
  · split
    · rfl
    · rw [setMsgs_queues]
      split
      · simp only [ite_queues, setMedlar_queues, ite_self]
      · rfl

@[simp] theorem grantLine_queues (c line : Nat) (k : CohKind) (st : CState) (tracked : Bool) (s : State) :
    (grantLine c line k st tracked s).queues = s.queues := by
  simp only [grantLine, setDir_queues, setMsgs_queues, ite_queues, demoteSpeaker_queues, ite_self]

@[simp] theorem homeServe_queues (c line : Nat) (k : CohKind) (x : Xl) (demand again : Bool) (s : State) :
    (homeServe c line k x demand again s).queues = s.queues := by
  unfold homeServe
  extract_lets e others g own
  have hg : g.queues = s.queues := markGranted_queues c line k s
  have hown (st : CState) : (own st g).queues = s.queues := by
    simp only [own]
    split
    · simp only [grantLine_queues, recallLine_queues, ite_queues, bump_queues, hg, ite_self]
    · split <;> simp only [grantLine_queues, missLine_queues, hg]
  split
  case h_1 =>
    split
    · rw [startSnoops_queues, hg]
    · split
      · exact hown _
      · split
        · simp only [ite_queues, startSnoops_queues, hg, hown, ite_self]
        · exact hown _
  case h_2 => simp only [ite_queues, startSnoops_queues, hg, hown, ite_self]
  case h_3 => simp only [ite_queues, startSnoops_queues, grantLine_queues, hg, hown, ite_self]

@[simp] theorem finishTxn_queues (line : Nat) (t : CohTxn) (s : State) : (finishTxn line t s).queues = s.queues := by
  simp only [finishTxn]
  split
  · split <;> simp
  · simp only [serveReq_queues, dropCohTxn_queues]
  · exact dropCohTxn_queues line s
  · exact dropCohTxn_queues line s

@[simp] theorem hearResp_queues (c line : Nat) (k : SnoopKind) (d : Option (Line × Bool)) (dirty : Bool) (s : State) :
    (hearResp c line k d dirty s).queues = s.queues := by
  simp only [hearResp]
  split
  · exact homeHears_queues ..
  · simp only [ite_queues, finishTxn_queues, setTxn_queues, homeHears_queues, ite_self]

@[simp] theorem evictNow_queues (c line : Nat) (s : State) : (evictNow c line s).queues = s.queues := by
  simp only [evictNow]
  split
  · rfl
  · simp only [dropHolder_queues, ite_queues, takeData_queues, replayLoads_queues, setMedlar_queues, ite_self]

@[simp] theorem makeL2Room_queues (c line : Nat) (s : State) : (makeL2Room c line s).queues = s.queues := by
  simp only [makeL2Room]
  split
  · rfl
  · split <;> simp

@[simp] theorem settle_queues (line n : Nat) (s : State) : (settle line n s).queues = s.queues := by
  induction n generalizing s with
  | zero => rfl
  | succ n ih =>
    simp only [settle]
    split
    · rfl
    · rw [ih]
      split
      · simp only [arrive_queues, makeL2Room_queues, setMsgs_queues]
      · simp only [setMsgs_queues, answerSnoop_queues, ite_queues, atLeast_queues, countDeferral_queues, ite_self]
      · simp only [hearResp_queues, setMsgs_queues]
      · exact setMsgs_queues _ s

@[simp] theorem snoopNow_queues (line : Nat) (k : SnoopKind) (c : Nat) (s : State) : (snoopNow line k c s).queues = s.queues := by
  simp only [snoopNow, homeHears_queues, answerSnoop_queues, ite_queues, atLeast_queues, countDeferral_queues, countSnoop_queues,
    ite_self]

@[simp] theorem beforeWrite_queues (line : Nat) (s : State) : (beforeWrite line s).queues = s.queues := by
  simp only [beforeWrite]
  rw [foldl_queues fun u c => snoopNow_queues line .inval c u, settle_queues]

/-! Writes of firmware structures, and of a unit's step -/

@[simp] theorem fwWriteLine_queues (off n val : Nat) (s : State) : (fwWriteLine off n val s).queues = s.queues := by
  simp only [fwWriteLine, storeLine_queues, beforeWrite_queues]

@[simp] theorem fwWrite_queues (fuel off n val : Nat) (s : State) : (fwWrite fuel off n val s).queues = s.queues := by
  induction fuel generalizing off n val s with
  | zero => rfl
  | succ fuel ih => simp only [fwWrite, ite_queues, ih, fwWriteLine_queues, ite_self]

@[simp] theorem uFault_queues (f : FaultInfo) (u : UStep) : (uFault f u).st.queues = u.st.queues := by
  simp only [uFault, ite_queues, countSegFault_queues, ite_self]

@[simp] theorem uDenied_queues (x : Xl) (va off : Nat) (write : Bool) (u : UStep) :
    (uDenied x va off write u).st.queues = u.st.queues := by
  simp only [uDenied, uFault_queues, UStep.on, countDenied_queues]

@[simp] theorem UStep.waiting_queues (w : Option Want) (u : UStep) : (u.waiting w).st.queues = u.st.queues := rfl

@[simp] theorem UStep.met_queues (o : Status) (u : UStep) : (u.met o).st.queues = u.st.queues := by
  simp only [UStep.met]
  split <;> rfl

theorem foldl_step_queues {α : Type} {f : UStep → α → UStep} (h : ∀ u x, (f u x).st.queues = u.st.queues) (l : List α)
    (u : UStep) : (l.foldl f u).st.queues = u.st.queues := by
  induction l generalizing u with
  | nil => rfl
  | cons x l ih => exact (ih (f u x)).trans (h u x)

theorem atHome_ready_queues {line : Nat} {m : BitVec 128} {writes : Bool} {x : Xl} {o : TOwner} {s t : State}
    (h : atHome line m writes x o s = .ready t) : t.queues = s.queues := by
  simp only [atHome] at h
  split at h
  · cases h
  split at h
  · cases h
  split at h
  · cases h
  split at h
  · cases h
    simp
  split at h
  · split at h
    · cases h
      simp
    · cases h
  · cases h

@[simp] theorem homeStore_queues (x : Xl) (off : Nat) (d : Line) (m : BitVec 128) (p : Bool) (u : UStep) :
    (homeStore x off d m p u).st.queues = u.st.queues := by
  simp only [homeStore]
  split
  · exact UStep.waiting_queues ..
  · next h => rw [storeLine_queues, atHome_ready_queues h]

@[simp] theorem uPlace_queues (va : Nat) (need : Need) (u : UStep) : (uPlace va need u).2.st.queues = u.st.queues := by
  simp only [uPlace]
  split
  · rfl
  · split <;> simp

@[simp] theorem uStoreLine_queues (va : Nat) (d : Line) (m : BitVec 128) (p : Bool) (u : UStep) :
    (uStoreLine va d m p u).st.queues = u.st.queues := by
  unfold uStoreLine
  split
  · rfl
  · have hplace : (uPlace va needW u).2.st.queues = u.st.queues := uPlace_queues va needW u
    split
    · next h => rw [h] at hplace; exact hplace
    · next h =>
      rw [h] at hplace
      rw [← hplace]
      split
      · split
        · simp
        · split <;> simp
      · simp
      · split
        · simp
        · exact foldl_step_queues (fun v r => openTxnWith_queues ..) _ _

@[simp] theorem uWrite_queues (fuel va n val : Nat) (u : UStep) : (uWrite fuel va n val u).st.queues = u.st.queues := by
  induction fuel generalizing va n val u with
  | zero => rfl
  | succ fuel ih =>
    simp only [uWrite]
    split
    · rfl
    · rw [ih, uStoreLine_queues]

@[simp] theorem uPut_queues (va n val : Nat) (u : UStep) : (uPut va n val u).st.queues = u.st.queues := uWrite_queues ..

end Sys2Proof.Machine


/-! ### What an aborted command leaves of the command queues: each stays in its state (R297, R319) -/

namespace Sys2Proof.Machine

theorem queueOf_congr {s t : State} (h : t.queues = s.queues) (q : Nat) : queueOf t q = queueOf s q := by
  rw [queueOf, queueOf, h]

@[simp] theorem queueOf_setQueue_self (q : Nat) (x : Queue) (s : State) : queueOf (setQueue q x s) q = x :=
  Tab.get_put_self s.queues Queue.closed q x

theorem queueOf_setQueue_of_ne {q p : Nat} (x : Queue) (s : State) (h : p ≠ q) : queueOf (setQueue q x s) p = queueOf s p :=
  Tab.get_put_of_ne s.queues Queue.closed x h

@[simp] theorem queueOf_acceptWrite (s : State) (q : Nat) : queueOf (acceptWrite s) q = queueOf s q :=
  queueOf_congr (acceptWrite_queues s) q

/-- From s to t no queue changes its state of R297. -/
structure QueueStatesKept (s t : State) : Prop where
  st_eq : ∀ q, (queueOf t q).st = (queueOf s q).st

theorem QueueStatesKept.refl (s : State) : QueueStatesKept s s := ⟨fun _ => rfl⟩

theorem QueueStatesKept.trans {s t u : State} (h : QueueStatesKept s t) (k : QueueStatesKept t u) : QueueStatesKept s u :=
  ⟨fun q => (k.st_eq q).trans (h.st_eq q)⟩

theorem QueueStatesKept.of_queues {s t : State} (h : t.queues = s.queues) : QueueStatesKept s t :=
  ⟨fun q => congrArg Queue.st (queueOf_congr h q)⟩

theorem setQueue_keepsStates {q : Nat} {x : Queue} {s t : State} (ht : t.queues = s.queues) (h : x.st = (queueOf s q).st) :
    QueueStatesKept s (setQueue q x t) := by
  refine ⟨fun p => ?_⟩
  by_cases hp : p = q
  · rw [hp, queueOf_setQueue_self, h]
  · rw [queueOf_setQueue_of_ne x t hp, queueOf_congr ht]

theorem foldl_keepsStates {α : Type} {f : State → α → State} (h : ∀ t x, QueueStatesKept t (f t x)) (l : List α) (s : State) :
    QueueStatesKept s (l.foldl f s) :=
  foldl_keeps (QueueStatesKept s) f (fun t x ht => ht.trans (h t x)) l s (.refl s)

/-! Jobs: their fields, their outcomes and their completion -/

@[simp] theorem onJob_queues (key : Nat) (f : Job → Job) (s : State) : (onJob key f s).queues = s.queues := by
  unfold onJob
  split <;> rfl

@[simp] theorem setDetail_queues (key d : Nat) (s : State) : (setDetail key d s).queues = s.queues := onJob_queues ..

@[simp] theorem addOut_queues (key : Nat) (o : Status) (s : State) : (addOut key o s).queues = s.queues := by
  unfold addOut
  split
  · split <;> rfl
  · rfl

@[simp] theorem countCompleted_queues (gen op : Nat) (s : State) : (countCompleted gen op s).queues = s.queues := by
  simp only [countCompleted, bump_queues]

@[simp] theorem signalEvent_queues (key : Nat) (j : Job) (st : Status) (s : State) :
    (signalEvent key j st s).queues = s.queues := by
  simp only [signalEvent, ite_queues, raise_queues, ite_self]

theorem addRecord_keepsStates (q : Nat) (r : CplRec) (s : State) : QueueStatesKept s (addRecord q r s) := by
  have hstall : (if cplFull (queueOf s q) then bump K.cplRingStalls 1 s else s).queues = s.queues := by
    simp only [ite_queues, bump_queues, ite_self]
  exact setQueue_keepsStates hstall rfl

/-- A completed command leaves its queue's started commands; its record joins those that wait. -/
theorem finishWith_keepsStates (key : Nat) (st : Status) (s : State) : QueueStatesKept s (finishWith key st s) := by
  unfold finishWith
  split
  · exact .refl s
  · next j _ =>
    extract_lets st' q seq x t u v
    have hu : QueueStatesKept s u := setQueue_keepsStates (t := t) rfl rfl
    have hleft : QueueStatesKept s v := hu.trans (.of_queues (countCompleted_queues ..))
    split
    · exact hleft
    · exact hleft.trans (addRecord_keepsStates ..)

theorem finishJob_keepsStates (key : Nat) (s : State) : QueueStatesKept s (finishJob key s) := by
  unfold finishJob
  split
  · exact .refl s
  · exact (finishWith_keepsStates ..).trans (.of_queues (signalEvent_queues ..))

theorem finishAcked_keepsStates (key : Nat) (s : State) : QueueStatesKept s (finishAcked key s) := by
  unfold finishAcked
  split
  · exact finishJob_keepsStates key s
  · exact .of_queues (onJob_queues ..)

/-! Faults, slots and stations -/

@[simp] theorem markEnded_queues (handle : Nat) (s : State) : (markEnded handle s).queues = s.queues := rfl

@[simp] theorem pickSlot_queues (n : Nat) (used : List Nat) (s : State) : (pickSlot n used s).2.queues = s.queues := by
  simp only [pickSlot]
  split <;> rfl

@[simp] theorem storeFault_queues (parked : Bool) (r : FaultRec) (s : State) : (storeFault parked r s).queues = s.queues := by
  simp only [storeFault, bump_queues, ite_queues, fwWrite_queues, ite_self]

@[simp] theorem addFault_queues (r : FaultRec) (s : State) : (addFault r s).queues = s.queues := by
  simp only [addFault, ite_queues, bump_queues, storeFault_queues, ite_self]

@[simp] theorem setReserved_queues (d : Nat) (ws : List Work) (s : State) : (setReserved d ws s).queues = s.queues := by
  simp only [setReserved]
  split
  · simp only [ite_queues, bump_queues, setStation_queues, ite_self]
  · exact setStation_queues ..

@[simp] theorem dropWork_queues (p : Work → Bool) (d : Nat) (s : State) : (dropWork p d s).queues = s.queues := by
  simp only [dropWork, setReserved_queues, setStation_queues]

/-! Face operations, and the routes whose experts they are -/

@[simp] theorem onRoute_queues (d key : Nat) (f : Route → Route) (s : State) : (onRoute d key f s).queues = s.queues := rfl

@[simp] theorem expertDone_queues (d key e : Nat) (st : Status) (s : State) : (expertDone d key e st s).1.queues = s.queues := by
  simp only [expertDone]
  split
  · rfl
  · rw [onRoute_queues, uPut_queues]
    rfl

theorem switchOutFace_queues {die : Nat} {r : FRun} {i : FaultInfo} {s t : State} (h : switchOutFace die r i s = some t) :
    t.queues = s.queues := by
  simp only [switchOutFace, saveFace] at h
  split at h
  · cases h
  · obtain ⟨slot, -, rfl⟩ := Option.map_eq_some_iff.mp h
    rw [addFault_queues, setFace_queues, pickSlot_queues]

theorem faceDone_keepsStates (die : Nat) (r : FRun) (s : State) : QueueStatesKept s (faceDone die r s).1 := by
  simp only [faceDone]
  split
  · refine .trans (.of_queues ?_) (finishJob_keepsStates ..)
    rw [setDetail_queues, foldl_queues fun t o => addOut_queues _ o t, bump_queues]
  · exact .of_queues (by rw [expertDone_queues, bump_queues])

/-- One case for each place where a die may hold the FACE_OP: its station's offers, staging, a save slot, the run under way
and the run before it. -/
theorem abortFace_keepsStates {key : Nat} {w : FOwner} {s t : State} (h : abortFace key w s = some t) : QueueStatesKept s t := by
  unfold abortFace at h
  extract_lets isW aborted fromSave try_ at h
  have haborted (d : Nat) (r : FRun) {u : State} (hu : u.queues = s.queues) : QueueStatesKept s (aborted d r u) :=
    (QueueStatesKept.of_queues hu).trans (faceDone_keepsStates ..)
  have hsave (d slot : Nat) (r : FRun) {u : State} (hu : u.queues = s.queues) : QueueStatesKept s (fromSave d slot r u) :=
    haborted d r hu
  obtain ⟨d, -, hd⟩ := List.exists_of_findSome?_eq_some h
  simp only [try_] at hd
  -- offered at the station
  split at hd
  · split at hd
    · cases hd
      exact haborted d _ (dropWork_queues ..)
    · cases hd
  -- staged
  split at hd
  · cases hd
    exact haborted d _ (setFace_queues ..)
  -- in a save slot
  split at hd
  · cases hd
    exact hsave d _ _ rfl
  -- the run under way, the run before it, or neither
  split at hd
  · split at hd
    · split at hd
      · next hout =>
        obtain ⟨c, -, rfl⟩ := Option.map_eq_some_iff.mp hd
        exact hsave d _ _ (switchOutFace_queues hout)
      · cases hd
        exact haborted d _ (setFace_queues ..)
    · split at hd
      · cases hd
      · cases hd
        exact .of_queues (setFace_queues ..)
  · split at hd
    · cases hd
    · cases hd
      exact .of_queues (setFace_queues ..)
  · cases hd

theorem abortExperts_keepsStates (die key : Nat) (es : List Nat) (s : State) : QueueStatesKept s (abortExperts die key es s) := by
  induction es generalizing s with
  | nil => exact .refl s
  | cons e es ih =>
    refine .trans ?_ (ih _)
    cases h : abortFace key (.expert die e) s with
    | none => exact .refl s
    | some t => exact abortFace_keepsStates h

theorem abortRoute_keepsStates {key : Nat} {s t : State} (h : abortRoute key s = some t) : QueueStatesKept s t := by
  simp only [abortRoute] at h
  split at h
  · cases h
  · next die r _ =>
    split at h <;> cases h
    · refine .trans (.of_queues ?_) (finishAcked_keepsStates ..)
      rw [foldl_queues fun t o => addOut_queues key o t, setBramble_queues]
      split <;> rfl
    · refine .trans (.of_queues ?_) (abortExperts_keepsStates ..)
      rw [setBramble_queues]
      split <;> rfl

/-! Hauls, launches, collectives and segment updates -/

theorem abortHaul_queues {key : Nat} {s t : State} (h : abortHaul key s = some t) : t.queues = s.queues := by
  simp only [abortHaul] at h
  split at h
  · cases h
  · cases h
    rw [addOut_queues, setHaul_queues]
    refine foldl_queues (fun u c => ?_) _ s
    split
    · simp only [ite_queues, markEnded_queues, setEngine_queues, ite_self]
    · exact setEngine_queues ..

@[simp] theorem leaveCore_queues (key die core : Nat) (s : State) : (leaveCore key die core s).queues = s.queues := by
  unfold leaveCore
  split <;> rfl

@[simp] theorem leaveDie_queues (key die : Nat) (s : State) : (leaveDie key die s).queues = s.queues := by
  simp only [leaveDie]
  split
  · rfl
  · simp only [ite_queues, bump_queues, ite_self]

@[simp] theorem leaveDies_queues (key : Nat) (s : State) : (leaveDies key s).queues = s.queues :=
  foldl_queues (fun t d => leaveDie_queues key d t) _ s

@[simp] theorem removeGroup_queues (g : Nat) (s : State) : (removeGroup g s).queues = s.queues := by
  simp only [removeGroup]
  split
  · rfl
  · simp only [leaveDies_queues, ite_queues, leaveCore_queues, ite_self]

@[simp] theorem stopLaunch_queues (key : Nat) (s : State) : (stopLaunch key s).queues = s.queues := by
  simp only [stopLaunch]
  rw [foldl_queues fun u d => (setStation_queues ..).trans (dropWork_queues _ d u)]
  split <;> rfl

@[simp] theorem abortLaunch_queues (key : Nat) (s : State) : (abortLaunch key s).queues = s.queues := by
  simp only [abortLaunch, leaveDies_queues]
  rw [foldl_queues fun v c => ?_]
  · split <;> simp
  · rw [removeGroup_queues]
    split <;> rfl

@[simp] theorem endColl_queues (key : Nat) (o : Status) (notice : Bool) (s : State) :
    (endColl key o notice s).queues = s.queues := by
  simp only [endColl]
  split
  · rfl
  · split
    · rw [foldl_queues fun t r => send_queues _ t, addOut_queues, setColl_queues]
    · rw [addOut_queues, setColl_queues]

theorem abortColl_queues {key : Nat} {s t : State} (h : abortColl key s = some t) : t.queues = s.queues := by
  simp only [abortColl] at h
  split at h
  · cases h
  · split at h <;> cases h
    rw [endColl_queues, setColl_queues]
    split <;> rfl

@[simp] theorem setSeg_queues (k : Nat) (g : Seg) (s : State) : (setSeg k g s).queues = s.queues := by
  simp only [setSeg]
  split
  · exact fwWrite_queues ..
  · rfl

@[simp] theorem setCtx_queues (c : Nat) (e : CtxEntry) (s : State) : (setCtx c e s).queues = s.queues := by
  simp only [setCtx]
  split
  · exact fwWrite_queues ..
  · rfl

theorem foldl_setSeg_queues (l : List (Nat × Seg)) (s : State) :
    (l.foldl (fun x g => setSeg g.1 g.2 x) s).queues = s.queues := by
  refine foldl_queues (fun t g => ?_) l s
  rw [setSeg_queues]

theorem abortUpdate_queues {key : Nat} {s t : State} (h : abortUpdate key s = some t) : t.queues = s.queues := by
  unfold abortUpdate at h
  split at h
  · cases h
  · split at h
    · cases h
    · extract_lets restored at h
      cases h
      rw [setDetail_queues]
      change restored.queues = s.queues
      rw [foldl_setSeg_queues, ite_queues, setCtx_queues, ite_self]

theorem endWait_keepsStates (key v : Nat) (s : State) : QueueStatesKept s (endWait key v s) := by
  have hset : (setDetail key v (dropWatch key s)).queues = s.queues := setDetail_queues ..
  exact (QueueStatesKept.of_queues hset).trans (finishJob_keepsStates ..)

/-! An ABORT of a started command (R319) -/

theorem abortRunning_keepsStates {key kind : Nat} {s t : State} (h : abortRunning key kind s = some t) :
    QueueStatesKept s t := by
  unfold abortRunning at h
  split at h
  · exact abortFace_keepsStates h
  · split at h
    · cases h
    · obtain rfl := Option.some.inj h
      exact .of_queues (abortLaunch_queues key s)
  · exact .of_queues (abortHaul_queues h)
  · exact .of_queues (abortHaul_queues h)
  · exact .of_queues (abortColl_queues h)
  · split at h
    · cases h
    · exact abortRoute_keepsStates h
  · split at h
    · cases h
    · exact abortRoute_keepsStates h
  · cases h
    exact .trans (.of_queues (addOut_queues ..)) (endWait_keepsStates ..)
  · obtain ⟨u, hu, rfl⟩ := Option.map_eq_some_iff.mp h
    exact .trans (.of_queues (abortUpdate_queues hu)) (finishWith_keepsStates ..)
  · cases h

theorem abortJob_keepsStates {key : Nat} {s t : State} (h : abortJob key s = some t) : QueueStatesKept s t := by
  simp only [abortJob] at h
  split at h
  · cases h
  · split at h
    · cases h
    · split at h
      · cases h
        exact finishWith_keepsStates ..
      · exact abortRunning_keepsStates h

/-! Closing a queue (R300) -/

theorem closeJob_keepsStates (q seq : Nat) (s : State) : QueueStatesKept s (closeJob q s seq) := by
  simp only [closeJob]
  split
  · exact .refl s
  · next j _ =>
    split
    · exact setQueue_keepsStates rfl rfl
    · cases h : abortJob (jobKey q seq) (setJob (jobKey q seq) { j with mute := true } s) with
      | none => exact .of_queues (setJob_queues ..)
      | some t => exact .trans (.of_queues (setJob_queues ..)) (abortJob_keepsStates h)

theorem endFetch_keepsStates (q : Nat) (s : State) : QueueStatesKept s (endFetch q s) :=
  setQueue_keepsStates (t := dropArrived (.ring q) s) rfl rfl

theorem queueOf_endFetch_of_ne {q p : Nat} (s : State) (h : p ≠ q) : queueOf (endFetch q s) p = queueOf s p :=
  queueOf_setQueue_of_ne _ (dropArrived (.ring q) s) h

end Sys2Proof.Machine


/-! ### Writes of Q_STATE (R297, R298, R300, R391) -/

namespace Sys2Proof.Machine

theorem exec_dictWrite (src key v : Nat) (s : State) : exec (.dictWrite src key v) s = execDictWrite src key v s := rfl

/-! The names of a queue's entries -/

theorem qKey_range {q sub : Nat} (hq : q < 1024) (hsub : sub < 256) : 0x940000 ≤ qKey q sub ∧ qKey q sub < 0x980000 := by
  rw [qKey]
  omega

theorem qKey_sub {q sub : Nat} (hsub : sub < 256) : qKey q sub % 256 = sub := by
  rw [qKey]
  omega

theorem qKey_queue {q sub : Nat} (hsub : sub < 256) : qKey q sub / 256 - 0x9400 = q := by
  rw [qKey]
  omega

theorem entryOf_qKey {q sub : Nat} (hq : q < 1024) (hsub : sub < 256) :
    entryOf (qKey q sub) = queueEntries.find? fun r => r.first == sub := by
  rw [entryOf, if_pos (qKey_range hq hsub), qKey_sub hsub]

theorem scalarAct_qKey {q sub : Nat} (hq : q < 1024) (hsub : sub < 256) (v : Nat) (s : State) :
    scalarAct (qKey q sub) v s = queueWrite q sub v s := by
  rw [scalarAct, if_pos (qKey_range hq hsub), qKey_queue hsub, qKey_sub hsub]

/-- The entry of Q_STATE: U8, RW, no lock, 1 byte, no reserved bits. -/
theorem entryOf_qState {q : Nat} (hq : q < 1024) : entryOf (qKey q 0) = some ⟨0, 0, 0, 1, 0, 1, 0, 0xff⟩ :=
  (entryOf_qKey hq (by decide)).trans rfl

theorem ofBytes_toBytes_one {v : Nat} (hv : v < 256) : ofBytes (toBytes 1 v) = v := by
  simp only [toBytes, ofBytes, BitVec.toNat_ofNat]
  omega

/-- A byte written to Q_STATE meets the dictionary arbiter whole. -/
theorem scalarWrite_qState {q v : Nat} (hq : q < 1024) (hv : v < 256) (src : Nat) (s : State) :
    scalarWrite src (qKey q 0) v s = commit src (qKey q 0) (writeQState q v) s := by
  have hmask : v &&& 0xff = v := by rw [Nat.and_two_pow_sub_one_eq_mod v 8, Nat.mod_eq_of_lt hv]
  have hplain : ¬(0x940000 ≤ qKey q 0 ∧ qKey q 0 < 0x980000 ∧ qKey q 0 % 256 = 10) := by
    rw [qKey_sub (by decide)]
    omega
  have hact (t : State) : scalarAct (qKey q 0) v t = writeQState q v t := scalarAct_qKey hq (by decide) v t
  rw [scalarWrite, if_neg hplain, commitScalar]
  have hbyte : ¬((0 : Nat) = 6 ∧ v > 1) := fun h => absurd h.1 (by decide)
  simp only [entryOf_qState hq, hmask, hact, if_neg hbyte]

theorem valueWrite_qState {q v : Nat} (hq : q < 1024) (hv : v < 256) (src : Nat) (s : State) :
    valueWrite src (qKey q 0) (toBytes (sizeOf (qKey q 0)) v) s = commit src (qKey q 0) (writeQState q v) s := by
  have hblob : isBlob (qKey q 0) = false := by rw [isBlob, entryOf_qState hq]; rfl
  have hsize : sizeOf (qKey q 0) = 1 := by rw [Machine.sizeOf, entryOf_qState hq]
  have hlen : (toBytes 1 v).length = 1 := rfl
  simp only [valueWrite, hblob, hsize, hlen, bne_self_eq_false, Bool.and_false, Bool.false_eq_true, if_false,
    ofBytes_toBytes_one hv, scalarWrite_qState hq hv]

section
variable {src q v : Nat} {s : State}

theorem exec_write_qState (hq : q < 1024) (hv : v < 256) (hw : Writable s (qKey q 0)) :
    exec (.dictWrite src (qKey q 0) v) s = .next (commit src (qKey q 0) (writeQState q v) s).2 := by
  obtain ⟨halive, -⟩ := hw
  rw [exec_dictWrite, execDictWrite, outside, if_pos halive, valueWrite_qState hq hv]

theorem exec_write_qState_refused {c : Nat} (hq : q < 1024) (hv : v < 256) (hw : Writable s (qKey q 0)) (hc : c ≠ 0)
    (h : writeQState q v s = (c, s)) : exec (.dictWrite src (qKey q 0) v) s = .next (refuseWrite src (qKey q 0) c s) := by
  have hcode : (writeQState q v s).1 = c := congrArg Prod.fst h
  rw [exec_write_qState hq hv hw, commit_turned_away _ _ _ _ hw.2 (hcode ▸ hc), hcode]

theorem exec_write_qState_accepted {t : State} (hq : q < 1024) (hv : v < 256) (hw : Writable s (qKey q 0))
    (h : writeQState q v s = (0, t)) : exec (.dictWrite src (qKey q 0) v) s = .next (acceptWrite t) := by
  rw [exec_write_qState hq hv hw, commit_accepted _ _ _ _ hw.2 (congrArg Prod.fst h), h]

end

/-! What a value of Q_STATE does to its queue -/

theorem writeQState_of_two_le {v : Nat} (q : Nat) (s : State) (hv : 2 ≤ v) : writeQState q v s = (3, s) := by
  rw [writeQState, if_neg (by omega), if_neg (by omega)]

theorem openQueue_refused {q : Nat} {s : State} (h : (queueOf s q).st ≠ .closed ∨ canOpen s q = false) :
    openQueue q s = (7, s) :=
  if_pos (h.imp_right fun h => by rw [h]; rfl)

theorem openQueue_opens {q : Nat} {s : State} (hst : (queueOf s q).st = .closed) (hcan : canOpen s q = true) :
    ∃ x : Queue, openQueue q s = (0, setQueue q x s) ∧ x.st = .opened ∧ x.head = 0 ∧ x.tail = 0 :=
  ⟨_, if_neg (by simp [hst, hcan]), rfl, rfl, rfl⟩

theorem closeQueue_refused {q : Nat} {s : State} (hst : (queueOf s q).st = .closed) : closeQueue q s = (7, s) := if_pos hst

/-- A queue that is not CLOSED is CLOSING after a close, whatever its started commands come to. -/
theorem closeQueue_closes {q : Nat} {s : State} (hst : (queueOf s q).st ≠ .closed) :
    ∃ t, closeQueue q s = (0, t) ∧ (queueOf t q).st = .closing ∧
      ((queueOf s q).live = [] → ∀ p, p ≠ q → queueOf t p = queueOf s p) := by
  by_cases hclosing : (queueOf s q).st = .closing
  · exact ⟨s, by simp only [closeQueue, hclosing]; rfl, hclosing, fun _ _ _ => rfl⟩
  · generalize hx : ({ queueOf s q with st := .closing, status := 0, fetched := [], killed := [], cplWait := [] } : Queue) = x
    have hxst : x.st = .closing := by rw [← hx]
    have hclose : closeQueue q s = (0, (queueOf s q).live.foldl (closeJob q) (endFetch q (setQueue q x s))) := by
      simp only [closeQueue, hst, hclosing, if_false, hx]
    refine ⟨_, hclose, ?_, fun hlive p hp => ?_⟩
    · have hkept := (endFetch_keepsStates q (setQueue q x s)).trans
        (foldl_keepsStates (fun t seq => closeJob_keepsStates q seq t) (queueOf s q).live _)
      rw [hkept.st_eq, queueOf_setQueue_self, hxst]
    · rw [hlive, List.foldl_nil, queueOf_endFetch_of_ne _ hp, queueOf_setQueue_of_ne _ _ hp]

/-- Settles O49: the write meets the arbiter as writeQState, whose three cases are refusal, opening and closing; a close
keeps the queue CLOSING because an aborted command changes no queue's state. -/
theorem queueStateWritesAreDecided : Obligations.QueueStateWritesAreDecided := by
  refine ⟨fun src q v s hq hv hw => ⟨?range, ?notClosed, ?closed, ?cannotOpen, ?opens, ?closesIdle, ?closes⟩,
    refuseWrite_onlyRecords⟩
  case range => exact fun h => exec_write_qState_refused hq hv hw (by decide) (writeQState_of_two_le q s h)
  case notClosed =>
    rintro rfl hst
    exact exec_write_qState_refused hq hv hw (by decide) (openQueue_refused (.inl hst))
  case closed =>
    rintro rfl hst
    exact exec_write_qState_refused hq hv hw (by decide) (closeQueue_refused hst)
  case cannotOpen =>
    rintro rfl _ hcan
    exact exec_write_qState_refused hq hv hw (by decide) (openQueue_refused (.inr hcan))
  case opens =>
    rintro rfl hst hcan
    obtain ⟨x, hopen, hx, hhead, htail⟩ := openQueue_opens hst hcan
    refine ⟨_, exec_write_qState_accepted hq hv hw hopen, ?_⟩
    simp only [queueOf_acceptWrite, queueOf_setQueue_self]
    exact ⟨hx, hhead, htail, fun p hp => queueOf_setQueue_of_ne x s hp⟩
  case closesIdle =>
    rintro rfl hst hlive
    obtain ⟨t, hclose, ht, hothers⟩ := closeQueue_closes hst
    refine ⟨_, exec_write_qState_accepted hq hv hw hclose, ?_⟩
    simp only [queueOf_acceptWrite]
    exact ⟨ht, hothers hlive⟩
  case closes =>
    rintro rfl hst
    obtain ⟨t, hclose, ht, -⟩ := closeQueue_closes hst
    refine ⟨_, exec_write_qState_accepted hq hv hw hclose, ?_⟩
    rw [queueOf_acceptWrite, ht]

end Sys2Proof.Machine

/-! ### The queue of commands, and memory at reset -/

namespace Sys2Proof.Machine

/-- Settles O57: the two cases of step, an empty queue and a command in front. -/
theorem stepTakesTheFrontCommand : Obligations.StepTakesTheFrontCommand := by
  refine ⟨fun c rest s h => ?front, fun s h => ?empty⟩
  case front => simp only [step, h]
  case empty => simp only [step, h, idle]

/-- Settles O58. -/
theorem resetMemoryIsCanonical : Obligations.ResetMemoryIsCanonical := ⟨Memory.wf_reset, rfl⟩

end Sys2Proof.Machine

namespace Sys2Proof.Machine

/-! ### Fields of a sum of fields, and a number as the sum of its fields (R170–R172) -/

theorem bits_eq (x lo n : Nat) : bits x lo n = x / 2 ^ lo % 2 ^ n := by rw [bits, Nat.shiftRight_eq_div_pow]

theorem bits_lt (x lo n : Nat) : bits x lo n < 2 ^ n := Nat.mod_lt _ (Nat.two_pow_pos n)

theorem bit_eq_bits (x i : Nat) : bit x i = (bits x i 1 == 1) := rfl

theorem toNat_bit (x i : Nat) : (bit x i).toNat = bits x i 1 := by
  have h : bits x i 1 < 2 := bits_lt x i 1
  rw [bit_eq_bits]
  rcases (by omega : bits x i 1 = 0 ∨ bits x i 1 = 1) with h0 | h1
  · simp [h0]
  · simp [h1]

/-- A field lies below what is added at or above its end. -/
theorem bits_add_above {lo n k : Nat} (a v : Nat) (h : lo + n ≤ k) : bits (a + v * 2 ^ k) lo n = bits a lo n := by
  obtain ⟨m, rfl⟩ := Nat.exists_eq_add_of_le h
  have hv : v * 2 ^ (lo + n + m) = 2 ^ n * (v * 2 ^ m) * 2 ^ lo := by
    rw [Nat.pow_add, Nat.pow_add]
    ac_rfl
  rw [bits_eq, bits_eq, hv, Nat.add_mul_div_right _ _ (Nat.two_pow_pos lo), Nat.add_mul_mod_self_left]

/-- The field added last is read back. -/
theorem bits_add_top {a v lo n : Nat} (ha : a < 2 ^ lo) (hv : v < 2 ^ n) : bits (a + v * 2 ^ lo) lo n = v := by
  rw [bits_eq, Nat.add_mul_div_right _ _ (Nat.two_pow_pos lo), Nat.div_eq_of_lt ha, Nat.zero_add, Nat.mod_eq_of_lt hv]

theorem bit_add_above {i k : Nat} (a v : Nat) (h : i < k) : bit (a + v * 2 ^ k) i = bit a i := by
  rw [bit_eq_bits, bits_add_above a v h, bit_eq_bits]

theorem bit_add_top {a i : Nat} (b : Bool) (ha : a < 2 ^ i) : bit (a + b.toNat * 2 ^ i) i = b := by
  rw [bit_eq_bits, bits_add_top ha (Bool.toNat_lt b)]
  cases b <;> rfl

theorem major_add {b maj : Nat} (hb : b < 2) (hm : maj < 64) : bits (b + maj * 2) 1 6 = maj :=
  bits_add_top (lo := 1) (n := 6) hb hm

theorem major_short {maj : Nat} (hm : maj < 64) : bits (maj * 2) 1 6 = maj := by
  rw [bits_eq]
  omega

theorem bit_zero_odd (m : Nat) : bit (1 + m * 2) 0 = true := by
  rw [bit_eq_bits, bits_eq, Nat.pow_zero, Nat.div_one, Nat.pow_one, Nat.add_mul_mod_self_right]
  rfl

theorem bit_zero_even (m : Nat) : bit (m * 2) 0 = false := by
  rw [bit_eq_bits, bits_eq, Nat.pow_zero, Nat.div_one, Nat.pow_one, Nat.mul_mod_left]
  rfl


theorem low_add_bits (w lo n : Nat) : w % 2 ^ lo + bits w lo n * 2 ^ lo = w % 2 ^ (lo + n) := by
  rw [bits_eq, Nat.mul_comm, Nat.pow_add, Nat.mod_mul]

theorem low_add_bit (w lo : Nat) : w % 2 ^ lo + (bit w lo).toNat * 2 ^ lo = w % 2 ^ (lo + 1) := by
  rw [toNat_bit, low_add_bits]

theorem major_of_odd {w : Nat} (h : bit w 0 = true) : 1 + bits w 1 6 * 2 = w % 2 ^ 7 := by
  have h1 : bits w 0 1 = 1 := by rw [← toNat_bit, h, Bool.toNat_true]
  have h2 : w % 2 ^ 1 = 1 := by rw [bits_eq] at h1; omega
  rw [← low_add_bits w 1 6, h2, Nat.pow_one]

theorem major_of_even {w : Nat} (h : bit w 0 = false) : bits w 1 6 * 2 = w % 2 ^ 7 := by
  have h1 : bits w 0 1 = 0 := by rw [← toNat_bit, h, Bool.toNat_false]
  have h2 : w % 2 ^ 1 = 0 := by rw [bits_eq] at h1; omega
  rw [← low_add_bits w 1 6, h2, Nat.zero_add, Nat.pow_one]

/-! ### Signed fields -/

theorem signed_emod (n x : Nat) : signed n x % (2 : Int) ^ n = (x : Int) % 2 ^ n := by
  have hx : ((x % 2 ^ n : Nat) : Int) = (x : Int) % 2 ^ n := by rw [Int.natCast_emod, natCast_two_pow]
  simp only [signed, hx]
  split
  · rw [Int.emod_emod_of_dvd _ (Int.dvd_refl _)]
  · rw [Int.sub_emod_right, Int.emod_emod_of_dvd _ (Int.dvd_refl _)]

theorem unsigned_signed {n x : Nat} (hx : x < 2 ^ n) : unsigned n (signed n x) = x := by
  rw [unsigned, signed_emod, ← natCast_two_pow, ← Int.natCast_emod, Int.toNat_natCast, Nat.mod_eq_of_lt hx]

theorem unsigned_mod {n m : Nat} (h : n ≤ m) (i : Int) : unsigned m i % 2 ^ n = unsigned n i := by
  have hm : 0 ≤ i % (2 : Int) ^ m := Int.emod_nonneg _ (Int.ne_of_gt (Int.pow_pos (by decide)))
  have hdvd : (2 : Int) ^ n ∣ 2 ^ m := by
    rw [← natCast_two_pow, ← natCast_two_pow]
    exact Int.natCast_dvd_natCast.2 (Nat.pow_dvd_pow 2 h)
  have hn : (((2 : Nat) ^ n : Nat) : Int).toNat = 2 ^ n := Int.toNat_natCast _
  rw [unsigned, unsigned, ← Int.emod_emod_of_dvd i hdvd, ← natCast_two_pow n,
    Int.toNat_emod hm (Int.natCast_nonneg _), hn]

theorem bits_sext {n m x : Nat} (h : n ≤ m) (hx : x < 2 ^ n) : bits (sext n m x) 0 n = x := by
  rw [bits_eq, Nat.pow_zero, Nat.div_one, sext, unsigned_mod h, unsigned_signed hx]

theorem unsigned_signed_bits (w lo n : Nat) : unsigned n (signed n (bits w lo n)) = bits w lo n :=
  unsigned_signed (bits_lt w lo n)

theorem bits_sext_bits {n m : Nat} (w lo : Nat) (h : n ≤ m) : bits (sext n m (bits w lo n)) 0 n = bits w lo n :=
  bits_sext h (bits_lt w lo n)

theorem signed_unsigned {n : Nat} {i : Int} (hn : 0 < n) (hlo : -2 ^ (n - 1) ≤ i) (hhi : i < 2 ^ (n - 1)) :
    signed n (unsigned n i) = i := by
  have hsum : ((2 ^ (n - 1) : Nat) : Int) + ((2 ^ (n - 1) : Nat) : Int) = ((2 ^ n : Nat) : Int) := by
    exact_mod_cast two_pow_pred_add_self hn
  rw [← natCast_two_pow] at hlo hhi
  rw [signed, Nat.mod_eq_of_lt (unsigned_lt n i), unsigned, ← natCast_two_pow n]
  by_cases hi : 0 ≤ i
  · rw [Int.emod_eq_of_lt hi (by omega)]
    split <;> omega
  · rw [← Int.add_emod_right, Int.emod_eq_of_lt (by omega) (by omega)]
    split <;> omega

/-! ### Round trips -/

theorem wsize_of_odd {w : Nat} (h : bit w 0 = true) : wsize w = 8 := if_pos h

theorem wsize_of_even {w : Nat} (h : bit w 0 = false) : wsize w = 4 := by rw [wsize, h]; rfl

theorem rFields_encodeR {maj : Nat} {f : RFields} (hm : maj < 64) (h : f.fits = true) :
    rFields (encodeR maj f) = f ∧ major (encodeR maj f) = maj ∧ wsize (encodeR maj f) = (if f.long then 8 else 4) := by
  obtain ⟨long, s, op, aux, rm, resv, fmt, pn, pe, preg, c, b, a, d, imm⟩ := f
  have hs := Bool.toNat_lt s
  have hpn := Bool.toNat_lt pn
  have hpe := Bool.toNat_lt pe
  cases long
  all_goals
    simp only [RFields.fits, if_true, if_false, Bool.false_eq_true, Bool.and_eq_true, Bool.not_eq_true', decide_eq_true_eq,
      beq_iff_eq] at h
    simp (disch := omega) only [-Nat.reducePow, rFields, major, wsize, encodeR, if_true, if_false, Bool.false_eq_true,
      bits_add_above, bits_add_top, bit_add_above, bit_add_top, bit_zero_odd, bit_zero_even, major_add, major_short, h,
      and_self]

theorem bit_eq_testBit (x i : Nat) : bit x i = x.testBit i := by
  rw [Nat.testBit_eq_decide_div_mod_eq, bit, Nat.shiftRight_eq_div_pow]
  rfl

/-- Bit i of a field. -/
theorem bit_bits {i n : Nat} (w lo : Nat) (h : i < n) : bit (bits w lo n) i = bit w (lo + i) := by
  simp only [bit_eq_testBit, bits, Nat.testBit_mod_two_pow, Nat.testBit_shiftRight, h, decide_true, Bool.true_and]

theorem iFields_encodeI {maj : Nat} {f : RFields} (hm : maj < 64) (h : f.fitsI = true) :
    iFields (encodeI maj f) = f ∧ major (encodeI maj f) = maj ∧ wsize (encodeI maj f) = (if f.long then 8 else 4) := by
  obtain ⟨long, s, op, aux, rm, resv, fmt, pn, pe, preg, c, b, a, d, imm⟩ := f
  have hs := Bool.toNat_lt s
  have hpn := Bool.toNat_lt pn
  have hpe := Bool.toNat_lt pe
  have h32 := bits_lt imm 0 32
  have h11 := bits_lt imm 0 11
  cases long
  case false =>
    simp only [RFields.fitsI, if_false, Bool.false_eq_true, Bool.and_eq_true, Bool.not_eq_true', decide_eq_true_eq,
      beq_iff_eq] at h
    obtain ⟨h, h', himm⟩ := h
    simp (disch := omega) only [-Nat.reducePow, iFields, major, wsize, encodeI, if_false, Bool.false_eq_true,
      bits_add_above, bits_add_top, bit_add_above, bit_add_top, bit_zero_even, major_short, h, h', ← himm, and_self]
  case true =>
    simp only [RFields.fitsI, if_true, Bool.and_eq_true, decide_eq_true_eq, beq_iff_eq] at h
    obtain ⟨h, ⟨⟨⟨⟨hop, rfl⟩, hpreg⟩, ha⟩, hd⟩, himm⟩ := h
    have hsop (w : Nat) : bit w 31 = bit (bits w 28 4) 3 :=
      (bit_bits (i := 3) (n := 4) w 28 (by decide)).symm
    simp (disch := omega) only [-Nat.reducePow, iFields, major, wsize, encodeI, if_true, hsop, bits_add_above, bits_add_top,
      bit_add_above, bit_add_top, bit_zero_odd, major_add, h, ← himm, and_self]

theorem mFields_encodeM {maj : Nat} {f : MFields} (hm : maj < 64) (h : f.fits = true) :
    mFields (encodeM maj f) = f ∧ major (encodeM maj f) = maj ∧ wsize (encodeM maj f) = (if f.long then 8 else 4) := by
  obtain ⟨long, off, pn, pe, preg, lc, bench, sx, scale, am, width, opf, b, a, d⟩ := f
  have hpn := Bool.toNat_lt pn
  have hpe := Bool.toNat_lt pe
  have hlc := Bool.toNat_lt lc
  have hbench := Bool.toNat_lt bench
  have hsx := Bool.toNat_lt sx
  have h14 := unsigned_lt 14 off
  have h10 := unsigned_lt 10 off
  cases long
  all_goals
    simp only [MFields.fits, if_true, if_false, Bool.false_eq_true, Bool.and_eq_true, Bool.not_eq_true', decide_eq_true_eq,
      beq_iff_eq] at h
    simp (disch := omega) only [-Nat.reducePow, mFields, major, wsize, encodeM, if_true, if_false, Bool.false_eq_true,
      bits_add_above, bits_add_top, bit_add_above, bit_add_top, bit_zero_odd, bit_zero_even, major_add, major_short,
      signed_unsigned, h, and_self]

theorem bFields_encodeB {maj : Nat} {long : Bool} {f : BFields} (hm : maj < 64) (h : f.fits long = true) :
    bFields (encodeB maj long f) = f ∧ major (encodeB maj long f) = maj ∧
      wsize (encodeB maj long f) = (if long then 8 else 4) := by
  obtain ⟨target, reconv, resv, kind, cond, b, a⟩ := f
  have h16 := unsigned_lt 16 (target / 4)
  have h12 := unsigned_lt 12 (target / 4)
  cases long
  all_goals
    simp only [BFields.fits, if_true, if_false, Bool.false_eq_true, Bool.and_eq_true, decide_eq_true_eq, beq_iff_eq] at h
    obtain ⟨⟨ht, hc⟩, h⟩ := h
    have htarget : 4 * (target / 4) = target := by omega
    have hreconv : 4 * (reconv / 4) = reconv := by omega
    simp (disch := omega) only [-Nat.reducePow, bFields, major, wsize, encodeB, if_true, if_false, Bool.false_eq_true,
      bits_add_above, bits_add_top, bit_add_above, bit_zero_odd, bit_zero_even, major_add, major_short, signed_unsigned,
      htarget, hreconv, h, and_self]

theorem encode_fields {w : Nat} (hw : w < 2 ^ (8 * wsize w)) :
    encodeR (major w) (rFields w) = w ∧ encodeI (major w) (iFields w) = w ∧ encodeM (major w) (mFields w) = w ∧
    encodeB (major w) (bit w 0) (bFields w) = w := by
  cases h : bit w 0
  case true =>
    rw [wsize_of_odd h] at hw
    simp (disch := decide) only [-Nat.reducePow, rFields, iFields, mFields, bFields, encodeR, encodeI, encodeM, encodeB, major,
      h, if_true, bits_sext_bits, unsigned_signed_bits, Nat.mul_div_cancel_left, Int.mul_ediv_cancel_left,
      major_of_odd h, low_add_bits, low_add_bit, Nat.mod_eq_of_lt hw, Nat.reduceAdd, and_self]
  case false =>
    rw [wsize_of_even h] at hw
    simp (disch := decide) only [-Nat.reducePow, rFields, iFields, mFields, bFields, encodeR, encodeI, encodeM, encodeB, major,
      h, if_false, Bool.false_eq_true, bits_sext_bits, unsigned_signed_bits, Int.mul_ediv_cancel_left,
      major_of_even h, low_add_bits, low_add_bit, Nat.mod_eq_of_lt hw, Nat.reduceAdd, and_self]

/-- Settles O60: a field is read back from below the fields added above it, and a word is the sum of its fields. -/
theorem urtexWordsRoundTrip : Obligations.UrtexWordsRoundTrip :=
  ⟨fun _ _ => rFields_encodeR, fun _ _ => iFields_encodeI, fun _ _ => mFields_encodeM, fun _ _ _ => bFields_encodeB,
    fun _ => encode_fields⟩

end Sys2Proof.Machine

/-! ### Single bits, and folds over dictionary entries -/

namespace Sys2Proof.Machine

theorem bit_eq_div (x i : Nat) : bit x i = (x / 2 ^ i % 2 == 1) := by rw [bit, Nat.shiftRight_eq_div_pow]

theorem bit_add_two_pow {x i : Nat} (h : bit x i = false) (j : Nat) : bit (x + 2 ^ i) j = (j == i || bit x j) := by
  have hi : (x + 2 ^ i) / 2 ^ i = x / 2 ^ i + 1 := Nat.add_div_right x (Nat.two_pow_pos i)
  have heven : x / 2 ^ i % 2 = 0 := by
    rw [bit_eq_div, beq_eq_false_iff_ne] at h
    omega
  rcases Nat.lt_trichotomy j i with hlt | rfl | hgt
  · have hadd := bit_add_above x 1 hlt
    rw [Nat.one_mul] at hadd
    rw [hadd, beq_false_of_ne (Nat.ne_of_lt hlt), Bool.false_or]
  · have hodd : (x / 2 ^ j + 1) % 2 = 1 := by omega
    rw [bit_eq_div, hi, hodd, beq_self_eq_true, beq_self_eq_true, Bool.true_or]
  · obtain ⟨k, rfl⟩ := Nat.exists_eq_add_of_lt hgt
    have hhalf : (x / 2 ^ i + 1) / 2 = x / 2 ^ i / 2 := by omega
    have hne : (i + k + 1 == i) = false := beq_false_of_ne (Nat.ne_of_gt hgt)
    have hsplit : 2 ^ (i + k + 1) = 2 ^ i * (2 * 2 ^ k) := by
      rw [Nat.pow_succ, Nat.pow_add]
      ac_rfl
    rw [bit_eq_div, bit_eq_div, hsplit, ← Nat.div_div_eq_div_mul, ← Nat.div_div_eq_div_mul, hi, hhalf,
      Nat.div_div_eq_div_mul, ← Nat.div_div_eq_div_mul x, hne, Bool.false_or]

theorem bit_setBit (x i j : Nat) : bit (setBit x i) j = (j == i || bit x j) := by
  unfold setBit
  split
  · next h =>
    by_cases hj : j = i
    · rw [hj, h, Bool.or_true]
    · rw [beq_false_of_ne hj, Bool.false_or]
  · next h => exact bit_add_two_pow (Bool.eq_false_iff.mpr h) j

theorem two_pow_le_of_bit {x i : Nat} (h : bit x i = true) : 2 ^ i ≤ x := by
  refine Nat.le_of_not_lt fun hlt => ?_
  rw [bit_eq_div, Nat.div_eq_of_lt hlt] at h
  exact absurd h (by decide)

theorem bit_clearBit (x i j : Nat) : bit (clearBit x i) j = (!(j == i) && bit x j) := by
  unfold clearBit
  split
  · next h =>
    have hle := two_pow_le_of_bit h
    have hclear : bit (x - 2 ^ i) i = false := by
      have hdiv : x / 2 ^ i = (x - 2 ^ i) / 2 ^ i + 1 := by
        rw [← Nat.add_div_right _ (Nat.two_pow_pos i), Nat.sub_add_cancel hle]
      rw [bit_eq_div, beq_iff_eq] at h
      rw [bit_eq_div, beq_eq_false_iff_ne]
      omega
    have hadd := bit_add_two_pow hclear j
    rw [Nat.sub_add_cancel hle] at hadd
    by_cases hj : j = i
    · rw [hj, hclear, beq_self_eq_true, Bool.not_true, Bool.false_and]
    · rw [hadd, beq_false_of_ne hj, Bool.false_or, Bool.not_false, Bool.true_and]
  · next h =>
    by_cases hj : j = i
    · rw [hj, Bool.eq_false_iff.mpr h, Bool.and_false]
    · rw [beq_false_of_ne hj, Bool.not_false, Bool.true_and]

/-- A run of writes to dictionary entries leaves everything but the dictionary. -/
theorem foldl_setDv_eq {α : Type} (k v : α → Nat) (l : List α) (s : State) :
    l.foldl (fun t n => setDv (k n) (v n) t) s = { s with dict := (l.foldl (fun t n => setDv (k n) (v n) t) s).dict } := by
  induction l generalizing s with
  | nil => rfl
  | cons n l ih =>
    rw [List.foldl_cons, ih]
    rfl

/-! ### Power and reset (R386, R461–R463) -/

theorem alive_eq_true {s : State} :
    alive s = true ↔ s.board.railsUp = true ∧ s.board.running = true ∧ bit s.board.clocksAbsent 15 = false := by
  simp only [alive, Bool.and_eq_true, Bool.not_eq_true', and_assoc]

theorem exec_powerUp {p c : Nat} {s : State} (h : s.board.railsUp = false) :
    exec (.powerUp p c) s = .next { s with
      board := { Board.reset with strapPins := p % 65536, clocksAbsent := c % 65536 } } := by
  change execPowerUp p c s = _
  rw [execPowerUp, h]
  rfl

theorem bits_mod_two_pow {lo n k : Nat} (x : Nat) (h : lo + n ≤ k) : bits (x % 2 ^ k) lo n = bits x lo n := by
  obtain ⟨m, rfl⟩ := Nat.exists_eq_add_of_le h
  rw [bits_eq, bits_eq, Nat.add_assoc, Nat.pow_add, Nat.mod_mul_right_div_self,
    Nat.mod_mod_of_dvd _ (Nat.pow_dvd_pow 2 (Nat.le_add_right n m))]

theorem regenerateKey_eq (s : State) : regenerateKey s = { s with part := (regenerateKey s).part } := by
  unfold regenerateKey
  split <;> rfl

theorem regenerateKey_some {s : State} (h : s.part.identity ≠ none) : (regenerateKey s).part = s.part := by
  unfold regenerateKey
  split
  · rfl
  · next hn => exact absurd hn h

theorem regenerateKey_none {s : State} (h : s.part.identity = none) :
    (regenerateKey s).part.identity = some s.part.identities := by
  unfold regenerateKey
  split
  · next hs => rw [h] at hs; cases hs
  · rfl

theorem regenerateKey_congr {s t : State} (h : t.part = s.part) : (regenerateKey t).part = (regenerateKey s).part := by
  unfold regenerateKey
  rw [h]
  split
  · exact h
  · rfl

/-- RESET_RELEASE, but for what step 1 puts into the dictionary and the challenge it draws. -/
theorem exec_resetRelease {s : State} (hr : s.board.railsUp = true) (hn : s.board.running = false)
    (hc : bit s.board.clocksAbsent 15 = false) :
    ∃ (d : Dict) (b : BitVec 256) (l : Links) (p : Part), exec .resetRelease s = .next { s with
        board := { s.board with running := true, straps := s.board.strapPins % 65536 }
        time := { s.time with epoch := s.time.now }
        mgmt := { s.mgmt with since := s.time.now }
        boot := { s.boot with phase := 1, stepDone := true, challenge := b }
        dict := d, freeN := s.freeN + 1, links := l, part := p } ∧
      p = (regenerateKey s).part ∧
      (bits s.board.strapPins 14 2 = 2 → (l.ports.get Port.idle 0).st = .training) := by
  have hbits : bits (s.board.strapPins % 65536) 14 2 = bits s.board.strapPins 14 2 := bits_mod_two_pow (k := 16) _ (by decide)
  change ∃ d b l p, execResetRelease s = _ ∧ _
  simp only [execResetRelease, hr, hn, hc, Bool.not_true, Bool.or_self, Bool.false_eq_true, if_false, hbits]
  rw [foldl_setDv_eq, regenerateKey_eq]
  by_cases h : bits s.board.strapPins 14 2 = 2
  · rw [if_pos h]
    refine ⟨_, _, _, _, rfl, ?_, ?_⟩
    · exact regenerateKey_congr rfl
    · exact fun _ => congrArg Port.st (Tab.get_put_self ..)
  · rw [if_neg h]
    refine ⟨_, _, _, _, rfl, ?_, fun hb => absurd hb h⟩
    exact regenerateKey_congr rfl

/-- Settles O1: POWER_UP and RESET_RELEASE, each computed once. -/
theorem powerAndResetBegin : Obligations.PowerAndResetBegin := by
  refine ⟨fun p c s h => ?up, fun s hr hn hc => ?release⟩
  case up => exact ⟨_, exec_powerUp h, rfl, rfl, rfl, rfl, rfl, rfl⟩
  case release =>
    obtain ⟨d, b, l, p, hexec, rfl, htrain⟩ := exec_resetRelease hr hn hc
    exact ⟨_, hexec, alive_eq_true.mpr ⟨hr, rfl, hc⟩, rfl, rfl, rfl, rfl, regenerateKey_none,
      regenerateKey_some, htrain, rfl, rfl, rfl, rfl, rfl, rfl⟩

/-! RESET_ASSERT and POWER_REMOVAL -/

/-- Settles O2: both leave afterReset, POWER_REMOVAL without what HBM holds. -/
theorem resetAndPowerRemovalKeepTheFuses : Obligations.ResetAndPowerRemovalKeepTheFuses := by
  refine ⟨fun s h => ?assert, fun s => ?removal⟩
  case assert =>
    have hexec : exec .resetAssert s = .next (afterReset s) := congrArg Host.Outcome.next (if_pos h)
    exact ⟨_, hexec, rfl, rfl, rfl, rfl, rfl, rfl, rfl, rfl⟩
  case removal => exact ⟨_, rfl, rfl, rfl, rfl, rfl⟩

/-! ### Reference clocks (R458, R459) -/

/-- Keeping the bytes at some addresses leaves those as they were, and every other address reads 0. -/
theorem Memory.read_filter (p : Nat → Bool) (l : List Host.Cell) (a : Nat) :
    Memory.read (l.filter fun c => p c.1) a = if p a then Memory.read l a else 0#8 := by
  induction l with
  | nil => simp [Memory.read]
  | cons c l ih =>
    by_cases hc : p c.1 = true
    · rw [List.filter_cons_of_pos (p := fun x : Host.Cell => p x.1) hc, Memory.read, Memory.read, ih]
      by_cases ha : c.1 = a
      · rw [if_pos ha, ← ha, if_pos hc, if_pos rfl]
      · rw [if_neg ha, if_neg ha]
    · rw [List.filter_cons_of_neg (p := fun x : Host.Cell => p x.1) hc, ih, Memory.read]
      by_cases ha : c.1 = a
      · rw [← ha, if_neg hc, if_neg hc]
      · rw [if_neg ha]

/-- A line's home follows from LOCAL_GIB alone. -/
theorem homeCtl_congr {s t : State} (h : t.dict = s.dict) (line : Nat) : homeCtl t line = homeCtl s line := by
  have hgib : localGib t = localGib s := dv_congr h _
  rw [homeCtl, homeCtl, pchan, pchan, place, place, hgib]

/-- The stacks of a list are lost: their bytes read 0, and no other byte changes. -/
theorem read_foldl_loseStack (l : List Nat) (s : State) (a : Nat) :
    Memory.read (l.foldl (fun u c => loseStack c u) s).mem.hbm a =
      if homeCtl s (a / 128) ∈ l then 0#8 else Memory.read s.mem.hbm a := by
  induction l generalizing s with
  | nil => rw [List.foldl_nil, if_neg List.not_mem_nil]
  | cons c l ih =>
    have hhome : homeCtl (loseStack c s) (a / 128) = homeCtl s (a / 128) := homeCtl_congr rfl _
    have hread : Memory.read (loseStack c s).mem.hbm a =
        if !(homeCtl s (a / 128) == c) then Memory.read s.mem.hbm a else 0#8 :=
      Memory.read_filter (fun x => !(homeCtl s (x / 128) == c)) s.mem.hbm a
    rw [List.foldl_cons, ih, hhome, hread]
    by_cases hc : homeCtl s (a / 128) = c <;> simp [hc]

theorem lostStacks_foldl_loseStack {l : List Nat} {c : Nat} (s : State) (hc : c < 32)
    (h : c ∈ l ∨ s.mem.lostStacks.getLsbD c = true) :
    (l.foldl (fun u c => loseStack c u) s).mem.lostStacks.getLsbD c = true := by
  induction l generalizing s with
  | nil => exact h.resolve_left List.not_mem_nil
  | cons k l ih =>
    refine ih _ ?_
    have hlost : (loseStack k s).mem.lostStacks.getLsbD c =
        (s.mem.lostStacks.getLsbD c || (decide (c < 32) && (2 ^ k).testBit c)) := by
      rw [loseStack, BitVec.getLsbD_or, BitVec.getLsbD_ofNat]
    rw [hlost, decide_eq_true hc]
    rcases h with h | h
    · rcases List.mem_cons.mp h with rfl | h
      · exact .inr (by rw [Nat.testBit_two_pow_self, Bool.true_and, Bool.or_true])
      · exact .inl h
    · exact .inr (by rw [h, Bool.true_or])

theorem portOf_setPort_self (lp : Nat) (x : Port) (s : State) : portOf (setPort lp x s) lp = x :=
  Tab.get_put_self s.links.ports Port.idle lp x

theorem portOf_setPort_of_ne {lp i : Nat} (x : Port) (s : State) (h : i ≠ lp) : portOf (setPort lp x s) i = portOf s i :=
  Tab.get_put_of_ne s.links.ports Port.idle x h

theorem portOf_portDown_self (lp : Nat) (s : State) : (portOf (portDown lp s) lp).st = .down := by
  have h : portOf (portDown lp s) lp = { portOf s lp with st := .down, retraining := none, downAt := s.time.now } :=
    portOf_setPort_self lp _ s
  rw [h]

theorem portOf_portDown_of_ne {lp i : Nat} (s : State) (h : i ≠ lp) : portOf (portDown lp s) i = portOf s i :=
  portOf_setPort_of_ne _ s h

/-- One port of a group goes DOWN where it is up or training (R459). -/
def dropPort (lp : Nat) (s : State) : State :=
  if (portOf s lp).st = .up ∨ (portOf s lp).st = .training then portDown lp s else s

theorem dropPort_mem (lp : Nat) (s : State) : (dropPort lp s).mem = s.mem := by
  unfold dropPort
  split <;> rfl

theorem dropPort_frame (lp : Nat) (s : State) : dropPort lp s =
    { s with links := (dropPort lp s).links, dict := (dropPort lp s).dict, ev := (dropPort lp s).ev } := by
  unfold dropPort
  split <;> rfl

theorem portOf_dropPort_self {lp : Nat} {s : State} (h : (portOf s lp).st = .up ∨ (portOf s lp).st = .training) :
    (portOf (dropPort lp s) lp).st = .down := by
  rw [dropPort, if_pos h, portOf_portDown_self]

theorem portOf_dropPort_of_ne {lp i : Nat} (s : State) (h : i ≠ lp) : portOf (dropPort lp s) i = portOf s i := by
  unfold dropPort
  split
  · exact portOf_portDown_of_ne s h
  · rfl

theorem dropPort_of_down {lp : Nat} {s : State} (h : (portOf s lp).st = .down) : dropPort lp s = s := by
  rw [dropPort, h, if_neg (by decide)]

/-- A port of the group that was up or training is DOWN once its group has lost its clock. -/
theorem foldl_dropPort_down {base lp : Nat} (l : List Nat) (s : State)
    (h : (portOf s lp).st = .down ∨ ((portOf s lp).st = .up ∨ (portOf s lp).st = .training) ∧ ∃ i ∈ l, base + i = lp) :
    (portOf (l.foldl (fun u i => dropPort (base + i) u) s) lp).st = .down := by
  induction l generalizing s with
  | nil =>
    rcases h with h | ⟨-, i, hi, -⟩
    · exact h
    · exact absurd hi List.not_mem_nil
  | cons k l ih =>
    refine ih _ ?_
    by_cases hk : base + k = lp
    · subst hk
      refine .inl ?_
      rcases h with h | ⟨h, -⟩
      · exact (congrArg (fun u => (portOf u _).st) (dropPort_of_down h)).trans h
      · exact portOf_dropPort_self h
    · have hkeep : portOf (dropPort (base + k) s) lp = portOf s lp := portOf_dropPort_of_ne s (Ne.symm hk)
      rw [hkeep]
      refine h.imp_right fun ⟨hst, i, hi, hlp⟩ => ⟨hst, i, ?_, hlp⟩
      exact (List.mem_cons.mp hi).resolve_left fun hik => hk (hik ▸ hlp)

/-- The four stacks of an Ashlar die (R237). -/
def stacksOfDie (d : Nat) : List Nat := [4 * d, 4 * d + 1, 4 * d + 2, 4 * d + 3]

theorem mem_stacksOfDie {c d : Nat} : c ∈ stacksOfDie d ↔ c / 4 = d := by
  simp only [stacksOfDie, List.mem_cons, List.not_mem_nil, or_false]
  omega

/-- A clock that is there stops while the package runs: what its kind takes. -/
theorem exec_refclkLoss {clk : Nat} {s : State} (hclk : clk ≤ 15) (hbit : bit s.board.clocksAbsent clk = false)
    (ha : alive s = true) : ∃ t : State,
      t = { s with board := { s.board with clocksAbsent := setBit s.board.clocksAbsent clk } } ∧
    exec (.refclkLoss clk) s = .next (
      if clk < 8 then (stacksOfDie clk).foldl (fun u c => loseStack c u) t
      else if clk < 14 then (List.range 16).foldl (fun u i => dropPort (16 * (clk - 8) + i) u) t
      else if clk = 14 then { t with mgmt := { t.mgmt with link := 0 } } else t) := by
  refine ⟨_, rfl, ?_⟩
  change execRefclkLoss clk s = _
  simp only [execRefclkLoss, hbit, ha, decide_eq_false (Nat.not_lt.mpr hclk), Bool.or_self, Bool.false_eq_true, if_false,
    Bool.not_true]
  rfl

/-- What the loss of a clock of SDS leaves alone. -/
theorem foldl_dropPort_frame (base : Nat) (l : List Nat) (s : State) :
    let t := l.foldl (fun u i => dropPort (base + i) u) s
    t.board = s.board ∧ t.part = s.part ∧ t.pending = s.pending ∧ t.mem = s.mem :=
  ⟨foldl_frame State.board _ (fun u i => by rw [dropPort_frame]) l s,
    foldl_frame State.part _ (fun u i => by rw [dropPort_frame]) l s,
    foldl_frame State.pending _ (fun u i => by rw [dropPort_frame]) l s,
      foldl_frame State.mem _ (fun u i => by rw [dropPort_frame]) l s⟩

theorem refclkReturn_clears {clk : Nat} {s : State} (h : clk < 15) :
    exec (.refclkReturn clk) s =
      .next { s with board := { s.board with clocksAbsent := clearBit s.board.clocksAbsent clk } } :=
  congrArg Host.Outcome.next (if_pos h)

/-- Settles O3: a clock of HBM filters the bytes of its stacks, one of SDS takes its ports down one by one. -/
theorem referenceClocksComeAndGo : Obligations.ReferenceClocksComeAndGo := by
  refine ⟨fun clk s hclk hbit ha => ?loss, fun clk s hclk => ?back⟩
  case loss =>
    obtain ⟨t, rfl, hexec⟩ := exec_refclkLoss hclk hbit ha
    have hset : bit (setBit s.board.clocksAbsent clk) clk = true := by rw [bit_setBit, beq_self_eq_true, Bool.true_or]
    refine ⟨_, hexec, ?_⟩
    by_cases h8 : clk < 8
    · rw [if_pos h8]
      refine ⟨hset, rfl, rfl, fun _ a hne => ?_, fun _ a heq => ?_, fun _ c hc => ?_, by omega, by omega, by omega⟩
      · exact (read_foldl_loseStack ..).trans (if_neg fun hmem => hne (mem_stacksOfDie.mp hmem))
      · exact (read_foldl_loseStack ..).trans (if_pos (mem_stacksOfDie.mpr heq))
      · exact lostStacks_foldl_loseStack _ (by omega) (.inl (mem_stacksOfDie.mpr hc))
    rw [if_neg h8]
    by_cases h14 : clk < 14
    · rw [if_pos h14]
      obtain ⟨hboard, hpart, hpending, hmem⟩ := foldl_dropPort_frame (16 * (clk - 8)) (List.range 16)
        { s with board := { s.board with clocksAbsent := setBit s.board.clocksAbsent clk } }
      rw [hboard, hpart, hpending, hmem]
      refine ⟨hset, rfl, rfl, by omega, by omega, by omega, fun _ => rfl, fun _ _ lp hlp hst => ?_, by omega⟩
      exact foldl_dropPort_down _ _ (.inr ⟨hst, lp % 16, List.mem_range.mpr (Nat.mod_lt _ (by decide)), by omega⟩)
    rw [if_neg h14]
    refine ⟨?_, ?_, ?_, by omega, by omega, by omega, fun _ => ?_, by omega, fun h => ?_⟩
    · split <;> exact hset
    · split <;> rfl
    · split <;> rfl
    · split <;> rfl
    · rw [if_pos h]
  case back =>
    refine ⟨_, refclkReturn_clears hclk, ?_, fun i hi => ?_, rfl⟩
    · exact (bit_clearBit ..).trans (by rw [beq_self_eq_true]; rfl)
    · exact (bit_clearBit ..).trans (by rw [beq_false_of_ne hi]; rfl)

end Sys2Proof.Machine

/-! ### The stage loader (R411–R415) -/

namespace Sys2Proof.Machine

theorem stepReached_alive {s : State} {p : Nat} (h : stepReached s p = true) : alive s = true := by
  simp only [stepReached, Bool.and_eq_true] at h
  exact h.1.1

/-- From s to t the boot block alone has changed, but for events on their way. -/
def OnlyBoot (s t : State) : Prop := t = { s with boot := t.boot, ev := t.ev, freeN := t.freeN }

theorem OnlyBoot.refl (s : State) : OnlyBoot s s := rfl

theorem OnlyBoot.trans {s t u : State} (h : OnlyBoot s t) (k : OnlyBoot t u) : OnlyBoot s u := by
  unfold OnlyBoot at *
  rw [k, h]

theorem imageMissing_onlyBoot (kind : Nat) (s : State) : OnlyBoot s (imageMissing kind s) := by
  unfold imageMissing
  split
  · exact .refl s
  · rfl

theorem tryImages_onlyBoot (kind : Nat) (l : List (Nat × Option Image)) (s : State) : OnlyBoot s (tryImages kind l s).2 := by
  induction l generalizing s with
  | nil => exact .refl s
  | cons x l ih =>
    obtain ⟨src, _ | i⟩ := x
    · exact OnlyBoot.trans (t := bootStatus _ kind s) rfl (ih _)
    · rw [tryImages]
      split
      · exact .refl s
      · exact OnlyBoot.trans (t := bootStatus _ kind s) rfl (ih _)

theorem fetchImage_onlyBoot (kind : Nat) (l : List (Nat × Option Image)) (s : State) : OnlyBoot s (fetchImage kind l s).2
    := by
  have h := tryImages_onlyBoot kind l s
  unfold fetchImage
  split
  · next src i t heq =>
    rw [heq] at h
    refine h.trans ?_
    split <;> rfl
  · next t heq =>
    rw [heq] at h
    exact h.trans (imageMissing_onlyBoot kind t)

/-- The first source holds a valid image: it is taken. -/
theorem fetchImage_first {kind src : Nat} {i : Image} {l : List (Nat × Option Image)} {s : State}
    (h : verifyImage s kind i = 0) (hsrc : src ≠ 1) :
    fetchImage kind ((src, some i) :: l) s = (some src, takeImage kind i s) := by
  simp only [fetchImage, tryImages, h, if_true, hsrc, if_false]

theorem exec_stageLoaderLoad {a b p : Option Image} {s : State} (hs : stepReached s 1 = true) (hsrc : bootSrc s =
    0 ∨ bootSrc s = 3) :
    exec (.stageLoaderLoad a b p) s = (match fetchImage 0 [(0, a), (1, b)] (atStep 2 false s) with
      | (some src, u) => .next { u with boot := { u.boot with phase := 3, stepDone := true, source := src } }
      | (none, u) => .next u) := by
  have h1 : bootSrc s ≠ 1 := by omega
  have h2 : (bootSrc s == 2) = false := beq_false_of_ne (by omega)
  have h2' : bootSrc s ≠ 2 := by omega
  change execStageLoaderLoad a b p s = _
  simp only [execStageLoaderLoad, hs, h1, h2, h2', Bool.true_or, Bool.not_true, Bool.and_false, Bool.false_and,
    Bool.false_eq_true, if_false, false_and] <;> rfl

/-- Settles O4: what the ROM does with each source; a fetch touches the boot block and raises events. -/
theorem stageLoaderIsFound : Obligations.StageLoaderIsFound := by
  refine ⟨fun i b p s hs hsrc => ?slotA, fun a b s hs hsrc => ?network, fun s hs hsrc => ?silent,
    fun lp s ha hup hserve => ?serve⟩
  case slotA =>
    have hexec := exec_stageLoaderLoad (a := some i) (b := b) (p := p) hs hsrc
    have hframe := fetchImage_onlyBoot 0 [(0, some i), (1, b)] (atStep 2 false s)
    by_cases hv : verifyImage (atStep 2 false s) 0 i = 0
    · rw [hexec, fetchImage_first hv (by decide)]
      exact ⟨_, rfl, fun _ => ⟨rfl, rfl, rfl, Tab.find_put_self ..⟩, rfl, rfl, rfl, rfl⟩
    · generalize fetchImage 0 [(0, some i), (1, b)] (atStep 2 false s) = r at hexec hframe
      obtain ⟨_ | src, u⟩ := r <;> dsimp only at hexec hframe
      · refine ⟨u, hexec, fun h => absurd h hv, ?_⟩
        rw [hframe]
        exact ⟨rfl, rfl, rfl, rfl⟩
      · refine ⟨_, hexec, fun h => absurd h hv, ?_⟩
        rw [hframe]
        exact ⟨rfl, rfl, rfl, rfl⟩
  case network =>
    have hexec : exec (.stageLoaderLoad a b none) s =
      .next { atStep 2 false s with boot := { (atStep 2 false s).boot with awaiting := some 0 } } := by
      change execStageLoaderLoad a b none s = _
      simp only [execStageLoaderLoad, hs, hsrc, Bool.true_or, Bool.not_true, Option.isSome_none, Bool.false_and,
        Bool.false_eq_true, if_false, if_true]
    exact ⟨_, hexec, rfl, rfl, rfl, rfl⟩
  case silent =>
    have hexec : exec .peerBootTimeout s = .next (bootStatus 6 0 (atStep 2 false (atLeast (s.time.now + 100000000) s))) := by
      change execPeerBootTimeout s = _
      rw [execPeerBootTimeout, hs, hsrc]
      rfl
    refine ⟨_, hexec, rfl, rfl, ?_, Nat.max_eq_right (Nat.le_add_right ..), ?_⟩
    · dsimp only [bootStatus]
      split <;> rfl
    · rfl
  case serve =>
    have hexec : exec (.peerBootRequest lp) s = .next (send (.bootImages lp (s.boot.images.cells.map (·.2))) s) := by
      change execPeerBootRequest lp s = _
      rw [execPeerBootRequest, outside, ha, hup, hserve]
      rfl
    exact ⟨_, hexec, rfl⟩

end Sys2Proof.Machine

/-! ### Masks and runs of numbered entries -/

namespace Sys2Proof.Machine

theorem bit_of_lt {x i : Nat} (h : x < 2 ^ i) : bit x i = false := by
  rw [bit_eq_div, Nat.div_eq_of_lt h]
  rfl

theorem bit_zero_left (i : Nat) : bit 0 i = false := bit_of_lt (Nat.two_pow_pos i)

theorem mask_lt (p : Nat → Bool) (n : Nat) : (List.range n).foldl (fun a d => if p d then a + 2 ^ d else a) 0 < 2 ^ n := by
  induction n with
  | zero => exact Nat.one_pos
  | succ n ih =>
    rw [List.range_succ, List.foldl_append, List.foldl_cons, List.foldl_nil, Nat.pow_succ]
    split <;> omega

/-- A mask that is summed up bit by bit has just the bits summed. -/
theorem bit_mask (p : Nat → Bool) (n d : Nat) :
    bit ((List.range n).foldl (fun a d => if p d then a + 2 ^ d else a) 0) d = (decide (d < n) && p d) := by
  induction n with
  | zero => exact bit_zero_left d
  | succ n ih =>
    have hclear := bit_of_lt (mask_lt p n)
    rw [List.range_succ, List.foldl_append, List.foldl_cons, List.foldl_nil]
    by_cases hd : d = n
    · subst hd
      cases hp : p d
      · rw [if_neg (by decide), hclear, Bool.and_false]
      · rw [if_pos rfl, bit_add_two_pow hclear, beq_self_eq_true, decide_eq_true (Nat.lt_succ_self d), Bool.true_or,
          Bool.true_and]
    · have hlt : decide (d < n + 1) = decide (d < n) := decide_eq_decide.mpr ⟨fun h => by omega, fun h => by omega⟩
      rw [hlt, ← ih]
      split
      · rw [bit_add_two_pow hclear, beq_false_of_ne hd, Bool.false_or]
      · rfl

section
variable {f : State → Nat → State} {base : Nat}

/-- A run of steps, each of which may change one numbered entry, leaves every entry out of its range. -/
theorem dv_foldl_range_outside (h : ∀ t d j, j ≠ base + d → dv (f t d) j = dv t j) (n : Nat) (s : State) {j : Nat}
    (hj : j < base ∨ base + n ≤ j) : dv ((List.range n).foldl f s) j = dv s j := by
  induction n with
  | zero => rfl
  | succ n ih =>
    rw [List.range_succ, List.foldl_append, List.foldl_cons, List.foldl_nil, h _ _ _ (by omega), ih (by omega)]

/-- What its own step has put into a numbered entry stays there. -/
theorem dv_foldl_range (h : ∀ t d j, j ≠ base + d → dv (f t d) j = dv t j) {n d v : Nat} (s : State) (hd : d < n)
    (hv : ∀ t, dv (f t d) (base + d) = v) : dv ((List.range n).foldl f s) (base + d) = v := by
  induction n with
  | zero => exact absurd hd (Nat.not_lt_zero d)
  | succ n ih =>
    rw [List.range_succ, List.foldl_append, List.foldl_cons, List.foldl_nil]
    rcases Nat.lt_succ_iff_lt_or_eq.mp hd with hlt | rfl
    · rw [h _ _ _ (by omega), ih hlt]
    · exact hv _

end

end Sys2Proof.Machine

/-! ### The Sett self-test and HBM training (R11–R13, R250) -/

namespace Sys2Proof.Machine

theorem bit_mod_two_pow {i n : Nat} (x : Nat) (h : i < n) : bit (x % 2 ^ n) i = bit x i := by
  simp only [bit_eq_testBit, Nat.testBit_mod_two_pow, h, decide_true, Bool.true_and]

theorem bit_heldBy (failed d : Nat) : bit (heldBy failed) d =
    (decide (d < 10) && (setBitsOf 18 failed).any fun l => (linkEnds l).1 == d || (linkEnds l).2 == d) :=
  bit_mask _ 10 d

theorem bit_heldBy_of_end {failed l d : Nat} (hl : l < 18) (hd : d < 10) (hf : bit failed l = true)
    (hend : (linkEnds l).1 = d ∨ (linkEnds l).2 = d) : bit (heldBy failed) d = true := by
  rw [bit_heldBy, decide_eq_true hd, Bool.true_and, List.any_eq_true]
  refine ⟨l, List.mem_filter.mpr ⟨List.mem_range.mpr hl, hf⟩, ?_⟩
  rcases hend with h | h
  · rw [h, beq_self_eq_true, Bool.true_or]
  · rw [h, beq_self_eq_true, Bool.or_true]

theorem bit_stackFails (s : State) (best : List Nat) (c : Nat) : bit (stackFails s best) c =
    (decide (c < 32) && (decide (2 < best.getD c 3) || bit s.board.clocksAbsent (c / 4))) :=
  bit_mask _ 32 c

theorem eq_zero_of_bits {x : Nat} (h : ∀ i, bit x i = false) : x = 0 :=
  Nat.eq_of_testBit_eq fun i => by rw [← bit_eq_testBit, h, Nat.zero_testBit]

theorem stackFails_eq_zero {best : List Nat} {s : State} (hb : ∀ c, c < 32 → best.getD c 3 ≤ 2)
    (hc : ∀ d, d < 8 → bit s.board.clocksAbsent d = false) : stackFails s best = 0 := by
  refine eq_zero_of_bits fun c => ?_
  rw [bit_stackFails]
  by_cases h : c < 32
  · rw [hc _ (by omega), decide_eq_false (Nat.not_lt.mpr (hb c h)), Bool.or_self, Bool.and_false]
  · rw [decide_eq_false h, Bool.false_and]

/-- The rates of the stacks that pass are put into the dictionary, and the map of those that fail. -/
def trained (fails : Nat) (best : List Nat) (s : State) : State :=
  (List.range 32).foldl (fun u c => if bit fails c then u else setDv (K.hbmRate + c) (max (dv s K.hbmRateMax) (best.getD
    c 0)) u)
    (setDv K.stackFailMap fails s)

theorem trained_eq (fails : Nat) (best : List Nat) (s : State) :
    trained fails best s = { s with dict := (trained fails best s).dict } := by
  refine foldl_keeps (fun u => u = { s with dict := u.dict }) _ (fun t c h => ?_) _ _ rfl
  split
  · exact h
  · rw [h]
    rfl

theorem dv_trained_of_ne {best : List Nat} {s : State} (t : State) (c j : Nat) (h : j ≠ K.hbmRate + c) (fails : Nat) :
    dv (if bit fails c then t else setDv (K.hbmRate + c) (max (dv s K.hbmRateMax) (best.getD c 0)) t) j = dv t j := by
  split
  · rfl
  · exact dv_setDv_of_ne t _ h

theorem dv_trained_failMap (fails : Nat) (best : List Nat) (s : State) :
    dv (trained fails best s) K.stackFailMap = fails := by
  rw [trained, dv_foldl_range_outside (fun t c j h => dv_trained_of_ne t c j h fails) 32 _ (by decide), dv_setDv_self]

theorem dv_trained_rate {best : List Nat} {s : State} {c : Nat} (hc : c < 32) :
    dv (trained 0 best s) (K.hbmRate + c) = max (dv s K.hbmRateMax) (best.getD c 0) := by
  rw [trained]
  exact dv_foldl_range (fun t c j h => dv_trained_of_ne t c j h 0) _ hc fun t => by
    rw [bit_zero_left, if_neg Bool.false_ne_true, dv_setDv_self]

theorem exec_hbmTraining {best : List Nat} {s : State} (h : stepReached s 5 = true) :
    exec (.hbmTraining best) s = .next (
      if stackFails s best ≠ 0 then { atStep 6 false (trained (stackFails s best) best s) with pkg := .defect }
      else storeWaiting (atStep 7 true (clearFirmware (trained (stackFails s best) best s)))) := by
  change execHbmTraining best s = _
  rw [execHbmTraining, h]
  rfl

theorem storeWaiting_of_none {s : State} (h : s.ev.waiting = []) : storeWaiting s = s := by
  rw [storeWaiting, h]
  rfl

theorem clearFirmware_dict (s : State) : (clearFirmware s).dict = s.dict := rfl

theorem dv_defect (p : Nat) (d : Bool) (s : State) (k : Nat) : dv { atStep p d s with pkg := .defect } k = dv s k :=
  dv_congr rfl k

/-- What clears the firmware's memory zeros the bytes below 4 GiB. -/
theorem read_clearFirmware (s : State) (a : Nat) :
    Memory.read (clearFirmware s).mem.hbm a = if decide (2 ^ 32 ≤ a) then Memory.read s.mem.hbm a else 0#8 :=
  Memory.read_filter (fun x => decide (2 ^ 32 ≤ x)) s.mem.hbm a

theorem exec_settSelfTest {failed : Nat} {s : State} (h : stepReached s 3 = true) :
    exec (.settSelfTest failed) s = .next { s with
      boot := { s.boot with phase := 4, stepDone := failed % 2 ^ 18 == 0 }
      settFail := failed % 2 ^ 18
      diesHeld := heldBy (failed % 2 ^ 18)
      pkg := if failed % 2 ^ 18 = 0 then s.pkg else .defect } := by
  change execSettSelfTest failed s = _
  simp only [execSettSelfTest, h, Bool.not_true, Bool.false_eq_true, if_false]
  split <;> rfl

/-- Settles O5: masks have the bits that are summed, and training writes one entry for each stack. -/
theorem linksAndHbmAreTested : Obligations.LinksAndHbmAreTested := by
  refine ⟨fun failed s h => ?links, fun best s h hev hbest hclk => ?pass, fun best s c h hc hbest => ?fail⟩
  case links =>
    refine ⟨_, exec_settSelfTest h, rfl, rfl, fun h0 => ?_, fun h0 => ?_, fun l d hl hd hf hend => ?_, fun d hd => ?_, rfl⟩
    · dsimp only
      rw [h0]
      exact ⟨rfl, rfl, rfl⟩
    · exact ⟨if_neg h0, beq_false_of_ne h0⟩
    · exact bit_heldBy_of_end hl hd ((bit_mod_two_pow failed hl).trans hf) hend
    · exact (bit_heldBy ..).trans (by rw [decide_eq_false (Nat.not_lt.mpr hd), Bool.false_and])
  case pass =>
    have h0 : stackFails s best = 0 := stackFails_eq_zero hbest hclk
    have ht := trained_eq 0 best s
    have hexec := exec_hbmTraining (best := best) h
    rw [h0, if_neg (fun hne => hne rfl), storeWaiting_of_none (by rw [atStep, clearFirmware, ht]; exact hev)] at hexec
    have hdv (k : Nat) : dv (atStep 7 true (clearFirmware (trained 0 best s))) k = dv (trained 0 best s) k :=
      dv_congr ((atStep_dict ..).trans (clearFirmware_dict _)) k
    refine ⟨_, hexec, rfl, rfl, by rw [atStep_pkg, clearFirmware, ht], (hdv _).trans (dv_trained_failMap ..),
      fun c hc => (hdv _).trans (dv_trained_rate hc), fun a ha => ?_, fun a ha => ?_⟩
    · exact (read_clearFirmware ..).trans (by rw [decide_eq_false (by omega)]; rfl)
    · exact (read_clearFirmware ..).trans (by rw [decide_eq_true ha, ht]; rfl)
  case fail =>
    have hbit : bit (stackFails s best) c = true := by
      rw [bit_stackFails, decide_eq_true hc, decide_eq_true hbest, Bool.true_or, Bool.true_and]
    have h0 : stackFails s best ≠ 0 := fun h0 => by rw [h0, bit_zero_left] at hbit; cases hbit
    have hexec := exec_hbmTraining (best := best) h
    rw [if_pos h0] at hexec
    refine ⟨_, hexec, rfl, ?_, ?_⟩
    · rw [dv_defect, dv_trained_failMap, hbit]
    · rw [trained_eq]
      rfl

end Sys2Proof.Machine

/-! ### The dictionary's writes (O38) -/

namespace Sys2Proof.Machine

theorem dv_refuseWrite (src key code j : Nat) (s : State) :
    dv (refuseWrite src key code s) j = dv (sumErr 12 (setDv K.dictLastRefused
      (key / 256 + key % 256 * 2 ^ 16 + code * 2 ^ 24 + src * 2 ^ 32) (bump K.dictRefused 1 s))) j := by
  simp only [refuseWrite]
  rw [dv_congr (raise_dict ..)]

theorem raise_inFlight (code o a b : Nat) (s : State) :
    ∃ e, e ∈ (raise code o a b s).ev.inFlight ∧ e.code = code ∧ e.source = o :=
  ⟨_, List.mem_append_right _ (List.mem_singleton.2 rfl), rfl, rfl⟩

/-- What a refused write leaves: the record of it, its bit of ERR_SUMMARY and its event. -/
theorem refuseWrite_records (src key code : Nat) (s : State) :
    dv (refuseWrite src key code s) K.dictLastRefused = key / 256 + key % 256 * 2 ^ 16 + code * 2 ^ 24 + src * 2 ^ 32 ∧
    bit (dv (refuseWrite src key code s) K.errSummary) 12 = true ∧
    ∃ e, e ∈ (refuseWrite src key code s).ev.inFlight ∧ e.code = 0x60 ∧ e.source = 10 := by
  refine ⟨?_, ?_, ?_⟩
  · rw [dv_refuseWrite, sumErr, dv_setDv_of_ne _ _ (by decide), dv_setDv_self]
  · rw [dv_refuseWrite, sumErr, dv_setDv_self, bit_setBit, beq_self_eq_true, Bool.true_or]
  · exact raise_inFlight ..

theorem exec_lockSet (src g v : Nat) (s : State) :
    exec (.lockSet src g v) s = outside s (scalarWrite src (K.lockState + g) v s).2 := rfl

theorem outside_of_alive {s : State} (h : alive s = true) (t : State) : outside s t = .next t := by
  rw [outside, h, if_pos rfl]

/-- The entry of a lock: a BOOL of one byte that firmware may set and only its own lock guards. -/
theorem entryOf_lock {g : Nat} (h1 : 1 ≤ g) (h6 : g ≤ 6) :
    entryOf (K.lockState + g) = some ⟨K.lockState + g, K.lockState + g, 6, 4, g, 1, 0, 1⟩ := by
  rcases (by omega : g = 1 ∨ g = 2 ∨ g = 3 ∨ g = 4 ∨ g = 5 ∨ g = 6) with rfl | rfl | rfl | rfl | rfl | rfl <;> decide +kernel

theorem scalarAct_lock {g : Nat} (h1 : 1 ≤ g) (h6 : g ≤ 6) (v : Nat) (s : State) :
    scalarAct (K.lockState + g) v s = (0, if v = 1 then setDv (K.lockState + g) 1 s else s) := by
  rcases (by omega : g = 1 ∨ g = 2 ∨ g = 3 ∨ g = 4 ∨ g = 5 ∨ g = 6) with rfl | rfl | rfl | rfl | rfl | rfl <;> rfl

/-- With a value of the entry's type, a scalar's commit is the commit of its rule on the bits that are not reserved. -/
theorem commitScalar_of_entry {key v : Nat} {r : EntryRow} (he : entryOf key = some r) (hv : r.ty = 6 → v ≤ 1) (src : Nat)
    (act : Nat → State → WriteResult) (s : State) :
    commitScalar src key v act s = commit src key (act (v &&& r.mask)) s := by
  have hty : ¬(r.ty = 6 ∧ v > 1) := fun h => by
    have := hv h.1
    omega
  simp only [commitScalar, he, hty, if_false]

/-- A write of 1 or 0 to a lock that may be written. -/
theorem scalarWrite_lock {src g v : Nat} {s : State} (h1 : 1 ≤ g) (h6 : g ≤ 6) (hv : v ≤ 1)
    (hw : writeCheck s (K.lockState + g) = 0) :
    scalarWrite src (K.lockState + g) v s = (0, acceptWrite (if v = 1 then setDv (K.lockState + g) 1 s else s)) := by
  have hkey : ¬(0x940000 ≤ K.lockState + g ∧ K.lockState + g < 0x980000 ∧ (K.lockState + g) % 256 = 10) := by
    have : K.lockState = 0x500000 := rfl
    omega
  have hmask : v &&& 1 = v := by rcases (by omega : v = 0 ∨ v = 1) with rfl | rfl <;> rfl
  have hact := scalarAct_lock h1 h6 v s
  rw [scalarWrite, if_neg hkey, commitScalar_of_entry (entryOf_lock h1 h6) fun _ => hv, hmask,
    commit_accepted _ _ _ s hw (by rw [hact]), hact]

/-- An entry of a group whose lock is set refuses LOCKED. -/
theorem writeCheck_locked {key : Nat} {r : EntryRow} {s : State} (he : entryOf key = some r) (hs : served s key = true)
    (ha : r.acc = 4) (hl : r.lock ≠ 0) (hset : dv s (K.lockState + r.lock) = 1) (hk : key ≠ K.localGib) :
    writeCheck s key = 2 := by
  have hlocked : isLocked s r.lock = true := by simp [isLocked, hl, hset]
  simp only [writeCheck, hs, he, ha, hk, hlocked, if_true, false_and, if_false]
  decide

theorem ofBytes_toBytes (n v : Nat) : ofBytes (toBytes n v) = v % 2 ^ (8 * n) := by
  induction n generalizing v with
  | zero => simp [toBytes, ofBytes, Nat.mod_one]
  | succ n ih =>
    rw [toBytes, ofBytes, ih, BitVec.toNat_ofNat, show 8 * (n + 1) = 8 + 8 * n by omega, Nat.pow_add, Nat.mod_mul]

theorem toBytes_length (n v : Nat) : (toBytes n v).length = n := by
  induction n generalizing v with
  | zero => rfl
  | succ n ih => rw [toBytes, List.length_cons, ih]

/-- A scalar's write is the commit of its entry's rule on the value's own bits. -/
theorem valueWrite_scalar {key : Nat} {r : EntryRow} (he : entryOf key = some r) (hb : isBlob key = false)
    (hd : ¬(0x940000 ≤ key ∧ key < 0x980000 ∧ key % 256 = 10)) (src v : Nat) (s : State) :
    valueWrite src key (toBytes (sizeOf key) v) s = commitScalar src key (v % 2 ^ (8 * r.size)) (scalarAct key) s := by
  have hsize : sizeOf key = r.size := by rw [sizeOf, he]
  rw [valueWrite, hb, if_neg Bool.false_ne_true, toBytes_length, bne_self_eq_false, Bool.and_false,
    if_neg Bool.false_ne_true, scalarWrite, if_neg hd, ofBytes_toBytes, hsize]

/-- A scalar that meets the entry's own refusal is recorded and changes nothing else. -/
theorem valueWrite_refused {key : Nat} {s : State} (hb : isBlob key = false) (hw : writeCheck s key ≠ 0) (src v : Nat) :
    (valueWrite src key (toBytes (sizeOf key) v) s).2 = refuseWrite src key (writeCheck s key) s := by
  rw [valueWrite, hb, if_neg Bool.false_ne_true, toBytes_length, bne_self_eq_false, Bool.and_false,
    if_neg Bool.false_ne_true, scalarWrite]
  split
  next hbell =>
    have hkey : qKey (key / 256 - 0x9400) 10 = key := by
      rw [qKey]
      omega
    rw [commitDoorbell]
    simp only [hkey, hw, ne_eq, not_false_eq_true, true_or, if_true]
    rw [commitScalar, commit_refused _ _ _ _ hw]
  · rw [commitScalar, commit_refused _ _ _ _ hw]

/-- Settles O38: a write that the entry allows is its rule's commit; a refusal is one record, bit and event. -/
theorem dictionaryWritesAreDecided : Obligations.DictionaryWritesAreDecided := by
  refine ⟨fun src key v r s hw he hb hd hty => ?scalar, fun src key v s ha hb hw => ?refused,
    fun src key code s => ⟨refuseWrite_onlyRecords src key code s, refuseWrite_records src key code s⟩,
    fun src g s h1 h6 hw => ?lock, fun key r s he hs ha hl hset hk => writeCheck_locked he hs ha hl hset hk⟩
  case scalar =>
    obtain ⟨ha, hc⟩ := hw
    have hwrite := (valueWrite_scalar he hb hd src v s).trans (commitScalar_of_entry he hty src (scalarAct key) s)
    have hexec : exec (.dictWrite src key v) s = .next (valueWrite src key (toBytes (sizeOf key) v) s).2 :=
      outside_of_alive ha _
    rw [hexec, hwrite]
    refine ⟨fun h => ?_, fun h => ?_⟩
    · rw [commit_accepted _ _ _ s hc h]
    · rw [commit_turned_away _ _ _ s hc h]
  case refused =>
    have hexec : exec (.dictWrite src key v) s = .next (valueWrite src key (toBytes (sizeOf key) v) s).2 :=
      outside_of_alive ha _
    rw [hexec, valueWrite_refused hb hw]
  case lock =>
    obtain ⟨ha, hc⟩ := hw
    rw [exec_lockSet, exec_lockSet, outside_of_alive ha, outside_of_alive ha, scalarWrite_lock h1 h6 (by decide) hc,
      scalarWrite_lock h1 h6 (by decide) hc]
    exact ⟨rfl, rfl⟩

end Sys2Proof.Machine

/-! ### Boot ends (O7) -/

namespace Sys2Proof.Machine

/-- A core that has just been started. -/
theorem medlarOf_startCore_self (entry bootInfo c : Nat) (s : State) :
    medlarOf (startCore entry bootInfo c s) c = { Medlar.fresh with
      running := true, pc := BitVec.ofNat 64 entry, trapVec := BitVec.ofNat 64 entry
      g := (Medlar.fresh.g.set 0#64 1 (BitVec.ofNat 64 c)).set 0#64 2 (BitVec.ofNat 64 bootInfo) } :=
  medlarOf_setMedlar_self ..

theorem medlarOf_startCore_of_ne (entry bootInfo : Nat) {c d : Nat} (s : State) (h : d ≠ c) :
    medlarOf (startCore entry bootInfo c s) d = medlarOf s d :=
  medlarOf_setMedlar_of_ne _ s h

theorem medlarOf_foldl_startCore_of_notMem (entry bootInfo : Nat) {d : Nat} {l : List Nat} (s : State) (h : d ∉ l) :
    medlarOf (l.foldl (fun u c => startCore entry bootInfo c u) s) d = medlarOf s d := by
  induction l generalizing s with
  | nil => rfl
  | cons c l ih =>
    rw [List.mem_cons, not_or] at h
    exact (ih _ h.2).trans (medlarOf_startCore_of_ne entry bootInfo s h.1)

theorem medlarOf_foldl_startCore_of_mem (entry bootInfo : Nat) {d : Nat} {l : List Nat} (s : State) (h : d ∈ l) :
    medlarOf (l.foldl (fun u c => startCore entry bootInfo c u) s) d = { Medlar.fresh with
      running := true, pc := BitVec.ofNat 64 entry, trapVec := BitVec.ofNat 64 entry
      g := (Medlar.fresh.g.set 0#64 1 (BitVec.ofNat 64 d)).set 0#64 2 (BitVec.ofNat 64 bootInfo) } := by
  induction l generalizing s with
  | nil => cases h
  | cons c l ih =>
    by_cases hl : d ∈ l
    · exact ih _ hl
    · obtain rfl : d = c := (List.mem_cons.1 h).resolve_right hl
      rw [List.foldl_cons, medlarOf_foldl_startCore_of_notMem _ _ _ hl]
      exact medlarOf_startCore_self ..

theorem exec_runtimeStart {fwPage winPage bootInfo : Nat} {s : State} (hs : stepReached s 10 = true)
    (h0 : segValid (segOf (loadContext0 fwPage winPage s) 0 0).raw = true)
    (h1 : segValid (segOf (loadContext0 fwPage winPage s) 0 1).raw = true)
    (hlo : fwPage * 2 ^ 21 ≤ bootInfo) (hhi : bootInfo + 4096 ≤ fwPage * 2 ^ 21 + 2 ^ 31) :
    exec (.runtimeStart fwPage winPage bootInfo) s = .next (atStep 11 true
      (((setBitsOf 192 s.part.coreMask).filter fun c => dieUp s (dieOfCore c)).foldl
        (fun u c => startCore (fwPage * 2 ^ 21 + (s.boot.runtimeAt - 2 ^ 31) + fld (runningHeader s 3) 24 8) bootInfo c u)
        (loadContext0 fwPage winPage s))) := by
  change execRuntimeStart fwPage winPage bootInfo s = _
  simp only [execRuntimeStart, hs, h0, h1, hlo, hhi, decide_true, Bool.and_self, Bool.not_true, Bool.false_eq_true, if_false]

/-- A lock that boot sets changes records alone. -/
theorem scalarWrite_lock_onlyRecords {src g : Nat} (h1 : 1 ≤ g) (h6 : g ≤ 6) (s : State) :
    OnlyRecords s (scalarWrite src (K.lockState + g) 1 s).2 := by
  by_cases hw : writeCheck s (K.lockState + g) = 0
  · rw [scalarWrite_lock h1 h6 (by decide) hw]
    rfl
  · have hkey : ¬(0x940000 ≤ K.lockState + g ∧ K.lockState + g < 0x980000 ∧ (K.lockState + g) % 256 = 10) := by
      have : K.lockState = 0x500000 := rfl
      omega
    rw [scalarWrite, if_neg hkey, commitScalar, commit_refused _ _ _ _ hw]
    exact refuseWrite_onlyRecords ..

theorem setBootLocks_onlyRecords (s : State) : OnlyRecords s (setBootLocks s) := by
  have hg : ∀ (b : Bool) (g : Nat), 1 ≤ g → g ≤ 6 → ∀ t, OnlyRecords s t →
      OnlyRecords s (if b then (scalarWrite 3 (K.lockState + g) 1 t).2 else t) := by
    intro b g h1 h6 t ht
    cases b
    · exact ht
    · exact ht.trans (scalarWrite_lock_onlyRecords h1 h6 t)
  exact hg _ 1 (by decide) (by decide) _ (hg _ 2 (by decide) (by decide) _ (hg _ 3 (by decide) (by decide) _
    (hg _ 6 (by decide) (by decide) _ (hg _ 5 (by decide) (by decide) _ (hg _ 4 (by decide) (by decide) _ (.refl s))))))

theorem exec_bootDone {s : State} (hs : stepReached s 11 = true) :
    let t := setBootLocks (atStep 12 true s)
    let restricted := t.boot.judgedRestricted && !t.boot.overridden
    let u : State := { t with pkg := if restricted then .restricted else .ready
                              time := { t.time with bootFrozen := some (t.time.now - t.time.epoch) } }
    let v := raise 0x1 10 (pkgCode u.pkg) 0 u
    exec .bootDone s = .next (if restricted then raise 0x3 10 (blockValue v K.mismatch) 0 v else v) := by
  change execBootDone s = _
  rw [execBootDone, hs]
  rfl

/-- What boot's end leaves: the state it reaches, its frozen time and its event. -/
theorem bootDone_state {s : State} (hs : stepReached s 11 = true) :
    ∃ t, exec .bootDone s = .next t ∧ OnlyRecords { s with
        boot := { s.boot with phase := 12, stepDone := true }
        pkg := if s.boot.judgedRestricted && !s.boot.overridden then .restricted else .ready
        time := { s.time with bootFrozen := some (s.time.now - s.time.epoch) } } t ∧
      ∃ e, e ∈ t.ev.inFlight ∧ e.code = 0x1 ∧ e.source = 10 ∧ e.arg0 = pkgCode t.pkg := by
  have hl := setBootLocks_onlyRecords (atStep 12 true s)
  have hexec := exec_bootDone hs
  obtain ⟨d, ev, n, hu⟩ : ∃ d ev n, setBootLocks (atStep 12 true s) = { atStep 12 true s with dict := d, ev := ev, freeN := n } :=
    ⟨_, _, _, hl⟩
  rw [hu] at hexec
  have harg : ∀ p : PkgState, pkgCode p % 2 ^ 64 = pkgCode p := fun p => by cases p <;> rfl
  cases hr : s.boot.judgedRestricted && !s.boot.overridden
  · simp only [atStep, hr, Bool.false_eq_true, if_false] at hexec
    exact ⟨_, hexec, rfl, _, List.mem_append_right _ (List.mem_singleton.2 rfl), rfl, rfl, harg _⟩
  · simp only [atStep, hr, if_true] at hexec
    exact ⟨_, hexec, rfl, _, List.mem_append_left _ (List.mem_append_right _ (List.mem_singleton.2 rfl)), rfl, rfl, harg _⟩

theorem exec_settStall {link since : Nat} {rev : Bool} {s : State} (hl : link < 18) (ha : alive s = true) :
    exec (.settStall link rev since) s =
      if bit s.settStalled (2 * link + (if rev then 1 else 0)) then .next s
      else .next (raise 0x10 (if rev then (linkEnds link).2 else (linkEnds link).1)
        (stallMap (sumErr 0 { atLeast (min since s.time.now + dv s K.settStallNs) s with
          settStalled := setBit s.settStalled (2 * link + (if rev then 1 else 0)) })) link
        (sumErr 0 { atLeast (min since s.time.now + dv s K.settStallNs) s with
          settStalled := setBit s.settStalled (2 * link + (if rev then 1 else 0)) })) := by
  change execSettStall link rev since s = _
  rw [execSettStall, ha]
  simp only [Nat.not_le.2 hl, decide_false, Bool.not_true, Bool.or_self, Bool.false_eq_true, if_false]
  rfl

/-- The state in which the beat-rate counters are read. -/
def beatsRead (s : State) : State :=
  { atLeast (s.weigh.beatAt + 10000) s with
    weigh := { s.weigh with beatAt := (atLeast (s.weigh.beatAt + 10000) s).time.now } }

/-- One die's counter takes the value read. -/
def takeBeat (rates : List Nat) (t : State) (d : Nat) : State :=
  match rates[d]? with
  | some r => setDv (K.beatRate + d) (r % 2 ^ 32) t
  | none => t

theorem exec_beatRateUpdate {s : State} (rates : List Nat) (ha : alive s = true) :
    exec (.beatRateUpdate rates) s = .next ((List.range 11).foldl (takeBeat rates) (beatsRead s)) := by
  change execBeatRateUpdate rates s = _
  rw [execBeatRateUpdate, when_, if_pos ha]
  rfl

theorem takeBeat_onlyRecords (rates : List Nat) (t : State) (d : Nat) : OnlyRecords t (takeBeat rates t d) := by
  unfold takeBeat
  split <;> rfl

/-- Settles O7: the cores that start, boot's end, a stalled direction and the beat-rate counters. -/
theorem bootEndsAndTheDiesReport : Obligations.BootEndsAndTheDiesReport := by
  refine ⟨fun fwPage winPage bootInfo s hs h0 h1 hlo hhi => ?runtime, fun s hs => ?done,
    fun link since rev s hl ha hb => ?stall, fun link since rev s hl ha hb => ?again, fun rates s ha => ?beats⟩
  case runtime =>
    refine ⟨_, exec_runtimeStart hs h0 h1 hlo hhi, rfl, rfl, fun c hc hmask hup => ?_, fun c hmask => ?_⟩
    · have hmem : c ∈ (setBitsOf 192 s.part.coreMask).filter fun c => dieUp s (dieOfCore c) :=
        List.mem_filter.2 ⟨List.mem_filter.2 ⟨List.mem_range.2 hc, hmask⟩, hup⟩
      have h := medlarOf_foldl_startCore_of_mem
        (fwPage * 2 ^ 21 + (s.boot.runtimeAt - 2 ^ 31) + fld (runningHeader s 3) 24 8) bootInfo
        (loadContext0 fwPage winPage s) hmem
      have hm : ∀ t, medlarOf (atStep 11 true t) c = medlarOf t c := fun t => rfl
      rw [hm, h]
      exact ⟨rfl, rfl, rfl, (Tab.get_set_of_ne _ _ _ (by decide)).trans (Tab.get_set_self ..), Tab.get_set_self ..⟩
    · refine medlarOf_foldl_startCore_of_notMem _ _ _ fun hmem => ?_
      rw [(List.mem_filter.1 (List.mem_filter.1 hmem).1).2] at hmask
      cases hmask
  case done =>
    obtain ⟨t, hexec, hrec, e, he, hcode, hsrc, harg⟩ := bootDone_state hs
    have hpkg := hrec.pkg
    refine ⟨t, hexec, congrArg Boot.phase hrec.boot, congrArg Boot.stepDone hrec.boot, congrArg TimeS.bootFrozen hrec.time,
      fun h => ?_, fun h h' => ?_, fun h h' => ?_, ⟨e, he, hcode, hsrc, harg⟩, hrec.mem, hrec.medlars, hrec.part⟩
    · rw [hpkg, h]; rfl
    · rw [hpkg, h, h']; rfl
    · rw [hpkg, h, h']; rfl
  case stall =>
    refine ⟨_, _, (exec_settStall hl ha).trans (if_neg (by rw [hb]; exact Bool.false_ne_true)), ?_, fun i hi => ?_, ?_, rfl, rfl,
      rfl, rfl⟩
    · exact (bit_setBit ..).trans (by rw [beq_self_eq_true, Bool.true_or])
    · exact (bit_setBit ..).trans (by rw [beq_eq_false_iff_ne.2 hi, Bool.false_or])
    · rw [dv_congr (raise_dict ..), sumErr, dv_setDv_self, bit_setBit, beq_self_eq_true, Bool.true_or]
  case again =>
    rw [exec_settStall hl ha, if_pos hb]
  case beats =>
    have hother : ∀ t d j, j ≠ K.beatRate + d → dv (takeBeat rates t d) j = dv t j := fun t d j hj => by
      unfold takeBeat
      split
      · exact dv_setDv_of_ne _ _ hj
      · rfl
    have hrec : OnlyRecords (beatsRead s) ((List.range 11).foldl (takeBeat rates) (beatsRead s)) :=
      foldl_keeps (OnlyRecords (beatsRead s)) _ (fun t d ht => ht.trans (takeBeat_onlyRecords rates t d)) _ _ (.refl _)
    refine ⟨_, exec_beatRateUpdate rates ha, fun d r hd hr => ?_, hrec.time, ?_⟩
    · refine dv_foldl_range hother (beatsRead s) hd fun t => ?_
      rw [takeBeat, hr]
      exact dv_setDv_self ..
    · rw [hrec.time]
      exact hrec

end Sys2Proof.Machine

/-! ### Elements and lanes of registers -/

namespace Sys2Proof.Machine

theorem mergeEls_lt (n old : Nat) (take : Nat → Bool) (f : Nat → Nat) (k : Nat) : mergeEls n old take f k < 2 ^ (n * k) := by
  induction k with
  | zero => simp [mergeEls]
  | succ k ih =>
    have hv : (if take k then f k % 2 ^ n else bits old (n * k) n) < 2 ^ n := by
      split
      · exact Nat.mod_lt _ (Nat.two_pow_pos n)
      · exact bits_lt ..
    rw [mergeEls, Nat.mul_succ, Nat.pow_add]
    calc _ < 2 ^ (n * k) + (if take k then f k % 2 ^ n else bits old (n * k) n) * 2 ^ (n * k) := Nat.add_lt_add_right ih _
      _ = ((if take k then f k % 2 ^ n else bits old (n * k) n) + 1) * 2 ^ (n * k) := by rw [Nat.succ_mul, Nat.add_comm]
      _ ≤ 2 ^ n * 2 ^ (n * k) := Nat.mul_le_mul_right _ hv
      _ = _ := Nat.mul_comm ..

/-- An element of a merge is the new one where it is taken, and the old one elsewhere. -/
theorem bits_mergeEls (n old : Nat) (take : Nat → Bool) (f : Nat → Nat) {k i : Nat} (h : i < k) :
    bits (mergeEls n old take f k) (n * i) n = if take i then f i % 2 ^ n else bits old (n * i) n := by
  induction k with
  | zero => exact absurd h (Nat.not_lt_zero i)
  | succ k ih =>
    rw [mergeEls]
    rcases Nat.lt_succ_iff_lt_or_eq.1 h with hlt | rfl
    · have : n * i + n ≤ n * k := by
        rw [← Nat.mul_succ]
        exact Nat.mul_le_mul_left n hlt
      rw [bits_add_above _ _ this, ih hlt]
    · refine bits_add_top (mergeEls_lt ..) ?_
      split
      · exact Nat.mod_lt _ (Nat.two_pow_pos n)
      · exact bits_lt ..

/-- The elements of a register that has been merged. -/
theorem bits_ofNat_mergeEls (m n old : Nat) (take : Nat → Bool) (f : Nat → Nat) {k i : Nat} (h : i < k) (hk : n * k ≤ m) :
    bits (BitVec.ofNat m (mergeEls n old take f k)).toNat (n * i) n =
      if take i then f i % 2 ^ n else bits old (n * i) n := by
  rw [BitVec.toNat_ofNat, Nat.mod_eq_of_lt (Nat.lt_of_lt_of_le (mergeEls_lt ..) (Nat.pow_le_pow_right (by decide) hk)),
    bits_mergeEls _ _ _ _ h]

/-! Medlar cores -/

theorem mvEl_setMv_self {d w i : Nat} (f : Nat → Nat) (m : Medlar) (h : i < 512 / w) :
    mvEl (setMv d w f m) w d i = f i % 2 ^ w := by
  have hk : w * (512 / w) ≤ 512 := Nat.mul_div_le 512 w
  rw [mvEl, mvReg, setMv, Tab.get_set_self, bits_ofNat_mergeEls _ _ _ _ _ h hk, if_pos rfl]

theorem v_setMv_of_ne {d r : Nat} (w : Nat) (f : Nat → Nat) (m : Medlar) (h : r ≠ d) :
    (setMv d w f m).v.get 0#512 r = m.v.get 0#512 r := Tab.get_set_of_ne _ _ _ h

theorem mvEl_setMv_of_ne {d r : Nat} (w n i : Nat) (f : Nat → Nat) (m : Medlar) (h : r ≠ d) :
    mvEl (setMv d w f m) n r i = mvEl m n r i := by rw [mvEl, mvReg, v_setMv_of_ne w f m h, mvEl, mvReg]

theorem mvEl_lt (m : Medlar) (w r i : Nat) : mvEl m w r i < 2 ^ w := bits_lt ..

theorem gReg_lt (m : Medlar) (r : Nat) : gReg m r < 2 ^ 64 := (m.g.get 0#64 r).isLt

theorem gReg_setG (r x : Nat) (m : Medlar) : gReg (setG r x m) r = x % 2 ^ 64 := by
  rw [gReg, setG, Tab.get_set_self, BitVec.toNat_ofNat]

theorem g_setG_of_ne {d r : Nat} (x : Nat) (m : Medlar) (h : r ≠ d) : (setG d x m).g.get 0#64 r = m.g.get 0#64 r :=
  Tab.get_set_of_ne _ _ _ h

/-! Groups -/

theorem vLane_lt (a : Arch) (r i : Nat) : vLane a r i < 2 ^ 32 := bits_lt ..

theorem vLane_congr {a b : Arch} (h : b.v = a.v) (r i : Nat) : vLane b r i = vLane a r i := by rw [vLane, h, vLane]

theorem setV_v (d mask : Nat) (f : Nat → Nat) (a : Arch) : (setV d mask f a).v =
    a.v.set 0#1024 d (BitVec.ofNat 1024 (mergeEls 32 (a.v.get 0#1024 d).toNat (bit mask) f 32)) := by simp only [setV]

theorem v_setV_of_ne {d r : Nat} (mask : Nat) (f : Nat → Nat) (a : Arch) (h : r ≠ d) :
    (setV d mask f a).v.get 0#1024 r = a.v.get 0#1024 r := by
  rw [setV_v, Tab.get_set_of_ne _ _ _ h]

theorem vLane_setV_of_ne {d r : Nat} (mask i : Nat) (f : Nat → Nat) (a : Arch) (h : r ≠ d) :
    vLane (setV d mask f a) r i = vLane a r i := by rw [vLane, v_setV_of_ne mask f a h, vLane]

theorem vLane_setV_self {i : Nat} (d mask : Nat) (f : Nat → Nat) (a : Arch) (hi : i < 32) :
    vLane (setV d mask f a) d i = if bit mask i then f i % 2 ^ 32 else vLane a d i := by
  rw [vLane, setV, Tab.get_set_self, bits_ofNat_mergeEls _ _ _ _ _ hi (by decide), vLane]

theorem v_setVPair_of_ne {d r : Nat} (mask : Nat) (f : Nat → Nat) (a : Arch) (h : r ≠ d) (h1 : r ≠ d + 1) :
    (setVPair d mask f a).v.get 0#1024 r = a.v.get 0#1024 r := by
  rw [setVPair, v_setV_of_ne _ _ _ h1, v_setV_of_ne _ _ _ h]

theorem vPair_setVPair_self {i : Nat} (d mask : Nat) (f : Nat → Nat) (a : Arch) (hi : i < 32) (hx : bit mask i = true) :
    vPair (setVPair d mask f a) d i = f i % 2 ^ 64 := by
  have hne : d ≠ d + 1 := by omega
  rw [vPair, setVPair, vLane_setV_self _ _ _ _ hi, vLane_setV_of_ne _ _ _ _ hne, vLane_setV_self _ _ _ _ hi, if_pos hx,
    if_pos hx]
  omega

/-- The executing lanes of an operand that has been written. -/
theorem vOperand_setVOperand_self {w i : Nat} (hw : w ≤ 32 ∨ w = 64) (d mask : Nat) (f : Nat → Nat) (a : Arch) (hi : i < 32)
    (hx : bit mask i = true) : vOperand (setVOperand w d mask f a) w d i = f i % 2 ^ w := by
  by_cases h64 : w = 64
  · subst h64
    exact vPair_setVPair_self d mask f a hi hx
  · have hdvd : 2 ^ w ∣ 2 ^ 32 := Nat.pow_dvd_pow 2 (by omega)
    rw [vOperand, if_neg h64, setVOperand, if_neg h64, vLane_setV_self _ _ _ _ hi, if_pos hx, Nat.mod_mod_of_dvd _ hdvd]

theorem v_setVOperand_of_ne {w d r : Nat} (mask : Nat) (f : Nat → Nat) (a : Arch) (h : r ≠ d) (h1 : w = 64 → r ≠ d + 1) :
    (setVOperand w d mask f a).v.get 0#1024 r = a.v.get 0#1024 r := by
  rw [setVOperand]
  split
  next h64 => exact v_setVPair_of_ne mask f a h (h1 h64)
  · exact v_setV_of_ne mask f a h

/-- A lane that does not execute is as it was, in every register. -/
theorem vLane_setV_of_inactive {i mask : Nat} (d r : Nat) (f : Nat → Nat) (a : Arch) (hi : i < 32) (hx : bit mask i = false) :
    vLane (setV d mask f a) r i = vLane a r i := by
  by_cases h : r = d
  · subst h
    rw [vLane_setV_self _ _ _ _ hi, hx, if_neg Bool.false_ne_true]
  · exact vLane_setV_of_ne mask i f a h

theorem vLane_setVOperand_of_inactive {i mask : Nat} (w d r : Nat) (f : Nat → Nat) (a : Arch) (hi : i < 32)
    (hx : bit mask i = false) : vLane (setVOperand w d mask f a) r i = vLane a r i := by
  rw [setVOperand]
  split
  · rw [setVPair, vLane_setV_of_inactive _ _ _ _ hi hx, vLane_setV_of_inactive _ _ _ _ hi hx]
  · exact vLane_setV_of_inactive _ _ _ _ hi hx

theorem sReg_lt (a : Arch) (r : Nat) : sReg a r < 2 ^ 64 := (a.s.get 0#64 r).isLt

theorem sReg_setS (r x : Nat) (a : Arch) : sReg (setS r x a) r = x % 2 ^ 64 := by
  rw [sReg, setS, Tab.get_set_self, BitVec.toNat_ofNat]

theorem s_setS_of_ne {d r : Nat} (x : Nat) (a : Arch) (h : r ≠ d) : (setS d x a).s.get 0#64 r = a.s.get 0#64 r :=
  Tab.get_set_of_ne _ _ _ h

theorem bit_eq_bits_one (x i : Nat) : bits x (1 * i) 1 = (bit x i).toNat := by rw [toNat_bit, Nat.one_mul]

/-- A predicate register that has been written: the taken lanes' new bits, and the others' old ones. -/
theorem bit_pReg_setP {i : Nat} (d mask : Nat) (f : Nat → Bool) (a : Arch) (hi : i < 32) :
    bit (pReg (setP d mask f a) d) i = if bit mask i then f i else bit (pReg a d) i := by
  have h := bits_ofNat_mergeEls 32 1 (a.p.get 0#32 d).toNat (bit mask) (fun i => if f i then 1 else 0) hi (by decide)
  rw [bit_eq_bits, pReg, setP, Tab.get_set_self, ← Nat.one_mul i, h, Nat.one_mul]
  split
  · cases f i <;> rfl
  · rfl

theorem v_withFlags (a : Arch) (x : BitVec 64) : ({ a with fpflags := x } : Arch).v = a.v := rfl

theorem pReg_withFlags (a : Arch) (x : BitVec 64) (r : Nat) : pReg { a with fpflags := x } r = pReg a r := rfl

theorem vLane_withFlags (a : Arch) (x : BitVec 64) (r i : Nat) : vLane { a with fpflags := x } r i = vLane a r i := rfl

theorem vLane_withP (a : Arch) (x : Tab (BitVec 32)) (r i : Nat) : vLane { a with p := x } r i = vLane a r i := rfl

theorem vLane_setS (d x : Nat) (a : Arch) (r i : Nat) : vLane (setS d x a) r i = vLane a r i := rfl

theorem setP_v (d mask : Nat) (f : Nat → Bool) (a : Arch) : (setP d mask f a).v = a.v := by rw [setP]

theorem setP_s (d mask : Nat) (f : Nat → Bool) (a : Arch) : (setP d mask f a).s = a.s := by rw [setP]

theorem p_setP_of_ne {d r : Nat} (mask : Nat) (f : Nat → Bool) (a : Arch) (h : r ≠ d) :
    (setP d mask f a).p.get 0#32 r = a.p.get 0#32 r := Tab.get_set_of_ne _ _ _ h

theorem bit_pReg_setP_of_inactive {i mask : Nat} (d r : Nat) (f : Nat → Bool) (a : Arch) (hi : i < 32) (hx : bit mask i = false) :
    bit (pReg (setP d mask f a) r) i = bit (pReg a r) i := by
  by_cases h : r = d
  · subst h
    rw [bit_pReg_setP _ _ _ _ hi, hx, if_neg Bool.false_ne_true]
  · rw [pReg, p_setP_of_ne mask f a h, pReg]

/-! ### INT and INTI execute (O17) -/

/-- Settles O17: each is the shared issue of its operation's function on the registers. -/
theorem integerInstructionsExecute : Obligations.IntegerInstructionsExecute := by
  refine ⟨fun c w s => exec_int_medlar, fun g w x s hi hr => exec_int_group hi hr, fun c w s hi hr => ?_, fun g w x s hi hr => ?_⟩
  · change execInti (.medlar c) w s = _
    rw [execInti, alu_medlar_retires (ok := fun grp => predOk grp (!(iFields w).s) (iFields w).pe (iFields w).pn (iFields w).preg)
      (k := fun _ => intiKinds (iFields w)) hi hr]
  · change execInti (.group g) w s = _
    rw [execInti, alu_group_retires (ok := fun grp => predOk grp (!(iFields w).s) (iFields w).pe (iFields w).pn (iFields w).preg)
      (k := fun _ => intiKinds (iFields w)) hi hr]

/-! ### Lanes that do not execute (O20) -/

section
variable {f : RFields} {a : Arch} {lane : Nat} (hl : lane < 32) (hx : bit (execMask a f.pe f.pn f.preg) lane = false)
include hl hx

theorem vLane_groupMap2_of_inactive (hs : f.s = false) (w : Nat) (o : Nat → Nat → Nat) (r : Nat) :
    vLane (groupMap2 f w o a) r lane = vLane a r lane := by
  rw [groupMap2, hs, if_neg Bool.false_ne_true]
  exact vLane_setVOperand_of_inactive _ _ _ _ _ hl hx

theorem vLane_fpGroup_of_inactive (hs : f.s = false) (r : Nat) : vLane (fpGroup f a) r lane = vLane a r lane := by
  rw [fpGroup, hs, if_neg Bool.false_ne_true]
  exact (vLane_withFlags ..).trans (vLane_setVOperand_of_inactive _ f.d _ _ a hl hx)

theorem vLane_fcvtGroup_of_inactive (hs : f.s = false) (s : State) (r : Nat) :
    vLane (fcvtGroup f a s).1 r lane = vLane a r lane := by
  rw [fcvtGroup, hs, if_neg Bool.false_ne_true]
  exact (vLane_withFlags ..).trans (vLane_setVOperand_of_inactive _ f.d _ _ a hl hx)

theorem bit_pReg_predGroup_of_inactive (r : Nat) : bit (pReg (predGroup f a) r) lane = bit (pReg a r) lane := by
  unfold predGroup
  dsimp only
  split
  · exact bit_pReg_setP_of_inactive _ _ _ _ hl hx
  · split
    · rw [pReg_withFlags]
      exact bit_pReg_setP_of_inactive _ _ _ _ hl hx
    · exact bit_pReg_setP_of_inactive _ _ _ _ hl hx

theorem vLane_moveGroup_of_inactive (hs : f.s = false) (s : State) (r : Nat) :
    vLane (moveGroup f a s).1 r lane = vLane a r lane := by
  have hput : ∀ k g, vLane (setV f.d (execMask a f.pe f.pn f.preg &&& 2 ^ k) g a) r lane = vLane a r lane := fun k g =>
    vLane_setV_of_inactive _ _ _ _ hl (by rw [bit_eq_testBit, Nat.testBit_and, ← bit_eq_testBit, hx, Bool.false_and])
  unfold moveGroup
  simp only [hs, Bool.false_eq_true, if_false]
  split
  · exact vLane_setV_of_inactive _ _ _ _ hl hx
  · exact vLane_setV_of_inactive _ _ _ _ hl hx
  · split
    · exact vLane_setS ..
    · exact vLane_setS ..
  · split
    · exact hput ..
    · exact hput ..
  · exact vLane_setV_of_inactive _ _ _ _ hl hx
  · exact vLane_setS ..
  · exact vLane_setS ..
  · exact vLane_setS ..
  · exact vLane_withP ..

theorem vLane_liGroup_of_inactive (r : Nat) : vLane (liGroup f a) r lane = vLane a r lane := by
  unfold liGroup
  dsimp only
  split
  · split
    · exact vLane_setV_of_inactive _ _ _ _ hl hx
    · exact vLane_setS ..
  · split
    · exact vLane_setV_of_inactive _ _ _ _ hl hx
    · exact vLane_setS ..

end

/-- PRED leaves the vector registers. -/
theorem predGroup_v (f : RFields) (a : Arch) : (predGroup f a).v = a.v := by
  simp only [predGroup]
  split
  · exact setP_v ..
  · split
    · rw [v_withFlags, setP_v]
    · exact setP_v ..

/-- Settles O20: every vector form writes its register under the execution mask. -/
theorem inactiveLanesAreUnchanged : Obligations.InactiveLanesAreUnchanged := fun f a r _ hl hs hx =>
  ⟨fun w o => vLane_groupMap2_of_inactive hl hx hs w o r, vLane_fpGroup_of_inactive hl hx hs r,
    fun s => vLane_fcvtGroup_of_inactive hl hx hs s r, vLane_congr (predGroup_v f a) r _,
    bit_pReg_predGroup_of_inactive hl hx r, fun s => vLane_moveGroup_of_inactive hl hx hs s r,
    vLane_liGroup_of_inactive hl hx r⟩

end Sys2Proof.Machine

/-! ### MOVE, PRED, FP and FCVT execute (O19) -/

namespace Sys2Proof.Machine

theorem bumpRaw_freeN (k n : Nat) (s : State) : (bumpRaw k n s).1.freeN = s.freeN := by
  unfold bumpRaw
  dsimp only
  split
  · rfl
  · split <;> rfl

theorem saturated_freeN (k : Nat) (s : State) : (saturated k s).freeN = s.freeN := rfl

@[simp] theorem bump_freeN (k n : Nat) (s : State) : (bump k n s).freeN = s.freeN := by
  unfold bump
  dsimp only
  split
  · split
    · rw [saturated_freeN, bumpRaw_freeN, saturated_freeN, bumpRaw_freeN]
    · rw [bumpRaw_freeN, saturated_freeN, bumpRaw_freeN]
  · exact bumpRaw_freeN ..

/-- From m to m' only register d of the g and v registers, and FPFLAGS, differ. -/
def MedlarSets (d : Nat) (m m' : Medlar) : Prop :=
  m' = { m with g := m'.g, v := m'.v, fpflags := m'.fpflags } ∧
  ∀ r, r ≠ d → m'.g.get 0#64 r = m.g.get 0#64 r ∧ m'.v.get 0#512 r = m.v.get 0#512 r

theorem MedlarSets.setG (d x : Nat) (m : Medlar) : MedlarSets d m (setG d x m) :=
  ⟨rfl, fun _ h => ⟨g_setG_of_ne x m h, rfl⟩⟩

theorem MedlarSets.setMv (d w : Nat) (f : Nat → Nat) (m : Medlar) : MedlarSets d m (setMv d w f m) := by
  refine ⟨by simp only [Machine.setMv], fun r h => ⟨?_, v_setMv_of_ne w f m h⟩⟩
  simp only [Machine.setMv]

theorem MedlarSets.withFlags {d : Nat} {m m' : Medlar} (h : MedlarSets d m m') (x : BitVec 64) :
    MedlarSets d m { m' with fpflags := x } := by
  obtain ⟨heq, hregs⟩ := h
  refine ⟨?_, hregs⟩
  rw [heq]

/-- A Medlar core's register operation that has retired writes its registers and nothing else. -/
theorem medlarWrites_retired {c w d n : Nat} {m' : Medlar} {s : State} (h : MedlarSets d (medlarOf s c) m') :
    MedlarWrites c w d s (medlarRetired c w m' { s with freeN := n }) := by
  obtain ⟨heq, hregs⟩ := h
  rw [MedlarWrites, medlarOf_medlarRetired_self]
  refine ⟨?_, hregs, fun k hk => medlarOf_medlarRetired_of_ne w m' _ hk, rfl⟩
  rw [heq]

/-- From a to a' only register d, the one behind it in operations on pairs, and FPFLAGS differ. -/
def GroupSets (d : Nat) (pair : Bool) (a a' : Arch) : Prop :=
  a' = { a with v := a'.v, s := a'.s, p := a'.p, fpflags := a'.fpflags } ∧
  (∀ r, r ≠ d → (pair = true → r ≠ d + 1) → a'.v.get 0#1024 r = a.v.get 0#1024 r) ∧
  ∀ r, r ≠ d → a'.s.get 0#64 r = a.s.get 0#64 r ∧ a'.p.get 0#32 r = a.p.get 0#32 r

theorem GroupSets.setS (d x : Nat) (pair : Bool) (a : Arch) : GroupSets d pair a (setS d x a) :=
  ⟨rfl, fun _ _ _ => rfl, fun _ h => ⟨s_setS_of_ne x a h, rfl⟩⟩

/-- Registers that differ in the vector registers alone. -/
theorem GroupSets.of_v {d : Nat} {pair : Bool} {a a' : Arch} {x : Tab (BitVec 1024)} (ha : a' = { a with v := x })
    (h : ∀ r, r ≠ d → (pair = true → r ≠ d + 1) → a'.v.get 0#1024 r = a.v.get 0#1024 r) : GroupSets d pair a a' := by
  subst ha
  exact ⟨rfl, h, fun _ _ => ⟨rfl, rfl⟩⟩

theorem setV_frame (d mask : Nat) (f : Nat → Nat) (a : Arch) : ∃ x, setV d mask f a = { a with v := x } := ⟨_, by rw [setV]⟩

theorem setP_frame (d mask : Nat) (f : Nat → Bool) (a : Arch) : ∃ x, setP d mask f a = { a with p := x } := ⟨_, by rw [setP]⟩

theorem setVPair_frame (d mask : Nat) (f : Nat → Nat) (a : Arch) : ∃ x, setVPair d mask f a = { a with v := x } := by
  obtain ⟨y, hy⟩ := setV_frame d mask (fun i => f i % 2 ^ 32) a
  obtain ⟨x, hx⟩ := setV_frame (d + 1) mask (fun i => f i / 2 ^ 32) (setV d mask (fun i => f i % 2 ^ 32) a)
  exact ⟨x, by rw [setVPair, hx, hy]⟩

theorem GroupSets.setV (d mask : Nat) (f : Nat → Nat) (pair : Bool) (a : Arch) : GroupSets d pair a (setV d mask f a) := by
  obtain ⟨x, hx⟩ := setV_frame d mask f a
  exact .of_v hx fun r h _ => v_setV_of_ne mask f a h

theorem GroupSets.setP (d mask : Nat) (f : Nat → Bool) (pair : Bool) (a : Arch) : GroupSets d pair a (setP d mask f a) := by
  have hp := fun r h => p_setP_of_ne (d := d) (r := r) mask f a h
  obtain ⟨x, hx⟩ := setP_frame d mask f a
  rw [hx] at hp ⊢
  exact ⟨rfl, fun _ _ _ => rfl, fun r h => ⟨rfl, hp r h⟩⟩

theorem GroupSets.withP {d : Nat} (x : BitVec 32) (pair : Bool) (a : Arch) : GroupSets d pair a { a with p := a.p.set 0#32 d x } :=
  ⟨rfl, fun _ _ _ => rfl, fun _ h => ⟨rfl, Tab.get_set_of_ne _ _ _ h⟩⟩

theorem GroupSets.setVOperand (w d mask : Nat) (f : Nat → Nat) (a : Arch) :
    GroupSets d (w == 64) a (setVOperand w d mask f a) := by
  rw [Machine.setVOperand]
  split
  · obtain ⟨x, hx⟩ := setVPair_frame d mask f a
    exact .of_v hx fun r h h1 => v_setVPair_of_ne mask f a h (h1 (by simpa))
  · exact GroupSets.setV d mask f _ a

theorem GroupSets.withFlags {d : Nat} {pair : Bool} {a a' : Arch} (h : GroupSets d pair a a') (x : BitVec 64) :
    GroupSets d pair a { a' with fpflags := x } := by
  obtain ⟨heq, hv, hregs⟩ := h
  refine ⟨?_, hv, hregs⟩
  rw [heq]

/-- A group's register operation that has retired writes its registers and nothing else. -/
theorem groupWrites_retired {g w beats d n : Nat} {pair : Bool} {x : Group} {a' : Arch} {s : State}
    (h : GroupSets d pair x.arch a') : GroupWrites g w beats d pair x a' s (groupRetired g w beats x a' { s with freeN := n }) := by
  obtain ⟨heq, hv, hregs⟩ := h
  refine ⟨heq, hv, hregs, ?_⟩
  have hn : (groupRetired g w beats x a' { s with freeN := n }).freeN = n := bump_freeN ..
  rw [hn]

theorem sext_lt (n m x : Nat) : sext n m x < 2 ^ m := unsigned_lt ..

theorem mvEl_medlarRetired (c w n r i : Nat) (m : Medlar) (s : State) :
    mvEl (medlarOf (medlarRetired c w m s) c) n r i = mvEl m n r i := by
  rw [medlarOf_medlarRetired_self]
  rfl

theorem takeFree_snd (s : State) : (takeFree s).2 = { s with freeN := s.freeN + 1 } := rfl

theorem mvEl_setMv_of_lt {d w i : Nat} {f : Nat → Nat} (m : Medlar) (h : i < 512 / w) (hf : f i < 2 ^ w) :
    mvEl (setMv d w f m) w d i = f i := by rw [mvEl_setMv_self f m h, Nat.mod_eq_of_lt hf]

/-! MOVE on a Medlar core -/

theorem moveMedlar_sets (f : RFields) (m : Medlar) (s : State) :
    MedlarSets f.d m (moveMedlar f m s).1 ∧ (moveMedlar f m s).1.fpflags = m.fpflags ∧
      ∃ n, (moveMedlar f m s).2 = { s with freeN := n } := by
  have hset : ∀ (m' : Medlar) n, MedlarSets f.d m m' → m'.fpflags = m.fpflags →
      MedlarSets f.d m (m', { s with freeN := n }).1 ∧ (m', { s with freeN := n }).1.fpflags = m.fpflags ∧
        ∃ k, (m', { s with freeN := n }).2 = { s with freeN := k } := fun _ _ h hf => ⟨h, hf, _, rfl⟩
  have hMv : ∀ g, (setMv f.d 64 g m).fpflags = m.fpflags := fun g => by rw [setMv]
  unfold moveMedlar
  dsimp only
  split
  · split
    · exact hset _ s.freeN (.setG ..) rfl
    · exact hset _ s.freeN (.setMv ..) (hMv _)
  · exact hset _ s.freeN (.setMv ..) (hMv _)
  · split
    · exact hset _ s.freeN (.setG ..) rfl
    · exact hset _ _ (.setG ..) rfl
  · split
    · exact hset _ s.freeN (.setMv ..) (hMv _)
    · exact hset _ _ (.setMv ..) (hMv _)
  · exact hset _ s.freeN (.setMv ..) (hMv _)

section
variable {f : RFields} {m : Medlar} {s : State}

theorem moveMedlar_copyScalar (h : f.op = 0) (hs : f.s = true) : gReg (moveMedlar f m s).1 f.d = gReg m f.a := by
  simp only [moveMedlar, h, hs, if_true]
  rw [gReg_setG, Nat.mod_eq_of_lt (gReg_lt ..)]

theorem moveMedlar_copy (h : f.op = 0) (hs : f.s = false) {i : Nat} (hi : i < 8) :
    mvEl (moveMedlar f m s).1 64 f.d i = mvEl m 64 f.a i := by
  simp only [moveMedlar, h, hs, Bool.false_eq_true, if_false]
  exact mvEl_setMv_of_lt m hi (mvEl_lt ..)

theorem moveMedlar_broadcast (h : f.op = 1) {i : Nat} (hi : i < 8) : mvEl (moveMedlar f m s).1 64 f.d i = gReg m f.a := by
  simp only [moveMedlar, h]
  exact mvEl_setMv_of_lt m hi (gReg_lt ..)

theorem moveMedlar_extract (h : f.op = 2) (hn : gReg m f.b < 8) :
    gReg (moveMedlar f m s).1 f.d = mvEl m 64 f.a (gReg m f.b) := by
  simp only [moveMedlar, h, hn, if_true]
  rw [gReg_setG, Nat.mod_eq_of_lt (mvEl_lt ..)]

theorem moveMedlar_extractOutside (h : f.op = 2) (hn : 8 ≤ gReg m f.b) :
    gReg (moveMedlar f m s).1 f.d = (takeFree s).1 % 2 ^ 64 := by
  simp only [moveMedlar, h, Nat.not_lt.2 hn, if_false]
  exact gReg_setG ..

theorem moveMedlar_insert (h : f.op = 3) (hn : gReg m f.b < 8) {i : Nat} (hi : i < 8) :
    mvEl (moveMedlar f m s).1 64 f.d i = if i = gReg m f.b then gReg m f.a else mvEl m 64 f.d i := by
  simp only [moveMedlar, h, hn, if_true]
  refine mvEl_setMv_of_lt m hi ?_
  split
  · exact gReg_lt ..
  · exact mvEl_lt ..

theorem moveMedlar_shuffle (h : f.op = 4) {i : Nat} (hi : i < 8) :
    mvEl (moveMedlar f m s).1 64 f.d i = mvEl m 64 f.a (mvEl m 64 f.b i % 8) := by
  simp only [moveMedlar, h]
  exact mvEl_setMv_of_lt m hi (mvEl_lt ..)

end

theorem exec_move_medlar {c w : Nat} {s : State} (hi : MedlarIssues .move c w s) (hli : moveIsLi w false = false)
    (hr : MedlarRegs (moveFieldsOk (rFields w) false) (moveKinds (rFields w)) (rFields w)) :
    exec (.move (.medlar c) w) s = .next (medlarRetired c w (moveMedlar (rFields w) (medlarOf s c) s).1
      (moveMedlar (rFields w) (medlarOf s c) s).2) := by
  change execMove (.medlar c) w s = _
  simp only [execMove, hli, Bool.false_eq_true, if_false]
  rw [alu_medlar_retires hi (k := fun _ => moveKinds (rFields w)) hr]

theorem exec_move_group {g w : Nat} {x : Group} {s : State} (hli : moveIsLi w true = false)
    (hi : GroupIssues .move g w (usedRegs (moveKinds (rFields w)) (rFields w).d (rFields w).a (rFields w).b (rFields w).c
      (rFields w).pe (rFields w).preg) x s)
    (hr : GroupRegs s g (moveFieldsOk (rFields w) true) (moveKinds (rFields w)) (rFields w)) :
    exec (.move (.group g) w) s = .next (groupRetired g w (if moveIsVector (rFields w) then 1 else 0) x
      (moveGroup (rFields w) x.arch s).1 (moveGroup (rFields w) x.arch s).2) := by
  change execMove (.group g) w s = _
  simp only [execMove, hli, Bool.false_eq_true, if_false]
  rw [alu_group_retires (k := fun _ => moveKinds (rFields w)) hi hr]

/-! MOVE on a group -/

theorem moveGroup_sets (f : RFields) (a : Arch) (s : State) :
    GroupSets f.d false a (moveGroup f a s).1 ∧ (moveGroup f a s).1.fpflags = a.fpflags ∧
      ∃ n, (moveGroup f a s).2 = { s with freeN := n } := by
  have hset : ∀ (a' : Arch) n, GroupSets f.d false a a' → a'.fpflags = a.fpflags →
      GroupSets f.d false a (a', { s with freeN := n }).1 ∧ (a', { s with freeN := n }).1.fpflags = a.fpflags ∧
        ∃ k, (a', { s with freeN := n }).2 = { s with freeN := k } := fun _ _ h hf => ⟨h, hf, _, rfl⟩
  have hV : ∀ x g, (setV f.d x g a).fpflags = a.fpflags := fun x g => by rw [setV]
  unfold moveGroup
  dsimp only
  split
  · split
    · exact hset _ s.freeN (.setS ..) rfl
    · exact hset _ s.freeN (.setV ..) (hV ..)
  · exact hset _ s.freeN (.setV ..) (hV ..)
  · split
    · exact hset _ s.freeN (.setS ..) rfl
    · exact hset _ _ (.setS ..) rfl
  · split
    · exact hset _ s.freeN (.setV ..) (hV ..)
    · exact hset _ _ (.setV ..) (hV ..)
  · exact hset _ s.freeN (.setV ..) (hV ..)
  · exact hset _ s.freeN (.setS ..) rfl
  · exact hset _ s.freeN (.setS ..) rfl
  · exact hset _ s.freeN (.setS ..) rfl
  · exact hset _ s.freeN (.withP ..) rfl

theorem pReg_lt (a : Arch) (r : Nat) : pReg a r < 2 ^ 32 := (a.p.get 0#32 r).isLt

section
variable {f : RFields} {a : Arch} {s : State}

theorem moveGroup_copyScalar (h : f.op = 0) (hs : f.s = true) : sReg (moveGroup f a s).1 f.d = sReg a f.a := by
  simp only [moveGroup, h, hs, if_true]
  rw [sReg_setS, Nat.mod_eq_of_lt (sReg_lt ..)]

theorem moveGroup_extract (h : f.op = 2) (hn : sReg a f.b < 32) :
    sReg (moveGroup f a s).1 f.d = sext 32 64 (vLane a f.a (sReg a f.b)) := by
  simp only [moveGroup, h, hn, if_true]
  rw [sReg_setS, Nat.mod_eq_of_lt (sext_lt ..)]

theorem moveGroup_extractOutside (h : f.op = 2) (hn : 32 ≤ sReg a f.b) :
    sReg (moveGroup f a s).1 f.d = (takeFree s).1 % 2 ^ 64 := by
  simp only [moveGroup, h, Nat.not_lt.2 hn, if_false]
  exact sReg_setS ..

theorem moveGroup_activeMask (h : f.op = 5) : sReg (moveGroup f a s).1 f.d = a.mask.toNat := by
  simp only [moveGroup, h]
  rw [sReg_setS, Nat.mod_eq_of_lt (by have := a.mask.isLt; omega)]

theorem moveGroup_ballot (h : f.op = 6) : sReg (moveGroup f a s).1 f.d = pReg a f.a &&& a.mask.toNat := by
  simp only [moveGroup, h]
  have := Nat.and_le_left (n := pReg a f.a) (m := a.mask.toNat)
  have := pReg_lt a f.a
  rw [sReg_setS, Nat.mod_eq_of_lt (by omega)]

theorem moveGroup_readPred (h : f.op = 7) : sReg (moveGroup f a s).1 f.d = pReg a f.a := by
  simp only [moveGroup, h]
  have := pReg_lt a f.a
  rw [sReg_setS, Nat.mod_eq_of_lt (by omega)]

theorem moveGroup_writePred (h : f.op = 8) : pReg (moveGroup f a s).1 f.d = sReg a f.a % 2 ^ 32 := by
  simp only [moveGroup, h]
  rw [pReg, Tab.get_set_self, BitVec.toNat_ofNat]

variable {i : Nat} (hi : i < 32) (hx : bit (execMask a f.pe f.pn f.preg) i = true)
include hi hx

theorem moveGroup_copy (h : f.op = 0) (hs : f.s = false) : vLane (moveGroup f a s).1 f.d i = vLane a f.a i := by
  simp only [moveGroup, h, hs, Bool.false_eq_true, if_false]
  rw [vLane_setV_self _ _ _ _ hi, if_pos hx, Nat.mod_eq_of_lt (vLane_lt ..)]

theorem moveGroup_broadcast (h : f.op = 1) : vLane (moveGroup f a s).1 f.d i = sReg a f.a % 2 ^ 32 := by
  simp only [moveGroup, h]
  rw [vLane_setV_self _ _ _ _ hi, if_pos hx]

theorem moveGroup_insert (h : f.op = 3) (hn : sReg a f.b < 32) : vLane (moveGroup f a s).1 f.d i =
    if i = sReg a f.b then sReg a f.a % 2 ^ 32 else vLane a f.d i := by
  simp only [moveGroup, h, hn, if_true]
  rw [vLane_setV_self _ _ _ _ hi, bit_eq_testBit, Nat.testBit_and, ← bit_eq_testBit, hx, Bool.true_and, Nat.testBit_two_pow]
  simp only [decide_eq_true_eq]
  exact ite_congr (propext eq_comm) (fun _ => rfl) fun _ => rfl

theorem moveGroup_shuffle (h : f.op = 4) :
    vLane (moveGroup f a s).1 f.d i = vLane a f.a (vLane a f.b i % 32) := by
  simp only [moveGroup, h]
  rw [vLane_setV_self _ _ _ _ hi, if_pos hx, Nat.mod_eq_of_lt (vLane_lt ..)]

end

/-! PRED -/

theorem s_withFlags (a : Arch) (x : BitVec 64) : ({ a with fpflags := x } : Arch).s = a.s := rfl

theorem predGroup_sets (f : RFields) (a : Arch) : GroupSets f.d false a (predGroup f a) ∧ (predGroup f a).s = a.s := by
  simp only [predGroup]
  split
  · exact ⟨.setP .., setP_s ..⟩
  · split
    · exact ⟨(GroupSets.setP ..).withFlags _, (s_withFlags ..).trans (setP_s ..)⟩
    · exact ⟨.setP .., setP_s ..⟩

section
variable {f : RFields} {a : Arch} {i : Nat} (hi : i < 32) (hx : bit (execMask a f.pe f.pn f.preg) i = true)
include hi hx

theorem predGroup_compare (h : f.op ≤ 5) :
    bit (pReg (predGroup f a) f.d) i = condHolds f.op 32 (vLane a f.a i) (vLane a f.b i) := by
  simp only [predGroup, h, if_true]
  rw [bit_pReg_setP _ _ _ _ hi, if_pos hx]

theorem predGroup_fcompare (h6 : 6 ≤ f.op) (h9 : f.op ≤ 9) : bit (pReg (predGroup f a) f.d) i =
    (predCompare f (vOperand a (fpBits f.aux) f.a i) (vOperand a (fpBits f.aux) f.b i)).1 := by
  simp only [predGroup, show ¬f.op ≤ 5 by omega, h9, if_true, if_false]
  rw [pReg_withFlags, bit_pReg_setP _ _ _ _ hi, if_pos hx]

theorem predGroup_logic (h : 10 ≤ f.op) : bit (pReg (predGroup f a) f.d) i =
    if f.op = 10 then bit (pReg a f.a) i && bit (pReg a f.b) i
    else if f.op = 11 then bit (pReg a f.a) i || bit (pReg a f.b) i
    else if f.op = 12 then bit (pReg a f.a) i != bit (pReg a f.b) i else !bit (pReg a f.a) i := by
  simp only [predGroup, show ¬f.op ≤ 5 by omega, show ¬f.op ≤ 9 by omega, if_false]
  rw [bit_pReg_setP _ _ _ _ hi, if_pos hx]

end

/-! FP -/

theorem fpMedlar_sets (f : RFields) (m : Medlar) : MedlarSets f.d m (fpMedlar f m) := by
  simp only [fpMedlar]
  split
  · exact (MedlarSets.setG ..).withFlags _
  · exact (MedlarSets.setMv ..).withFlags _

theorem fpGroup_sets (f : RFields) (a : Arch) : GroupSets f.d (f.aux == 0) a (fpGroup f a) := by
  have hw : (fpBits f.aux == 64) = (f.aux == 0) := by
    rw [fpBits]
    by_cases h : f.aux = 0 <;> simp [h]
  simp only [fpGroup]
  split
  · exact (GroupSets.setS ..).withFlags _
  · exact hw ▸ (GroupSets.setVOperand ..).withFlags _

theorem fpBits_le (aux : Nat) : fpBits aux ≤ 32 ∨ fpBits aux = 64 := by
  rw [fpBits]
  split
  · exact .inr rfl
  · exact .inl (Nat.le_refl _)

theorem mvEl_withFlags (m : Medlar) (x : BitVec 64) (w r i : Nat) : mvEl { m with fpflags := x } w r i = mvEl m w r i := rfl

theorem gReg_withFlags (m : Medlar) (x : BitVec 64) (r : Nat) : gReg { m with fpflags := x } r = gReg m r := rfl

theorem sReg_withFlags (a : Arch) (x : BitVec 64) (r : Nat) : sReg { a with fpflags := x } r = sReg a r := rfl

theorem vOperand_withFlags (a : Arch) (x : BitVec 64) (w r i : Nat) : vOperand { a with fpflags := x } w r i = vOperand a w r i := rfl

/-- FP's result and flags for the element whose operands e reads. -/
def fpEl (f : RFields) (fpctl : BitVec 64) (e : Nat → Nat) : Nat × Nat :=
  fpOp f.op f.aux (roundDir f.rm fpctl.toNat) (e f.a) (e f.b) (e f.c)

theorem fpMedlar_scalar {f : RFields} (m : Medlar) (hs : f.s = true) :
    gReg (fpMedlar f m) f.d = toScalar (fpBits f.aux) (fpEl f m.fpctl fun r => gReg m r % 2 ^ fpBits f.aux).1 % 2 ^ 64 ∧
    (fpMedlar f m).fpflags = stick m.fpflags (fpEl f m.fpctl fun r => gReg m r % 2 ^ fpBits f.aux).2 := by
  simp only [fpMedlar, hs, if_true]
  exact ⟨(gReg_withFlags ..).trans (gReg_setG ..), rfl⟩

theorem fpMedlar_vector {f : RFields} (m : Medlar) (hs : f.s = false) :
    (∀ i, i < 512 / fpBits f.aux →
      mvEl (fpMedlar f m) (fpBits f.aux) f.d i = (fpEl f m.fpctl fun r => mvEl m (fpBits f.aux) r i).1 % 2 ^ fpBits f.aux) ∧
    (fpMedlar f m).fpflags = stick m.fpflags (anyFlags (fun _ => true)
      (fun i => (fpEl f m.fpctl fun r => mvEl m (fpBits f.aux) r i).2) (512 / fpBits f.aux)) := by
  simp only [fpMedlar, hs, Bool.false_eq_true, if_false]
  exact ⟨fun i hi => (mvEl_withFlags ..).trans (mvEl_setMv_self _ m hi), rfl⟩

theorem fpGroup_scalar {f : RFields} (a : Arch) (hs : f.s = true) :
    sReg (fpGroup f a) f.d = toScalar (fpBits f.aux) (fpEl f a.fpctl fun r => sReg a r % 2 ^ fpBits f.aux).1 % 2 ^ 64 ∧
    (fpGroup f a).fpflags = stick a.fpflags (fpEl f a.fpctl fun r => sReg a r % 2 ^ fpBits f.aux).2 := by
  simp only [fpGroup, hs, if_true]
  exact ⟨(sReg_withFlags ..).trans (sReg_setS ..), rfl⟩

theorem fpGroup_vector {f : RFields} (a : Arch) (hs : f.s = false) :
    (∀ i, i < 32 → bit (execMask a f.pe f.pn f.preg) i = true → vOperand (fpGroup f a) (fpBits f.aux) f.d i =
      (fpEl f a.fpctl fun r => vOperand a (fpBits f.aux) r i).1 % 2 ^ fpBits f.aux) ∧
    (fpGroup f a).fpflags = stick a.fpflags (anyFlags (bit (execMask a f.pe f.pn f.preg))
      (fun i => (fpEl f a.fpctl fun r => vOperand a (fpBits f.aux) r i).2) 32) := by
  simp only [fpGroup, hs, Bool.false_eq_true, if_false]
  exact ⟨fun i hi hx => (vOperand_withFlags ..).trans (vOperand_setVOperand_self (fpBits_le _) _ _ _ a hi hx), rfl⟩

/-! FCVT -/

theorem cvtDstBits_cases {f : RFields} {grp : Bool} (h : fcvtFieldsOk f grp = true) :
    cvtDstBits f.op f.fmt f.aux = 16 ∨ cvtDstBits f.op f.fmt f.aux = 32 ∨ cvtDstBits f.op f.fmt f.aux = 64 := by
  have hfmt : ∀ k, k ≤ 3 → fmtBits k = 16 ∨ fmtBits k = 32 ∨ fmtBits k = 64 := fun k hk => by
    rcases (by omega : k = 0 ∨ k = 1 ∨ k = 2 ∨ k = 3) with rfl | rfl | rfl | rfl <;> simp [fmtBits]
  simp only [fcvtFieldsOk, Bool.and_eq_true, decide_eq_true_eq] at h
  obtain ⟨⟨⟨_, hf⟩, haux⟩, _⟩ := h
  rw [cvtDstBits]
  split
  next h0 =>
    rw [if_pos h0] at haux
    exact hfmt _ (of_decide_eq_true haux)
  · split
    · rw [intBits]
      split <;> simp
    · exact hfmt _ hf

theorem sext_mod (n m x : Nat) (h : n ≤ m) : sext n m x % 2 ^ n = x % 2 ^ n := by
  rw [sext, unsigned_mod h, unsigned, signed_emod]
  exact Int.toNat_natCast _

/-- What widening leaves below is the result. -/
theorem widenCvt_mod {wd reg : Nat} (hwd : wd = 16 ∨ wd = 32 ∨ wd = 64) (hreg : wd ≤ reg) (h64 : reg ≤ 64) (x free : Nat) :
    widenCvt wd reg x free % 2 ^ reg % 2 ^ wd = x % 2 ^ wd := by
  rw [Nat.mod_mod_of_dvd _ (Nat.pow_dvd_pow 2 (by omega)), widenCvt]
  split
  · rfl
  · split
    next h32 =>
      subst h32
      exact sext_mod 32 64 x (by decide)
    · obtain rfl : wd = 16 := by omega
      exact Nat.add_mul_mod_self_right ..

theorem fcvtMedlar_sets (f : RFields) (m : Medlar) (s : State) :
    MedlarSets f.d m (fcvtMedlar f m s).1 ∧ ∃ n, (fcvtMedlar f m s).2 = { s with freeN := n } := by
  simp only [fcvtMedlar]
  split
  · refine ⟨(MedlarSets.setG ..).withFlags _, ?_⟩
    split
    · exact ⟨_, takeFree_snd s⟩
    · exact ⟨s.freeN, rfl⟩
  · refine ⟨(MedlarSets.setMv ..).withFlags _, ?_⟩
    split
    · exact ⟨s.freeN, rfl⟩
    · exact ⟨_, takeFree_snd s⟩

theorem fcvtGroup_sets (f : RFields) (a : Arch) (s : State) :
    GroupSets f.d (cvtDstBits f.op f.fmt f.aux == 64) a (fcvtGroup f a s).1 ∧
      ∃ n, (fcvtGroup f a s).2 = { s with freeN := n } := by
  have ht : ∃ n, (if cvtDstBits f.op f.fmt f.aux = 16 then (takeFree s).2 else s) = { s with freeN := n } := by
    split
    · exact ⟨_, takeFree_snd s⟩
    · exact ⟨s.freeN, rfl⟩
  simp only [fcvtGroup]
  split
  · exact ⟨(GroupSets.setS ..).withFlags _, ht⟩
  · exact ⟨(GroupSets.setVOperand ..).withFlags _, ht⟩

/-- FCVT's result and flags for a source element. -/
def cvtEl (f : RFields) (fpctl : BitVec 64) : Nat → Nat × Nat := cvtOp f.op f.fmt f.aux (roundDir f.rm fpctl.toNat)

section
variable {f : RFields} {ws wd : Nat} (hws : ws = cvtSrcBits f.op f.fmt f.aux) (hwd : wd = cvtDstBits f.op f.fmt f.aux)
include hws hwd

theorem fcvtMedlar_scalar (hd : wd = 16 ∨ wd = 32 ∨ wd = 64) (m : Medlar) (s : State) (hs : f.s = true) :
    gReg (fcvtMedlar f m s).1 f.d % 2 ^ wd = (cvtEl f m.fpctl (gReg m f.a % 2 ^ ws)).1 % 2 ^ wd ∧
    (wd = 32 → gReg (fcvtMedlar f m s).1 f.d = sext 32 64 (cvtEl f m.fpctl (gReg m f.a % 2 ^ ws)).1 % 2 ^ 64) ∧
    (fcvtMedlar f m s).1.fpflags = stick m.fpflags (cvtEl f m.fpctl (gReg m f.a % 2 ^ ws)).2 := by
  simp only [fcvtMedlar, ← hws, ← hwd, hs, if_true]
  refine ⟨?_, fun h32 => ?_, rfl⟩
  · rw [gReg_withFlags, gReg_setG]
    exact widenCvt_mod hd (by omega) (by decide) _ _
  · subst h32
    exact (gReg_withFlags ..).trans (gReg_setG ..)

theorem fcvtMedlar_vector (hpos : 0 < wd) (m : Medlar) (s : State) (hs : f.s = false) :
    (∀ i, i < 512 / max ws wd →
      mvEl (fcvtMedlar f m s).1 wd f.d i = (cvtEl f m.fpctl (mvEl m ws f.a i)).1 % 2 ^ wd) ∧
    (fcvtMedlar f m s).1.fpflags = stick m.fpflags (anyFlags (fun _ => true)
      (fun i => (cvtEl f m.fpctl (mvEl m ws f.a i)).2) (512 / max ws wd)) := by
  simp only [fcvtMedlar, ← hws, ← hwd, hs, Bool.false_eq_true, if_false]
  refine ⟨fun i hi => ?_, rfl⟩
  have hiw : i < 512 / wd := Nat.lt_of_lt_of_le hi (Nat.div_le_div_left (Nat.le_max_right ..) hpos)
  rw [mvEl_withFlags, mvEl_setMv_self _ m hiw, if_pos hi]
  rfl

theorem fcvtGroup_scalar (hd : wd = 16 ∨ wd = 32 ∨ wd = 64) (a : Arch) (s : State) (hs : f.s = true) :
    sReg (fcvtGroup f a s).1 f.d % 2 ^ wd = (cvtEl f a.fpctl (sReg a f.a % 2 ^ ws)).1 % 2 ^ wd ∧
    (wd = 32 → sReg (fcvtGroup f a s).1 f.d = sext 32 64 (cvtEl f a.fpctl (sReg a f.a % 2 ^ ws)).1 % 2 ^ 64) ∧
    (fcvtGroup f a s).1.fpflags = stick a.fpflags (cvtEl f a.fpctl (sReg a f.a % 2 ^ ws)).2 := by
  simp only [fcvtGroup, ← hws, ← hwd, hs, if_true]
  refine ⟨?_, fun h32 => ?_, rfl⟩
  · rw [sReg_withFlags, sReg_setS]
    exact widenCvt_mod hd (by omega) (by decide) _ _
  · subst h32
    exact (sReg_withFlags ..).trans (sReg_setS ..)

theorem fcvtGroup_vector (hd : wd = 16 ∨ wd = 32 ∨ wd = 64) (a : Arch) (s : State) (hs : f.s = false) :
    (∀ i, i < 32 → bit (execMask a f.pe f.pn f.preg) i = true →
      vOperand (fcvtGroup f a s).1 wd f.d i = (cvtEl f a.fpctl (vOperand a ws f.a i)).1 % 2 ^ wd) ∧
    (fcvtGroup f a s).1.fpflags = stick a.fpflags (anyFlags (bit (execMask a f.pe f.pn f.preg))
      (fun i => (cvtEl f a.fpctl (vOperand a ws f.a i)).2) 32) := by
  simp only [fcvtGroup, ← hws, ← hwd, hs, Bool.false_eq_true, if_false]
  refine ⟨fun i hi hx => ?_, rfl⟩
  rw [vOperand_withFlags, vOperand_setVOperand_self (by omega) _ _ _ a hi hx]
  rcases hd with h | h | h
  · subst h
    exact (Nat.mod_mod_of_dvd _ (Nat.pow_dvd_pow 2 (by decide : 16 ≤ 32))).symm.trans (widenCvt_mod (.inl rfl) (by decide) (by decide) _ _)
  · subst h
    rfl
  · subst h
    rfl

end

theorem exec_li_medlar {c w : Nat} {s : State} (hi : MedlarIssues .move c w s) (hli : moveIsLi w false = true)
    (hr : MedlarRegs (liFieldsOk (iFields w) false) (liKinds (iFields w) false) (iFields w)) :
    exec (.move (.medlar c) w) s = .next (medlarRetired c w (liMedlar (iFields w) (medlarOf s c)) s) := by
  change execMove (.medlar c) w s = _
  simp only [execMove, hli, if_true]
  rw [alu_medlar_retires hi hr]

theorem exec_li_group {g w : Nat} {x : Group} {s : State} (hli : moveIsLi w true = true)
    (hi : GroupIssues .move g w (usedRegs (liKinds (iFields w) true) (iFields w).d (iFields w).a (iFields w).b (iFields w).c
      (iFields w).pe (iFields w).preg) x s)
    (hr : GroupRegs s g (liFieldsOk (iFields w) true) (liKinds (iFields w) true) (iFields w)) :
    exec (.move (.group g) w) s = .next (groupRetired g w (if Config.liVector || (iFields w).pe then 1 else 0) x
      (liGroup (iFields w) x.arch) s) := by
  change execMove (.group g) w s = _
  simp only [execMove, hli, if_true]
  rw [alu_group_retires hi hr]

/-- A group's register operation leaves the group's arch, its registers alone changed, behind the word. -/
theorem groupWrites_of_next {g w beats d : Nat} {pair : Bool} {x : Group} {a' : Arch} {s u : State}
    (h : GroupSets d pair x.arch a') (hu : ∃ n, u = { s with freeN := n }) :
    GroupWrites g w beats d pair x a' s (groupRetired g w beats x a' u) := by
  obtain ⟨n, rfl⟩ := hu
  exact groupWrites_retired h

theorem medlarWrites_of_next {c w d : Nat} {m' : Medlar} {s u : State} (h : MedlarSets d (medlarOf s c) m')
    (hu : ∃ n, u = { s with freeN := n }) : MedlarWrites c w d s (medlarRetired c w m' u) := by
  obtain ⟨n, rfl⟩ := hu
  exact medlarWrites_retired h

/-- Settles O19: each form is the shared issue of its operation's function, whose effect on the registers its lemmas say. -/
theorem movesAndFloatingPointExecute : Obligations.MovesAndFloatingPointExecute := by
  refine ⟨fun c w s hi hli hr => ?moveMedlar, fun c w s => exec_li_medlar, fun g w x s hli hi hr => ?moveGroup,
    fun g w x s => exec_li_group, fun g w x s hi hr => ?pred, fun c w s hi hr => ?fpMedlar, fun g w x s hi hr => ?fpGroup,
    fun c w ws wd s hi hr hws hwd => ?cvtMedlar, fun g w ws wd x s hi hr hws hwd => ?cvtGroup⟩
  case moveMedlar =>
    obtain ⟨hsets, hflags, hn⟩ := moveMedlar_sets (rFields w) (medlarOf s c) s
    refine ⟨_, exec_move_medlar hi hli hr, medlarWrites_of_next hsets hn, ?_, ?_, ?_, ?_, ?_, ?_, ?_, ?_⟩
    · rw [fpflags_medlarRetired, hflags]
    · exact fun h hs => by rw [gReg_medlarRetired, moveMedlar_copyScalar h hs]
    · exact fun h hs i hi => by rw [mvEl_medlarRetired, moveMedlar_copy h hs hi]
    · exact fun h i hi => by rw [mvEl_medlarRetired, moveMedlar_broadcast h hi]
    · exact fun h hn => by rw [gReg_medlarRetired, moveMedlar_extract h hn]
    · exact fun h hn => by rw [gReg_medlarRetired, moveMedlar_extractOutside h hn]
    · exact fun h hn i hi => by rw [mvEl_medlarRetired, moveMedlar_insert h hn hi]
    · exact fun h i hi => by rw [mvEl_medlarRetired, moveMedlar_shuffle h hi]
  case moveGroup =>
    obtain ⟨hsets, hflags, hn⟩ := moveGroup_sets (rFields w) x.arch s
    exact ⟨_, _, exec_move_group hli hi hr, groupWrites_of_next hsets hn, hflags, moveGroup_copyScalar,
      fun i hi hx => ⟨moveGroup_copy hi hx, moveGroup_broadcast hi hx, moveGroup_insert hi hx, moveGroup_shuffle hi hx⟩,
      moveGroup_extract, moveGroup_extractOutside, moveGroup_activeMask, moveGroup_ballot, moveGroup_readPred,
      moveGroup_writePred⟩
  case pred =>
    obtain ⟨hsets, hscalar⟩ := predGroup_sets (rFields w) x.arch
    have hexec : exec (.pred (.group g) w) s = .next (groupRetired g w
        (if 6 ≤ (rFields w).op && (rFields w).op ≤ 9 && (rFields w).aux == 0 then 2 else 1) x
        (predGroup (rFields w) x.arch) s) := by
      change execPred (.group g) w s = _
      rw [execPred, alu_group_retires (k := fun _ => predKinds (rFields w)) hi hr]
    refine ⟨_, _, hexec, groupWrites_of_next hsets ⟨s.freeN, rfl⟩, predGroup_v .., hscalar, fun i hi hx => ?_,
      fun i hi hx => bit_pReg_predGroup_of_inactive hi hx _⟩
    have hlogic := fun h => predGroup_logic hi hx (f := rFields w) (a := x.arch) h
    exact ⟨predGroup_compare hi hx, predGroup_fcompare hi hx,
      fun h => by rw [hlogic (by omega), if_pos h],
      fun h => by rw [hlogic (by omega), if_neg (by omega), if_pos h],
      fun h => by rw [hlogic (by omega), if_neg (by omega), if_neg (by omega), if_pos h],
      fun h => by rw [hlogic (by omega), if_neg (by omega), if_neg (by omega), if_neg (by omega)]⟩
  case fpMedlar =>
    have hexec : exec (.fp (.medlar c) w) s = .next (medlarRetired c w (fpMedlar (rFields w) (medlarOf s c)) s) := by
      change execFp (.medlar c) w s = _
      rw [execFp, alu_medlar_retires hi hr]
    refine ⟨_, hexec, medlarWrites_of_next (fpMedlar_sets ..) ⟨s.freeN, rfl⟩, rfl, fun o ho => ?_⟩
    subst ho
    simp only [gReg_medlarRetired, mvEl_medlarRetired, fpflags_medlarRetired]
    exact ⟨fpMedlar_scalar _, fpMedlar_vector _⟩
  case fpGroup =>
    have hexec : exec (.fp (.group g) w) s = .next (groupRetired g w
        (if (rFields w).s then 0 else if (rFields w).aux = 0 then 2 else 1) x (fpGroup (rFields w) x.arch) s) := by
      change execFp (.group g) w s = _
      rw [execFp, alu_group_retires hi hr]
    refine ⟨_, _, hexec, bump_freeN .., groupWrites_of_next (fpGroup_sets ..) ⟨s.freeN, rfl⟩, fun o ho => ?_⟩
    subst ho
    exact ⟨fpGroup_scalar _, fpGroup_vector _⟩
  case cvtMedlar =>
    have hd := cvtDstBits_cases hr.1
    rw [← hwd] at hd
    obtain ⟨hsets, hn⟩ := fcvtMedlar_sets (rFields w) (medlarOf s c) s
    have hexec : exec (.fcvt (.medlar c) w) s = .next (medlarRetired c w (fcvtMedlar (rFields w) (medlarOf s c) s).1
        (fcvtMedlar (rFields w) (medlarOf s c) s).2) := by
      change execFcvt (.medlar c) w s = _
      rw [execFcvt, alu_medlar_retires hi hr]
    refine ⟨_, hexec, medlarWrites_of_next hsets hn, fun o ho => ?_⟩
    subst ho
    simp only [gReg_medlarRetired, mvEl_medlarRetired, fpflags_medlarRetired]
    exact ⟨fcvtMedlar_scalar hws hwd hd _ s, fcvtMedlar_vector hws hwd (by omega) _ s⟩
  case cvtGroup =>
    have hd := cvtDstBits_cases hr.1
    rw [← hwd] at hd
    obtain ⟨hsets, hn⟩ := fcvtGroup_sets (rFields w) x.arch s
    have hexec : exec (.fcvt (.group g) w) s = .next (groupRetired g w
        (if (rFields w).s then 0 else if ws = 64 ∨ wd = 64 then 2 else 1) x (fcvtGroup (rFields w) x.arch s).1
        (fcvtGroup (rFields w) x.arch s).2) := by
      change execFcvt (.group g) w s = _
      rw [execFcvt, ← hws, ← hwd, alu_group_retires hi hr]
    refine ⟨_, _, hexec, hwd ▸ groupWrites_of_next hsets hn, fun o ho => ?_⟩
    subst ho
    exact ⟨fcvtGroup_scalar hws hwd hd _ s, fcvtGroup_vector hws hwd hd _ s⟩

end Sys2Proof.Machine

/-! ### The state that an answer leaves -/

namespace Sys2Proof.Machine

/-- The state behind an answer to a command given in s: s itself where it did not complete. -/
def afterAnswer (s : State) : Answer → State
  | .next t => t
  | .fault _ => s
  | .refused _ => s

/-- The state behind the effect of an instruction issued in s. -/
def Eff.after (s : State) : Eff → State
  | .done t => t
  | .trap _ t => t
  | .wait _ => s

/-- The state behind a look at a line's home from s. -/
def AtHome.after (s : State) : AtHome → State
  | .ready t => t
  | .waits _ => s

/-- The state behind a posted store's way to the window from s. -/
def Posted.after (s : State) : Posted → State
  | .nothing => s
  | .waits => s
  | .arrives _ _ _ t => t
  | .refused t => t

/-- The state behind the read of a ring's slot. -/
def Slot.after : Slot → State
  | .waits u => u.st
  | .failed _ t => t
  | .got _ t => t

/-- The state behind one part of a unit's step. -/
def FGo.after {α : Type} : FGo α → State
  | .on _ u => u.st
  | .end_ _ u => u.st
  | .stop u => u.st

@[simp] theorem afterAnswer_next (s t : State) : afterAnswer s (.next t) = t := rfl
@[simp] theorem afterAnswer_fault (s : State) (f : Fault) : afterAnswer s (.fault f) = s := rfl
@[simp] theorem afterAnswer_refused (s : State) (r : Refusal) : afterAnswer s (.refused r) = s := rfl
@[simp] theorem afterAnswer_stuck (s : State) (w : String) : afterAnswer s (stuck w) = s := rfl
@[simp] theorem Eff.after_done (s t : State) : Eff.after s (.done t) = t := rfl
@[simp] theorem Eff.after_trap (s t : State) (f : FaultInfo) : Eff.after s (.trap f t) = t := rfl
@[simp] theorem Eff.after_wait (s : State) (w : String) : Eff.after s (.wait w) = s := rfl
@[simp] theorem AtHome.after_ready (s t : State) : AtHome.after s (.ready t) = t := rfl
@[simp] theorem AtHome.after_waits (s : State) (w : Option Want) : AtHome.after s (.waits w) = s := rfl
@[simp] theorem Posted.after_nothing (s : State) : Posted.after s .nothing = s := rfl
@[simp] theorem Posted.after_waits (s : State) : Posted.after s .waits = s := rfl
@[simp] theorem Posted.after_arrives (s t : State) (o n v : Nat) : Posted.after s (.arrives o n v t) = t := rfl
@[simp] theorem Posted.after_refused (s t : State) : Posted.after s (.refused t) = t := rfl
@[simp] theorem Slot.after_waits (u : UStep) : Slot.after (.waits u) = u.st := rfl
@[simp] theorem Slot.after_failed (o : Status) (t : State) : Slot.after (.failed o t) = t := rfl
@[simp] theorem Slot.after_got (r : Nat) (t : State) : Slot.after (.got r t) = t := rfl
@[simp] theorem FGo.after_on {α : Type} (x : α) (u : UStep) : FGo.after (.on x u) = u.st := rfl
@[simp] theorem FGo.after_end {α : Type} (o : Status) (u : UStep) : FGo.after (.end_ o u : FGo α) = u.st := rfl
@[simp] theorem FGo.after_stop {α : Type} (u : UStep) : FGo.after (.stop u : FGo α) = u.st := rfl

theorem foldl_hbm {α : Type} {f : State → α → State} (h : ∀ t x, (f t x).mem.hbm = t.mem.hbm) (l : List α) (s : State) :
    (l.foldl f s).mem.hbm = s.mem.hbm :=
  foldl_frame (fun t => t.mem.hbm) f h l s

@[simp] theorem ite_hbm (c : Prop) [Decidable c] (s t : State) :
    (if c then s else t).mem.hbm = if c then s.mem.hbm else t.mem.hbm :=
  apply_ite (fun u : State => u.mem.hbm) c s t

theorem foldl_hbm_step {α : Type} {f : UStep → α → UStep} (h : ∀ u x, (f u x).st.mem.hbm = u.st.mem.hbm) (l : List α)
    (u : UStep) : (l.foldl f u).st.mem.hbm = u.st.mem.hbm := by
  induction l generalizing u with
  | nil => rfl
  | cons x l ih => exact (ih _).trans (h u x)

theorem getD_findSome?_hbm {α : Type} {f : α → Option State} {s : State}
    (h : ∀ x, ((f x).getD s).mem.hbm = s.mem.hbm) (l : List α) : ((l.findSome? f).getD s).mem.hbm = s.mem.hbm := by
  induction l with
  | nil => rfl
  | cons x l ih =>
    have hx := h x
    rw [List.findSome?_cons]
    cases hf : f x with
    | none => exact ih
    | some t => simpa [hf] using hx

theorem foldl_hbm_snd {α β : Type} {f : β × State → α → β × State} (h : ∀ a x, (f a x).2.mem.hbm = a.2.mem.hbm)
    (l : List α) (a : β × State) : (l.foldl f a).2.mem.hbm = a.2.mem.hbm := by
  induction l generalizing a with
  | nil => rfl
  | cons x l ih => exact (ih _).trans (h a x)

theorem foldl_hbm_step_snd {α β : Type} {f : β × UStep → α → β × UStep} (h : ∀ a x, (f a x).2.st.mem.hbm = a.2.st.mem.hbm)
    (l : List α) (a : β × UStep) : (l.foldl f a).2.st.mem.hbm = a.2.st.mem.hbm := by
  induction l generalizing a with
  | nil => rfl
  | cons x l ih => exact (ih _).trans (h a x)

theorem fThen_hbm {α β : Type} {g : FGo α} {f : α → UStep → FGo β} {s : State} (hg : g.after.mem.hbm = s.mem.hbm)
    (hf : ∀ x u, (f x u).after.mem.hbm = u.st.mem.hbm) : (fThen g f).after.mem.hbm = s.mem.hbm := by
  cases g with
  | on x u =>
    rw [fThen]
    split
    · exact hg
    · exact (hf x u).trans hg
  | end_ o u => exact hg
  | stop u => exact hg

theorem of_getD_hbm {α : Type} {o : Option α} {p : α → State} {s : State} {a : α} (h : ((o.map p).getD s).mem.hbm = s.mem.hbm)
    (ho : o = some a) : (p a).mem.hbm = s.mem.hbm := by simpa [ho] using h

theorem afterAnswer_of_hbm {s t : State} {a : Answer} (h : t.mem.hbm = s.mem.hbm) (ha : (afterAnswer t a).mem.hbm =
    t.mem.hbm) :
    (afterAnswer s a).mem.hbm = s.mem.hbm := by
  cases a with
  | next u => exact ha.trans h
  | fault f => rfl
  | refused r => rfl

theorem afterAnswer_ite_hbm {c : Prop} [Decidable c] {s : State} {a b : Answer} (ha : (afterAnswer s a).mem.hbm = s.mem.hbm)
    (hb : (afterAnswer s b).mem.hbm = s.mem.hbm) : (afterAnswer s (if c then a else b)).mem.hbm = s.mem.hbm := by
  split
  · exact ha
  · exact hb

@[simp] theorem execPowerUp_hbm (strapPins absentClocks : Nat) (s : State) :
    (afterAnswer s (execPowerUp strapPins absentClocks s)).mem.hbm = s.mem.hbm := by
  simp [execPowerUp]

@[simp] theorem freshChallenge_hbm (s : State) : (freshChallenge s).mem.hbm = s.mem.hbm := rfl

@[simp] theorem regenerateKey_hbm (s : State) : (regenerateKey s).mem.hbm = s.mem.hbm := by
  rw [regenerateKey]
  split <;> simp

@[simp] theorem execResetRelease_hbm (s : State) : (afterAnswer s (execResetRelease s)).mem.hbm = s.mem.hbm := by
  have h : ∀ (st : Nat) (t : State), ((List.range 24).foldl (fun t n => setDv (K.portCfg + n) (portDefault st n) t) t).mem.hbm
      = t.mem.hbm := fun st t => foldl_hbm (fun t n => congrArg MemSys.hbm (setDv_mem ..)) _ t
  simp only [execResetRelease, afterAnswer_next]
  split
  · rfl
  split
  · rw [setPort_mem, freshChallenge_hbm, regenerateKey_hbm, h]
  · rw [freshChallenge_hbm, regenerateKey_hbm, h]

@[simp] theorem portDown_hbm (lp : Nat) (s : State) : (portDown lp s).mem.hbm = s.mem.hbm := rfl

@[simp] theorem bootStatus_hbm (failure kind : Nat) (s : State) : (bootStatus failure kind s).mem.hbm = s.mem.hbm := rfl

@[simp] theorem tryImages_hbm (kind : Nat) (a : List (Nat × Option Image)) (s : State) :
    (tryImages kind a s).2.mem.hbm = s.mem.hbm := by
  fun_induction tryImages kind a s <;> simp_all

@[simp] theorem extendMeas_hbm (n : Nat) (d : BitVec 512) (s : State) : (extendMeas n d s).mem.hbm = s.mem.hbm := rfl

@[simp] theorem takeImage_hbm (kind : Nat) (i : Image) (s : State) : (takeImage kind i s).mem.hbm = s.mem.hbm := rfl

@[simp] theorem usedSlotB_hbm (s : State) : (usedSlotB s).mem.hbm = s.mem.hbm := rfl

@[simp] theorem imageMissing_hbm (kind : Nat) (s : State) : (imageMissing kind s).mem.hbm = s.mem.hbm := by
  simp [imageMissing]

@[simp] theorem fetchImage_hbm (kind : Nat) (from_ : List (Nat × Option Image)) (s : State) :
    (fetchImage kind from_ s).2.mem.hbm = s.mem.hbm := by
  grind [fetchImage, tryImages_hbm, takeImage_hbm, usedSlotB_hbm, imageMissing_hbm]

@[simp] theorem execStageLoaderLoad_hbm (slotA slotB peer : Option Image) (s : State) :
    (afterAnswer s (execStageLoaderLoad slotA slotB peer s)).mem.hbm = s.mem.hbm := by
  grind [execStageLoaderLoad, atStep_mem, fetchImage_hbm, afterAnswer_next, afterAnswer_stuck, afterAnswer_fault]

@[simp] theorem execPeerBootTimeout_hbm (s : State) : (afterAnswer s (execPeerBootTimeout s)).mem.hbm = s.mem.hbm := by
  rw [execPeerBootTimeout]
  split <;> simp

theorem outside_hbm {s t : State} (h : t.mem.hbm = s.mem.hbm) : (afterAnswer s (outside s t)).mem.hbm = s.mem.hbm := by
  rw [outside, afterAnswer_next]
  split
  · exact h
  · rfl

@[simp] theorem execPeerBootRequest_hbm (lport : Nat) (s : State) :
    (afterAnswer s (execPeerBootRequest lport s)).mem.hbm = s.mem.hbm := by
  simp only [execPeerBootRequest, outside_hbm, send_mem, ite_hbm, ite_self]

@[simp] theorem bumpRaw_hbm (key n : Nat) (s : State) : (bumpRaw key n s).1.mem.hbm = s.mem.hbm := by
  grind [bumpRaw, setDv_mem]

theorem commit_hbm (src key : Nat) (act : State → WriteResult) (s : State) (hact : ∀ (y0 : State),
    (act y0).2.mem.hbm = y0.mem.hbm) :
    (commit src key act s).2.mem.hbm = s.mem.hbm := by
  simp only [commit]
  repeat' split
  all_goals simp only [refuseWrite_mem, acceptWrite_mem, hact]

theorem commitBlob_hbm (src key : Nat) (b : List Byte) (act : List Byte → State →
    WriteResult) (s : State) (hact : ∀ (y0 : List Byte) (y1 : State), (act y0 y1).2.mem.hbm = y1.mem.hbm) :
    (commitBlob src key b act s).2.mem.hbm = s.mem.hbm := by
  simp only [commitBlob]
  repeat' split
  all_goals simp only [implies_true, commit_hbm, hact]

@[simp] theorem actLoadData_hbm (b : List Byte) (s : State) : (actLoadData b s).2.mem.hbm = s.mem.hbm := rfl

@[simp] theorem execBootLoadData_hbm (src : Nat) (bytes : List Byte) (s : State) :
    (afterAnswer s (execBootLoadData src bytes s)).mem.hbm = s.mem.hbm := by
  grind [execBootLoadData, outside_hbm, commitBlob_hbm, actLoadData_hbm, afterAnswer_next, afterAnswer_stuck,
    afterAnswer_fault]

theorem commitScalar_hbm (src key v : Nat) (act : Nat → State →
    WriteResult) (s : State) (hact : ∀ (y0 : Nat) (y1 : State), (act y0 y1).2.mem.hbm = y1.mem.hbm) :
    (commitScalar src key v act s).2.mem.hbm = s.mem.hbm := by
  simp only [commitScalar]
  repeat' split
  all_goals simp only [implies_true, commit_hbm, hact]

@[simp] theorem imageArrived_hbm (kind : Nat) (i : Image) (s : State) : (imageArrived kind i s).mem.hbm = s.mem.hbm := by
  simp [imageArrived]

@[simp] theorem actLoadGo_hbm (len : Nat) (s : State) : (actLoadGo len s).2.mem.hbm = s.mem.hbm := by
  simp only [actLoadGo]
  repeat' split
  all_goals simp only [bootStatus_hbm, imageArrived_hbm]

@[simp] theorem execBootLoadGo_hbm (src len : Nat) (s : State) :
    (afterAnswer s (execBootLoadGo src len s)).mem.hbm = s.mem.hbm := by
  grind [execBootLoadGo, outside_hbm, commitScalar_hbm, actLoadGo_hbm, afterAnswer_next, afterAnswer_stuck, afterAnswer_fault]

@[simp] theorem execSettSelfTest_hbm (failed : Nat) (s : State) :
    (afterAnswer s (execSettSelfTest failed s)).mem.hbm = s.mem.hbm := by
  rw [execSettSelfTest]
  split <;> simp

@[simp] theorem eraseForDebug_hbm (s : State) : (eraseForDebug s).mem.hbm = s.mem.hbm := rfl

@[simp] theorem dropAnswers_hbm (p : TOwner → Bool) (s : State) : (dropAnswers p s).mem.hbm = s.mem.hbm := rfl

@[simp] theorem dropArrived_hbm (o : TOwner) (s : State) : (dropArrived o s).mem.hbm = s.mem.hbm := rfl

@[simp] theorem endFetch_hbm (q : Nat) (s : State) : (endFetch q s).mem.hbm = s.mem.hbm := rfl

@[simp] theorem countCompleted_hbm (gen op : Nat) (s : State) : (countCompleted gen op s).mem.hbm = s.mem.hbm := by
  simp [countCompleted]

@[simp] theorem addRecord_hbm (q : Nat) (r : CplRec) (s : State) : (addRecord q r s).mem.hbm = s.mem.hbm := by
  simp [addRecord]

@[simp] theorem finishWith_hbm (key : Nat) (st0 : Status) (s : State) : (finishWith key st0 s).mem.hbm = s.mem.hbm := by
  rw [finishWith]
  split <;> simp

@[simp] theorem signalEvent_hbm (key : Nat) (j : Job) (st : Status) (s : State) :
    (signalEvent key j st s).mem.hbm = s.mem.hbm := by
  simp [signalEvent]

@[simp] theorem finishJob_hbm (key : Nat) (s : State) : (finishJob key s).mem.hbm = s.mem.hbm := by
  rw [finishJob]
  split <;> simp

@[simp] theorem onJob_hbm (key : Nat) (f : Job → Job) (s : State) : (onJob key f s).mem.hbm = s.mem.hbm := by
  rw [onJob]
  split <;> simp

@[simp] theorem setDetail_hbm (key d : Nat) (s : State) : (setDetail key d s).mem.hbm = s.mem.hbm := by
  simp [setDetail]

@[simp] theorem addOut_hbm (key : Nat) (o : Status) (s : State) : (addOut key o s).mem.hbm = s.mem.hbm := by
  rw [addOut]
  split <;> simp

@[simp] theorem countStale_hbm (s : State) : (countStale s).mem.hbm = s.mem.hbm := by
  simp [countStale]

@[simp] theorem landing_hbm (s : State) (c va : Nat) (n : Need) : (landing s c va n).2.mem.hbm = s.mem.hbm := by
  unfold landing
  repeat' split
  all_goals simp

@[simp] theorem UStep.st_hbm (self : UStep) : (UStep.st self).mem.hbm = self.st.mem.hbm := rfl

@[simp] theorem countSegFault_hbm (s : State) : (countSegFault s).mem.hbm = s.mem.hbm := by
  simp [countSegFault]

@[simp] theorem uFault_hbm (f : FaultInfo) (u : UStep) : (uFault f u).st.mem.hbm = u.st.mem.hbm := by
  simp [uFault]

@[simp] theorem UStep.waiting_hbm (w : Option Want) (u : UStep) : (UStep.waiting w u).st.mem.hbm = u.st.mem.hbm := rfl

@[simp] theorem uPlace_hbm (va : Nat) (need : Need) (u : UStep) : (uPlace va need u).2.st.mem.hbm = u.st.mem.hbm := by
  simp only [uPlace]
  repeat' split
  all_goals simp only [landing_hbm, uFault_hbm, UStep.waiting_hbm]

theorem UStep.on_hbm (u : UStep) (f : State → State) (hf : ∀ (y0 : State), (f y0).mem.hbm = y0.mem.hbm) :
    (UStep.on u f).st.mem.hbm = u.st.mem.hbm := by
  simp only [UStep.on, hf]

@[simp] theorem countDenied_hbm (ctx domain off : Nat) (s : State) :
    (countDenied ctx domain off s).mem.hbm = s.mem.hbm := by
  grind [countDenied, setDv_mem, sumErr_mem, bump_mem]

@[simp] theorem uDenied_hbm (x : Xl) (va off : Nat) (write : Bool) (u : UStep) :
    (uDenied x va off write u).st.mem.hbm = u.st.mem.hbm := by
  grind [uDenied, uFault_hbm, UStep.st_hbm, UStep.on_hbm, countDenied_hbm]

@[simp] theorem touchLine_hbm (line : Nat) (s : State) : (touchLine line s).mem.hbm = s.mem.hbm := rfl

@[simp] theorem setSpoil_hbm (slice : Nat) (q : List (Nat × BLine)) (s : State) :
    (setSpoil slice q s).mem.hbm = s.mem.hbm := rfl

@[simp] theorem pickVictim_hbm (line : Nat) (s : State) : (pickVictim line s).2.mem.hbm = s.mem.hbm := by
  rw [pickVictim]
  split <;> simp

@[simp] theorem benchDrop_hbm (line : Nat) (s : State) : (benchDrop line s).mem.hbm = s.mem.hbm := rfl

@[simp] theorem benchPut_hbm (line : Nat) (b : BLine) (s : State) : (benchPut line b s).mem.hbm = s.mem.hbm := rfl

@[simp] theorem recallLine_hbm (line : Nat) (s : State) : (recallLine line s).mem.hbm = s.mem.hbm := by
  simp only [recallLine]
  repeat' split
  all_goals simp only [touchLine_hbm, setSpoil_hbm, pickVictim_hbm, benchDrop_hbm, bump_mem, benchPut_hbm]

@[simp] theorem foundCorrected_hbm (line : Nat) (s : State) : (foundCorrected line s).mem.hbm = s.mem.hbm := by
  simp [foundCorrected]

@[simp] theorem foundUncorrectable_hbm (line : Nat) (s : State) : (foundUncorrectable line s).mem.hbm = s.mem.hbm := by
  simp [foundUncorrectable]

@[simp] theorem decodeHalf_hbm (line x : Nat) (f : Fetched128) (s : State) :
    (decodeHalf line x f s).2.mem.hbm = s.mem.hbm := by
  rw [decodeHalf]
  split <;> simp

@[simp] theorem hbmHalf_hbm (line x : Nat) (s : State) : (hbmHalf line x s).2.mem.hbm = s.mem.hbm := by
  simp only [hbmHalf]
  repeat' split
  all_goals simp only [decodeHalf_hbm]

@[simp] theorem fillHalf_hbm (line x : Nat) (tracked : Bool) (s : State) :
    (fillHalf line x tracked s).2.mem.hbm = s.mem.hbm := by
  simp [fillHalf]

@[simp] theorem wholePlain_hbm (line : Nat) (s : State) : (wholePlain line s).2.mem.hbm = s.mem.hbm := by
  rw [wholePlain]
  split <;> simp

@[simp] theorem zmapGet_hbm (line : Nat) (s : State) : (zmapGet line s).2.mem.hbm = s.mem.hbm := by
  rw [zmapGet]
  split <;> simp

@[simp] theorem zmapSet_hbm (line : Nat) (v : Bool) (s : State) : (zmapSet line v s).mem.hbm = s.mem.hbm := by
  simp [zmapSet]

@[simp] theorem setSched_hbm (pc : Nat) (q : List HbmReq) (s : State) : (setSched pc q s).mem.hbm = s.mem.hbm := rfl

@[simp] theorem schedPush_hbm (r : HbmReq) (s : State) : (schedPush r s).mem.hbm = s.mem.hbm := by
  simp [schedPush]

@[simp] theorem schedWrite_hbm (line : Nat) (d : Line) (m : BitVec 128) (poison : Bool) (s : State) :
    (schedWrite line d m poison s).mem.hbm = s.mem.hbm := by
  simp [schedWrite]

@[simp] theorem setCtl_hbm (c : Nat) (k : Ctl) (s : State) : (setCtl c k s).mem.hbm = s.mem.hbm := rfl

@[simp] theorem writeBackFull_hbm (line : Nat) (d : Line) (poison : Bool) (s : State) :
    (writeBackFull line d poison s).mem.hbm = s.mem.hbm := by
  simp [writeBackFull]

@[simp] theorem wcbDepart_hbm (c : Nat) (e : WcbEntry) (s : State) : (wcbDepart c e s).mem.hbm = s.mem.hbm := by
  simp [wcbDepart]

@[simp] theorem wcbMerge_hbm (line : Nat) (d : Line) (m : BitVec 128) (poison : Bool) (s : State) :
    (wcbMerge line d m poison s).mem.hbm = s.mem.hbm := by
  simp only [wcbMerge]
  repeat' split
  all_goals simp only [wcbDepart_hbm, setCtl_hbm]

@[simp] theorem spoilDepart_hbm (line : Nat) (b : BLine) (s : State) : (spoilDepart line b s).mem.hbm = s.mem.hbm := by
  simp [spoilDepart]

@[simp] theorem evictLine_hbm (line : Nat) (s : State) : (evictLine line s).mem.hbm = s.mem.hbm := by
  simp only [evictLine]
  repeat' split
  all_goals simp only [benchDrop_hbm, spoilDepart_hbm, setSpoil_hbm]

@[simp] theorem makeRoom_hbm (line a : Nat) (s : State) : (makeRoom line a s).mem.hbm = s.mem.hbm := by
  fun_induction makeRoom line a s <;> grind [pickVictim_hbm, evictLine_hbm]

@[simp] theorem allocPut_hbm (line : Nat) (b : BLine) (s : State) : (allocPut line b s).mem.hbm = s.mem.hbm := by
  simp [allocPut]

@[simp] theorem zeroFill_hbm (line : Nat) (s : State) : (zeroFill line s).2.mem.hbm = s.mem.hbm := by
  rw [zeroFill]
  split <;> simp

@[simp] theorem atHome_hbm (line : Nat) (m : BitVec 128) (writes : Bool) (x : Xl) (o : TOwner) (s : State) :
    (AtHome.after s (atHome line m writes x o s)).mem.hbm = s.mem.hbm := by
  simp only [atHome]
  repeat' split
  all_goals simp only [recallLine_hbm, bump_mem, zeroFill_hbm, AtHome.after_ready, AtHome.after_waits]

@[simp] theorem noteWrite_hbm (line : Nat) (s : State) : (noteWrite line s).mem.hbm = s.mem.hbm := by
  simp [noteWrite]

@[simp] theorem storeData_hbm (line : Nat) (tracked : Bool) (d : Line) (m : BitVec 128) (poison : Bool) (s : State) :
    (storeData line tracked d m poison s).mem.hbm = s.mem.hbm := by
  simp only [storeData]
  repeat' split
  all_goals simp only [recallLine_hbm, zmapGet_hbm, bump_mem, benchPut_hbm, zmapSet_hbm, allocPut_hbm]

@[simp] theorem storeLine_hbm (line : Nat) (tracked : Bool) (d : Line) (m : BitVec 128) (poison : Bool) (s : State) :
    (storeLine line tracked d m poison s).mem.hbm = s.mem.hbm := by
  simp [storeLine]

@[simp] theorem homeStore_hbm (x : Xl) (off : Nat) (d : Line) (m : BitVec 128) (poison : Bool) (u : UStep) :
    (homeStore x off d m poison u).st.mem.hbm = u.st.mem.hbm := by
  grind [homeStore, atHome_hbm, UStep.st_hbm, UStep.waiting_hbm, storeLine_hbm, AtHome.after_ready, AtHome.after_waits]

@[simp] theorem UStep.met_hbm (u : UStep) (o : Status) : (UStep.met u o).st.mem.hbm = u.st.mem.hbm := by
  rw [UStep.met]
  split <;> simp

@[simp] theorem sendFlits_hbm (lp vc n : Nat) (s : State) : (sendFlits lp vc n s).mem.hbm = s.mem.hbm := by
  simp [sendFlits]

@[simp] theorem leaveTxn_hbm (id : Nat) (x : Txn) (s : State) : (leaveTxn id x s).mem.hbm = s.mem.hbm := by
  rw [leaveTxn]
  split <;> simp

@[simp] theorem pumpConn_hbm (conn a : Nat) (s : State) : (pumpConn conn a s).mem.hbm = s.mem.hbm := by
  fun_induction pumpConn conn a s <;> simp_all

@[simp] theorem openTxnWith_hbm (poison : Bool) (reduce : Option (Nat × Nat)) (xl : Xl) (len : Nat) (read : Bool) (bytes
  : List Byte) (owner : TOwner) (s : State) :
    (openTxnWith poison reduce xl len read bytes owner s).2.mem.hbm = s.mem.hbm := by
  simp [openTxnWith]

theorem uPlace_eq_hbm {va : Nat} {need : Need} {u v : UStep} {x : Option Xl} (h : uPlace va need u = (x, v)) :
    v.st.mem.hbm = u.st.mem.hbm := by
  simpa [h] using uPlace_hbm va need u

@[simp] theorem uStoreLine_hbm (va : Nat) (d : Line) (m : BitVec 128) (poison : Bool) (u : UStep) : (uStoreLine va d m
  poison u).st.mem.hbm = u.st.mem.hbm := by
  rw [uStoreLine]
  split
  · rfl
  split
  next heq => exact uPlace_eq_hbm heq
  next v heq =>
    rw [← uPlace_eq_hbm heq]
    split
    · split
      · simp
      · split <;> simp
    · simp
    · split
      · simp
      · exact foldl_hbm_step (fun w r => UStep.on_hbm _ _ fun t => openTxnWith_hbm ..) _ _

@[simp] theorem uWrite_hbm (a x : Nat) (x2 x3 : Nat) (u : UStep) : (uWrite a x x2 x3 u).st.mem.hbm = u.st.mem.hbm := by
  fun_induction uWrite a x x2 x3 u <;> simp_all

@[simp] theorem uPut_hbm (va n val : Nat) (u : UStep) : (uPut va n val u).st.mem.hbm = u.st.mem.hbm := by
  simp [uPut]

@[simp] theorem UStep.start_hbm (ctx key die : Nat) (s : State) :
    (UStep.start ctx key die s).st.mem.hbm = s.mem.hbm := rfl

@[simp] theorem onRoute_hbm (d key : Nat) (f : Route → Route) (s : State) :
    (onRoute d key f s).mem.hbm = s.mem.hbm := rfl

@[simp] theorem expertDone_hbm (d key e : Nat) (st : Status) (s : State) :
    (expertDone d key e st s).1.mem.hbm = s.mem.hbm := by
  rw [expertDone]
  split <;> simp

@[simp] theorem faceDone_hbm (die : Nat) (r : FRun) (s : State) : (faceDone die r s).1.mem.hbm = s.mem.hbm := by
  simp only [faceDone]
  repeat' split
  all_goals simp only [foldl_hbm, implies_true, bump_mem, finishJob_hbm, setDetail_hbm, addOut_hbm, expertDone_hbm]

@[simp] theorem markEnded_hbm (handle : Nat) (s : State) : (markEnded handle s).mem.hbm = s.mem.hbm := rfl

@[simp] theorem setReserved_hbm (d : Nat) (ws : List Work) (s : State) : (setReserved d ws s).mem.hbm = s.mem.hbm := by
  rw [setReserved]
  split <;> simp

@[simp] theorem dropWork_hbm (p : Work → Bool) (d : Nat) (s : State) : (dropWork p d s).mem.hbm = s.mem.hbm := by
  simp [dropWork]

@[simp] theorem pickSlot_hbm (n : Nat) (used : List Nat) (s : State) : (pickSlot n used s).2.mem.hbm = s.mem.hbm := by
  rw [pickSlot]
  split <;> simp

@[simp] theorem writeHead_hbm (c line : Nat) (s : State) : (writeHead c line s).mem.hbm = s.mem.hbm := by
  rw [writeHead]
  split <;> simp

@[simp] theorem openTxn_hbm (xl : Xl) (len : Nat) (read : Bool) (bytes : List Byte) (owner : TOwner) (s : State) :
    (openTxn xl len read bytes owner s).2.mem.hbm = s.mem.hbm := by
  simp [openTxn]

@[simp] theorem issueReq_hbm (r0 : Req) (s : State) : (issueReq r0 s).mem.hbm = s.mem.hbm := by
  simp only [issueReq]
  repeat' split
  all_goals simp only [countDenied_hbm, countStale_hbm, openTxn_hbm]

@[simp] theorem sendComb_hbm (c : Nat) (e : CombEntry) (s : State) : (sendComb c e s).mem.hbm = s.mem.hbm := by
  simp [sendComb, foldl_hbm]

@[simp] theorem drainComb_hbm (c : Nat) (s : State) : (drainComb c s).mem.hbm = s.mem.hbm := by
  simp [drainComb, foldl_hbm]

@[simp] theorem medlarTrap_hbm (c : Nat) (cause : Cause) (addr : Nat) (tpc : BitVec 64) (imprecise : Bool) (s : State) :
    (medlarTrap c cause addr tpc imprecise s).mem.hbm = s.mem.hbm := by
  simp [medlarTrap]

@[simp] theorem takeHeld_hbm (c : Nat) (s : State) : (takeHeld c s).mem.hbm = s.mem.hbm := by
  rw [takeHeld]
  split <;> simp

@[simp] theorem retireLoads_hbm (c a : Nat) (s : State) : (retireLoads c a s).mem.hbm = s.mem.hbm := by
  fun_induction retireLoads c a s <;> simp_all

@[simp] theorem onLoad_hbm (c id : Nat) (f : PendLoad → PendLoad) (s : State) :
    (onLoad c id f s).mem.hbm = s.mem.hbm := by
  simp [onLoad]

@[simp] theorem medlarPart_hbm (c id : Nat) (shift val : Nat) (poison : Bool) (s : State) :
    (medlarPart c id shift val poison s).mem.hbm = s.mem.hbm := by
  simp [medlarPart]

@[simp] theorem serveWaiting_hbm (c line : Nat) (d : Line) (poison : Bool) (s : State) :
    (serveWaiting c line d poison s).mem.hbm = s.mem.hbm := by
  simp [serveWaiting, foldl_hbm]

@[simp] theorem arrive_hbm (c line : Nat) (st : CState) (d : Line) (poison : Bool) (s : State) :
    (arrive c line st d poison s).mem.hbm = s.mem.hbm := by
  rw [arrive]
  split <;> simp

@[simp] theorem noteSeg_hbm (c : Nat) (x : Xl) (s : State) : (noteSeg c x s).mem.hbm = s.mem.hbm := by
  simp [noteSeg]

@[simp] theorem askLine_hbm (c line : Nat) (k : CohKind) (x : Xl) (va : Nat) (demand : Bool) (s : State) :
    (askLine c line k x va demand s).mem.hbm = s.mem.hbm := by
  simp [askLine]

@[simp] theorem startPart_hbm (c : Nat) (w : WaitLoad) (s : State) : (startPart c w s).mem.hbm = s.mem.hbm := by
  simp only [startPart]
  repeat' split
  all_goals simp only [noteSeg_hbm, medlarPart_hbm, askLine_hbm, setMedlar_mem, issueReq_hbm]

@[simp] theorem replayLoads_hbm (c line : Nat) (s : State) : (replayLoads c line s).mem.hbm = s.mem.hbm := by
  simp [replayLoads, foldl_hbm]

@[simp] theorem dropHolder_hbm (line c : Nat) (s : State) : (dropHolder line c s).mem.hbm = s.mem.hbm := by
  simp [dropHolder]

@[simp] theorem takeData_hbm (line : Nat) (d : Option (Line × Bool)) (dirty : Bool) (s : State) :
    (takeData line d dirty s).mem.hbm = s.mem.hbm := by
  unfold takeData
  repeat' split
  all_goals simp

@[simp] theorem evictNow_hbm (c line : Nat) (s : State) : (evictNow c line s).mem.hbm = s.mem.hbm := by
  rw [evictNow]
  split <;> simp

@[simp] theorem makeL2Room_hbm (c line : Nat) (s : State) : (makeL2Room c line s).mem.hbm = s.mem.hbm := by
  simp only [makeL2Room]
  repeat' split
  all_goals simp only [takeFree_mem, evictNow_hbm, atLeast_mem]

@[simp] theorem countDeferral_hbm (c : Nat) (s : State) : (countDeferral c s).mem.hbm = s.mem.hbm := by
  simp [countDeferral]

@[simp] theorem answerSnoop_hbm (c line : Nat) (k : SnoopKind) (s : State) :
    (answerSnoop c line k s).2.mem.hbm = s.mem.hbm := by
  simp only [answerSnoop]
  repeat' split
  all_goals simp only [replayLoads_hbm, setMedlar_mem]

@[simp] theorem dirAfter_hbm (line c : Nat) (k : SnoopKind) (s : State) : (dirAfter line c k s).mem.hbm = s.mem.hbm := by
  unfold dirAfter
  repeat' split
  all_goals simp

@[simp] theorem homeHears_hbm (c line : Nat) (k : SnoopKind) (d : Option (Line × Bool)) (dirty : Bool) (s : State) :
    (homeHears c line k d dirty s).mem.hbm = s.mem.hbm := by
  simp [homeHears]

@[simp] theorem markGranted_hbm (c line : Nat) (k : CohKind) (s : State) :
    (markGranted c line k s).mem.hbm = s.mem.hbm := rfl

@[simp] theorem demoteSpeaker_hbm (c line : Nat) (s : State) : (demoteSpeaker c line s).mem.hbm = s.mem.hbm := by
  simp only [demoteSpeaker]
  repeat' split
  all_goals simp only [setMedlar_mem, setMsgs_mem]

@[simp] theorem grantLine_hbm (c line : Nat) (k : CohKind) (st : CState) (tracked : Bool) (s0 : State) :
    (grantLine c line k st tracked s0).mem.hbm = s0.mem.hbm := by
  simp [grantLine]

@[simp] theorem setTag_hbm (line : Nat) (x : MissTag) (s : State) : (setTag line x s).mem.hbm = s.mem.hbm := rfl

@[simp] theorem heldForTag_hbm (line : Nat) (req : Option Nat) (s : State) :
    (heldForTag line req s).mem.hbm = s.mem.hbm := by
  simp [heldForTag]

@[simp] theorem missLine_hbm (line : Nat) (a : Asker) (s : State) : (missLine line a s).2.mem.hbm = s.mem.hbm := by
  simp only [missLine]
  repeat' split
  all_goals simp only [setTag_hbm, heldForTag_hbm, bump_mem, recallLine_hbm, schedPush_hbm, zeroFill_hbm]

@[simp] theorem countSnoop_hbm (line : Nat) (s : State) : (countSnoop line s).mem.hbm = s.mem.hbm := by
  simp [countSnoop]

@[simp] theorem startSnoops_hbm (line : Nat) (serves : CohFor) (k : SnoopKind) (cores : List Nat) (s : State) :
    (startSnoops line serves k cores s).mem.hbm = s.mem.hbm := by
  simp [startSnoops, foldl_hbm]

@[simp] theorem homeServe_hbm (c line : Nat) (k : CohKind) (x : Xl) (demand again : Bool) (s : State) :
    (homeServe c line k x demand again s).mem.hbm = s.mem.hbm := by
  simp only [homeServe]
  repeat' split
  all_goals simp only [markGranted_hbm, grantLine_hbm, recallLine_hbm, bump_mem, missLine_hbm, startSnoops_hbm]

@[simp] theorem benchWrite_hbm (line : Nat) (tracked : Bool) (d : Line) (s : State) :
    (benchWrite line tracked d s).mem.hbm = s.mem.hbm := by
  simp [benchWrite]

@[simp] theorem performReq_hbm (id line : Nat) (r : Req) (s : State) : (performReq id line r s).mem.hbm = s.mem.hbm := by
  rw [performReq]
  split <;> simp

@[simp] theorem serveReq_hbm (id : Nat) (s : State) : (serveReq id s).mem.hbm = s.mem.hbm := by
  simp only [serveReq]
  repeat' split
  all_goals simp only [performReq_hbm, missLine_hbm, setReq_mem]

@[simp] theorem finishTxn_hbm (line : Nat) (x : CohTxn) (s : State) : (finishTxn line x s).mem.hbm = s.mem.hbm := by
  simp only [finishTxn]
  repeat' split
  all_goals simp only [dropCohTxn_mem, homeServe_hbm, serveReq_hbm]

@[simp] theorem hearResp_hbm (c line : Nat) (k : SnoopKind) (d : Option (Line × Bool)) (dirty : Bool) (s : State) :
    (hearResp c line k d dirty s).mem.hbm = s.mem.hbm := by
  rw [hearResp]
  split <;> simp

@[simp] theorem settle_hbm (line a : Nat) (s : State) : (settle line a s).mem.hbm = s.mem.hbm := by
  fun_induction settle line a s <;> grind [atLeast_mem, setMsgs_mem, arrive_hbm, makeL2Room_hbm, countDeferral_hbm,
    answerSnoop_hbm, hearResp_hbm]

@[simp] theorem snoopNow_hbm (line : Nat) (k : SnoopKind) (c : Nat) (s : State) :
    (snoopNow line k c s).mem.hbm = s.mem.hbm := by
  simp [snoopNow]

@[simp] theorem beforeWrite_hbm (line : Nat) (s : State) : (beforeWrite line s).mem.hbm = s.mem.hbm := by
  simp [beforeWrite, foldl_hbm]

@[simp] theorem fwWriteLine_hbm (off n val : Nat) (s : State) : (fwWriteLine off n val s).mem.hbm = s.mem.hbm := by
  simp [fwWriteLine]

@[simp] theorem fwWrite_hbm (a x : Nat) (x2 x3 : Nat) (s : State) : (fwWrite a x x2 x3 s).mem.hbm = s.mem.hbm := by
  fun_induction fwWrite a x x2 x3 s <;> simp_all

@[simp] theorem storeFault_hbm (parked : Bool) (r : FaultRec) (s : State) :
    (storeFault parked r s).mem.hbm = s.mem.hbm := by
  simp [storeFault]

@[simp] theorem addFault_hbm (r : FaultRec) (s : State) : (addFault r s).mem.hbm = s.mem.hbm := by
  simp [addFault]

@[simp] theorem saveFace_hbm (die : Nat) (r : FRun) (i : FaultInfo) (f : Face) (s : State) : ((saveFace die r i f s).getD
  s).mem.hbm = s.mem.hbm := by
  have h : (pickSlot 16 (f.saves.cells.map Prod.fst) s).2.mem.hbm = s.mem.hbm := pickSlot_hbm _ _ _
  generalize hp : pickSlot 16 (f.saves.cells.map Prod.fst) s = p at h
  obtain ⟨_ | slot, t⟩ := p <;> rw [saveFace, hp] <;> split <;> simp_all

@[simp] theorem switchOutFace_hbm (die : Nat) (r : FRun) (i : FaultInfo) (s : State) :
    ((switchOutFace die r i s).getD s).mem.hbm = s.mem.hbm := by
  simp [switchOutFace]

theorem switchOutFace_some_hbm {die : Nat} {r : FRun} {i : FaultInfo} {s t : State}
    (h : switchOutFace die r i s = some t) : t.mem.hbm = s.mem.hbm := by
  simpa [h] using switchOutFace_hbm die r i s

@[simp] theorem abortFace_hbm (key : Nat) (w : FOwner) (s : State) : ((abortFace key w s).getD s).mem.hbm = s.mem.hbm := by
  simp only [abortFace]
  refine getD_findSome?_hbm (fun d => ?_) _
  repeat' split
  all_goals try simp only [Option.getD_some, Option.getD_none, faceDone_hbm, setFace_mem, markEnded_hbm, dropWork_hbm]
  next heq =>
    have h := switchOutFace_some_hbm heq
    generalize List.find? _ _ = o
    cases o <;> simp [h]

@[simp] theorem stopLaunch_hbm (key : Nat) (s : State) : (stopLaunch key s).mem.hbm = s.mem.hbm := by
  simp only [stopLaunch]
  repeat' split
  all_goals simp only [foldl_hbm, implies_true, setLaunch_mem, dropWork_hbm, setStation_mem]

@[simp] theorem leaveDie_hbm (key die : Nat) (s : State) : (leaveDie key die s).mem.hbm = s.mem.hbm := by
  rw [leaveDie]
  split <;> simp

@[simp] theorem leaveDies_hbm (key : Nat) (s : State) : (leaveDies key s).mem.hbm = s.mem.hbm := by
  simp [leaveDies, foldl_hbm]

@[simp] theorem unfill_hbm (k : Nat) (p : Req → Bool) (s : State) : (unfill k p s).mem.hbm = s.mem.hbm := rfl

@[simp] theorem invalidateL1_hbm (k : Nat) (s : State) : (invalidateL1 k s).mem.hbm = s.mem.hbm := rfl

@[simp] theorem leaveCore_hbm (key die core : Nat) (s : State) : (leaveCore key die core s).mem.hbm = s.mem.hbm := by
  simp [leaveCore]

@[simp] theorem removeGroup_hbm (g : Nat) (s : State) : (removeGroup g s).mem.hbm = s.mem.hbm := by
  rw [removeGroup]
  split <;> simp

@[simp] theorem abortLaunch_hbm (key : Nat) (s : State) : (abortLaunch key s).mem.hbm = s.mem.hbm := by
  simp only [abortLaunch, leaveDies_hbm]
  rw [foldl_hbm (fun t c => by split <;> simp)]
  split <;> simp

@[simp] theorem abortHaul_hbm (key : Nat) (s : State) : ((abortHaul key s).getD s).mem.hbm = s.mem.hbm := by
  simp only [abortHaul]
  split
  · rfl
  · simp only [Option.getD_some, addOut_hbm, setHaul_mem]
    refine foldl_hbm (fun t c => ?_) _ s
    split
    · split <;> simp
    · simp

@[simp] theorem endColl_hbm (key : Nat) (o : Status) (notice : Bool) (s : State) : (endColl key o notice s).mem.hbm =
  s.mem.hbm := by
  simp only [endColl]
  split
  · rfl
  split
  · rw [foldl_hbm (by simp)]; simp
  · simp

@[simp] theorem abortColl_hbm (key : Nat) (s : State) : ((abortColl key s).getD s).mem.hbm = s.mem.hbm := by
  unfold abortColl
  repeat' split
  all_goals simp

@[simp] theorem finishAcked_hbm (key : Nat) (s : State) : (finishAcked key s).mem.hbm = s.mem.hbm := by
  simp [finishAcked]

@[simp] theorem abortExperts_hbm (die key : Nat) (a : List Nat) (s : State) :
    (abortExperts die key a s).mem.hbm = s.mem.hbm := by
  fun_induction abortExperts die key a s <;> simp_all

@[simp] theorem abortRoute_hbm (key : Nat) (s : State) : ((abortRoute key s).getD s).mem.hbm = s.mem.hbm := by
  simp only [abortRoute]
  repeat' split
  all_goals simp only [foldl_hbm, implies_true, markEnded_hbm, setBramble_mem, finishAcked_hbm, addOut_hbm,
    abortExperts_hbm, Option.getD_some, Option.getD_none]

@[simp] theorem dropWatch_hbm (key : Nat) (s : State) : (dropWatch key s).mem.hbm = s.mem.hbm := rfl

@[simp] theorem endWait_hbm (key v : Nat) (s : State) : (endWait key v s).mem.hbm = s.mem.hbm := by
  simp [endWait]

@[simp] theorem setSeg_hbm (k : Nat) (g : Seg) (s : State) : (setSeg k g s).mem.hbm = s.mem.hbm := by
  rw [setSeg]
  split <;> simp

@[simp] theorem setCtx_hbm (c : Nat) (e : CtxEntry) (s : State) : (setCtx c e s).mem.hbm = s.mem.hbm := by
  rw [setCtx]
  split <;> simp

@[simp] theorem abortUpdate_hbm (key : Nat) (s : State) : ((abortUpdate key s).getD s).mem.hbm = s.mem.hbm := by
  simp only [abortUpdate]
  repeat' split
  all_goals simp only [foldl_hbm, implies_true, setSeg_hbm, setCtx_hbm, setDetail_hbm, Option.getD_some, Option.getD_none]

@[simp] theorem abortRunning_hbm (key kind : Nat) (s : State) : ((abortRunning key kind s).getD s).mem.hbm = s.mem.hbm := by
  unfold abortRunning
  split
  · exact abortFace_hbm ..
  · split <;> simp
  · exact abortHaul_hbm ..
  · exact abortHaul_hbm ..
  · exact abortColl_hbm ..
  · split
    · rfl
    · exact abortRoute_hbm ..
  · split
    · rfl
    · exact abortRoute_hbm ..
  · simp
  · have h := abortUpdate_hbm key s
    generalize abortUpdate key s = o at h
    cases o <;> simp_all
  · rfl

@[simp] theorem abortJob_hbm (key : Nat) (s : State) : ((abortJob key s).getD s).mem.hbm = s.mem.hbm := by
  grind [abortJob, finishWith_hbm, abortRunning_hbm]

@[simp] theorem closeJob_hbm (q : Nat) (s : State) (seq : Nat) : (closeJob q s seq).mem.hbm = s.mem.hbm := by
  rw [closeJob]
  split <;> simp

@[simp] theorem closeQueue_hbm (q : Nat) (s : State) : (closeQueue q s).2.mem.hbm = s.mem.hbm := by
  simp only [closeQueue]
  repeat' split
  all_goals simp only [foldl_hbm, implies_true, endFetch_hbm, setQueue_mem, closeJob_hbm]

@[simp] theorem finishReport_hbm (s : State) : (finishReport s).mem.hbm = s.mem.hbm := by
  rw [finishReport]
  split <;> simp

@[simp] theorem reportMeetsDebug_hbm (s : State) : (reportMeetsDebug s).mem.hbm = s.mem.hbm := by
  simp only [reportMeetsDebug, takeFree_mem, finishReport_hbm, ite_hbm, ite_self]

@[simp] theorem openDebug_hbm (s : State) : (openDebug s).mem.hbm = s.mem.hbm := by
  simp [openDebug, foldl_hbm]

@[simp] theorem actDebugToken_hbm (b0 : List Byte) (s : State) : (actDebugToken b0 s).2.mem.hbm = s.mem.hbm := by
  simp only [actDebugToken]
  repeat' split
  all_goals simp only [takeFree_mem, freshChallenge_hbm, openDebug_hbm, setBlob_mem]

@[simp] theorem commitToken_hbm (src : Nat) (b : List Byte) (s : State) :
    (commitToken src b s).2.mem.hbm = s.mem.hbm := by
  grind [commitToken, actDebugToken_hbm, commitBlob_hbm, refuseWrite_mem]

@[simp] theorem mgmtLater_hbm (key v : Nat) (s : State) : (mgmtLater key v s).mem.hbm = s.mem.hbm := rfl

@[simp] theorem settleJob_hbm (key : Nat) (s : State) : (settleJob key s).mem.hbm = s.mem.hbm := by
  rw [settleJob]
  split <;> simp

@[simp] theorem settleOwner_hbm (o : TOwner) (s : State) : (settleOwner o s).mem.hbm = s.mem.hbm := by
  rw [settleOwner]
  split <;> simp

@[simp] theorem endCollOf_hbm (o : TOwner) (f : RemoteFail) (s : State) : (endCollOf o f s).mem.hbm = s.mem.hbm := by
  unfold endCollOf
  repeat' split
  all_goals simp

@[simp] theorem expertOut_hbm (key e : Nat) (o : Status) (s : State) : (expertOut key e o s).mem.hbm = s.mem.hbm := rfl

@[simp] theorem ownerOut_hbm (o : TOwner) (st : Status) (s : State) : (ownerOut o st s).mem.hbm = s.mem.hbm := by
  unfold ownerOut
  repeat' split
  all_goals simp

@[simp] theorem failOwner_hbm (o : TOwner) (f : RemoteFail) (s : State) : (failOwner o f s).mem.hbm = s.mem.hbm := by
  unfold failOwner
  repeat' split
  all_goals simp

@[simp] theorem answerRead_hbm (x : Txn) (a : RemoteRead) (s : State) : (answerRead x a s).mem.hbm = s.mem.hbm := by
  simp [answerRead]

@[simp] theorem failTxn_hbm (id : Nat) (f : RemoteFail) (s : State) : (failTxn id f s).mem.hbm = s.mem.hbm := by
  rw [failTxn]
  split <;> simp

@[simp] theorem failSettle_hbm (id : Nat) (f : RemoteFail) (s : State) : (failSettle id f s).mem.hbm = s.mem.hbm := by
  rw [failSettle]
  split <;> simp

@[simp] theorem completeWith_hbm (q : Nat) (f : Fetched) (st : Status) (detail : Nat) (s : State) :
    (completeWith q f st detail s).mem.hbm = s.mem.hbm := by
  simp [completeWith]

@[simp] theorem completeRaw_hbm (q : Nat) (f : Fetched) (st : Status) (s : State) :
    (completeRaw q f st s).mem.hbm = s.mem.hbm := by
  simp [completeRaw]

@[simp] theorem completeUnread_hbm (q : Nat) (s : State) (seq : Nat) : (completeUnread q s seq).mem.hbm = s.mem.hbm := by
  simp [completeUnread]

@[simp] theorem finishKilled_hbm (q : Nat) (s : State) : (finishKilled q s).mem.hbm = s.mem.hbm := by
  simp [finishKilled, foldl_hbm]

@[simp] theorem stopQueue_hbm (q : Nat) (s : State) : (stopQueue q s).mem.hbm = s.mem.hbm := by
  simp [stopQueue, foldl_hbm]

@[simp] theorem endWaitOn_hbm (conn : Nat) (s : State) (c : Nat × Job) : (endWaitOn conn s c).mem.hbm = s.mem.hbm := by
  simp [endWaitOn]

@[simp] theorem endEpoch_hbm (conn : Nat) (s : State) : (endEpoch conn s).mem.hbm = s.mem.hbm := by
  simp [endEpoch, foldl_hbm]

@[simp] theorem writeConn_hbm (r : Nat) (s : State) : (writeConn r s).2.mem.hbm = s.mem.hbm := by
  unfold writeConn
  repeat' split
  all_goals simp

@[simp] theorem actMeasExtend_hbm (b : List Byte) (s : State) : (actMeasExtend b s).2.mem.hbm = s.mem.hbm := by
  rw [actMeasExtend]
  split <;> simp

@[simp] theorem actAttestNonce_hbm (b : List Byte) (s : State) : (actAttestNonce b s).2.mem.hbm = s.mem.hbm := by
  rw [actAttestNonce]
  split <;> simp

@[simp] theorem actOwnerKey_hbm (dbg : Bool) (b : List Byte) (s : State) :
    (actOwnerKey dbg b s).2.mem.hbm = s.mem.hbm := by
  unfold actOwnerKey
  repeat' split
  all_goals simp

@[simp] theorem layPort_hbm (n c : Nat) (s : State) : (layPort n c s).mem.hbm = s.mem.hbm := rfl

@[simp] theorem layBond_hbm (n : Nat) (s : State) : (layBond n s).mem.hbm = s.mem.hbm := by
  rw [layBond, foldl_hbm (by simp), layPort_hbm]

@[simp] theorem trainPort_hbm (n : Nat) (s : State) : (trainPort n s).mem.hbm = s.mem.hbm := by
  rw [trainPort]
  split
  · exact layPort_hbm _ _ _
  · rw [foldl_hbm (by simp), layBond_hbm]

@[simp] theorem retrainCapped_hbm (s : State) : (retrainCapped s).mem.hbm = s.mem.hbm := by
  simp [retrainCapped, foldl_hbm]

@[simp] theorem acceptOverride_hbm (b : List Byte) (s : State) : (acceptOverride b s).mem.hbm = s.mem.hbm := by
  simp [acceptOverride]

@[simp] theorem actFwOverride_hbm (b0 : List Byte) (s : State) : (actFwOverride b0 s).2.mem.hbm = s.mem.hbm := by
  simp only [actFwOverride]
  repeat' split
  all_goals simp only [setBlob_mem, acceptOverride_hbm]

@[simp] theorem blobAct_hbm (key : Nat) (b : List Byte) (s : State) : (blobAct key b s).2.mem.hbm = s.mem.hbm := by
  rw [blobAct]
  split <;> simp

@[simp] theorem blobWrite_hbm (src key : Nat) (b : List Byte) (s : State) :
    (blobWrite src key b s).2.mem.hbm = s.mem.hbm := by
  grind [blobWrite, commitToken_hbm, commitBlob_hbm, blobAct_hbm]

@[simp] theorem refuseBell_hbm (s : State) : (refuseBell s).mem.hbm = s.mem.hbm := by
  simp [refuseBell]

@[simp] theorem writeDoorbell_hbm (q v : Nat) (s : State) : (writeDoorbell q v s).2.mem.hbm = s.mem.hbm := by
  simp only [writeDoorbell]
  repeat' split
  all_goals simp only [refuseBell_hbm, bump_mem, setQueue_mem]

@[simp] theorem commitDoorbell_hbm (src q v : Nat) (s : State) : (commitDoorbell src q v s).2.mem.hbm = s.mem.hbm := by
  grind [commitDoorbell, writeDoorbell_hbm, commitScalar_hbm, refuseWrite_mem]

@[simp] theorem openQueue_hbm (q : Nat) (s : State) : (openQueue q s).2.mem.hbm = s.mem.hbm := by
  rw [openQueue]
  split <;> simp

@[simp] theorem writeQState_hbm (q v : Nat) (s : State) : (writeQState q v s).2.mem.hbm = s.mem.hbm := by
  unfold writeQState
  repeat' split
  all_goals simp

@[simp] theorem writeCplHead_hbm (q v : Nat) (s : State) : (writeCplHead q v s).2.mem.hbm = s.mem.hbm := by
  simp only [writeCplHead]
  repeat' split
  all_goals simp only [setQueue_mem]

@[simp] theorem justStore_hbm (key v : Nat) (s : State) : (justStore key v s).2.mem.hbm = s.mem.hbm := rfl

@[simp] theorem queueWrite_hbm (q sub v : Nat) (s : State) : (queueWrite q sub v s).2.mem.hbm = s.mem.hbm := by
  simp only [queueWrite]
  repeat' split
  all_goals simp only [writeQState_hbm, writeDoorbell_hbm, writeCplHead_hbm, justStore_hbm]

@[simp] theorem ranged_hbm (ok : Bool) (key v : Nat) (s : State) : (ranged ok key v s).2.mem.hbm = s.mem.hbm := by
  rw [ranged]
  split <;> simp

@[simp] theorem mgmtSetting_hbm (ok : Bool) (key v : Nat) (s : State) :
    (mgmtSetting ok key v s).2.mem.hbm = s.mem.hbm := by
  rw [mgmtSetting]
  split <;> simp

@[simp] theorem writeEnvelopeMax_hbm (v : Nat) (s : State) : (writeEnvelopeMax v s).2.mem.hbm = s.mem.hbm := by
  rw [writeEnvelopeMax]
  split <;> simp

@[simp] theorem markThrottle_hbm (s : State) : (markThrottle s).mem.hbm = s.mem.hbm := rfl

@[simp] theorem writePointMax_hbm (v : Nat) (s : State) : (writePointMax v s).2.mem.hbm = s.mem.hbm := by
  simp only [writePointMax]
  repeat' split
  all_goals simp only [foldl_hbm, implies_true, setDiePower_mem, markThrottle_hbm, setDv_mem, ite_hbm, ite_self]

@[simp] theorem scalarLow_hbm (key v : Nat) (s : State) : (scalarLow key v s).2.mem.hbm = s.mem.hbm := by
  rw [scalarLow]
  split <;> simp

@[simp] theorem discardTransit_hbm (s : State) : (discardTransit s).mem.hbm = s.mem.hbm := by
  simp [discardTransit]

@[simp] theorem sendTransit_hbm (dest hops vc : Nat) (s : State) : (sendTransit dest hops vc s).mem.hbm = s.mem.hbm := by
  unfold sendTransit
  repeat' split
  all_goals simp

@[simp] theorem pumpAll_hbm (s : State) : (pumpAll s).mem.hbm = s.mem.hbm := by
  simp [pumpAll, foldl_hbm]

@[simp] theorem pumpLinks_hbm (s : State) : (pumpLinks s).mem.hbm = s.mem.hbm := by
  simp [pumpLinks, foldl_hbm]

@[simp] theorem writeRoute_hbm (v : Nat) (s : State) : (writeRoute v s).2.mem.hbm = s.mem.hbm := by
  rw [writeRoute]
  split <;> simp

@[simp] theorem setBlobBit_hbm (key i : Nat) (v : Bool) (s : State) : (setBlobBit key i v s).mem.hbm = s.mem.hbm := rfl

@[simp] theorem scalarLinks_hbm (key v : Nat) (s : State) : (scalarLinks key v s).2.mem.hbm = s.mem.hbm := by
  simp only [scalarLinks]
  repeat' split
  all_goals simp only [ranged_hbm, trainPort_hbm, writeRoute_hbm, setBlobBit_hbm, pumpLinks_hbm, setDv_mem, justStore_hbm]

@[simp] theorem actLocalGib_hbm (v : Nat) (s : State) : (actLocalGib v s).2.mem.hbm = s.mem.hbm := by
  rw [actLocalGib]
  split <;> simp

@[simp] theorem settleBuckets_hbm (pc : Nat) (s : State) : (settleBuckets pc s).mem.hbm = s.mem.hbm := by
  simp [settleBuckets]

@[simp] theorem settleAll_hbm (s : State) : (settleAll s).mem.hbm = s.mem.hbm := by
  simp [settleAll, foldl_hbm]

@[simp] theorem bwShare_hbm (i v : Nat) (s : State) : (bwShare i v s).2.mem.hbm = s.mem.hbm := by
  rw [bwShare]
  split <;> simp

@[simp] theorem scalarMemory_hbm (key v : Nat) (s : State) : (scalarMemory key v s).2.mem.hbm = s.mem.hbm := by
  simp only [scalarMemory]
  repeat' split
  all_goals simp only [actLocalGib_hbm, ranged_hbm, bwShare_hbm, setDv_mem, settleAll_hbm, justStore_hbm]

@[simp] theorem setClaimTag_hbm (claim tag : Nat) (s : State) : (setClaimTag claim tag s).mem.hbm = s.mem.hbm := by
  simp [setClaimTag]

@[simp] theorem actClaimAssign_hbm (v : Nat) (s : State) : (actClaimAssign v s).2.mem.hbm = s.mem.hbm := by
  simp only [actClaimAssign]
  repeat' split
  all_goals simp only [setDv_mem, setClaimTag_hbm]

@[simp] theorem writeLock_hbm (key v : Nat) (s : State) : (writeLock key v s).2.mem.hbm = s.mem.hbm := by
  simp [writeLock]

@[simp] theorem sendShots_hbm (n : Nat) (s : State) : (sendShots n s).mem.hbm = s.mem.hbm := by
  rw [sendShots, foldl_hbm (by simp)]

@[simp] theorem fireShot_hbm (source node tag : Nat) (s : State) : (fireShot source node tag s).mem.hbm = s.mem.hbm := by
  simp [fireShot]

@[simp] theorem eventRing_hbm (key v : Nat) (s : State) : (eventRing key v s).2.mem.hbm = s.mem.hbm := by
  unfold eventRing
  repeat' split
  all_goals simp

@[simp] theorem storeEvents_hbm (a : Nat) (s : State) : (storeEvents a s).mem.hbm = s.mem.hbm := by
  fun_induction storeEvents a s <;> grind [UStep.waiting_hbm, fwWrite_hbm]

@[simp] theorem storeWaiting_hbm (s : State) : (storeWaiting s).mem.hbm = s.mem.hbm := by
  simp [storeWaiting]

@[simp] theorem writeEventHead_hbm (v : Nat) (s : State) : (writeEventHead v s).2.mem.hbm = s.mem.hbm := by
  rw [writeEventHead]
  split <;> simp

@[simp] theorem ptpSource_hbm (v : Nat) (s : State) : (ptpSource v s).2.mem.hbm = s.mem.hbm := by
  unfold ptpSource
  repeat' split
  all_goals simp

@[simp] theorem clearCounters_hbm (v : Nat) (s : State) : (clearCounters v s).2.mem.hbm = s.mem.hbm := by
  simp only [clearCounters]
  repeat' split
  all_goals simp only

@[simp] theorem actFaceLfsrSeed_hbm (die v : Nat) (s : State) : (actFaceLfsrSeed die v s).2.mem.hbm = s.mem.hbm := rfl

@[simp] theorem scalarSnap_hbm (key v : Nat) (s : State) : (scalarSnap key v s).2.mem.hbm = s.mem.hbm := by
  rw [scalarSnap]
  split <;> simp

@[simp] theorem actMinSecRaise_hbm (v : Nat) (s : State) : (actMinSecRaise v s).2.mem.hbm = s.mem.hbm := by
  unfold actMinSecRaise
  repeat' split
  all_goals simp

@[simp] theorem beforeRead_hbm (line : Nat) (s : State) : (beforeRead line s).mem.hbm = s.mem.hbm := by
  simp [beforeRead, foldl_hbm]

@[simp] theorem fwReadLine_hbm (off n : Nat) (s : State) : (fwReadLine off n s).2.2.mem.hbm = s.mem.hbm := by
  simp [fwReadLine]

@[simp] theorem actTableLoad_hbm (v : Nat) (s : State) : (actTableLoad v s).2.mem.hbm = s.mem.hbm := by
  rw [actTableLoad]
  split
  · rfl
  split
  · rfl
  · refine (fwWrite_hbm ..).trans ((foldl_hbm (fun t c => fwWrite_hbm ..) _ _).trans ((foldl_hbm_snd (fun a l => ?_) _
      _).trans (foldl_hbm_snd (fun a l => ?_) _ _)))
    · simp [loadSegLine]
    · simp [loadCtxLine]

@[simp] theorem actTableBase_hbm (key v : Nat) (s : State) : (actTableBase key v s).2.mem.hbm = s.mem.hbm := by
  unfold actTableBase
  repeat' split
  all_goals simp

@[simp] theorem unpark_hbm (a : Nat) (s : State) : (unpark a s).mem.hbm = s.mem.hbm := by
  fun_induction unpark a s <;> simp_all

@[simp] theorem writeFaultHead_hbm (v : Nat) (s : State) : (writeFaultHead v s).2.mem.hbm = s.mem.hbm := by
  rw [writeFaultHead]
  split <;> simp

@[simp] theorem endGroupBy_hbm (g : Nat) (cause : Cause) (s : State) : (endGroupBy g cause s).mem.hbm = s.mem.hbm := by
  rw [endGroupBy]
  split <;> simp

@[simp] theorem resolveGroup_hbm (unit slot : Nat) (end_ : Bool) (s : State) :
    ((resolveGroup unit slot end_ s).getD s).mem.hbm = s.mem.hbm := by
  unfold resolveGroup
  repeat' split
  all_goals simp

@[simp] theorem stageAgain_hbm (key : Nat) (s : State) : (stageAgain key s).mem.hbm = s.mem.hbm := by
  simp [stageAgain]

@[simp] theorem offerWork_hbm (d : Nat) (w : Work) (prio : Nat) (s : State) :
    (offerWork d w prio s).mem.hbm = s.mem.hbm := rfl

@[simp] theorem resolveFace_hbm (unit slot : Nat) (end_ : Bool) (s : State) :
    ((resolveFace unit slot end_ s).getD s).mem.hbm = s.mem.hbm := by
  grind [resolveFace, setFace_mem, faceDone_hbm, stageAgain_hbm, offerWork_hbm]

@[simp] theorem nextPiece_hbm (k : Nat) (p : Piece) (rest : List Piece) (s : State) :
    (nextPiece k p rest s).mem.hbm = s.mem.hbm := by
  simp only [nextPiece]
  repeat' split
  all_goals simp only [setEngine_mem, setHaul_mem]

@[simp] theorem resolveHaul_hbm (unit slot : Nat) (end_ : Bool) (s : State) :
    ((resolveHaul unit slot end_ s).getD s).mem.hbm = s.mem.hbm := by
  grind [resolveHaul, setEngine_mem, nextPiece_hbm, addOut_hbm]

@[simp] theorem resolveBramble_hbm (unit slot : Nat) (end_ : Bool) (s : State) :
    ((resolveBramble unit slot end_ s).getD s).mem.hbm = s.mem.hbm := by
  simp only [resolveBramble]
  repeat' split
  all_goals simp only [foldl_hbm, implies_true, finishAcked_hbm, addOut_hbm, setBramble_mem, stageAgain_hbm,
    Option.getD_some, Option.getD_none]

@[simp] theorem resolvePress_hbm (slot : Nat) (end_ : Bool) (s : State) :
    ((resolvePress slot end_ s).getD s).mem.hbm = s.mem.hbm := by
  unfold resolvePress
  repeat' split
  all_goals simp

@[simp] theorem writeFaultResolve_hbm (v : Nat) (s : State) : (writeFaultResolve v s).2.mem.hbm = s.mem.hbm := by
  grind [writeFaultResolve, resolveGroup_hbm, resolveFace_hbm, resolveHaul_hbm, resolveBramble_hbm, resolvePress_hbm]

@[simp] theorem scalarHigh_hbm (key v : Nat) (s : State) : (scalarHigh key v s).2.mem.hbm = s.mem.hbm := by
  rw [scalarHigh]
  split <;> simp

@[simp] theorem scalarAct_hbm (key v : Nat) (s : State) : (scalarAct key v s).2.mem.hbm = s.mem.hbm := by
  unfold scalarAct
  repeat' split
  all_goals simp

@[simp] theorem scalarWrite_hbm (src key v : Nat) (s : State) : (scalarWrite src key v s).2.mem.hbm = s.mem.hbm := by
  grind [scalarWrite, commitDoorbell_hbm, commitScalar_hbm, scalarAct_hbm]

@[simp] theorem valueWrite_hbm (src key : Nat) (b : List Byte) (s : State) :
    (valueWrite src key b s).2.mem.hbm = s.mem.hbm := by
  grind [valueWrite, blobWrite_hbm, commit_hbm, scalarWrite_hbm]

@[simp] theorem applyConfig_hbm (s : State) : (applyConfig s).mem.hbm = s.mem.hbm := by
  simp only [applyConfig]
  repeat' split
  all_goals simp only [foldl_hbm, implies_true, valueWrite_hbm]

@[simp] theorem execConfigApply_hbm (slotA slotB : Option Image) (s : State) :
    (afterAnswer s (execConfigApply slotA slotB s)).mem.hbm = s.mem.hbm := by
  grind [execConfigApply, applyConfig_hbm, atStep_mem, fetchImage_hbm, afterAnswer_next, afterAnswer_stuck, afterAnswer_fault]

@[simp] theorem loadKinds_hbm (slotA slotB : List Image) (a : List Nat) (s : State) :
    (loadKinds slotA slotB a s).2.mem.hbm = s.mem.hbm := by
  fun_induction loadKinds slotA slotB a s <;> grind [fetchImage_hbm]

@[simp] theorem placePayload_hbm (base : Nat) (i : Image) (s : State) : (placePayload base i s).mem.hbm = s.mem.hbm := by
  simp [placePayload]

@[simp] theorem closeReadings_hbm (s : State) : (closeReadings s).mem.hbm = s.mem.hbm := rfl

@[simp] theorem moveCeiling_hbm (s : State) (d : Nat) : (moveCeiling s d).mem.hbm = s.mem.hbm := by
  simp [moveCeiling]

@[simp] theorem refillStation_hbm (rem total : Nat) (s : State) (d : Nat) :
    (refillStation rem total s d).mem.hbm = s.mem.hbm := by
  simp [refillStation]

@[simp] theorem setPoint_hbm (d p : Nat) (s : State) : (setPoint d p s).mem.hbm = s.mem.hbm := by
  simp [setPoint]

@[simp] theorem openWindow_hbm (measured : Option RailEnergy) (s0 : State) :
    (openWindow measured s0).mem.hbm = s0.mem.hbm := by
  simp [openWindow, foldl_hbm]

@[simp] theorem startFirmware_hbm (s : State) : (startFirmware s).mem.hbm = s.mem.hbm := by
  simp [startFirmware, foldl_hbm]

@[simp] theorem judgeCombination_hbm (s : State) : (judgeCombination s).mem.hbm = s.mem.hbm := by
  simp [judgeCombination]

@[simp] theorem execImageLoad_hbm (slotA slotB : List Image) (bases : List Nat) (s : State) :
    (afterAnswer s (execImageLoad slotA slotB bases s)).mem.hbm = s.mem.hbm := by
  grind [execImageLoad, loadKinds_hbm, atStep_mem, placePayload_hbm, startFirmware_hbm, judgeCombination_hbm,
    afterAnswer_next, afterAnswer_stuck, afterAnswer_fault]

@[simp] theorem loadContext0_hbm (fwPage winPage : Nat) (s : State) :
    (loadContext0 fwPage winPage s).mem.hbm = s.mem.hbm := by
  simp [loadContext0]

@[simp] theorem startCore_hbm (entry bootInfo c : Nat) (s : State) :
    (startCore entry bootInfo c s).mem.hbm = s.mem.hbm := rfl

@[simp] theorem execRuntimeStart_hbm (fwPage winPage bootInfo : Nat) (s : State) :
    (afterAnswer s (execRuntimeStart fwPage winPage bootInfo s)).mem.hbm = s.mem.hbm := by
  unfold execRuntimeStart
  dsimp only
  split
  · rfl
  split
  · rfl
  · exact (foldl_hbm (fun u c => startCore_hbm ..) _ _).trans (loadContext0_hbm ..)

@[simp] theorem setBootLocks_hbm (s : State) : (setBootLocks s).mem.hbm = s.mem.hbm := by
  simp [setBootLocks]

@[simp] theorem execBootDone_hbm (s : State) : (afterAnswer s (execBootDone s)).mem.hbm = s.mem.hbm := by
  rw [execBootDone]
  split <;> simp

@[simp] theorem execSettStall_hbm (link : Nat) (rev : Bool) (since : Nat) (s : State) :
    (afterAnswer s (execSettStall link rev since s)).mem.hbm = s.mem.hbm := by
  simp only [execSettStall]
  repeat' split
  all_goals simp only [atLeast_mem, sumErr_mem, raise_mem, afterAnswer_next, afterAnswer_stuck]

@[simp] theorem whenAlive_hbm (c : Bool) (why : String) (s : State) :
    (afterAnswer s (when_ c why s)).mem.hbm = s.mem.hbm := by
  rw [when_]
  split <;> simp

@[simp] theorem execBeatRateUpdate_hbm (rates : List Nat) (s : State) : (afterAnswer s (execBeatRateUpdate rates
  s)).mem.hbm = s.mem.hbm := by
  rw [execBeatRateUpdate, when_]
  split
  · rw [afterAnswer_next, foldl_hbm (fun t d => by split <;> simp)]
    simp
  · rfl

@[simp] theorem refuseJob_hbm (key : Nat) (st : Status) (s : State) : (refuseJob key st s).mem.hbm = s.mem.hbm := by
  simp [refuseJob]

@[simp] theorem refuseFace_hbm (face key : Nat) (o : Status) (s : State) :
    (refuseFace face key o s).mem.hbm = s.mem.hbm := by
  simp [refuseFace]

@[simp] theorem homeRead_hbm (x : Xl) (off n : Nat) (u : UStep) : (homeRead x off n u).2.st.mem.hbm = u.st.mem.hbm := by
  grind [homeRead, UStep.st_hbm, atHome_hbm, UStep.waiting_hbm, AtHome.after_ready, AtHome.after_waits]

@[simp] theorem uRemoteFail_hbm (f : RemoteFail) (u : UStep) : (uRemoteFail f u).2.st.mem.hbm = u.st.mem.hbm := by
  simp [uRemoteFail]

@[simp] theorem uReadAs_hbm (need : Need) (va n : Nat) (u0 : UStep) :
    (uReadAs need va n u0).2.st.mem.hbm = u0.st.mem.hbm := by
  grind [uReadAs, uPlace_hbm, UStep.st_hbm, UStep.waiting_hbm, uDenied_hbm, homeRead_hbm, UStep.met_hbm, uRemoteFail_hbm]

@[simp] theorem uReadLine_hbm (va n : Nat) (u : UStep) : (uReadLine va n u).2.st.mem.hbm = u.st.mem.hbm := by
  simp [uReadLine]

@[simp] theorem uRead_hbm (a x x2 : Nat) (u : UStep) : (uRead a x x2 u).2.st.mem.hbm = u.st.mem.hbm := by
  fun_induction uRead a x x2 u <;> grind [uReadLine_hbm]

@[simp] theorem uGet_hbm (va n : Nat) (u : UStep) : (uGet va n u).2.st.mem.hbm = u.st.mem.hbm := by
  simp [uGet]

@[simp] theorem stageDesc_hbm (q seq die : Nat) (j : Job) (s : State) :
    (stageDesc q seq die j s).2.st.mem.hbm = s.mem.hbm := by
  simp only [stageDesc]
  repeat' split
  all_goals simp only [UStep.start_hbm, uGet_hbm]

@[simp] theorem sendWant_hbm (w : Want) (s : State) : ((sendWant w s).getD s).mem.hbm = s.mem.hbm := by
  simp only [sendWant]
  split <;> grind [missLine_hbm, startSnoops_hbm, openTxn_hbm]

theorem waitAnswer_hbm {why : String} {u : UStep} {s t : State} (h : t.mem.hbm = s.mem.hbm) :
    (afterAnswer s (waitAnswer why u t)).mem.hbm = s.mem.hbm := by
  rw [waitAnswer]
  cases u.want with
  | none => rfl
  | some w =>
    have hw := sendWant_hbm w t
    cases hs : sendWant w t with
    | none => simp [hs]
    | some v => simpa [hs, h] using hw

@[simp] theorem runJob_hbm (key : Nat) (s : State) : (runJob key s).mem.hbm = s.mem.hbm := by
  simp [runJob]

@[simp] theorem holdFault_hbm (key counter : Nat) (j : Job) (s : State) :
    (afterAnswer s (holdFault key counter j s)).mem.hbm = s.mem.hbm := by
  rw [holdFault]
  split <;> simp

@[simp] theorem uClose_hbm (u : UStep) : (uClose u).mem.hbm = u.st.mem.hbm := by
  simp [uClose, foldl_hbm]

@[simp] theorem execFaceOp_hbm (q seq face : Nat) (s : State) :
    (afterAnswer s (execFaceOp q seq face s)).mem.hbm = s.mem.hbm := by
  grind [execFaceOp, refuseFace_hbm, stageDesc_hbm, waitAnswer_hbm, UStep.st_hbm, saveFace_hbm, runJob_hbm,
    holdFault_hbm, offerWork_hbm, uClose_hbm, afterAnswer_next, afterAnswer_stuck, afterAnswer_fault]

@[simp] theorem keepAsking_hbm (u : UStep) (s : State) : (keepAsking u s).mem.hbm = s.mem.hbm := by
  rw [keepAsking]
  split
  · cases u.want <;> simp
  · rfl

theorem faceStep_hbm {die : Nat} {r : FRun} {g : FGo FRun} {s t : State} (ht : t.mem.hbm = s.mem.hbm)
    (h : g.after.mem.hbm = s.mem.hbm) : (afterAnswer s (faceStep die r g t)).mem.hbm = s.mem.hbm := by
  cases g with
  | on r2 u =>
    simp only [faceStep]
    split
    · simpa using h
    · split
      · exact waitAnswer_hbm (by simpa using h)
      · simpa using h
  | end_ o u => simpa [faceStep] using h
  | stop u =>
    simp only [faceStep]
    split
    · exact waitAnswer_hbm ht
    · rw [afterAnswer_next, setFace_mem]
      split
      · exact h
      · exact ht

@[simp] theorem readTable_hbm (va n : Nat) (u : UStep) : (FGo.after (readTable va n u)).mem.hbm = u.st.mem.hbm := by
  simp only [readTable]
  repeat' split
  all_goals simp only [uGet_hbm, FGo.after_on, FGo.after_end, FGo.after_stop]

@[simp] theorem readTables_hbm (r : FRun) (u : UStep) : (FGo.after (readTables r u)).mem.hbm = u.st.mem.hbm := by
  refine fThen_hbm ?_ fun r v => ?_
  · split
    · exact fThen_hbm (readTable_hbm ..) fun t v => rfl
    · rfl
  · split
    · exact fThen_hbm (readTable_hbm ..) fun t v => by split <;> rfl
    · rfl

@[simp] theorem FRun.step_hbm (die : Nat) (r : FRun) (s : State) : (FRun.step die r s).st.mem.hbm = s.mem.hbm := rfl

@[simp] theorem execFaceOpStart_hbm (die : Nat) (s : State) : (afterAnswer s (execFaceOpStart die s)).mem.hbm =
  s.mem.hbm := by
  have hgo : ∀ f2 r, (afterAnswer s (faceStep die r (readTables r (r.step die (setFace die f2 s)))
      (setFace die f2 s))).mem.hbm = s.mem.hbm := fun f2 r =>
    faceStep_hbm (congrArg MemSys.hbm (setFace_mem ..)) (by simp)
  simp only [execFaceOpStart]
  split
  · rfl
  split
  · exact hgo _ _
  · split
    · exact hgo _ _
    · rfl
  · rfl

@[simp] theorem fetchSpans_hbm (a : List (Nat × Nat × Nat)) (u : UStep) :
    (fetchSpans a u).2.2.st.mem.hbm = u.st.mem.hbm := by
  fun_induction fetchSpans a u <;> grind [uReadLine_hbm]

@[simp] theorem fetch_hbm (x : Tab (Nat × Nat)) (u : UStep) : (FGo.after (fetch x u)).mem.hbm = u.st.mem.hbm := by
  simp only [fetch]
  repeat' split
  all_goals simp only [fetchSpans_hbm, FGo.after_on, FGo.after_end, FGo.after_stop]

@[simp] theorem fetchEpi_hbm (d b i j : Nat) (u : UStep) : (FGo.after (fetchEpi d b i j u)).mem.hbm = u.st.mem.hbm :=
  fThen_hbm (fetch_hbm ..) fun _ _ => fThen_hbm (fetch_hbm ..) fun _ _ => rfl

@[simp] theorem uProbe_hbm (va : Nat) (u : UStep) : (uProbe va u).st.mem.hbm = u.st.mem.hbm := by
  unfold uProbe
  repeat' split
  all_goals simp

@[simp] theorem edgeBytes_hbm (va : Nat) (part : BitVec 128) (u : UStep) : (edgeBytes va part u).2.st.mem.hbm =
  u.st.mem.hbm := by
  have hstep : ∀ (a : Nat × UStep) (r : Nat × Nat), (a.1 + (uReadAs needW (va + r.1) r.2 a.2).1.val * 2 ^ (8 * r.1),
    (uReadAs needW (va + r.1) r.2 a.2).2).2.st.mem.hbm = a.2.st.mem.hbm :=
    fun a r => uReadAs_hbm ..
  rw [edgeBytes]
  exact foldl_hbm_step_snd hstep _ _

@[simp] theorem writeFields_hbm (va data mask : Nat) (poison : Bool) (u : UStep) :
    (writeFields va data mask poison u).st.mem.hbm = u.st.mem.hbm := by
  simp [writeFields]

@[simp] theorem reduceAt_hbm (line : Nat) (tracked : Bool) (op w : Nat) (d : Line) (m : BitVec 128) (s : State) :
    (reduceAt line tracked op w d m s).mem.hbm = s.mem.hbm := by
  simp [reduceAt]

@[simp] theorem homeReduce_hbm (x : Xl) (off op w : Nat) (d : Line) (m : BitVec 128) (u : UStep) :
    (homeReduce x off op w d m u).st.mem.hbm = u.st.mem.hbm := by
  grind [homeReduce, atHome_hbm, UStep.st_hbm, UStep.waiting_hbm, reduceAt_hbm, AtHome.after_ready, AtHome.after_waits]

@[simp] theorem uReduceLine_hbm (va op w : Nat) (d : Line) (m : BitVec 128) (u : UStep) : (uReduceLine va op w d m
  u).st.mem.hbm = u.st.mem.hbm := by
  rw [uReduceLine]
  split
  · rfl
  split
  next heq => exact uPlace_eq_hbm heq
  next v heq =>
    rw [← uPlace_eq_hbm heq]
    split
    · split
      · simp
      · split <;> simp
    · simp
    · split
      · simp
      · exact foldl_hbm_step (fun w r => UStep.on_hbm _ _ fun t => openTxnWith_hbm ..) _ _

@[simp] theorem writeTile_hbm (poison : Bool) (o : TileOut) (u : UStep) : (writeTile poison o u).st.mem.hbm =
  u.st.mem.hbm := by
  have hp : ((o.amax.foldl (fun u a => uProbe (a.1 / 128 * 128) u) (o.lines.cells.foldl (fun u c => uProbe (128 * c.1) u)
    u))).st.mem.hbm = u.st.mem.hbm :=
    (foldl_hbm_step (fun v a => uProbe_hbm ..) _ _).trans (foldl_hbm_step (fun v a => uProbe_hbm ..) _ _)
  simp only [writeTile]
  split
  · exact hp
  · exact (foldl_hbm_step (fun v a => by split <;> simp) _ _).trans ((foldl_hbm_step (fun v c => writeFields_hbm ..) _
      _).trans hp)

@[simp] theorem drainTile_hbm (die : Nat) (order : List Nat) (r : FRun) (b : TileBank) (u : UStep) :
    (FGo.after (drainTile die order r b u)).mem.hbm = u.st.mem.hbm := by
  grind [drainTile, UStep.st_hbm, fetchEpi_hbm, writeTile_hbm, UStep.on_hbm, bump_mem, setFace_mem, FGo.after_on,
    FGo.after_end, FGo.after_stop]

@[simp] theorem tilePred_hbm (d b i j : Nat) (u : UStep) : (FGo.after (tilePred d b i j u)).mem.hbm = u.st.mem.hbm := by
  rw [tilePred]
  split
  · exact fThen_hbm (fetch_hbm ..) fun _ _ => by split <;> rfl
  · rfl

@[simp] theorem startAcc_hbm (d b i j : Nat) (u : UStep) : (FGo.after (startAcc d b i j u)).mem.hbm = u.st.mem.hbm := by
  rw [startAcc]
  split
  · exact fThen_hbm (fetch_hbm ..) fun _ _ => rfl
  · rfl

@[simp] theorem blockRow_hbm (d b s j : Nat) (u : UStep) : (FGo.after (blockRow d b s j u)).mem.hbm = u.st.mem.hbm := by
  refine fThen_hbm (readTable_hbm ..) fun w v => ?_
  dsimp only
  split
  · rfl
  split
  · rfl
  · exact fThen_hbm (readTable_hbm ..) fun _ _ => by split <;> rfl

@[simp] theorem fetchMeta_hbm (d b j s : Nat) (u : UStep) : (FGo.after (fetchMeta d b j s u)).mem.hbm = u.st.mem.hbm := by
  rw [fetchMeta]
  split
  · exact fThen_hbm (fetch_hbm ..) fun _ _ => by split; rfl; split <;> rfl
  · rfl

@[simp] theorem countFlushed_hbm (die code : Nat) (addrs : List Nat) (x : Lines) (u : UStep) :
    (countFlushed die code addrs x u).st.mem.hbm = u.st.mem.hbm := by
  grind [countFlushed, UStep.on_hbm, bump_mem]

@[simp] theorem fetchA_hbm (die d b i s : Nat) (u : UStep) : (FGo.after (fetchA die d b i s u)).mem.hbm = u.st.mem.hbm :=
  fThen_hbm (fetch_hbm ..) fun _ _ => countFlushed_hbm ..

@[simp] theorem fetchB_hbm (die d b j s : Nat) (l : List (Nat × Nat)) (u : UStep) : (FGo.after (fetchB die d b j s l
  u)).mem.hbm = u.st.mem.hbm :=
  fThen_hbm (fetch_hbm ..) fun _ _ => countFlushed_hbm ..

@[simp] theorem doSlice_hbm (die d b i j s lut : Nat) (x : TileAcc) (u : UStep) : (FGo.after (doSlice die d b i j s lut x
  u)).mem.hbm = u.st.mem.hbm := by
  refine fThen_hbm ?_ fun skip v => ?_
  · split
    · exact fThen_hbm (fetch_hbm ..) fun _ _ => by split <;> rfl
    · rfl
  split
  · rfl
  refine fThen_hbm (by split; exact blockRow_hbm ..; rfl) fun blocks v => ?_
  split
  · rfl
  refine fThen_hbm (fetchMeta_hbm ..) fun tm v => fThen_hbm ?_ fun ta v => fThen_hbm ?_ fun tb v => ?_
  · split
    · rfl
    · exact fetchA_hbm ..
  · split
    · rfl
    · exact fetchB_hbm ..
  · dsimp only
    split <;> rfl

@[simp] theorem doSlices_hbm (die a : Nat) (x : FRun) (x2 : TileAcc) (u : UStep) :
    (FGo.after (doSlices die a x x2 u)).mem.hbm = u.st.mem.hbm := by
  fun_induction doSlices die a x x2 u <;> grind [bump_mem, UStep.on_hbm, doSlice_hbm, FGo.after_on, FGo.after_end,
    FGo.after_stop]

@[simp] theorem blocksHeld_hbm (d b j n : Nat) (u : UStep) : (FGo.after (blocksHeld d b j n u)).mem.hbm = u.st.mem.hbm := by
  induction n generalizing u with
  | zero => rfl
  | succ n ih => exact fThen_hbm (ih u) fun _ _ => fThen_hbm (blockRow_hbm ..) fun _ _ => rfl

@[simp] theorem accumulate_hbm (die : Nat) (r : FRun) (u : UStep) : (FGo.after (accumulate die r u)).mem.hbm =
  u.st.mem.hbm := by
  refine fThen_hbm (by split; rfl; exact startAcc_hbm ..) fun a v => ?_
  dsimp only
  rw [← doSlices_hbm die (fSlices r.op.raw - r.slice) r
    { acc := a.1, poison := a.2, pa := panelFor r.panelA r.panelKeys.1, pb := panelFor r.panelB r.panelKeys.2 } v]
  split
  · simp [*]
  · simp [*]
  next h =>
    rw [h]
    split
    · rfl
    · exact fThen_hbm (by split; exact blocksHeld_hbm ..; rfl) fun _ _ => rfl

@[simp] theorem doTile_hbm (die : Nat) (order : List Nat) (free : Bool) (r : FRun) (u : UStep) : (FGo.after (doTile die
  order free r u)).mem.hbm = u.st.mem.hbm := by
  refine fThen_hbm (readTables_hbm ..) fun r v => ?_
  split
  · split
    · exact drainTile_hbm ..
    · exact fThen_hbm (by split; rfl; exact tilePred_hbm ..) fun _ _ => by split; exact accumulate_hbm ..; rfl
  · refine fThen_hbm (by split; rfl; exact tilePred_hbm ..) fun go v => ?_
    split
    · exact UStep.on_hbm _ _ fun t => congrArg MemSys.hbm (bump_mem ..)
    · rw [← accumulate_hbm die r v]
      split
      · simp [*]
      · simp [*]
      next h =>
        rw [h]
        split
        · rfl
        · split
          · exact drainTile_hbm ..
          · rfl

@[simp] theorem execTileCommit_hbm (die : Nat) (order : List Nat) (s : State) :
    (afterAnswer s (execTileCommit die order s)).mem.hbm = s.mem.hbm := by
  simp only [execTileCommit]
  repeat' split
  all_goals simp only [setFace_mem, faceStep_hbm, doTile_hbm, FRun.step_hbm, afterAnswer_next, afterAnswer_stuck]

@[simp] theorem execFaceSwitchOut_hbm (die : Nat) (s : State) :
    (afterAnswer s (execFaceSwitchOut die s)).mem.hbm = s.mem.hbm := by
  grind [execFaceSwitchOut, switchOutFace_hbm, bump_mem, setFace_mem, afterAnswer_next, afterAnswer_stuck, afterAnswer_fault]

@[simp] theorem execFaceOpComplete_hbm (die : Nat) (s : State) :
    (afterAnswer s (execFaceOpComplete die s)).mem.hbm = s.mem.hbm := by
  simp only [execFaceOpComplete]
  repeat' split
  all_goals simp only [faceDone_hbm, setFace_mem, waitAnswer_hbm, afterAnswer_next, afterAnswer_stuck]

@[simp] theorem execFaceLfsrSeed_hbm (src die seed : Nat) (s : State) :
    (afterAnswer s (execFaceLfsrSeed src die seed s)).mem.hbm = s.mem.hbm := by
  grind [execFaceLfsrSeed, outside_hbm, commitScalar_hbm, actFaceLfsrSeed_hbm, afterAnswer_next, afterAnswer_stuck,
    afterAnswer_fault]

@[simp] theorem leaveWaiting_hbm (key : Nat) (s : State) : (((leaveWaiting key s).map fun r => (r).2.2).getD s).mem.hbm =
  s.mem.hbm := by
  rw [leaveWaiting, List.map_findSome?]
  refine getD_findSome?_hbm (fun d => ?_) _
  dsimp only [Function.comp]
  split
  · split
    · simp
    · rfl
  · rfl

@[simp] theorem settleRoute_hbm (die : Nat) (s : State) : (settleRoute die s).mem.hbm = s.mem.hbm := by
  rw [settleRoute]
  split <;> simp

theorem routeStep_hbm {die : Nat} {r : Route} {g : FGo Route} {s : State} (h : g.after.mem.hbm = s.mem.hbm) :
    (afterAnswer s (routeStep die r g s)).mem.hbm = s.mem.hbm := by
  cases g with
  | on r2 u =>
    simp only [routeStep]
    split
    · simpa using h
    · split
      · exact waitAnswer_hbm rfl
      · simpa using h
  | end_ o u => simpa [routeStep] using h
  | stop u =>
    simp only [routeStep]
    split
    · exact waitAnswer_hbm rfl
    · simpa using h

@[simp] theorem readExperts_hbm (d : Nat) (u : UStep) : (FGo.after (readExperts d u)).mem.hbm = u.st.mem.hbm :=
  fThen_hbm (readTable_hbm ..) fun _ _ => by dsimp only; split <;> rfl

@[simp] theorem readEntries_hbm (d l : Nat) (c : List Nat) (u : UStep) : (FGo.after (readEntries d l c u)).mem.hbm =
  u.st.mem.hbm := by
  rw [readEntries]
  split
  · rfl
  · exact fThen_hbm (readTable_hbm ..) fun _ _ => by dsimp only; split <;> rfl

@[simp] theorem readCaps_hbm (d : Nat) (u : UStep) : (FGo.after (readCaps d u)).mem.hbm = u.st.mem.hbm := by
  simp only [readCaps]
  split
  · rfl
  · exact fThen_hbm (readTable_hbm ..) fun _ _ => by split <;> rfl

@[simp] theorem readLogits_hbm (d n t : Nat) (u : UStep) : (FGo.after (readLogits d n t u)).mem.hbm = u.st.mem.hbm := by
  induction n generalizing t u with
  | zero => rfl
  | succ n ih => exact fThen_hbm (readTable_hbm ..) fun _ _ => fThen_hbm (ih _ _) fun _ _ => rfl

@[simp] theorem admitted_hbm (d : Nat) (u : UStep) : (FGo.after (admitted d u)).mem.hbm = u.st.mem.hbm := by
  refine fThen_hbm (readCaps_hbm ..) fun caps v => ?_
  dsimp only
  split
  · refine fThen_hbm ?_ fun _ _ => fThen_hbm (readLogits_hbm ..) fun _ _ => rfl
    split
    · rfl
    · exact fThen_hbm (readTable_hbm ..) fun _ _ => rfl
  · exact fThen_hbm (readTable_hbm ..) fun _ _ => by split <;> rfl

@[simp] theorem writeLists_hbm (d : Nat) (m : Admission) (unrouted nans : Nat) (u : UStep) :
    (writeLists d m unrouted nans u).st.mem.hbm = u.st.mem.hbm := by
  grind [writeLists, uPut_hbm]

@[simp] theorem routeWork_hbm (r : Route) (u : UStep) : (FGo.after (routeWork r u)).mem.hbm = u.st.mem.hbm := by
  simp only [routeWork]
  split
  · exact fThen_hbm (readExperts_hbm ..) fun _ _ => fThen_hbm (readEntries_hbm ..) fun _ _ => rfl
  · refine fThen_hbm (admitted_hbm ..) fun m v => ?_
    split
    · exact writeLists_hbm ..
    · exact (UStep.on_hbm _ _ fun t => by simp).trans (writeLists_hbm ..)

@[simp] theorem beginRoute_hbm (die : Nat) (r : Route) (s : State) :
    (afterAnswer s (beginRoute die r s)).mem.hbm = s.mem.hbm := by
  simp only [beginRoute]
  repeat' split
  all_goals simp only [settleRoute_hbm, routeStep_hbm, routeWork_hbm, UStep.start_hbm, afterAnswer_next]

theorem routeUnread_hbm {key ctx : Nat} {combine : Bool} {i : FaultInfo} {j : Job} {s t : State}
    (h : t.mem.hbm = s.mem.hbm) : (afterAnswer s (routeUnread key ctx combine i j t s)).mem.hbm = s.mem.hbm := by
  rw [routeUnread]
  split
  · exact holdFault_hbm ..
  · have hp := pickSlot_hbm 4 ((brambleOf (takeFree t).2 ((takeFree t).1 % 8)).saves.cells.map Prod.fst) (takeFree t).2
    split
    · rfl
    next heq => 
      rw [heq] at hp
      simpa using hp.trans ((congrArg MemSys.hbm (takeFree_mem t)).trans h)

@[simp] theorem enterBramble_hbm (die : Nat) (r : Route) (s : State) :
    (((enterBramble die r s).map fun r => (r).2).getD s).mem.hbm = s.mem.hbm := by
  grind [enterBramble, setBramble_mem, UStep.waiting_hbm]

@[simp] theorem execBrambleRoute_hbm (q seq : Nat) (s : State) : (afterAnswer s (execBrambleRoute q seq s)).mem.hbm =
  s.mem.hbm := by
  rw [execBrambleRoute]
  split
  next heq =>
    split
    · rfl
    · exact afterAnswer_of_hbm (of_getD_hbm (leaveWaiting_hbm _ s) heq) (beginRoute_hbm ..)
  split
  · split
    · rfl
    · exact beginRoute_hbm ..
  split
  · rfl
  next j _ =>
  dsimp only
  have hst := stageDesc_hbm q seq 10 j s
  split
  · exact waitAnswer_hbm rfl
  · exact (refuseJob_hbm ..).trans hst
  · exact routeUnread_hbm hst
  · split
    · refine (refuseJob_hbm ..).trans ?_
      split
      · simp
      · exact hst
    · have hin : (runJob (jobKey q seq) (uClose (stageDesc q seq 10 j s).2)).mem.hbm = s.mem.hbm := by simp
      split
      · rfl
      next heq => exact afterAnswer_of_hbm ((of_getD_hbm (enterBramble_hbm ..) heq).trans hin) (beginRoute_hbm ..)
      next heq => exact (of_getD_hbm (enterBramble_hbm ..) heq).trans hin

@[simp] theorem copyLine_hbm (src dst n : Nat) (u : UStep) : (copyLine src dst n u).2.st.mem.hbm = u.st.mem.hbm := by
  simp only [copyLine]
  split <;> simp

@[simp] theorem copyBytes_hbm (a x : Nat) (x2 x3 : Nat) (u : UStep) :
    (copyBytes a x x2 x3 u).2.st.mem.hbm = u.st.mem.hbm := by
  fun_induction copyBytes a x x2 x3 u <;> grind [copyLine_hbm]

@[simp] theorem gatherRows_hbm (a : Nat) (x : Route) (u : UStep) : (gatherRows a x u).2.st.mem.hbm = u.st.mem.hbm := by
  fun_induction gatherRows a x u <;> grind [copyBytes_hbm]

@[simp] theorem execBrambleGather_hbm (die : Nat) (s : State) :
    (afterAnswer s (execBrambleGather die s)).mem.hbm = s.mem.hbm := by
  simp only [execBrambleGather]
  repeat' split
  all_goals simp only [gatherRows_hbm, UStep.start_hbm, routeStep_hbm, afterAnswer_stuck, FGo.after_on, FGo.after_stop]

@[simp] theorem execBrambleIssue_hbm (die : Nat) (s : State) : (afterAnswer s (execBrambleIssue die s)).mem.hbm =
  s.mem.hbm := by
  rw [execBrambleIssue]
  split
  · rfl
  dsimp only
  split
  · rfl
  split
  · rfl
  next r _ _ _ =>
  have hg : ∀ place : FGo Nat, place.after.mem.hbm = s.mem.hbm →
    (fThen place fun f u => fThen (readTable (rTemplate r.raw + 256 * r.offered) 256 u) fun t u => FGo.on (f,
      t) u).after.mem.hbm = s.mem.hbm :=
    fun place hp => fThen_hbm hp fun _ _ => fThen_hbm (readTable_hbm ..) fun _ _ => rfl
  specialize hg (if rPlace r.raw = 0 then .on (r.offered % 8) (UStep.start r.ctx r.key die s)
        else fThen (readTable (rPlace r.raw + r.offered) 1 (UStep.start r.ctx r.key die s)) fun x u => if x > 7 then
          .end_ .descriptorInvalid u else .on x u) (by
    split
    · rfl
    · exact fThen_hbm ((readTable_hbm ..).trans rfl) fun _ _ => by split <;> rfl)
  split
  next heq => rw [heq] at hg; exact routeStep_hbm hg
  next heq => rw [heq] at hg; exact routeStep_hbm hg
  next v heq =>
    rw [heq] at hg
    split
    · exact routeStep_hbm ((UStep.on_hbm _ _ fun t => offerWork_hbm ..).trans hg)
    · split
      · exact waitAnswer_hbm rfl
      · simpa [UStep.on_hbm] using hg

@[simp] theorem writeOwed_hbm (st : Tab Nat) (raw : Nat) (a : List Nat) (u : UStep) :
    (writeOwed st raw a u).st.mem.hbm = u.st.mem.hbm := by
  fun_induction writeOwed st raw a u <;> simp_all

@[simp] theorem routeEnd_hbm (die : Nat) (r : Route) (s : State) : (routeEnd die r s).st.mem.hbm = s.mem.hbm := by
  grind [routeEnd, UStep.start_hbm, writeOwed_hbm, uPut_hbm]

@[simp] theorem execRouteComplete_hbm (q seq : Nat) (s : State) :
    (afterAnswer s (execRouteComplete q seq s)).mem.hbm = s.mem.hbm := by
  simp only [execRouteComplete]
  repeat' split
  all_goals simp only [foldl_hbm, implies_true, routeEnd_hbm, waitAnswer_hbm, onRoute_hbm, setBramble_mem, uClose_hbm,
    finishAcked_hbm, bump_mem, setDetail_hbm, addOut_hbm, afterAnswer_next, afterAnswer_stuck]

@[simp] theorem combineLists_hbm (r : Route) (u : UStep) : (FGo.after (combineLists r u)).mem.hbm = u.st.mem.hbm := by
  refine fThen_hbm (readTable_hbm ..) fun raw v => ?_
  dsimp only
  split
  · rfl
  · exact fThen_hbm (readEntries_hbm ..) fun _ _ => fThen_hbm (by split; exact readTable_hbm ..; rfl) fun _ _ => rfl

@[simp] theorem combineLine_hbm (d entry : Nat) (p c n : Nat) (u : UStep) :
    (combineLine d entry p c n u).2.st.mem.hbm = u.st.mem.hbm := by
  simp only [combineLine]
  repeat' split
  all_goals simp only [uGet_hbm, uStoreLine_hbm, UStep.met_hbm, uReduceLine_hbm]

@[simp] theorem combineRow_hbm (d entry : Nat) (p a x : Nat) (u : UStep) :
    (combineRow d entry p a x u).2.2.st.mem.hbm = u.st.mem.hbm := by
  fun_induction combineRow d entry p a x u <;> grind [combineLine_hbm]

@[simp] theorem combineRows_hbm (die : Nat) (a : List Nat) (x : Route) (u : UStep) :
    (combineRows die a x u).2.2.st.mem.hbm = u.st.mem.hbm := by
  fun_induction combineRows die a x u <;> grind [bump_mem, UStep.on_hbm, combineRow_hbm]

@[simp] theorem runCombine_hbm (die : Nat) (order : List Nat) (r : Route) (s : State) :
    (afterAnswer s (runCombine die order r s)).mem.hbm = s.mem.hbm := by
  have hgo : (if r.listed then .on r (UStep.start r.ctx r.key die s) else combineLists r (UStep.start r.ctx r.key die s)
    : FGo Route).after.mem.hbm = s.mem.hbm := by
    split
    · rfl
    · exact (combineLists_hbm ..).trans rfl
  have hstop : ∀ (r2 : Route) (v : UStep) t,
    v.st.mem.hbm = s.mem.hbm → t.mem.hbm = v.st.mem.hbm → (afterAnswer s (if !v.held then .next t
    else if r2 = r then waitAnswer "something the combine needs has not come" v s else .next (keepAsking v t))).mem.hbm =
      s.mem.hbm := by
    intro r2 v t hv ht
    split
    · exact ht.trans hv
    split
    · exact waitAnswer_hbm rfl
    · exact (keepAsking_hbm ..).trans (ht.trans hv)
  have hfinish : ∀ (r : Route) (t : State) o,
    t.mem.hbm = s.mem.hbm → (finishAcked r.key (r.outs.foldl (fun s o => addOut r.key o s)
      (dropArrived o (setBramble die { brambleOf t die with run := none } t)))).mem.hbm = s.mem.hbm := by
    intro r t o ht
    rw [finishAcked_hbm, foldl_hbm (fun t o => addOut_hbm ..), dropArrived_hbm, setBramble_mem, ht]
  rw [runCombine]
  dsimp only
  split
  next heq => rw [heq] at hgo; exact hfinish _ _ _ hgo
  next heq => rw [heq] at hgo; exact hstop _ _ _ hgo (by simp)
  next r2 v heq =>
    rw [heq] at hgo
    have hw : (combineRows die (combineOrder order r2) r2 v).2.2.st.mem.hbm = s.mem.hbm := (combineRows_hbm ..).trans hgo
    split
    · exact hstop _ _ _ hw (by simp)
    · exact hfinish _ _ _ hw

@[simp] theorem execBrambleCombine_hbm (q seq : Nat) (order : List Nat) (s : State) :
    (afterAnswer s (execBrambleCombine q seq order s)).mem.hbm = s.mem.hbm := by
  rw [execBrambleCombine]
  split
  next heq =>
    split
    · exact afterAnswer_of_hbm (of_getD_hbm (leaveWaiting_hbm _ s) heq) (runCombine_hbm ..)
    · rfl
  split
  · split
    · exact runCombine_hbm ..
    · rfl
  split
  · rfl
  next j _ =>
  dsimp only
  have hst := stageDesc_hbm q seq 10 j s
  split
  · exact waitAnswer_hbm rfl
  · exact (refuseJob_hbm ..).trans hst
  · exact routeUnread_hbm hst
  · split
    · exact (refuseJob_hbm ..).trans hst
    · have hin : (runJob (jobKey q seq) (uClose (stageDesc q seq 10 j s).2)).mem.hbm = s.mem.hbm := by simp
      split
      · rfl
      next heq => exact afterAnswer_of_hbm ((of_getD_hbm (enterBramble_hbm ..) heq).trans hin) (runCombine_hbm ..)
      next heq => exact (of_getD_hbm (enterBramble_hbm ..) heq).trans hin

@[simp] theorem execGroupLaunch_hbm (q seq : Nat) (s : State) : (afterAnswer s (execGroupLaunch q seq s)).mem.hbm =
  s.mem.hbm := by
  rw [execGroupLaunch]
  split
  · rfl
  next j _ =>
  dsimp only
  have hst := stageDesc_hbm q seq 10 j s
  split
  · exact waitAnswer_hbm rfl
  · exact (refuseJob_hbm ..).trans hst
  · exact (refuseJob_hbm ..).trans hst
  split
  · exact (refuseJob_hbm ..).trans hst
  split
  · split
    · rfl
    · exact (foldl_hbm (fun t n => congrArg MemSys.hbm (bump_mem ..)) _ _).trans ((congrArg MemSys.hbm (setJob_mem
        ..)).trans hst)
  · exact (foldl_hbm (fun t n => offerWork_hbm ..) _ _).trans (by simp)

@[simp] theorem enterCore_hbm (key raw : Nat) (die core : Nat) (s : State) :
    (enterCore key raw die core s).mem.hbm = s.mem.hbm := by
  rw [enterCore]
  split <;> simp

@[simp] theorem execGroupStart_hbm (die core : Nat) (s : State) :
    (afterAnswer s (execGroupStart die core s)).mem.hbm = s.mem.hbm := by
  simp only [execGroupStart]
  repeat' split
  all_goals simp only [setStation_mem, enterCore_hbm, leaveDies_hbm, bump_mem, setGroup_mem, setLaunch_mem,
    afterAnswer_next, afterAnswer_stuck]

@[simp] theorem holdGroup_hbm (g counter : Nat) (x : Group) (s : State) :
    (afterAnswer s (holdGroup g counter x s)).mem.hbm = s.mem.hbm := by
  rw [holdGroup]
  split <;> simp

@[simp] theorem execGroupSwitchOut_hbm (g : Nat) (s : State) : (afterAnswer s (execGroupSwitchOut g s)).mem.hbm =
  s.mem.hbm := by
  rw [execGroupSwitchOut]
  split
  · rfl
  next x _ =>
  split
  · rfl
  split
  · rfl
  split
  · rfl
  split
  · exact holdGroup_hbm ..
  have hp := pickSlot_hbm 256 (groupSlots s x.die) s
  split
  · exact holdGroup_hbm ..
  next heq =>
    rw [heq] at hp
    exact (foldl_hbm (fun t f => addFault_hbm ..) _ _).trans hp

@[simp] theorem execGroupResume_hbm (g core : Nat) (s : State) :
    (afterAnswer s (execGroupResume g core s)).mem.hbm = s.mem.hbm := by
  simp only [execGroupResume]
  repeat' split
  all_goals simp only [invalidateL1_hbm, enterCore_hbm, setGroup_mem, afterAnswer_next, afterAnswer_stuck]

@[simp] theorem execLaunchComplete_hbm (q seq : Nat) (s : State) : (afterAnswer s (execLaunchComplete q seq s)).mem.hbm =
  s.mem.hbm := by
  rw [execLaunchComplete]
  split
  · rfl
  split
  · rfl
  split
  · rfl
  split
  · rfl
  · rw [afterAnswer_next, finishWith_hbm, setDetail_hbm]
    dsimp only
    rw [foldl_hbm (fun t d => dropWork_hbm ..), foldl_hbm (fun t k => invalidateL1_hbm ..)]

@[simp] theorem fetchWord_hbm (c : Option Nat) (ctx va : Nat) (s : State) :
    (fetchWord c ctx va s).2.mem.hbm = s.mem.hbm := by
  simp only [fetchWord]
  repeat' split
  all_goals simp only [landing_hbm, countSegFault_hbm, countDenied_hbm]

@[simp] theorem fetchInstr_hbm (c : Option Nat) (ctx pc size : Nat) (s : State) :
    (fetchInstr c ctx pc size s).2.mem.hbm = s.mem.hbm := by
  rw [fetchInstr]
  split <;> simp

@[simp] theorem bareTrap_hbm (c : Cause) (ctx : Nat) (s : State) :
    (Eff.after s (bareTrap c ctx s)).mem.hbm = s.mem.hbm := rfl

theorem issueMedlar_hbm (row : Row) (c w : Nat) (med : Medlar → State → Eff) (s : State)
    (hmed : ∀ m t, (Eff.after t (med m t)).mem.hbm = t.mem.hbm) : (afterAnswer s (issueMedlar row c w med s)).mem.hbm =
      s.mem.hbm := by
  simp only [issueMedlar]
  split
  · rfl
  split
  · rfl
  split
  · rfl
  split
  · split
    · rfl
    · simp
  have he : (Eff.after s (if rowOf w =
    none then bareTrap .illegal (medlarCtx (medlarOf s c)) s else med (medlarOf s c) s)).mem.hbm = s.mem.hbm := by
    split
    · rfl
    · exact hmed ..
  split
  next heq => rw [heq] at he; exact he
  · rfl
  next heq =>
    rw [heq] at he
    split
    · rfl
    · exact (medlarTrap_hbm ..).trans he

theorem withRegs_hbm {grp : Bool} {regs : Nat} {ok : Bool} {k : OpKs} {d a b c ctx : Nat} {s : State} {go : Eff}
    (hgo : (Eff.after s go).mem.hbm = s.mem.hbm) : (Eff.after s (withRegs grp regs ok k d a b c ctx s go)).mem.hbm =
      s.mem.hbm := by
  rw [withRegs]
  split
  · rfl
  · split
    · rfl
    · exact hgo

@[simp] theorem medlarNext_hbm (c w : Nat) (m : Medlar) (s t : State) : (Eff.after s (medlarNext c w m t)).mem.hbm =
  t.mem.hbm := rfl

@[simp] theorem groupTrap_hbm (g : Nat) (f : FaultInfo) (s : State) : (groupTrap g f s).mem.hbm = s.mem.hbm := by
  rw [groupTrap]
  split <;> simp

theorem issueGroup_hbm (row : Row) (g w : Nat) (uses : List RReg) (beats : Nat) (grp : Group → State → Eff) (s : State)
    (hgrp : ∀ x t, (Eff.after t (grp x t)).mem.hbm = t.mem.hbm) :
    (afterAnswer s (issueGroup row g w uses beats grp s)).mem.hbm = s.mem.hbm := by
  simp only [issueGroup]
  split
  · rfl
  next x _ =>
  split
  · rfl
  split
  · rfl
  split
  · simp
  have he : (Eff.after s (if rowOf w = none then bareTrap .illegal (launchCtx s (launchKey g)) s else grp x s)).mem.hbm =
    s.mem.hbm := by
    split
    · rfl
    · exact hgrp ..
  split
  next heq => rw [heq] at he; simpa using he
  · rfl
  next heq => rw [heq] at he; exact (groupTrap_hbm ..).trans he

@[simp] theorem groupDone_hbm (g : Nat) (x : Group) (a : Arch) (s t : State) : (Eff.after s (groupDone g x a t)).mem.hbm
  = t.mem.hbm := rfl

@[simp] theorem groupNext_hbm (g w : Nat) (x : Group) (a : Arch) (s t : State) : (Eff.after s (groupNext g w x a
  t)).mem.hbm = t.mem.hbm := rfl

theorem alu_hbm (row : Row) (who : Agent) (w : Nat) (f : RFields) (ok : Bool → Bool) (k : Bool →
    OpKs) (beats : Nat) (med : Medlar → State → Medlar × State) (grp : Arch → State →
      Arch × State) (s : State) (hmed : ∀ (y0 : Medlar) (y1 : State),
        (med y0 y1).2.mem.hbm = y1.mem.hbm) (hgrp : ∀ (y0 : Arch) (y1 : State), (grp y0 y1).2.mem.hbm = y1.mem.hbm) :
    (afterAnswer s (alu row who w f ok k beats med grp s)).mem.hbm = s.mem.hbm := by
  simp only [alu]
  repeat' split
  all_goals simp only [implies_true, issueMedlar_hbm, withRegs_hbm, medlarNext_hbm, issueGroup_hbm, groupNext_hbm, hmed, hgrp]

@[simp] theorem execInt_hbm (who : Agent) (w : Nat) (s : State) :
    (afterAnswer s (execInt who w s)).mem.hbm = s.mem.hbm := by
  simp only [execInt, implies_true, alu_hbm]

@[simp] theorem execInti_hbm (who : Agent) (w : Nat) (s : State) :
    (afterAnswer s (execInti who w s)).mem.hbm = s.mem.hbm := by
  simp only [execInti, implies_true, alu_hbm]

@[simp] theorem moveMedlar_hbm (f : RFields) (m : Medlar) (s : State) : (moveMedlar f m s).2.mem.hbm = s.mem.hbm := by
  simp only [moveMedlar]
  repeat' split
  all_goals simp only [takeFree_mem]

@[simp] theorem moveGroup_hbm (f : RFields) (a : Arch) (s : State) : (moveGroup f a s).2.mem.hbm = s.mem.hbm := by
  simp only [moveGroup]
  repeat' split
  all_goals simp only [takeFree_mem]

@[simp] theorem execMove_hbm (who : Agent) (w : Nat) (s : State) :
    (afterAnswer s (execMove who w s)).mem.hbm = s.mem.hbm := by
  simp only [execMove]
  repeat' split
  all_goals simp only [implies_true, alu_hbm, moveMedlar_hbm, moveGroup_hbm]

@[simp] theorem execPred_hbm (who : Agent) (w : Nat) (s : State) :
    (afterAnswer s (execPred who w s)).mem.hbm = s.mem.hbm := by
  simp only [execPred, implies_true, alu_hbm]

@[simp] theorem execFp_hbm (who : Agent) (w : Nat) (s : State) :
    (afterAnswer s (execFp who w s)).mem.hbm = s.mem.hbm := by
  simp only [execFp, implies_true, alu_hbm]

@[simp] theorem fcvtMedlar_hbm (f : RFields) (m : Medlar) (s : State) : (fcvtMedlar f m s).2.mem.hbm = s.mem.hbm := by
  rw [fcvtMedlar]
  split <;> simp

@[simp] theorem fcvtGroup_hbm (f : RFields) (a : Arch) (s : State) : (fcvtGroup f a s).2.mem.hbm = s.mem.hbm := by
  rw [fcvtGroup]
  split <;> simp

@[simp] theorem execFcvt_hbm (who : Agent) (w : Nat) (s : State) :
    (afterAnswer s (execFcvt who w s)).mem.hbm = s.mem.hbm := by
  grind [execFcvt, alu_hbm, fcvtMedlar_hbm, fcvtGroup_hbm, afterAnswer_next, afterAnswer_stuck, afterAnswer_fault]

theorem memMedlar_hbm (row : Row) (c w : Nat) (ok : Bool) (k : OpKs) (go : MFields → Medlar → State →
    Eff) (s : State) (hgo : ∀ (y0 : MFields) (y1 : Medlar) (y2 : State), (Eff.after y2 (go y0 y1 y2)).mem.hbm = y2.mem.hbm) :
    (afterAnswer s (memMedlar row c w ok k go s)).mem.hbm = s.mem.hbm := by
  simp only [memMedlar, implies_true, issueMedlar_hbm, withRegs_hbm, hgo]

@[simp] theorem accessTrap_hbm (b : Cause × Nat × Nat) (ctx : Nat) (wr : Bool) (s t : State) : (Eff.after s (accessTrap b
  ctx wr t)).mem.hbm = t.mem.hbm := by
  rw [accessTrap, Eff.after_trap]
  split
  · exact countSegFault_hbm ..
  · rfl

@[simp] theorem beginLoad_hbm (c w : Nat) (l : PendLoad) (s : State) : (beginLoad c w l s).mem.hbm = s.mem.hbm := rfl

@[simp] theorem fwRead_hbm (a x x2 : Nat) (s : State) : (fwRead a x x2 s).2.2.mem.hbm = s.mem.hbm := by
  fun_induction fwRead a x x2 s <;> grind [fwReadLine_hbm]

@[simp] theorem windowAnswer_hbm (off n : Nat) (s : State) : (windowAnswer off n s).2.mem.hbm = s.mem.hbm := by
  rw [windowAnswer]
  split <;> simp

@[simp] theorem strictLoad_hbm (c w : Nat) (d : Dest) (n : Nat) (sx : Bool) (p : MedPart) (s : State) :
    (Eff.after s (strictLoad c w d n sx p s)).mem.hbm = s.mem.hbm := by
  unfold strictLoad
  repeat' split
  all_goals simp

@[simp] theorem medlarLoad_hbm (c w : Nat) (ds : List Dest) (d : Dest) (n : Nat) (sx : Bool) (va : Nat) (m : Medlar) (s :
  State) :
    (Eff.after s (medlarLoad c w ds d n sx va m s)).mem.hbm = s.mem.hbm := by
  simp only [medlarLoad]
  repeat' split
  all_goals simp only [foldl_hbm, implies_true, accessTrap_hbm, strictLoad_hbm, startPart_hbm, onLoad_hbm, beginLoad_hbm,
    Eff.after_done, Eff.after_wait]

theorem memGroup_hbm (row : Row) (g w beats : Nat) (ok : Bool) (k : OpKs) (go : MFields → Group → State →
    Eff) (s : State) (hgo : ∀ (y0 : MFields) (y1 : Group) (y2 : State), (Eff.after y2 (go y0 y1 y2)).mem.hbm = y2.mem.hbm) :
    (afterAnswer s (memGroup row g w beats ok k go s)).mem.hbm = s.mem.hbm := by
  simp only [memGroup, implies_true, issueGroup_hbm, withRegs_hbm, hgo]

@[simp] theorem groupLoad_hbm (g w : Nat) (f : MFields) (scalar : Bool) (x : Group) (s : State) :
    (Eff.after s (groupLoad g w f scalar x s)).mem.hbm = s.mem.hbm := by
  simp only [groupLoad]
  repeat' split
  all_goals simp only [foldl_hbm, implies_true, accessTrap_hbm, groupNext_hbm, setGroup_mem, issueReq_hbm, Eff.after_done]

@[simp] theorem execLd_hbm (who : Agent) (w : Nat) (s : State) :
    (afterAnswer s (execLd who w s)).mem.hbm = s.mem.hbm := by
  simp only [execLd]
  split <;> grind [memMedlar_hbm, medlarLoad_hbm, memGroup_hbm, groupLoad_hbm, afterAnswer_next, afterAnswer_stuck,
    afterAnswer_fault, Eff.after_done, Eff.after_trap, Eff.after_wait]

@[simp] theorem strictStore_hbm (c w n val : Nat) (p : MedPart) (s : State) :
    (Eff.after s (strictStore c w n val p s)).mem.hbm = s.mem.hbm := by
  rw [strictStore]
  split
  · rfl
  · split
    · split <;> simp
    · simp

@[simp] theorem sbFull_hbm (c : Nat) (s : State) : (Eff.after s (sbFull c s)).mem.hbm = s.mem.hbm := by
  simp [sbFull]

@[simp] theorem sendCombs_hbm (c : Nat) (p : CombEntry → Bool) (s : State) : (sendCombs c p s).mem.hbm = s.mem.hbm := by
  simp [sendCombs, foldl_hbm]

@[simp] theorem combWrite_hbm (c : Nat) (x : Xl) (va n val : Nat) (s : State) :
    (combWrite c x va n val s).mem.hbm = s.mem.hbm := by
  simp only [combWrite]
  repeat' split
  all_goals simp only [setMedlar_mem, sendCombs_hbm, takeFree_mem]

@[simp] theorem bufferPart_hbm (c val : Nat) (p : MedPart) (s : State) : (bufferPart c val p s).mem.hbm = s.mem.hbm := by
  simp [bufferPart]

@[simp] theorem medlarStore_hbm (c w n val va : Nat) (m : Medlar) (s : State) : (Eff.after s (medlarStore c w n val va m
  s)).mem.hbm = s.mem.hbm := by
  simp only [medlarStore]
  split
  · exact accessTrap_hbm ..
  · exact strictStore_hbm ..
  · split
    · exact sbFull_hbm ..
    · exact (medlarNext_hbm ..).trans (foldl_hbm (fun t p => bufferPart_hbm ..) _ _)

@[simp] theorem sendParts_hbm (g : Nat) (k : ReqKind) (critical : Bool) (load : Nat) (l1 : LanePart →
  Bool) (ps : List LanePart) (s : State) :
    (sendParts g k critical load l1 ps s).mem.hbm = s.mem.hbm := by
  simp [sendParts, foldl_hbm]

@[simp] theorem l1Store_hbm (k : Nat) (p : LanePart) (s : State) : (l1Store k p s).mem.hbm = s.mem.hbm := by
  simp only [l1Store]
  repeat' split
  all_goals simp only [setGCore_mem]

@[simp] theorem groupStore_hbm (g w : Nat) (f : MFields) (scalar : Bool) (x : Group) (s : State) :
    (Eff.after s (groupStore g w f scalar x s)).mem.hbm = s.mem.hbm := by
  have hput : ∀ (n k : Nat) (ps : List LanePart) (t : State), (sendParts g .write false 0 (fun _ => false) ps
      (ps.foldl (fun u p => l1Store k p u) t)).mem.hbm = t.mem.hbm := fun n k ps t =>
    (sendParts_hbm ..).trans (foldl_hbm (fun t p => l1Store_hbm ..) _ _)
  rw [groupStore]
  dsimp only
  split
  · rfl
  split
  · exact (accessTrap_hbm ..).trans ((hput 0 ..).trans (by simp))
  · split
    · exact (groupNext_hbm ..).trans ((hput 0 ..).trans (by simp))
    · exact (groupNext_hbm ..).trans (hput 0 ..)

@[simp] theorem execSt_hbm (who : Agent) (w : Nat) (s : State) :
    (afterAnswer s (execSt who w s)).mem.hbm = s.mem.hbm := by
  simp only [execSt]
  split <;> grind [memMedlar_hbm, medlarStore_hbm, memGroup_hbm, groupStore_hbm, afterAnswer_next, afterAnswer_stuck,
    afterAnswer_fault, Eff.after_done, Eff.after_trap, Eff.after_wait]

@[simp] theorem medlarAtomic_hbm (c w op : Nat) (f : MFields) (val cmp va : Nat) (m : Medlar) (s : State) :
    (Eff.after s (medlarAtomic c w op f val cmp va m s)).mem.hbm = s.mem.hbm := by
  simp only [medlarAtomic]
  repeat' split
  all_goals simp only [accessTrap_hbm, drainComb_hbm, issueReq_hbm, beginLoad_hbm, Eff.after_done, Eff.after_wait]

@[simp] theorem l1Drop_hbm (k : Nat) (p : LanePart) (s : State) : (l1Drop k p s).mem.hbm = s.mem.hbm := by
  rw [l1Drop]
  split <;> simp

@[simp] theorem groupAtomic_hbm (g w op : Nat) (f : MFields) (val : Nat →
  Nat × Nat) (returns : Bool) (x : Group) (s : State) :
    (Eff.after s (groupAtomic g w op f val returns x s)).mem.hbm = s.mem.hbm := by
  have hdrop : ∀ (k n m : Nat) (ps : List LanePart),
    (ps.foldl (fun u p => l1Drop k p u) (bump n m s)).mem.hbm = s.mem.hbm := fun k n m ps =>
    (foldl_hbm (fun t p => l1Drop_hbm ..) _ _).trans (by simp)
  rw [groupAtomic]
  dsimp only
  generalize tryLanes _ _ _ _ _ _ _ = ts
  split
  · rfl
  split
  · rfl
  split
  · exact accessTrap_hbm ..
  split
  · exact (groupNext_hbm ..).trans (hdrop ..)
  split
  · exact (sendParts_hbm ..).trans (hdrop ..)
  · exact (sendParts_hbm ..).trans (hdrop ..)

@[simp] theorem execAmo_hbm (who : Agent) (w : Nat) (s : State) :
    (afterAnswer s (execAmo who w s)).mem.hbm = s.mem.hbm := by
  simp only [execAmo]
  split <;> grind [memMedlar_hbm, medlarAtomic_hbm, memGroup_hbm, groupAtomic_hbm, afterAnswer_next, afterAnswer_stuck,
    afterAnswer_fault, Eff.after_done, Eff.after_trap, Eff.after_wait]

@[simp] theorem execCas_hbm (who : Agent) (w : Nat) (s : State) :
    (afterAnswer s (execCas who w s)).mem.hbm = s.mem.hbm := by
  simp only [execCas]
  split <;> grind [memMedlar_hbm, medlarAtomic_hbm, memGroup_hbm, groupAtomic_hbm, afterAnswer_next, afterAnswer_stuck,
    afterAnswer_fault, Eff.after_done, Eff.after_trap, Eff.after_wait]

@[simp] theorem medlarReduce_hbm (c w op : Nat) (f : MFields) (val va : Nat) (m : Medlar) (s : State) :
    (Eff.after s (medlarReduce c w op f val va m s)).mem.hbm = s.mem.hbm := by
  simp only [medlarReduce]
  repeat' split
  all_goals simp only [accessTrap_hbm, sbFull_hbm, medlarNext_hbm]

@[simp] theorem execRed_hbm (who : Agent) (w : Nat) (s : State) :
    (afterAnswer s (execRed who w s)).mem.hbm = s.mem.hbm := by
  simp only [execRed]
  split <;> grind [memMedlar_hbm, medlarReduce_hbm, memGroup_hbm, groupAtomic_hbm, afterAnswer_next, afterAnswer_stuck,
    afterAnswer_fault, Eff.after_done, Eff.after_trap, Eff.after_wait]

@[simp] theorem groupLocal_hbm (g w : Nat) (f : MFields) (store : Bool) (x : Group) (s : State) :
    (Eff.after s (groupLocal g w f store x s)).mem.hbm = s.mem.hbm := by
  rw [groupLocal]
  dsimp only
  split
  · exact accessTrap_hbm ..
  split
  · split
    · exact (groupNext_hbm ..).trans (by simp)
    · rfl
  · rfl

@[simp] theorem execLocalAccess_hbm (who : Agent) (w : Nat) (s : State) :
    (afterAnswer s (execLocalAccess who w s)).mem.hbm = s.mem.hbm := by
  simp only [execLocalAccess]
  split <;> grind [issueMedlar_hbm, bareTrap_hbm, memGroup_hbm, groupLocal_hbm, afterAnswer_next, afterAnswer_stuck,
    afterAnswer_fault, Eff.after_done, Eff.after_trap, Eff.after_wait]

@[simp] theorem countDivergent_hbm (die : Nat) (s : State) : (countDivergent die s).mem.hbm = s.mem.hbm := by
  simp [countDivergent]

@[simp] theorem brGroup_hbm (g w : Nat) (f : BFields) (x : Group) (s : State) : (Eff.after s (brGroup g w f x s)).mem.hbm
  = s.mem.hbm := by
  rw [brGroup]
  dsimp only
  split
  · split <;> rfl
  split
  · rfl
  split
  · rfl
  split
  · rfl
  · exact (groupDone_hbm ..).trans (countDivergent_hbm ..)

@[simp] theorem execBr_hbm (who : Agent) (w : Nat) (s : State) :
    (afterAnswer s (execBr who w s)).mem.hbm = s.mem.hbm := by
  simp only [execBr]
  split <;> grind [issueMedlar_hbm, withRegs_hbm, setMedlar_mem, medlarNext_hbm, issueGroup_hbm, brGroup_hbm,
    afterAnswer_next, afterAnswer_stuck, afterAnswer_fault, Eff.after_done, Eff.after_trap, Eff.after_wait]

@[simp] theorem execJal_hbm (who : Agent) (w : Nat) (s : State) :
    (afterAnswer s (execJal who w s)).mem.hbm = s.mem.hbm := by
  simp only [execJal]
  repeat' split
  all_goals grind [issueMedlar_hbm, setMedlar_mem, issueGroup_hbm, groupDone_hbm, afterAnswer_next, afterAnswer_stuck,
    afterAnswer_fault, Eff.after_done, Eff.after_trap, Eff.after_wait]

@[simp] theorem execJalr_hbm (who : Agent) (w : Nat) (s : State) :
    (afterAnswer s (execJalr who w s)).mem.hbm = s.mem.hbm := by
  simp only [execJalr]
  split <;> grind [issueMedlar_hbm, withRegs_hbm, bareTrap_hbm, setMedlar_mem, issueGroup_hbm, groupDone_hbm,
    afterAnswer_next, afterAnswer_stuck, afterAnswer_fault, Eff.after_done, Eff.after_trap, Eff.after_wait]

@[simp] theorem brxGroup_hbm (g r a0 : Nat) (x : Group) (s : State) : (Eff.after s (brxGroup g r a0 x s)).mem.hbm =
  s.mem.hbm := by
  rw [brxGroup]
  split
  · rfl
  · split <;> rfl
  · split
    · rfl
    split
    · rfl
    · exact (groupDone_hbm ..).trans (countDivergent_hbm ..)

@[simp] theorem execBrx_hbm (who : Agent) (w : Nat) (s : State) :
    (afterAnswer s (execBrx who w s)).mem.hbm = s.mem.hbm := by
  simp only [execBrx]
  split <;> grind [issueMedlar_hbm, bareTrap_hbm, issueGroup_hbm, withRegs_hbm, brxGroup_hbm, afterAnswer_next,
    afterAnswer_stuck, afterAnswer_fault, Eff.after_done, Eff.after_trap, Eff.after_wait]

theorem fenceMedlar_hbm (row : Row) (who : Agent) (w : Nat) (go : Nat → Medlar → State → Eff) (s : State)
    (hgo : ∀ c m t, (Eff.after t (go c m t)).mem.hbm =
      t.mem.hbm) : (afterAnswer s (fenceMedlar row who w go s)).mem.hbm = s.mem.hbm := by
  cases who with
  | medlar c =>
    rw [fenceMedlar]
    refine issueMedlar_hbm _ _ _ _ _ fun m t => ?_
    split
    · rfl
    · exact hgo ..
  | group g => exact issueGroup_hbm _ _ _ _ _ _ _ fun x t => rfl

@[simp] theorem execFenceSl_hbm (who : Agent) (w : Nat) (s : State) :
    (afterAnswer s (execFenceSl who w s)).mem.hbm = s.mem.hbm := by
  grind [execFenceSl, fenceMedlar_hbm, drainComb_hbm, medlarNext_hbm, afterAnswer_next, afterAnswer_stuck,
    afterAnswer_fault, Eff.after_done, Eff.after_trap, Eff.after_wait]

@[simp] theorem execFenceWc_hbm (who : Agent) (w : Nat) (s : State) :
    (afterAnswer s (execFenceWc who w s)).mem.hbm = s.mem.hbm := by
  grind [execFenceWc, fenceMedlar_hbm, drainComb_hbm, medlarNext_hbm, afterAnswer_next, afterAnswer_stuck,
    afterAnswer_fault, Eff.after_done, Eff.after_trap, Eff.after_wait]

@[simp] theorem execFenceI_hbm (who : Agent) (w : Nat) (s : State) :
    (afterAnswer s (execFenceI who w s)).mem.hbm = s.mem.hbm := by
  grind [execFenceI, fenceMedlar_hbm, medlarNext_hbm, afterAnswer_next, afterAnswer_stuck, afterAnswer_fault,
    Eff.after_done, Eff.after_trap, Eff.after_wait]

theorem fenceGroup_hbm (row : Row) (who : Agent) (w : Nat) (go : Nat → Group → State → Eff) (s : State)
    (hgo : ∀ g x t, (Eff.after t (go g x t)).mem.hbm = t.mem.hbm) : (afterAnswer s (fenceGroup row who w go s)).mem.hbm =
      s.mem.hbm := by
  cases who with
  | medlar c => rw [fenceGroup]; exact issueMedlar_hbm _ _ _ _ _ fun m t => rfl
  | group g =>
    rw [fenceGroup]
    refine issueGroup_hbm _ _ _ _ _ _ _ fun x t => ?_
    split
    · rfl
    · exact hgo ..

@[simp] theorem execFenceRel_hbm (who : Agent) (w : Nat) (s : State) :
    (afterAnswer s (execFenceRel who w s)).mem.hbm = s.mem.hbm := by
  grind [execFenceRel, fenceGroup_hbm, groupNext_hbm, afterAnswer_next, afterAnswer_stuck, afterAnswer_fault,
    Eff.after_done, Eff.after_trap, Eff.after_wait]

@[simp] theorem execFenceAcq_hbm (who : Agent) (w : Nat) (s : State) : (afterAnswer s (execFenceAcq who w s)).mem.hbm =
  s.mem.hbm :=
  fenceGroup_hbm _ _ _ _ _ fun g x t => by split <;> rfl

@[simp] theorem execFenceSys_hbm (who : Agent) (w : Nat) (s : State) : (afterAnswer s (execFenceSys who w s)).mem.hbm =
  s.mem.hbm := by
  cases who with
  | medlar c =>
    rw [execFenceSys]
    refine issueMedlar_hbm _ _ _ _ _ fun m t => ?_
    split
    · rfl
    · exact (medlarNext_hbm ..).trans (drainComb_hbm ..)
  | group g =>
    rw [execFenceSys]
    refine issueGroup_hbm _ _ _ _ _ _ _ fun x t => ?_
    split <;> rfl

@[simp] theorem execFenceSysResolve_hbm (who : Agent) (s : State) :
    (afterAnswer s (execFenceSysResolve who s)).mem.hbm = s.mem.hbm := by
  simp only [execFenceSysResolve]
  repeat' split
  all_goals simp only [takeHeld_hbm, setMedlar_mem, setGroup_mem, afterAnswer_next, afterAnswer_stuck]

theorem issueMx_hbm (row : Row) (who : Agent) (w : Nat) (uses : List RReg) (go : Nat → Group → State → Eff) (s : State)
    (hgo : ∀ g x t, (Eff.after t (go g x t)).mem.hbm =
      t.mem.hbm) : (afterAnswer s (issueMx row who w uses go s)).mem.hbm = s.mem.hbm := by
  cases who with
  | medlar c => rw [issueMx]; exact issueMedlar_hbm _ _ _ _ _ fun m t => rfl
  | group g => rw [issueMx]; exact issueGroup_hbm _ _ _ _ _ _ _ fun x t => hgo ..

@[simp] theorem execMxbegin_hbm (who : Agent) (w : Nat) (s : State) :
    (afterAnswer s (execMxbegin who w s)).mem.hbm = s.mem.hbm := by
  grind [execMxbegin, issueMx_hbm, bareTrap_hbm, groupNext_hbm, afterAnswer_next, afterAnswer_stuck, afterAnswer_fault,
    Eff.after_done, Eff.after_trap, Eff.after_wait]

@[simp] theorem execMxend_hbm (who : Agent) (w : Nat) (s : State) :
    (afterAnswer s (execMxend who w s)).mem.hbm = s.mem.hbm := by
  grind [execMxend, issueMx_hbm, bareTrap_hbm, groupNext_hbm, afterAnswer_next, afterAnswer_stuck, afterAnswer_fault,
    Eff.after_done, Eff.after_trap, Eff.after_wait]

@[simp] theorem execMma_hbm (who : Agent) (w : Nat) (s : State) :
    (afterAnswer s (execMma who w s)).mem.hbm = s.mem.hbm := by
  grind [execMma, issueMx_hbm, bareTrap_hbm, groupNext_hbm, afterAnswer_next, afterAnswer_stuck, afterAnswer_fault,
    Eff.after_done, Eff.after_trap, Eff.after_wait]

@[simp] theorem execNopInstruction_hbm (who : Agent) (w : Nat) (s : State) :
    (afterAnswer s (execNopInstruction who w s)).mem.hbm = s.mem.hbm := by
  simp only [execNopInstruction]
  split <;> grind [issueMedlar_hbm, medlarNext_hbm, bareTrap_hbm, issueGroup_hbm, groupNext_hbm, afterAnswer_next,
    afterAnswer_stuck, afterAnswer_fault, Eff.after_done, Eff.after_trap, Eff.after_wait]

@[simp] theorem countEnded_hbm (key : Nat) (s : State) : (countEnded key s).mem.hbm = s.mem.hbm := by
  rw [countEnded]
  split <;> simp

@[simp] theorem execEndGroup_hbm (who : Agent) (w : Nat) (s : State) :
    (afterAnswer s (execEndGroup who w s)).mem.hbm = s.mem.hbm := by
  simp only [execEndGroup]
  repeat' split
  all_goals grind [issueMedlar_hbm, bareTrap_hbm, issueGroup_hbm, removeGroup_hbm, countEnded_hbm, afterAnswer_next,
    afterAnswer_stuck, afterAnswer_fault, Eff.after_done, Eff.after_trap, Eff.after_wait]

@[simp] theorem execTret_hbm (who : Agent) (w : Nat) (s : State) :
    (afterAnswer s (execTret who w s)).mem.hbm = s.mem.hbm := by
  simp only [execTret]
  repeat' split
  all_goals grind [issueMedlar_hbm, bareTrap_hbm, setMedlar_mem, medlarTrap_hbm, issueGroup_hbm, afterAnswer_next,
    afterAnswer_stuck, afterAnswer_fault, Eff.after_done, Eff.after_trap, Eff.after_wait]

@[simp] theorem execTrap_hbm (who : Agent) (w : Nat) (s : State) :
    (afterAnswer s (execTrap who w s)).mem.hbm = s.mem.hbm := by
  simp only [execTrap]
  repeat' split
  all_goals grind [issueMedlar_hbm, bareTrap_hbm, medlarTrap_hbm, issueGroup_hbm, afterAnswer_next, afterAnswer_stuck,
    afterAnswer_fault, Eff.after_done, Eff.after_trap, Eff.after_wait]

@[simp] theorem crReadMedlar_hbm (c n : Nat) (m : Medlar) (s : State) :
    (crReadMedlar c n m s).2.mem.hbm = s.mem.hbm := by
  unfold crReadMedlar
  repeat' split
  all_goals simp

@[simp] theorem crReadGroup_hbm (x : Group) (n : Nat) (s : State) : (crReadGroup x n s).2.mem.hbm = s.mem.hbm := by
  unfold crReadGroup
  repeat' split
  all_goals simp

@[simp] theorem execCrr_hbm (who : Agent) (w : Nat) (s : State) :
    (afterAnswer s (execCrr who w s)).mem.hbm = s.mem.hbm := by
  simp only [execCrr]
  split <;> grind [issueMedlar_hbm, withRegs_hbm, crReadMedlar_hbm, medlarNext_hbm, issueGroup_hbm, crReadGroup_hbm,
    groupNext_hbm, afterAnswer_next, afterAnswer_stuck, afterAnswer_fault, Eff.after_done, Eff.after_trap, Eff.after_wait]

@[simp] theorem execCrw_hbm (who : Agent) (w : Nat) (s : State) :
    (afterAnswer s (execCrw who w s)).mem.hbm = s.mem.hbm := by
  simp only [execCrw]
  split <;> grind [issueMedlar_hbm, withRegs_hbm, bareTrap_hbm, medlarNext_hbm, issueGroup_hbm, groupNext_hbm,
    afterAnswer_next, afterAnswer_stuck, afterAnswer_fault, Eff.after_done, Eff.after_trap, Eff.after_wait]

@[simp] theorem advanceHead_hbm (a : Agent) (s : State) : (advanceHead a s).mem.hbm = s.mem.hbm := by
  simp only [advanceHead]
  repeat' split
  all_goals simp only [setMedlar_mem]

@[simp] theorem medlarReport_hbm (c : Nat) (r : Imprecise) (s : State) : (medlarReport c r s).mem.hbm = s.mem.hbm := by
  simp [medlarReport]

@[simp] theorem groupReport_hbm (g die : Nat) (f : FaultInfo) (s : State) :
    (groupReport g die f s).mem.hbm = s.mem.hbm := by
  unfold groupReport
  repeat' split
  all_goals simp

@[simp] theorem execImpreciseReport_hbm (req : Nat) (s : State) :
    (afterAnswer s (execImpreciseReport req s)).mem.hbm = s.mem.hbm := by
  unfold execImpreciseReport
  repeat' split
  all_goals simp

@[simp] theorem medlarLoadBad_hbm (c id va : Nat) (cause : Cause) (s : State) :
    (medlarLoadBad c id va cause s).mem.hbm = s.mem.hbm := by
  simp [medlarLoadBad]

@[simp] theorem medlarRefused_hbm (c : Nat) (cause : Cause) (r : Req) (s : State) :
    (medlarRefused c cause r s).mem.hbm = s.mem.hbm := by
  simp [medlarRefused]

@[simp] theorem medlarReturn_hbm (c : Nat) (r : Req) (s : State) : (medlarReturn c r s).mem.hbm = s.mem.hbm := by
  rw [medlarReturn]
  split <;> simp

@[simp] theorem l1Fill_hbm (k line : Nat) (d : Line) (s : State) : (l1Fill k line d s).mem.hbm = s.mem.hbm := by
  simp [l1Fill]

@[simp] theorem fillFrom_hbm (r : Req) (s : State) : (fillFrom r s).mem.hbm = s.mem.hbm := by
  rw [fillFrom]
  split <;> simp

@[simp] theorem noteCorrected_hbm (g : Nat) (s : State) : (noteCorrected g s).mem.hbm = s.mem.hbm := by
  rw [noteCorrected]
  split <;> simp

@[simp] theorem retireLoad_hbm (g : Nat) (l : PendLoad) (x : Group) (s : State) :
    (retireLoad g l x s).mem.hbm = s.mem.hbm := rfl

@[simp] theorem faultLoad_hbm (g : Nat) (l : PendLoad) (f : FaultInfo) (x : Group) (s : State) :
    (faultLoad g l f x s).mem.hbm = s.mem.hbm := by
  simp [faultLoad]

@[simp] theorem loadPart_hbm (g id : Nat) (got : List LaneAcc) (bad : List (Nat × FaultInfo)) (s : State) :
    (loadPart g id got bad s).mem.hbm = s.mem.hbm := by
  simp only [loadPart]
  repeat' split
  all_goals simp only [setGroup_mem, retireLoad_hbm, faultLoad_hbm]

@[simp] theorem groupReturn_hbm (g : Nat) (r : Req) (s : State) : (groupReturn g r s).mem.hbm = s.mem.hbm := by
  rw [groupReturn]
  split <;> simp

@[simp] theorem execLoadReturn_hbm (req : Nat) (s : State) :
    (afterAnswer s (execLoadReturn req s)).mem.hbm = s.mem.hbm := by
  unfold execLoadReturn
  repeat' split
  all_goals simp

@[simp] theorem noteFailed_hbm (a : Agent) (f : RemoteFail) (s : State) : (noteFailed a f s).mem.hbm = s.mem.hbm := by
  simp only [noteFailed]
  repeat' split
  all_goals simp only [setMedlar_mem, setGroup_mem]

@[simp] theorem execWriteAck_hbm (req : Nat) (s : State) : (afterAnswer s (execWriteAck req s)).mem.hbm = s.mem.hbm := by
  unfold execWriteAck
  repeat' split
  all_goals simp

@[simp] theorem refuseHead_hbm (c : Nat) (cause : Cause) (s : State) : (refuseHead c cause s).mem.hbm = s.mem.hbm := by
  rw [refuseHead]
  split <;> simp

@[simp] theorem execStoreBufferDrain_hbm (core : Nat) (s : State) :
    (afterAnswer s (execStoreBufferDrain core s)).mem.hbm = s.mem.hbm := by
  simp only [execStoreBufferDrain]
  repeat' split
  all_goals simp only [issueReq_hbm, refuseHead_hbm, countDenied_hbm, writeHead_hbm, askLine_hbm, afterAnswer_next,
    afterAnswer_stuck]

@[simp] theorem execPrefetch_hbm (core va : Nat) (s : State) :
    (afterAnswer s (execPrefetch core va s)).mem.hbm = s.mem.hbm := by
  simp only [execPrefetch]
  repeat' split
  all_goals simp only [askLine_hbm, afterAnswer_next, afterAnswer_stuck]

@[simp] theorem restartPart_hbm (c : Nat) (w : WaitLoad) (s : State) : (restartPart c w s).mem.hbm = s.mem.hbm := by
  rw [restartPart]
  split <;> simp

@[simp] theorem retranslateHead_hbm (c : Nat) (s : State) : (retranslateHead c s).mem.hbm = s.mem.hbm := by
  simp only [retranslateHead]
  repeat' split
  all_goals simp only [setMedlar_mem, refuseHead_hbm, countSegFault_hbm]

@[simp] theorem staleCore_hbm (c line : Nat) (k : CohKind) (s : State) : (staleCore c line k s).mem.hbm = s.mem.hbm := by
  simp only [staleCore]
  repeat' split
  all_goals simp only [foldl_hbm, implies_true, setMsgs_mem, countStale_hbm, restartPart_hbm, setMedlar_mem,
    retranslateHead_hbm]

@[simp] theorem refuseLoads_hbm (c line : Nat) (cause : Cause) (s : State) :
    (refuseLoads c line cause s).mem.hbm = s.mem.hbm := by
  simp [refuseLoads, foldl_hbm]

@[simp] theorem denyCore_hbm (c line : Nat) (k : CohKind) (x : Xl) (s : State) :
    (denyCore c line k x s).mem.hbm = s.mem.hbm := by
  unfold denyCore
  repeat' split
  all_goals simp

@[simp] theorem dirRoom_hbm (line : Nat) (s : State) : (dirRoom line s).mem.hbm = s.mem.hbm := by
  simp only [dirRoom]
  repeat' split
  all_goals simp only [startSnoops_hbm, bump_mem]

@[simp] theorem coreRequest_hbm (c line : Nat) (k : CohKind) (s : State) :
    (afterAnswer s (coreRequest c line k s)).mem.hbm = s.mem.hbm := by
  simp only [coreRequest]
  repeat' split
  all_goals simp only [homeServe_hbm, staleCore_hbm, denyCore_hbm, dirRoom_hbm, afterAnswer_next, afterAnswer_stuck]

@[simp] theorem execReadShared_hbm (core line : Nat) (s : State) :
    (afterAnswer s (execReadShared core line s)).mem.hbm = s.mem.hbm := by
  simp [execReadShared]

@[simp] theorem execReadOwn_hbm (core line : Nat) (s : State) :
    (afterAnswer s (execReadOwn core line s)).mem.hbm = s.mem.hbm := by
  simp [execReadOwn]

@[simp] theorem execUpgrade_hbm (core line : Nat) (s : State) :
    (afterAnswer s (execUpgrade core line s)).mem.hbm = s.mem.hbm := by
  simp [execUpgrade]

@[simp] theorem evictFrom_hbm (core line : Nat) (dirty : Bool) (s : State) :
    (afterAnswer s (evictFrom core line dirty s)).mem.hbm = s.mem.hbm := by
  unfold evictFrom
  repeat' split
  all_goals simp

@[simp] theorem execWriteBack_hbm (core line : Nat) (s : State) :
    (afterAnswer s (execWriteBack core line s)).mem.hbm = s.mem.hbm := by
  simp [execWriteBack]

@[simp] theorem execCleanEvict_hbm (core line : Nat) (s : State) :
    (afterAnswer s (execCleanEvict core line s)).mem.hbm = s.mem.hbm := by
  simp [execCleanEvict]

@[simp] theorem sendAnswer_hbm (core line : Nat) (k : SnoopKind) (s : State) :
    (sendAnswer core line k s).mem.hbm = s.mem.hbm := by
  simp [sendAnswer]

@[simp] theorem snoopArrives_hbm (core line : Nat) (k : SnoopKind) (s : State) :
    (afterAnswer s (snoopArrives core line k s)).mem.hbm = s.mem.hbm := by
  unfold snoopArrives
  repeat' split
  all_goals simp

@[simp] theorem execSnpShared_hbm (core line : Nat) (s : State) :
    (afterAnswer s (execSnpShared core line s)).mem.hbm = s.mem.hbm := by
  simp [execSnpShared]

@[simp] theorem execSnpOwn_hbm (core line : Nat) (s : State) :
    (afterAnswer s (execSnpOwn core line s)).mem.hbm = s.mem.hbm := by
  simp [execSnpOwn]

@[simp] theorem execSnpClean_hbm (core line : Nat) (s : State) :
    (afterAnswer s (execSnpClean core line s)).mem.hbm = s.mem.hbm := by
  simp [execSnpClean]

@[simp] theorem execSnpInval_hbm (core line : Nat) (s : State) :
    (afterAnswer s (execSnpInval core line s)).mem.hbm = s.mem.hbm := by
  simp [execSnpInval]

@[simp] theorem execSnoopResponse_hbm (core line : Nat) (s : State) :
    (afterAnswer s (execSnoopResponse core line s)).mem.hbm = s.mem.hbm := by
  unfold execSnoopResponse
  repeat' split
  all_goals simp

@[simp] theorem execLineArrival_hbm (core line : Nat) (s : State) :
    (afterAnswer s (execLineArrival core line s)).mem.hbm = s.mem.hbm := by
  unfold execLineArrival
  repeat' split
  all_goals simp

@[simp] theorem execHoldWindowExpiry_hbm (core line : Nat) (s : State) :
    (afterAnswer s (execHoldWindowExpiry core line s)).mem.hbm = s.mem.hbm := by
  simp only [execHoldWindowExpiry]
  repeat' split
  all_goals simp only [atLeast_mem, sendAnswer_hbm, setMsgs_mem, afterAnswer_next, afterAnswer_stuck]

@[simp] theorem grantReq_hbm (id line : Nat) (r : Req) (s : State) : (grantReq id line r s).mem.hbm = s.mem.hbm := by
  simp [grantReq]

@[simp] theorem benchGrant_hbm (id : Nat) (want : ReqKind →
  Bool) (s : State) : (afterAnswer s (benchGrant id want s)).mem.hbm = s.mem.hbm := by
  rw [benchGrant]
  split
  · rfl
  next r _ =>
  split
  · refine afterAnswer_ite_hbm rfl (afterAnswer_ite_hbm rfl (afterAnswer_ite_hbm rfl (afterAnswer_ite_hbm rfl
      (afterAnswer_ite_hbm rfl (afterAnswer_ite_hbm (grantReq_hbm ..) (afterAnswer_ite_hbm rfl (afterAnswer_ite_hbm
        (countStale_hbm ..) (afterAnswer_ite_hbm ((congrArg MemSys.hbm (setReq_mem ..)).trans (countDenied_hbm ..))
          (afterAnswer_ite_hbm rfl ?_)))))))))
    refine (grantReq_hbm ..).trans ?_
    split
    · exact advanceHead_hbm ..
    · rfl
  · rfl

@[simp] theorem execBenchRead_hbm (req : Nat) (s : State) :
    (afterAnswer s (execBenchRead req s)).mem.hbm = s.mem.hbm := by
  simp [execBenchRead]

@[simp] theorem execBenchWrite_hbm (req : Nat) (s : State) :
    (afterAnswer s (execBenchWrite req s)).mem.hbm = s.mem.hbm := by
  simp [execBenchWrite]

@[simp] theorem execBenchAtomic_hbm (req : Nat) (s : State) :
    (afterAnswer s (execBenchAtomic req s)).mem.hbm = s.mem.hbm := by
  simp [execBenchAtomic]

@[simp] theorem execBenchReduceWrite_hbm (req : Nat) (s : State) :
    (afterAnswer s (execBenchReduceWrite req s)).mem.hbm = s.mem.hbm := by
  simp [execBenchReduceWrite]

@[simp] theorem innerReports_hbm (line inner : Nat) (s : State) : (innerReports line inner s).mem.hbm = s.mem.hbm := by
  simp [innerReports]

@[simp] theorem ownerCorrected_hbm (o : TOwner) (s : State) : (ownerCorrected o s).mem.hbm = s.mem.hbm := by
  simp [ownerCorrected]

@[simp] theorem giveLine_hbm (line : Nat) (mark : Bool) (s : State) (o : TOwner) :
    (giveLine line mark s o).mem.hbm = s.mem.hbm := by
  simp [giveLine]

@[simp] theorem resumeReq_hbm (id line : Nat) (s : State) : (resumeReq id line s).mem.hbm = s.mem.hbm := by
  rw [resumeReq]
  split <;> simp

@[simp] theorem execBenchFill_hbm (line inner : Nat) (s : State) : (afterAnswer s (execBenchFill line inner s)).mem.hbm =
  s.mem.hbm := by
  have hresume : ∀ (c : Bool) (l : List Nat) (t : State), (l.foldl (fun u id => resumeReq id line (match u.reqs.find id with
      | some r => setReq id { r with corrected := r.corrected || c } u
      | none => u)) t).mem.hbm = t.mem.hbm := fun c l t =>
    foldl_hbm (fun u id => (resumeReq_hbm ..).trans (by split <;> rfl)) l t
  have hfill : ∀ h tr, (fillHalf line h tr (makeRoom line 4 (recallLine line (innerReports line inner s)))).2.mem.hbm =
    s.mem.hbm := by simp
  rw [execBenchFill]
  split
  · rfl
  next t _ =>
  split
  · rfl
  · dsimp only
    refine (hresume ..).trans ?_
    split
    · exact hfill _ t.tracked
    · exact (foldl_hbm (fun v o => giveLine_hbm ..) _ _).trans (hfill _ t.tracked)

@[simp] theorem execWcbHoldExpiry_hbm (ctl line : Nat) (s : State) :
    (afterAnswer s (execWcbHoldExpiry ctl line s)).mem.hbm = s.mem.hbm := by
  rw [execWcbHoldExpiry]
  split <;> simp

@[simp] theorem execBwWindowEnd_hbm (ctl : Nat) (s : State) :
    (afterAnswer s (execBwWindowEnd ctl s)).mem.hbm = s.mem.hbm := by
  rw [execBwWindowEnd]
  split <;> simp

@[simp] theorem execRefresh_hbm (stack : Nat) (s : State) :
    (afterAnswer s (execRefresh stack s)).mem.hbm = s.mem.hbm := by
  rw [execRefresh]
  split <;> simp

@[simp] theorem reportTrip_hbm (d : Nat) (temp : Int) (s : State) : (reportTrip d temp s).mem.hbm = s.mem.hbm := by
  simp [reportTrip]

@[simp] theorem tripDie_hbm (d : Nat) (temp : Int) (s : State) : (tripDie d temp s).mem.hbm = s.mem.hbm := by
  simp [tripDie]

@[simp] theorem cooled_hbm (d : Nat) (s : State) : (cooled d s).mem.hbm = s.mem.hbm := by
  simp [cooled]

@[simp] theorem thermTrip_hbm (temp : Int) (s : State) : (thermTrip temp s).mem.hbm = s.mem.hbm := by
  simp [thermTrip, foldl_hbm]

@[simp] theorem execStackTempRead_hbm (stack : Nat) (temp : Int) (s0 : State) :
    (afterAnswer s0 (execStackTempRead stack temp s0)).mem.hbm = s0.mem.hbm := by
  rw [execStackTempRead]
  split <;> simp

@[simp] theorem execLocalGib_hbm (src v : Nat) (s : State) :
    (afterAnswer s (execLocalGib src v s)).mem.hbm = s.mem.hbm := by
  grind [execLocalGib, outside_hbm, commitScalar_hbm, actLocalGib_hbm, afterAnswer_next, afterAnswer_stuck, afterAnswer_fault]

@[simp] theorem execTableLoad_hbm (src v : Nat) (s : State) :
    (afterAnswer s (execTableLoad src v s)).mem.hbm = s.mem.hbm := by
  grind [execTableLoad, outside_hbm, commitScalar_hbm, actTableLoad_hbm, afterAnswer_next, afterAnswer_stuck,
    afterAnswer_fault]

@[simp] theorem untrack_hbm (rs : List (Nat × Nat)) (s : State) : (untrack rs s).mem.hbm = s.mem.hbm := rfl

@[simp] theorem materialise_hbm (rs : List (Nat × Nat)) (s : State) : (materialise rs s).mem.hbm = s.mem.hbm := by
  simp [materialise, foldl_hbm]

@[simp] theorem execTableLoadComplete_hbm (s : State) :
    (afterAnswer s (execTableLoadComplete s)).mem.hbm = s.mem.hbm := by
  unfold execTableLoadComplete
  repeat' split
  all_goals simp

@[simp] theorem execTableBaseWrite_hbm (src sub v : Nat) (s : State) :
    (afterAnswer s (execTableBaseWrite src sub v s)).mem.hbm = s.mem.hbm := by
  grind [execTableBaseWrite, outside_hbm, commitScalar_hbm, actTableBase_hbm, afterAnswer_next, afterAnswer_stuck,
    afterAnswer_fault]

@[simp] theorem execClaimAssign_hbm (src v : Nat) (s : State) :
    (afterAnswer s (execClaimAssign src v s)).mem.hbm = s.mem.hbm := by
  grind [execClaimAssign, outside_hbm, commitScalar_hbm, actClaimAssign_hbm, afterAnswer_next, afterAnswer_stuck,
    afterAnswer_fault]

@[simp] theorem execClaimEraseDone_hbm (s : State) : (afterAnswer s (execClaimEraseDone s)).mem.hbm = s.mem.hbm := by
  simp only [execClaimEraseDone]
  repeat' split
  all_goals simp only [foldl_hbm, implies_true, storeLine_hbm, beforeWrite_hbm, zmapSet_hbm, setClaimTag_hbm,
    afterAnswer_next, afterAnswer_stuck]

@[simp] theorem peerRead_hbm (x : Xl) (p : PeerReq) (u : UStep) : (peerRead x p u).2.st.mem.hbm = u.st.mem.hbm := by
  rw [peerRead, foldl_hbm_step_snd]
  intro a q
  split
  · rfl
  · exact homeRead_hbm ..

@[simp] theorem peerWrite_hbm (x : Xl) (p : PeerReq) (u : UStep) : (peerWrite x p u).st.mem.hbm = u.st.mem.hbm := by
  rw [peerWrite, foldl_hbm_step_snd]
  intro a q
  dsimp only
  split
  · rfl
  · split
    · exact homeReduce_hbm ..
    · exact homeStore_hbm ..

@[simp] theorem execPeerRequest_hbm (conn : Nat) (p : PeerReq) (s : State) :
    (afterAnswer s (execPeerRequest conn p s)).mem.hbm = s.mem.hbm := by
  simp only [execPeerRequest]
  repeat' split
  all_goals simp only [waitAnswer_hbm, dropArrived_hbm, send_mem, setConn_mem, sumErr_mem, bump_mem, UStep.start_hbm,
    peerRead_hbm, peerWrite_hbm, afterAnswer_next, afterAnswer_stuck]

@[simp] theorem execFeInboundRdma_hbm (conn : Nat) (s : State) :
    (afterAnswer s (execFeInboundRdma conn s)).mem.hbm = s.mem.hbm := by
  simp only [execFeInboundRdma, bump_mem, outside_hbm, send_mem, ite_hbm, ite_self]

@[simp] theorem grantUpdate_hbm (key d : Nat) (s : State) : (grantUpdate key d s).mem.hbm = s.mem.hbm := by
  simp [grantUpdate, foldl_hbm]

@[simp] theorem execSegUpdate_hbm (q seq : Nat) (s : State) :
    (afterAnswer s (execSegUpdate q seq s)).mem.hbm = s.mem.hbm := by
  simp only [execSegUpdate]
  repeat' split
  all_goals simp only [stageDesc_hbm, waitAnswer_hbm, refuseJob_hbm, grantUpdate_hbm, runJob_hbm, uClose_hbm,
    afterAnswer_next, afterAnswer_stuck]

@[simp] theorem execSegUpdateGrant_hbm (q seq point : Nat) (s : State) :
    (afterAnswer s (execSegUpdateGrant q seq point s)).mem.hbm = s.mem.hbm := by
  simp only [execSegUpdateGrant]
  repeat' split
  all_goals simp only [afterAnswer_next, afterAnswer_stuck]

@[simp] theorem moreParts_hbm (a : Agent) (id k : Nat) (s : State) : (moreParts a id k s).mem.hbm = s.mem.hbm := by
  unfold moreParts
  repeat' split
  all_goals simp

@[simp] theorem reissue_hbm (req : Nat) (r : Req) (x : Xl) (s : State) : (reissue req r x s).mem.hbm = s.mem.hbm := by
  simp only [reissue]
  repeat' split
  all_goals simp only [foldl_hbm, implies_true, startPart_hbm, dropReq_mem, setReq_mem, moreParts_hbm, issueReq_hbm]

@[simp] theorem execRequestRetranslate_hbm (req : Nat) (s : State) :
    (afterAnswer s (execRequestRetranslate req s)).mem.hbm = s.mem.hbm := by
  unfold execRequestRetranslate
  repeat' split
  all_goals simp

@[simp] theorem execSegUpdateComplete_hbm (q seq : Nat) (s : State) :
    (afterAnswer s (execSegUpdateComplete q seq s)).mem.hbm = s.mem.hbm := by
  simp only [execSegUpdateComplete]
  repeat' split
  all_goals simp only [materialise_hbm, finishJob_hbm, afterAnswer_next, afterAnswer_stuck]

@[simp] theorem execQueueOpen_hbm (src q : Nat) (s : State) :
    (afterAnswer s (execQueueOpen src q s)).mem.hbm = s.mem.hbm := by
  grind [execQueueOpen, outside_hbm, commitScalar_hbm, writeQState_hbm, afterAnswer_next, afterAnswer_stuck,
    afterAnswer_fault]

@[simp] theorem execQueueClose_hbm (src q : Nat) (s : State) :
    (afterAnswer s (execQueueClose src q s)).mem.hbm = s.mem.hbm := by
  grind [execQueueClose, outside_hbm, commitScalar_hbm, writeQState_hbm, afterAnswer_next, afterAnswer_stuck,
    afterAnswer_fault]

@[simp] theorem execQueueCloseDone_hbm (q : Nat) (s : State) : (afterAnswer s (execQueueCloseDone q s)).mem.hbm =
  s.mem.hbm := by
  rw [execQueueCloseDone, when_]
  split <;> rfl

@[simp] theorem takeDoorbell_hbm (conn p : Nat) (s : State) : (takeDoorbell conn p s).mem.hbm = s.mem.hbm := by
  simp [takeDoorbell]

@[simp] theorem refuseMessage_hbm (conn : Nat) (s : State) : (refuseMessage conn s).mem.hbm = s.mem.hbm := by
  simp [refuseMessage]

@[simp] theorem execDoorbell_hbm (conn payload : Nat) (s : State) :
    (afterAnswer s (execDoorbell conn payload s)).mem.hbm = s.mem.hbm := by
  simp only [execDoorbell, outside_hbm, takeDoorbell_hbm, send_mem, refuseMessage_hbm, ite_hbm, ite_self]

@[simp] theorem execQDoorbell_hbm (src q v : Nat) (s : State) :
    (afterAnswer s (execQDoorbell src q v s)).mem.hbm = s.mem.hbm := by
  simp only [execQDoorbell, outside_hbm, commitDoorbell_hbm]

@[simp] theorem execQCplHead_hbm (src q v : Nat) (s : State) :
    (afterAnswer s (execQCplHead src q v s)).mem.hbm = s.mem.hbm := by
  grind [execQCplHead, outside_hbm, commitScalar_hbm, writeCplHead_hbm, afterAnswer_next, afterAnswer_stuck,
    afterAnswer_fault]

@[simp] theorem execSendDiscard_hbm (conn len : Nat) (s : State) :
    (afterAnswer s (execSendDiscard conn len s)).mem.hbm = s.mem.hbm := by
  simp only [execSendDiscard]
  repeat' split
  all_goals simp only [outside_hbm, refuseMessage_hbm, send_mem, afterAnswer_stuck]

@[simp] theorem execRocePacketDiscard_hbm (conn : Nat) (s : State) :
    (afterAnswer s (execRocePacketDiscard conn s)).mem.hbm = s.mem.hbm := by
  simp only [execRocePacketDiscard]
  repeat' split
  all_goals simp only [outside_hbm, bump_mem, afterAnswer_stuck]

@[simp] theorem handOver_hbm (q : Nat) (f : Fetched) (s : State) : (handOver q f s).mem.hbm = s.mem.hbm := rfl

@[simp] theorem takeCommand_hbm (q raw : Nat) (s : State) : (takeCommand q raw s).mem.hbm = s.mem.hbm := by
  simp [takeCommand]

@[simp] theorem takeSlot_hbm (q raw : Nat) (s : State) : (takeSlot q raw s).2.mem.hbm = s.mem.hbm := by
  rw [takeSlot]
  split <;> simp

@[simp] theorem fetchRemote_hbm (q : Nat) (a : List Nat) (s : State) : (fetchRemote q a s).mem.hbm = s.mem.hbm := by
  fun_induction fetchRemote q a s <;> grind [takeSlot_hbm]

@[simp] theorem askRing_hbm (q n : Nat) (s : State) : (afterAnswer s (askRing q n s)).mem.hbm = s.mem.hbm := by
  rw [askRing]
  split <;> simp

@[simp] theorem readSlot_hbm (q : Nat) (s : State) : (Slot.after (readSlot q s)).mem.hbm = s.mem.hbm := by
  simp only [readSlot]
  repeat' split
  all_goals simp only [uGet_hbm, UStep.start_hbm, dropArrived_hbm, Slot.after_waits, Slot.after_failed, Slot.after_got]

@[simp] theorem stopFetch_hbm (q : Nat) (st : Status) (opcode tag : Nat) (s : State) :
    (stopFetch q st opcode tag s).mem.hbm = s.mem.hbm := by
  simp [stopFetch]

@[simp] theorem stopUnread_hbm (q : Nat) (st : Status) (s : State) : (stopUnread q st s).mem.hbm = s.mem.hbm := by
  simp [stopUnread]

@[simp] theorem fetchDevice_hbm (q a : Nat) (s : State) : (fetchDevice q a s).mem.hbm = s.mem.hbm := by
  fun_induction fetchDevice q a s <;> grind [keepAsking_hbm, takeSlot_hbm, readSlot_hbm, stopUnread_hbm,
    Slot.after_waits, Slot.after_failed, Slot.after_got]

@[simp] theorem execCommandFetch_hbm (q : Nat) (s : State) : (afterAnswer s (execCommandFetch q s)).mem.hbm = s.mem.hbm := by
  have hq : (setQueue q { queueOf s q with held := false } s).mem.hbm = s.mem.hbm := congrArg MemSys.hbm (setQueue_mem ..)
  have hd := (dropArrived_hbm (.ring q) (setQueue q { queueOf s q with held := false } s)).trans hq
  rw [execCommandFetch]
  dsimp only
  split
  · rfl
  split
  · split
    · rfl
    · rw [afterAnswer_next, bump_mem, setQueue_mem]
  split
  · split
    · rw [afterAnswer_next, endFetch_hbm, setQueue_mem]
    split
    · exact (fetchRemote_hbm ..).trans hd
    · exact afterAnswer_of_hbm hq (askRing_hbm ..)
  · split
    · exact waitAnswer_hbm hq
    · rw [afterAnswer_next, fetchDevice_hbm, hq]

@[simp] theorem judgeSlot_hbm (q raw : Nat) (s : State) : (judgeSlot q raw s).mem.hbm = s.mem.hbm := by
  simp [judgeSlot]

theorem Slot.after_of_eq {q : Nat} {s : State} {r : Slot} (h : readSlot q s = r) : r.after.mem.hbm = s.mem.hbm :=
  h ▸ readSlot_hbm q s

@[simp] theorem execSeqReread_hbm (q : Nat) (s : State) : (afterAnswer s (execSeqReread q s)).mem.hbm = s.mem.hbm := by
  rw [execSeqReread]
  split
  · rfl
  next since _ =>
  have ht : (atLeast (since + 1000) s).mem.hbm = s.mem.hbm := by simp
  refine afterAnswer_ite_hbm ?_ ?_
  · split
    · exact (judgeSlot_hbm ..).trans ((dropArrived_hbm ..).trans ht)
    · exact afterAnswer_of_hbm ht (askRing_hbm ..)
  · split
    · exact waitAnswer_hbm ht
    next heq => exact (stopUnread_hbm ..).trans ((Slot.after_of_eq heq).trans ht)
    next heq => exact (judgeSlot_hbm ..).trans ((Slot.after_of_eq heq).trans ht)

@[simp] theorem execCommandStart_hbm (q : Nat) (s : State) :
    (afterAnswer s (execCommandStart q s)).mem.hbm = s.mem.hbm := by
  simp only [execCommandStart]
  repeat' split
  all_goals simp only [setQueue_mem, completeRaw_hbm, completeWith_hbm, handOver_hbm, afterAnswer_next, afterAnswer_stuck]

@[simp] theorem execCompletionRecordWrite_hbm (q : Nat) (s : State) :
    (afterAnswer s (execCompletionRecordWrite q s)).mem.hbm = s.mem.hbm := by
  simp only [execCompletionRecordWrite]
  repeat' split
  all_goals simp only [setQueue_mem, openTxn_hbm, uPut_hbm, UStep.start_hbm, waitAnswer_hbm, dropArrived_hbm,
    endFetch_hbm, finishKilled_hbm, raise_mem, afterAnswer_next, afterAnswer_stuck]

@[simp] theorem execFence_hbm (q seq : Nat) (s : State) : (afterAnswer s (execFence q seq s)).mem.hbm = s.mem.hbm := by
  rw [execFence]
  split <;> simp

@[simp] theorem ctlClose_hbm (u : UStep) : (ctlClose u).mem.hbm = u.st.mem.hbm := by
  rw [ctlClose]
  split <;> simp

@[simp] theorem execSignal_hbm (q seq : Nat) (s : State) : (afterAnswer s (execSignal q seq s)).mem.hbm = s.mem.hbm := by
  simp only [execSignal]
  repeat' split
  all_goals simp only [finishWith_hbm, UStep.start_hbm, uReduceLine_hbm, uPut_hbm, waitAnswer_hbm, finishAcked_hbm,
    ctlClose_hbm, afterAnswer_next, afterAnswer_stuck]

@[simp] theorem waitRead_hbm (key : Nat) (j : Job) (s : State) :
    (afterAnswer s (waitRead key j s)).mem.hbm = s.mem.hbm := by
  simp only [waitRead]
  repeat' split
  all_goals simp only [uGet_hbm, UStep.start_hbm, waitAnswer_hbm, UStep.met_hbm, ctlClose_hbm, endWait_hbm,
    dropWatch_hbm, runJob_hbm, setDetail_hbm, afterAnswer_next]

@[simp] theorem execWait_hbm (q seq : Nat) (s : State) : (afterAnswer s (execWait q seq s)).mem.hbm = s.mem.hbm := by
  simp only [execWait]
  repeat' split
  all_goals simp only [finishWith_hbm, waitRead_hbm, endWait_hbm, addOut_hbm, afterAnswer_next, afterAnswer_stuck]

@[simp] theorem execWaitPoll_hbm (q seq : Nat) (s : State) : (afterAnswer s (execWaitPoll q seq s)).mem.hbm = s.mem.hbm := by
  rw [execWaitPoll]
  split
  · exact afterAnswer_ite_hbm (afterAnswer_of_hbm (by simp) (waitRead_hbm ..)) rfl
  · rfl

@[simp] theorem abortFetched_hbm (q seq : Nat) (s : State) : ((abortFetched q seq s).getD s).mem.hbm = s.mem.hbm := by
  rw [abortFetched]
  split <;> simp

@[simp] theorem abortTarget_hbm (tq ts : Nat) (s : State) : (abortTarget tq ts s).2.mem.hbm = s.mem.hbm := by
  simp only [abortTarget]
  repeat' split
  all_goals grind [abortFetched_hbm, abortJob_hbm, setQueue_mem, completeUnread_hbm]

@[simp] theorem execAbort_hbm (q seq : Nat) (s : State) : (afterAnswer s (execAbort q seq s)).mem.hbm = s.mem.hbm := by
  simp only [execAbort]
  repeat' split
  all_goals simp only [setDetail_hbm, finishWith_hbm, abortTarget_hbm, afterAnswer_next, afterAnswer_stuck]

@[simp] theorem inlinePut_hbm (va n val : Nat) (u : UStep) : (inlinePut va n val u).st.mem.hbm = u.st.mem.hbm := by
  rw [inlinePut]
  dsimp only
  split
  · refine (foldl_hbm_step (fun v p => ?_) _ _).trans (by simp)
    split
    · simp
    · exact uPut_hbm ..
  · exact uPut_hbm ..

@[simp] theorem execInlineWrite_hbm (q seq : Nat) (s : State) :
    (afterAnswer s (execInlineWrite q seq s)).mem.hbm = s.mem.hbm := by
  simp only [execInlineWrite]
  repeat' split
  all_goals simp only [finishWith_hbm, inlinePut_hbm, UStep.start_hbm, waitAnswer_hbm, finishAcked_hbm, ctlClose_hbm,
    afterAnswer_next, afterAnswer_stuck]

@[simp] theorem execShot_hbm (q seq : Nat) (s : State) : (afterAnswer s (execShot q seq s)).mem.hbm = s.mem.hbm := by
  unfold execShot
  repeat' split
  all_goals simp

@[simp] theorem execNop_hbm (q seq : Nat) (s : State) : (afterAnswer s (execNop q seq s)).mem.hbm = s.mem.hbm := by
  rw [execNop]
  split <;> simp

@[simp] theorem dealShares_hbm (key u n total : Nat) (s : State) : (dealShares key u n total s).mem.hbm = s.mem.hbm :=
  (foldl_hbm (fun t i => congrArg MemSys.hbm (setEngine_mem ..)) _ _).trans (by simp)

@[simp] theorem haulStart_hbm (copy : Bool) (q seq : Nat) (s : State) :
    (afterAnswer s (haulStart copy q seq s)).mem.hbm = s.mem.hbm := by
  unfold haulStart
  repeat' split
  all_goals simp

@[simp] theorem execHaulCopy_hbm (q seq : Nat) (s : State) :
    (afterAnswer s (execHaulCopy q seq s)).mem.hbm = s.mem.hbm := by
  simp [execHaulCopy]

@[simp] theorem execHaulFill_hbm (q seq : Nat) (s : State) :
    (afterAnswer s (execHaulFill q seq s)).mem.hbm = s.mem.hbm := by
  simp [execHaulFill]

@[simp] theorem fillLineStep_hbm (pattern pb : Nat) (dst n : Nat) (u : UStep) :
    (fillLine_ pattern pb dst n u).st.mem.hbm = u.st.mem.hbm := by
  simp [fillLine_]

@[simp] theorem moveLines_hbm (copy : Bool) (d stop a : Nat) (x : Moved) (u : UStep) :
    (moveLines copy d stop a x u).2.st.mem.hbm = u.st.mem.hbm := by
  fun_induction moveLines copy d stop a x u <;> grind [copyLine_hbm, fillLineStep_hbm]

@[simp] theorem execHaulPiece_hbm (unit engine : Nat) (s : State) :
    (afterAnswer s (execHaulPiece unit engine s)).mem.hbm = s.mem.hbm := by
  simp only [execHaulPiece]
  repeat' split
  all_goals simp only [bump_mem, setEngine_mem, UStep.start_hbm, moveLines_hbm, waitAnswer_hbm, UStep.met_hbm,
    setHaul_mem, uClose_hbm, nextPiece_hbm, keepAsking_hbm, afterAnswer_next, afterAnswer_stuck]

@[simp] theorem execHaulComplete_hbm (q seq : Nat) (s : State) :
    (afterAnswer s (execHaulComplete q seq s)).mem.hbm = s.mem.hbm := by
  simp only [execHaulComplete]
  repeat' split
  all_goals simp only [finishJob_hbm, setDetail_hbm, afterAnswer_next, afterAnswer_stuck]

@[simp] theorem haulOut_hbm (unit engine : Nat) (s : State) :
    (afterAnswer s (haulOut unit engine s)).mem.hbm = s.mem.hbm := by
  simp only [haulOut]
  repeat' split
  all_goals simp only [bump_mem, setEngine_mem, addFault_hbm, afterAnswer_next, afterAnswer_stuck]

@[simp] theorem brambleOut_hbm (die index : Nat) (s : State) :
    (afterAnswer s (brambleOut die index s)).mem.hbm = s.mem.hbm := by
  grind [brambleOut, bump_mem, onRoute_hbm, pickSlot_hbm, addFault_hbm, setBramble_mem, afterAnswer_next,
    afterAnswer_stuck, afterAnswer_fault]

@[simp] theorem pressOut_hbm (index : Nat) (s : State) : (afterAnswer s (pressOut index s)).mem.hbm = s.mem.hbm := by
  grind [pressOut, bump_mem, setColl_mem, pickSlot_hbm, addFault_hbm, afterAnswer_next, afterAnswer_stuck, afterAnswer_fault]

@[simp] theorem execTaskSwitchOut_hbm (kind unit index : Nat) (s : State) :
    (afterAnswer s (execTaskSwitchOut kind unit index s)).mem.hbm = s.mem.hbm := by
  unfold execTaskSwitchOut
  repeat' split
  all_goals simp

@[simp] theorem execFaultQHead_hbm (src v : Nat) (s : State) :
    (afterAnswer s (execFaultQHead src v s)).mem.hbm = s.mem.hbm := by
  grind [execFaultQHead, outside_hbm, commitScalar_hbm, writeFaultHead_hbm, afterAnswer_next, afterAnswer_stuck,
    afterAnswer_fault]

@[simp] theorem execFaultResume_hbm (src handle : Nat) (s : State) :
    (afterAnswer s (execFaultResume src handle s)).mem.hbm = s.mem.hbm := by
  grind [execFaultResume, outside_hbm, commitScalar_hbm, writeFaultResolve_hbm, afterAnswer_next, afterAnswer_stuck,
    afterAnswer_fault]

@[simp] theorem execFaultEnd_hbm (src handle : Nat) (s : State) :
    (afterAnswer s (execFaultEnd src handle s)).mem.hbm = s.mem.hbm := by
  grind [execFaultEnd, outside_hbm, commitScalar_hbm, writeFaultResolve_hbm, afterAnswer_next, afterAnswer_stuck,
    afterAnswer_fault]

@[simp] theorem execPortRetrain_hbm (src port v : Nat) (s : State) :
    (afterAnswer s (execPortRetrain src port v s)).mem.hbm = s.mem.hbm := by
  grind [execPortRetrain, outside_hbm, commitScalar_hbm, trainPort_hbm, afterAnswer_next, afterAnswer_stuck,
    afterAnswer_fault]

@[simp] theorem portTrained_hbm (lport : Nat) (x : Port) (r : TrainResult) (capped : Bool) (s : State) :
    (afterAnswer s (portTrained lport x r capped s)).mem.hbm = s.mem.hbm := by
  rw [portTrained]
  split <;> simp

@[simp] theorem execPortTrainingDone_hbm (lport : Nat) (r : TrainResult) (s : State) :
    (afterAnswer s (execPortTrainingDone lport r s)).mem.hbm = s.mem.hbm := by
  simp only [execPortTrainingDone]
  repeat' split
  all_goals simp only [setPort_mem, portDown_hbm, portTrained_hbm, afterAnswer_next, afterAnswer_stuck]

@[simp] theorem execPortRetry_hbm (lport : Nat) (s : State) :
    (afterAnswer s (execPortRetry lport s)).mem.hbm = s.mem.hbm := by
  simp only [execPortRetry]
  repeat' split
  all_goals simp only [atLeast_mem, setPort_mem, trainPort_hbm, afterAnswer_next, afterAnswer_stuck]

@[simp] theorem retrain_hbm (lp : Nat) (s : State) : (retrain lp s).mem.hbm = s.mem.hbm := by
  simp [retrain]

@[simp] theorem execLaneLockLoss_hbm (lport : Nat) (s : State) :
    (afterAnswer s (execLaneLockLoss lport s)).mem.hbm = s.mem.hbm := by
  simp only [execLaneLockLoss, outside_hbm, retrain_hbm, ite_hbm, ite_self]

@[simp] theorem execRetrainTimeout_hbm (lport : Nat) (s : State) :
    (afterAnswer s (execRetrainTimeout lport s)).mem.hbm = s.mem.hbm := by
  unfold execRetrainTimeout
  repeat' split
  all_goals simp

@[simp] theorem countReplay_hbm (lp : Nat) (s : State) : (countReplay lp s).mem.hbm = s.mem.hbm := by
  simp [countReplay]

@[simp] theorem askReplay_hbm (lp : Nat) (s : State) : (askReplay lp s).mem.hbm = s.mem.hbm := by
  simp [askReplay]

@[simp] theorem takeHeader_hbm (lp : Nat) (x : FlitHeader) (s : State) : (takeHeader lp x s).mem.hbm = s.mem.hbm := by
  simp [takeHeader]

@[simp] theorem execFlitReceive_hbm (lport flitSeq : Nat) (crcOk : Bool) (fec : Nat) (x : FlitHeader) (s : State) :
    (afterAnswer s (execFlitReceive lport flitSeq crcOk fec x s)).mem.hbm = s.mem.hbm := by
  simp only [execFlitReceive]
  repeat' split
  all_goals simp only [bump_mem, askReplay_hbm, takeHeader_hbm, setLayer_mem, afterAnswer_next]

@[simp] theorem execPfcPause_hbm (lport prio : Nat) (pause : Bool) (s : State) :
    (afterAnswer s (execPfcPause lport prio pause s)).mem.hbm = s.mem.hbm := by
  rw [execPfcPause]
  split <;> simp

@[simp] theorem execTransitPacket_hbm (lport dest : Nat) (hops vc : Nat) (s : State) :
    (afterAnswer s (execTransitPacket lport dest hops vc s)).mem.hbm = s.mem.hbm := by
  rw [execTransitPacket]
  split <;> simp

@[simp] theorem execRouteWrite_hbm (src v : Nat) (s : State) :
    (afterAnswer s (execRouteWrite src v s)).mem.hbm = s.mem.hbm := by
  grind [execRouteWrite, outside_hbm, commitScalar_hbm, writeRoute_hbm, afterAnswer_next, afterAnswer_stuck,
    afterAnswer_fault]

@[simp] theorem execConnWrite_hbm (src record : Nat) (s : State) :
    (afterAnswer s (execConnWrite src record s)).mem.hbm = s.mem.hbm := by
  grind [execConnWrite, outside_hbm, commitBlob_hbm, writeConn_hbm, afterAnswer_next, afterAnswer_stuck, afterAnswer_fault]

@[simp] theorem execAbandonedClear_hbm (src v : Nat) (s : State) :
    (afterAnswer s (execAbandonedClear src v s)).mem.hbm = s.mem.hbm := by
  grind [execAbandonedClear, outside_hbm, commitScalar_hbm, setBlobBit_hbm, afterAnswer_next, afterAnswer_stuck,
    afterAnswer_fault]

@[simp] theorem giveData_hbm (x : Txn) (poison : Bool) (data : List Byte) (s : State) :
    (giveData x poison data s).mem.hbm = s.mem.hbm := by
  unfold giveData
  repeat' split
  all_goals simp

@[simp] theorem haulAcked_hbm (o : TOwner) (n : Nat) (s : State) : (haulAcked o n s).mem.hbm = s.mem.hbm := by
  unfold haulAcked
  repeat' split
  all_goals simp

@[simp] theorem ackTxn_hbm (id : Nat) (poison : Bool) (data : List Byte) (s : State) :
    (ackTxn id poison data s).mem.hbm = s.mem.hbm := by
  rw [ackTxn]
  split <;> simp

@[simp] theorem execTransportAck_hbm (txn : Nat) (refused poison : Bool) (data : List Byte) (s : State) :
    (afterAnswer s (execTransportAck txn refused poison data s)).mem.hbm = s.mem.hbm := by
  unfold execTransportAck
  repeat' split
  all_goals simp

@[simp] theorem execTransportResend_hbm (txn : Nat) (s : State) :
    (afterAnswer s (execTransportResend txn s)).mem.hbm = s.mem.hbm := by
  unfold execTransportResend
  repeat' split
  all_goals simp

@[simp] theorem noteAbandoned_hbm (node conn : Nat) (s : State) : (noteAbandoned node conn s).mem.hbm = s.mem.hbm := by
  simp [noteAbandoned]

@[simp] theorem execLinkTimeout_hbm (txn : Nat) (s : State) :
    (afterAnswer s (execLinkTimeout txn s)).mem.hbm = s.mem.hbm := by
  unfold execLinkTimeout
  repeat' split
  all_goals simp

@[simp] theorem ackUpTo_hbm (conn psn : Nat) (s : State) : (ackUpTo conn psn s).mem.hbm = s.mem.hbm := by
  simp [ackUpTo, foldl_hbm]

@[simp] theorem goBack_hbm (conn psn : Nat) (s : State) : (goBack conn psn s).mem.hbm = s.mem.hbm := by
  simp [goBack]

@[simp] theorem ackRead_hbm (conn id : Nat) (x : Txn) (data : List Byte) (s : State) :
    (ackRead conn id x data s).mem.hbm = s.mem.hbm := by
  simp [ackRead]

@[simp] theorem execRoceResponse_hbm (conn : Nat) (kind : RoceKind) (psn : Nat) (data : List Byte) (s : State) :
    (afterAnswer s (execRoceResponse conn kind psn data s)).mem.hbm = s.mem.hbm := by
  simp only [execRoceResponse]
  repeat' split
  all_goals grind [bump_mem, ackUpTo_hbm, endEpoch_hbm, goBack_hbm, ackRead_hbm, afterAnswer_next, afterAnswer_stuck,
    afterAnswer_fault]

@[simp] theorem execRoceAckTimeout_hbm (conn : Nat) (s : State) :
    (afterAnswer s (execRoceAckTimeout conn s)).mem.hbm = s.mem.hbm := by
  unfold execRoceAckTimeout
  repeat' split
  all_goals simp

@[simp] theorem execEcnMarkedPacket_hbm (conn : Nat) (s : State) :
    (afterAnswer s (execEcnMarkedPacket conn s)).mem.hbm = s.mem.hbm := by
  simp only [execEcnMarkedPacket, outside_hbm, send_mem, setConn_mem, ite_hbm, ite_self]

@[simp] theorem execCnpReceive_hbm (conn : Nat) (s : State) :
    (afterAnswer s (execCnpReceive conn s)).mem.hbm = s.mem.hbm := by
  simp only [execCnpReceive, outside_hbm, setConn_mem, ite_hbm, ite_self]

@[simp] theorem execRateIncrease_hbm (conn : Nat) (s : State) :
    (afterAnswer s (execRateIncrease conn s)).mem.hbm = s.mem.hbm := by
  rw [execRateIncrease]
  split <;> simp

@[simp] theorem sendChunk_hbm (key conn : Nat) (node id : Nat) (ch : Chunk) (s : State) :
    (sendChunk key conn node id ch s).mem.hbm = s.mem.hbm := by
  simp [sendChunk]

@[simp] theorem pumpRelay_hbm (key : Nat) (c : Coll) (s : State) : (pumpRelay key c s).mem.hbm = s.mem.hbm := by
  rw [pumpRelay]
  split <;> simp

@[simp] theorem readMarked_hbm (a x x2 : Nat) (u : UStep) : (readMarked a x x2 u).2.st.mem.hbm = u.st.mem.hbm := by
  fun_induction readMarked a x x2 u <;> grind [uReadLine_hbm]

@[simp] theorem stepBytes_hbm (c : Coll) (p : PStep) (u : UStep) : (stepBytes c p u).2.st.mem.hbm = u.st.mem.hbm := by
  unfold stepBytes
  repeat' split
  all_goals simp

@[simp] theorem sendStep_hbm (key : Nat) (c : Coll) (p : PStep) (val mark : Nat) (s : State) :
    (sendStep key c p val mark s).mem.hbm = s.mem.hbm := by
  simp [sendStep, foldl_hbm]

@[simp] theorem pumpPress_hbm (key n : Nat) (s : State) : (pumpPress key n s).mem.hbm = s.mem.hbm := by
  induction n generalizing s with
  | zero => rfl
  | succ n ih =>
    rw [pumpPress]
    split
    · rfl
    next c _ =>
    split
    · rfl
    split
    · exact (ih _).trans (pumpRelay_hbm ..)
    split
    · rfl
    next p rest _ =>
    split
    · exact endColl_hbm ..
    have hr := stepBytes_hbm c p (UStep.start c.ctx key 10 s)
    dsimp only
    split
    · exact keepAsking_hbm ..
    split
    · exact hr
    split
    · exact (endColl_hbm ..).trans ((uClose_hbm ..).trans hr)
    · refine (ih _).trans ((sendStep_hbm ..).trans ((congrArg MemSys.hbm (setColl_mem ..)).trans ((uClose_hbm ..).trans ?_)))
      split
      · simp
      · exact hr

@[simp] theorem keptBlock_hbm (c : Coll) (r : Nat) (u : UStep) : (keptBlock c r u).2.st.mem.hbm = u.st.mem.hbm := by
  rw [keptBlock]
  split <;> simp

@[simp] theorem pressCopy_hbm (a x : Nat) (x2 x3 : Nat) (u : UStep) :
    (pressCopy a x x2 x3 u).2.st.mem.hbm = u.st.mem.hbm := by
  fun_induction pressCopy a x x2 x3 u <;> grind [copyLine_hbm]

@[simp] theorem sendReady_hbm (key : Nat) (s : State) : (sendReady key s).mem.hbm = s.mem.hbm := by
  rw [sendReady]
  split
  · rfl
  · split
    · exact (foldl_hbm (fun t r => congrArg MemSys.hbm (send_mem ..)) _ _).trans rfl
    · rfl

@[simp] theorem takeParams_hbm (key r : Nat) (m : CollParams) (s : State) :
    (takeParams key r m s).mem.hbm = s.mem.hbm := by
  rw [takeParams]
  split <;> simp

@[simp] theorem takeEarly_hbm (key : Nat) (s : State) : (takeEarly key s).mem.hbm = s.mem.hbm := by
  rw [takeEarly]
  split
  · rfl
  · exact (foldl_hbm (fun t x => by split; exact takeParams_hbm ..; rfl) _ _).trans rfl

theorem stageCopy_hbm {key r : Nat} {ms : List (Nat × Nat)} {c : Coll} {u : UStep} {s : State} (h : u.st.mem.hbm =
    s.mem.hbm) :
    (afterAnswer s (stageCopy key r ms c u s)).mem.hbm = s.mem.hbm := by
  unfold stageCopy
  extract_lets d why k cp v run c2 t
  have hk : k.2.st.mem.hbm = s.mem.hbm := (keptBlock_hbm c r u).trans h
  have hc : cp.2.st.mem.hbm = s.mem.hbm := by
    unfold cp
    split
    · exact hk
    · split
      · split
        · exact hk
        · exact (pressCopy_hbm ..).trans hk
      · exact hk
  have hv : v.st.mem.hbm = s.mem.hbm := by
    unfold v
    split
    · exact (UStep.met_hbm ..).trans hc
    · exact hc
  have ht : t.mem.hbm = s.mem.hbm :=
    (uClose_hbm { v with st := run.2 }).trans ((congrArg MemSys.hbm (takeFree_mem v.st)).trans hv)
  refine afterAnswer_ite_hbm (waitAnswer_hbm rfl) (afterAnswer_ite_hbm ((uClose_hbm ..).trans hc)
    (afterAnswer_ite_hbm ((endColl_hbm ..).trans ht) (afterAnswer_ite_hbm ?_ ((endColl_hbm ..).trans ht))))
  exact (sendReady_hbm ..).trans ((takeEarly_hbm ..).trans
    ((foldl_hbm (fun t p => congrArg MemSys.hbm (send_mem ..)) _ _).trans ht))

@[simp] theorem stageColl_hbm (key : Nat) (c : Coll) (s : State) :
    (afterAnswer s (stageColl key c s)).mem.hbm = s.mem.hbm := by
  grind [stageColl, uGet_hbm, UStep.start_hbm, refuseJob_hbm, uClose_hbm, UStep.st_hbm, waitAnswer_hbm, setColl_mem,
    stageCopy_hbm, afterAnswer_next, afterAnswer_stuck, afterAnswer_fault]

theorem collUnread_hbm {key ctx : Nat} {i : FaultInfo} {j : Job} {s t : State}
    (h : t.mem.hbm = s.mem.hbm) : (afterAnswer s (collUnread key ctx i j t s)).mem.hbm = s.mem.hbm := by
  rw [collUnread]
  refine afterAnswer_ite_hbm (holdFault_hbm ..) ?_
  have hp := pickSlot_hbm 16 (pressSlots t) t
  split
  · rfl
  next heq => 
    rw [heq] at hp
    simpa using hp.trans h

@[simp] theorem holdJob_hbm (key counter d : Nat) (j : Job) (s : State) :
    (afterAnswer s (holdJob key counter d j s)).mem.hbm = s.mem.hbm := by
  rw [holdJob]
  split <;> simp

@[simp] theorem execPressCollective_hbm (q seq : Nat) (s : State) : (afterAnswer s (execPressCollective q seq s)).mem.hbm
  = s.mem.hbm := by
  rw [execPressCollective]
  dsimp only
  split
  · exact afterAnswer_ite_hbm rfl (afterAnswer_ite_hbm (pumpPress_hbm ..) (stageColl_hbm ..))
  split
  · rfl
  next j _ =>
  have hst := stageDesc_hbm q seq 10 j s
  split
  · exact waitAnswer_hbm rfl
  · exact (refuseJob_hbm ..).trans hst
  · exact collUnread_hbm hst
  · exact afterAnswer_ite_hbm ((refuseJob_hbm ..).trans hst) (afterAnswer_ite_hbm ((refuseJob_hbm ..).trans hst)
      (afterAnswer_ite_hbm (afterAnswer_of_hbm hst (holdJob_hbm ..)) (afterAnswer_of_hbm (by simp) (stageColl_hbm ..))))

@[simp] theorem refusePress_hbm (conn seqNo : Nat) (s : State) : (refusePress conn seqNo s).mem.hbm = s.mem.hbm := by
  simp [refusePress]

@[simp] theorem ackPress_hbm (conn seqNo : Nat) (s : State) : (ackPress conn seqNo s).mem.hbm = s.mem.hbm := rfl

@[simp] theorem execPressParameterMessage_hbm (conn seqNo : Nat) (m : CollParams) (s : State) :
    (afterAnswer s (execPressParameterMessage conn seqNo m s)).mem.hbm = s.mem.hbm := by
  grind [execPressParameterMessage, outside_hbm, refusePress_hbm, ackPress_hbm, takeParams_hbm, afterAnswer_next,
    afterAnswer_stuck, afterAnswer_fault]

@[simp] theorem execPressReadyMessage_hbm (conn seqNo : Nat) (domain collId : Nat) (s : State) :
    (afterAnswer s (execPressReadyMessage conn seqNo domain collId s)).mem.hbm = s.mem.hbm := by
  grind [execPressReadyMessage, outside_hbm, refusePress_hbm, ackPress_hbm, pumpPress_hbm, setColl_mem, afterAnswer_next,
    afterAnswer_stuck, afterAnswer_fault]

@[simp] theorem execPressAbortNotice_hbm (conn seqNo : Nat) (domain collId : Nat) (s : State) :
    (afterAnswer s (execPressAbortNotice conn seqNo domain collId s)).mem.hbm = s.mem.hbm := by
  grind [execPressAbortNotice, outside_hbm, refusePress_hbm, ackPress_hbm, endColl_hbm, afterAnswer_next,
    afterAnswer_stuck, afterAnswer_fault]

@[simp] theorem applyBytes_hbm (d : Nat) (reduce : Bool) (a x : Nat) (x2 : List Byte) (x3 : Nat) (u : UStep) :
    (applyBytes d reduce a x x2 x3 u).st.mem.hbm = u.st.mem.hbm := by
  fun_induction applyBytes d reduce a x x2 x3 u <;> grind [uStoreLine_hbm, uReduceLine_hbm]

@[simp] theorem applyParts_hbm (c : Coll) (ch : Chunk) (len : Nat) (parts : List (Nat × List Byte × Bool)) (poison : Nat)
  (u : UStep) :
    (applyParts c ch len parts poison u).st.mem.hbm = u.st.mem.hbm :=
  foldl_hbm_step (fun v x => by dsimp only; split; exact applyBytes_hbm ..; rfl) _ _

@[simp] theorem takeChunk_hbm (c0 : Coll) (r : Nat) (e : PNeed) (ch : Chunk) (u : UStep) :
    (takeChunk c0 r e ch u).2.2.st.mem.hbm = u.st.mem.hbm := by
  simp only [takeChunk]
  repeat' split
  all_goals simp only [applyParts_hbm, UStep.met_hbm]

@[simp] theorem execPressChunk_hbm (conn collId : Nat) (ch : Chunk) (s : State) :
    (afterAnswer s (execPressChunk conn collId ch s)).mem.hbm = s.mem.hbm := by
  simp only [execPressChunk]
  repeat' split
  all_goals simp only [refusePress_hbm, ackPress_hbm, takeChunk_hbm, UStep.start_hbm, waitAnswer_hbm, setColl_mem,
    uClose_hbm, pumpPress_hbm, setConn_mem, afterAnswer_next]

@[simp] theorem execPressDataTimeout_hbm (q seq rank : Nat) (s : State) :
    (afterAnswer s (execPressDataTimeout q seq rank s)).mem.hbm = s.mem.hbm := by
  simp only [execPressDataTimeout]
  repeat' split
  all_goals simp only [endColl_hbm, atLeast_mem, afterAnswer_next, afterAnswer_stuck]

@[simp] theorem execCollectiveComplete_hbm (q seq : Nat) (s : State) :
    (afterAnswer s (execCollectiveComplete q seq s)).mem.hbm = s.mem.hbm := by
  simp only [execCollectiveComplete]
  repeat' split
  all_goals simp only [finishJob_hbm, afterAnswer_next, afterAnswer_stuck]

@[simp] theorem reportWindow_hbm (m : RailEnergy) (s : State) : (reportWindow m s).mem.hbm = s.mem.hbm := by
  unfold reportWindow
  extract_lets up ash med sum total limit t u v
  have ht : t.mem.hbm = s.mem.hbm := by
    unfold t
    split
    · exact congrArg MemSys.hbm (bump_mem ..)
    · rfl
  have hu : u.mem.hbm = s.mem.hbm := by
    simp only [u, setDv_mem, bump_mem]
    exact (foldl_hbm (fun t d => congrArg MemSys.hbm (setDv_mem ..)) _ _).trans ht
  exact (foldl_hbm (fun t d => by split <;> simp) _ _).trans hu

@[simp] theorem execWindowStart_hbm (e : RailEnergy) (s : State) :
    (afterAnswer s (execWindowStart e s)).mem.hbm = s.mem.hbm := by
  rw [execWindowStart]
  split <;> simp

@[simp] theorem execAvsTimeout_hbm (rail : Nat) (s : State) :
    (afterAnswer s (execAvsTimeout rail s)).mem.hbm = s.mem.hbm := by
  rw [execAvsTimeout]
  split <;> simp

@[simp] theorem startWork_hbm (d : Nat) (w : Work) (s : State) : (startWork d w s).mem.hbm = s.mem.hbm := by
  unfold startWork
  repeat' split
  all_goals simp

@[simp] theorem execWeighStationStart_hbm (die : Nat) (s : State) :
    (afterAnswer s (execWeighStationStart die s)).mem.hbm = s.mem.hbm := by
  unfold execWeighStationStart
  repeat' split
  all_goals simp

@[simp] theorem execThermalSensorRead_hbm (die : Nat) (hottest : Int) (s0 : State) :
    (afterAnswer s0 (execThermalSensorRead die hottest s0)).mem.hbm = s0.mem.hbm := by
  rw [execThermalSensorRead]
  split <;> simp

@[simp] theorem execEnvelopeMaxW_hbm (src v : Nat) (s : State) :
    (afterAnswer s (execEnvelopeMaxW src v s)).mem.hbm = s.mem.hbm := by
  grind [execEnvelopeMaxW, outside_hbm, commitScalar_hbm, writeEnvelopeMax_hbm, afterAnswer_next, afterAnswer_stuck,
    afterAnswer_fault]

@[simp] theorem execDictWrite_hbm (src key v : Nat) (s : State) :
    (afterAnswer s (execDictWrite src key v s)).mem.hbm = s.mem.hbm := by
  simp only [execDictWrite, outside_hbm, valueWrite_hbm]

@[simp] theorem keepReply_hbm (k : Kept) (s : State) : (keepReply k s).mem.hbm = s.mem.hbm := rfl

@[simp] theorem subscribe_hbm (p : HdpPath) (ver : Nat) (o : HdpOp) (s : State) :
    (subscribe p ver o s).2.mem.hbm = s.mem.hbm := by
  simp only [subscribe]
  repeat' split
  all_goals simp only

@[simp] theorem stage_hbm (key off : Nat) (b : List Byte) (s : State) : (stage key off b s).mem.hbm = s.mem.hbm := rfl

@[simp] theorem segmentWrite_hbm (src : Nat) (o : HdpOp) (s : State) : (segmentWrite src o s).2.mem.hbm = s.mem.hbm := by
  grind [segmentWrite, commit_hbm, stage_hbm, blobWrite_hbm]

@[simp] theorem writeOp_hbm (src : Nat) (o : HdpOp) (v : List Byte) (s : State) :
    (writeOp src o v s).2.mem.hbm = s.mem.hbm := by
  grind [writeOp, segmentWrite_hbm, commit_hbm, scalarWrite_hbm]

@[simp] theorem runOp_hbm (p : HdpPath) (ver : Nat) (o : HdpOp) (s : State) :
    (runOp p ver o s).2.mem.hbm = s.mem.hbm := by
  unfold runOp
  repeat' split
  all_goals simp

@[simp] theorem runOps_hbm (p : HdpPath) (ver : Nat) (a : List HdpOp) (s : State) :
    (runOps p ver a s).2.mem.hbm = s.mem.hbm := by
  fun_induction runOps p ver a s <;> grind [runOp_hbm]

@[simp] theorem answerRequest_hbm (p : HdpPath) (msg : List Byte) (s : State) :
    (answerRequest p msg s).2.mem.hbm = s.mem.hbm := by
  simp only [answerRequest]
  repeat' split
  all_goals simp only [sumErr_mem, bump_mem, runOps_hbm]

@[simp] theorem serveHdp_hbm (p : HdpPath) (msg : List Byte) (s : State) : (serveHdp p msg s).mem.hbm = s.mem.hbm := by
  rw [serveHdp]
  split <;> simp

@[simp] theorem execHdpRequest_hbm (path : HdpPath) (msg : List Byte) (s : State) :
    (afterAnswer s (execHdpRequest path msg s)).mem.hbm = s.mem.hbm := by
  unfold execHdpRequest
  split <;> simp only [outside_hbm, serveHdp_hbm, send_mem, takeDoorbell_hbm, refuseMessage_hbm, ite_hbm, ite_self]

@[simp] theorem execEventSend_hbm (sub : Nat) (s : State) :
    (afterAnswer s (execEventSend sub s)).mem.hbm = s.mem.hbm := by
  unfold execEventSend
  repeat' split
  all_goals simp

@[simp] theorem retryPosted_hbm (c : Nat) (e : SbEntry) (rest : List SbEntry) (s : State) :
    (retryPosted c e rest s).mem.hbm = s.mem.hbm := by
  simp only [retryPosted]
  repeat' split
  all_goals simp only [countStale_hbm, issueReq_hbm, setMedlar_mem, medlarReport_hbm, countSegFault_hbm]

@[simp] theorem takePosted_hbm (c : Nat) (s : State) : (Posted.after s (takePosted c s)).mem.hbm = s.mem.hbm := by
  simp only [takePosted]
  repeat' split
  all_goals simp only [retryPosted_hbm, setMedlar_mem, Posted.after_nothing, Posted.after_waits, Posted.after_arrives,
    Posted.after_refused]

@[simp] theorem slotStore_hbm (off n v : Nat) (s : State) : (slotStore off n v s).mem.hbm = s.mem.hbm := by
  grind [slotStore, refuseWrite_mem, blobWrite_hbm, commit_hbm, scalarWrite_hbm]

@[simp] theorem execWindowSlotStore_hbm (core : Nat) (s : State) :
    (afterAnswer s (execWindowSlotStore core s)).mem.hbm = s.mem.hbm := by
  grind [execWindowSlotStore, takePosted_hbm, slotStore_hbm, afterAnswer_next, afterAnswer_stuck, afterAnswer_fault,
    Posted.after_nothing, Posted.after_waits, Posted.after_arrives, Posted.after_refused]

@[simp] theorem apertureStore_hbm (off n v : Nat) (s : State) : (apertureStore off n v s).mem.hbm = s.mem.hbm := by
  simp only [apertureStore]
  repeat' split
  all_goals simp only [takeFree_mem, stage_hbm, refuseWrite_mem]

@[simp] theorem execBlobApertureStore_hbm (core : Nat) (s : State) :
    (afterAnswer s (execBlobApertureStore core s)).mem.hbm = s.mem.hbm := by
  grind [execBlobApertureStore, takePosted_hbm, apertureStore_hbm, afterAnswer_next, afterAnswer_stuck,
    afterAnswer_fault, Posted.after_nothing, Posted.after_waits, Posted.after_arrives, Posted.after_refused]

@[simp] theorem execLockSet_hbm (src g v : Nat) (s : State) :
    (afterAnswer s (execLockSet src g v s)).mem.hbm = s.mem.hbm := by
  simp only [execLockSet, outside_hbm, scalarWrite_hbm]

@[simp] theorem execMgmtSettingsApply_hbm (s : State) :
    (afterAnswer s (execMgmtSettingsApply s)).mem.hbm = s.mem.hbm := by
  unfold execMgmtSettingsApply
  repeat' split
  all_goals simp

@[simp] theorem execMgmtModeFallback_hbm (s : State) : (afterAnswer s (execMgmtModeFallback s)).mem.hbm = s.mem.hbm := by
  rw [execMgmtModeFallback]
  split <;> simp

@[simp] theorem execArpRequest_hbm (ip : Nat) (s : State) :
    (afterAnswer s (execArpRequest ip s)).mem.hbm = s.mem.hbm := by
  simp only [execArpRequest, outside_hbm, send_mem, ite_hbm, ite_self]

@[simp] theorem execNeighbourDiscovery_hbm (ip : Nat) (s : State) :
    (afterAnswer s (execNeighbourDiscovery ip s)).mem.hbm = s.mem.hbm := by
  simp only [execNeighbourDiscovery, outside_hbm, send_mem, ite_hbm, ite_self]

@[simp] theorem execIcmpEcho_hbm (ip tag : Nat) (s : State) :
    (afterAnswer s (execIcmpEcho ip tag s)).mem.hbm = s.mem.hbm := by
  simp only [execIcmpEcho, outside_hbm, send_mem, ite_hbm, ite_self]

@[simp] theorem execFwOverride_hbm (src : Nat) (bytes : List Byte) (s : State) :
    (afterAnswer s (execFwOverride src bytes s)).mem.hbm = s.mem.hbm := by
  grind [execFwOverride, outside_hbm, commitBlob_hbm, actFwOverride_hbm, afterAnswer_next, afterAnswer_stuck,
    afterAnswer_fault]

@[simp] theorem execOwnerKeyDigest_hbm (src : Nat) (dbg : Bool) (bytes : List Byte) (s : State) :
    (afterAnswer s (execOwnerKeyDigest src dbg bytes s)).mem.hbm = s.mem.hbm := by
  grind [execOwnerKeyDigest, outside_hbm, commitBlob_hbm, actOwnerKey_hbm, afterAnswer_next, afterAnswer_stuck,
    afterAnswer_fault]

@[simp] theorem execMinSecRaise_hbm (src v : Nat) (s : State) :
    (afterAnswer s (execMinSecRaise src v s)).mem.hbm = s.mem.hbm := by
  grind [execMinSecRaise, outside_hbm, commitScalar_hbm, actMinSecRaise_hbm, afterAnswer_next, afterAnswer_stuck,
    afterAnswer_fault]

@[simp] theorem execMeasExtend_hbm (src : Nat) (bytes : List Byte) (s : State) :
    (afterAnswer s (execMeasExtend src bytes s)).mem.hbm = s.mem.hbm := by
  grind [execMeasExtend, outside_hbm, commitBlob_hbm, actMeasExtend_hbm, afterAnswer_next, afterAnswer_stuck,
    afterAnswer_fault]

@[simp] theorem execAttestNonce_hbm (src : Nat) (bytes : List Byte) (s : State) :
    (afterAnswer s (execAttestNonce src bytes s)).mem.hbm = s.mem.hbm := by
  grind [execAttestNonce, outside_hbm, commitBlob_hbm, actAttestNonce_hbm, afterAnswer_next, afterAnswer_stuck,
    afterAnswer_fault]

@[simp] theorem execAttestReportDone_hbm (s : State) : (afterAnswer s (execAttestReportDone s)).mem.hbm = s.mem.hbm := by
  rw [execAttestReportDone, when_]
  exact afterAnswer_ite_hbm (finishReport_hbm ..) rfl

@[simp] theorem execDebugToken_hbm (src : Nat) (bytes : List Byte) (s : State) :
    (afterAnswer s (execDebugToken src bytes s)).mem.hbm = s.mem.hbm := by
  simp only [execDebugToken, outside_hbm, commitToken_hbm]

@[simp] theorem jtag_hbm (s : State) (b : Board) : (afterAnswer s (jtag s b)).mem.hbm = s.mem.hbm := by
  simp [jtag]

@[simp] theorem execIdcode_hbm (s : State) : (afterAnswer s (execIdcode s)).mem.hbm = s.mem.hbm := by
  simp [execIdcode]

@[simp] theorem execBypass_hbm (s : State) : (afterAnswer s (execBypass s)).mem.hbm = s.mem.hbm := by
  simp [execBypass]

@[simp] theorem execSamplePreload_hbm (pins preload : Nat) (s : State) :
    (afterAnswer s (execSamplePreload pins preload s)).mem.hbm = s.mem.hbm := by
  simp [execSamplePreload]

@[simp] theorem execExtest_hbm (v : Nat) (s : State) : (afterAnswer s (execExtest v s)).mem.hbm = s.mem.hbm := by
  rw [execExtest]
  split <;> simp

@[simp] theorem execDbgToken_hbm (bytes : List Byte) (s : State) :
    (afterAnswer s (execDbgToken bytes s)).mem.hbm = s.mem.hbm := by
  simp only [execDbgToken, outside_hbm, commitToken_hbm]

@[simp] theorem execShotFire_hbm (src v : Nat) (s : State) :
    (afterAnswer s (execShotFire src v s)).mem.hbm = s.mem.hbm := by
  grind [execShotFire, outside_hbm, commitScalar_hbm, fireShot_hbm, afterAnswer_next, afterAnswer_stuck, afterAnswer_fault]

@[simp] theorem execShotIn_hbm (heldNs : Nat) (s : State) :
    (afterAnswer s (execShotIn heldNs s)).mem.hbm = s.mem.hbm := by
  simp only [execShotIn, outside_hbm, fireShot_hbm, ite_hbm, ite_self]

@[simp] theorem execShotlineMessage_hbm (conn node tag : Nat) (s : State) :
    (afterAnswer s (execShotlineMessage conn node tag s)).mem.hbm = s.mem.hbm := by
  simp only [execShotlineMessage, outside_hbm, fireShot_hbm, refuseMessage_hbm, ite_hbm, ite_self]

@[simp] theorem execSnapLatchDone_hbm (s : State) : (afterAnswer s (execSnapLatchDone s)).mem.hbm = s.mem.hbm := by
  rw [execSnapLatchDone, when_]
  exact afterAnswer_ite_hbm rfl rfl

@[simp] theorem syncKnown_hbm (origin : Nat) (s : State) : (syncKnown origin s).mem.hbm = s.mem.hbm := rfl

@[simp] theorem execPtpSync_hbm (m : PtpMsg) (s : State) : (afterAnswer s (execPtpSync m s)).mem.hbm = s.mem.hbm := by
  simp only [execPtpSync, outside_hbm, syncKnown_hbm, ite_hbm, ite_self]

@[simp] theorem execPtpFollowUp_hbm (m : PtpMsg) (s : State) :
    (afterAnswer s (execPtpFollowUp m s)).mem.hbm = s.mem.hbm := by
  simp only [execPtpFollowUp, outside_hbm, syncKnown_hbm, ite_hbm, ite_self]

@[simp] theorem stepTime_hbm (o : Int) (s : State) : (stepTime o s).mem.hbm = s.mem.hbm := by
  simp [stepTime]

@[simp] theorem slewTime_hbm (o : Int) (s : State) : (slewTime o s).mem.hbm = s.mem.hbm := rfl

@[simp] theorem judgeOffset_hbm (o : Int) (s : State) : (judgeOffset o s).mem.hbm = s.mem.hbm := by
  simp [judgeOffset]

@[simp] theorem execPtpDelayResp_hbm (m : PtpMsg) (s : State) :
    (afterAnswer s (execPtpDelayResp m s)).mem.hbm = s.mem.hbm := by
  unfold execPtpDelayResp
  split <;> simp only [outside_hbm, judgeOffset_hbm, ite_hbm, ite_self]

@[simp] theorem execPtpSyncTimeout_hbm (s : State) : (afterAnswer s (execPtpSyncTimeout s)).mem.hbm = s.mem.hbm := by
  rw [execPtpSyncTimeout]
  split <;> simp

@[simp] theorem execCounterClear_hbm (src v : Nat) (s : State) :
    (afterAnswer s (execCounterClear src v s)).mem.hbm = s.mem.hbm := by
  grind [execCounterClear, outside_hbm, commitScalar_hbm, clearCounters_hbm, afterAnswer_next, afterAnswer_stuck,
    afterAnswer_fault]

@[simp] theorem foldInto_hbm (seq : Nat) (s : State) : (foldInto seq s).mem.hbm = s.mem.hbm := rfl

@[simp] theorem tellSubs_hbm (r : EventRec) (s : State) : (tellSubs r s).mem.hbm = s.mem.hbm := by
  simp [tellSubs]

@[simp] theorem grantEvent_hbm (r : EventRec) (s : State) : (grantEvent r s).mem.hbm = s.mem.hbm := by
  rw [grantEvent]
  split <;> simp

@[simp] theorem execEventRaise_hbm (i : Nat) (s : State) : (afterAnswer s (execEventRaise i s)).mem.hbm = s.mem.hbm := by
  unfold execEventRaise
  repeat' split
  all_goals simp

@[simp] theorem execEventQHead_hbm (src v : Nat) (s : State) :
    (afterAnswer s (execEventQHead src v s)).mem.hbm = s.mem.hbm := by
  grind [execEventQHead, outside_hbm, commitScalar_hbm, writeEventHead_hbm, afterAnswer_next, afterAnswer_stuck,
    afterAnswer_fault]

@[simp] theorem execErrSummaryClear_hbm (src v : Nat) (s : State) :
    (afterAnswer s (execErrSummaryClear src v s)).mem.hbm = s.mem.hbm := by
  grind [execErrSummaryClear, outside_hbm, commitScalar_hbm, setDv_mem, afterAnswer_next, afterAnswer_stuck,
    afterAnswer_fault]

@[simp] theorem execMmaResult_hbm (g : Nat) (s : State) : (afterAnswer s (execMmaResult g s)).mem.hbm = s.mem.hbm := by
  unfold execMmaResult
  repeat' split
  all_goals simp

@[simp] theorem execMgmtLinkUp_hbm (speed : Nat) (s : State) :
    (afterAnswer s (execMgmtLinkUp speed s)).mem.hbm = s.mem.hbm := by
  simp only [execMgmtLinkUp, outside_hbm, ite_hbm, ite_self]

@[simp] theorem execMgmtLinkDown_hbm (s : State) : (afterAnswer s (execMgmtLinkDown s)).mem.hbm = s.mem.hbm := by
  simp only [execMgmtLinkDown, outside_hbm, ite_hbm, ite_self]

@[simp] theorem execRefclkReturn_hbm (clk : Nat) (s : State) :
    (afterAnswer s (execRefclkReturn clk s)).mem.hbm = s.mem.hbm := by
  simp [execRefclkReturn]


/-! Every step keeps stacked memory in canonical form (O59) -/

theorem HbmCanonical.of_hbm {s t : State} (hs : HbmCanonical s) (h : t.mem.hbm = s.mem.hbm) : HbmCanonical t := by
  rw [HbmCanonical, h]
  exact hs

theorem HbmCanonical.filter {s t : State} (hs : HbmCanonical s) {p : Host.Cell → Bool} (h : t.mem.hbm = s.mem.hbm.filter p) :
    HbmCanonical t := by
  rw [HbmCanonical, h]
  exact Memory.wf_filter p _ hs

theorem HbmCanonical.writeMasked {s t : State} (hs : HbmCanonical s) {a n v m : Nat}
    (h : t.mem.hbm = Memory.writeMasked s.mem.hbm a n v m) : HbmCanonical t := by
  rw [HbmCanonical, h]
  exact Memory.wf_writeMasked n _ a v m hs

theorem hbmStoreHalf_canonical (line h : Nat) (d : Line) (m : BitVec 128) {s : State} (hs : HbmCanonical s) :
    HbmCanonical (hbmStoreHalf line h d m s) := by
  unfold hbmStoreHalf
  extract_lets hm cw put t
  split
  · exact hs
  have ht : HbmCanonical t := hs.of_hbm (by simp [t])
  clear_value t
  have hput : ∀ w k {v : State}, HbmCanonical v → HbmCanonical (put w k v) := fun w k v hv => hv.writeMasked rfl
  split
  · exact hput _ _ hs
  · split
    · exact hput _ _ ht
    · exact hput _ _ (ht.of_hbm (foundCorrected_hbm ..))
    · have hu := hput d hm (ht.of_hbm (foundUncorrectable_hbm line t))
      exact hu.of_hbm rfl
    · exact hput _ _ (ht.of_hbm (foundCorrected_hbm ..))

theorem hbmStore_canonical (line : Nat) (d : Line) (m : BitVec 128) (poison : Bool) {s : State} (hs : HbmCanonical s) :
    HbmCanonical (hbmStore line d m poison s) := by
  have h : HbmCanonical (hbmStoreHalf line 1 d m (hbmStoreHalf line 0 d m s)) :=
    hbmStoreHalf_canonical line 1 d m (hbmStoreHalf_canonical line 0 d m hs)
  unfold hbmStore
  split
  · exact hs
  · split
    · exact h
    · split <;> exact h

theorem setBuckets_hbm (t : State) (b : Tab Nat) :
    ({ t with mem := { t.mem with buckets := b } } : State).mem.hbm = t.mem.hbm := rfl

theorem execHbmSchedule_canonical (pc pick : Nat) {s : State} (hs : HbmCanonical s) :
    HbmCanonical (afterAnswer s (execHbmSchedule pc pick s)) := by
  unfold execHbmSchedule
  split
  · exact hs
  next r _ =>
  split
  · exact hs
  split
  · exact hs
  extract_lets c k reg aged s1 s2 s3 t mem s4
  have h2 : s2.mem.hbm = s.mem.hbm := (setCtl_hbm ..).trans (setSched_hbm ..)
  have h3 : s3.mem.hbm = s.mem.hbm := by
    unfold s3
    split
    · rw [bump_mem, h2]
    · exact h2
  have ht : t.mem.hbm = s.mem.hbm := (settleBuckets_hbm ..).trans h3
  clear_value t s3
  have h4 : HbmCanonical s4 := by
    refine hs.of_hbm ?_
    unfold s4
    split
    · split
      · exact (setBuckets_hbm t _).trans ht
      · rw [bump_mem, ht]
    · exact h3
  clear_value s4
  rw [afterAnswer_next]
  split
  · exact hbmStore_canonical _ _ _ _ h4
  · split
    · exact h4
    · exact h4

theorem scrubHalf_canonical (line h : Nat) {s : State} (hs : HbmCanonical s) : HbmCanonical (scrubHalf line h s) := by
  have hc : HbmCanonical (foundCorrected line s) := hs.of_hbm (foundCorrected_hbm ..)
  unfold scrubHalf
  dsimp only
  split
  · exact hs
  · exact hc.writeMasked rfl
  · exact hc.writeMasked rfl
  · split
    · have hu : (foundUncorrectable line (recallLine line s)).mem.hbm = s.mem.hbm := by simp
      split
      · exact hs.of_hbm hu
      · exact hs.of_hbm ((benchPut_hbm ..).trans hu)
    · exact hs.of_hbm (foundUncorrectable_hbm ..)

theorem execScrubRead_canonical (stack inner : Nat) {s : State} (hs : HbmCanonical s) :
    HbmCanonical (afterAnswer s (execScrubRead stack inner s)) := by
  unfold execScrubRead
  split
  · exact hs
  extract_lets k pc line begins s1 t
  have ht : HbmCanonical t := by
    refine hs.of_hbm ((innerReports_hbm ..).trans ((setCtl_hbm ..).trans ?_))
    unfold s1
    split
    · exact congrArg MemSys.hbm (atLeast_mem ..)
    · rfl
  split
  · exact hs
  · split
    · exact ht
    · exact scrubHalf_canonical _ _ (scrubHalf_canonical _ _ ht)

theorem loseStack_canonical (c : Nat) {s : State} (hs : HbmCanonical s) : HbmCanonical (loseStack c s) :=
  hs.filter rfl

theorem execRefclkLoss_canonical (clk : Nat) {s : State} (hs : HbmCanonical s) :
    HbmCanonical (afterAnswer s (execRefclkLoss clk s)) := by
  unfold execRefclkLoss
  split
  · exact hs
  extract_lets board t
  have ht : HbmCanonical t := hs
  rw [afterAnswer_next]
  split
  · exact ht
  split
  · exact foldl_keeps HbmCanonical _ (fun u c hu => loseStack_canonical _ hu) _ _ ht
  split
  · refine ht.of_hbm (foldl_hbm (fun u i => ?_) _ _)
    dsimp only
    split
    · exact portDown_hbm ..
    · rfl
  split
  · exact ht
  · exact ht

theorem execHbmTraining_canonical (best : List Nat) {s : State} (hs : HbmCanonical s) :
    HbmCanonical (afterAnswer s (execHbmTraining best s)) := by
  unfold execHbmTraining
  split
  · exact hs
  extract_lets fails top t
  have ht : HbmCanonical t := by
    refine hs.of_hbm ((foldl_hbm (fun u c => ?_) _ _).trans (congrArg MemSys.hbm (setDv_mem ..)))
    split
    · rfl
    · exact congrArg MemSys.hbm (setDv_mem ..)
  rw [afterAnswer_next]
  split
  · exact ht
  · have hc : HbmCanonical (atStep 7 true (clearFirmware t)) := ht.filter rfl
    exact hc.of_hbm (storeWaiting_hbm ..)

/-- A command keeps stacked memory in canonical form. -/
theorem exec_canonical (c : Instr) {s : State} (hs : HbmCanonical s) : HbmCanonical (afterAnswer s (exec c s)) := by
  cases c
  case resetAssert =>
    change HbmCanonical (if s.board.railsUp then afterReset s else s)
    split <;> exact hs
  case powerRemoval => exact Memory.wf_reset
  case refclkLoss clk => exact execRefclkLoss_canonical clk hs
  case hbmTraining best => exact execHbmTraining_canonical best hs
  case hbmSchedule pc pick => exact execHbmSchedule_canonical pc pick hs
  case scrubRead stack inner => exact execScrubRead_canonical stack inner hs
  all_goals
    refine hs.of_hbm ?_
    dsimp only [exec]
    simp

/-- Settles O59: six commands write stacked memory, and each keeps it in canonical form; no other changes it. -/
theorem everyStepKeepsMemoryCanonical : Obligations.EveryStepKeepsMemoryCanonical := by
  intro s t hs hstep
  unfold step at hstep
  split at hstep
  · cases hstep
    exact hs
  next c rest _ =>
    have h := exec_canonical c (s := { s with pending := rest }) hs
    rwa [hstep] at h

end Sys2Proof.Machine

/-! ### What memory traffic leaves as it was -/

namespace Sys2Proof.Machine

/-- s without what memory traffic touches: the dictionary's scalars, the events on their way, the time of a settled
hold window, memory, its requests, the Medlar cores and their lines, the links and the count of free values. -/
def still (s : State) : State :=
  { s with dict := { s.dict with vals := ⟨[]⟩ }, ev := { s.ev with inFlight := [] }, time := State.reset.time, mem := State.reset.mem
           reqs := State.reset.reqs, nextReq := 0, medlars := State.reset.medlars, coh := State.reset.coh
           links := State.reset.links, freeN := 0 }

theorem board_of_still {s t : State} (h : still t = still s) : t.board = s.board := (congrArg State.board h :)
theorem part_of_still {s t : State} (h : still t = still s) : t.part = s.part := (congrArg State.part h :)
theorem hdp_of_still {s t : State} (h : still t = still s) : t.hdp = s.hdp := (congrArg State.hdp h :)
theorem mgmt_of_still {s t : State} (h : still t = still s) : t.mgmt = s.mgmt := (congrArg State.mgmt h :)
theorem snap_of_still {s t : State} (h : still t = still s) : t.snap = s.snap := (congrArg State.snap h :)
theorem boot_of_still {s t : State} (h : still t = still s) : t.boot = s.boot := (congrArg State.boot h :)
theorem pkg_of_still {s t : State} (h : still t = still s) : t.pkg = s.pkg := (congrArg State.pkg h :)
theorem xlat_of_still {s t : State} (h : still t = still s) : t.xlat = s.xlat := (congrArg State.xlat h :)
theorem grp_of_still {s t : State} (h : still t = still s) : t.grp = s.grp := (congrArg State.grp h :)
theorem faces_of_still {s t : State} (h : still t = still s) : t.faces = s.faces := (congrArg State.faces h :)
theorem brambles_of_still {s t : State} (h : still t = still s) : t.brambles = s.brambles := (congrArg State.brambles h :)
theorem engines_of_still {s t : State} (h : still t = still s) : t.engines = s.engines := (congrArg State.engines h :)
theorem hauls_of_still {s t : State} (h : still t = still s) : t.hauls = s.hauls := (congrArg State.hauls h :)
theorem press_of_still {s t : State} (h : still t = still s) : t.press = s.press := (congrArg State.press h :)
theorem queues_of_still {s t : State} (h : still t = still s) : t.queues = s.queues := (congrArg State.queues h :)
theorem jobs_of_still {s t : State} (h : still t = still s) : t.jobs = s.jobs := (congrArg State.jobs h :)
theorem faultq_of_still {s t : State} (h : still t = still s) : t.faultq = s.faultq := (congrArg State.faultq h :)
theorem weigh_of_still {s t : State} (h : still t = still s) : t.weigh = s.weigh := (congrArg State.weigh h :)
theorem out_of_still {s t : State} (h : still t = still s) : t.out = s.out := (congrArg State.out h :)

theorem foldl_still {α : Type} {f : State → α → State} (h : ∀ t x, still (f t x) = still t) (l : List α)
    (s : State) : still (l.foldl f s) = still s := foldl_frame still f h l s

theorem foldl_still_step {α : Type} {f : UStep → α → UStep} (h : ∀ u x, still (f u x).st = still u.st) (l : List α)
    (u : UStep) : still (l.foldl f u).st = still u.st := by
  induction l generalizing u with
  | nil => rfl
  | cons x l ih => exact (ih _).trans (h u x)

theorem still_ite (c : Prop) [Decidable c] (s t : State) : still (if c then s else t) = if c then still s else still t :=
  apply_ite still c s t

theorem still_setTime (s : State) (x : TimeS) : still { s with time := x } = still s := rfl
theorem still_setMem (s : State) (x : MemSys) : still { s with mem := x } = still s := rfl
theorem still_setLinks (s : State) (x : Links) : still { s with links := x } = still s := rfl
theorem still_setCoh (s : State) (x : Coh) : still { s with coh := x } = still s := rfl
theorem still_setReqs (s : State) (x : Tab Req) (n : Nat) : still { s with reqs := x, nextReq := n } = still s := rfl




theorem setDv_still (key v : Nat) (s : State) : still (setDv key v s) = still s := rfl

theorem takeFree_still (s : State) : still (takeFree s).2 = still s := rfl

theorem raise_still (code source : Nat) (arg0 arg1 : Nat) (s : State) :
    still (raise code source arg0 arg1 s) = still s := rfl

theorem sumErr_still (b : Nat) (s : State) : still (sumErr b s) = still s := rfl

theorem atLeast_still (x : Nat) (s : State) : still (atLeast x s) = still s := rfl

theorem bumpRaw_still (key n : Nat) (s : State) : still (bumpRaw key n s).1 = still s := by
  grind [bumpRaw, setDv_still]

theorem saturated_still (key : Nat) (s : State) : still (saturated key s) = still s := rfl

theorem bump_still (key n : Nat) (s : State) : still (bump key n s) = still s := by
  simp only [bump, bumpRaw_still, saturated_still, still_ite, ite_self]

theorem countStale_still (s : State) : still (countStale s) = still s := by
  simp only [countStale, bump_still]

theorem landing_still (s : State) (c va : Nat) (n : Need) : still (landing s c va n).2 = still s := by
  unfold landing
  repeat' split
  all_goals simp only [countStale_still]

theorem countSegFault_still (s : State) : still (countSegFault s) = still s := by
  simp only [countSegFault, sumErr_still, bump_still]

theorem uFault_still (f : FaultInfo) (u : UStep) : still (uFault f u).st = still u.st := by
  unfold uFault
  repeat' split
  all_goals simp only [countSegFault_still]

theorem UStep.waiting_still (w : Option Want) (u : UStep) : still (UStep.waiting w u).st = still u.st := rfl

theorem uPlace_still (va : Nat) (need : Need) (u : UStep) : still (uPlace va need u).2.st = still u.st := by
  grind [uPlace, landing_still, uFault_still, UStep.waiting_still]

theorem UStep.on_still (u : UStep) (f : State → State) (hf : ∀ (y0 : State), still (f y0) = still y0) :
    still (UStep.on u f).st = still u.st := by
  simp only [UStep.on, hf]

theorem countDenied_still (ctx domain off : Nat) (s : State) : still (countDenied ctx domain off s) = still s :=
  (setDv_still ..).trans ((sumErr_still ..).trans (bump_still ..))

theorem uDenied_still (x : Xl) (va off : Nat) (write : Bool) (u : UStep) :
    still (uDenied x va off write u).st = still u.st := by
  grind [uDenied, uFault_still, UStep.on_still, countDenied_still]

theorem touchLine_still (line : Nat) (s : State) : still (touchLine line s) = still s := rfl

theorem setSpoil_still (slice : Nat) (q : List (Nat × BLine)) (s : State) : still (setSpoil slice q s) = still s := rfl

theorem pickVictim_still (line : Nat) (s : State) : still (pickVictim line s).2 = still s := by
  unfold pickVictim
  repeat' split
  all_goals simp only [still_setMem]

theorem benchDrop_still (line : Nat) (s : State) : still (benchDrop line s) = still s := rfl

theorem benchPut_still (line : Nat) (b : BLine) (s : State) : still (benchPut line b s) = still s := rfl

theorem recallLine_still (line : Nat) (s : State) : still (recallLine line s) = still s := by
  grind [recallLine, touchLine_still, setSpoil_still, pickVictim_still, benchDrop_still, bump_still, benchPut_still]

theorem foundCorrected_still (line : Nat) (s : State) : still (foundCorrected line s) = still s := by
  simp only [foundCorrected, sumErr_still, bump_still]

theorem foundUncorrectable_still (line : Nat) (s : State) : still (foundUncorrectable line s) = still s := by
  simp only [foundUncorrectable, raise_still, sumErr_still, setDv_still, bump_still]

theorem decodeHalf_still (line x : Nat) (f : Fetched128) (s : State) : still (decodeHalf line x f s).2 = still s := by
  unfold decodeHalf
  repeat' split
  all_goals simp only [foundCorrected_still, foundUncorrectable_still]

theorem hbmHalf_still (line x : Nat) (s : State) : still (hbmHalf line x s).2 = still s := by
  grind [hbmHalf, decodeHalf_still]

theorem fillHalf_still (line x : Nat) (tracked : Bool) (s : State) : still (fillHalf line x tracked s).2 = still s := by
  simp only [fillHalf, hbmHalf_still, benchPut_still]

theorem wholePlain_still (line : Nat) (s : State) : still (wholePlain line s).2 = still s := by
  grind [wholePlain, recallLine_still, bump_still, fillHalf_still]

theorem zmapGet_still (line : Nat) (s : State) : still (zmapGet line s).2 = still s := by
  grind [zmapGet, wholePlain_still]

theorem zmapSet_still (line : Nat) (v : Bool) (s : State) : still (zmapSet line v s) = still s := by
  unfold zmapSet
  repeat' split
  all_goals simp only [wholePlain_still, benchPut_still, still_ite, ite_self, still_setMem]

theorem setSched_still (pc : Nat) (q : List HbmReq) (s : State) : still (setSched pc q s) = still s := rfl

theorem schedPush_still (r : HbmReq) (s : State) : still (schedPush r s) = still s := by
  simp only [schedPush, bump_still, setSched_still, still_ite, ite_self]

theorem schedWrite_still (line : Nat) (d : Line) (m : BitVec 128) (poison : Bool) (s : State) :
    still (schedWrite line d m poison s) = still s := by
  simp only [schedWrite, schedPush_still]

theorem setCtl_still (c : Nat) (k : Ctl) (s : State) : still (setCtl c k s) = still s := rfl

theorem writeBackFull_still (line : Nat) (d : Line) (poison : Bool) (s : State) :
    still (writeBackFull line d poison s) = still s := by
  simp only [writeBackFull, schedWrite_still, setCtl_still]

theorem wcbDepart_still (c : Nat) (e : WcbEntry) (s : State) : still (wcbDepart c e s) = still s := by
  simp only [wcbDepart, schedWrite_still, setCtl_still]

theorem wcbMerge_still (line : Nat) (d : Line) (m : BitVec 128) (poison : Bool) (s : State) :
    still (wcbMerge line d m poison s) = still s := by
  grind [wcbMerge, wcbDepart_still, setCtl_still]

theorem spoilDepart_still (line : Nat) (b : BLine) (s : State) : still (spoilDepart line b s) = still s := by
  unfold spoilDepart
  repeat' split
  all_goals simp only [zmapGet_still, bump_still, zmapSet_still, writeBackFull_still, wcbMerge_still, still_ite, ite_self]

theorem evictLine_still (line : Nat) (s : State) : still (evictLine line s) = still s := by
  grind [evictLine, benchDrop_still, spoilDepart_still, setSpoil_still]

theorem makeRoom_still (line a : Nat) (s : State) : still (makeRoom line a s) = still s := by
  fun_induction makeRoom line a s <;> grind [pickVictim_still, evictLine_still]

theorem allocPut_still (line : Nat) (b : BLine) (s : State) : still (allocPut line b s) = still s := by
  simp only [allocPut, benchPut_still, makeRoom_still]

theorem zeroFill_still (line : Nat) (s : State) : still (zeroFill line s).2 = still s := by
  grind [zeroFill, zmapGet_still, allocPut_still, bump_still]

theorem atHome_still (line : Nat) (m : BitVec 128) (writes : Bool) (x : Xl) (o : TOwner) (s : State) :
    still (AtHome.after s (atHome line m writes x o s)) = still s := by
  grind [atHome, recallLine_still, bump_still, zeroFill_still, AtHome.after_ready, AtHome.after_waits, still_setTime,
    still_setMem, still_setLinks, still_setCoh, still_setReqs]

theorem noteWrite_still (line : Nat) (s : State) : still (noteWrite line s) = still s := by
  unfold noteWrite
  repeat' split
  all_goals simp only [still_setMem]

theorem storeData_still (line : Nat) (tracked : Bool) (d : Line) (m : BitVec 128) (poison : Bool) (s : State) :
    still (storeData line tracked d m poison s) = still s := by
  grind [storeData, recallLine_still, zmapGet_still, bump_still, benchPut_still, zmapSet_still, allocPut_still]

theorem storeLine_still (line : Nat) (tracked : Bool) (d : Line) (m : BitVec 128) (poison : Bool) (s : State) :
    still (storeLine line tracked d m poison s) = still s := by
  simp only [storeLine, noteWrite_still, storeData_still]

theorem homeStore_still (x : Xl) (off : Nat) (d : Line) (m : BitVec 128) (poison : Bool) (u : UStep) :
    still (homeStore x off d m poison u).st = still u.st := by
  grind [homeStore, atHome_still, UStep.waiting_still, storeLine_still, AtHome.after_ready, AtHome.after_waits,
    still_setTime, still_setMem, still_setLinks, still_setCoh, still_setReqs]

theorem UStep.met_still (u : UStep) (o : Status) : still (UStep.met u o).st = still u.st := by
  unfold UStep.met
  repeat' split
  all_goals simp only

theorem setConn_still (c : Nat) (k : Conn) (s : State) : still (setConn c k s) = still s := rfl

theorem setLayer_still (lp : Nat) (x : LinkLayer) (s : State) : still (setLayer lp x s) = still s := rfl

theorem sendFlits_still (lp vc n : Nat) (s : State) : still (sendFlits lp vc n s) = still s := by
  unfold sendFlits
  repeat' split
  all_goals simp only [setLayer_still]

theorem leaveTxn_still (id : Nat) (x : Txn) (s : State) : still (leaveTxn id x s) = still s := by
  grind [leaveTxn, setConn_still, sendFlits_still, still_setTime, still_setMem, still_setLinks, still_setCoh, still_setReqs]

theorem pumpConn_still (conn a : Nat) (s : State) : still (pumpConn conn a s) = still s := by
  fun_induction pumpConn conn a s <;> simp only [*, leaveTxn_still]

theorem openTxnWith_still (poison : Bool) (reduce : Option (Nat × Nat)) (xl : Xl) (len : Nat) (read : Bool) (bytes : List
    Byte) (owner : TOwner) (s : State) :
    still (openTxnWith poison reduce xl len read bytes owner s).2 = still s := by
  unfold openTxnWith
  repeat' split
  all_goals simp only [bump_still, setConn_still, pumpConn_still, still_ite, ite_self, still_setLinks]

theorem uPlace_eq_still {va : Nat} {need : Need} {u v : UStep} {x : Option Xl} (h : uPlace va need u = (x, v)) :
    still v.st = still u.st := by
  simpa [h] using uPlace_still va need u

theorem uStoreLine_still (va : Nat) (d : Line) (m : BitVec 128) (poison : Bool) (u : UStep) :
    still (uStoreLine va d m poison u).st = still u.st := by
  rw [uStoreLine]
  split
  · rfl
  split
  next heq => exact uPlace_eq_still heq
  next v heq =>
    rw [← uPlace_eq_still heq]
    split
    · split
      · exact UStep.waiting_still ..
      · split
        · exact uDenied_still ..
        · exact homeStore_still ..
    · exact uDenied_still ..
    · split
      · exact UStep.met_still ..
      · exact foldl_still_step (fun w r => UStep.on_still _ _ fun t => openTxnWith_still ..) _ _

theorem uWrite_still (a x : Nat) (x2 x3 : Nat) (u : UStep) : still (uWrite a x x2 x3 u).st = still u.st := by
  fun_induction uWrite a x x2 x3 u <;> simp only [*, uStoreLine_still]

theorem uPut_still (va n val : Nat) (u : UStep) : still (uPut va n val u).st = still u.st := by
  simp only [uPut, uWrite_still]

theorem UStep.start_still (ctx key die : Nat) (s : State) : still (UStep.start ctx key die s).st = still s := rfl

theorem setMsgs_still (ms : List CohMsg) (s : State) : still (setMsgs ms s) = still s := rfl

theorem setMedlar_still (c : Nat) (m : Medlar) (s : State) : still (setMedlar c m s) = still s := rfl

theorem writeHead_still (c line : Nat) (s : State) : still (writeHead c line s) = still s := by
  grind [writeHead, setMedlar_still]

theorem openTxn_still (xl : Xl) (len : Nat) (read : Bool) (bytes : List Byte) (owner : TOwner) (s : State) :
    still (openTxn xl len read bytes owner s).2 = still s := by
  simp only [openTxn, openTxnWith_still]

theorem issueReq_still (r0 : Req) (s : State) : still (issueReq r0 s) = still s := by
  grind [issueReq, countDenied_still, countStale_still, openTxn_still, still_setTime, still_setMem, still_setLinks,
    still_setCoh, still_setReqs]

theorem sendComb_still (c : Nat) (e : CombEntry) (s : State) : still (sendComb c e s) = still s :=
  foldl_still (fun _ _ => issueReq_still ..) _ _

theorem drainComb_still (c : Nat) (s : State) : still (drainComb c s) = still s :=
  (foldl_still (fun t e => sendComb_still c e t) _ _).trans (setMedlar_still ..)

theorem medlarTrap_still (c : Nat) (cause : Cause) (addr : Nat) (tpc : BitVec 64) (imprecise : Bool) (s : State) :
    still (medlarTrap c cause addr tpc imprecise s) = still s := by
  unfold medlarTrap
  repeat' split
  all_goals simp only [bump_still, drainComb_still, setMedlar_still]

theorem takeHeld_still (c : Nat) (s : State) : still (takeHeld c s) = still s := by
  grind [takeHeld, medlarTrap_still, setMedlar_still]

theorem retireLoads_still (c a : Nat) (s : State) : still (retireLoads c a s) = still s := by
  fun_induction retireLoads c a s <;> simp only [*, setMedlar_still, medlarTrap_still, takeHeld_still]

theorem onLoad_still (c id : Nat) (f : PendLoad → PendLoad) (s : State) : still (onLoad c id f s) = still s := by
  simp only [onLoad, retireLoads_still, setMedlar_still]

theorem medlarPart_still (c id : Nat) (shift val : Nat) (poison : Bool) (s : State) :
    still (medlarPart c id shift val poison s) = still s := by
  simp only [medlarPart, onLoad_still]

theorem serveWaiting_still (c line : Nat) (d : Line) (poison : Bool) (s : State) :
    still (serveWaiting c line d poison s) = still s :=
  (foldl_still (fun _ _ => medlarPart_still ..) _ _).trans (setMedlar_still ..)

theorem arrive_still (c line : Nat) (st : CState) (d : Line) (poison : Bool) (s : State) :
    still (arrive c line st d poison s) = still s := by
  grind [arrive, setMedlar_still, writeHead_still, serveWaiting_still]

theorem noteSeg_still (c : Nat) (x : Xl) (s : State) : still (noteSeg c x s) = still s := by
  simp only [noteSeg, setMedlar_still, still_ite, ite_self]

theorem askLine_still (c line : Nat) (k : CohKind) (x : Xl) (va : Nat) (demand : Bool) (s : State) :
    still (askLine c line k x va demand s) = still s := by
  unfold askLine
  repeat' split
  all_goals simp only [setMsgs_still]

theorem startPart_still (c : Nat) (w : WaitLoad) (s : State) : still (startPart c w s) = still s := by
  grind [startPart, noteSeg_still, medlarPart_still, askLine_still, setMedlar_still, issueReq_still, UStep.waiting_still]

theorem replayLoads_still (c line : Nat) (s : State) : still (replayLoads c line s) = still s :=
  foldl_still (fun _ _ => (foldl_still (fun _ _ => startPart_still ..) _ _).trans
    ((setMedlar_still ..).trans (bump_still ..))) _ _

theorem setDir_still (line : Nat) (e : DirEntry) (s : State) : still (setDir line e s) = still s := by
  unfold setDir
  repeat' split
  all_goals simp only [still_setCoh]

theorem dropHolder_still (line c : Nat) (s : State) : still (dropHolder line c s) = still s := by
  simp only [dropHolder, setDir_still]

theorem takeData_still (line : Nat) (d : Option (Line × Bool)) (dirty : Bool) (s : State) :
    still (takeData line d dirty s) = still s := by
  unfold takeData
  repeat' split
  all_goals simp only [recallLine_still, allocPut_still, noteWrite_still]

theorem evictNow_still (c line : Nat) (s : State) : still (evictNow c line s) = still s := by
  grind [evictNow, replayLoads_still, setMedlar_still, dropHolder_still, takeData_still]

theorem makeL2Room_still (c line : Nat) (s : State) : still (makeL2Room c line s) = still s := by
  grind [makeL2Room, takeFree_still, evictNow_still, atLeast_still]

theorem countDeferral_still (c : Nat) (s : State) : still (countDeferral c s) = still s := by
  simp only [countDeferral, bump_still]

theorem answerSnoop_still (c line : Nat) (k : SnoopKind) (s : State) : still (answerSnoop c line k s).2 = still s := by
  grind [answerSnoop, replayLoads_still, setMedlar_still]

theorem dirAfter_still (line c : Nat) (k : SnoopKind) (s : State) : still (dirAfter line c k s) = still s := by
  unfold dirAfter
  repeat' split
  all_goals simp only [setDir_still, dropHolder_still]

theorem homeHears_still (c line : Nat) (k : SnoopKind) (d : Option (Line × Bool)) (dirty : Bool) (s : State) :
    still (homeHears c line k d dirty s) = still s := by
  simp only [homeHears, dirAfter_still, takeData_still]

theorem dropCohTxn_still (line : Nat) (s : State) : still (dropCohTxn line s) = still s := rfl

theorem markGranted_still (c line : Nat) (k : CohKind) (s : State) : still (markGranted c line k s) = still s := rfl

theorem demoteSpeaker_still (c line : Nat) (s : State) : still (demoteSpeaker c line s) = still s := by
  grind [demoteSpeaker, setMedlar_still, setMsgs_still]

theorem grantLine_still (c line : Nat) (k : CohKind) (st : CState) (tracked : Bool) (s0 : State) :
    still (grantLine c line k st tracked s0) = still s0 := by
  unfold grantLine
  repeat' split
  all_goals simp only [demoteSpeaker_still, setDir_still, setMsgs_still]

theorem setTag_still (line : Nat) (x : MissTag) (s : State) : still (setTag line x s) = still s := rfl

theorem heldForTag_still (line : Nat) (req : Option Nat) (s : State) : still (heldForTag line req s) = still s := by
  unfold heldForTag
  repeat' split
  all_goals simp only [bump_still, still_setMem]

theorem missLine_still (line : Nat) (a : Asker) (s : State) : still (missLine line a s).2 = still s := by
  grind [missLine, setTag_still, heldForTag_still, bump_still, recallLine_still, schedPush_still, zeroFill_still,
    still_setTime, still_setMem, still_setLinks, still_setCoh, still_setReqs]

theorem setTxn_still (line : Nat) (x : CohTxn) (s : State) : still (setTxn line x s) = still s := rfl

theorem countSnoop_still (line : Nat) (s : State) : still (countSnoop line s) = still s := by
  simp only [countSnoop, bump_still]

theorem startSnoops_still (line : Nat) (serves : CohFor) (k : SnoopKind) (cores : List Nat) (s : State) :
    still (startSnoops line serves k cores s) = still s :=
  (foldl_still (fun _ _ => (countSnoop_still ..).trans (setMsgs_still ..)) _ _).trans (setTxn_still ..)

theorem homeServe_still (c line : Nat) (k : CohKind) (x : Xl) (demand again : Bool) (s : State) :
    still (homeServe c line k x demand again s) = still s := by
  unfold homeServe
  extract_lets e others g own
  have hg : still g = still s := markGranted_still ..
  have hown : ∀ st t, still (own st t) = still t := by
    intro st t
    simp only [own]
    split
    · rw [grantLine_still, recallLine_still, still_ite, bump_still, ite_self]
    · split <;> simp only [grantLine_still, missLine_still]
  clear_value own g
  repeat' split
  all_goals simp only [startSnoops_still, grantLine_still, hown, hg]

theorem setReq_still (id : Nat) (r : Req) (s : State) : still (setReq id r s) = still s := rfl

theorem benchWrite_still (line : Nat) (tracked : Bool) (d : Line) (s : State) :
    still (benchWrite line tracked d s) = still s := by
  simp only [benchWrite, noteWrite_still, benchPut_still]

theorem performReq_still (id line : Nat) (r : Req) (s : State) : still (performReq id line r s) = still s := by
  unfold performReq
  repeat' split
  all_goals simp only [recallLine_still, bump_still, setReq_still, storeLine_still, benchWrite_still, sumErr_still,
    still_ite, ite_self]

theorem serveReq_still (id : Nat) (s : State) : still (serveReq id s) = still s := by
  grind [serveReq, performReq_still, missLine_still, setReq_still]

theorem finishTxn_still (line : Nat) (x : CohTxn) (s : State) : still (finishTxn line x s) = still s := by
  grind [finishTxn, dropCohTxn_still, homeServe_still, serveReq_still]

theorem hearResp_still (c line : Nat) (k : SnoopKind) (d : Option (Line × Bool)) (dirty : Bool) (s : State) :
    still (hearResp c line k d dirty s) = still s := by
  grind [hearResp, homeHears_still, finishTxn_still, setTxn_still]

theorem settle_still (line a : Nat) (s : State) : still (settle line a s) = still s := by
  fun_induction settle line a s <;> grind [atLeast_still, setMsgs_still, arrive_still, makeL2Room_still,
    countDeferral_still, answerSnoop_still, hearResp_still]

theorem snoopNow_still (line : Nat) (k : SnoopKind) (c : Nat) (s : State) : still (snoopNow line k c s) = still s := by
  simp only [snoopNow, countSnoop_still, atLeast_still, countDeferral_still, answerSnoop_still, homeHears_still,
    still_ite, ite_self]

theorem beforeWrite_still (line : Nat) (s : State) : still (beforeWrite line s) = still s :=
  (foldl_still (fun _ _ => snoopNow_still ..) _ _).trans (settle_still ..)

theorem fwWriteLine_still (off n val : Nat) (s : State) : still (fwWriteLine off n val s) = still s := by
  simp only [fwWriteLine, storeLine_still, beforeWrite_still]

theorem fwWrite_still (a x : Nat) (x2 x3 : Nat) (s : State) : still (fwWrite a x x2 x3 s) = still s := by
  fun_induction fwWrite a x x2 x3 s <;> simp only [*, fwWriteLine_still]

theorem beforeRead_still (line : Nat) (s : State) : still (beforeRead line s) = still s := by
  rw [beforeRead]
  split
  · exact (foldl_still (fun _ _ => snoopNow_still ..) _ _).trans (settle_still ..)
  · exact settle_still ..

theorem fwReadLine_still (off n : Nat) (s : State) : still (fwReadLine off n s).2.2 = still s := by
  simp only [fwReadLine, wholePlain_still, beforeRead_still]

theorem homeRead_still (x : Xl) (off n : Nat) (u : UStep) : still (homeRead x off n u).2.st = still u.st := by
  grind [homeRead, atHome_still, UStep.waiting_still, AtHome.after_ready, AtHome.after_waits, still_setTime,
    still_setMem, still_setLinks, still_setCoh, still_setReqs]

theorem uRemoteFail_still (f : RemoteFail) (u : UStep) : still (uRemoteFail f u).2.st = still u.st := by
  simp only [uRemoteFail, UStep.met_still]

theorem uReadAs_still (need : Need) (va n : Nat) (u0 : UStep) : still (uReadAs need va n u0).2.st = still u0.st := by
  grind [uReadAs, uPlace_still, UStep.waiting_still, uDenied_still, homeRead_still, UStep.met_still, uRemoteFail_still]

theorem uReadLine_still (va n : Nat) (u : UStep) : still (uReadLine va n u).2.st = still u.st := by
  simp only [uReadLine, uReadAs_still]

theorem uRead_still (a x x2 : Nat) (u : UStep) : still (uRead a x x2 u).2.st = still u.st := by
  fun_induction uRead a x x2 u <;> grind [uReadLine_still]

theorem uGet_still (va n : Nat) (u : UStep) : still (uGet va n u).2.st = still u.st := by
  simp only [uGet, uRead_still]

theorem sendWant_still (w : Want) (s : State) : still ((sendWant w s).getD s) = still s := by
  simp only [sendWant]
  repeat' split
  all_goals grind [missLine_still, startSnoops_still, openTxn_still]

theorem fetchSpans_still (a : List (Nat × Nat × Nat)) (u : UStep) : still (fetchSpans a u).2.2.st = still u.st := by
  fun_induction fetchSpans a u <;> grind [uReadLine_still]

theorem fetch_still (x : Tab (Nat × Nat)) (u : UStep) : still (FGo.after (fetch x u)) = still u.st := by
  grind [fetch, fetchSpans_still, afterAnswer_next, afterAnswer_stuck, afterAnswer_fault, Eff.after_done, Eff.after_trap,
    Eff.after_wait, AtHome.after_ready, AtHome.after_waits, Posted.after_nothing, Posted.after_waits,
      Posted.after_arrives, Posted.after_refused, Slot.after_waits, Slot.after_failed, Slot.after_got, FGo.after_on,
        FGo.after_end, FGo.after_stop,
          still_setTime, still_setMem, still_setLinks, still_setCoh, still_setReqs]

theorem uProbe_still (va : Nat) (u : UStep) : still (uProbe va u).st = still u.st := by
  unfold uProbe
  repeat' split
  all_goals simp only [uFault_still, UStep.waiting_still, uDenied_still]

theorem reduceAt_still (line : Nat) (tracked : Bool) (op w : Nat) (d : Line) (m : BitVec 128) (s : State) :
    still (reduceAt line tracked op w d m s) = still s := by
  simp only [reduceAt, sumErr_still, bump_still, benchWrite_still, still_ite, ite_self]

theorem homeReduce_still (x : Xl) (off op w : Nat) (d : Line) (m : BitVec 128) (u : UStep) :
    still (homeReduce x off op w d m u).st = still u.st := by
  grind [homeReduce, atHome_still, UStep.waiting_still, reduceAt_still, AtHome.after_ready, AtHome.after_waits,
    still_setTime, still_setMem, still_setLinks, still_setCoh, still_setReqs]

theorem uReduceLine_still (va op w : Nat) (d : Line) (m : BitVec 128) (u : UStep) :
    still (uReduceLine va op w d m u).st = still u.st := by
  rw [uReduceLine]
  split
  · rfl
  split
  next heq => exact uPlace_eq_still heq
  next v heq =>
    rw [← uPlace_eq_still heq]
    split
    · split
      · exact UStep.waiting_still ..
      · split
        · exact uDenied_still ..
        · exact homeReduce_still ..
    · exact uDenied_still ..
    · split
      · exact UStep.met_still ..
      · exact foldl_still_step (fun w r => UStep.on_still _ _ fun t => openTxnWith_still ..) _ _

theorem fwRead_still (a x x2 : Nat) (s : State) : still (fwRead a x x2 s).2.2 = still s := by
  fun_induction fwRead a x x2 s <;> grind [fwReadLine_still]

end Sys2Proof.Machine

/-! ### The images are loaded (O6) -/

namespace Sys2Proof.Machine

theorem fwWrite_boot (f a n v : Nat) (s : State) : (fwWrite f a n v s).boot = s.boot :=
  boot_of_still (fwWrite_still f a n v s)

theorem fwWrite_part (f a n v : Nat) (s : State) : (fwWrite f a n v s).part = s.part :=
  part_of_still (fwWrite_still f a n v s)

@[simp] theorem layPort_boot (n c : Nat) (s : State) : (layPort n c s).boot = s.boot :=
  foldl_frame State.boot _ (fun _ _ => setPort_boot ..) _ _
@[simp] theorem layPort_weigh (n c : Nat) (s : State) : (layPort n c s).weigh = s.weigh :=
  foldl_frame State.weigh _ (fun _ _ => setPort_weigh ..) _ _

/-- What laying a port's lanes leaves as it was, training the port does too. -/
theorem trainPort_keeps {β : Type} (p : State → β) (h : ∀ n c t, p (layPort n c t) = p t) (n : Nat) (s : State) :
    p (trainPort n s) = p s := by
  have hbond : p (layBond n s) = p s := (foldl_frame p _ (fun _ _ => h ..) _ _).trans (h ..)
  unfold trainPort
  split
  · exact h ..
  · exact (foldl_frame p _ (fun _ _ => h ..) _ _).trans hbond

@[simp] theorem retrainCapped_boot (s : State) : (retrainCapped s).boot = s.boot := by
  refine foldl_frame State.boot _ (fun t n => ?_) _ _
  split
  · exact trainPort_keeps State.boot layPort_boot n t
  · rfl

theorem setPoint_boot (d p : Nat) (s : State) : (setPoint d p s).boot = s.boot := by
  unfold setPoint
  dsimp only
  split <;> rfl

theorem closeReadings_boot (s : State) : (closeReadings s).boot = s.boot :=
  foldl_frame State.boot _ (fun t d => setDv_boot _ _ (setDiePower d _ t)) _ _

theorem moveCeiling_boot (s : State) (d : Nat) : (moveCeiling s d).boot = s.boot := by
  unfold moveCeiling
  dsimp only
  split <;> rfl

theorem refillStation_boot (rem total : Nat) (s : State) (d : Nat) : (refillStation rem total s d).boot = s.boot := by
  unfold refillStation
  dsimp only
  split <;> rfl

theorem openWindow_boot (m : Option RailEnergy) (s : State) : (openWindow m s).boot = s.boot := by
  unfold openWindow
  extract_lets s1 s2 others env rem total s3 ash refill chosen s4 s5
  have h2 : s2.boot = s.boot := (foldl_frame State.boot _ moveCeiling_boot _ _).trans (closeReadings_boot s)
  have h3 : s3.boot = s.boot := (foldl_frame State.boot _ (refillStation_boot rem total) _ _).trans h2
  have h4 : s4.boot = s.boot := by
    refine (foldl_frame State.boot chosen (fun t d => ?_) _ _).trans h3
    unfold chosen
    dsimp only
    split
    · rfl
    · generalize (if t.board.thermtrip then 0 else _ : Nat) = p
      split
      · exact setPoint_boot ..
      · exact setPoint_boot ..
  have h5 : s5.boot = s.boot := by
    unfold s5
    split <;> exact h4
  exact h5

theorem startFirmware_boot (s : State) : (startFirmware s).boot = s.boot :=
  (foldl_frame State.boot _ (fun t n => trainPort_keeps State.boot layPort_boot n t) _ _).trans (openWindow_boot none s)

theorem openWindow_started (m : Option RailEnergy) (s : State) : (openWindow m s).weigh.started = true := rfl

theorem startFirmware_started (s : State) : (startFirmware s).weigh.started = true :=
  (congrArg Weigh.started (foldl_frame State.weigh _ (fun t n => trainPort_keeps State.weigh layPort_weigh n t) _ _)).trans
    (openWindow_started none s)

/-- The combination of the running images hangs on the images and the part alone. -/
theorem mismatchOf_congr {s t : State} (hi : t.boot.images = s.boot.images) (hp : t.part = s.part) :
    mismatchOf t = mismatchOf s := by
  have hh : runningHeader t = runningHeader s := funext fun k => by rw [runningHeader, hi, runningHeader]
  have hl : listsTriple t = listsTriple s := funext fun k => by rw [listsTriple, hp, listsTriple]
  rw [mismatchOf, hh, hl, mismatchOf]

theorem basesOk_congr {s t : State} (hi : t.boot.images = s.boot.images) (bases : List Nat) :
    basesOk t bases = basesOk s bases := by
  simp only [basesOk, runningHeader, hi]

/-- The judgement keeps the mismatch map and where RUNTIME lies. -/
theorem judgeCombination_boot (s : State) :
    (judgeCombination s).boot.mismatch = mismatchOf s ∧ (judgeCombination s).boot.runtimeAt = s.boot.runtimeAt := by
  unfold judgeCombination
  dsimp only
  split
  · simp only [acceptOverride, retrainCapped_boot]
    exact ⟨rfl, rfl⟩
  · exact ⟨rfl, rfl⟩

/-- With every kind of image taken already, none is fetched. -/
theorem loadKinds_of_taken (a b : List Image) {l : List Nat} {s : State}
    (h : ∀ k ∈ l, (s.boot.images.find k).isSome = true) : loadKinds a b l s = (true, s) := by
  induction l with
  | nil => rfl
  | cons k l ih =>
    rw [loadKinds]
    simp only [h k (List.mem_cons_self ..), if_true]
    exact ih fun j hj => h j (List.mem_cons_of_mem _ hj)

/-- The state behind the payloads of the three images, each at its base. -/
def placePayloads (bases : List Nat) (s : State) : State :=
  [1, 2, 3].foldl (fun t k => match t.boot.images.find k with
    | some i => placePayload (bases.getD (k - 1) 0) i t
    | none => t) s

theorem placePayloads_keeps (bases : List Nat) (s : State) :
    (placePayloads bases s).boot = s.boot ∧ (placePayloads bases s).part = s.part := by
  refine ⟨foldl_frame State.boot _ (fun t k => ?_) _ _, foldl_frame State.part _ (fun t k => ?_) _ _⟩
  · split
    · exact fwWrite_boot ..
    · rfl
  · split
    · exact fwWrite_part ..
    · rfl

theorem exec_imageLoad {a b : List Image} {bases : List Nat} {s : State} (hs : stepReached s 7 = true)
    (hi : ∀ k, 1 ≤ k → k ≤ 3 → (s.boot.images.find k).isSome = true) (hb : basesOk (atStep 8 false s) bases = true) :
    exec (.imageLoad a b bases) s = .next (atStep 10 true (startFirmware (judgeCombination
      { placePayloads bases (atStep 8 false s) with
        boot := { (placePayloads bases (atStep 8 false s)).boot with runtimeAt := bases.getD 2 0 } }))) := by
  have hk := loadKinds_of_taken a b (l := [1, 2,
    3]) (s := atStep 8 false s) fun k hk => hi k (by simp at hk; omega) (by simp at hk; omega)
  change execImageLoad a b bases s = _
  simp only [execImageLoad, hs, hk, hb, Bool.true_or, Bool.not_true, Bool.false_eq_true, if_false]
  rfl

theorem exec_configApply {i : Image} {b : Option Image} {s : State} (hs : stepReached s 4 = true) (hsrc : s.boot.source = 0) :
    exec (.configApply (some i) b) s = (match fetchImage 4 [(0, some i), (1, b)] (atStep 5 false s) with
      | (some _, u) => .next (applyConfig (atStep 5 true u))
      | (none, u) => .next u) := by
  have hphase : (alive s && s.boot.phase == 5 && !s.boot.stepDone && (s.boot.images.find 4).isSome) = false := by
    have hd := hs
    simp only [stepReached, Bool.and_eq_true] at hd
    simp [hd.2]
  change execConfigApply (some i) b s = _
  simp only [execConfigApply, hphase, hs, hsrc, sources, Bool.not_true, Bool.false_eq_true, if_false, Nat.reduceEqDiff] <;>
    rfl

/-- Settles O6: the records are applied to the state that holds CONFIG; the judged state keeps its map and RUNTIME's place. -/
theorem configAndImagesAreLoaded : Obligations.ConfigAndImagesAreLoaded := by
  refine ⟨fun i b s hs hsrc => ?config, fun a b bases s hs hi hb => ?images⟩
  case config =>
    have hexec := exec_configApply (i := i) (b := b) hs hsrc
    rcases hf : fetchImage 4 [(0, some i), (1, b)] (atStep 5 false s) with ⟨src, u⟩
    rw [hf] at hexec
    cases src with
    | none =>
      refine ⟨u, hexec, fun h => ?_⟩
      rw [fetchImage_first h (by decide)] at hf
      cases hf
    | some src =>
      refine ⟨_, hexec, fun h => ?_⟩
      rw [fetchImage_first h (by decide)] at hf
      cases hf
      simp only [applyConfig, atStep, takeImage, extendMeas, Tab.find_put_self]
  case images =>
    obtain ⟨hboot, hpart⟩ := placePayloads_keeps bases (atStep 8 false s)
    refine ⟨_, exec_imageLoad hs hi hb, rfl, rfl, startFirmware_started _, ?_, ?_⟩
    · exact (congrArg Boot.mismatch (startFirmware_boot _)).trans ((judgeCombination_boot _).1.trans
        (mismatchOf_congr (s := s) (congrArg Boot.images hboot :) hpart))
    · exact (congrArg Boot.runtimeAt (startFirmware_boot _)).trans (judgeCombination_boot _).2

end Sys2Proof.Machine

/-! ### Branches, jumps and the matrix region (O21, O22) -/

namespace Sys2Proof.Machine

/-! Where control goes changes no register -/

theorem reconverge_regs (n : Nat) (a : Arch) :
    (reconverge n a).v = a.v ∧ (reconverge n a).s = a.s ∧ (reconverge n a).p = a.p := by
  fun_induction reconverge n a with
  | case1 => exact ⟨rfl, rfl, rfl⟩
  | case2 => exact ⟨rfl, rfl, rfl⟩
  | case3 => exact ⟨rfl, rfl, rfl⟩
  | case4 n a e rest hstack hpc hpaths ih => exact ih
  | case5 n a e rest hstack hpc p m ps hpaths ih => exact ih

theorem goTo_regs (pc : BitVec 64) (a : Arch) : (goTo pc a).v = a.v ∧ (goTo pc a).s = a.s ∧ (goTo pc a).p = a.p :=
  reconverge_regs ..

theorem diverge_regs (at_ : BitVec 64) (first : BitVec 64 × BitVec 32) (others : List (BitVec 64 × BitVec 32)) (a : Arch) :
    (diverge at_ first others a).v = a.v ∧ (diverge at_ first others a).s = a.s ∧ (diverge at_ first others a).p = a.p :=
  goTo_regs ..

theorem groupWaits_faults {s : State} {x : Group} {uses : List RReg} (h : groupWaits s x uses = none) : x.faults = [] := by
  refine Classical.byContradiction fun hf => ?_
  have : x.faults.isEmpty = false := by simpa using hf
  simp only [groupWaits, this, Bool.not_false, if_true] at h
  split at h
  · cases h
  · split at h <;> cases h

theorem divergeCause_of_room {a : Arch} (hr : a.region = false) (hs : a.stack.length < 32) : divergeCause a = none := by
  simp only [divergeCause, hr, Nat.not_le.2 hs, Bool.false_eq_true, if_false]

@[simp] theorem groupOf_countDivergent (die g : Nat) (s : State) : groupOf (countDivergent die s) g = groupOf s g :=
  groupOf_bump ..

@[simp] theorem countDivergent_mem (die : Nat) (s : State) : (countDivergent die s).mem = s.mem := bump_mem ..

/-- What a group's instruction leaves that only changes its registers or its way: the group with those, unfaulted, and
memory as it was. -/
theorem exists_of_groupDone {row : Row} {g w beats : Nat} {uses : List RReg} {x : Group} {s t : State} {a : Arch}
    {grp : Group → State → Eff} (hi : GroupIssues row g w uses x s) (hd : grp x s = groupDone g x a t) (ht : t.mem = s.mem) :
    ∃ u y, issueGroup row g w uses beats grp s = .next u ∧ groupOf u g = some y ∧ y.faults = [] ∧ u.mem = s.mem ∧ y.arch = a := by
  obtain ⟨_, hwaits, _, _⟩ := id hi
  have hf := groupWaits_faults hwaits
  refine ⟨_, { x with arch := a }, issueGroup_of_done hi hd, ?_, hf, ?_, rfl⟩
  · rw [groupOf_bump, groupOf_setGroup_self]
  · rw [bump_mem, setGroup_mem, ht]

/-! BR -/

/-- Where a group's branch takes its registers: the way behind the word, the target, or a stack entry pushed. -/
def brArch (w : Nat) (f : BFields) (a : Arch) : Arch :=
  if f.kind = 0 then
    if condHolds f.cond 64 (sReg a f.a) (sReg a f.b) then goTo (pcPlus a.pc f.target) a else goNext w a
  else if takenLanes f a = 0 then goNext w a
  else if takenLanes f a = a.mask.toNat then goTo (pcPlus a.pc f.target) a
  else diverge (pcPlus a.pc f.reconv)
    (a.pc + BitVec.ofNat 64 (wsize w), a.mask &&& ~~~(BitVec.ofNat 32 (takenLanes f a)))
    [(pcPlus a.pc f.target, BitVec.ofNat 32 (takenLanes f a))] a

theorem brArch_regs (w : Nat) (f : BFields) (a : Arch) :
    (brArch w f a).v = a.v ∧ (brArch w f a).s = a.s ∧ (brArch w f a).p = a.p := by
  rw [brArch]
  repeat' split
  · exact goTo_regs ..
  · exact goTo_regs ..
  · exact goTo_regs ..
  · exact goTo_regs ..
  · exact diverge_regs ..

theorem brGroup_eq (g w : Nat) (f : BFields) (x : Group) (s : State)
    (h : f.kind = 0 ∨ takenLanes f x.arch = 0 ∨ takenLanes f x.arch = x.arch.mask.toNat ∨
      (x.arch.region = false ∧ x.arch.stack.length < 32)) :
    ∃ t, t.mem = s.mem ∧ brGroup g w f x s = groupDone g x (brArch w f x.arch) t := by
  by_cases hk : f.kind = 0
  · refine ⟨s, rfl, ?_⟩
    simp only [brGroup, brArch, hk, if_true, groupNext]
    split <;> rfl
  · by_cases h0 : takenLanes f x.arch = 0
    · exact ⟨s, rfl, by simp only [brGroup, brArch, hk, h0, if_true, if_false, groupNext]⟩
    · by_cases h1 : takenLanes f x.arch = x.arch.mask.toNat
      · refine ⟨s, rfl, ?_⟩
        rw [h1] at h0
        simp only [brGroup, brArch, hk, h0, h1, if_true, if_false]
      · obtain ⟨hr, hs⟩ := ((h.resolve_left hk).resolve_left h0).resolve_left h1
        refine ⟨countDivergent x.die s, countDivergent_mem .., ?_⟩
        simp only [brGroup, brArch, hk, h0, h1, if_false, divergeCause_of_room hr hs]

theorem exec_br_group {g w : Nat} {x : Group} {s : State}
    (hi : GroupIssues .br g w (usedRegs (brKinds (bFields w)) 0 (bFields w).a (bFields w).b 0 false 0) x s)
    (hok : brFieldsOk w (bFields w) true = true)
    (hregs : regCause true (groupRegs s g) (brKinds (bFields w)) 0 (bFields w).a (bFields w).b 0 = none)
    (h : (bFields w).kind = 0 ∨ takenLanes (bFields w) x.arch = 0 ∨ takenLanes (bFields w) x.arch = x.arch.mask.toNat ∨
      (x.arch.region = false ∧ x.arch.stack.length < 32)) :
    ∃ t y, exec (.br (.group g) w) s = .next t ∧ groupOf t g = some y ∧ y.faults = [] ∧ t.mem = s.mem ∧
      y.arch = brArch w (bFields w) x.arch := by
  obtain ⟨t, ht, hd⟩ := brGroup_eq g w (bFields w) x s h
  change ∃ t y, execBr (.group g) w s = _ ∧ _
  simp only [execBr]
  exact exists_of_groupDone hi ((withRegs_of_legal _ _ _ hok hregs).trans hd) ht

theorem exec_br_medlar {c w : Nat} {s : State} (hi : MedlarIssues .br c w s) (hok : brFieldsOk w (bFields w) false = true)
    (hregs : regCause false 0 (brKinds (bFields w)) 0 (bFields w).a (bFields w).b 0 = none) :
    exec (.br (.medlar c) w) s = .next (setMedlar c { medlarOf s c with
      pc := if condHolds (bFields w).cond 64 (gReg (medlarOf s c) (bFields w).a) (gReg (medlarOf s c) (bFields w).b)
        then pcPlus (medlarOf s c).pc (bFields w).target else (medlarOf s c).pc + BitVec.ofNat 64 (wsize w) } s) := by
  change execBr (.medlar c) w s = _
  simp only [execBr]
  refine issueMedlar_of_done hi ((withRegs_of_legal _ _ _ hok hregs).trans ?_)
  split <;> rfl

/-! JAL and JALR -/

theorem pc_add_of_toNat (pc : BitVec 64) (n : Nat) : BitVec.ofNat 64 (pc.toNat + n) = pc + BitVec.ofNat 64 n := by
  rw [BitVec.ofNat_add, BitVec.ofNat_toNat, BitVec.setWidth_eq]

theorem exec_jal_medlar {c w : Nat} {s : State} (hi : MedlarIssues .jal c w s) :
    exec (.jal (.medlar c) w) s = .next (setMedlar c { setG (bits w 7 5) ((medlarOf s c).pc.toNat + 4) (medlarOf s c) with
      pc := pcPlus (medlarOf s c).pc (4 * signed 20 (bits w 12 20)) } s) := by
  change execJal (.medlar c) w s = _
  simp only [execJal]
  exact issueMedlar_of_done hi rfl

theorem exec_jal_group {g w : Nat} {x : Group} {s : State} (hi : GroupIssues .jal g w [.s (bits w 7 5)] x s) :
    exec (.jal (.group g) w) s = .next (bump (K.groupIssueBeats + x.die) 0 (setGroup g { x with
      arch := goTo (pcPlus x.arch.pc (4 * signed 20 (bits w 12 20))) (setS (bits w 7 5) (x.arch.pc.toNat + 4) x.arch) } s)) := by
  change execJal (.group g) w s = _
  simp only [execJal]
  exact issueGroup_of_done hi rfl

theorem exec_jalr_medlar {c w : Nat} {s : State} (hi : MedlarIssues .jalr c w s)
    (hr : MedlarRegs (noPred (iFields w)) jalrKinds { iFields w with b := 0, c := 0 })
    (hal : wrap64 ((gReg (medlarOf s c) (iFields w).a : Int) + signed 64 (iFields w).imm) % 4 = 0) :
    exec (.jalr (.medlar c) w) s = .next (setMedlar c { setG (iFields w).d ((medlarOf s c).pc.toNat + 8) (medlarOf s c) with
      pc := BitVec.ofNat 64 (wrap64 ((gReg (medlarOf s c) (iFields w).a : Int) + signed 64 (iFields w).imm)) } s) := by
  obtain ⟨hok, hregs⟩ := hr
  change execJalr (.medlar c) w s = _
  simp only [execJalr]
  refine issueMedlar_of_done hi ((withRegs_of_legal _ _ _ hok hregs).trans ?_)
  simp only [hal, ne_eq, not_true_eq_false, if_false]

theorem exec_jalr_group {g w : Nat} {x : Group} {s : State}
    (hi : GroupIssues .jalr g w (usedRegs jalrKinds (iFields w).d (iFields w).a 0 0 false 0) x s)
    (hr : GroupRegs s g (noPred (iFields w)) jalrKinds { iFields w with b := 0, c := 0 })
    (hal : wrap64 ((sReg x.arch (iFields w).a : Int) + signed 64 (iFields w).imm) % 4 = 0) :
    exec (.jalr (.group g) w) s = .next (bump (K.groupIssueBeats + x.die) 0 (setGroup g { x with
      arch := goTo (BitVec.ofNat 64 (wrap64 ((sReg x.arch (iFields w).a : Int) + signed 64 (iFields w).imm)))
        (setS (iFields w).d (x.arch.pc.toNat + 8) x.arch) } s)) := by
  obtain ⟨hok, hregs⟩ := hr
  change execJalr (.group g) w s = _
  simp only [execJalr]
  refine issueGroup_of_done hi ((withRegs_of_legal _ _ _ hok hregs).trans ?_)
  simp only [hal, ne_eq, not_true_eq_false, if_false, groupDone]

/-! BRX -/

theorem brxGroup_eq {g reconv a0 : Nat} {x : Group} {s : State} {first : BitVec 64 × BitVec 32}
    {rest : List (BitVec 64 × BitVec 32)}
    (hts : targetsOf x.arch.mask.toNat (fun i => BitVec.ofNat 64 (vPair x.arch a0 i)) = first :: rest)
    (hal : ∀ u, u ∈ first :: rest → u.1.toNat % 4 = 0)
    (hroom : rest = [] ∨ (x.arch.region = false ∧ x.arch.stack.length < 32)) :
    ∃ t, t.mem = s.mem ∧ brxGroup g reconv a0 x s =
      groupDone g x (if rest = [] then goTo first.1 x.arch else diverge (pcPlus x.arch.pc reconv) first rest x.arch) t := by
  have hbad : ((first :: rest).any fun t => t.1.toNat % 4 != 0) = false := by
    rw [List.any_eq_false]
    intro u hu
    simp [hal u hu]
  cases rest with
  | nil => exact ⟨s, rfl, by simp only [brxGroup, hts, hbad, Bool.false_eq_true, if_false, if_true]⟩
  | cons r rest =>
    obtain ⟨hr, hs⟩ := hroom.resolve_left (by simp)
    refine ⟨countDivergent x.die s, countDivergent_mem .., ?_⟩
    simp only [brxGroup, hts, hbad, divergeCause_of_room hr hs, Bool.false_eq_true, if_false, reduceCtorEq]

theorem exec_brx_group {g w : Nat} {x : Group} {s : State} {first : BitVec 64 × BitVec 32}
    {rest : List (BitVec 64 × BitVec 32)} (hi : GroupIssues .brx g w (usedRegs brxKinds 0 (iFields w).a 0 0 false 0) x s)
    (hr : GroupRegs s g (noPred (iFields w) && 4 * bits w 32 32 != 0) brxKinds { iFields w with b := 0, c := 0 })
    (hts : targetsOf x.arch.mask.toNat (fun i => BitVec.ofNat 64 (vPair x.arch (iFields w).a i)) = first :: rest)
    (hal : ∀ u, u ∈ first :: rest → u.1.toNat % 4 = 0)
    (hroom : rest = [] ∨ (x.arch.region = false ∧ x.arch.stack.length < 32)) :
    ∃ t y, exec (.brx (.group g) w) s = .next t ∧ groupOf t g = some y ∧ y.faults = [] ∧ t.mem = s.mem ∧
      y.arch = if rest = [] then goTo first.1 x.arch else diverge (pcPlus x.arch.pc (4 * bits w 32 32)) first rest x.arch := by
  obtain ⟨hok, hregs⟩ := hr
  obtain ⟨t, ht, hd⟩ := brxGroup_eq (g := g) (reconv := 4 * bits w 32 32) (s := s) hts hal hroom
  change ∃ t y, execBrx (.group g) w s = _ ∧ _
  simp only [execBrx]
  exact exists_of_groupDone hi ((withRegs_of_legal _ _ _ hok hregs).trans hd) ht

theorem bit_lanesWhere (mask : Nat) (p : Nat → Bool) {i : Nat} (hi : i < 32) : bit (lanesWhere mask p) i = (bit mask i && p i) := by
  have h := bits_mergeEls 1 0 (fun _ => true) (fun i => if bit mask i && p i then 1 else 0) hi
  rw [Nat.one_mul, if_pos rfl] at h
  rw [bit_eq_bits, lanesWhere, h]
  split <;> simp_all

/-- The target named first is that of the lowest lane that is active. -/
theorem foldl_new_head {α : Type} [BEq α] (t : Nat → α) (l : List Nat) (x : α) (acc : List α) :
    ∃ acc', l.foldl (fun acc i => if acc.contains (t i) then acc else acc ++ [t i]) (x :: acc) = x :: acc' := by
  induction l generalizing acc with
  | nil => exact ⟨acc, rfl⟩
  | cons i l ih =>
    rw [List.foldl_cons]
    split
    · exact ih acc
    · exact ih (acc ++ [t i])

theorem targetsOf_first {mask i : Nat} {t : Nat → BitVec 64} {first : BitVec 64 × BitVec 32}
    {rest : List (BitVec 64 × BitVec 32)} (h : targetsOf mask t = first :: rest) (hi : i < 32) (hm : bit mask i = true)
    (hlow : ∀ k, k < i → bit mask k = false) : first.1 = t i ∧ first.2.getLsbD i = true := by
  have hhead : ∃ l, setBitsOf 32 mask = i :: l := by
    have hh : (setBitsOf 32 mask).head? = some i := by
      rw [setBitsOf, List.head?_filter, List.find?_range_eq_some]
      exact ⟨hm, List.mem_range.2 hi, fun k hk => by simp [hlow k hk]⟩
    exact List.head?_eq_some_iff.1 hh
  obtain ⟨l, hl⟩ := hhead
  obtain ⟨acc, hacc⟩ := foldl_new_head t l (t i) []
  rw [targetsOf, hl, List.foldl_cons, if_neg (by simp), List.nil_append, hacc, List.map_cons] at h
  obtain ⟨hfirst, _⟩ := List.cons.inj h
  rw [← hfirst]
  refine ⟨rfl, ?_⟩
  rw [BitVec.getLsbD_ofNat, ← bit_eq_testBit, bit_lanesWhere _ _ hi, hm]
  simp [hi]

/-- Settles O21: each branch and jump that issues is done, and its lemma names where it goes. -/
theorem branchesAndJumpsExecute : Obligations.BranchesAndJumpsExecute := by
  refine ⟨?br, ?brGroup, ?jal, ?jalGroup, ?jalr, ?jalrGroup, ?brx⟩
  case br =>
    intro c w s hi hok hregs
    refine ⟨_, exec_br_medlar hi hok hregs, ?_, fun d hd => medlarOf_setMedlar_of_ne _ _ hd, rfl, ?_⟩ <;>
      rw [medlarOf_setMedlar_self]
  case brGroup =>
    intro g w x s hi hok hregs h
    obtain ⟨t, y, hexec, hy, hfaults, hmem, harch⟩ := exec_br_group hi hok hregs h
    obtain ⟨hv, hs, hp⟩ := brArch_regs w (bFields w) x.arch
    rw [← harch] at hv hs hp
    refine ⟨t, y, hexec, hy, hfaults, hv, hs, hp, hmem, ?_, ?_, ?_, ?_⟩
    · intro hk
      rw [harch, brArch, if_pos hk]
    · intro hk h0
      rw [harch, brArch, if_neg hk, if_pos h0]
    · intro hk h0 h1
      rw [harch, brArch, if_neg hk, if_neg h0, if_pos h1]
    · intro hk h0 h1
      rw [harch, brArch, if_neg hk, if_neg h0, if_neg h1]
  case jal =>
    intro c w s hi
    refine ⟨_, exec_jal_medlar hi, ?_, ?_, fun r hr => ?_, rfl⟩ <;> rw [medlarOf_setMedlar_self]
    · exact (Tab.get_set_self ..).trans (pc_add_of_toNat ..)
    · exact congrArg BitVec.toNat (g_setG_of_ne _ (medlarOf s c) hr)
  case jalGroup =>
    intro g w x s hi
    exact exec_jal_group hi
  case jalr =>
    intro c w s hi hr hal
    refine ⟨_, exec_jalr_medlar hi hr hal, ?_, ?_, fun r hr => ?_, rfl⟩ <;> rw [medlarOf_setMedlar_self]
    · exact (Tab.get_set_self ..).trans (pc_add_of_toNat ..)
    · exact congrArg BitVec.toNat (g_setG_of_ne _ (medlarOf s c) hr)
  case jalrGroup =>
    intro g w x s hi hr hal
    exact exec_jalr_group hi hr hal
  case brx =>
    intro g w x first rest s hi hr hts hal hroom
    obtain ⟨t, y, hexec, hy, hfaults, hmem, harch⟩ := exec_brx_group hi hr hts hal hroom
    refine ⟨t, y, hexec, hy, hfaults, hmem, fun i hi hm hlow => ?_, fun h => ?_, fun h => ?_⟩
    · exact targetsOf_first hts hi ((bit_eq_testBit ..).trans hm) fun k hk => (bit_eq_testBit ..).trans (hlow k hk)
    · rw [harch, if_pos h]
    · rw [harch, if_neg h]

/-! The matrix region and its results -/

theorem v_writeRows (rows : List (BitVec 1024)) (d : Nat) (a : Arch) :
    (∀ i, i < rows.length → (writeRows d rows a).v.get 0#1024 (d + i) = rows.getD i 0#1024) ∧
    ∀ r, r < d ∨ d + rows.length ≤ r → (writeRows d rows a).v.get 0#1024 r = a.v.get 0#1024 r := by
  induction rows generalizing d a with
  | nil => exact ⟨fun i hi => absurd hi (Nat.not_lt_zero i), fun _ _ => rfl⟩
  | cons row rows ih =>
    obtain ⟨hin, hout⟩ := ih (d + 1) { a with v := a.v.set 0#1024 d row }
    simp only [List.length_cons]
    refine ⟨fun i hi => ?_, fun r hr => ?_⟩
    · cases i with
      | zero => exact (hout d (.inl (Nat.lt_succ_self d))).trans (Tab.get_set_self ..)
      | succ i =>
        have hi' : d + (i + 1) = d + 1 + i := by omega
        rw [writeRows, hi']
        exact hin i (Nat.lt_of_succ_lt_succ hi)
    · exact (hout r (by omega)).trans (Tab.get_set_of_ne _ _ _ (by omega))

theorem writeRows_keeps (rows : List (BitVec 1024)) (d : Nat) (a : Arch) :
    (writeRows d rows a).s = a.s ∧ (writeRows d rows a).mma = a.mma := by
  induction rows generalizing d a with
  | nil => exact ⟨rfl, rfl⟩
  | cons row rows ih => exact ih (d + 1) { a with v := a.v.set 0#1024 d row }

theorem mmaWrite_head {e : Nat × List (BitVec 1024)} {rest : List (Nat × List (BitVec 1024))} {a : Arch} (h : a.mma = e :: rest) :
    mmaWrite e a = writeRows e.1 e.2 { a with mma := rest } := by
  have hc : a.mma.contains e = true := by rw [h, List.contains_cons, beq_self_eq_true, Bool.true_or]
  rw [mmaWrite, if_pos hc, h, List.erase_cons_head]

theorem groupOf_setGroup_of_ne {g g' : Nat} (x : Group) (s : State) (h : g' ≠ g) : groupOf (setGroup g x s) g' = groupOf s g' :=
  Tab.find_put_of_ne s.grp.groups x h

/-- Settles O22: each instruction of the matrix region meets no trap under the hypotheses, and a result's rows go to eight
registers in turn. -/
theorem matrixInstructionsExecute : Obligations.MatrixInstructionsExecute := by
  refine ⟨?begin, ?ends, ?mma, ?result⟩
  case begin =>
    intro g w x s hi hplain hregion hmask
    refine issueGroup_of_done hi ?_
    simp only [hplain, hregion, hmask, Bool.not_true, Bool.false_eq_true, ne_eq, not_true_eq_false, if_false, groupNext, groupDone]
  case ends =>
    intro g w x s hi hplain hregion
    refine issueGroup_of_done hi ?_
    simp only [hplain, hregion, Bool.not_true, Bool.false_eq_true, if_false, groupNext, groupDone]
  case mma =>
    intro g w x s hi hok hrange hregion
    refine issueGroup_of_done hi ?_
    have hrange' : mmaInRange (rFields w) (regsCount (launchRaw s (launchKey g))) = true := hrange
    simp only [hok, hrange', hregion, Bool.not_true, Bool.false_eq_true, if_false, groupNext, groupDone]
  case result =>
    intro g d rows rest x s hg hmma hlen
    have hexec : exec (.mmaResult g) s = .next (setGroup g { x with
        arch := mmaWrite (d, rows) x.arch
        loads := x.loads.map fun l => { l with saved := l.saved.map (mmaWrite (d, rows)) } } s) := by
      change execMmaResult g s = _
      simp only [execMmaResult, hg, hmma]
    obtain ⟨hs, hrest⟩ := writeRows_keeps rows d { x.arch with mma := rest }
    obtain ⟨hin, hout⟩ := v_writeRows rows d { x.arch with mma := rest }
    rw [hlen] at hin hout
    rw [mmaWrite_head hmma] at hexec
    exact ⟨_, _, hexec, groupOf_setGroup_self .., hrest, hin, hout, hs, fun g' h => groupOf_setGroup_of_ne _ _ h, setGroup_mem ..⟩

end Sys2Proof.Machine

/-! ### What a request on its way leaves as it was -/

namespace Sys2Proof.Machine

/-- s without what requests touch that leave for their home: records, requests, links, events and the count of free values. -/
def unsent (s : State) : State :=
  { s with dict := State.reset.dict, ev := State.reset.ev, reqs := State.reset.reqs, nextReq := 0
           links := State.reset.links, freeN := 0 }

theorem foldl_unsent {α : Type} {f : State → α → State} (h : ∀ t x, unsent (f t x) = unsent t) (l : List α) (s : State) :
    unsent (l.foldl f s) = unsent s := foldl_frame unsent f h l s

theorem unsent_ite (c : Prop) [Decidable c] (s t : State) : unsent (if c then s else t) = if c then unsent s else unsent t :=
  apply_ite unsent c s t

theorem unsent_setLinks (s : State) (x : Links) : unsent { s with links := x } = unsent s := rfl
theorem unsent_setReqs (s : State) (x : Tab Req) (n : Nat) : unsent { s with reqs := x, nextReq := n } = unsent s := rfl

theorem medlars_of_unsent {s t : State} (h : unsent t = unsent s) : t.medlars = s.medlars := (congrArg State.medlars h :)
theorem grp_of_unsent {s t : State} (h : unsent t = unsent s) : t.grp = s.grp := (congrArg State.grp h :)
theorem mem_of_unsent {s t : State} (h : unsent t = unsent s) : t.mem = s.mem := (congrArg State.mem h :)
theorem coh_of_unsent {s t : State} (h : unsent t = unsent s) : t.coh = s.coh := (congrArg State.coh h :)

theorem setDv_unsent (k v : Nat) (s : State) : unsent (setDv k v s) = unsent s := rfl

theorem raise_unsent (c o a b : Nat) (s : State) : unsent (raise c o a b s) = unsent s := rfl

theorem sumErr_unsent (b : Nat) (s : State) : unsent (sumErr b s) = unsent s := rfl

theorem bumpRaw_unsent (k n : Nat) (s : State) : unsent (bumpRaw k n s).1 = unsent s := by grind [bumpRaw, setDv_unsent]

theorem saturated_unsent (k : Nat) (s : State) : unsent (saturated k s) = unsent s := rfl

theorem bump_unsent (k n : Nat) (s : State) : unsent (bump k n s) = unsent s := by
  simp only [bump, bumpRaw_unsent, saturated_unsent, unsent_ite, ite_self]

theorem countDenied_unsent (ctx domain off : Nat) (s : State) : unsent (countDenied ctx domain off s) = unsent s :=
  (setDv_unsent ..).trans ((sumErr_unsent ..).trans (bump_unsent ..))

theorem setConn_unsent (c : Nat) (k : Conn) (s : State) : unsent (setConn c k s) = unsent s := rfl

theorem setLayer_unsent (lp : Nat) (x : LinkLayer) (s : State) : unsent (setLayer lp x s) = unsent s := rfl

theorem sendFlits_unsent (lp vc n : Nat) (s : State) : unsent (sendFlits lp vc n s) = unsent s := by
  simp only [sendFlits, unsent_ite, setLayer_unsent, ite_self]

theorem leaveTxn_unsent (id : Nat) (x : Txn) (s : State) : unsent (leaveTxn id x s) = unsent s := by
  grind [leaveTxn, setConn_unsent, sendFlits_unsent, unsent_setLinks]

theorem pumpConn_unsent (conn n : Nat) (s : State) : unsent (pumpConn conn n s) = unsent s := by
  fun_induction pumpConn conn n s <;> simp only [*, leaveTxn_unsent]

theorem openTxnWith_unsent (poison : Bool) (reduce : Option (Nat × Nat)) (xl : Xl) (len : Nat) (read : Bool)
    (bytes : List Byte) (owner : TOwner) (s : State) :
    unsent (openTxnWith poison reduce xl len read bytes owner s).2 = unsent s := by
  simp only [openTxnWith, bump_unsent, setConn_unsent, pumpConn_unsent, unsent_ite, ite_self, unsent_setLinks]

theorem issueReq_unsent (r : Req) (s : State) : unsent (issueReq r s) = unsent s := by
  grind [issueReq, openTxn, countDenied_unsent, countStale, bump_unsent, openTxnWith_unsent, unsent_setReqs]

theorem sendComb_unsent (c : Nat) (e : CombEntry) (s : State) : unsent (sendComb c e s) = unsent s :=
  foldl_unsent (fun _ _ => issueReq_unsent ..) _ _

/-- Draining its combining buffer only empties that of the core. -/
theorem drainComb_unsent (c : Nat) (s : State) :
    unsent (drainComb c s) = unsent (setMedlar c { medlarOf s c with comb := [] } s) :=
  foldl_unsent (fun t e => sendComb_unsent c e t) _ _

theorem medlarOf_drainComb_self (c : Nat) (s : State) : medlarOf (drainComb c s) c = { medlarOf s c with comb := [] } := by
  rw [medlarOf, medlars_of_unsent (drainComb_unsent c s), ← medlarOf, medlarOf_setMedlar_self]

theorem medlarOf_drainComb_of_ne {c d : Nat} (s : State) (h : d ≠ c) : medlarOf (drainComb c s) d = medlarOf s d := by
  rw [medlarOf, medlars_of_unsent (drainComb_unsent c s), ← medlarOf, medlarOf_setMedlar_of_ne _ _ h]

theorem medlarOf_bump (k n c : Nat) (s : State) : medlarOf (bump k n s) c = medlarOf s c := by
  rw [medlarOf, medlarOf, bump_medlars]

theorem medlarOf_medlarTrap_self (c : Nat) (cause : Cause) (addr : Nat) (tpc : BitVec 64) (imprecise : Bool) (s : State) :
    medlarOf (medlarTrap c cause addr tpc imprecise s) c = { medlarOf s c with
      comb := [], trapPc := tpc
      trapCause := BitVec.ofNat 64 (causeCode cause + (if imprecise then 256 else 0) +
        (if (medlarOf s c).runtime then 512 else 0))
      trapAddr := BitVec.ofNat 64 addr, runtime := true, pc := (medlarOf s c).trapVec, loads := [], waiting := [] } := by
  simp only [medlarTrap, medlarOf_setMedlar_self, medlarOf_bump, medlarOf_drainComb_self]

theorem medlarOf_medlarTrap_of_ne {c d : Nat} (cause : Cause) (addr : Nat) (tpc : BitVec 64) (imprecise : Bool) (s : State)
    (h : d ≠ c) : medlarOf (medlarTrap c cause addr tpc imprecise s) d = medlarOf s d := by
  simp only [medlarTrap, medlarOf_setMedlar_of_ne _ _ h, medlarOf_bump, medlarOf_drainComb_of_ne s h]

end Sys2Proof.Machine

/-! ### Fences and system instructions (O23, O24) -/

namespace Sys2Proof.Machine

/-! A trap that an instruction meets -/

theorem issueMedlar_of_trap {row : Row} {c w : Nat} {s t : State} {med : Medlar → State → Eff} {e : FaultInfo}
    (hi : MedlarIssues row c w s) (hrow : row ≠ .ld) (hd : med (medlarOf s c) s = .trap e t) :
    issueMedlar row c w med s = .next (medlarTrap c e.cause e.va (medlarOf s c).pc false t) := by
  obtain ⟨hwaits, hw, hloads, hfetch⟩ := hi
  simp only [issueMedlar, hwaits, wordFits, hw, hloads.resolve_right hrow, hfetch, hd, beq_self_eq_true, List.isEmpty_nil,
    Bool.not_true, Bool.false_and, Bool.false_eq_true, reduceCtorEq, if_false]

theorem issueGroup_of_trap {row : Row} {g w beats : Nat} {uses : List RReg} {x : Group} {s t : State}
    {grp : Group → State → Eff} {e : FaultInfo} (hi : GroupIssues row g w uses x s) (hd : grp x s = .trap e t) :
    issueGroup row g w uses beats grp s = .next (groupTrap g e t) := by
  obtain ⟨hgroup, hwaits, hrow, hfetch⟩ := hi
  simp only [issueGroup, hgroup, hwaits, wordFits, hrow, beq_self_eq_true, Bool.not_true, Bool.false_eq_true, hfetch, hd,
    reduceCtorEq, if_false]

theorem groupOf_groupTrap_self {g : Nat} {x : Group} {f : FaultInfo} {s : State} (h : groupOf s g = some x) :
    groupOf (groupTrap g f s) g = some { x with faults := x.faults ++ [{ f with time := label x.die s }] } := by
  simp only [groupTrap, h, groupOf_bump, groupOf_setGroup_self]

/-- What a privileged instruction leaves in APP mode: the core at its trap vector, in RUNTIME mode. -/
theorem privileged_traps {row : Row} {c w : Nat} {s : State} {med : Medlar → State → Eff} (hi : MedlarIssues row c w s)
    (hrow : row ≠ .ld) (happ : (medlarOf s c).runtime = false)
    (hd : med (medlarOf s c) s = bareTrap .privileged (medlarCtx (medlarOf s c)) s) :
    ∃ t, issueMedlar row c w med s = .next t ∧ (medlarOf t c).pc = (medlarOf s c).trapVec ∧
      (medlarOf t c).trapPc = (medlarOf s c).pc ∧ (medlarOf t c).runtime = true ∧
      (medlarOf t c).trapCause = BitVec.ofNat 64 (causeCode .privileged) ∧ (medlarOf t c).g = (medlarOf s c).g := by
  have hm : medlarOf (takeFree s).2 c = medlarOf s c := rfl
  refine ⟨_, issueMedlar_of_trap hi hrow hd, ?_⟩
  simp only [medlarOf_medlarTrap_self, hm, happ, Bool.false_eq_true, if_false, plainFault, and_self, causeCode, Nat.add_zero]

/-! Fences -/

theorem fenceMedlar_of_done {row : Row} {c w : Nat} {s t : State} {go : Nat → Medlar → State → Eff}
    (hi : MedlarIssues row c w s) (hok : fenceFieldsOk w false = true) (hd : go c (medlarOf s c) s = .done t) :
    fenceMedlar row (.medlar c) w go s = .next t := by
  rw [fenceMedlar]
  refine issueMedlar_of_done hi ?_
  simp only [hok, Bool.not_true, Bool.false_eq_true, if_false, hd]

theorem fenceGroup_of_done {row : Row} {g w : Nat} {x : Group} {s t : State} {go : Nat → Group → State → Eff}
    (hi : GroupIssues row g w [] x s) (hok : fenceFieldsOk w false = true) (hd : go g x s = .done t) :
    fenceGroup row (.group g) w go s = .next (bump (K.groupIssueBeats + x.die) 0 t) := by
  rw [fenceGroup]
  refine issueGroup_of_done hi ?_
  simp only [hok, Bool.not_true, Bool.false_eq_true, if_false, hd]

theorem sysStatus_spec (l : List RemoteFail) :
    (.frontendGone ∈ l → sysStatus l = 0x22) ∧ (.frontendGone ∉ l → .remoteAbandoned ∈ l → sysStatus l = 0x21) ∧
    (.frontendGone ∉ l → .remoteAbandoned ∉ l → sysStatus l = 0) := by
  simp only [sysStatus, List.contains_iff_mem]
  exact ⟨fun h => if_pos h, fun h h' => by rw [if_neg h, if_pos h'], fun h h' => by rw [if_neg h, if_neg h']⟩

theorem l1_invalidateL1 (k : Nat) (s : State) : (gcoreOf (invalidateL1 k s) k).l1 = ⟨[]⟩ :=
  congrArg GCore.l1 (Tab.get_put_self s.grp.cores GCore.empty k { gcoreOf s k with l1 := ⟨[]⟩ })

theorem invalidateL1_mem (k : Nat) (s : State) : (invalidateL1 k s).mem = s.mem := rfl

theorem gcoreOf_groupRetired (g w beats k : Nat) (x : Group) (a : Arch) (s : State) :
    gcoreOf (groupRetired g w beats x a s) k = gcoreOf s k := by
  rw [gcoreOf, groupRetired, bump_grp]
  rfl

theorem exec_fenceSys_medlar {c w : Nat} {s : State} (hi : MedlarIssues .fenceSys c w s) (hok : fenceFieldsOk w true = true) :
    exec (.fenceSys (.medlar c) w) s = .next (medlarRetired c w
      { medlarOf (drainComb c s) c with sysWait := some (rFields w).d } (drainComb c s)) := by
  change execFenceSys (.medlar c) w s = _
  simp only [execFenceSys]
  refine issueMedlar_of_done hi ?_
  simp only [hok, Bool.not_true, Bool.false_eq_true, if_false]
  rfl

theorem exec_fenceSysResolve_medlar {c d : Nat} {s : State} (hout : writesOut s (.medlar c) = [])
    (hwait : (medlarOf s c).sysWait = some d) (hsb : (medlarOf s c).sb = []) (hposted : (medlarOf s c).posted = []) :
    exec (.fenceSysResolve (.medlar c)) s = .next (takeHeld c
      (setMedlar c { setG d (sysStatus (medlarOf s c).abandoned) (medlarOf s c) with sysWait := none } s)) := by
  change execFenceSysResolve (.medlar c) s = _
  simp only [execFenceSysResolve, hout, hwait, hsb, hposted, List.isEmpty_nil, Bool.not_true, Bool.false_eq_true, if_false,
    Bool.or_self]

theorem takeHeld_of_none {c : Nat} {s : State} (h : (medlarOf s c).held = []) : takeHeld c s = s := by
  simp only [takeHeld, h]

/-- Settles O23: every fence's condition is the guard behind which its core or group goes on. -/
theorem fencesEndOnceTheirWritesAreDone : Obligations.FencesEndOnceTheirWritesAreDone := by
  refine ⟨?sl, ?slComb, ?wc, ?fi, ?rel, ?acq, ?sys, ?sysGroup, ?resolve, ?resolveGroup⟩
  case sl =>
    intro c w s hi hok hcomb hsb hnear
    change execFenceSl (.medlar c) w s = _
    rw [execFenceSl]
    refine fenceMedlar_of_done hi hok ?_
    simp only [hcomb, hsb, hnear, List.isEmpty_nil, Bool.not_true, Bool.false_eq_true, if_false, medlarNext, medlarRetired]
  case slComb =>
    intro c w s hi hok hcomb
    have hne : (medlarOf s c).comb.isEmpty = false := by simpa using hcomb
    refine ⟨drainComb c s, ?_, ?_, ?_⟩
    · change execFenceSl (.medlar c) w s = _
      rw [execFenceSl]
      refine fenceMedlar_of_done hi hok ?_
      simp only [hne, Bool.not_false, if_true]
    · rw [medlarOf_drainComb_self]
    · rw [medlarOf_drainComb_self]
  case wc =>
    intro c w s hi hok hcomb hnear
    have hany : ((writesNear s (.medlar c)).any fun r => r.2.xl.region == 1) = false := by
      rw [List.any_eq_false]
      intro r hr
      simpa using hnear r hr
    change execFenceWc (.medlar c) w s = _
    rw [execFenceWc]
    refine fenceMedlar_of_done hi hok ?_
    simp only [hcomb, hany, List.isEmpty_nil, Bool.not_true, Bool.false_eq_true, if_false, medlarNext, medlarRetired]
  case fi =>
    intro c w s hi hok
    change execFenceI (.medlar c) w s = _
    rw [execFenceI]
    exact fenceMedlar_of_done hi hok rfl
  case rel =>
    intro g w x s hi hok hnear
    change execFenceRel (.group g) w s = _
    rw [execFenceRel]
    refine fenceGroup_of_done hi hok ?_
    simp only [hnear, List.isEmpty_nil, Bool.not_true, Bool.false_eq_true, if_false, groupNext, groupDone]
  case acq =>
    intro g w x s hi hok hloads
    have hexec : exec (.fenceAcq (.group g) w) s =
        .next (groupRetired g w 0 x x.arch (invalidateL1 (coreKey x.die x.core) s)) := by
      change execFenceAcq (.group g) w s = _
      rw [execFenceAcq]
      refine fenceGroup_of_done hi hok ?_
      simp only [hloads, List.isEmpty_nil, Bool.not_true, Bool.false_eq_true, if_false, groupNext, groupDone]
    refine ⟨_, _, hexec, groupOf_groupRetired_self .., rfl, ?_, ?_⟩
    · rw [gcoreOf_groupRetired, l1_invalidateL1]
    · rw [groupRetired_mem, invalidateL1_mem]
  case sys =>
    intro c w s hi hok
    refine ⟨_, exec_fenceSys_medlar hi hok, ?_, ?_, ?_⟩ <;> rw [medlarOf_medlarRetired_self, medlarOf_drainComb_self]
  case sysGroup =>
    intro g w x s hi hok
    change execFenceSys (.group g) w s = _
    rw [execFenceSys]
    refine issueGroup_of_done (x := x) hi ?_
    simp only [hok, Bool.not_true, Bool.false_eq_true, if_false, groupNext, groupDone]
  case resolve =>
    intro c d s hout hwait hsb hposted
    have hexec := exec_fenceSysResolve_medlar hout hwait hsb hposted
    obtain ⟨hgone, habandoned, hnone⟩ := sysStatus_spec (medlarOf s c).abandoned
    refine ⟨_, hexec, hgone, habandoned, hnone, fun hheld => ?_⟩
    rw [hexec, takeHeld_of_none]
    rw [medlarOf_setMedlar_self]
    exact hheld
  case resolveGroup =>
    intro g d x s hout hg hwait
    obtain ⟨hgone, habandoned, hnone⟩ := sysStatus_spec x.abandoned
    have hexec : exec (.fenceSysResolve (.group g)) s =
        .next (setGroup g { x with arch := setS d (sysStatus x.abandoned) x.arch, sysWait := none } s) := by
      change execFenceSysResolve (.group g) s = _
      simp only [execFenceSysResolve, hout, hg, hwait, List.isEmpty_nil, Bool.not_true, Bool.false_eq_true, if_false]
    exact ⟨_, _, _, hexec, groupOf_setGroup_self .., rfl, rfl, rfl, hgone, habandoned, hnone⟩

/-! The end of a group -/

theorem leaveDie_keeps (key die k : Nat) (s : State) :
    (leaveDie key die s).grp.groups = s.grp.groups ∧ (leaveDie key die s).mem = s.mem ∧
    ((leaveDie key die s).grp.launches.find k).map Launch.ended = (s.grp.launches.find k).map Launch.ended := by
  rw [leaveDie]
  split
  · exact ⟨rfl, rfl, rfl⟩
  next l hl =>
    dsimp only
    split
    · exact ⟨rfl, rfl, rfl⟩
    · rw [bump_grp, bump_mem]
      refine ⟨rfl, rfl, ?_⟩
      by_cases hk : k = key
      · subst hk
        rw [Tab.find_put_self, hl]
        rfl
      · rw [Tab.find_put_of_ne _ _ hk]

theorem leaveDies_keeps (key k : Nat) (s : State) :
    (leaveDies key s).grp.groups = s.grp.groups ∧ (leaveDies key s).mem = s.mem ∧
    ((leaveDies key s).grp.launches.find k).map Launch.ended = (s.grp.launches.find k).map Launch.ended := by
  rw [leaveDies]
  generalize List.range 8 = dies
  induction dies generalizing s with
  | nil => exact ⟨rfl, rfl, rfl⟩
  | cons d dies ih =>
    obtain ⟨hgroups, hmem, hended⟩ := leaveDie_keeps key d k s
    rw [List.foldl_cons, ← hgroups, ← hmem, ← hended]
    exact ih (leaveDie key d s)

theorem leaveCore_keeps (key die core : Nat) (s : State) :
    (leaveCore key die core s).grp.groups = s.grp.groups ∧ (leaveCore key die core s).mem = s.mem ∧
    (leaveCore key die core s).grp.launches = s.grp.launches := by
  rw [leaveCore]
  split <;> exact ⟨rfl, rfl, rfl⟩

theorem removeGroup_keeps {g : Nat} {x : Group} {s : State} (h : groupOf s g = some x) (k : Nat) :
    (removeGroup g s).grp.groups = s.grp.groups.del g ∧ (removeGroup g s).mem = s.mem ∧
    ((removeGroup g s).grp.launches.find k).map Launch.ended = (s.grp.launches.find k).map Launch.ended := by
  simp only [removeGroup, h]
  obtain ⟨hgroups, hmem, hended⟩ := leaveDies_keeps (launchKey g) k (if x.place = .resident then
    leaveCore (launchKey g) x.die x.core { s with grp := { s.grp with groups := s.grp.groups.del g } }
    else { s with grp := { s.grp with groups := s.grp.groups.del g } })
  rw [hgroups, hmem, hended]
  split
  · obtain ⟨hg, hm, hl⟩ := leaveCore_keeps (launchKey g) x.die x.core
      { s with grp := { s.grp with groups := s.grp.groups.del g } }
    rw [hg, hm, hl]
    exact ⟨rfl, rfl, rfl⟩
  · exact ⟨rfl, rfl, rfl⟩

theorem exec_endGroup {g w : Nat} {x : Group} {s : State} (hi : GroupIssues .end_ g w [] x s) (hplain : sysPlain w = true)
    (hregion : x.arch.region = false) (hstack : x.arch.stack = []) (hloads : x.loads = []) :
    exec (.endGroup (.group g) w) s =
      .next (bump (K.groupIssueBeats + x.die) 0 (removeGroup g (countEnded (launchKey g) s))) := by
  change execEndGroup (.group g) w s = _
  rw [execEndGroup]
  refine issueGroup_of_done hi ?_
  simp only [hplain, hregion, hstack, hloads, List.isEmpty_nil, Bool.not_true, Bool.false_eq_true, if_false]

/-! Control registers -/

theorem crNumber_getD {w n : Nat} (h : crNumber w = some n) : (crNumber w).getD 0xFFF = n := by rw [h, Option.getD_some]

/-- The control registers of a Medlar core that may be written. -/
theorem crWritable_cases {n : Nat} (h : (crExists false n && !crReadOnly n) = true) :
    n = 0 ∨ n = 1 ∨ n = 0x101 ∨ n = 0x102 ∨ n = 0x103 ∨ n = 0x104 ∨ n = 0x105 ∨ n = 0x106 := by
  simp only [crExists, crReadOnly, Bool.not_false, Bool.true_and, Bool.and_eq_true, Bool.or_eq_true, decide_eq_true_eq,
    Bool.not_eq_true', Bool.or_eq_false_iff, beq_eq_false_iff_ne] at h
  omega

theorem crWriteMedlar_frame (n v : Nat) (m : Medlar) : crWriteMedlar n v m =
    { m with fpctl := (crWriteMedlar n v m).fpctl, fpflags := (crWriteMedlar n v m).fpflags
             trapVec := (crWriteMedlar n v m).trapVec, trapPc := (crWriteMedlar n v m).trapPc
             trapCause := (crWriteMedlar n v m).trapCause, trapAddr := (crWriteMedlar n v m).trapAddr
             ctx := (crWriteMedlar n v m).ctx, scratch := (crWriteMedlar n v m).scratch } := by
  unfold crWriteMedlar
  split <;> rfl

theorem crRead_crWrite_self {n : Nat} (c v : Nat) (m : Medlar) (s : State) (hv : v < 2 ^ 64)
    (h : (crExists false n && !crReadOnly n) = true) : crReadMedlar c n (crWriteMedlar n v m) s = (v &&& crMask n, s) := by
  have hlt : (v &&& crMask n) % 2 ^ 64 = v &&& crMask n := Nat.mod_eq_of_lt (Nat.lt_of_le_of_lt Nat.and_le_left hv)
  rcases crWritable_cases h with rfl | rfl | rfl | rfl | rfl | rfl | rfl | rfl <;>
    simp only [crReadMedlar, crWriteMedlar, BitVec.toNat_ofNat, hlt]

/-- A control register's write shows in no other control register. -/
theorem crRead_crWrite_of_ne {n k : Nat} (c v : Nat) (m : Medlar) (s : State) (h : (crExists false n && !crReadOnly n) = true)
    (hk : k ≠ n) (hex : crExists false k = true) :
    (crReadMedlar c k (crWriteMedlar n v m) s).1 = (crReadMedlar c k m s).1 := by
  have hrange : k ≤ 3 ∨ 0x100 ≤ k ∧ k ≤ 0x106 := by simpa [crExists] using hex
  have hcases : k = 0 ∨ k = 1 ∨ k = 2 ∨ k = 3 ∨ k = 0x100 ∨ k = 0x101 ∨ k = 0x102 ∨ k = 0x103 ∨ k = 0x104 ∨ k = 0x105 ∨
      k = 0x106 := by omega
  rcases hcases with rfl | rfl | rfl | rfl | rfl | rfl | rfl | rfl | rfl | rfl | rfl <;>
    rcases crWritable_cases h with rfl | rfl | rfl | rfl | rfl | rfl | rfl | rfl <;>
    simp [crReadMedlar, crWriteMedlar] at hk ⊢

theorem exec_crr_medlar {c w n : Nat} {s : State} (hi : MedlarIssues .crr c w s) (hn : crNumber w = some n)
    (hr : MedlarRegs (noPred (iFields w) && crExists false n) (crKinds false) { iFields w with b := 0, c := 0 }) :
    exec (.crr (.medlar c) w) s = .next (medlarRetired c w (setG (iFields w).d (crReadMedlar c n (medlarOf s c) s).1
      (medlarOf s c)) (crReadMedlar c n (medlarOf s c) s).2) := by
  obtain ⟨hok, hregs⟩ := hr
  change execCrr (.medlar c) w s = _
  rw [execCrr, crNumber_getD hn]
  exact issueMedlar_of_done hi (withRegs_of_legal _ _ _ hok hregs)

theorem exec_crr_group {g w n : Nat} {x : Group} {s : State} (hn : crNumber w = some n)
    (hi : GroupIssues .crr g w (usedRegs (crKinds false) (iFields w).d 0 0 0 false 0) x s)
    (hr : GroupRegs s g (noPred (iFields w) && crExists true n) (crKinds false) { iFields w with b := 0, c := 0 }) :
    exec (.crr (.group g) w) s = .next (groupRetired g w 0 x (setS (iFields w).d (crReadGroup x n s).1 x.arch)
      (crReadGroup x n s).2) := by
  obtain ⟨hok, hregs⟩ := hr
  change execCrr (.group g) w s = _
  rw [execCrr, crNumber_getD hn]
  exact issueGroup_of_done hi (withRegs_of_legal _ _ _ hok hregs)

theorem crReadMedlar_state (c n : Nat) (m : Medlar) (s : State) : ∃ k, (crReadMedlar c n m s).2 = { s with freeN := k } := by
  unfold crReadMedlar
  split <;> exact ⟨_, rfl⟩

theorem crReadGroup_state (x : Group) (n : Nat) (s : State) : ∃ k, (crReadGroup x n s).2 = { s with freeN := k } := by
  unfold crReadGroup
  split <;> exact ⟨_, rfl⟩

/-- Settles O24: the guards of each instruction hold, and what it reads or writes is the control register named. -/
theorem systemInstructionsExecute : Obligations.SystemInstructionsExecute := by
  refine ⟨?nop, ?nopGroup, ?ends, ?tret, ?tretApp, ?trap, ?trapGroup, ?crr, ?crrGroup, ?crw, ?crwApp, ?crwGroup⟩
  case nop =>
    intro c w s hi hplain
    change execNopInstruction (.medlar c) w s = _
    rw [execNopInstruction]
    exact issueMedlar_of_done hi (if_pos hplain)
  case nopGroup =>
    intro g w x s hi hplain
    change execNopInstruction (.group g) w s = _
    rw [execNopInstruction]
    exact issueGroup_of_done hi (if_pos hplain)
  case ends =>
    intro g w x l s hi hplain hregion hstack hloads hl
    obtain ⟨hg, _, _, _⟩ := id hi
    have hcount : countEnded (launchKey g) s = { s with grp := { s.grp with
        launches := s.grp.launches.put (launchKey g) { l with ended := l.ended + 1 } } } := by simp only [countEnded, hl]
    have hg' : groupOf (countEnded (launchKey g) s) g = some x := by rw [hcount]; exact hg
    obtain ⟨hgroups, hmem, hended⟩ := removeGroup_keeps hg' (launchKey g)
    have hfind : ∀ k, groupOf (bump (K.groupIssueBeats + x.die) 0 (removeGroup g (countEnded (launchKey g) s))) k =
        (s.grp.groups.del g).find k := fun k => by rw [groupOf_bump, groupOf, hgroups, hcount]
    rw [hcount, Tab.find_put_self, Option.map_some, Option.map_eq_some_iff] at hended
    obtain ⟨l', hl', hn⟩ := hended
    refine ⟨_, l', exec_endGroup hi hplain hregion hstack hloads, ?_, ?_, hn, fun g' hne => ?_, ?_⟩
    · rw [hfind, Tab.find_del_self]
    · rw [bump_grp, hcount]
      exact hl'
    · rw [hfind, Tab.find_del_of_ne _ hne, groupOf]
    · rw [bump_mem, hmem, hcount]
  case tret =>
    intro c w s hi hplain hrun hheld
    have hexec : exec (.tret (.medlar c) w) s = .next (setMedlar c { medlarOf s c with
        runtime := (medlarOf s c).trapCause.getLsbD 9, pc := (medlarOf s c).trapPc } s) := by
      change execTret (.medlar c) w s = _
      rw [execTret]
      refine issueMedlar_of_done hi ?_
      simp only [hplain, hrun, hheld, Bool.not_true, Bool.false_eq_true, if_false]
    refine ⟨_, hexec, ?_, ?_, ?_, fun d hd => medlarOf_setMedlar_of_ne _ _ hd, rfl⟩ <;> rw [medlarOf_setMedlar_self]
  case tretApp =>
    intro c w s hi hplain happ
    change ∃ t, execTret (.medlar c) w s = _ ∧ _
    rw [execTret]
    refine privileged_traps hi (by decide) happ ?_
    simp only [hplain, happ, Bool.not_true, Bool.not_false, Bool.false_eq_true, if_false, if_true]
  case trap =>
    intro c w s hi hok
    have hexec : exec (.trap (.medlar c) w) s =
        .next (medlarTrap c .software (bits w 32 32) ((medlarOf s c).pc + 8#64) false s) := by
      change execTrap (.medlar c) w s = _
      rw [execTrap]
      refine issueMedlar_of_done hi ?_
      simp only [hok, Bool.not_true, Bool.false_eq_true, if_false]
    refine ⟨_, hexec, ?_⟩
    simp only [medlarOf_medlarTrap_self, Bool.false_eq_true, if_false, Nat.add_zero, and_self]
  case trapGroup =>
    intro g w x s hi hok
    obtain ⟨hg, hwaits, _, _⟩ := id hi
    have hexec : exec (.trap (.group g) w) s =
        .next (groupTrap g (plainFault .software (bits w 32 32) (launchCtx s (launchKey g))) s) := by
      change execTrap (.group g) w s = _
      rw [execTrap]
      refine issueGroup_of_trap hi ?_
      simp only [hok, Bool.not_true, Bool.false_eq_true, if_false]
    refine ⟨_, _, { plainFault .software (bits w 32 32) (launchCtx s (launchKey g)) with time := label x.die s }, hexec,
      groupOf_groupTrap_self hg, rfl, ?_, rfl, rfl⟩
    rw [groupWaits_faults hwaits, List.nil_append]
  case crr =>
    intro c w n s hi hn hr
    obtain ⟨k, hk⟩ := crReadMedlar_state c n (medlarOf s c) s
    have hexec := exec_crr_medlar hi hn hr
    rw [hk] at hexec
    refine ⟨_, k, hexec, ?_, ?_, ?_, ?_, ?_, ?_, ?_, ?_, ?_, ?_⟩ <;> (rintro rfl; rfl)
  case crrGroup =>
    intro g w n x s hn hi hr
    obtain ⟨k, hk⟩ := crReadGroup_state x n s
    have hexec := exec_crr_group hn hi hr
    rw [hk] at hexec
    refine ⟨_, k, hexec, ?_, ?_, ?_⟩ <;> (rintro rfl; rfl)
  case crw =>
    intro c w n s hi hn hr hmay
    obtain ⟨hok, hregs⟩ := hr
    have hwr : (crExists false n && !crReadOnly n) = true := by
      simp only [Bool.and_eq_true] at hok ⊢
      exact ⟨hok.1.2, hok.2⟩
    refine ⟨crWriteMedlar n (gReg (medlarOf s c) (iFields w).a) (medlarOf s c), ?_, crWriteMedlar_frame .., ?_, ?_⟩
    · change execCrw (.medlar c) w s = _
      rw [execCrw, crNumber_getD hn]
      refine issueMedlar_of_done hi ((withRegs_of_legal _ _ _ hok hregs).trans ?_)
      have hguard : (!(medlarOf s c).runtime && !(n == 0 || n == 1 || n == 0x106)) = false := by
        rcases hmay with h | rfl | rfl | rfl <;> simp [*]
      simp only [hguard, Bool.false_eq_true, if_false, medlarNext, medlarRetired]
    · exact crRead_crWrite_self _ _ _ _ (gReg_lt ..) hwr
    · exact fun k hk hex => crRead_crWrite_of_ne _ _ _ _ hwr hk hex
  case crwApp =>
    intro c w n s hi hn hr happ h0 h1 h106
    obtain ⟨hok, hregs⟩ := hr
    change ∃ t, execCrw (.medlar c) w s = _ ∧ _
    rw [execCrw, crNumber_getD hn]
    refine privileged_traps hi (by decide) happ ((withRegs_of_legal _ _ _ hok hregs).trans ?_)
    have hguard : (!(medlarOf s c).runtime && !(n == 0 || n == 1 || n == 0x106)) = true := by simp [happ, h0, h1, h106]
    simp only [hguard, if_true]
  case crwGroup =>
    intro g w n x s hn hi hr
    obtain ⟨hok, hregs⟩ := hr
    change execCrw (.group g) w s = _
    rw [execCrw, crNumber_getD hn]
    exact issueGroup_of_done hi (withRegs_of_legal _ _ _ hok hregs)

end Sys2Proof.Machine

/-! ### Local accesses (O26) -/

namespace Sys2Proof.Machine

theorem reconverge_localMem (n : Nat) (a : Arch) : (reconverge n a).localMem = a.localMem := by
  fun_induction reconverge n a with
  | case1 => rfl
  | case2 => rfl
  | case3 => rfl
  | case4 n a e rest hstack hpc hpaths ih => exact ih
  | case5 n a e rest hstack hpc p m ps hpaths ih => exact ih

theorem goNext_keeps (w : Nat) (a : Arch) : (goNext w a).v = a.v ∧ (goNext w a).s = a.s ∧ (goNext w a).p = a.p ∧
    (goNext w a).localMem = a.localMem := by
  obtain ⟨hv, hs, hp⟩ := reconverge_regs 1100 { a with pc := a.pc + BitVec.ofNat 64 (wsize w) }
  exact ⟨hv, hs, hp, reconverge_localMem ..⟩

/-! The lanes of an access -/

theorem mem_setBitsOf {n x i : Nat} : i ∈ setBitsOf n x ↔ i < n ∧ bit x i = true := by
  rw [setBitsOf, List.mem_filter, List.mem_range]

theorem mem_accessLanes {a : Arch} {f : MFields} {i : Nat} :
    i ∈ accessLanes a f false ↔ i < 32 ∧ bit (execMask a f.pe f.pn f.preg) i = true := by
  rw [accessLanes, if_neg Bool.false_ne_true, mem_setBitsOf]

theorem nodup_accessLanes (a : Arch) (f : MFields) : (accessLanes a f false).Nodup := by
  rw [accessLanes, if_neg Bool.false_ne_true, setBitsOf]
  exact List.nodup_range.filter _

/-- The mask of an access's lanes. -/
theorem bit_lanesMask {n x i : Nat} (hi : i < n) : bit ((setBitsOf n x).foldl (fun k i => k + 2 ^ i) 0) i = bit x i := by
  rw [setBitsOf, List.foldl_filter, bit_mask, decide_eq_true hi, Bool.true_and]

/-! Reads of the local store -/

theorem localRead_succ (a : Arch) (addr n : Nat) :
    localRead a addr (n + 1) = (a.localMem.get 0#8 addr).toNat + 256 * localRead a (addr + 1) n := by
  rw [localRead, List.range_succ_eq_map, List.foldr_cons, List.foldr_map, localRead]
  simp only [Nat.add_zero, Nat.succ_eq_add_one, Nat.add_assoc, Nat.add_comm 1]

theorem localRead_lt (a : Arch) (addr n : Nat) : localRead a addr n < 2 ^ (8 * n) := by
  induction n generalizing addr with
  | zero => exact Nat.one_pos
  | succ n ih =>
    have hb := (a.localMem.get 0#8 addr).isLt
    have := ih (addr + 1)
    rw [localRead_succ, show 8 * (n + 1) = 8 + 8 * n by omega, Nat.pow_add]
    omega

theorem localRead_of_bytes {a : Arch} {addr n v : Nat}
    (h : ∀ i, i < n → a.localMem.get 0#8 (addr + i) = BitVec.ofNat 8 (bits v (8 * i) 8)) :
    localRead a addr n = v % 2 ^ (8 * n) := by
  induction n generalizing addr v with
  | zero => rw [Nat.mul_zero, Nat.pow_zero, Nat.mod_one]; rfl
  | succ n ih =>
    have h0 := h 0 (Nat.succ_pos n)
    have hrest : localRead a (addr + 1) n = v / 256 % 2 ^ (8 * n) := ih fun i hi => by
      have hi' := h (i + 1) (Nat.succ_lt_succ hi)
      rw [show addr + (i + 1) = addr + 1 + i by omega] at hi'
      rw [hi', bits_eq, bits_eq, Nat.div_div_eq_div_mul, show 8 * (i + 1) = 8 + 8 * i by omega, Nat.pow_add]
    rw [localRead_succ, hrest, show 8 * (n + 1) = 8 + 8 * n by omega, Nat.pow_add, Nat.mod_mul]
    rw [Nat.add_zero] at h0
    rw [h0, BitVec.toNat_ofNat, Nat.mod_eq_of_lt (bits_lt ..), bits_eq]
    simp

/-! Writes of the local store -/

theorem get_localWrite (addr n v : Nat) (a : Arch) (b : Nat) : (localWrite addr n v a).localMem.get 0#8 b =
    if addr ≤ b ∧ b < addr + n then BitVec.ofNat 8 (bits v (8 * (b - addr)) 8) else a.localMem.get 0#8 b := by
  rw [localWrite]
  induction n with
  | zero => rw [if_neg (by omega)]; rfl
  | succ n ih =>
    rw [List.range_succ, List.foldl_append, List.foldl_cons, List.foldl_nil]
    by_cases hb : b = addr + n
    · subst hb
      rw [Tab.get_set_self, if_pos (by omega), Nat.add_sub_cancel_left]
    · rw [Tab.get_set_of_ne _ _ _ hb, ih]
      exact ite_congr (propext (by omega)) (fun _ => rfl) fun _ => rfl

theorem localWrite_keeps (addr n v : Nat) (a : Arch) :
    (localWrite addr n v a).v = a.v ∧ (localWrite addr n v a).s = a.s ∧ (localWrite addr n v a).p = a.p := by
  rw [localWrite]
  generalize List.range n = l
  induction l generalizing a with
  | nil => exact ⟨rfl, rfl, rfl⟩
  | cons i l ih => exact ih _

/-- The lanes' writes, one after another. -/
def localWrites (n : Nat) (val : LaneTry → Nat) (ts : List LaneTry) (a : Arch) : Arch :=
  ts.foldl (fun b t => localWrite t.va n (val t) b) a

theorem localWrites_keeps (n : Nat) (val : LaneTry → Nat) (ts : List LaneTry) (a : Arch) :
    (localWrites n val ts a).v = a.v ∧ (localWrites n val ts a).s = a.s ∧ (localWrites n val ts a).p = a.p := by
  induction ts generalizing a with
  | nil => exact ⟨rfl, rfl, rfl⟩
  | cons t ts ih =>
    obtain ⟨hv, hs, hp⟩ := localWrite_keeps t.va n (val t) a
    rw [← hv, ← hs, ← hp]
    exact ih _

theorem get_localWrites_of_outside {n b : Nat} (val : LaneTry → Nat) {ts : List LaneTry} (a : Arch)
    (h : ∀ t, t ∈ ts → b < t.va ∨ t.va + n ≤ b) : (localWrites n val ts a).localMem.get 0#8 b = a.localMem.get 0#8 b := by
  induction ts generalizing a with
  | nil => rfl
  | cons t ts ih =>
    have ht := h t List.mem_cons_self
    refine (ih (localWrite t.va n (val t) a) fun u hu => h u (List.mem_cons_of_mem t hu)).trans ?_
    rw [get_localWrite, if_neg (by omega)]

/-- A lane's bytes, where no lane behind it in the order overlaps it. -/
theorem localRead_localWrites {n : Nat} (val : LaneTry → Nat) {pre post : List LaneTry} {t : LaneTry} (a : Arch)
    (h : ∀ u, u ∈ post → t.va + n ≤ u.va ∨ u.va + n ≤ t.va) :
    localRead (localWrites n val (pre ++ t :: post) a) t.va n = val t % 2 ^ (8 * n) := by
  refine localRead_of_bytes fun i hi => ?_
  rw [localWrites, List.foldl_append, List.foldl_cons]
  refine (get_localWrites_of_outside val _ fun u hu => ?_).trans ?_
  · have := h u hu
    omega
  · rw [get_localWrite, if_pos (by omega), Nat.add_sub_cancel_left]

theorem mem_shuffle {α : Type} (v : Nat) (l : List α) (x : α) : x ∈ shuffle v l ↔ x ∈ l := by
  induction l generalizing v with
  | nil => exact Iff.rfl
  | cons y ys ih =>
    have hsplit : x ∈ ys ↔ x ∈ (shuffle (v / (ys.length + 1)) ys).take (v % (ys.length + 1)) ∨
        x ∈ (shuffle (v / (ys.length + 1)) ys).drop (v % (ys.length + 1)) := by
      rw [← List.mem_append, List.take_append_drop, ih]
    rw [shuffle, List.mem_append, List.mem_cons, List.mem_cons, hsplit]
    exact or_left_comm

theorem lanesOverlap_eq_false {n : Nat} {ts : List LaneTry}
    (h : ts.Pairwise fun t u => t.va + n ≤ u.va ∨ u.va + n ≤ t.va) : lanesOverlap n ts = false := by
  induction ts with
  | nil => rfl
  | cons t ts ih =>
    obtain ⟨hhead, htail⟩ := List.pairwise_cons.1 h
    rw [lanesOverlap, ih htail, Bool.or_false, List.any_eq_false]
    intro u hu
    have := hhead u hu
    simp
    omega

theorem firstBad_of_ok {ts : List LaneTry} (h : ∀ t, t ∈ ts → ∃ x, t.res = .ok x) : firstBad ts = none := by
  rw [firstBad]
  induction ts with
  | nil => rfl
  | cons t ts ih =>
    obtain ⟨x, hx⟩ := h t List.mem_cons_self
    rw [List.foldl_cons, hx]
    exact ih fun u hu => h u (List.mem_cons_of_mem t hu)

/-! LOCAL -/

/-- A lane of a local access with its address, at the address itself. -/
def localTry (f : MFields) (a : Arch) (i : Nat) : LaneTry :=
  { lane := i, va := laneLocal f a i
    res := .ok { ctx := 0, seg := 0, gen := 0, epoch := 0, domain := 0, partition := 0, tracked := false, region := 0,
                 target := .memory (laneLocal f a i) } }

/-- The lanes' data, in D. -/
def laneData (n : Nat) (f : MFields) (a : Arch) (t : LaneTry) : Nat := vOperand a (8 * n) f.d t.lane

theorem accessBytes_of_localOk {f : MFields} (h : localOk f = true) :
    accessBytes f.width = 1 ∨ accessBytes f.width = 2 ∨ accessBytes f.width = 4 ∨ accessBytes f.width = 8 := by
  simp only [localOk, Bool.and_eq_true, decide_eq_true_eq] at h
  have hw : f.width ≤ 3 := h.1.1.1.1.2
  rcases (by omega : f.width = 0 ∨ f.width = 1 ∨ f.width = 2 ∨ f.width = 3) with h | h | h | h <;> simp [accessBytes, h]

section
variable {g w n : Nat} {f : MFields} {x : Group} {s : State} (hn : n = accessBytes f.width)
  (hlanes : ∀ i, i ∈ accessLanes x.arch f false → laneLocal f x.arch i % n = 0 ∧
    laneLocal f x.arch i + n ≤ localBytes (launchRaw s (launchKey g)))
include hn hlanes

theorem groupLocal_load : groupLocal g w f false x s = groupNext g w x (setVOperand (8 * n) f.d
    ((accessLanes x.arch f false).foldl (fun k i => k + 2 ^ i) 0)
    (fun i => laneValue n f.sx (localRead x.arch (laneLocal f x.arch i) n)) x.arch) s := by
  subst hn
  rw [groupLocal]
  dsimp only
  rw [firstBad_of_ok]
  · simp only [Bool.false_eq_true, if_false]
  · intro t ht
    obtain ⟨i, hi, rfl⟩ := List.mem_map.1 ht
    obtain ⟨hal, hin⟩ := hlanes i hi
    exact ⟨_, by rw [if_neg (Classical.not_not.2 hal), if_neg (Nat.not_lt.2 hin)]⟩

/-- A store writes its lanes in some order, the given one where they do not overlap. -/
theorem groupLocal_store : ∃ ts t, t.mem = s.mem ∧ t.reqs = s.reqs ∧
    groupLocal g w f true x s = groupNext g w x (localWrites n (laneData n f x.arch) ts x.arch) t ∧
    (∀ u, u ∈ ts ↔ u ∈ (accessLanes x.arch f false).map (localTry f x.arch)) ∧
    (lanesOverlap n ((accessLanes x.arch f false).map (localTry f x.arch)) = false →
      ts = (accessLanes x.arch f false).map (localTry f x.arch)) := by
  have htries : ((accessLanes x.arch f false).map fun i =>
      ({ lane := i, va := laneLocal f x.arch i
         res := if laneLocal f x.arch i % n ≠ 0 then .bad .misaligned 255
                else if laneLocal f x.arch i + n > localBytes (launchRaw s (launchKey g)) then .bad .localRange 255
                else .ok { ctx := 0, seg := 0, gen := 0, epoch := 0, domain := 0, partition := 0, tracked := false, region := 0,
                           target := .memory (laneLocal f x.arch i) } } : LaneTry)) =
      (accessLanes x.arch f false).map (localTry f x.arch) := by
    refine List.map_congr_left fun i hi => ?_
    obtain ⟨hal, hin⟩ := hlanes i hi
    rw [if_neg (Classical.not_not.2 hal), if_neg (Nat.not_lt.2 hin), localTry]
  subst hn
  have hbad : firstBad ((accessLanes x.arch f false).map (localTry f x.arch)) = none := firstBad_of_ok fun t ht => by
    obtain ⟨i, -, rfl⟩ := List.mem_map.1 ht
    exact ⟨_, rfl⟩
  have heq : groupLocal g w f true x s = if lanesOverlap (accessBytes f.width) ((accessLanes x.arch f false).map (localTry f x.arch))
      then groupNext g w x (localWrites (accessBytes f.width) (laneData (accessBytes f.width) f x.arch)
        (shuffle (takeFree s).1 ((accessLanes x.arch f false).map (localTry f x.arch))) x.arch) (takeFree s).2
      else groupNext g w x (localWrites (accessBytes f.width) (laneData (accessBytes f.width) f x.arch)
        ((accessLanes x.arch f false).map (localTry f x.arch)) x.arch) s := by
    rw [groupLocal]
    dsimp only
    rw [htries, hbad]
    simp only [if_true]
    rfl
  rw [heq]
  split
  next h => exact ⟨_, _, takeFree_mem s, rfl, rfl, fun u => mem_shuffle .., fun h' => absurd (h.symm.trans h') (by decide)⟩
  next h => exact ⟨_, _, rfl, rfl, rfl, fun u => Iff.rfl, fun _ => rfl⟩

end

theorem exec_localAccess {g w : Nat} {x : Group} {s t : State} {a : Arch}
    (hi : GroupIssues .local_ g w (memUses { accessKinds true false (mFields w) with
      a := if (mFields w).am = 2 then .vec else .sc } (mFields w)) x s)
    (hr : GroupMemRegs s g (localOk (mFields w)) { accessKinds true false (mFields w) with
      a := if (mFields w).am = 2 then .vec else .sc } (mFields w))
    (hd : groupLocal g w (mFields w) ((mFields w).opf == 1) x s = groupNext g w x a t) :
    exec (.localAccess (.group g) w) s = .next (groupRetired g w 1 x a t) := by
  obtain ⟨hok, hregs⟩ := hr
  change execLocalAccess (.group g) w s = _
  simp only [execLocalAccess, memGroup]
  exact issueGroup_of_done hi ((withRegs_of_legal _ _ _ hok hregs).trans hd)

theorem groupRetired_reqs (g w beats : Nat) (x : Group) (a : Arch) (s : State) :
    (groupRetired g w beats x a s).reqs = s.reqs := by
  rw [groupRetired, bump_reqs, setGroup_reqs]

theorem setVOperand_keeps (w d mask : Nat) (f : Nat → Nat) (a : Arch) : (setVOperand w d mask f a).s = a.s ∧
    (setVOperand w d mask f a).p = a.p ∧ (setVOperand w d mask f a).localMem = a.localMem := by
  rw [setVOperand]
  split
  · obtain ⟨v, hv⟩ := setVPair_frame d mask f a
    rw [hv]
    exact ⟨rfl, rfl, rfl⟩
  · obtain ⟨v, hv⟩ := setV_frame d mask f a
    rw [hv]
    exact ⟨rfl, rfl, rfl⟩

theorem vLane_of_v {a b : Arch} (h : a.v = b.v) (r i : Nat) : vLane a r i = vLane b r i := by rw [vLane, vLane, h]

theorem vPair_of_v {a b : Arch} (h : a.v = b.v) (r i : Nat) : vPair a r i = vPair b r i := by
  rw [vPair, vPair, vLane_of_v h, vLane_of_v h]

theorem localRead_of_localMem {a b : Arch} (h : a.localMem = b.localMem) (addr n : Nat) :
    localRead a addr n = localRead b addr n := by
  rw [localRead, localRead, h]

theorem vLane_setVOperand_self {w i : Nat} (hw : w ≠ 64) (d mask : Nat) (f : Nat → Nat) (a : Arch) (hi : i < 32)
    (hx : bit mask i = true) : vLane (setVOperand w d mask f a) d i = f i % 2 ^ 32 := by
  rw [setVOperand, if_neg hw, vLane_setV_self _ _ _ _ hi, if_pos hx]

theorem vOperand_lt {w : Nat} (a : Arch) (r i : Nat) : vOperand a w r i < 2 ^ w := by
  rw [vOperand]
  split
  next h64 =>
    have := vLane_lt a r i
    have := vLane_lt a (r + 1) i
    rw [h64, vPair]
    omega
  · exact Nat.mod_lt _ (Nat.two_pow_pos w)

/-- Settles O26: the lanes' accesses are all good, so the load's lanes or the store's bytes are all that changes. -/
theorem localAccessesComplete : Obligations.LocalAccessesComplete := by
  intro g w n x s hn hi hr hlanes
  obtain ⟨_, hwaits, _, _⟩ := id hi
  have hfaults := groupWaits_faults hwaits
  have hwidth := accessBytes_of_localOk hr.1
  rw [← hn] at hwidth
  by_cases hst : (mFields w).opf = 1
  · have hb : ((mFields w).opf == 1) = true := by rw [hst]; rfl
    obtain ⟨ts, t, hmem, hreqs, hdo, hperm, hkeep⟩ := groupLocal_store (w := w) (g := g) hn hlanes
    obtain ⟨hv, hs, hp, hlocal⟩ := goNext_keeps w (localWrites n (laneData n (mFields w) x.arch) ts x.arch)
    obtain ⟨hv', hs', hp'⟩ := localWrites_keeps n (laneData n (mFields w) x.arch) ts x.arch
    refine ⟨_, _, exec_localAccess hi hr (by rw [hb]; exact hdo), groupOf_groupRetired_self .., hfaults, rfl, hs.trans hs',
      hp.trans hp', (groupRetired_mem ..).trans hmem, (groupRetired_reqs ..).trans hreqs, fun h0 => ?_, fun _ => ⟨hv.trans hv', ?_, ?_⟩⟩
    · rw [hst] at h0
      cases h0
    · intro hapart i hil
      have hpair : ((accessLanes x.arch (mFields w) false).map (localTry (mFields w) x.arch)).Pairwise
          fun t u => t.va + n ≤ u.va ∨ u.va + n ≤ t.va := by
        rw [List.pairwise_map]
        exact (nodup_accessLanes x.arch (mFields w)).imp_of_mem fun ha hb hne => hapart _ _ ha hb hne
      obtain ⟨pre, post, hsplit⟩ := List.append_of_mem hil
      rw [hkeep (lanesOverlap_eq_false hpair), hsplit, List.map_append, List.map_cons] at hlocal ⊢
      rw [hsplit, List.map_append, List.map_cons] at hpair
      rw [localRead_of_localMem hlocal]
      refine (localRead_localWrites (t := localTry (mFields w) x.arch i) _ _ fun u hu => ?_).trans
        (Nat.mod_eq_of_lt (vOperand_lt ..))
      exact (List.pairwise_cons.1 (List.pairwise_append.1 hpair).2.1).1 u hu
    · intro b hb'
      rw [hlocal]
      refine get_localWrites_of_outside _ _ fun u hu => ?_
      obtain ⟨i, hil, rfl⟩ := List.mem_map.1 ((hperm u).1 hu)
      exact hb' i hil
  · have hb : ((mFields w).opf == 1) = false := by simpa using hst
    have hdo := groupLocal_load (w := w) (g := g) hn hlanes
    obtain ⟨hv, hs, hp, hlocal⟩ := goNext_keeps w (setVOperand (8 * n) (mFields w).d
      ((accessLanes x.arch (mFields w) false).foldl (fun k i => k + 2 ^ i) 0) (fun i => laneValue n (mFields w).sx
        (localRead x.arch (laneLocal (mFields w) x.arch i) n)) x.arch)
    obtain ⟨hs', hp', hlocal'⟩ := setVOperand_keeps (8 * n) (mFields w).d
      ((accessLanes x.arch (mFields w) false).foldl (fun k i => k + 2 ^ i) 0) (fun i => laneValue n (mFields w).sx
        (localRead x.arch (laneLocal (mFields w) x.arch i) n)) x.arch
    have hmask : ∀ i, i < 32 → bit ((accessLanes x.arch (mFields w) false).foldl (fun k i => k + 2 ^ i) 0) i =
        bit (execMask x.arch (mFields w).pe (mFields w).pn (mFields w).preg) i := fun i hi => by
      rw [accessLanes, if_neg Bool.false_ne_true, bit_lanesMask hi]
    refine ⟨_, _, exec_localAccess hi hr (by rw [hb]; exact hdo), groupOf_groupRetired_self .., hfaults, rfl, hs.trans hs',
      hp.trans hp', groupRetired_mem .., groupRetired_reqs .., fun _ => ⟨hlocal.trans hlocal', ?_, ?_⟩, fun h1 => absurd h1 hst⟩
    · intro i hil
      obtain ⟨hi32, hx⟩ := mem_accessLanes.1 hil
      refine ⟨fun h8 => ?_, fun h8 => ?_⟩
      · rw [vPair_of_v hv, setVOperand, if_pos (by omega), vPair_setVPair_self _ _ _ _ hi32 ((hmask i hi32).trans hx), laneValue,
          if_pos h8]
        subst h8
        exact Nat.mod_eq_of_lt (localRead_lt ..)
      · rw [vLane_of_v hv, vLane_setVOperand_self (by omega) _ _ _ _ hi32 ((hmask i hi32).trans hx)]
    · intro r lane hl32 hout
      rw [vLane_of_v hv]
      rcases hout with hinactive | ⟨hne, hne1⟩
      · refine vLane_setVOperand_of_inactive _ _ _ _ _ hl32 ?_
        rw [hmask lane hl32]
        exact Bool.eq_false_iff.2 fun hx => hinactive (mem_accessLanes.2 ⟨hl32, hx⟩)
      · rw [vLane, v_setVOperand_of_ne _ _ _ hne fun h64 => hne1 (by omega), vLane]

end Sys2Proof.Machine

/-! ### What a Medlar core's own step leaves as it was -/

namespace Sys2Proof.Machine

/-- s without what a Medlar core's own steps touch: what requests touch that leave, the cores, and messages of coherence. -/
def offCores (s : State) : State :=
  unsent { s with medlars := State.reset.medlars, coh := { s.coh with msgs := [] } }

/-- From s to t core c alone goes on, with its lines and its store buffer as they were: it may ask for lines and send
requests. -/
structure CoreStep (c : Nat) (s t : State) : Prop where
  frame : offCores t = offCores s
  others : ∀ d, d ≠ c → medlarOf t d = medlarOf s d
  lines : (medlarOf t c).lines = (medlarOf s c).lines
  sb : (medlarOf t c).sb = (medlarOf s c).sb
  msgs : ∃ asks, t.coh.msgs = s.coh.msgs ++ asks

namespace CoreStep
variable {c : Nat} {s t u : State}

theorem refl (c : Nat) (s : State) : CoreStep c s s := ⟨rfl, fun _ _ => rfl, rfl, rfl, [], (List.append_nil _).symm⟩

theorem trans (h : CoreStep c s t) (h' : CoreStep c t u) : CoreStep c s u := by
  obtain ⟨a, ha⟩ := h.msgs
  obtain ⟨b, hb⟩ := h'.msgs
  exact ⟨h'.frame.trans h.frame, fun d hd => (h'.others d hd).trans (h.others d hd), h'.lines.trans h.lines, h'.sb.trans h.sb,
    a ++ b, by rw [hb, ha, List.append_assoc]⟩

theorem mem (h : CoreStep c s t) : t.mem = s.mem := (congrArg State.mem h.frame :)
theorem time (h : CoreStep c s t) : t.time = s.time := (congrArg State.time h.frame :)
theorem dir (h : CoreStep c s t) : t.coh.dir = s.coh.dir := (congrArg (fun x => x.coh.dir) h.frame :)
theorem txns (h : CoreStep c s t) : t.coh.txns = s.coh.txns := (congrArg (fun x => x.coh.txns) h.frame :)
theorem grp (h : CoreStep c s t) : t.grp = s.grp := (congrArg State.grp h.frame :)

theorem of_unsent (h : unsent t = unsent s) : CoreStep c s t := by
  have hm := medlars_of_unsent h
  have hmed : ∀ d, medlarOf t d = medlarOf s d := fun d => by rw [medlarOf, hm, medlarOf]
  refine ⟨?_, fun d _ => hmed d, by rw [hmed], by rw [hmed], [], by rw [coh_of_unsent h, List.append_nil]⟩
  exact congrArg (fun x : State => { x with medlars := State.reset.medlars, coh := { x.coh with msgs := [] } }) h

theorem setMedlar {m : Medlar} (hl : m.lines = (medlarOf s c).lines) (hs : m.sb = (medlarOf s c).sb) :
    CoreStep c s (setMedlar c m s) := by
  refine ⟨rfl, fun d hd => medlarOf_setMedlar_of_ne m s hd, ?_, ?_, [], (List.append_nil _).symm⟩
  · rw [medlarOf_setMedlar_self, hl]
  · rw [medlarOf_setMedlar_self, hs]

theorem foldl {α : Type} {f : State → α → State} (h : ∀ t x, CoreStep c t (f t x)) (l : List α) (s : State) :
    CoreStep c s (l.foldl f s) := by
  induction l generalizing s with
  | nil => exact refl c s
  | cons x l ih => exact (h s x).trans (ih (f s x))

end CoreStep

theorem drainComb_coreStep (c : Nat) (s : State) : CoreStep c s (drainComb c s) := by
  have h : CoreStep c s (setMedlar c { medlarOf s c with comb := [] } s) := .setMedlar rfl rfl
  exact h.trans (.of_unsent (drainComb_unsent c s))

theorem medlarTrap_coreStep (c : Nat) (cause : Cause) (addr : Nat) (tpc : BitVec 64) (imprecise : Bool) (s : State) :
    CoreStep c s (medlarTrap c cause addr tpc imprecise s) :=
  ((drainComb_coreStep c s).trans (.of_unsent (bump_unsent _ _ _))).trans (.setMedlar rfl rfl)

theorem takeHeld_coreStep (c : Nat) (s : State) : CoreStep c s (takeHeld c s) := by
  rw [takeHeld]
  split
  · exact .refl c s
  · split
    · exact .refl c s
    · refine CoreStep.trans ?_ (medlarTrap_coreStep ..)
      exact .setMedlar rfl rfl

theorem medlarWriteDest_keeps (d : Dest) (w : Nat) (sx : Bool) (x : Nat) (m : Medlar) :
    (medlarWriteDest d w sx x m).lines = m.lines ∧ (medlarWriteDest d w sx x m).sb = m.sb := by
  unfold medlarWriteDest
  split <;> exact ⟨rfl, rfl⟩

theorem retireLoads_coreStep (c n : Nat) (s : State) : CoreStep c s (retireLoads c n s) := by
  induction n generalizing s with
  | zero => exact takeHeld_coreStep c s
  | succ n ih =>
    rw [retireLoads]
    split
    · exact takeHeld_coreStep c s
    next l rest hloads =>
      split
      · exact .refl c s
      · split
        · exact medlarTrap_coreStep ..
        · split
          · exact medlarTrap_coreStep ..
          · obtain ⟨hlines, hsb⟩ := medlarWriteDest_keeps l.dest l.width l.sx (l.got.get 0 0) { medlarOf s c with loads := rest }
            exact (CoreStep.setMedlar hlines hsb).trans (ih _)

theorem onLoad_coreStep (c id : Nat) (f : PendLoad → PendLoad) (s : State) : CoreStep c s (onLoad c id f s) := by
  refine CoreStep.trans ?_ (retireLoads_coreStep ..)
  exact .setMedlar rfl rfl

theorem medlarPart_coreStep (c id shift val : Nat) (poison : Bool) (s : State) :
    CoreStep c s (medlarPart c id shift val poison s) := onLoad_coreStep ..

theorem noteSeg_coreStep (c : Nat) (x : Xl) (s : State) : CoreStep c s (noteSeg c x s) := by
  rw [noteSeg]
  split
  · exact .refl c s
  · exact .setMedlar rfl rfl

theorem askLine_coreStep (c d line : Nat) (k : CohKind) (x : Xl) (va : Nat) (demand : Bool) (s : State) :
    CoreStep c s (askLine d line k x va demand s) := by
  rw [askLine]
  split
  · exact .refl c s
  · exact ⟨rfl, fun _ _ => rfl, rfl, rfl, _, rfl⟩

theorem startPart_coreStep (c : Nat) (w : WaitLoad) (s : State) : CoreStep c s (startPart c w s) := by
  unfold startPart
  split
  · dsimp only
    split
    · exact (noteSeg_coreStep ..).trans (medlarPart_coreStep ..)
    · refine (noteSeg_coreStep c w.xl s).trans (CoreStep.trans ?_ (askLine_coreStep ..))
      exact .setMedlar rfl rfl
  · exact .of_unsent (issueReq_unsent ..)

theorem replayLoads_coreStep (c line : Nat) (s : State) : CoreStep c s (replayLoads c line s) := by
  refine CoreStep.foldl (fun t l => ?_) _ s
  have hb : CoreStep c t (bump (K.medlarLoadReplays + (dieOfCore c - 8)) 1 t) := .of_unsent (bump_unsent _ _ _)
  refine (hb.trans (.setMedlar ?_ ?_)).trans (CoreStep.foldl (fun v p => startPart_coreStep c p v) _ _)
  · rw [medlarOf_bump]
  · rw [medlarOf_bump]

theorem serveWaiting_coreStep (c line : Nat) (d : Line) (poison : Bool) (s : State) :
    CoreStep c s (serveWaiting c line d poison s) := by
  refine CoreStep.trans ?_ (CoreStep.foldl (fun _ _ => medlarPart_coreStep ..) _ _)
  exact .setMedlar rfl rfl

/-- With one pending load at most none is behind another, and none replays. -/
theorem replayLoads_of_few {c line : Nat} {s : State} (h : (medlarOf s c).loads.length ≤ 1) : replayLoads c line s = s := by
  rw [replayLoads]
  dsimp only
  rw [List.drop_eq_nil_of_le h]
  rfl

end Sys2Proof.Machine

/-! ### What the Benches' work leaves as it was -/

namespace Sys2Proof.Machine

/-- s without what the work of the Benches and the schedulers touches: memory, records, events and the count of free values. -/
def offBench (s : State) : State :=
  { s with dict := State.reset.dict, ev := State.reset.ev, mem := State.reset.mem, freeN := 0 }

theorem foldl_offBench {α : Type} {f : State → α → State} (h : ∀ t x,
    offBench (f t x) = offBench t) (l : List α) (s : State) :
    offBench (l.foldl f s) = offBench s := foldl_frame offBench f h l s

theorem offBench_ite (c : Prop) [Decidable c] (s t : State) :
    offBench (if c then s else t) = if c then offBench s else offBench t := apply_ite offBench c s t

theorem offBench_setMem (s : State) (x : MemSys) : offBench { s with mem := x } = offBench s := rfl




theorem setDv_offBench (key v : Nat) (s : State) : offBench (setDv key v s) = offBench s := rfl

theorem takeFree_offBench (s : State) : offBench (takeFree s).2 = offBench s := rfl

theorem raise_offBench (code source : Nat) (arg0 arg1 : Nat) (s : State) :
    offBench (raise code source arg0 arg1 s) = offBench s := rfl

theorem sumErr_offBench (b : Nat) (s : State) : offBench (sumErr b s) = offBench s := rfl

theorem bumpRaw_offBench (key n : Nat) (s : State) : offBench (bumpRaw key n s).1 = offBench s := by
  grind [bumpRaw, setDv_offBench]

theorem saturated_offBench (key : Nat) (s : State) : offBench (saturated key s) = offBench s := rfl

theorem bump_offBench (key n : Nat) (s : State) : offBench (bump key n s) = offBench s := by
  simp only [bump, bumpRaw_offBench, saturated_offBench, offBench_ite, ite_self]

theorem touchLine_offBench (line : Nat) (s : State) : offBench (touchLine line s) = offBench s := rfl

theorem setSpoil_offBench (slice : Nat) (q : List (Nat × BLine)) (s : State) :
    offBench (setSpoil slice q s) = offBench s := rfl

theorem pickVictim_offBench (line : Nat) (s : State) : offBench (pickVictim line s).2 = offBench s := by
  unfold pickVictim
  repeat' split
  all_goals simp only [offBench_setMem]

theorem benchDrop_offBench (line : Nat) (s : State) : offBench (benchDrop line s) = offBench s := rfl

theorem benchPut_offBench (line : Nat) (b : BLine) (s : State) : offBench (benchPut line b s) = offBench s := rfl

theorem recallLine_offBench (line : Nat) (s : State) : offBench (recallLine line s) = offBench s := by
  grind [recallLine, touchLine_offBench, setSpoil_offBench, pickVictim_offBench, benchDrop_offBench, bump_offBench,
    benchPut_offBench]

theorem foundCorrected_offBench (line : Nat) (s : State) : offBench (foundCorrected line s) = offBench s := by
  simp only [foundCorrected, sumErr_offBench, bump_offBench]

theorem foundUncorrectable_offBench (line : Nat) (s : State) : offBench (foundUncorrectable line s) = offBench s := by
  simp only [foundUncorrectable, raise_offBench, sumErr_offBench, setDv_offBench, bump_offBench]

theorem decodeHalf_offBench (line x : Nat) (f : Fetched128) (s : State) :
    offBench (decodeHalf line x f s).2 = offBench s := by
  unfold decodeHalf
  repeat' split
  all_goals simp only [foundCorrected_offBench, foundUncorrectable_offBench]

theorem hbmHalf_offBench (line x : Nat) (s : State) : offBench (hbmHalf line x s).2 = offBench s := by
  grind [hbmHalf, decodeHalf_offBench]

theorem fillHalf_offBench (line x : Nat) (tracked : Bool) (s : State) :
    offBench (fillHalf line x tracked s).2 = offBench s := by
  simp only [fillHalf, hbmHalf_offBench, benchPut_offBench]

theorem wholePlain_offBench (line : Nat) (s : State) : offBench (wholePlain line s).2 = offBench s := by
  grind [wholePlain, recallLine_offBench, bump_offBench, fillHalf_offBench]

theorem zmapGet_offBench (line : Nat) (s : State) : offBench (zmapGet line s).2 = offBench s := by
  grind [zmapGet, wholePlain_offBench]

theorem zmapSet_offBench (line : Nat) (v : Bool) (s : State) : offBench (zmapSet line v s) = offBench s := by
  unfold zmapSet
  repeat' split
  all_goals simp only [wholePlain_offBench, benchPut_offBench, offBench_ite, ite_self, offBench_setMem]

theorem setSched_offBench (pc : Nat) (q : List HbmReq) (s : State) : offBench (setSched pc q s) = offBench s := rfl

theorem schedPush_offBench (r : HbmReq) (s : State) : offBench (schedPush r s) = offBench s := by
  simp only [schedPush, bump_offBench, setSched_offBench, offBench_ite, ite_self]

theorem schedWrite_offBench (line : Nat) (d : Line) (m : BitVec 128) (poison : Bool) (s : State) :
    offBench (schedWrite line d m poison s) = offBench s := by
  simp only [schedWrite, schedPush_offBench]

theorem setCtl_offBench (c : Nat) (k : Ctl) (s : State) : offBench (setCtl c k s) = offBench s := rfl

theorem writeBackFull_offBench (line : Nat) (d : Line) (poison : Bool) (s : State) :
    offBench (writeBackFull line d poison s) = offBench s := by
  simp only [writeBackFull, schedWrite_offBench, setCtl_offBench]

theorem wcbDepart_offBench (c : Nat) (e : WcbEntry) (s : State) : offBench (wcbDepart c e s) = offBench s := by
  simp only [wcbDepart, schedWrite_offBench, setCtl_offBench]

theorem wcbMerge_offBench (line : Nat) (d : Line) (m : BitVec 128) (poison : Bool) (s : State) :
    offBench (wcbMerge line d m poison s) = offBench s := by
  grind [wcbMerge, wcbDepart_offBench, setCtl_offBench]

theorem spoilDepart_offBench (line : Nat) (b : BLine) (s : State) : offBench (spoilDepart line b s) = offBench s := by
  unfold spoilDepart
  repeat' split
  all_goals simp only [zmapGet_offBench, bump_offBench, zmapSet_offBench, writeBackFull_offBench, wcbMerge_offBench,
    offBench_ite, ite_self]

theorem evictLine_offBench (line : Nat) (s : State) : offBench (evictLine line s) = offBench s := by
  grind [evictLine, benchDrop_offBench, spoilDepart_offBench, setSpoil_offBench]

theorem makeRoom_offBench (line a : Nat) (s : State) : offBench (makeRoom line a s) = offBench s := by
  fun_induction makeRoom line a s <;> grind [pickVictim_offBench, evictLine_offBench]

theorem allocPut_offBench (line : Nat) (b : BLine) (s : State) : offBench (allocPut line b s) = offBench s := by
  simp only [allocPut, benchPut_offBench, makeRoom_offBench]

theorem zeroFill_offBench (line : Nat) (s : State) : offBench (zeroFill line s).2 = offBench s := by
  grind [zeroFill, zmapGet_offBench, allocPut_offBench, bump_offBench]

theorem noteWrite_offBench (line : Nat) (s : State) : offBench (noteWrite line s) = offBench s := by
  unfold noteWrite
  repeat' split
  all_goals simp only [offBench_setMem]

theorem storeData_offBench (line : Nat) (tracked : Bool) (d : Line) (m : BitVec 128) (poison : Bool) (s : State) :
    offBench (storeData line tracked d m poison s) = offBench s := by
  grind [storeData, recallLine_offBench, zmapGet_offBench, bump_offBench, benchPut_offBench, zmapSet_offBench,
    allocPut_offBench]

theorem storeLine_offBench (line : Nat) (tracked : Bool) (d : Line) (m : BitVec 128) (poison : Bool) (s : State) :
    offBench (storeLine line tracked d m poison s) = offBench s := by
  simp only [storeLine, noteWrite_offBench, storeData_offBench]

theorem takeData_offBench (line : Nat) (d : Option (Line × Bool)) (dirty : Bool) (s : State) :
    offBench (takeData line d dirty s) = offBench s := by
  unfold takeData
  repeat' split
  all_goals simp only [recallLine_offBench, allocPut_offBench, noteWrite_offBench]

theorem countDeferral_offBench (c : Nat) (s : State) : offBench (countDeferral c s) = offBench s := by
  simp only [countDeferral, bump_offBench]

theorem setTag_offBench (line : Nat) (x : MissTag) (s : State) : offBench (setTag line x s) = offBench s := rfl

theorem heldForTag_offBench (line : Nat) (req : Option Nat) (s : State) :
    offBench (heldForTag line req s) = offBench s := by
  unfold heldForTag
  repeat' split
  all_goals simp only [bump_offBench, offBench_setMem]

theorem missLine_offBench (line : Nat) (a : Asker) (s : State) : offBench (missLine line a s).2 = offBench s := by
  grind [missLine, setTag_offBench, heldForTag_offBench, bump_offBench, recallLine_offBench, schedPush_offBench,
    zeroFill_offBench, offBench_setMem]

theorem countSnoop_offBench (line : Nat) (s : State) : offBench (countSnoop line s) = offBench s := by
  simp only [countSnoop, bump_offBench]

theorem benchWrite_offBench (line : Nat) (tracked : Bool) (d : Line) (s : State) :
    offBench (benchWrite line tracked d s) = offBench s := by
  simp only [benchWrite, noteWrite_offBench, benchPut_offBench]

end Sys2Proof.Machine

/-! ### Coherence: buffers, evictions and snoops (O30, O32, O33) -/

namespace Sys2Proof.Machine

theorem medlars_of_offBench {s t : State} (h : offBench t = offBench s) : t.medlars = s.medlars := (congrArg State.medlars h :)
theorem coh_of_offBench {s t : State} (h : offBench t = offBench s) : t.coh = s.coh := (congrArg State.coh h :)
theorem reqs_of_offBench {s t : State} (h : offBench t = offBench s) : t.reqs = s.reqs := (congrArg State.reqs h :)
theorem time_of_offBench {s t : State} (h : offBench t = offBench s) : t.time = s.time := (congrArg State.time h :)

theorem medlarOf_of_medlars {s t : State} (h : t.medlars = s.medlars) (d : Nat) : medlarOf t d = medlarOf s d := by
  rw [medlarOf, medlarOf, h]

/-! The directory -/

theorem setDir_keeps (line : Nat) (e : DirEntry) (s : State) :
    (setDir line e s).coh.msgs = s.coh.msgs ∧ (setDir line e s).coh.txns = s.coh.txns := by
  rw [setDir]
  split <;> exact ⟨rfl, rfl⟩

theorem dirOf_setDir_self (line : Nat) (e : DirEntry) (s : State) : ∃ w u,
    dirOf (setDir line e s) line = if e.holders.isEmpty then DirEntry.uncached else { e with way := w, used := u } := by
  rw [setDir]
  split
  · refine ⟨0, 0, ?_⟩
    rw [dirOf, Tab.get, Tab.find_del_self, Option.getD_none]
  · exact ⟨_, _, Tab.get_put_self ..⟩

theorem holders_setDir (line : Nat) (e : DirEntry) (s : State) : (dirOf (setDir line e s) line).holders = e.holders := by
  obtain ⟨w, u, h⟩ := dirOf_setDir_self line e s
  rw [h]
  split
  next hempty => rw [List.isEmpty_iff.1 hempty]; rfl
  · rfl

theorem owned_setDir {line : Nat} {e : DirEntry} (s : State) (h : e.holders ≠ []) :
    (dirOf (setDir line e s) line).owned = e.owned := by
  obtain ⟨w, u, hd⟩ := dirOf_setDir_self line e s
  rw [hd, if_neg (by simpa using h)]

theorem dropHolder_forgets (line c : Nat) (s : State) : c ∉ (dirOf (dropHolder line c s) line).holders := by
  rw [dropHolder, holders_setDir]
  simp

/-! The home's copy -/


theorem find_benchPut_self (line : Nat) (b : BLine) (s : State) : (benchPut line b s).mem.bench.find line = some b :=
  Tab.find_put_self s.mem.bench line b

theorem noteWrite_bench (line : Nat) (s : State) : (noteWrite line s).mem.bench = s.mem.bench := by
  rw [noteWrite]
  split <;> rfl

/-- Dirty data that reaches the home stands there whole and dirty. -/
theorem bench_takeData_dirty (line : Nat) (x : Line) (p : Bool) (s : State) :
    ∃ b, (takeData line (some (x, p)) true s).mem.bench.find line = some b ∧ b.data = x ∧ b.valid = BitVec.allOnes 128 ∧
      b.dirty = true ∧ b.poison = p := by
  simp only [takeData, Bool.true_or, if_true, noteWrite_bench, allocPut]
  exact ⟨_, find_benchPut_self .., rfl, rfl, rfl, rfl⟩

/-! Evictions -/

/-- What a core's eviction leaves. -/
theorem evictNow_spec {c line : Nat} {l : CLine} {s : State} (h : (medlarOf s c).lines.find line = some l) :
    ∃ t, CoreStep c (setMedlar c { medlarOf s c with lines := (medlarOf s c).lines.del line } s) t ∧
      evictNow c line s = dropHolder line c (if l.st == .dirty then takeData line (some (l.data, l.poison)) true t else t) :=
  ⟨_, replayLoads_coreStep c line _, by simp only [evictNow, h]⟩

theorem medlarOf_dropHolder (line c d : Nat) (s : State) : medlarOf (dropHolder line c s) d = medlarOf s d :=
  medlarOf_of_medlars (by rw [dropHolder, setDir_medlars]) d

theorem evictNow_medlars {c line : Nat} {l : CLine} {s : State} (h : (medlarOf s c).lines.find line = some l) :
    (medlarOf (evictNow c line s) c).lines.find line = none ∧ c ∉ (dirOf (evictNow c line s) line).holders ∧
    ∀ d, d ≠ c → medlarOf (evictNow c line s) d = medlarOf s d := by
  obtain ⟨t, ht, heq⟩ := evictNow_spec h
  have hm : ∀ d, medlarOf (evictNow c line s) d = medlarOf t d := fun d => by
    rw [heq, medlarOf_dropHolder]
    split
    · exact medlarOf_of_medlars (medlars_of_offBench (takeData_offBench ..)) d
    · rfl
  refine ⟨?_, ?_, fun d hd => ?_⟩
  · rw [hm, ht.lines, medlarOf_setMedlar_self]
    exact Tab.find_del_self ..
  · rw [heq]
    exact dropHolder_forgets line c _
  · rw [hm, ht.others d hd, medlarOf_setMedlar_of_ne _ _ hd]

theorem exec_evict {c line : Nat} {l : CLine} {s : State} (dirty : Bool) (h : (medlarOf s c).lines.find line = some l)
    (hd : (l.st == .dirty) = dirty) (hmay : MayEvict c line s) : evictFrom c line dirty s = .next (evictNow c line s) := by
  obtain ⟨hheld, hgrant, hopen⟩ := hmay
  simp only [evictFrom, h, hd, hgrant, hopen, Nat.not_lt.2 hheld, bne_self_eq_false, Bool.not_true, Bool.false_eq_true,
    if_false]

/-- Settles O32: the line leaves the core, and dirty data stands in the home's Bench. -/
theorem evictionsReachTheHome : Obligations.EvictionsReachTheHome := by
  refine ⟨fun c line l s hl hst hmay => ?dirty, fun c line l s hl hst hmay => ?clean⟩
  case dirty =>
    have hd : (l.st == .dirty) = true := by rw [hst]; rfl
    obtain ⟨hgone, hforgot, hothers⟩ := evictNow_medlars hl
    obtain ⟨t, ht, heq⟩ := evictNow_spec hl
    obtain ⟨b, hb, hdata, hvalid, hdirty, hpoison⟩ := bench_takeData_dirty line l.data l.poison t
    refine ⟨_, b, exec_evict true hl hd hmay, hgone, ?_, hdata, hdirty, hvalid, hpoison, hforgot, evictNow_hbm .., hothers⟩
    rw [heq, hd, if_pos rfl, dropHolder, setDir_mem]
    exact hb
  case clean =>
    have hd : (l.st == .dirty) = false := by simpa using hst
    obtain ⟨hgone, hforgot, hothers⟩ := evictNow_medlars hl
    obtain ⟨t, ht, heq⟩ := evictNow_spec hl
    refine ⟨_, exec_evict false hl hd hmay, hgone, hforgot, ?_, hothers⟩
    rw [heq, hd, if_neg Bool.false_ne_true, dropHolder, setDir_mem]
    exact ht.mem

/-! Snoops -/

/-- The line gone from its core, and loads behind the oldest that replay. -/
def gaveUp (c line : Nat) (s : State) : State :=
  replayLoads c line (setMedlar c { medlarOf s c with lines := (medlarOf s c).lines.del line } s)

/-- The line in another state at its core, with what it wrote forgotten. -/
def leftAs (c line : Nat) (l : CLine) (x : CState) (s : State) : State :=
  setMedlar c { medlarOf s c with lines := (medlarOf s c).lines.put line { l with st := x, wrote := 0#128 } } s

section
variable {c line : Nat} {l : CLine} {s : State}

theorem answerSnoop_shared (h : (medlarOf s c).lines.find line = some l) : answerSnoop c line .shared s =
    if l.st = .shared then ((none, false), s)
    else ((some (l.data, l.poison), decide (l.st = .dirty)), leftAs c line l .shared s) := by
  simp only [answerSnoop, h]
  cases hst : l.st <;> rfl

theorem answerSnoop_takes {k : SnoopKind} (hk : k = .own ∨ k = .inval) (h : (medlarOf s c).lines.find line = some l) :
    ∃ d, answerSnoop c line k s = ((d, decide (l.st = .dirty)), gaveUp c line s) ∧
      (l.st = .dirty → d = some (l.data, l.poison)) := by
  rcases hk with rfl | rfl <;> simp only [answerSnoop, h] <;> cases hst : l.st <;> exact ⟨_, rfl, by simp⟩

theorem answerSnoop_clean (h : (medlarOf s c).lines.find line = some l) : answerSnoop c line .clean s =
    if l.st = .dirty then ((some (l.data, l.poison), true), leftAs c line l .sole s) else ((none, false), s) := by
  simp only [answerSnoop, h]
  cases hst : l.st <;> rfl

theorem gaveUp_spec (c line : Nat) (s : State) :
    (medlarOf (gaveUp c line s) c).lines.find line = none ∧ (∀ d, d ≠ c → medlarOf (gaveUp c line s) d = medlarOf s d) ∧
    (gaveUp c line s).mem = s.mem ∧ (gaveUp c line s).time = s.time ∧
    ∃ asks, (gaveUp c line s).coh.msgs = s.coh.msgs ++ asks ∧ ((medlarOf s c).loads.length ≤ 1 → asks = []) := by
  have ht := replayLoads_coreStep c line (setMedlar c { medlarOf s c with lines := (medlarOf s c).lines.del line } s)
  refine ⟨?_, fun d hd => ?_, ht.mem, ht.time, ?_⟩
  · rw [gaveUp, ht.lines, medlarOf_setMedlar_self]
    exact Tab.find_del_self ..
  · rw [gaveUp, ht.others d hd, medlarOf_setMedlar_of_ne _ _ hd]
  · by_cases hfew : (medlarOf s c).loads.length ≤ 1
    · refine ⟨[], ?_, fun _ => rfl⟩
      rw [gaveUp, replayLoads_of_few (by rw [medlarOf_setMedlar_self]; exact hfew), List.append_nil]
      rfl
    · obtain ⟨asks, hasks⟩ := ht.msgs
      exact ⟨asks, hasks, fun h => absurd h hfew⟩

end

theorem exec_snoop (k : SnoopKind) (c line : Nat) (s : State) : exec (snoopCmd k c line) s = snoopArrives c line k s := by
  cases k <;> rfl

theorem snoopArrives_answers {k : SnoopKind} {c line : Nat} {m : CohMsg} {rest : List CohMsg} {s : State}
    (hs : SnoopStands k c line m rest s) (hheld : heldUntil s c line ≤ s.time.now) :
    exec (snoopCmd k c line) s = .next (sendAnswer c line k (setMsgs rest s)) := by
  obtain ⟨hfirst, hopen, hgrant⟩ := hs
  rw [exec_snoop]
  simp only [snoopArrives, hfirst, hopen, hgrant, gt_iff_lt, Nat.not_lt.2 hheld, Bool.not_true, Bool.false_eq_true, if_false]

/-- Settles O33: the answers of each kind of snoop, from the states of the line at the core. -/
theorem snoopsAreAnswered : Obligations.SnoopsAreAnswered := by
  refine ⟨?shared, ?takes, ?clean, ?cleanNone, ?waits⟩
  case shared =>
    intro c line m rest l s hs hheld hl
    have hexec := snoopArrives_answers hs hheld
    have hl' : (medlarOf (setMsgs rest s) c).lines.find line = some l := hl
    rw [sendAnswer, answerSnoop_shared hl'] at hexec
    by_cases hst : l.st = .shared
    · rw [if_pos hst] at hexec
      refine ⟨_, l, none, hexec, ?_, fun h => absurd hst h, fun _ => rfl, hl, hst, rfl, rfl, rfl⟩
      rw [hst]
      rfl
    · rw [if_neg hst] at hexec
      refine ⟨_, { l with st := .shared, wrote := 0#128 }, _, hexec, rfl, fun _ => rfl, fun h => absurd h hst, ?_, rfl, rfl, rfl, rfl⟩
      exact (congrArg (fun x : Medlar => x.lines.find line) (medlarOf_setMedlar_self ..)).trans (Tab.find_put_self ..)
  case takes =>
    intro c line k m rest l s hk hs hheld hl
    have hexec := snoopArrives_answers hs hheld
    obtain ⟨d, hd, hdirty⟩ := answerSnoop_takes (s := setMsgs rest s) hk hl
    obtain ⟨hgone, hothers, hmem, -, asks, hasks, hfew⟩ := gaveUp_spec c line (setMsgs rest s)
    rw [sendAnswer, hd, hasks] at hexec
    exact ⟨_, d, asks, hexec, rfl, hdirty, hfew, hgone, hothers, hmem⟩
  case clean =>
    intro c line m rest l s hs hheld hl hst
    have hexec := snoopArrives_answers hs hheld
    have hl' : (medlarOf (setMsgs rest s) c).lines.find line = some l := hl
    rw [sendAnswer, answerSnoop_clean hl', if_pos hst] at hexec
    refine ⟨_, { l with st := .sole, wrote := 0#128 }, hexec, rfl, ?_, rfl, rfl, rfl⟩
    exact (congrArg (fun x : Medlar => x.lines.find line) (medlarOf_setMedlar_self ..)).trans (Tab.find_put_self ..)
  case cleanNone =>
    intro c line m rest l s hs hheld hl hst
    have hexec := snoopArrives_answers hs hheld
    have hl' : (medlarOf (setMsgs rest s) c).lines.find line = some l := hl
    rw [sendAnswer, answerSnoop_clean hl', if_neg hst] at hexec
    exact hexec
  case waits =>
    intro c line k m rest s hs hheld hw
    obtain ⟨hfirst, hopen, hgrant⟩ := hs
    rw [exec_snoop]
    simp only [snoopArrives, hfirst, hopen, hgrant, gt_iff_lt, hheld, hw, Bool.not_true, Bool.false_eq_true, if_false, if_true]
    rfl

/-! The store buffer's head -/

theorem askLine_of_free {c line : Nat} {k : CohKind} {x : Xl} {va : Nat} {demand : Bool} {s : State}
    (h : lineAsked s c line = false) : askLine c line k x va demand s =
      { s with coh := { s.coh with msgs := s.coh.msgs ++ [.req c line k x va false demand] } } := by
  rw [askLine, h, if_neg Bool.false_ne_true]
  rfl

theorem memory_of_lineOf {x : Xl} {line : Nat} (h : lineOf x = some line) : ∃ o, x.target = .memory o ∧ o / 128 = line := by
  unfold lineOf at h
  split at h
  next o ho => exact ⟨o, ho, Option.some.inj h⟩
  · cases h

/-- A request to memory leaves for its home at once. -/
theorem issueReq_memory {r : Req} {line : Nat} (s : State) (h : lineOf r.xl = some line) : issueReq r s =
    { s with reqs := s.reqs.put s.nextReq { r with die := dieOf s r.src }, nextReq := s.nextReq + 1 } := by
  obtain ⟨o, ho, -⟩ := memory_of_lineOf h
  simp only [issueReq, ho]

/-- A line with the head's bytes laid over it. -/
def headWritten (e : SbEntry) (l : CLine) : CLine :=
  { l with st := .dirty, wrote := l.wrote ||| spanMask (e.va % 128) e.n
           poison := l.poison && (l.wrote ||| spanMask (e.va % 128) e.n) != BitVec.allOnes 128
           data := overlay l.data (BitVec.ofNat 1024 (e.val * 2 ^ (8 * (e.va % 128)))) (spanMask (e.va % 128) e.n) }

section
variable {c line : Nat} {e : SbEntry} {rest : List SbEntry} {s : State} (hsb : (medlarOf s c).sb = e :: rest)
  (hline : lineOf e.xl = some line)
include hsb hline

theorem exec_drain_held {l : CLine} (hred : e.reduce = none) (htables : intoTables s e.xl = false)
    (hl : (medlarOf s c).lines.find line = some l) (hst : l.st = .dirty ∨ l.st = .sole) :
    exec (.storeBufferDrain c) s = .next (setMedlar c { medlarOf s c with
      sb := rest, lines := (medlarOf s c).lines.put line (headWritten e l) } s) := by
  have howned : (l.st == .dirty || l.st == .sole) = true := by rcases hst with h | h <;> rw [h] <;> rfl
  change execStoreBufferDrain c s = _
  simp only [execStoreBufferDrain, writeHead, headWritten, hsb, hline, hred, hl, howned, htables, Option.isNone_none,
    beq_self_eq_true, Bool.not_false, Bool.and_self, Bool.false_eq_true, if_true, if_false]

theorem exec_drain_asks {k : CohKind} (hred : e.reduce = none)
    (hk : match (medlarOf s c).lines.find line with
      | some l => l.st = .shared ∧ k = .upgrade
      | none => k = .readOwn) (hfree : lineAsked s c line = false) :
    exec (.storeBufferDrain c) s =
      .next { s with coh := { s.coh with msgs := s.coh.msgs ++ [.req c line k e.xl e.va false true] } } := by
  change execStoreBufferDrain c s = _
  simp only [execStoreBufferDrain, hsb, hline, hred]
  split at hk
  next l hl =>
    obtain ⟨hst, rfl⟩ := hk
    have howned : (l.st == .dirty || l.st == .sole) = false := by rw [hst]; rfl
    simp only [hl, howned, hfree, Bool.false_eq_true, if_false, askLine_of_free hfree]
  next hl =>
    subst hk
    simp only [hl, hfree, Bool.false_eq_true, if_false, askLine_of_free hfree]

theorem exec_drain_reduce {op w : Nat} (hred : e.reduce = some (op, w)) (hout : reduceOut s c = false) :
    exec (.storeBufferDrain c) s = .next (issueReq (plainReq (.medlar c) (.reduce op w) e.xl e.va
      [oneLane (e.va % 128) e.n e.val]) s) := by
  change execStoreBufferDrain c s = _
  simp only [execStoreBufferDrain, hsb, hline, hred, hout, Bool.false_eq_true, if_false]

end

/-- Settles O30: the head's line at the core decides between the write and the request. -/
theorem storeBuffersDrainAndLinesAreAsked : Obligations.StoreBuffersDrainAndLinesAreAsked := by
  refine ⟨?held, ?upgrade, ?own, ?reduce, ?prefetch⟩
  case held =>
    intro c line e rest l s hsb hline hred htables hl hst
    refine ⟨_, headWritten e l, exec_drain_held hsb hline hred htables hl hst, ?_⟩
    simp only [medlarOf_setMedlar_self, true_and]
    exact ⟨Tab.find_put_self .., rfl, rfl, fun m hm => Tab.find_put_of_ne _ _ hm, fun d hd => medlarOf_setMedlar_of_ne _ _ hd, rfl⟩
  case upgrade =>
    intro c line e rest l s hsb hline hred hl hst hfree
    refine exec_drain_asks hsb hline hred ?_ hfree
    rw [hl]
    exact ⟨hst, rfl⟩
  case own =>
    intro c line e rest s hsb hline hred hl hfree
    refine exec_drain_asks hsb hline hred ?_ hfree
    rw [hl]
  case reduce =>
    intro c line op w e rest s hsb hline hred hout
    have hexec := exec_drain_reduce hsb hline hred hout
    rw [issueReq_memory s (r := plainReq (.medlar c) (.reduce op w) e.xl e.va [oneLane (e.va % 128) e.n e.val]) hline] at hexec
    exact ⟨_, _, hexec, Tab.find_put_self .., rfl, rfl, rfl, rfl, rfl, rfl⟩
  case prefetch =>
    intro c va line x s hrun htrans hline hregion hseg hl hfree
    have htrans' : translate s (bits (medlarOf s c).ctx.toNat 0 12) va needR = .ok x := htrans
    have hseg' : (medlarOf s c).segs.contains (16 * x.ctx + x.seg) = true := by simpa using hseg
    change execPrefetch c va s = _
    simp only [execPrefetch, hrun, htrans', hseg', hline, hregion, hl, Option.isSome_none, Bool.not_true, Bool.false_eq_true,
      if_false, askLine_of_free hfree]

end Sys2Proof.Machine

/-! ### Coherence: grants, arrivals and answers (O31, O34) -/

namespace Sys2Proof.Machine

/-! What the home's snoops leave as it was -/

theorem foldl_snoops (line : Nat) (k : SnoopKind) (cores : List Nat) (s : State) :
    offBench (cores.foldl (fun u c => countSnoop line (setMsgs (u.coh.msgs ++ [.snoop c line k false]) u)) s) =
      offBench (setMsgs (s.coh.msgs ++ cores.map fun c => .snoop c line k false) s) ∧
    (cores.foldl (fun u c => countSnoop line (setMsgs (u.coh.msgs ++ [.snoop c line k false]) u)) s).mem = s.mem := by
  induction cores generalizing s with
  | nil => rw [List.map_nil, List.append_nil]; exact ⟨rfl, rfl⟩
  | cons c cores ih =>
    obtain ⟨hoff, hmem⟩ := ih (countSnoop line (setMsgs (s.coh.msgs ++ [.snoop c line k false]) s))
    have hcoh : (countSnoop line (setMsgs (s.coh.msgs ++ [.snoop c line k false]) s)).coh =
        { s.coh with msgs := s.coh.msgs ++ [.snoop c line k false] } := bump_coh ..
    rw [List.foldl_cons, List.map_cons]
    refine ⟨hoff.trans ?_, hmem.trans (bump_mem ..)⟩
    have hset : ∀ (u v : State) (l : List CohMsg), offBench u = offBench v → offBench (setMsgs l u) = offBench (setMsgs l v) :=
      fun u v l h => congrArg (fun x : State => { x with coh := { x.coh with msgs := l } }) h
    rw [hset _ _ _ (countSnoop_offBench ..), hcoh, List.append_assoc]
    rfl

theorem startSnoops_spec (line : Nat) (serves : CohFor) (k : SnoopKind) (cores : List Nat) (s : State) :
    (startSnoops line serves k cores s).coh = { s.coh with
      txns := s.coh.txns.put line { serves := serves, awaiting := cores }
      msgs := s.coh.msgs ++ cores.map fun c => .snoop c line k false } ∧
    (startSnoops line serves k cores s).mem = s.mem ∧ (startSnoops line serves k cores s).medlars = s.medlars := by
  obtain ⟨hoff, hmem⟩ := foldl_snoops line k cores (setTxn line { serves := serves, awaiting := cores } s)
  have hmed := medlars_of_offBench hoff
  exact ⟨coh_of_offBench hoff, hmem, hmed⟩

/-- Making room in the directory only snoops the holders of another line. -/
theorem dirRoom_spec (line : Nat) (s : State) :
    (dirRoom line s).coh.dir = s.coh.dir ∧ (∃ snoops, (dirRoom line s).coh.msgs = s.coh.msgs ++ snoops ∧
      ∀ m, m ∈ snoops → ∃ c l k, m = .snoop c l k false) ∧
    (dirRoom line s).mem = s.mem ∧ (dirRoom line s).medlars = s.medlars := by
  have hself : s.coh.dir = s.coh.dir ∧ (∃ snoops, s.coh.msgs = s.coh.msgs ++ snoops ∧
      ∀ m, m ∈ snoops → ∃ c l k, m = CohMsg.snoop c l k false) ∧ s.mem = s.mem ∧ s.medlars = s.medlars :=
    ⟨rfl, ⟨[], (List.append_nil _).symm, fun _ h => nomatch h⟩, rfl, rfl⟩
  rw [dirRoom]
  dsimp only
  split
  · exact hself
  · split
    · exact hself
    · split
      · exact hself
      next l hl =>
        obtain ⟨hcoh, hmem, hmed⟩ := startSnoops_spec l .evict .inval (dirOf s l).holders (bump (K.dirBackInval + homeDie s line) 1 s)
        rw [bump_coh] at hcoh
        rw [hcoh, hmem, hmed, bump_mem, bump_medlars]
        refine ⟨rfl, ⟨_, rfl, fun m hm => ?_⟩, rfl, rfl⟩
        obtain ⟨c, -, rfl⟩ := List.mem_map.1 hm
        exact ⟨c, l, .inval, rfl⟩

theorem dirRoom_of_held {line : Nat} {s : State} (h : (dirOf s line).holders ≠ []) : dirRoom line s = s := by
  have hne : (dirOf s line).holders.isEmpty = false := by simpa using h
  rw [dirRoom, hne]
  rfl

/-! Requests that are granted -/

theorem coreReq_of_none {s : State} {c line : Nat} {k : CohKind} (h : ∀ m, m ∈ s.coh.msgs → notReq c line k m = true) :
    coreReq s c line k = none := by
  rw [coreReq, List.findSome?_eq_none_iff]
  intro m hm
  have := h m hm
  split
  · rw [if_neg]
    rintro ⟨rfl, rfl, rfl⟩
    simp [notReq] at this
  · rfl

/-- What a home's grant in one of the owner's states leaves. -/
theorem grantLine_spec {c line : Nat} {k : CohKind} {st : CState} {b : BLine} {s : State} (tracked : Bool) (hst : st ≠ .speaker)
    (hb : s.mem.bench.find line = some b) :
    .grant c line st b.data b.poison ∈ (grantLine c line k st tracked s).coh.msgs ∧
    coreReq (grantLine c line k st tracked s) c line k = none ∧ (dirOf (grantLine c line k st tracked s) line).owned = true ∧
    (dirOf (grantLine c line k st tracked s) line).holders = [c] ∧ (grantLine c line k st tracked s).mem = s.mem ∧
    (grantLine c line k st tracked s).medlars = s.medlars := by
  have hheld : (heldLine s line).getD (fullLine 0#1024 false false false) = b := by simp only [heldLine, hb, Option.getD_some]
  have heq : ∃ e : DirEntry, e.owned = true ∧ e.holders = [c] ∧ grantLine c line k st tracked s =
      setDir line e (setMsgs (s.coh.msgs.filter (notReq c line k) ++ [.grant c line st b.data b.poison]) s) := by
    rw [grantLine, if_neg hst, hheld]
    · exact ⟨_, rfl, rfl, rfl⟩
    · exact hst
  obtain ⟨e, howned, hholders, heq⟩ := heq
  obtain ⟨hmsgs, -⟩ := setDir_keeps line e
    (setMsgs (s.coh.msgs.filter (notReq c line k) ++ [.grant c line st b.data b.poison]) s)
  rw [heq]
  refine ⟨?_, coreReq_of_none fun m hm => ?_, ?_, ?_, setDir_mem .., setDir_medlars ..⟩
  · rw [hmsgs]
    exact List.mem_append_right _ List.mem_cons_self
  · rw [hmsgs] at hm
    rcases List.mem_append.1 hm with hm | hm
    · exact (List.mem_filter.1 hm).2
    · rw [List.mem_singleton.1 hm]
      rfl
  · rw [owned_setDir _ (by rw [hholders]; exact List.cons_ne_nil _ _), howned]
  · rw [holders_setDir, hholders]

theorem recallLine_of_held {line : Nat} {b : BLine} {s : State} (h : s.mem.bench.find line = some b) :
    recallLine line s = touchLine line s := by simp only [recallLine, h]

theorem homeHas_of_whole {line : Nat} {b : BLine} {s : State} (hb : s.mem.bench.find line = some b)
    (hv : b.valid = BitVec.allOnes 128) : homeHas s line = true := by
  simp [homeHas, lineReady, heldLine, hb, hv]

theorem coreRequest_of_stands {k : CohKind} {wr : Bool} {c line : Nat} {s : State} (h : AskStands k wr c line s)
    (hwr : wr = decide (k ≠ .readShared)) :
    ∃ x d, coreRequest c line k s = .next (homeServe c line k x d false (dirRoom line s)) := by
  obtain ⟨x, va, d, o, hreq, htxn, hslice, hopen, hearly, hok, htarget, hdom⟩ := h
  refine ⟨x, d, ?_⟩
  simp only [coreRequest, hreq, htxn, hslice, hopen, hearly, hok, htarget, Option.isSome_none, Bool.not_true, Bool.false_eq_true,
    if_false]
  rw [hwr] at hdom
  cases k <;> exact if_neg (by simpa using hdom)

theorem markGranted_keeps (c line : Nat) (k : CohKind) (s : State) : (markGranted c line k s).coh.dir = s.coh.dir ∧
    (markGranted c line k s).mem = s.mem ∧ (markGranted c line k s).medlars = s.medlars := ⟨rfl, rfl, rfl⟩

/-- A grant from the home's own whole line, where the request has not been granted before. -/
theorem grant_own {c line : Nat} {k : CohKind} {st : CState} {b : BLine} {s g : State} (x : Xl) (hst : st ≠ .speaker)
    (hb : s.mem.bench.find line = some b) (hmem : g.mem = s.mem) (hmed : g.medlars = s.medlars) (n : Nat) :
    .grant c line st b.data b.poison ∈ (grantLine c line k st x.tracked (recallLine line (bump n 1 g))).coh.msgs ∧
    coreReq (grantLine c line k st x.tracked (recallLine line (bump n 1 g))) c line k = none ∧
    (dirOf (grantLine c line k st x.tracked (recallLine line (bump n 1 g))) line).owned = true ∧
    (dirOf (grantLine c line k st x.tracked (recallLine line (bump n 1 g))) line).holders = [c] ∧
    LinesKept s (grantLine c line k st x.tracked (recallLine line (bump n 1 g))) ∧
    (grantLine c line k st x.tracked (recallLine line (bump n 1 g))).medlars = s.medlars := by
  have hb' : (bump n 1 g).mem.bench.find line = some b := by rw [bump_mem, hmem, hb]
  have hb'' : (touchLine line (bump n 1 g)).mem.bench.find line = some b := hb'
  obtain ⟨hgrant, hreq, howned, hholders, hmem', hmed'⟩ := grantLine_spec (c := c) (k := k) x.tracked hst hb''
  rw [recallLine_of_held hb']
  refine ⟨hgrant, hreq, howned, hholders, ?_, ?_⟩
  · rw [LinesKept, hmem']
    simp only [touchLine, bump_mem, hmem]
  · rw [hmed', touchLine_medlars, bump_medlars, hmed]

theorem dirOf_of_dir {s t : State} (h : t.coh.dir = s.coh.dir) (line : Nat) : dirOf t line = dirOf s line := by
  rw [dirOf, dirOf, h]

/-- Settles O31: with no other holder the home's own line is granted; with some, each of them is snooped. -/
theorem homesGrantLines : Obligations.HomesGrantLines := by
  refine ⟨?shared, ?own, ?upgrade, ?snoops⟩
  case shared =>
    intro c line b s hstands hholders howned hb hv
    obtain ⟨x, d, hexec⟩ := coreRequest_of_stands hstands rfl
    obtain ⟨hdir, -, hmem, hmed⟩ := dirRoom_spec line s
    have hhas : homeHas (dirRoom line s) line = true := homeHas_of_whole (by rw [hmem]; exact hb) hv
    have hhas' : homeHas (markGranted c line .readShared (dirRoom line s)) line = true :=
      homeHas_of_whole (by rw [(markGranted_keeps ..).2.1, hmem]; exact hb) hv
    refine ⟨_, hexec, ?_⟩
    simp only [homeServe, dirOf_of_dir hdir, hholders, howned, hhas, hhas', List.filter_nil, List.isEmpty_nil, Bool.false_and,
      Bool.false_eq_true, if_false, if_true]
    exact grant_own (g := markGranted c line .readShared (dirRoom line s)) x (by decide) hb hmem hmed
      (K.benchHits + homeDie (dirRoom line s) line)
  case own =>
    intro c line b s hstands hholders hb hv
    obtain ⟨x, d, hexec⟩ := coreRequest_of_stands hstands rfl
    obtain ⟨hdir, -, hmem, hmed⟩ := dirRoom_spec line s
    have hhas' : homeHas (markGranted c line .readOwn (dirRoom line s)) line = true :=
      homeHas_of_whole (by rw [(markGranted_keeps ..).2.1, hmem]; exact hb) hv
    refine ⟨_, hexec, ?_⟩
    simp only [homeServe, dirOf_of_dir hdir, hholders, hhas', List.filter_nil, List.isEmpty_nil, if_true, Bool.false_eq_true,
      if_false]
    exact grant_own (g := markGranted c line .readOwn (dirRoom line s)) x (by decide) hb hmem hmed
      (K.benchHits + homeDie (dirRoom line s) line)
  case upgrade =>
    intro c line b s hstands hholders hb
    obtain ⟨x, d, hexec⟩ := coreRequest_of_stands hstands rfl
    have hb' : (markGranted c line .upgrade s).mem.bench.find line = some b := hb
    obtain ⟨hgrant, hreq, howned, hh, hmem, hmed⟩ := grantLine_spec (c := c) (k := .upgrade) x.tracked (st := .dirty) (by decide) hb'
    rw [dirRoom_of_held (by rw [hholders]; exact List.cons_ne_nil _ _)] at hexec
    have hothers : [c].filter (· != c) = [] := by simp
    refine ⟨_, hexec, ?_⟩
    simp only [homeServe, hholders, hothers, List.isEmpty_nil, Bool.not_true, Bool.false_eq_true, if_false, List.contains_cons,
      beq_self_eq_true, Bool.true_or, if_true]
    exact ⟨hgrant, hreq, howned, hh, hmem, hmed⟩
  case snoops =>
    intro c line o s hstands ho hne
    obtain ⟨x, d, hexec⟩ := coreRequest_of_stands hstands rfl
    have hheld : (dirOf s line).holders ≠ [] := fun h => by
      rw [h] at ho
      exact hne ho.symm
    have hempty : o.isEmpty = false := by simpa using hne
    rw [dirRoom_of_held hheld] at hexec
    simp only [homeServe, ho, hempty, Bool.false_eq_true, if_false] at hexec
    obtain ⟨hcoh, hmem, hmed⟩ := startSnoops_spec line (.core c .readOwn) .own o (markGranted c line .readOwn s)
    refine ⟨_, hexec, fun h hh => ?_, ?_, hmem, hmed⟩
    · rw [hcoh]
      exact List.mem_append_right _ (List.mem_map.2 ⟨h, hh, rfl⟩)
    · rw [hcoh]
      exact Tab.find_put_self ..

/-! Answers and arrivals -/

theorem takeData_keeps (line : Nat) (d : Option (Line × Bool)) (dirty : Bool) (s : State) :
    (takeData line d dirty s).coh = s.coh ∧ (takeData line d dirty s).medlars = s.medlars :=
  ⟨coh_of_offBench (takeData_offBench ..), medlars_of_offBench (takeData_offBench ..)⟩

theorem dirAfter_keeps (line c : Nat) (k : SnoopKind) (s : State) : (dirAfter line c k s).coh.msgs = s.coh.msgs ∧
    (dirAfter line c k s).coh.txns = s.coh.txns ∧ (dirAfter line c k s).mem = s.mem := by
  unfold dirAfter
  split
  · exact ⟨(setDir_keeps ..).1, (setDir_keeps ..).2, setDir_mem ..⟩
  · exact ⟨rfl, rfl, rfl⟩
  · exact ⟨(setDir_keeps ..).1, (setDir_keeps ..).2, setDir_mem ..⟩

theorem homeHears_keeps (c line : Nat) (k : SnoopKind) (d : Option (Line × Bool)) (dirty : Bool) (s : State) :
    (homeHears c line k d dirty s).coh.msgs = s.coh.msgs ∧ (homeHears c line k d dirty s).coh.txns = s.coh.txns ∧
    (homeHears c line k d dirty s).mem = (takeData line d dirty s).mem := by
  obtain ⟨hmsgs, htxns, hmem⟩ := dirAfter_keeps line c k (takeData line d dirty s)
  obtain ⟨hcoh, -⟩ := takeData_keeps line d dirty s
  exact ⟨hmsgs.trans (congrArg Coh.msgs hcoh), htxns.trans (congrArg Coh.txns hcoh), hmem⟩

/-- An answer that is not the last of a request's snoops. -/
theorem hearResp_spec {c line : Nat} (k : SnoopKind) (d : Option (Line × Bool)) (dirty : Bool) {x : CohTxn} {s : State}
    (hx : s.coh.txns.find line = some x) (hmore : x.awaiting.filter (· != c) ≠ [] ∨ x.serves = .evict) :
    (hearResp c line k d dirty s).coh.msgs = s.coh.msgs ∧
    (hearResp c line k d dirty s).coh.txns = (if x.awaiting.filter (· != c) = [] then s.coh.txns.del line
      else s.coh.txns.put line { x with awaiting := x.awaiting.filter (· != c) }) ∧
    (hearResp c line k d dirty s).mem = (takeData line d dirty s).mem := by
  obtain ⟨hmsgs, htxns, hmem⟩ := homeHears_keeps c line k d dirty s
  have hx' : (homeHears c line k d dirty s).coh.txns.find line = some x := by rw [htxns, hx]
  by_cases hlast : x.awaiting.filter (· != c) = []
  · have hserves := hmore.resolve_left (Classical.not_not.2 hlast)
    have heq : hearResp c line k d dirty s = dropCohTxn line (homeHears c line k d dirty s) := by
      simp only [hearResp, hx', hlast, List.isEmpty_nil, if_true, finishTxn, hserves]
    rw [heq, if_pos hlast, ← htxns, ← hmem]
    exact ⟨hmsgs, rfl, rfl⟩
  · have hne : (x.awaiting.filter (· != c)).isEmpty = false := by simpa using hlast
    have heq : hearResp c line k d dirty s =
        setTxn line { x with awaiting := x.awaiting.filter (· != c) } (homeHears c line k d dirty s) := by
      simp only [hearResp, hx', hne, Bool.false_eq_true, if_false]
    rw [heq, if_neg hlast, ← htxns, ← hmem]
    exact ⟨hmsgs, rfl, rfl⟩

/-- The line as it stands at its core when it has arrived. -/
def arrivedLine (c : Nat) (line : Nat) (st : CState) (d : Line) (poison : Bool) (s : State) : CLine :=
  match (medlarOf s c).lines.find line with
  | some old => { old with st := st, arrived := s.time.now, hold := dv s K.holdNs, performed := false, wrote := 0#128 }
  | none => { st := st, data := d, poison := poison, wrote := 0#128, arrived := s.time.now, hold := dv s K.holdNs,
              performed := false }

theorem arrivedLine_spec (c line : Nat) (st : CState) (d : Line) (poison : Bool) (s : State) :
    (arrivedLine c line st d poison s).st = st ∧ (arrivedLine c line st d poison s).arrived = s.time.now ∧
    (arrivedLine c line st d poison s).hold = dv s K.holdNs := by
  unfold arrivedLine
  split <;> exact ⟨rfl, rfl, rfl⟩

/-- The state in which the arrived line has served the loads that wait for it, and the store buffer's head. -/
def stored (c line : Nat) (st : CState) (d : Line) (poison : Bool) (s : State) : State :=
  writeHead c line (serveWaiting c line (arrivedLine c line st d poison s).data (arrivedLine c line st d poison s).poison
    (setMedlar c { medlarOf s c with lines := (medlarOf s c).lines.put line (arrivedLine c line st d poison s) } s))

/-- The head of the store buffer may be written into the line, which is Dirty then. -/
theorem writeHead_line {c line : Nat} {l : CLine} {s : State} (h : (medlarOf s c).lines.find line = some l) :
    ∃ l', (medlarOf (writeHead c line s) c).lines.find line = some l' ∧ l'.arrived = l.arrived ∧ l'.hold = l.hold ∧
      (l'.st = l.st ∨ ((l.st = .dirty ∨ l.st = .sole) ∧ l'.st = .dirty)) := by
  unfold writeHead
  dsimp only
  split
  next e rest l0 hsb hl =>
    obtain rfl := Option.some.inj (h.symm.trans hl)
    split
    next hcond =>
      refine ⟨_, (congrArg (fun m : Medlar => m.lines.find line) (medlarOf_setMedlar_self ..)).trans (Tab.find_put_self ..), rfl, rfl,
        .inr ⟨?_, rfl⟩⟩
      simp only [Bool.and_eq_true, Bool.or_eq_true, beq_iff_eq] at hcond
      exact hcond.2
    · exact ⟨l, h, rfl, rfl, .inl rfl⟩
  · exact ⟨l, h, rfl, rfl, .inl rfl⟩

theorem arrive_spec (c line : Nat) (st : CState) (d : Line) (poison : Bool) (s : State) :
    ∃ l, (medlarOf (arrive c line st d poison s) c).lines.find line = some l ∧ l.performed = true ∧
      l.arrived = s.time.now ∧ l.hold = dv s K.holdNs ∧ (l.st = st ∨ ((st = .dirty ∨ st = .sole) ∧ l.st = .dirty)) := by
  obtain ⟨hst, harrived, hhold⟩ := arrivedLine_spec c line st d poison s
  have hserve := serveWaiting_coreStep c line (arrivedLine c line st d poison s).data (arrivedLine c line st d poison s).poison
    (setMedlar c { medlarOf s c with lines := (medlarOf s c).lines.put line (arrivedLine c line st d poison s) } s)
  have hl : (medlarOf (serveWaiting c line (arrivedLine c line st d poison s).data (arrivedLine c line st d poison s).poison
      (setMedlar c { medlarOf s c with lines := (medlarOf s c).lines.put line (arrivedLine c line st d poison s) } s)) c).lines.find
      line = some (arrivedLine c line st d poison s) := by
    rw [hserve.lines, medlarOf_setMedlar_self]
    exact Tab.find_put_self ..
  obtain ⟨l, hfind, ha, hh, hs⟩ := writeHead_line hl
  refine ⟨{ l with performed := true }, ?_, rfl, ha.trans harrived, hh.trans hhold, by rwa [hst] at hs⟩
  have heq : arrive c line st d poison s = setMedlar c { medlarOf (stored c line st d poison s) c with
      lines := (medlarOf (stored c line st d poison s) c).lines.put line { l with performed := true } }
      (stored c line st d poison s) := by
    have hfind' : (medlarOf (stored c line st d poison s) c).lines.find line = some l := hfind
    change (match (medlarOf (stored c line st d poison s) c).lines.find line with
      | some x => setMedlar c { medlarOf (stored c line st d poison s) c with
          lines := (medlarOf (stored c line st d poison s) c).lines.put line { x with performed := true } }
          (stored c line st d poison s)
      | none => stored c line st d poison s) = _
    rw [hfind']
  rw [heq, medlarOf_setMedlar_self]
  exact Tab.find_put_self ..

/-- A core's answer to a snoop of any kind, with the requests of the loads that replay before it. -/
theorem sendAnswer_spec (c line : Nat) (k : SnoopKind) (s : State) : ∃ d dirty asks,
    (sendAnswer c line k s).coh.msgs = s.coh.msgs ++ asks ++ [.resp c line k d dirty] ∧
    ((medlarOf s c).loads.length ≤ 1 → asks = []) ∧ (sendAnswer c line k s).time = s.time ∧
    (sendAnswer c line k s).mem = s.mem := by
  have hkeep : ∀ (r : Option (Line × Bool) × Bool) (t : State), t.coh = s.coh → t.time = s.time → t.mem = s.mem →
      answerSnoop c line k s = (r, t) → ∃ d dirty asks,
      (sendAnswer c line k s).coh.msgs = s.coh.msgs ++ asks ++ [.resp c line k d dirty] ∧
      ((medlarOf s c).loads.length ≤ 1 → asks = []) ∧ (sendAnswer c line k s).time = s.time ∧
      (sendAnswer c line k s).mem = s.mem := fun r t hcoh htime hmem heq => by
    refine ⟨r.1, r.2, [], ?_, fun _ => rfl, ?_, ?_⟩ <;> rw [sendAnswer, heq]
    · rw [List.append_nil, ← hcoh]
      rfl
    · exact htime
    · exact hmem
  cases hl : (medlarOf s c).lines.find line with
  | none => exact hkeep (none, false) s rfl rfl rfl (by simp only [answerSnoop, hl])
  | some l =>
    by_cases hk : k = .own ∨ k = .inval
    · obtain ⟨d, hd, -⟩ := answerSnoop_takes hk hl
      obtain ⟨-, -, hmem, htime, asks, hasks, hfew⟩ := gaveUp_spec c line s
      refine ⟨d, decide (l.st = .dirty), asks, ?_, hfew, ?_, ?_⟩ <;> rw [sendAnswer, hd]
      · rw [← hasks]
        rfl
      · exact htime
      · exact hmem
    · cases k with
      | own => exact absurd (.inl rfl) hk
      | inval => exact absurd (.inr rfl) hk
      | shared =>
        by_cases hst : l.st = .shared
        · exact hkeep _ s rfl rfl rfl (by rw [answerSnoop_shared hl, if_pos hst])
        · exact hkeep _ (leftAs c line l .shared s) rfl rfl rfl (by rw [answerSnoop_shared hl, if_neg hst])
      | clean =>
        by_cases hst : l.st = .dirty
        · exact hkeep _ (leftAs c line l .sole s) rfl rfl rfl (by rw [answerSnoop_clean hl, if_pos hst])
        · exact hkeep _ s rfl rfl rfl (by rw [answerSnoop_clean hl, if_neg hst])

/-- Settles O34: answers, arrivals and the ends of hold windows, each by what its step leaves. -/
theorem linesArriveAndWindowsEnd : Obligations.LinesArriveAndWindowsEnd := by
  refine ⟨?answer, ?arrival, ?expiry⟩
  case answer =>
    intro c line k d dirty rest x s hfirst hx hopen hmore
    have hexec : exec (.snoopResponse c line) s = .next (hearResp c line k d dirty (setMsgs rest s)) := by
      change execSnoopResponse c line s = _
      simp only [execSnoopResponse, hopen, hfirst, Bool.not_true, Bool.false_eq_true, if_false]
    obtain ⟨hmsgs, htxns, hmem⟩ := hearResp_spec k d dirty (s := setMsgs rest s) hx hmore
    refine ⟨_, hexec, hmsgs, fun h => ?_, fun h => ?_, fun y p hdirty hd => ?_⟩
    · rw [htxns, if_neg h]
      exact Tab.find_put_self ..
    · rw [htxns, if_pos h]
      exact Tab.find_del_self ..
    · subst hdirty hd
      rw [hmem]
      exact bench_takeData_dirty line y p (setMsgs rest s)
  case arrival =>
    intro c line st d p rest s hfirst hopen hfull
    have hexec : exec (.lineArrival c line) s = .next (arrive c line st d p (setMsgs rest s)) := by
      change execLineArrival c line s = _
      simp only [execLineArrival, hopen, hfull, hfirst, Bool.not_true, Bool.false_eq_true, if_false]
    obtain ⟨l, hl, hperf, harrived, hhold, hst⟩ := arrive_spec c line st d p (setMsgs rest s)
    refine ⟨_, l, hexec, hl, ?_, hperf, fun h => ?_⟩
    · rcases hst with h | ⟨rfl | rfl, h⟩
      · exact .inl h
      · exact .inl h
      · exact .inr ⟨rfl, h⟩
    · have hheld : (l.st == .dirty || l.st == .sole) = true := by
        rcases hst with h' | ⟨-, h'⟩
        · rcases h with h | h <;> rw [h', h] <;> rfl
        · rw [h']
          rfl
      simp only [heldUntil, hl, hheld, if_true, harrived, hhold]
      rfl
  case expiry =>
    intro c line k w rest s hheld hfirst
    have hexec : exec (.holdWindowExpiry c line) s =
        .next (sendAnswer c line k (setMsgs rest (atLeast (heldUntil s c line) s))) := by
      change execHoldWindowExpiry c line s = _
      simp only [execHoldWindowExpiry, hheld, if_false, atLeast_coh, hfirst]
    obtain ⟨d, dirty, asks, hmsgs, hfew, htime, hmem⟩ := sendAnswer_spec c line k (setMsgs rest (atLeast (heldUntil s c line) s))
    refine ⟨_, d, dirty, asks, hexec, ?_, hmsgs, hfew, hmem⟩
    rw [htime]
    exact Nat.le_max_right ..

end Sys2Proof.Machine

/-! ### Requests at their home (O35) -/

namespace Sys2Proof.Machine

theorem setFull_of_held {line : Nat} {b : BLine} {s : State} (h : s.mem.bench.find line = some b) : setFull s line = false := by
  rw [setFull, h, Option.isNone_some, Bool.and_false]

/-- A Bench line that is there already needs no room. -/
theorem makeRoom_of_held {line : Nat} {b : BLine} {s : State} (n : Nat) (h : s.mem.bench.find line = some b) :
    makeRoom line n s = s := by
  cases n with
  | zero => rfl
  | succ n => rw [makeRoom, setFull_of_held h, if_neg Bool.false_ne_true]

theorem bench_allocPut {line : Nat} {b : BLine} {s : State} (b' : BLine) (h : s.mem.bench.find line = some b) :
    (allocPut line b' s).mem.bench = s.mem.bench.put line b' := by
  rw [allocPut, makeRoom_of_held 4 h]
  rfl

theorem bench_benchWrite (line : Nat) (tracked : Bool) (d : Line) (s : State) :
    (benchWrite line tracked d s).mem.bench = s.mem.bench.put line (fullLine d true false tracked) := by
  rw [benchWrite, noteWrite_bench]
  rfl

/-- A store under no tracking lays its bytes over the line that is there. -/
theorem bench_storeLine {line : Nat} {b : BLine} {s : State} (d : Line) (m : BitVec 128) (h : s.mem.bench.find line = some b) :
    ∃ b', (storeLine line false d m false s).mem.bench = s.mem.bench.put line b' ∧ b'.data = overlay b.data d m ∧
      b'.dirty = true ∧ (b.poison = false → b'.poison = false) := by
  have h' : (touchLine line s).mem.bench.find line = some b := h
  rw [storeLine, noteWrite_bench, storeData, recallLine_of_held h]
  simp only [Bool.false_and, Bool.false_eq_true, if_false, h', Option.getD_some]
  split
  next hm =>
    refine ⟨_, bench_allocPut _ h', ?_, rfl, fun _ => rfl⟩
    rw [overlay, if_pos hm]
  · refine ⟨_, bench_allocPut _ h', rfl, rfl, fun hp => ?_⟩
    rw [hp]
    rfl

/-- The state in which a request sees a line that its home has. -/
def hitAt (line : Nat) (s : State) : State := touchLine line (bump (K.benchHits + homeDie s line) 1 s)

theorem hitAt_keeps (line : Nat) (s : State) : (hitAt line s).mem.bench = s.mem.bench ∧ LinesKept s (hitAt line s) ∧
    (hitAt line s).reqs = s.reqs ∧ (hitAt line s).medlars = s.medlars := by
  refine ⟨?_, ?_, ?_, ?_⟩
  · rw [hitAt, touchLine]
    simp only [bump_mem]
  · rw [hitAt, LinesKept, touchLine]
    simp only [bump_mem]
  · rw [hitAt, touchLine_reqs, bump_reqs]
  · rw [hitAt, touchLine_medlars, bump_medlars]

theorem recall_of_hit {line : Nat} {b : BLine} {s : State} (h : s.mem.bench.find line = some b) :
    recallLine line (bump (K.benchHits + homeDie s line) 1 s) = hitAt line s :=
  recallLine_of_held (by rw [bump_mem]; exact h)

theorem find_hitAt (line l : Nat) (s : State) : (hitAt line s).mem.bench.find l = s.mem.bench.find l := by
  rw [(hitAt_keeps line s).1]

theorem advanceHead_keeps (a : Agent) (s : State) :
    (advanceHead a s).reqs = s.reqs ∧ (advanceHead a s).coh = s.coh ∧ (advanceHead a s).mem = s.mem := by
  unfold advanceHead
  split
  · dsimp only
    split
    · split <;> exact ⟨rfl, rfl, rfl⟩
    · exact ⟨rfl, rfl, rfl⟩
  · exact ⟨rfl, rfl, rfl⟩

section
variable {id line : Nat} {r : Req} {b : BLine} {s : State}

theorem serveReq_of_whole (hr : s.reqs.find id = some r) (hline : lineOf r.xl = some line)
    (hb : s.mem.bench.find line = some b) (hv : b.valid = BitVec.allOnes 128) : serveReq id s = performReq id line r s := by
  have hready : lineReady s line (reqNeeds r) = true := by
    simp only [lineReady, heldLine, hb, hv, BitVec.allOnes_and, beq_self_eq_true]
  simp only [serveReq, hr, hline, hready, or_true, if_true]

/-- A request that stands at its home is granted, and performed there; a reduce-write leaves its store buffer then. -/
theorem benchGrant_of_ready {want : ReqKind → Bool} {t : State} (h : ReadyAtHome id line r b s) (hwant : want r.kind = true)
    (ht : (t = s ∧ ∀ op w, r.kind ≠ .reduce op w) ∨ (t = advanceHead r.src s ∧ ∃ op w, r.kind = .reduce op w)) :
    benchGrant id want s = .next (performReq id line r t) := by
  obtain ⟨hr, hline, hst, hmissed, hmeets, hopen, htxn, hslice, hearly, hok, hdom, hsib, hholders, howned, hb, hv, -⟩ := h
  obtain ⟨o, ho, -⟩ := memory_of_lineOf hline
  have hserve : ∀ t : State, t.reqs = s.reqs ∧ t.coh = s.coh ∧ t.mem = s.mem → grantReq id line r t = performReq id line r t := by
    intro t ⟨hreqs, hcoh, hmem⟩
    have hdir : dirOf t line = dirOf s line := dirOf_of_dir (congrArg Coh.dir hcoh) line
    simp only [grantReq, hdir, hholders, howned, List.isEmpty_nil, Bool.not_true, Bool.and_false, Bool.false_eq_true, if_false]
    exact serveReq_of_whole (by rw [hreqs, hr]) hline (by rw [hmem, hb]) hv
  simp only [benchGrant, hr, hline, hst, hwant, hmeets, hopen, htxn, hslice, hmissed, hearly, hok, ho, hdom o ho, hsib,
    Option.isSome_none, Bool.not_true, Bool.false_eq_true, if_false]
  rcases ht with ⟨rfl, hk⟩ | ⟨rfl, op, w, hk⟩
  · rw [← hserve t ⟨rfl, rfl, rfl⟩]
    split
    next op w hkind => exact absurd hkind (hk op w)
    · rfl
  · rw [← hserve _ (advanceHead_keeps r.src s), hk]

variable (h : ReadyAtHome id line r b s)
include h

theorem performReq_read (hk : r.kind = .read ∨ r.kind = .fetch) : performReq id line r s = setReq id { r with
    st := .served, data := if r.l1 then some b.data else none
    lanes := r.lanes.map fun l => { l with res := lineBytes b.data l.pos l.n } } (hitAt line s) := by
  obtain ⟨-, -, -, hmissed, -, -, -, -, -, -, -, -, -, -, hb, -, hp⟩ := h
  rcases hk with hk | hk <;>
    simp only [performReq, hk, hmissed, Bool.false_eq_true, if_false, recall_of_hit hb, find_hitAt, hb, Option.getD_some, hp]

theorem performReq_write (hk : r.kind = .write) : performReq id line r s = setReq id { r with st := .served }
    (storeLine line r.xl.tracked (lanesLine r.lanes).1 (lanesLine r.lanes).2 false (hitAt line s)) := by
  obtain ⟨-, -, -, hmissed, -, -, -, -, -, -, -, -, -, -, hb, -, -⟩ := h
  simp only [performReq, hk, hmissed, Bool.false_eq_true, if_false, recall_of_hit hb]

theorem performReq_atomic {op w : Nat} (hk : r.kind = .atomic op w) : performReq id line r s = setReq id { r with
    st := .served, lanes := (lanesAtomic op w r.lanes b.data.toNat).2 }
    (benchWrite line r.xl.tracked (BitVec.ofNat 1024 (lanesAtomic op w r.lanes b.data.toNat).1) (hitAt line s)) := by
  obtain ⟨-, -, -, hmissed, -, -, -, -, -, -, -, -, -, -, hb, -, hp⟩ := h
  simp only [performReq, hk, hmissed, Bool.false_eq_true, if_false, recall_of_hit hb, find_hitAt, hb, Option.getD_some, hp]

end

theorem performReq_reduce {id line op w : Nat} {r : Req} {b : BLine} {s : State} (hmissed : r.missed = false)
    (hb : s.mem.bench.find line = some b) (hp : b.poison = false) (hk : r.kind = .reduce op w) :
    performReq id line r s = setReq id { r with st := .served }
      (benchWrite line r.xl.tracked (BitVec.ofNat 1024 (lanesAtomic op w r.lanes b.data.toNat).1) (hitAt line s)) := by
  simp only [performReq, hk, hmissed, Bool.false_eq_true, if_false, recall_of_hit hb, find_hitAt, hb, Option.getD_some, hp]

/-- Settles O35: at a home that has the line each request is performed on it at once. -/
theorem homesPerformOrRefuseRequests : Obligations.HomesPerformOrRefuseRequests := by
  refine ⟨?read, ?write, ?atomic, ?reduce, ?stale⟩
  case read =>
    intro id line r b s h hk
    have hexec : exec (.benchRead id) s = .next (performReq id line r s) := by
      change execBenchRead id s = _
      rw [execBenchRead]
      refine benchGrant_of_ready h ?_ (.inl ⟨rfl, fun op w => ?_⟩) <;> rcases hk with hk | hk <;> rw [hk]
      · exact ReqKind.noConfusion
      · exact ReqKind.noConfusion
    obtain ⟨-, hkept, hreqs, hmed⟩ := hitAt_keeps line s
    rw [performReq_read h hk] at hexec
    refine ⟨_, _, hexec, Tab.find_put_self .., rfl, rfl, hkept, fun i hi => ?_, hmed⟩
    rw [← hreqs]
    exact Tab.find_put_of_ne _ _ hi
  case write =>
    intro i line r b s h hk htracked
    obtain ⟨-, -, -, -, -, -, -, -, -, -, -, -, -, -, hb, -, hp⟩ := id h
    have hb' : (hitAt line s).mem.bench.find line = some b := by rw [find_hitAt, hb]
    have hexec : exec (.benchWrite i) s = .next (performReq i line r s) := by
      change execBenchWrite i s = _
      rw [execBenchWrite]
      exact benchGrant_of_ready h (by rw [hk]) (.inl ⟨rfl, fun op w => by rw [hk]; exact ReqKind.noConfusion⟩)
    have hhbm : (performReq i line r s).mem.hbm = s.mem.hbm := performReq_hbm ..
    obtain ⟨b', hbench, hdata, hdirty, hpoison⟩ := bench_storeLine (lanesLine r.lanes).1 (lanesLine r.lanes).2 hb'
    rw [performReq_write h hk, htracked] at hexec hhbm
    refine ⟨_, _, b', hexec, Tab.find_put_self .., rfl, ?_, hdata, hdirty, hpoison hp, fun l hl => ?_, hhbm, ?_⟩
    · exact (congrArg (fun t : Tab BLine => t.find line) hbench).trans (Tab.find_put_self ..)
    · refine (congrArg (fun t : Tab BLine => t.find l) hbench).trans ((Tab.find_put_of_ne _ _ hl).trans ?_)
      rw [(hitAt_keeps line s).1]
    · rw [setReq_medlars, medlars_of_offBench (storeLine_offBench ..), (hitAt_keeps line s).2.2.2]
  case atomic =>
    intro id line op w r b s h hk
    have hexec : exec (.benchAtomic id) s = .next (performReq id line r s) := by
      change execBenchAtomic id s = _
      rw [execBenchAtomic]
      exact benchGrant_of_ready h (by rw [hk]) (.inl ⟨rfl, fun op w => by rw [hk]; exact ReqKind.noConfusion⟩)
    have hhbm : (performReq id line r s).mem.hbm = s.mem.hbm := performReq_hbm ..
    have hbench := bench_benchWrite line r.xl.tracked (BitVec.ofNat 1024 (lanesAtomic op w r.lanes b.data.toNat).1) (hitAt line s)
    rw [performReq_atomic h hk] at hexec hhbm
    refine ⟨_, _, fullLine (BitVec.ofNat 1024 (lanesAtomic op w r.lanes b.data.toNat).1) true false r.xl.tracked, hexec,
      Tab.find_put_self .., rfl, rfl, ?_, rfl, rfl, fun l hl => ?_, hhbm, ?_⟩
    · exact (congrArg (fun t : Tab BLine => t.find line) hbench).trans (Tab.find_put_self ..)
    · refine (congrArg (fun t : Tab BLine => t.find l) hbench).trans ((Tab.find_put_of_ne _ _ hl).trans ?_)
      rw [(hitAt_keeps line s).1]
    · rw [setReq_medlars, medlars_of_offBench (benchWrite_offBench ..), (hitAt_keeps line s).2.2.2]
  case reduce =>
    intro i line op w r b s h hk
    obtain ⟨-, -, -, hmissed, -, -, -, -, -, -, -, -, -, -, hb, -, hp⟩ := id h
    obtain ⟨-, -, hmem⟩ := advanceHead_keeps r.src s
    have hexec : exec (.benchReduceWrite i) s = .next (performReq i line r (advanceHead r.src s)) := by
      change execBenchReduceWrite i s = _
      rw [execBenchReduceWrite]
      exact benchGrant_of_ready h (by rw [hk]) (.inr ⟨rfl, op, w, hk⟩)
    have hhbm : (performReq i line r (advanceHead r.src s)).mem.hbm = (advanceHead r.src s).mem.hbm := performReq_hbm ..
    have hbench := bench_benchWrite line r.xl.tracked (BitVec.ofNat 1024 (lanesAtomic op w r.lanes b.data.toNat).1)
      (hitAt line (advanceHead r.src s))
    rw [performReq_reduce hmissed (by rw [hmem, hb]) hp hk] at hexec hhbm
    rw [hmem] at hhbm
    refine ⟨_, _, fullLine (BitVec.ofNat 1024 (lanesAtomic op w r.lanes b.data.toNat).1) true false r.xl.tracked, hexec,
      Tab.find_put_self .., rfl, rfl, ?_, rfl, rfl, fun c e rest hsrc hsb hred => ?_, fun l hl => ?_, hhbm⟩
    · exact (congrArg (fun t : Tab BLine => t.find line) hbench).trans (Tab.find_put_self ..)
    · have hmed : medlarOf (setReq i { r with st := .served } (benchWrite line r.xl.tracked
          (BitVec.ofNat 1024 (lanesAtomic op w r.lanes b.data.toNat).1) (hitAt line (advanceHead r.src s)))) c =
          medlarOf (advanceHead r.src s) c := medlarOf_of_medlars (by
        rw [setReq_medlars, medlars_of_offBench (benchWrite_offBench ..), (hitAt_keeps line _).2.2.2]) c
      have hadv : advanceHead r.src s = setMedlar c { medlarOf s c with sb := rest } s := by
        simp only [hsrc, advanceHead, hsb, hred, if_true]
      rw [hmed, hadv, medlarOf_setMedlar_self]
    · refine (congrArg (fun t : Tab BLine => t.find l) hbench).trans ((Tab.find_put_of_ne _ _ hl).trans ?_)
      rw [(hitAt_keeps line _).1, hmem]
  case stale =>
    intro id line r s hr hline hst hk hmissed hmeets hopen htxn hslice hearly hok
    change execBenchRead id s = _
    rcases hk with hk | hk <;>
      simp only [execBenchRead, benchGrant, hr, hline, hst, hk, hmissed, hmeets, hopen, htxn, hslice, hearly, hok,
        Option.isSome_none, Bool.not_true, Bool.not_false, Bool.false_eq_true, if_false, if_true, countStale, setReq]

end Sys2Proof.Machine

/-! ### Fills behind a departing line (O36) -/

namespace Sys2Proof.Machine

/-- A line of no stack: its place's channel is numbered as if the stacks went on behind the last, so that its die's counter of
queue stalls is stack 0's counter of inner reports. -/
def farLine : Nat := (2 ^ 41 + (K.innerReported - K.hbmQueueStalls) * 2 ^ 38) / 128

/-- A state in which the fill of line 0 evicts a line of its full set, the full spoil cache lets its oldest entry depart, which is
a dirty far line, and the queue of that line's channel is full. -/
def fillBehindFarLine : State :=
  let full := fullLine 0#1024 false false false
  let s := setDv K.localGib 256 State.reset
  { s with mem := { s.mem with
      tags := ⟨[(0, { waiters := [], units := [], tracked := false, lead := 0, served := true, halves := 0, corrected := false })]⟩
      bench := ⟨List.replicate 16 (2 ^ 34, full)⟩
      spoil := ⟨[(0, (farLine, fullLine 0#1024 true false false) :: List.replicate 63 (1, full))]⟩
      sched := ⟨[(pchan s farLine, List.replicate 64
        { line := 1, critical := false, partition := 0, since := 0, write := none, poison := false })]⟩ } }

theorem sameSet_of_place {s : State} {a b : Nat} (h : place s (128 * a) = place s (128 * b)) : sameSet s a b = true := by
  simp only [sameSet, homeSlice, pchan, benchSet, h, beq_self_eq_true, Bool.and_self]

/-- The state once the stack's reports have been counted. -/
def reported : State := innerReports 0 1 fillBehindFarLine

theorem setLines_reported : setLines reported 0 = List.replicate 16 (2 ^ 34) := by
  have hset : sameSet reported (2 ^ 34) 0 = true := sameSet_of_place (by decide +kernel)
  have hbench : reported.mem.bench.cells = List.replicate 16 (2 ^ 34, fullLine 0#1024 false false false) := by
    rw [reported, innerReports, bump_mem]
    rfl
  rw [setLines, hbench, List.filter_replicate_of_pos (by exact hset), List.map_replicate]

theorem fill_counts_twice : dv (fillHalf 0 0 false (makeRoom 0 4 reported)).2 K.innerReported = 2 := by
  have hfull : setFull reported 0 = true := by
    rw [setFull, setLines_reported]
    decide +kernel
  have hvictim : pickVictim 0 reported = (some (2 ^ 34), reported) := by
    simp only [pickVictim, setLines_reported]
    rw [if_pos (by decide +kernel)]
    exact Prod.ext (by decide +kernel) rfl
  have hroom : makeRoom 0 4 reported = evictLine (2 ^ 34) reported := by
    have hempty : (evictLine (2 ^ 34) reported).mem.bench.cells.length = 0 := by decide +kernel
    have hroomy : setFull (evictLine (2 ^ 34) reported) 0 = false := by
      rw [setFull, hempty]
      rfl
    rw [makeRoom, if_pos hfull, hvictim]
    simp only [makeRoom, hroomy, Bool.false_eq_true, if_false]
  rw [hroom]
  decide +kernel

theorem recall_reported : recallLine 0 (innerReports 0 1 fillBehindFarLine) = reported := by
  have hbench : (innerReports 0 1 fillBehindFarLine).mem.bench.find 0 = none := by decide +kernel
  have hspoil : (spoilOf (innerReports 0 1 fillBehindFarLine) (homeSlice (innerReports 0 1 fillBehindFarLine) 0)).find?
      (fun p => p.1 == 0) = none := by decide +kernel
  simp only [recallLine, hbench, hspoil, reported]

theorem dv_setTag (line k : Nat) (t : MissTag) (s : State) : dv (setTag line t s) k = dv s k := rfl

/-- Refutes O36: stack 0 reports one error with the fill, and the stall that the departing far line meets is counted as
another. -/
theorem not_schedulersServeFillsAndWrites : ¬ Obligations.SchedulersServeFillsAndWrites := by
  rintro ⟨hfill, -⟩
  have hinner : homeCtl fillBehindFarLine 0 = 0 := by decide +kernel
  obtain ⟨t, b, tg', hexec, -, -, -, -, hcount, -⟩ := hfill 0 1
    { waiters := [], units := [], tracked := false, lead := 0, served := true, halves := 0, corrected := false }
    fillBehindFarLine rfl rfl rfl rfl
  have hone : dv t K.innerReported = 1 := by
    have h := hcount (by rw [hinner]; decide) (by decide) (by rw [hinner]; decide +kernel)
    rw [hinner] at h
    exact h.trans (by decide +kernel)
  have htwo : dv t K.innerReported = 2 := by
    change execBenchFill 0 1 fillBehindFarLine = .next t at hexec
    have htag : fillBehindFarLine.mem.tags.find 0 = some
      { waiters := [], units := [], tracked := false, lead := 0, served := true, halves := 0, corrected := false } := rfl
    simp only [execBenchFill, htag, recall_reported, Bool.not_true, Bool.false_eq_true, if_false, if_true, List.filter_nil,
      List.foldl_nil] at hexec
    injection hexec with ht
    rw [← ht, dv_setTag]
    exact fill_counts_twice
  omega

end Sys2Proof.Machine

/-! ### The controllers' windows (O37) -/

namespace Sys2Proof.Machine

theorem ctlOf_setCtl_self (c : Nat) (k : Ctl) (s : State) : ctlOf (setCtl c k s) c = k := Tab.get_put_self ..

theorem ctlOf_setCtl_of_ne {c d : Nat} (k : Ctl) (s : State) (h : d ≠ c) : ctlOf (setCtl c k s) d = ctlOf s d :=
  Tab.get_put_of_ne _ _ _ h

theorem ctlOf_of_mem {s t : State} (h : t.mem.ctls = s.mem.ctls) (c : Nat) : ctlOf t c = ctlOf s c := by rw [ctlOf, ctlOf, h]

/-- R255: the multiplier of a reading. -/
theorem refreshRate_cases (old : Nat) (t : Int) (h : old = 1 ∨ old = 2 ∨ old = 4) :
    (95 < t → refreshRate old t = 4) ∧ (85 < t → t ≤ 95 → old ≤ 2 → refreshRate old t = 2) ∧
    (92 < t → old = 4 → refreshRate old t = 4) ∧ (t ≤ 92 → 82 < t → old = 4 → refreshRate old t = 2) ∧
    (82 < t → t ≤ 85 → refreshRate old t = (if old = 1 then 1 else 2)) ∧ (t ≤ 82 → refreshRate old t = 1) := by
  rcases h with rfl | rfl | rfl <;> simp only [refreshRate] <;> refine ⟨?_, ?_, ?_, ?_, ?_, ?_⟩ <;> intros <;>
    grind

/-! Counters and events -/

theorem dv_saturated_of_ne {key j : Nat} (s : State) (h : j ≠ K.errSummary) : dv (saturated key s) j = dv s j :=
  dv_setDv_of_ne s _ h

theorem dv_bumpRaw_of_ne {key j : Nat} (n : Nat) (s : State) (h : j ≠ key) : dv (bumpRaw key n s).1 j = dv s j := by
  unfold bumpRaw
  dsimp only
  split
  · rfl
  · split <;> exact dv_setDv_of_ne s _ h

/-- A counter's rise shows in no other entry but those of saturation. -/
theorem dv_bump_of_ne {key j : Nat} (n : Nat) (s : State) (h : j ≠ key) (herr : j ≠ K.errSummary)
    (hsat : j ≠ K.countersSaturated) : dv (bump key n s) j = dv s j := by
  unfold bump
  dsimp only
  split
  · split
    · rw [dv_saturated_of_ne _ herr, dv_bumpRaw_of_ne _ _ hsat, dv_saturated_of_ne _ herr, dv_bumpRaw_of_ne _ _ h]
    · rw [dv_bumpRaw_of_ne _ _ hsat, dv_saturated_of_ne _ herr, dv_bumpRaw_of_ne _ _ h]
  · exact dv_bumpRaw_of_ne n s h

theorem bumpRaw_ev (key n : Nat) (s : State) : (bumpRaw key n s).1.ev = s.ev := by
  unfold bumpRaw
  dsimp only
  split
  · rfl
  · split <;> rfl

theorem mem_inFlight_raise {e : EventRec} {s : State} (c o a b : Nat) (h : e ∈ s.ev.inFlight) :
    e ∈ (raise c o a b s).ev.inFlight := List.mem_append_left _ h

theorem mem_inFlight_bump {e : EventRec} {s : State} (key n : Nat) (h : e ∈ s.ev.inFlight) : e ∈ (bump key n s).ev.inFlight := by
  have hraw : ∀ k m t, e ∈ t.ev.inFlight → e ∈ (bumpRaw k m t).1.ev.inFlight := fun k m t ht => by rwa [bumpRaw_ev]
  have hsat : ∀ k t, e ∈ t.ev.inFlight → e ∈ (saturated k t).ev.inFlight := fun k t ht => mem_inFlight_raise _ _ _ _ ht
  unfold bump
  dsimp only
  split
  · split
    · exact hsat _ _ (hraw _ _ _ (hsat _ _ (hraw _ _ _ h)))
    · exact hraw _ _ _ (hsat _ _ (hraw _ _ _ h))
  · exact hraw _ _ _ h

/-! Trips -/

/-- The temperatures' own records: the entries of this range, the readings kept, and events on their way. -/
structure TripKeeps (s t : State) : Prop where
  mem : t.mem = s.mem
  time : t.time = s.time
  dv : ∀ j, (0x400700 ≤ j ∧ j < 0x400800) ∨ (0x606000 ≤ j ∧ j < 0x606100) → dv t j = dv s j
  last : t.weigh.stackLast = s.weigh.stackLast
  events : ∀ e, e ∈ s.ev.inFlight → e ∈ t.ev.inFlight

namespace TripKeeps
variable {s t u : State}

theorem refl (s : State) : TripKeeps s s := ⟨rfl, rfl, fun _ _ => rfl, rfl, fun _ h => h⟩

theorem trans (h : TripKeeps s t) (h' : TripKeeps t u) : TripKeeps s u :=
  ⟨h'.mem.trans h.mem, h'.time.trans h.time, fun j hj => (h'.dv j hj).trans (h.dv j hj), h'.last.trans h.last,
    fun e he => h'.events e (h.events e he)⟩

end TripKeeps

theorem setPoint_tripKeeps (d p : Nat) (s : State) : TripKeeps s (setPoint d p s) := by
  rw [setPoint]
  split <;> exact ⟨rfl, rfl, fun _ _ => rfl, rfl, fun _ h => h⟩

theorem tripDie_tripKeeps {d : Nat} (temp : Int) (s : State) (hd : d < 256) : TripKeeps s (tripDie d temp s) := by
  rw [tripDie]
  split
  · exact .refl s
  · have hthrottle : ∀ t, TripKeeps t (markThrottle t) := fun t =>
      ⟨rfl, rfl, fun j hj => dv_setDv_of_ne _ _ (by simp only [K.throttleMap]; omega), rfl, fun _ h => h⟩
    have hreport : ∀ t, TripKeeps t (reportTrip d temp t) := fun t => by
      refine ⟨?_, ?_, fun j hj => ?_, ?_, fun e he => ?_⟩
      · exact bump_mem ..
      · exact bump_time ..
      · have hne : j ≠ K.errSummary ∧ j ≠ K.countersSaturated ∧ j ≠ K.thermalTrips + d := by
          simp only [K.errSummary, K.countersSaturated, K.thermalTrips]
          omega
        obtain ⟨herr, hsat, htrips⟩ := hne
        exact (dv_bump_of_ne _ _ htrips herr hsat).trans (dv_setDv_of_ne _ _ herr)
      · exact congrArg Weigh.stackLast (bump_weigh ..)
      · exact mem_inFlight_raise _ _ _ _ (mem_inFlight_bump _ _ he)
    have hdie : ∀ x t, TripKeeps t (setDiePower d x t) := fun x t => ⟨rfl, rfl, fun _ _ => rfl, rfl, fun _ h => h⟩
    exact (setPoint_tripKeeps d 0 s).trans ((hdie _ _).trans ((hthrottle _).trans (hreport _)))

theorem cooled_tripKeeps (d : Nat) (s : State) : TripKeeps s (cooled d s) := by
  rw [cooled]
  split
  · exact ⟨rfl, rfl, fun _ _ => rfl, rfl, fun _ h => h⟩
  · exact .refl s

theorem thermTrip_tripKeeps (temp : Int) (s : State) : TripKeeps s (thermTrip temp s) := by
  rw [thermTrip]
  split
  · exact .refl s
  · generalize List.range 10 = dies
    have hstart : TripKeeps s { s with board := { s.board with thermtrip := true } } :=
      ⟨rfl, rfl, fun _ _ => rfl, rfl, fun _ h => h⟩
    refine hstart.trans ?_
    generalize ({ s with board := { s.board with thermtrip := true } } : State) = u
    induction dies generalizing u with
    | nil => exact .refl u
    | cons d dies ih =>
      rw [List.foldl_cons]
      refine TripKeeps.trans ?_ (ih _)
      split
      · exact .refl u
      · exact setPoint_tripKeeps ..

/-! Departures, and the patrol -/

/-- A request for HBM joins its channel's queue. -/
theorem schedPush_spec (r : HbmReq) (s : State) :
    schedOf (schedPush r s) (pchan s r.line) = schedOf s (pchan s r.line) ++ [r] ∧
    (schedPush r s).mem.ctls = s.mem.ctls ∧ (schedPush r s).mem.hbm = s.mem.hbm ∧ (schedPush r s).time = s.time := by
  have hset : ∀ (t : State) (pc : Nat) (q : List HbmReq), schedOf (setSched pc q t) pc = q := fun t pc q => Tab.get_set_self ..
  rw [schedPush]
  refine ⟨hset .., ?_, ?_, ?_⟩ <;> dsimp only [setSched] <;> split
  · rw [bump_mem]
  · rfl
  · rw [bump_mem]
  · rfl
  · rw [bump_time]
  · rfl

theorem pickVictim_ctls (line : Nat) (s : State) : (pickVictim line s).2.mem.ctls = s.mem.ctls := by
  unfold pickVictim
  dsimp only
  split <;> rfl

theorem setSpoil_ctls (slice : Nat) (q : List (Nat × BLine)) (s : State) : (setSpoil slice q s).mem.ctls = s.mem.ctls := rfl

theorem benchPut_ctls (line : Nat) (b : BLine) (s : State) : (benchPut line b s).mem.ctls = s.mem.ctls := rfl

theorem benchDrop_ctls (line : Nat) (s : State) : (benchDrop line s).mem.ctls = s.mem.ctls := rfl

theorem recallLine_ctls (line : Nat) (s : State) : (recallLine line s).mem.ctls = s.mem.ctls := by
  unfold recallLine
  split
  · rfl
  · dsimp only
    split
    · rfl
    · rw [bump_mem, benchPut_ctls]
      split
      · split
        · rw [setSpoil_ctls, benchDrop_ctls, pickVictim_ctls, setSpoil_ctls]
        · rw [pickVictim_ctls, setSpoil_ctls]
      · rw [setSpoil_ctls]

theorem foundCorrected_mem (line : Nat) (s : State) : (foundCorrected line s).mem = s.mem := bump_mem ..

theorem foundUncorrectable_mem (line : Nat) (s : State) : (foundUncorrectable line s).mem = s.mem := bump_mem ..

/-- The patrol's read of a codeword moves no window and no time. -/
theorem scrubHalf_keeps (line h : Nat) (s : State) : (scrubHalf line h s).mem.ctls = s.mem.ctls ∧
    (scrubHalf line h s).time = s.time := by
  have hc : (foundCorrected line s).mem.ctls = s.mem.ctls ∧ (foundCorrected line s).time = s.time :=
    ⟨congrArg MemSys.ctls (foundCorrected_mem ..), time_of_offBench (foundCorrected_offBench ..)⟩
  have hu : ∀ t, (foundUncorrectable line t).mem.ctls = t.mem.ctls ∧ (foundUncorrectable line t).time = t.time := fun t =>
    ⟨congrArg MemSys.ctls (foundUncorrectable_mem ..), time_of_offBench (foundUncorrectable_offBench ..)⟩
  have hr : (recallLine line s).mem.ctls = s.mem.ctls ∧ (recallLine line s).time = s.time :=
    ⟨recallLine_ctls .., time_of_offBench (recallLine_offBench ..)⟩
  unfold scrubHalf
  dsimp only
  split
  · exact ⟨rfl, rfl⟩
  · exact hc
  · exact hc
  · split
    · split
      · exact ⟨(hu _).1.trans hr.1, (hu _).2.trans hr.2⟩
      · exact ⟨(hu _).1.trans hr.1, (hu _).2.trans hr.2⟩
    · exact hu s

theorem innerReports_keeps (line inner : Nat) (s : State) : (innerReports line inner s).mem.ctls = s.mem.ctls ∧
    (innerReports line inner s).time = s.time := by
  rw [innerReports, bump_mem, bump_time]
  exact ⟨rfl, rfl⟩

/-- The line that the patrol comes to. -/
def patrolLine (k : Nat) (s : State) : Nat :=
  unplace s (32 * k + (ctlOf s k).scrubNext / 2 ^ 24 % 32) (128 * ((ctlOf s k).scrubNext % 2 ^ 24)) / 128

/-- The time at which the patrol comes to it: a pass begins SCRUB_HOURS after the last. -/
def patrolTime (k : Nat) (s : State) : State :=
  if (ctlOf s k).scrubNext = 0 then atLeast ((ctlOf s k).scrubAt + dv s K.scrubHours * 3600000000000) s else s

/-- The controller behind the patrol's step. -/
def patrolled (k : Nat) (s : State) : Ctl :=
  { ctlOf s k with
    scrubNext := ((ctlOf s k).scrubNext + 1) % 2 ^ 29
    scrubAt := if (ctlOf s k).scrubNext = 0 then (patrolTime k s).time.now else (ctlOf s k).scrubAt }

theorem exec_scrubRead {k inner : Nat} {s : State} (hk : k < 32) (hours : dv s K.scrubHours ≠ 0)
    (hlost : bit s.mem.lostStacks.toNat k = false) (hslot : schedOf s (32 * k + (ctlOf s k).scrubNext / 2 ^ 24 % 32) = []) :
    ∃ t, exec (.scrubRead k inner) s = .next t ∧ t.time = (patrolTime k s).time ∧ ctlOf t k = patrolled k s := by
  have hempty : (!(schedOf s (32 * k + (ctlOf s k).scrubNext / 2 ^ 24 % 32)).isEmpty) = false := by rw [hslot]; rfl
  obtain ⟨hctls, htime⟩ := innerReports_keeps (patrolLine k s) inner (setCtl k (patrolled k s) (patrolTime k s))
  obtain ⟨hctls0, htime0⟩ := scrubHalf_keeps (patrolLine k s) 0
    (innerReports (patrolLine k s) inner (setCtl k (patrolled k s) (patrolTime k s)))
  obtain ⟨hctls1, htime1⟩ := scrubHalf_keeps (patrolLine k s) 1 (scrubHalf (patrolLine k s) 0
    (innerReports (patrolLine k s) inner (setCtl k (patrolled k s) (patrolTime k s))))
  have hself : ∀ t : State, t.mem.ctls = (setCtl k (patrolled k s) (patrolTime k s)).mem.ctls → ctlOf t k = patrolled k s :=
    fun t ht => (ctlOf_of_mem ht k).trans (ctlOf_setCtl_self ..)
  have hexec : ∃ c : Bool, exec (.scrubRead k inner) s = if c
      then .next (innerReports (patrolLine k s) inner (setCtl k (patrolled k s) (patrolTime k s)))
      else .next (scrubHalf (patrolLine k s) 1 (scrubHalf (patrolLine k s) 0
        (innerReports (patrolLine k s) inner (setCtl k (patrolled k s) (patrolTime k s))))) := by
    change ∃ c : Bool, execScrubRead k inner s = _
    rw [execScrubRead, if_neg (not_or.2 ⟨Nat.not_le.2 hk, not_or.2 ⟨hours, by rw [hlost]; exact Bool.false_ne_true⟩⟩)]
    simp only [hempty, Bool.false_eq_true, if_false, decide_eq_true_eq]
    exact ⟨_, rfl⟩
  obtain ⟨c, hexec⟩ := hexec
  cases c
  · exact ⟨_, hexec, htime1.trans (htime0.trans htime), hself _ (hctls1.trans (hctls0.trans hctls))⟩
  · exact ⟨_, hexec, htime, hself _ hctls⟩

/-- The state in which a temperature has been read and kept. -/
def readTemp (k : Nat) (temp : Int) (s0 : State) : State :=
  let s1 := atLeast ((ctlOf s0 k).tempAt + 100000) s0
  let s := setCtl k { ctlOf s0 k with tempAt := s1.time.now } s1
  let t := s |> setDv (K.stackTemp + k) (unsigned 32 temp)
    |> setDv (K.refreshRate + k) (refreshRate (dv s (K.refreshRate + k)) temp)
  { t with weigh := { t.weigh with stackLast := t.weigh.stackLast.put k temp } }

theorem readTemp_spec (k : Nat) (temp : Int) (s : State) : (readTemp k temp s).weigh.stackLast.find k = some temp ∧
    dv (readTemp k temp s) (K.refreshRate + k) = refreshRate (dv s (K.refreshRate + k)) temp ∧
    (k < 32 → dv (readTemp k temp s) (K.stackTemp + k) = unsigned 32 temp) ∧
    (readTemp k temp s).time.now = max s.time.now ((ctlOf s k).tempAt + 100000) ∧
    (ctlOf (readTemp k temp s) k).tempAt = (readTemp k temp s).time.now ∧
    (readTemp k temp s).mem = { s.mem with ctls := (readTemp k temp s).mem.ctls } := by
  refine ⟨Tab.find_put_self .., dv_setDv_self .., fun hk => ?_, rfl, ?_, rfl⟩
  · exact (dv_setDv_of_ne _ _ (by simp only [K.stackTemp, K.refreshRate]; omega)).trans (dv_setDv_self ..)
  · exact congrArg Ctl.tempAt (ctlOf_setCtl_self k { ctlOf s k with tempAt := _ } _)

/-- A controller behind the end of its window. -/
def windowEnded (ctl : Nat) (s : State) : Ctl :=
  { ctlOf s ctl with
    regulated := if (ctlOf s ctl).regulated then (ctlOf s ctl).agedServed
      else !(ctlOf s ctl).regulated && decide ((ctlOf s ctl).starved ≥ 8)
    starved := 0, agedServed := false
    windowAt := max s.time.now ((ctlOf s ctl).windowAt + dv s K.bwWindowNs) }

theorem windowEnded_spec (ctl : Nat) (s : State) : (windowEnded ctl s).starved = 0 ∧ (windowEnded ctl s).agedServed = false ∧
    (windowEnded ctl s).wcb = (ctlOf s ctl).wcb ∧
    (windowEnded ctl s).windowAt = max s.time.now ((ctlOf s ctl).windowAt + dv s K.bwWindowNs) ∧
    (windowEnded ctl s).regulated = (if (ctlOf s ctl).regulated then (ctlOf s ctl).agedServed
      else !(ctlOf s ctl).regulated && decide ((ctlOf s ctl).starved ≥ 8)) := ⟨rfl, rfl, rfl, rfl, rfl⟩

theorem exec_bwWindowEnd (ctl : Nat) (s : State) (h : ctl < 32) : ∃ t, exec (.bwWindowEnd ctl) s = .next t ∧
    t.mem = (setCtl ctl (windowEnded ctl s) s).mem ∧
    t.time.now = max s.time.now ((ctlOf s ctl).windowAt + dv s K.bwWindowNs) := by
  change ∃ t, execBwWindowEnd ctl s = .next t ∧ _
  simp only [execBwWindowEnd, ge_iff_le, Nat.not_le.2 h, if_false]
  refine ⟨_, rfl, ?_⟩
  split <;> exact ⟨rfl, rfl⟩

/-- Settles O37: each controller's command by the record it leaves of its controller. -/
theorem controllersKeepTheirWindows : Obligations.ControllersKeepTheirWindows := by
  refine ⟨?wcb, ?window, ?refresh, ?rounds, ?temp, ?hot, ?patrol, refreshRate_cases⟩
  case wcb =>
    intro ctl line e s he
    have hexec : exec (.wcbHoldExpiry ctl line) s = .next (wcbDepart ctl e (atLeast (e.since + dv s K.wcbHoldNs) s)) := by
      change execWcbHoldExpiry ctl line s = _
      simp only [execWcbHoldExpiry, he]
    have hline : e.line = line := by simpa using List.find?_some he
    subst hline
    obtain ⟨hsched, hctls, hhbm, htime⟩ := schedPush_spec
      { line := e.line, critical := false, partition := 0, since := (atLeast (e.since + dv s K.wcbHoldNs) s).time.now
        write := some (e.data, e.valid), poison := e.poison }
      (setCtl ctl { ctlOf s ctl with wcb := (ctlOf s ctl).wcb.filter (·.line != e.line) } (atLeast (e.since + dv s K.wcbHoldNs) s))
    refine ⟨_, _, hexec, ?_, fun x hx => ?_, hsched, rfl, rfl, rfl, hhbm⟩
    · exact Nat.le_trans (Nat.le_max_right ..) (Nat.le_of_eq (congrArg TimeS.now htime).symm)
    · have hctl : ctlOf (wcbDepart ctl e (atLeast (e.since + dv s K.wcbHoldNs) s)) ctl =
          { ctlOf s ctl with wcb := (ctlOf s ctl).wcb.filter (·.line != e.line) } :=
        (ctlOf_of_mem hctls ctl).trans (ctlOf_setCtl_self ..)
      rw [hctl] at hx
      simpa using (List.mem_filter.1 hx).2
  case window =>
    intro ctl s hctl
    obtain ⟨t, hexec, hmem, htime⟩ := exec_bwWindowEnd ctl s hctl
    obtain ⟨hstarved, haged, hwcb, hat, hreg⟩ := windowEnded_spec ctl s
    have hself : ctlOf t ctl = windowEnded ctl s := (ctlOf_of_mem (congrArg MemSys.ctls hmem) ctl).trans (ctlOf_setCtl_self ..)
    have hothers : ∀ c, c ≠ ctl → ctlOf t c = ctlOf s c := fun c hc =>
      (ctlOf_of_mem (congrArg MemSys.ctls hmem) c).trans (ctlOf_setCtl_of_ne _ _ hc)
    refine ⟨t, hexec, ?_⟩
    rw [hself]
    refine ⟨hstarved, haged, htime, hat.trans htime.symm, fun h => ?_, fun h => ?_, hwcb, hothers, ?_⟩
    · rw [hreg, h]
      simp
    · rw [hreg, h]
      simp
    · rw [hmem]
      rfl
  case refresh =>
    intro k s hk hlost
    have hexec : ∀ t, t = (if (ctlOf s k).bank + 1 ≥ max 1 Config.refreshBanks then atLeast ((ctlOf s k).roundAt + refreshRound s k) s
        else s) → exec (.refresh k) s = .next (setCtl k { ctlOf s k with
          bank := if (ctlOf s k).bank + 1 ≥ max 1 Config.refreshBanks then 0 else (ctlOf s k).bank + 1
          roundAt := if (ctlOf s k).bank + 1 ≥ max 1 Config.refreshBanks then
            max s.time.now ((ctlOf s k).roundAt + refreshRound s k) else (ctlOf s k).roundAt } t) := by
      rintro t rfl
      change execRefresh k s = _
      rw [execRefresh, if_neg (not_or.2 ⟨Nat.not_le.2 hk, by rw [hlost]; exact Bool.false_ne_true⟩)]
    refine ⟨fun h => ?_, fun h => ?_⟩
    · rw [hexec _ rfl, if_neg (Nat.not_le.2 h), if_neg (Nat.not_le.2 h), if_neg (Nat.not_le.2 h)]
    · have := hexec _ rfl
      rw [if_pos h, if_pos h, if_pos h] at this
      refine ⟨_, this, ?_, ?_, rfl, rfl⟩ <;> rw [ctlOf_setCtl_self]
      rfl
  case rounds =>
    intro k s
    refine ⟨fun h => ?_, fun h => ?_, fun h => ?_⟩ <;> simp only [refreshRound, h]
  case temp =>
    intro k temp s hk halive htemp
    obtain ⟨hlast, hrate, hread, hnow, hat, hmem⟩ := readTemp_spec k temp s
    have hkeep : TripKeeps (readTemp k temp s) (thermTrip temp (cooled (k / 4) (readTemp k temp s))) :=
      (cooled_tripKeeps ..).trans (thermTrip_tripKeeps ..)
    have hexec : exec (.stackTempRead k temp) s = .next (thermTrip temp (cooled (k / 4) (readTemp k temp s))) := by
      change execStackTempRead k temp s = _
      have hok : (decide (k ≥ 32) || !alive s) = false := by rw [halive]; simp; omega
      simp only [execStackTempRead, hok, Bool.false_eq_true, if_false, gt_iff_lt, Int.not_lt.2 htemp]
      rfl
    refine ⟨_, hexec, ?_, ?_, ?_, ?_, ?_, ?_⟩
    · rw [hkeep.dv _ (by simp only [K.stackTemp]; omega), hread hk]
    · rw [hkeep.dv _ (by simp only [K.refreshRate]; omega), hrate]
    · rw [hkeep.last, hlast]
    · rw [hkeep.time, hnow]
    · rw [ctlOf_of_mem (congrArg MemSys.ctls hkeep.mem), hkeep.time, hat]
    · rw [hkeep.mem, hmem]
  case hot =>
    intro k temp s hk halive htemp
    obtain ⟨hlast, hrate, hread, hnow, hat, hmem⟩ := readTemp_spec k temp s
    have hkeep : TripKeeps (raise 0x21 (k / 4) (unsigned 64 temp) k (readTemp k temp s))
        (thermTrip temp (tripDie (k / 4) temp (raise 0x21 (k / 4) (unsigned 64 temp) k (readTemp k temp s)))) :=
      (tripDie_tripKeeps _ _ (by omega)).trans (thermTrip_tripKeeps ..)
    have hexec : exec (.stackTempRead k temp) s =
        .next (thermTrip temp (tripDie (k / 4) temp (raise 0x21 (k / 4) (unsigned 64 temp) k (readTemp k temp s)))) := by
      change execStackTempRead k temp s = _
      have hok : (decide (k ≥ 32) || !alive s) = false := by rw [halive]; simp; omega
      simp only [execStackTempRead, hok, Bool.false_eq_true, if_false, gt_iff_lt, htemp, if_true]
      rfl
    refine ⟨_, _, hexec, hkeep.events _ (List.mem_append_right _ List.mem_cons_self), rfl, ?_, ?_, ?_, ?_⟩
    · exact Nat.mod_eq_of_lt (by omega)
    · rw [hkeep.dv _ (by simp only [K.stackTemp]; omega)]
      exact hread hk
    · rw [hkeep.dv _ (by simp only [K.refreshRate]; omega)]
      exact hrate
    · rw [hkeep.mem]
      exact hmem
  case patrol =>
    intro k inner s hk hours hlost hslot
    obtain ⟨t, hexec, htime, hctl⟩ := exec_scrubRead (inner := inner) hk hours hlost hslot
    refine ⟨t, hexec, by rw [hctl]; rfl, fun h => ⟨?_, ?_⟩, fun h => ⟨?_, ?_⟩⟩
    · rw [htime, patrolTime, if_pos h]
      rfl
    · rw [hctl, htime]
      exact if_pos h
    · rw [htime, patrolTime, if_neg h]
    · rw [hctl]
      exact if_neg h

end Sys2Proof.Machine

/-! ### Shotline firings, counters and the event ring (O55) -/

namespace Sys2Proof.Machine

theorem tail_of_still {s t : State} (h : still t = still s) : t.ev.tail = s.ev.tail := (congrArg (·.ev.tail) h :)
theorem head_of_still {s t : State} (h : still t = still s) : t.ev.head = s.ev.head := (congrArg (·.ev.head) h :)
theorem waiting_of_still {s t : State} (h : still t = still s) : t.ev.waiting = s.ev.waiting :=
  (congrArg (·.ev.waiting) h :)

theorem refuseWrite_still (src key code : Nat) (s : State) : still (refuseWrite src key code s) = still s := by
  rw [refuseWrite, raise_still, sumErr_still, setDv_still, bump_still]

/-- A write of an entry that may be written, with a value that has no reserved bit and that its rule accepts. -/
theorem outside_commit {key v src : Nat} {r : EntryRow} {act : Nat → State → WriteResult} {s : State} (hw : Writable s key)
    (he : entryOf key = some r) (hv : r.ty = 6 → v ≤ 1) (hmask : v &&& r.mask = v) (ha : (act v s).1 = 0) :
    outside s (commitScalar src key v act s).2 = .next (acceptWrite (act v s).2) := by
  obtain ⟨halive, hwrite⟩ := hw
  rw [outside_of_alive halive, commitScalar_of_entry he hv, hmask, commit_accepted _ _ _ s hwrite ha]

/-- The same of a value that the entry's rule refuses. -/
theorem outside_turned_away {key v src : Nat} {r : EntryRow} {act : Nat → State → WriteResult} {s : State}
    (hw : Writable s key) (he : entryOf key = some r) (hv : r.ty = 6 → v ≤ 1) (hmask : v &&& r.mask = v)
    (ha : (act v s).1 ≠ 0) :
    outside s (commitScalar src key v act s).2 = .next (refuseWrite src key (act v s).1 s) := by
  obtain ⟨halive, hwrite⟩ := hw
  rw [outside_of_alive halive, commitScalar_of_entry he hv, hmask, commit_turned_away _ _ _ s hwrite ha]

theorem and_mask_of_lt {v n : Nat} (h : v < 2 ^ n) : v &&& (2 ^ n - 1) = v := by
  rw [Nat.and_two_pow_sub_one_eq_mod, Nat.mod_eq_of_lt h]

theorem entryOf_shotFire : entryOf K.shotFire = some ⟨K.shotFire, K.shotFire, 6, 2, 0, 1, 0, 255⟩ := by decide +kernel
theorem entryOf_counterClear : entryOf K.counterClear = some ⟨K.counterClear, K.counterClear, 2, 2, 0, 4, 0, 2 ^ 26 - 1⟩ := by
  decide +kernel
theorem entryOf_errSummaryClear :
    entryOf K.errSummaryClear = some ⟨K.errSummaryClear, K.errSummaryClear, 2, 2, 0, 4, 0, 2 ^ 32 - 1⟩ := by decide +kernel
theorem entryOf_eventQHead : entryOf K.eventQHead = some ⟨K.eventQHead, K.eventQHead, 2, 1, 0, 4, 0, 2 ^ 32 - 1⟩ := by
  decide +kernel

theorem exec_shotFire {src v : Nat} {s : State} (hw : Writable s K.shotFire) (hv : v ≤ 1) :
    exec (.shotFire src v) s = .next (acceptWrite (if v = 1 then fireShot 0 (nodeId s) 0 s else s)) :=
  outside_commit hw entryOf_shotFire (fun _ => hv) (and_mask_of_lt (n := 8) (by omega)) rfl

theorem sendShots_keeps (n : Nat) (s : State) : sendShots n s = { s with out := (sendShots n s).out } :=
  foldl_keeps (fun t => t = { s with out := t.out }) _ (fun t x h => by rw [h]; rfl) _ s rfl

/-- A firing that no SHOT_CTL holds and that finds no block latching captures the entries. -/
theorem fireShot_captures {source node tag : Nat} {s : State} (hheld : bit (dv s K.shotCtl) 0 = false)
    (hbusy : s.snap.busy = false) :
    (fireShot source node tag s).snap = { seq := (s.snap.seq + 1) % 2 ^ 32, time := timeOfDay s, busy := true, captured := captureAll s, info := source % 8 + node % 4096 * 2 ^ 3 + tag % 2 ^ 32 * 2 ^ 16 } ∧
    (fireShot source node tag s).board.shotOutUntil = s.time.now + 100 ∧
    (fireShot source node tag s).mem = s.mem ∧
    ∃ e, e ∈ (fireShot source node tag s).ev.inFlight ∧ e.code = 0x80 := by
  simp only [fireShot, hheld, hbusy, Bool.false_eq_true, if_false]
  have hraise : ∀ (a b : Nat) (v : State), ∃ e, e ∈ (raise 0x80 10 a b v).ev.inFlight ∧ e.code = 0x80 := fun a b v =>
    (raise_inFlight 0x80 10 a b v).imp fun _ h => ⟨h.1, h.2.1⟩
  split
  · exact ⟨rfl, rfl, rfl, hraise ..⟩
  · refine ⟨?_, ?_, ?_, hraise ..⟩ <;> simp only [raise] <;> rw [sendShots_keeps]

theorem fireShot_merged {source node tag : Nat} {s : State} (h : bit (dv s K.shotCtl) 0 = true ∨ s.snap.busy = true) :
    OnlyRecords s (fireShot source node tag s) := by
  rw [fireShot]
  split
  · exact bump_onlyRecords ..
  · rw [if_pos (h.resolve_left ‹_›)]
    exact bump_onlyRecords ..

theorem exec_shotIn (ns : Nat) {s : State} (ha : alive s = true) :
    exec (.shotIn ns) s = .next (if bit (dv s K.shotCtl) 1 = true ∧ 20 ≤ ns then fireShot 3 (nodeId s) 0 s else s) := by
  change outside s _ = _
  simp only [outside_of_alive ha, Bool.and_eq_true, decide_eq_true_eq]

theorem exec_shotlineMessage (conn node tag : Nat) {s : State} (ha : alive s = true) :
    exec (.shotlineMessage conn node tag) s = .next (if connFlag (connOf s conn) 1 = true ∧ (connOf s conn).st = 1
      then fireShot 4 node tag s else refuseMessage conn s) := by
  change outside s _ = _
  simp only [outside_of_alive ha, Bool.and_eq_true, beq_iff_eq]

/-! #### COUNTER_CLEAR -/

theorem Tab.findIn_filter_key {α : Type} (l : List (Nat × α)) (p : Nat → Bool) (k : Nat) :
    Tab.findIn (l.filter fun c => p c.1) k = if p k then Tab.findIn l k else none := by
  induction l with
  | nil => simp [Tab.findIn]
  | cons c l ih =>
    obtain ⟨j, v⟩ := c
    by_cases hj : j = k
    · subst hj
      cases hp : p j <;> simp [hp, Tab.findIn, ih]
    · cases hp : p j <;> simp [hp, Tab.findIn, ih, hj]

theorem Tab.find_keep {α : Type} (t : Tab α) (p : Nat → Bool) (k : Nat) :
    (t.keep fun j _ => p j).find k = if p k then t.find k else none := Tab.findIn_filter_key t.cells p k

/-- A counter counts from 0. -/
theorem dfltOf_counter {k : Nat} (h : isCounter k = true) : dfltOf k = 0 := by
  rw [isCounter] at h
  split at h
  next r hr =>
    simp only [Bool.and_eq_true, Bool.or_eq_true, beq_iff_eq, decide_eq_true_eq] at h
    obtain ⟨⟨⟨hty, hlo⟩, hhi⟩, -⟩ := h
    have hrow : k / 2 ^ 20 = 6 := by omega
    have hall : ∀ r ∈ entriesOf 6, r.dflt = 0 ∨ (r.ty ≠ 1 ∧ r.ty ≠ 3) := by decide +kernel
    have hd : dfltOf k = r.dflt := by simp only [dfltOf, hr]
    rw [entryOf, if_neg (by omega), hrow] at hr
    have := hall r (List.mem_of_find?_eq_some hr)
    omega
  · cases h

/-- The state with the counters of p at 0. -/
def zeroCounters (p : Nat → Bool) (s : State) : State :=
  { s with dict := { s.dict with vals := s.dict.vals.keep fun k _ => !(isCounter k && p k) } }

theorem dv_zeroCounters_of_named {p : Nat → Bool} {k : Nat} (s : State) (hc : isCounter k = true) (hp : p k = true) :
    dv (zeroCounters p s) k = 0 := by
  simp only [dv, zeroCounters, Tab.find_keep _ (fun j => !(isCounter j && p j)), hc, hp, Bool.and_self, Bool.not_true,
    Bool.false_eq_true, if_false, dfltOf_counter hc]

theorem dv_zeroCounters_of_other {p : Nat → Bool} {k : Nat} (s : State) (h : isCounter k = false) :
    dv (zeroCounters p s) k = dv s k := by
  simp only [dv, zeroCounters, Tab.find_keep _ (fun j => !(isCounter j && p j)), h, Bool.false_and, Bool.not_false, if_true]

/-- Which counters a write of COUNTER_CLEAR names. -/
def namedCounters (v : Nat) : Nat → Bool := fun k =>
  bit v 25 || (bit v 24 && k / 256 == bits v 0 16) || (!bit v 24 && k == 256 * bits v 0 16 + bits v 16 8)

theorem clearCounters_spec {v : Nat} {s : State}
    (h : bit v 25 = true ∨ bit v 24 = true ∨ isCounter (256 * bits v 0 16 + bits v 16 8) = true) :
    clearCounters v s = (0, zeroCounters (namedCounters v) s) := by
  unfold clearCounters zeroCounters namedCounters
  cases h25 : bit v 25 <;> cases h24 : bit v 24 <;> simp_all

theorem exec_counterClear {src v : Nat} {s : State} (hw : Writable s K.counterClear) (hv : v < 2 ^ 26)
    (h : bit v 25 = true ∨ bit v 24 = true ∨ isCounter (256 * bits v 0 16 + bits v 16 8) = true) :
    exec (.counterClear src v) s = .next (acceptWrite (zeroCounters (namedCounters v) s)) := by
  have := outside_commit (src := src) (act := clearCounters) hw entryOf_counterClear (fun h => by simp at h)
    (and_mask_of_lt hv) (by rw [clearCounters_spec h])
  rw [clearCounters_spec h] at this
  exact this

theorem isCounter_dictWriteSeq : isCounter K.dictWriteSeq = false := by decide +kernel

theorem dv_acceptWrite_of_ne (s : State) {k : Nat} (h : k ≠ K.dictWriteSeq) : dv (acceptWrite s) k = dv s k :=
  dv_setDv_of_ne _ _ h

theorem ne_dictWriteSeq_of_counter {k : Nat} (h : isCounter k = true) : k ≠ K.dictWriteSeq := fun hk => by
  rw [hk, isCounter_dictWriteSeq] at h
  cases h

/-! #### Events -/

/-- Storing the waiting records moves neither bound of the event ring. -/
theorem storeEvents_bounds (n : Nat) (s : State) :
    (storeEvents n s).ev.tail = s.ev.tail ∧ (storeEvents n s).ev.head = s.ev.head := by
  induction n generalizing s with
  | zero => exact ⟨rfl, rfl⟩
  | succ n ih =>
    rw [storeEvents]
    split
    · exact ⟨rfl, rfl⟩
    next r rest hrest =>
    split
    · have hstill := fwWrite_still 2 (dv s K.eventQBase + 32 * (r.seq % dv s K.eventQEntries)) 32 (ofBytes (eventBytes s r)) s
      exact ⟨(ih _).1.trans (tail_of_still hstill :), (ih _).2.trans (head_of_still hstill :)⟩
    · exact ⟨rfl, rfl⟩

theorem storeWaiting_bounds (s : State) :
    (storeWaiting s).ev.tail = s.ev.tail ∧ (storeWaiting s).ev.head = s.ev.head := storeEvents_bounds ..

theorem bump_ring (k n : Nat) (s : State) : (bump k n s).ev.tail = s.ev.tail ∧ (bump k n s).ev.waiting = s.ev.waiting :=
  ⟨tail_of_still (bump_still ..), waiting_of_still (bump_still ..)⟩

theorem grantEvent_takes_seq {r : EventRec} {s : State} (h : foldTarget (bump K.eventsRaised 1 s) r.code = none) :
    (grantEvent r s).ev.tail = (s.ev.tail + 1) % 2 ^ 32 := by
  simp only [grantEvent, h]
  rw [(storeWaiting_bounds _).1, tellSubs, (bump_ring ..).1]
  simp only [(bump_ring ..).1]

theorem grantEvent_folds {r : EventRec} {n : Nat} {s : State}
    (h : foldTarget (bump K.eventsRaised 1 s) r.code = some n) :
    (grantEvent r s).ev.tail = s.ev.tail ∧ (grantEvent r s).ev.waiting.length = s.ev.waiting.length := by
  simp only [grantEvent, h]
  have hring := bump_ring K.eventsCoalesced 1 (foldInto n (bump K.eventsRaised 1 s))
  refine ⟨hring.1.trans (bump_ring ..).1, (congrArg List.length hring.2).trans ?_⟩
  simp only [foldInto, List.length_map, (bump_ring ..).2]

theorem writeEventHead_ok {v : Nat} {s : State} (h : ahead v s.ev.head ≤ ahead s.ev.tail s.ev.head) :
    (writeEventHead v s).1 = 0 ∧ (writeEventHead v s).2.ev.head = v ∧ (writeEventHead v s).2.ev.tail = s.ev.tail := by
  simp only [writeEventHead, h, if_true, storeWaiting_bounds, and_self]

theorem writeEventHead_bad {v : Nat} {s : State} (h : ahead s.ev.tail s.ev.head < ahead v s.ev.head) :
    (writeEventHead v s).1 = 3 := by
  simp only [writeEventHead, Nat.not_le.2 h, if_false]

theorem exec_errSummaryClear {src v : Nat} {s : State} (hw : Writable s K.errSummaryClear) (hv : v < 2 ^ 32) :
    exec (.errSummaryClear src v) s =
      .next (acceptWrite (setDv K.errSummary (dv s K.errSummary &&& (2 ^ 32 - 1 - v)) s)) := by
  change outside s _ = _
  rw [outside_commit hw entryOf_errSummaryClear (fun h => by simp at h) (and_mask_of_lt hv) rfl]

theorem exec_eventQHead {src v : Nat} {s : State} (hw : Writable s K.eventQHead) (hv : v < 2 ^ 32)
    (h : ahead v s.ev.head ≤ ahead s.ev.tail s.ev.head) :
    exec (.eventQHead src v) s = .next (acceptWrite (writeEventHead v s).2) :=
  outside_commit hw entryOf_eventQHead (fun h => by simp at h) (and_mask_of_lt hv) (writeEventHead_ok h).1

theorem exec_eventQHead_refused {src v : Nat} {s : State} (hw : Writable s K.eventQHead) (hv : v < 2 ^ 32)
    (h : ahead s.ev.tail s.ev.head < ahead v s.ev.head) :
    exec (.eventQHead src v) s = .next (refuseWrite src K.eventQHead 3 s) := by
  have h3 := writeEventHead_bad h
  have := outside_turned_away (src := src) hw entryOf_eventQHead (fun h => by simp at h) (and_mask_of_lt hv)
    (by rw [h3]; decide)
  rwa [h3] at this

theorem exec_eventRaise {i : Nat} {r : EventRec} {s : State} (hr : s.ev.inFlight[i]? = some r) (ha : alive s = true)
    (hopen : routeOpen s r.source 10 = true) (t : State)
    (ht : t = grantEvent r { s with ev := { s.ev with inFlight := s.ev.inFlight.eraseIdx i } }) :
    exec (.eventRaise i) s = .next (if r.code = dv t K.shotMatch then fireShot 2 (nodeId t) 0 t else t) := by
  subst ht
  change execEventRaise i s = _
  simp only [execEventRaise, hr, ha, hopen, Bool.not_true, Bool.false_eq_true, if_false]

/-- Settles O55. -/
theorem snapshotsCountersAndEvents : Obligations.SnapshotsCountersAndEvents := by
  unfold Obligations.SnapshotsCountersAndEvents
  refine ⟨fun src v s hw hv => exec_shotFire hw hv, fun source node tag s => ⟨fireShot_captures, fireShot_merged⟩,
    fun ns s ha => ⟨fun hc hns => ?_, fun h => ?_⟩, fun conn node tag s ha => ⟨fun hf hst => ?_, fun hf => ?_⟩,
    fun s ha hb => ?_, fun src v s hw hv h => ?_, fun src v s hw hv => ?_,
    fun i r t s hr ha hopen ht => exec_eventRaise hr ha hopen t ht,
    fun r s => ⟨grantEvent_takes_seq, fun n => grantEvent_folds⟩, fun src v s hw hv => ?_⟩
  · rw [exec_shotIn ns ha, if_pos ⟨hc, hns⟩]
  · rw [exec_shotIn ns ha, if_neg]
    rintro ⟨hc, hns⟩
    rcases h with h | h
    · simp [hc] at h
    · omega
  · rw [exec_shotlineMessage _ _ _ ha, if_pos ⟨hf, hst⟩]
  · rw [exec_shotlineMessage _ _ _ ha, if_neg (by simp [hf])]
  · change when_ (alive s && s.snap.busy) _ _ = _
    rw [ha, hb]
    rfl
  · refine ⟨_, exec_counterClear hw hv h, fun k hc hk => ?_, fun k hc hk => ?_, rfl⟩
    · rw [dv_acceptWrite_of_ne _ (ne_dictWriteSeq_of_counter hc)]
      refine dv_zeroCounters_of_named s hc ?_
      simpa [namedCounters, or_assoc] using hk
    · rw [dv_acceptWrite_of_ne _ hk, dv_zeroCounters_of_other s hc]
  · exact exec_errSummaryClear hw hv
  · rcases Nat.lt_or_ge (ahead s.ev.tail s.ev.head) (ahead v s.ev.head) with hbad | hok
    · refine ⟨_, exec_eventQHead_refused hw hv hbad, fun h => absurd h (Nat.not_le.2 hbad), fun _ => ⟨refuseWrite_onlyRecords .., ?_⟩⟩
      exact head_of_still (refuseWrite_still ..)
    · obtain ⟨-, hhead, htail⟩ := writeEventHead_ok hok
      exact ⟨_, exec_eventQHead hw hv hok, fun _ => by rw [acceptWrite_ev]; exact ⟨hhead, htail⟩,
        fun h => absurd hok (Nat.not_le.2 h)⟩

end Sys2Proof.Machine

/-! ### The local window and the dictionary protocol (O56) -/

namespace Sys2Proof.Machine

theorem exec_windowStore_of_arrives {core off n v : Nat} {s t : State} (hup : dieUp s (dieOfCore core) = true)
    (hp : takePosted core s = .arrives off n v t) :
    (off < 0x100000000 → exec (.windowSlotStore core) s = .next (slotStore off n v t)) ∧
    (0x100000000 ≤ off → exec (.blobApertureStore core) s = .next (apertureStore off n v t)) := by
  refine ⟨fun hoff => ?_, fun hoff => ?_⟩
  · change execWindowSlotStore core s = _
    simp only [execWindowSlotStore, hup, hp, Nat.not_le.2 hoff, Bool.not_true, Bool.false_eq_true, if_false]
  · change execBlobApertureStore core s = _
    simp only [execBlobApertureStore, hup, hp, Nat.not_lt.2 hoff, Bool.not_true, Bool.false_eq_true, if_false]

theorem exec_windowStore_of_refused {core : Nat} {s t : State} (hup : dieUp s (dieOfCore core) = true)
    (hp : takePosted core s = .refused t) :
    exec (.windowSlotStore core) s = .next t ∧ exec (.blobApertureStore core) s = .next t := by
  refine ⟨?_, ?_⟩
  · change execWindowSlotStore core s = _
    simp only [execWindowSlotStore, hup, hp, Bool.not_true, Bool.false_eq_true, if_false]
  · change execBlobApertureStore core s = _
    simp only [execBlobApertureStore, hup, hp, Bool.not_true, Bool.false_eq_true, if_false]

theorem sizeOf_of_entry {key : Nat} {r : EntryRow} (h : entryOf key = some r) : sizeOf key = r.size := by
  simp only [sizeOf, h]

/-- A store to a slot of a scalar: a store that covers it writes it, another is refused LENGTH. -/
theorem slotStore_scalar {off n v : Nat} {r : EntryRow} {s : State} (hoff : off < 0x8000000)
    (he : entryOf (off / 8) = some r) (hb : isBlob (off / 8) = false) :
    slotStore off n v s = if off % 8 = 0 ∧ r.size ≤ n then (scalarWrite 0 (off / 8) (v % 2 ^ (8 * r.size)) s).2
      else (commit 0 (off / 8) (fun t => (5, t)) s).2 := by
  have hcover : ((off % 8 != 0 || decide (n < r.size)) = true) ↔ ¬(off % 8 = 0 ∧ r.size ≤ n) := by
    simp only [Bool.or_eq_true, bne_iff_ne, decide_eq_true_eq]
    omega
  simp only [slotStore, Nat.not_le.2 hoff, hb, he, sizeOf_of_entry he, Option.isSome_some, Bool.true_and, hcover,
    Bool.false_eq_true, if_false, ite_not]

theorem apertureStore_staged {off n v : Nat} {s : State} (hb : isBlob ((off - 0x100000000) / 4096) = true)
    (hs : served s ((off - 0x100000000) / 4096) = true) (hn : n ≤ 8) :
    apertureStore off n v s =
      stage ((off - 0x100000000) / 4096) ((off - 0x100000000) % 4096) (toBytes n v) s := by
  simp only [apertureStore, hb, hs, hn, Bool.and_self, if_true]

theorem exec_hdpRequest_mgmt (a b : Nat) (msg : List Byte) {s : State} (ha : alive s = true) :
    exec (.hdpRequest (.mgmt a b) msg) s = .next (if s.mgmt.link = 0 then s else serveHdp (.mgmt a b) msg s) :=
  outside_of_alive ha _

theorem exec_hdpRequest_conn {c : Nat} {msg : List Byte} {s : State} (ha : alive s = true) (hm : connMode (connOf s c) = 2)
    (hst : (connOf s c).st = 1) (hf : connFlag (connOf s c) 0 = true) (h16 : msg.length ≠ 16) (hlen : msg.length ≤ 4096) :
    exec (.hdpRequest (.conn c) msg) s = .next (serveHdp (.conn c) msg (send (.roceAck c) s)) := by
  change outside s _ = _
  have hno : (msg.length == 16) = false := beq_false_of_ne h16
  simp only [outside_of_alive ha, hm, hst, hf, hno, hlen, beq_self_eq_true, Bool.and_self, Bool.and_false,
    Bool.false_eq_true, decide_true, if_true, if_false]

/-- The state in which a reply has left and is kept. -/
def replied (p : HdpPath) (seq : Nat) (r : List Byte) (s : State) : State :=
  send (.hdpReply p r) (keepReply { path := p, seq := seq, reply := r } (bump K.hdpRequests 1 s))

theorem replied_keeps (p : HdpPath) (seq : Nat) (r : List Byte) (s : State) :
    (replied p seq r s).out = s.out ++ [.hdpReply p r] ∧ (replied p seq r s).mem = s.mem ∧
    (replied p seq r s).queues = s.queues ∧ (replied p seq r s).hdp.subs = s.hdp.subs ∧
    (replied p seq r s).hdp.kept.getLast? = some { path := p, seq := seq, reply := r } := by
  have hb := bump_onlyRecords K.hdpRequests 1 s
  refine ⟨?_, hb.mem, hb.queues, ?_, List.getLast?_concat⟩
  · simp only [replied, send, keepReply, hb.out]
  · simp only [replied, send, keepReply, hb.hdp]

/-- A request whose source and SEQ are kept is answered with the reply that is kept. -/
theorem serveHdp_of_kept {p : HdpPath} {msg : List Byte} {k : Kept} {s : State}
    (h : (s.hdp.kept.find? fun k => k.path == p && k.seq == fld (ofBytes (msg.take 16)) 4 4) = some k) :
    serveHdp p msg s = replied p (fld (ofBytes (msg.take 16)) 4 4) k.reply (bump K.hdpDuplicates 1 s) := by
  simp only [serveHdp, h, replied]

/-- Any other request is performed, and its reply kept. -/
theorem serveHdp_of_new {p : HdpPath} {msg : List Byte} {s : State}
    (h : (s.hdp.kept.find? fun k => k.path == p && k.seq == fld (ofBytes (msg.take 16)) 4 4) = none) :
    serveHdp p msg s =
      replied p (fld (ofBytes (msg.take 16)) 4 4) (answerRequest p msg s).1 (answerRequest p msg s).2 := by
  simp only [serveHdp, h, replied]

theorem answerRequest_of_error {p : HdpPath} {msg : List Byte} {n : Nat} {s : State} (h : checkRequest s p msg = .error n) :
    answerRequest p msg s = (replyHeader (topVersion s) (fld (ofBytes (msg.take 16)) 4 4) 0 16 n,
      sumErr 13 (bump K.hdpMalformed 1 s)) := by
  simp only [answerRequest, h]

/-- The time at which a subscriber's next message leaves. -/
def sentFrom (u : Subscriber) (s : State) : State :=
  match u.lastSent with
  | some at_ => atLeast (at_ + 10000) s
  | none => s

theorem sentFrom_keeps (u : Subscriber) (s : State) : sentFrom u s = { s with time := (sentFrom u s).time } := by
  unfold sentFrom
  split <;> rfl

theorem sentFrom_waits {u : Subscriber} {l : Nat} (s : State) (h : u.lastSent = some l) :
    l + 10000 ≤ (sentFrom u s).time.now := by
  simp only [sentFrom, h]
  exact Nat.le_max_right ..

/-- The state in which 32 records of subscriber i have left. -/
def eventsSent (i : Nat) (u : Subscriber) (s : State) : State :=
  let t := sentFrom u s
  send (.hdpEvents u.path u.version (u.waiting.take 32)) { t with hdp := { t.hdp with
    subs := t.hdp.subs.set i { u with waiting := u.waiting.drop 32, lastSent := some t.time.now } } }

theorem exec_eventSend {i : Nat} {u : Subscriber} {s : State} (hu : s.hdp.subs[i]? = some u) (ha : alive s = true)
    (hw : u.waiting ≠ []) :
    exec (.eventSend i) s = .next (eventsSent i u s) := by
  have hne : u.waiting.isEmpty = false := List.isEmpty_eq_false_iff.2 hw
  change execEventSend i s = _
  simp only [execEventSend, hu, ha, hne, Bool.not_true, Bool.or_self, Bool.false_eq_true, if_false]
  rfl

theorem entryOf_faceLfsrSeed {die : Nat} (h : die < 8) :
    entryOf (K.faceLfsrSeed + die) = some ⟨K.faceLfsrSeed, K.faceLfsrSeed + 7, 2, 2, 0, 4, 0, 2 ^ 32 - 1⟩ := by
  rcases (by omega : die = 0 ∨ die = 1 ∨ die = 2 ∨ die = 3 ∨ die = 4 ∨ die = 5 ∨ die = 6 ∨ die = 7) with
    rfl | rfl | rfl | rfl | rfl | rfl | rfl | rfl <;> decide +kernel

/-- Settles O56. -/
theorem windowAndProtocolAreServed : Obligations.WindowAndProtocolAreServed := by
  unfold Obligations.WindowAndProtocolAreServed
  refine ⟨fun core off n v s t => exec_windowStore_of_arrives, fun core s t => exec_windowStore_of_refused,
    fun off n v r s hoff he hb hc => ⟨fun h8 hn => ?_, fun h => ?_⟩,
    fun off n v s => apertureStore_staged, fun a b msg s ha => ⟨fun h => ?_, fun h => ?_⟩,
    fun c msg s => exec_hdpRequest_conn, fun p msg s => ⟨fun k hk => ?_, fun hk => ?_⟩, fun p msg n s h => ?_,
    fun i u s hu ha hw => ?_, fun src die seed s hd hseed hw => ?_⟩
  · rw [slotStore_scalar hoff he hb, if_pos ⟨h8, hn⟩]
  · rw [slotStore_scalar hoff he hb, if_neg (by omega), commit_turned_away _ _ _ s hc (Nat.succ_ne_zero 4)]
  · rw [exec_hdpRequest_mgmt a b msg ha, if_pos h]
  · rw [exec_hdpRequest_mgmt a b msg ha, if_neg h]
  · rw [serveHdp_of_kept hk]
    obtain ⟨hout, hmem, hqueues, hsubs, -⟩ := replied_keeps p (fld (ofBytes (msg.take 16)) 4 4) k.reply
      (bump K.hdpDuplicates 1 s)
    have hb := bump_onlyRecords K.hdpDuplicates 1 s
    exact ⟨by rw [hout, hb.out], hmem.trans hb.mem, hqueues.trans hb.queues, hsubs.trans (congrArg Hdp.subs hb.hdp)⟩
  · rw [serveHdp_of_new hk]
    obtain ⟨hout, -, -, -, hlast⟩ := replied_keeps p (fld (ofBytes (msg.take 16)) 4 4) (answerRequest p msg s).1
      (answerRequest p msg s).2
    exact ⟨hout, hlast⟩
  · rw [answerRequest_of_error h]
    exact ⟨rfl, (bump_onlyRecords ..).trans (sumErr_onlyRecords ..)⟩
  · have hi : i < s.hdp.subs.length := (List.getElem?_eq_some_iff.1 hu).1
    refine ⟨_, { u with waiting := u.waiting.drop 32, lastSent := some (sentFrom u s).time.now }, exec_eventSend hu ha hw,
      ?_, ?_, rfl, rfl, fun l hl => sentFrom_waits s hl⟩
    · simp only [eventsSent, send]
      rw [sentFrom_keeps]
    · have hsubs : (sentFrom u s).hdp.subs = s.hdp.subs := by rw [sentFrom_keeps]
      simp only [eventsSent, send, hsubs, List.getElem?_set_self hi]
  · exact outside_commit (act := actFaceLfsrSeed die) hw (entryOf_faceLfsrSeed hd) (fun h => by simp at h)
      (and_mask_of_lt hseed) rfl

end Sys2Proof.Machine

/-! ### The management port and the IEEE 1588 clock (O54) -/

namespace Sys2Proof.Machine

theorem exec_mgmtSettingsApply {at_ key v : Nat} {rest : List (Nat × Nat × Nat)} {s : State}
    (hw : s.mgmt.waiting = (at_, key, v) :: rest) (ha : alive s = true) :
    exec .mgmtSettingsApply s = .next { atLeast at_ s with
      mgmt := { applySetting key v (atLeast at_ s).time.now s.mgmt with waiting := rest } } := by
  change execMgmtSettingsApply s = _
  simp only [execMgmtSettingsApply, hw, ha, Bool.not_true, Bool.false_eq_true, if_false, atLeast_mgmt]

theorem applySetting_sets (key v now : Nat) (m : Mgmt) :
    (key = K.mgmtIp → (applySetting key v now m).ip = toBytes 16 v) ∧
    (key = K.mgmtPrefix → (applySetting key v now m).prefixLen = v) ∧
    (key = K.mgmtMode → (applySetting key v now m).mode = v) := by
  refine ⟨?_, ?_, ?_⟩
  · rintro rfl
    rfl
  · rintro rfl
    rfl
  · rintro rfl
    simp only [applySetting, if_true, setMode]
    split <;> rfl

theorem exec_mgmtModeFallback {s : State} (ha : alive s = true) (hm : s.mgmt.mode = 2) (hl : s.mgmt.link = 0)
    (ht : s.mgmt.trying = 0) :
    exec .mgmtModeFallback s = .next { atLeast (s.mgmt.since + 500000000) s with
      mgmt := { s.mgmt with trying := 1, since := (atLeast (s.mgmt.since + 500000000) s).time.now } } := by
  change execMgmtModeFallback s = _
  simp only [execMgmtModeFallback, ha, hm, hl, ht, Bool.not_true, bne_self_eq_false, Bool.or_self, Bool.false_eq_true,
    if_false, atLeast_mgmt]

theorem exec_mgmtLinkUp (speed : Nat) {s : State} (ha : alive s = true) :
    exec (.mgmtLinkUp speed) s = .next (if speed = linkCode s.mgmt.trying ∧ bit s.board.clocksAbsent 14 = false then
      { s with mgmt := { s.mgmt with link := speed } } else s) := by
  change outside s _ = _
  simp only [outside_of_alive ha, Bool.not_eq_eq_eq_not, Bool.not_true]

theorem exec_mgmtLinkDown {s : State} (ha : alive s = true) (hl : s.mgmt.link ≠ 0) :
    exec .mgmtLinkDown s =
      .next { s with mgmt := { s.mgmt with link := 0, trying := firstTry s.mgmt.mode, since := s.time.now } } := by
  change outside s _ = _
  rw [outside_of_alive ha, if_neg hl]

theorem exec_atAddress {ip : Nat} {s : State} (ha : alive s = true) (hip : atAddress s ip = true) :
    (∀ tag, exec (.icmpEcho ip tag) s = .next (send (.echoReply ip tag) s)) ∧
    exec (.arpRequest ip) s = .next (if isIpv4 (portAddress s) then send (.arpReply ip) s else s) ∧
    exec (.neighbourDiscovery ip) s = .next (if isIpv4 (portAddress s) then s else send (.ndReply ip) s) := by
  refine ⟨fun tag => ?_, ?_, ?_⟩
  · change outside s _ = _
    rw [outside_of_alive ha, if_pos hip]
  · change outside s _ = _
    simp only [outside_of_alive ha, hip, Bool.true_and]
  · change outside s _ = _
    cases h : isIpv4 (portAddress s) <;>
      simp only [outside_of_alive ha, hip, Bool.true_and, Bool.not_true, Bool.not_false, Bool.false_eq_true, if_true, if_false]

/-! #### The time of day -/

/-- The time of day before it is cut to 64 bits. -/
def rawTime (t : TimeS) : Int := (t.now : Int) - (t.epoch : Int) + t.offset + slewDone t

theorem timeOfDay_eq (s : State) : timeOfDay s = unsigned 64 (rawTime s.time) := rfl

theorem unsigned_add (x o : Int) : unsigned 64 ((unsigned 64 x : Int) + o) = unsigned 64 (x + o) := by
  have hx : ((unsigned 64 x : Nat) : Int) = x % 2 ^ 64 := Int.toNat_of_nonneg (Int.emod_nonneg _ (by decide))
  rw [hx, unsigned, Int.emod_add_emod, unsigned]

theorem slewDone_of_none {t : TimeS} (h : t.slewBy = 0) : slewDone t = 0 := by
  simp [slewDone, h]

theorem slewDone_of_new {t : TimeS} (h : t.slewAt = t.now) : slewDone t = 0 := by
  simp [slewDone, h]

/-- A step moves the time of day by the offset. -/
theorem timeOfDay_stepTime (o : Int) (s : State) : timeOfDay (stepTime o s) = unsigned 64 ((timeOfDay s : Int) + o) := by
  have htime : (stepTime o s).time = { holdSlew s.time with offset := (holdSlew s.time).offset + o } :=
    (raise_onlyRecords ..).time.trans (bump_onlyRecords ..).time
  rw [timeOfDay_eq, timeOfDay_eq, unsigned_add, htime, rawTime, slewDone_of_none rfl, rawTime]
  simp only [holdSlew]
  congr 1
  omega

/-- A slew that begins leaves the time of day where it stands. -/
theorem timeOfDay_slewTime (o : Int) (s : State) : timeOfDay (slewTime o s) = timeOfDay s := by
  rw [timeOfDay_eq, timeOfDay_eq, rawTime, slewDone_of_new rfl, rawTime]
  simp only [slewTime, holdSlew, takeFree]
  congr 1
  omega

/-! #### Sync, Follow_Up and Delay_Resp -/

/-- The clock after a Sync has been timestamped. -/
def syncTaken (m : PtpMsg) (s : State) : State :=
  let back := s.time.ptpState != 1 && s.time.ptpState != 2
  { s with time := { s.time with
      syncOrigin := none, syncLocal := m.local_, awaitFollowUp := m.twoStep, lastSync := s.time.now, gmId := m.gmId % 2 ^ 64
      ptpState := if back then 1 else s.time.ptpState
      good := if back then 0 else s.time.good } }

theorem exec_ptpSync {m : PtpMsg} {s : State} (ha : alive s = true) (hm : ptpHears s m = true) :
    exec (.ptpSync m) s = .next (if m.twoStep then syncTaken m s else syncKnown m.origin (syncTaken m s)) := by
  change outside s _ = _
  simp only [outside_of_alive ha, hm, Bool.not_true, Bool.false_eq_true, if_false, syncTaken]

theorem ptpState_syncTaken {m : PtpMsg} {s : State} (h : s.time.ptpState = 0 ∨ s.time.ptpState = 3) :
    (syncTaken m s).time.ptpState = 1 := by
  rcases h with h | h <;> simp [syncTaken, h]

/-- What a Sync leaves, whether or not a Follow_Up brings its origin time. -/
theorem exec_ptpSync_spec {m : PtpMsg} {s : State} (ha : alive s = true) (hm : ptpHears s m = true) :
    ∃ t, exec (.ptpSync m) s = .next t ∧ t.time.syncLocal = m.local_ ∧ t.time.lastSync = s.time.now ∧
      (m.twoStep = true → t.time.awaitFollowUp = true ∧ t.time.syncOrigin = none ∧ t.out = s.out) ∧
      (m.twoStep = false → t.time.syncOrigin = some m.origin ∧ t.out = s.out ++ [.ptpDelayReq (timeOfDay s)]) ∧
      ((s.time.ptpState = 0 ∨ s.time.ptpState = 3) → t.time.ptpState = 1) ∧ timeOfDay t = timeOfDay s := by
  cases htwo : m.twoStep
  · refine ⟨syncKnown m.origin (syncTaken m s), ?_, rfl, rfl, nofun, fun _ => ⟨rfl, rfl⟩, ptpState_syncTaken (m := m), rfl⟩
    rw [exec_ptpSync ha hm, htwo]
    rfl
  · refine ⟨syncTaken m s, ?_, rfl, rfl, fun _ => ⟨htwo, rfl, rfl⟩, nofun, ptpState_syncTaken, rfl⟩
    rw [exec_ptpSync ha hm, htwo]
    rfl

theorem exec_ptpFollowUp {m : PtpMsg} {s : State} (ha : alive s = true) (hm : ptpHears s m = true)
    (hw : s.time.awaitFollowUp = true) : exec (.ptpFollowUp m) s = .next (syncKnown m.origin s) := by
  change outside s _ = _
  rw [outside_of_alive ha, hm, hw]
  rfl

theorem exec_ptpDelayResp {m : PtpMsg} {t1 : Nat} {s : State} (ha : alive s = true) (hm : ptpHears s m = true)
    (ht : s.time.syncOrigin = some t1) :
    exec (.ptpDelayResp m) s = .next (judgeOffset (measured t1 s.time.syncLocal m.local_ m.origin)
      { s with time := { s.time with syncOrigin := none } }) := by
  change outside s _ = _
  simp only [outside_of_alive ha, ht, hm, if_true]

/-- How many offsets in a row lay within 100 ns when o has been measured. -/
def goodCount (o : Int) (s : State) : Nat := if o.natAbs ≤ 100 then s.time.good + 1 else 0

/-- The state in which an offset has been counted and has stepped or slewed the time of day. -/
def offsetApplied (o : Int) (s : State) : State :=
  let t : State := { s with time := { s.time with ptpOffset := o, good := goodCount o s } }
  if o.natAbs > dv s K.ptpStepNs then stepTime o t else slewTime o t

theorem stepTime_clock (o : Int) (s : State) :
    (stepTime o s).time.ptpState = s.time.ptpState ∧ (stepTime o s).time.ptpOffset = s.time.ptpOffset ∧
    (stepTime o s).time.syncOrigin = s.time.syncOrigin := by
  have htime : (stepTime o s).time = { holdSlew s.time with offset := (holdSlew s.time).offset + o } :=
    (raise_onlyRecords ..).time.trans (bump_onlyRecords ..).time
  rw [htime]
  exact ⟨rfl, rfl, rfl⟩

theorem offsetApplied_spec (o : Int) (s : State) :
    (offsetApplied o s).time.ptpState = s.time.ptpState ∧ (offsetApplied o s).time.ptpOffset = o ∧
    (offsetApplied o s).time.syncOrigin = s.time.syncOrigin ∧
    timeOfDay (offsetApplied o s) = if dv s K.ptpStepNs < o.natAbs then unsigned 64 ((timeOfDay s : Int) + o) else timeOfDay s := by
  unfold offsetApplied
  by_cases h : dv s K.ptpStepNs < o.natAbs
  · simp only [gt_iff_lt, h, if_true, stepTime_clock, timeOfDay_stepTime]
    exact ⟨trivial, trivial, trivial, rfl⟩
  · simp only [gt_iff_lt, h, if_false, timeOfDay_slewTime]
    exact ⟨rfl, rfl, rfl, rfl⟩

theorem judgeOffset_spec (o : Int) (s : State) :
    (judgeOffset o s).time.ptpOffset = o ∧ (judgeOffset o s).time.syncOrigin = s.time.syncOrigin ∧
    timeOfDay (judgeOffset o s) = timeOfDay (offsetApplied o s) ∧
    (s.time.ptpState = 1 → 9 ≤ s.time.good → o.natAbs ≤ 100 → (judgeOffset o s).time.ptpState = 2) := by
  obtain ⟨hstate, hoffset, horigin, -⟩ := offsetApplied_spec o s
  have hdef : judgeOffset o s = if (offsetApplied o s).time.ptpState = 1 ∧ 10 ≤ goodCount o s then
    raise 0x91 10 (offsetApplied o s).time.gmId 0
      { offsetApplied o s with time := { (offsetApplied o s).time with ptpState := 2 } } else offsetApplied o s := rfl
  rw [hdef, hstate]
  split
  · exact ⟨hoffset, horigin, rfl, fun _ _ _ => rfl⟩
  next hno =>
    refine ⟨hoffset, horigin, rfl, fun h1 h9 h100 => absurd ⟨h1, ?_⟩ hno⟩
    rw [goodCount, if_pos h100]
    omega

/-- The clock of 4,000,000,000 ns without a Sync. -/
def holdover (s : State) : State :=
  let t := atLeast (s.time.lastSync + 4000000000) s
  { t with time := { t.time with ptpState := 3, good := 0, syncOrigin := none, awaitFollowUp := false } }

theorem exec_ptpSyncTimeout {s : State} (ha : alive s = true) (h : s.time.ptpState = 1 ∨ s.time.ptpState = 2) :
    exec .ptpSyncTimeout s = .next (raise 0x92 10 0 0 (holdover s)) := by
  have hno : (!alive s || (s.time.ptpState != 1 && s.time.ptpState != 2)) = false := by
    rcases h with h | h <;> simp [ha, h]
  change execPtpSyncTimeout s = _
  simp only [execPtpSyncTimeout, hno, Bool.false_eq_true, if_false, holdover]

/-- Settles O54. -/
theorem managementPortAndClockFollow : Obligations.ManagementPortAndClockFollow := by
  unfold Obligations.ManagementPortAndClockFollow
  refine ⟨fun at_ key v rest s hw ha => ?_, fun s ha hm hl ht => ?_,
    fun speed s ha => ⟨fun hs hc => ?_, fun hs => ?_⟩, fun s => exec_mgmtLinkDown,
    fun ip tag s ha hip => ?_, fun m s => exec_ptpSync_spec, fun m s ha hm hw => ?_, fun m t1 s ha hm ht => ?_,
    fun s ha h => ?_⟩
  · obtain ⟨hip, hprefix, hmode⟩ := applySetting_sets key v (atLeast at_ s).time.now s.mgmt
    exact ⟨_, exec_mgmtSettingsApply hw ha, Nat.le_max_right .., rfl, hip, hprefix, hmode, rfl, rfl⟩
  · exact ⟨_, exec_mgmtModeFallback ha hm hl ht, rfl, Nat.le_max_right .., rfl⟩
  · rw [exec_mgmtLinkUp speed ha, if_pos ⟨hs, hc⟩]
  · rw [exec_mgmtLinkUp speed ha, if_neg fun h => hs h.1]
  · obtain ⟨hecho, harp, hnd⟩ := exec_atAddress ha hip
    refine ⟨hecho tag, fun h4 => ⟨?_, ?_⟩, fun h6 => ⟨?_, ?_⟩⟩
    · rw [harp, if_pos h4]
    · rw [hnd, if_pos h4]
    · rw [hnd, if_neg (by simp [h6])]
    · rw [harp, if_neg (by simp [h6])]
  · exact ⟨_, exec_ptpFollowUp ha hm hw, rfl, rfl, rfl⟩
  · obtain ⟨hoffset, horigin, hday, hlock⟩ := judgeOffset_spec (measured t1 s.time.syncLocal m.local_ m.origin)
      { s with time := { s.time with syncOrigin := none } }
    obtain ⟨-, -, -, happlied⟩ := offsetApplied_spec (measured t1 s.time.syncLocal m.local_ m.origin)
      { s with time := { s.time with syncOrigin := none } }
    refine ⟨_, _, exec_ptpDelayResp ha hm ht, rfl, hoffset, horigin, fun h => ?_, fun h => ?_, hlock⟩
    · rw [hday, happlied]
      exact if_pos h
    · rw [hday, happlied]
      exact if_neg (Nat.not_lt.2 h)
  · obtain ⟨e, he, hcode, -⟩ := raise_inFlight 0x92 10 0 0 (holdover s)
    exact ⟨_, e, exec_ptpSyncTimeout ha h, rfl, Nat.le_max_right .., he, hcode⟩

end Sys2Proof.Machine

/-! ### The Weighbridge (O53) -/

namespace Sys2Proof.Machine

/-! #### What governing the points keeps -/

/-- What a window's step leaves: memory, time, the board, the dies held, the rails to write again, every message sent, and
the envelope. -/
structure Governs (s t : State) : Prop where
  mem : t.mem = s.mem
  time : t.time = s.time
  board : t.board = s.board
  held : t.diesHeld = s.diesHeld
  retry : t.weigh.avsRetry = s.weigh.avsRetry
  out : ∀ m, m ∈ s.out → m ∈ t.out
  envelope : dv t K.envelopeW = dv s K.envelopeW

namespace Governs
variable {s t u : State}

theorem refl (s : State) : Governs s s := ⟨rfl, rfl, rfl, rfl, rfl, fun _ h => h, rfl⟩

theorem trans (h : Governs s t) (k : Governs t u) : Governs s u :=
  ⟨k.mem.trans h.mem, k.time.trans h.time, k.board.trans h.board, k.held.trans h.held, k.retry.trans h.retry,
    fun m hm => k.out m (h.out m hm), k.envelope.trans h.envelope⟩

theorem foldl {α : Type} {f : State → α → State} (h : ∀ t x, Governs t (f t x)) (l : List α) (s : State) :
    Governs s (l.foldl f s) := by
  induction l generalizing s with
  | nil => exact refl s
  | cons x l ih => exact (h s x).trans (ih _)

theorem setDv {k : Nat} (h : K.envelopeW ≠ k) (v : Nat) (s : State) : Governs s (setDv k v s) :=
  ⟨rfl, rfl, rfl, rfl, rfl, fun _ h => h, dv_setDv_of_ne _ _ h⟩

theorem bump {k : Nat} (h : 0x300000 ≤ k) (n : Nat) (s : State) : Governs s (bump k n s) := by
  have hb := bump_onlyRecords k n s
  refine ⟨hb.mem, hb.time, hb.board, hb.diesHeld, congrArg Weigh.avsRetry hb.weigh, fun m hm => by rwa [hb.out], ?_⟩
  refine dv_bump_of_ne n s ?_ ?_ ?_
  · simp only [K.envelopeW]
    omega
  · decide
  · decide

theorem setDiePower (d : Nat) (x : DiePower) (s : State) : Governs s (setDiePower d x s) :=
  ⟨rfl, rfl, rfl, rfl, rfl, fun _ h => h, rfl⟩

theorem setStation (d : Nat) (x : Station) (s : State) : Governs s (setStation d x s) :=
  ⟨rfl, rfl, rfl, rfl, rfl, fun _ h => h, rfl⟩

theorem send (m : OutMsg) (s : State) : Governs s (send m s) :=
  ⟨rfl, rfl, rfl, rfl, rfl, fun _ h => List.mem_append_left _ h, rfl⟩

theorem setPoint (d p : Nat) (s : State) : Governs s (setPoint d p s) := by
  rw [Machine.setPoint]
  split
  · exact setDiePower ..
  · exact (setDiePower ..).trans (send ..)

theorem markThrottle (s : State) : Governs s (markThrottle s) := setDv (by decide) ..

end Governs

theorem diePower_setDiePower_self (d : Nat) (x : DiePower) (s : State) : diePower (setDiePower d x s) d = x := Tab.get_put_self ..

theorem diePower_setDiePower_of_ne {d e : Nat} (x : DiePower) (s : State) (h : e ≠ d) :
    diePower (setDiePower d x s) e = diePower s e := Tab.get_put_of_ne _ _ _ h

theorem diePower_congr {s t : State} (h : t.weigh = s.weigh) (d : Nat) : diePower t d = diePower s d := by
  rw [diePower, diePower, h]

theorem diePower_send (m : OutMsg) (s : State) (d : Nat) : diePower (send m s) d = diePower s d := rfl

theorem diePower_setPoint_self (d p : Nat) (s : State) :
    diePower (setPoint d p s) d = { diePower s d with point := p } := by
  rw [setPoint]
  split
  · exact diePower_setDiePower_self ..
  · rw [diePower_send, diePower_setDiePower_self]

theorem diePower_setPoint_of_ne {d e : Nat} (p : Nat) (s : State) (h : e ≠ d) :
    diePower (setPoint d p s) e = diePower s e := by
  rw [setPoint]
  split
  · exact diePower_setDiePower_of_ne _ _ h
  · rw [diePower_send, diePower_setDiePower_of_ne _ _ h]

/-- A point that changes is written to its regulator. -/
theorem setPoint_sends {d p : Nat} {s : State} (h : (diePower s d).point ≠ p) :
    OutMsg.avsWrite d (pointMv p) ∈ (setPoint d p s).out := by
  simp only [setPoint, h, if_false]
  exact List.mem_append_right _ (List.mem_singleton.2 rfl)

/-! #### A window -/

theorem closeReadings_governs (s : State) : Governs s (closeReadings s) :=
  .foldl (fun t d => (Governs.setDiePower ..).trans (.setDv (by simp only [K.envelopeW, K.hottestC]; omega) ..)) _ _

theorem moveCeiling_governs (s : State) (d : Nat) : Governs s (moveCeiling s d) := by
  rw [moveCeiling]
  split
  · exact .refl s
  · exact .setDiePower ..

theorem refillStation_governs (rem total : Nat) (s : State) (d : Nat) : Governs s (refillStation rem total s d) := by
  rw [refillStation]
  split
  · exact .refl s
  · exact .setStation ..

/-- The point that a window chooses for a die. -/
def governPoint (ash refill : Nat → Nat) (t : State) (d : Nat) : Nat :=
  if t.board.thermtrip then 0
  else if d < 8 then choosePoint t d (ash d) (refill d)
  else min (dv t K.medlarPoint) (diePower t d).ceiling

/-- A die takes its point, and one that its regulator did not take is written again. -/
def governDie (ash refill : Nat → Nat) (t : State) (d : Nat) : State :=
  if bit t.diesHeld d then t
  else
    let p := governPoint ash refill t d
    let u := setPoint d p t
    if t.weigh.avsRetry.contains d && (diePower t d).point == p then send (.avsWrite d (pointMv p)) u else u

theorem governDie_governs (ash refill : Nat → Nat) (t : State) (d : Nat) : Governs t (governDie ash refill t d) := by
  rw [governDie]
  split
  · exact .refl t
  · dsimp only
    split
    · exact (Governs.setPoint ..).trans (.send ..)
    · exact .setPoint ..

theorem diePower_governDie_of_ne (ash refill : Nat → Nat) (t : State) {d e : Nat} (h : e ≠ d) :
    diePower (governDie ash refill t d) e = diePower t e := by
  rw [governDie]
  split
  · rfl
  · dsimp only
    split
    · rw [diePower_send, diePower_setPoint_of_ne _ _ h]
    · exact diePower_setPoint_of_ne _ _ h

/-- A die in service whose regulator did not take the last write is written now; after a trip its point is 0. -/
theorem governDie_self (ash refill : Nat → Nat) {t : State} {d : Nat} (hup : bit t.diesHeld d = false) :
    (d ∈ t.weigh.avsRetry →
      OutMsg.avsWrite d (pointMv (diePower (governDie ash refill t d) d).point) ∈ (governDie ash refill t d).out) ∧
    (t.board.thermtrip = true → (diePower (governDie ash refill t d) d).point = 0) := by
  simp only [governDie, hup, Bool.false_eq_true, if_false]
  generalize hp : governPoint ash refill t d = p
  have hself : (diePower (setPoint d p t) d).point = p := by rw [diePower_setPoint_self]
  have htrip : t.board.thermtrip = true → p = 0 := fun h => by rw [← hp, governPoint, if_pos h]
  split
  next hsame =>
    rw [diePower_send, hself]
    exact ⟨fun _ => List.mem_append_right _ (List.mem_singleton.2 rfl), htrip⟩
  next hdiff =>
    rw [hself]
    refine ⟨fun hmem => setPoint_sends fun hpt => hdiff ?_, htrip⟩
    simp only [List.contains_eq_mem, hmem, hpt, decide_true, beq_self_eq_true, Bool.and_self]

/-- Governing the dies in turn reaches each of them. -/
theorem foldl_governDie (ash refill : Nat → Nat) {l : List Nat} (hnd : l.Nodup) (s : State) {d : Nat} (hd : d ∈ l)
    (hup : bit s.diesHeld d = false) :
    (d ∈ s.weigh.avsRetry → OutMsg.avsWrite d (pointMv (diePower (l.foldl (governDie ash refill) s) d).point) ∈
      (l.foldl (governDie ash refill) s).out) ∧
    (s.board.thermtrip = true → (diePower (l.foldl (governDie ash refill) s) d).point = 0) := by
  have hgov : ∀ (l : List Nat) (t : State), Governs t (l.foldl (governDie ash refill) t) :=
    Governs.foldl (governDie_governs ash refill)
  have hkept : ∀ (l : List Nat) (t : State), d ∉ l → diePower (l.foldl (governDie ash refill) t) d = diePower t d :=
    fun l t hl => by
      induction l generalizing t with
      | nil => rfl
      | cons e l ih =>
        obtain ⟨hne, hl⟩ := not_or.1 (mt List.mem_cons.2 hl)
        exact (ih _ hl).trans (diePower_governDie_of_ne ash refill t hne)
  obtain ⟨l₁, l₂, rfl⟩ := List.append_of_mem hd
  have hl₂ : d ∉ l₂ := (List.nodup_cons.1 (List.nodup_append.1 hnd).2.1).1
  have hbefore := hgov l₁ s
  obtain ⟨hsent, hzero⟩ := governDie_self ash refill (t := l₁.foldl (governDie ash refill) s) (d := d) (by rwa [hbefore.held])
  rw [List.foldl_append, List.foldl_cons, hkept _ _ hl₂]
  exact ⟨fun h => (hgov l₂ _).out _ (hsent (by rwa [hbefore.retry])), fun h => hzero (by rwa [hbefore.board])⟩

/-- The state in which the budget of a window has been shared out. -/
def budgeted (measured : Option RailEnergy) (s0 : State) : State :=
  let s2 := markThrottle ((List.range 10).foldl moveCeiling (closeReadings s0))
  let others : Nat := match measured with
    | some m => m.hbm + (List.range 2).foldl (fun a n => if bit s0.diesHeld (8 + n) then a else a + m.med.getD n 0) 0 + m.row
    | none => 0
  let total := (List.range 8).foldl (fun a d => a + stationWeight s2 d) 0
  (List.range 8).foldl (refillStation (dv s2 K.envelopeW * 100 - s2.weigh.excess - others) total) s2

theorem budgeted_governs (measured : Option RailEnergy) (s : State) : Governs s (budgeted measured s) :=
  ((closeReadings_governs s).trans ((Governs.foldl moveCeiling_governs ..).trans (.markThrottle _))).trans
    (.foldl (refillStation_governs _ _) ..)

/-- The state in which a window's points stand and rail 10 has been written again. -/
def railWritten (s : State) : State :=
  if s.weigh.avsRetry.contains 10 then send (.avsWrite 10 (pointMv 8)) s else s

/-- A window that begins: its budget, its points, rail 10, and its own record. -/
theorem openWindow_eq (measured : Option RailEnergy) (s : State) : ∃ ash refill t,
    t = railWritten ((List.range 10).foldl (governDie ash refill) (budgeted measured s)) ∧
    openWindow measured s = { t with weigh := { t.weigh with
      started := true, windowAt := t.time.now, avsRetry := []
      envelope := dv (markThrottle ((List.range 10).foldl moveCeiling (closeReadings s))) K.envelopeW } } :=
  ⟨_, _, _, rfl, rfl⟩

theorem railWritten_governs (s : State) : Governs s (railWritten s) := by
  rw [railWritten]
  split
  · exact .send ..
  · exact .refl s

theorem railWritten_sends {s : State} (h : 10 ∈ s.weigh.avsRetry) : OutMsg.avsWrite 10 (pointMv 8) ∈ (railWritten s).out := by
  rw [railWritten, if_pos (by simpa using h)]
  exact List.mem_append_right _ (List.mem_singleton.2 rfl)

theorem weigh_railWritten (s : State) : (railWritten s).weigh = s.weigh := by
  rw [railWritten]
  split <;> rfl

/-- What a window that begins leaves. -/
theorem openWindow_spec (measured : Option RailEnergy) (s : State) :
    (openWindow measured s).weigh.started = true ∧ (openWindow measured s).time = s.time ∧
    (openWindow measured s).weigh.windowAt = s.time.now ∧ (openWindow measured s).weigh.avsRetry = [] ∧
    (openWindow measured s).weigh.envelope = dv s K.envelopeW ∧ (openWindow measured s).mem = s.mem ∧
    (∀ d, d < 10 → bit s.diesHeld d = false →
      (d ∈ s.weigh.avsRetry →
        OutMsg.avsWrite d (pointMv (diePower (openWindow measured s) d).point) ∈ (openWindow measured s).out) ∧
      (s.board.thermtrip = true → (diePower (openWindow measured s) d).point = 0)) ∧
    (10 ∈ s.weigh.avsRetry → OutMsg.avsWrite 10 (pointMv 8) ∈ (openWindow measured s).out) := by
  obtain ⟨ash, refill, t, ht, heq⟩ := openWindow_eq measured s
  have hbudget := budgeted_governs measured s
  have hpoints := hbudget.trans (Governs.foldl (governDie_governs ash refill) (List.range 10) _)
  have hall : Governs s t := ht ▸ hpoints.trans (railWritten_governs _)
  have hceil := (closeReadings_governs s).trans ((Governs.foldl moveCeiling_governs (List.range 10) _).trans (.markThrottle _))
  have hdies : ∀ d, diePower (openWindow measured s) d = diePower t d := fun d => by rw [heq]; rfl
  rw [heq] at hdies ⊢
  refine ⟨rfl, hall.time, congrArg TimeS.now hall.time, rfl, hceil.envelope, hall.mem, fun d hd hup => ?_, fun h => ?_⟩
  · obtain ⟨hsent, hzero⟩ := foldl_governDie ash refill (List.nodup_range (n := 10)) (budgeted measured s)
      (List.mem_range.2 hd) (by rwa [hbudget.held])
    rw [hdies d, ht, diePower_congr (weigh_railWritten _)]
    exact ⟨fun h => (railWritten_governs _).out _ (hsent (by rwa [hbudget.retry])), fun h => hzero (by rwa [hbudget.board])⟩
  · rw [ht]
    exact railWritten_sends (by rwa [hpoints.retry])

theorem reportWindow_governs (m : RailEnergy) (s : State) : Governs s (reportWindow m s) := by
  have hrail : ∀ (t : State) (d : Nat), Governs t (match m.railMv[d]? with
      | some mv => setDv (K.railMv + d) (min mv 65535) t
      | none => t) := fun t d => by
    split
    · exact .setDv (by simp only [K.envelopeW, K.railMv]; omega) ..
    · exact .refl t
  have hover : ∀ x y : Nat, Governs s (if x > y then bump K.envelopeExceeded 1 s else s) := fun x y => by
    split
    · exact .bump (by decide) ..
    · exact .refl s
  have hash : ∀ (l : List Nat) (t : State),
      Governs t ((List.range 8).foldl (fun v d => setDv (K.ashPowerW + d) (watts (l.getD d 0)) v) t) := fun l t =>
    .foldl (fun v d => .setDv (by simp only [K.envelopeW, K.ashPowerW]; omega) ..) _ _
  have hexcess : ∀ (t : State) (x : Nat), Governs t { t with weigh := { t.weigh with excess := x } } := fun t x =>
    ⟨rfl, rfl, rfl, rfl, rfl, fun _ h => h, rfl⟩
  rw [reportWindow]
  dsimp only
  refine .trans ?_ (hexcess _ _)
  refine .trans ?_ (Governs.foldl hrail _ _)
  refine .trans ?_ (Governs.setDv (by decide) _ _)
  refine .trans ?_ (Governs.setDv (by decide) _ _)
  refine .trans ?_ (Governs.setDv (by decide) _ _)
  refine .trans ?_ (Governs.setDv (by decide) _ _)
  refine .trans ?_ (Governs.bump (by decide) _ _)
  exact (hover _ _).trans (hash _ _)

theorem exec_windowStart (e : RailEnergy) {s : State} (ha : alive s = true) (hs : s.weigh.started = true) :
    exec (.windowStart e) s =
      .next (openWindow (some e) (reportWindow e (atLeast (s.weigh.windowAt + 100000) s))) := by
  change execWindowStart e s = _
  simp only [execWindowStart, ha, hs, Bool.not_true, Bool.or_self, Bool.false_eq_true, if_false]

/-! #### Stations -/

theorem exec_weighStationStart {die : Nat} {w : Work} {s : State} (hup : dieUp s die = true) (hd : die < 8)
    (hs : s.weigh.started = true) (htherm : s.board.thermtrip = false) (htrip : (diePower s die).tripped = false)
    (hw : chooseWork s die = some w) : exec (.weighStationStart die) s = .next (startWork die w s) := by
  change execWeighStationStart die s = _
  simp only [execWeighStationStart, hup, Nat.not_le.2 hd, hs, htherm, htrip, hw, Bool.not_true, decide_false,
    Bool.or_self, Bool.false_eq_true, if_false]

theorem stationOf_setStation_self (d : Nat) (x : Station) (s : State) : stationOf (setStation d x s) d = x :=
  Tab.get_put_self ..

theorem setReserved_keeps (d : Nat) (ws : List Work) (s : State) :
    stationOf (setReserved d ws s) d = { stationOf s d with reserved := ws } ∧ (setReserved d ws s).mem = s.mem ∧
    (setReserved d ws s).grp = s.grp ∧ (setReserved d ws s).faces = s.faces := by
  have hset : stationOf (setStation d { stationOf s d with reserved := ws } s) d = { stationOf s d with reserved := ws } :=
    stationOf_setStation_self ..
  have hbump : ∀ t, stationOf (bump (K.reservations + d) 1 t) d = stationOf t d := fun t => by
    rw [stationOf, stationOf, bump_weigh]
  unfold setReserved
  dsimp only
  split
  · split
    · exact ⟨hset, rfl, rfl, rfl⟩
    · exact ⟨(hbump _).trans hset, bump_mem .., bump_grp .., bump_faces ..⟩
  · exact ⟨hset, rfl, rfl, rfl⟩

theorem stationOf_setFace (d e : Nat) (f : Face) (s : State) : stationOf (setFace d f s) e = stationOf s e := rfl

/-- A station that has started w, for the offers that are left and what w costs. -/
def startedStation (left : List Offer) (cost : Int) (w : Work) (x : Station) : Station :=
  { x with offers := left, tokens := x.tokens - cost
           starts := match w with
             | .group key => x.starts ++ [key]
             | .face _ => x.starts }

/-- The state in which a die's station has started w, with the reservations that stand. -/
def stationStarted (d : Nat) (left : List Offer) (ws : List Work) (w : Work) (s : State) : State :=
  setReserved d ws (setStation d (startedStation left (estimate s d w) w (stationOf s d)) s)

theorem stationStarted_keeps (d : Nat) (left : List Offer) (ws : List Work) (w : Work) (s : State) :
    stationOf (stationStarted d left ws w s) d =
      { startedStation left (estimate s d w) w (stationOf s d) with reserved := ws } ∧
    (stationStarted d left ws w s).mem = s.mem ∧ (stationStarted d left ws w s).grp = s.grp ∧
    (stationStarted d left ws w s).faces = s.faces := by
  obtain ⟨hst, hkept⟩ := setReserved_keeps d ws (setStation d (startedStation left (estimate s d w) w (stationOf s d)) s)
  exact ⟨hst.trans (by rw [stationOf_setStation_self]), hkept⟩

theorem startWork_face (d : Nat) (r : FRun) (s : State) : ∃ left ws, startWork d (.face r) s =
    setFace d { faceOf (stationStarted d left ws (.face r) s) d with
      staged := (faceOf (stationStarted d left ws (.face r) s) d).staged ++ [r] } (stationStarted d left ws (.face r) s) :=
  ⟨_, _, rfl⟩

theorem startWork_group (d key : Nat) (s : State) : ∃ left ws,
    startWork d (.group key) s = stationStarted d left ws (.group key) s := ⟨_, _, rfl⟩

theorem faceOf_setFace_self (d : Nat) (f : Face) (s : State) : faceOf (setFace d f s) d = f := Tab.get_put_self ..

theorem faceOf_congr {s t : State} (h : t.faces = s.faces) (d : Nat) : faceOf t d = faceOf s d := by rw [faceOf, faceOf, h]

/-- What a station's start leaves. -/
theorem startWork_spec (d : Nat) (w : Work) (s : State) :
    (stationOf (startWork d w s) d).tokens = (stationOf s d).tokens - estimate s d w ∧
    (∀ r, w = .face r → (faceOf (startWork d w s) d).staged = (faceOf s d).staged ++ [r] ∧
      (stationOf (startWork d w s) d).starts = (stationOf s d).starts) ∧
    (∀ key, w = .group key → (stationOf (startWork d w s) d).starts = (stationOf s d).starts ++ [key] ∧
      (startWork d w s).faces = s.faces) ∧
    (startWork d w s).mem = s.mem ∧ (startWork d w s).grp = s.grp := by
  cases w with
  | face r =>
    obtain ⟨left, ws, heq⟩ := startWork_face d r s
    obtain ⟨hst, hmem, hgrp, hfaces⟩ := stationStarted_keeps d left ws (.face r) s
    rw [heq, faceOf_setFace_self, stationOf_setFace, hst, faceOf_congr hfaces]
    refine ⟨rfl, fun r' h => ?_, nofun, hmem, hgrp⟩
    cases h
    exact ⟨rfl, rfl⟩
  | group key =>
    obtain ⟨left, ws, heq⟩ := startWork_group d key s
    obtain ⟨hst, hmem, hgrp, hfaces⟩ := stationStarted_keeps d left ws (.group key) s
    rw [heq]
    refine ⟨congrArg Station.tokens hst, fun r h => by simp at h, fun key' h => ⟨?_, hfaces⟩, hmem, hgrp⟩
    cases h
    exact congrArg Station.starts hst

/-! #### Heat -/

/-- The state in which a die's sensors have been read. -/
def sensorsRead (die : Nat) (h : Int) (s : State) : State :=
  let x := diePower s die
  let now := match x.hotNow with | some o => max o h | none => h
  let t := atLeast (x.readAt + 10000) s
  setDiePower die { x with hotNow := some now, hot := h, readAt := t.time.now } t

theorem diePower_sensorsRead (die : Nat) (h : Int) (s : State) :
    (diePower (sensorsRead die h s) die).hot = h ∧
    (diePower (sensorsRead die h s) die).readAt = (sensorsRead die h s).time.now ∧
    (diePower (sensorsRead die h s) die).point = (diePower s die).point ∧
    (diePower (sensorsRead die h s) die).tripped = (diePower s die).tripped := by
  simp only [sensorsRead, diePower_setDiePower_self]
  exact ⟨trivial, rfl, trivial, trivial⟩

theorem exec_thermalSensorRead {die : Nat} (h : Int) {s : State} (hup : dieUp s die = true) :
    exec (.thermalSensorRead die h) s = .next (thermTrip h (if h < 105 then cooled die (sensorsRead die h s)
      else if die < 10 then tripDie die h (sensorsRead die h s)
      else if (diePower s die).hot < 105 then reportTrip die h (sensorsRead die h s) else sensorsRead die h s)) := by
  change execThermalSensorRead die h s = _
  simp only [execThermalSensorRead, hup, Bool.not_true, Bool.false_eq_true, if_false, sensorsRead] <;> rfl

theorem thermTrip_of_cool {h : Int} (hh : h < 120) (s : State) : thermTrip h s = s := by
  simp only [thermTrip, hh, decide_true, Bool.true_or, if_true]

theorem cooled_spec (die : Nat) (s : State) :
    (diePower (cooled die s) die).hot = (diePower s die).hot ∧ (diePower (cooled die s) die).readAt = (diePower s die).readAt ∧
    (diePower (cooled die s) die).point = (diePower s die).point ∧
    ((diePower s die).tripped = false → (diePower (cooled die s) die).tripped = false) ∧
    (cooled die s).board = s.board ∧ (cooled die s).time = s.time := by
  rw [cooled]
  split
  · rw [diePower_setDiePower_self]
    exact ⟨rfl, rfl, rfl, fun _ => rfl, rfl, rfl⟩
  · exact ⟨rfl, rfl, rfl, id, rfl, rfl⟩

theorem reportTrip_onlyRecords (d : Nat) (h : Int) (s : State) : OnlyRecords s (reportTrip d h s) :=
  ((sumErr_onlyRecords ..).trans (bump_onlyRecords ..)).trans (raise_onlyRecords ..)

/-- A die at its limit goes to point 0 and is held there, with its event. -/
theorem tripDie_spec {die : Nat} (h : Int) {s : State} (htrip : (diePower s die).tripped = false)
    (hheld : bit s.diesHeld die = false) :
    (diePower (tripDie die h s) die).point = 0 ∧ (diePower (tripDie die h s) die).ceiling = 0 ∧
    (diePower (tripDie die h s) die).tripped = true ∧
    ∃ e, e ∈ (tripDie die h s).ev.inFlight ∧ e.code = 0x30 ∧ e.source = die := by
  have hdie : diePower (tripDie die h s) die = { diePower (setPoint die 0 s) die with ceiling := 0, tripped := true } := by
    simp only [tripDie, htrip, hheld, Bool.or_self, Bool.false_eq_true, if_false]
    rw [diePower_congr (reportTrip_onlyRecords ..).weigh, diePower_congr (t := markThrottle _) (setDv_onlyRecords ..).weigh,
      diePower_setDiePower_self]
  rw [hdie, diePower_setPoint_self]
  refine ⟨rfl, rfl, rfl, ?_⟩
  simp only [tripDie, htrip, hheld, Bool.or_self, Bool.false_eq_true, if_false]
  exact raise_inFlight ..

/-- THERMTRIP_N lowered takes points to 0 and no die out of its trip. -/
theorem thermTrip_die (h : Int) {s : State} {d : Nat} (hp : (diePower s d).point = 0) :
    diePower (thermTrip h s) d = diePower s d ∧ (120 ≤ h → (thermTrip h s).board.thermtrip = true) := by
  rw [thermTrip]
  split
  next hno =>
    refine ⟨rfl, fun h120 => ?_⟩
    simp only [Bool.or_eq_true, decide_eq_true_eq] at hno
    exact hno.resolve_left (by omega)
  · refine foldl_keeps (fun t => diePower t d = diePower s d ∧ (120 ≤ h → t.board.thermtrip = true)) _ (fun t e ht => ?_)
      (List.range 10) _ ⟨rfl, fun _ => rfl⟩
    split
    · exact ht
    · refine ⟨?_, fun h120 => by rw [(Governs.setPoint ..).board]; exact ht.2 h120⟩
      by_cases he : d = e
      · subst he
        rw [diePower_setPoint_self, ht.1, ← hp]
      · rw [diePower_setPoint_of_ne _ _ he, ht.1]

/-! #### ENVELOPE_MAX_W -/

theorem entryOf_envelopeMaxW : entryOf K.envelopeMaxW = some ⟨K.envelopeMaxW, K.envelopeMaxW, 1, 4, 6, 2, 3600, 2 ^ 16 - 1⟩ := by
  decide +kernel

theorem exec_envelopeMaxW {src v : Nat} {s : State} (hw : Writable s K.envelopeMaxW) (hv : v < 2 ^ 16)
    (hlo : 1200 ≤ v) (hhi : v ≤ 3600) :
    exec (.envelopeMaxW src v) s = .next (acceptWrite (setDv K.envelopeMaxW v
      (if dv s K.envelopeW > v then setDv K.envelopeW v s else s))) := by
  have hact : writeEnvelopeMax v s = (0, setDv K.envelopeMaxW v (if dv s K.envelopeW > v then setDv K.envelopeW v s else s)) := by
    rw [writeEnvelopeMax, if_neg (by omega)]
  have := outside_commit (src := src) (act := writeEnvelopeMax) hw entryOf_envelopeMaxW (fun h => by simp at h)
    (and_mask_of_lt hv) (by rw [hact])
  rwa [hact] at this

theorem exec_envelopeMaxW_refused {src v : Nat} {s : State} (hw : Writable s K.envelopeMaxW) (hv : v < 2 ^ 16)
    (h : v < 1200 ∨ 3600 < v) : exec (.envelopeMaxW src v) s = .next (refuseWrite src K.envelopeMaxW 3 s) := by
  have hact : writeEnvelopeMax v s = (3, s) := by rw [writeEnvelopeMax, if_pos h]
  have := outside_turned_away (src := src) (act := writeEnvelopeMax) hw entryOf_envelopeMaxW (fun h => by simp at h)
    (and_mask_of_lt hv) (by rw [hact]; exact Nat.succ_ne_zero 2)
  rwa [hact] at this

theorem exec_avsTimeout {rail : Nat} {s : State} (ha : alive s = true) (hr : rail < 11) :
    ∃ t, exec (.avsTimeout rail) s = .next t ∧ t.weigh.avsRetry = s.weigh.avsRetry.filter (· != rail) ++ [rail] ∧
      t = { s with weigh := { s.weigh with avsRetry := t.weigh.avsRetry }, dict := t.dict, ev := t.ev, freeN := t.freeN } := by
  have hb := bump_onlyRecords K.avsErrors 1 s
  refine ⟨{ bump K.avsErrors 1 s with weigh := { s.weigh with avsRetry := s.weigh.avsRetry.filter (· != rail) ++ [rail] } },
    ?_, rfl, ?_⟩
  · change execAvsTimeout rail s = _
    simp only [execAvsTimeout, ha, Nat.not_le.2 hr, decide_false, Bool.not_true, Bool.or_self, Bool.false_eq_true,
      if_false, hb.weigh]
  · rw [hb]

/-- Settles O53. -/
theorem weighbridgeGovernsThePoints : Obligations.WeighbridgeGovernsThePoints := by
  unfold Obligations.WeighbridgeGovernsThePoints
  refine ⟨fun e s ha hs => ?_, fun rail s => exec_avsTimeout, fun die w s hup hd hs htherm htrip hw => ?_,
    fun die h s hup hh => ?_, fun die h s hup hd hh htrip => ?_, fun src v s hw hv => ?_⟩
  · have hreport := reportWindow_governs e (atLeast (s.weigh.windowAt + 100000) s)
    obtain ⟨hstarted, htime, hat, hretry, henv, hmem, hdies, hrail⟩ := openWindow_spec (some e)
      (reportWindow e (atLeast (s.weigh.windowAt + 100000) s))
    refine ⟨_, exec_windowStart e ha hs, hstarted, ?_, by rw [hat, htime], hretry, henv.trans hreport.envelope,
      hmem.trans hreport.mem, fun d hd hr hup => ?_, fun h => hrail (by rwa [hreport.retry]), fun ht d hd hup => ?_⟩
    · rw [htime, hreport.time]
      exact Nat.le_max_right ..
    · exact (hdies d hd (by rwa [hreport.held])).1 (by rwa [hreport.retry])
    · exact (hdies d hd (by rwa [hreport.held])).2 (by rwa [hreport.board])
  · exact ⟨_, exec_weighStationStart hup hd hs htherm htrip hw, startWork_spec die w s⟩
  · obtain ⟨hhot, hat, hpoint, htripped⟩ := diePower_sensorsRead die h s
    obtain ⟨chot, cat, cpoint, ctripped, cboard, ctime⟩ := cooled_spec die (sensorsRead die h s)
    refine ⟨cooled die (sensorsRead die h s), ?_, chot.trans hhot, by rw [ctime]; rfl, ?_, cpoint.trans hpoint,
      fun hno => ctripped (htripped.trans hno), cboard⟩
    · rw [exec_thermalSensorRead h hup, if_pos hh, thermTrip_of_cool (by omega)]
    · rw [cat, hat, ctime]
  · obtain ⟨-, -, -, htripped⟩ := diePower_sensorsRead die h s
    have hheld : bit s.diesHeld die = false := by
      simp only [dieUp, Bool.and_eq_true, Bool.not_eq_true'] at hup
      exact hup.2
    obtain ⟨hpoint, hceil, htrip', e, he, hcode, hsource⟩ := tripDie_spec (s := sensorsRead die h s) h
      (htripped.trans htrip) hheld
    obtain ⟨hdie, hlow⟩ := thermTrip_die h hpoint
    refine ⟨_, e, by rw [exec_thermalSensorRead h hup, if_neg (by omega), if_pos hd], ?_, ?_, ?_,
      (thermTrip_tripKeeps ..).events e he, hcode, hsource, hlow⟩
    · rw [hdie, hpoint]
    · rw [hdie, hceil]
    · rw [hdie, htrip']
  · by_cases hrange : v < 1200 ∨ 3600 < v
    · exact ⟨_, exec_envelopeMaxW_refused hw hv hrange, fun hlo hhi => by omega, fun _ => refuseWrite_onlyRecords ..⟩
    · refine ⟨_, exec_envelopeMaxW hw hv (by omega) (by omega), fun _ _ => ⟨?_, ?_⟩, fun h => absurd h hrange⟩
      · rw [dv_acceptWrite_of_ne _ (by decide), dv_setDv_self]
      · rw [dv_acceptWrite_of_ne _ (by decide), dv_setDv_of_ne _ _ (by decide)]
        split
        · rw [dv_setDv_self]
          omega
        · omega

end Sys2Proof.Machine

/-! ### Debug (O40) -/

namespace Sys2Proof.Machine

/-- The state in which a debug token has been judged: a fresh challenge, and the judgement. -/
def debugJudged (st : Nat) (s : State) : State :=
  { freshChallenge s with boot := { (freshChallenge s).boot with debugStatus := st } }

/-- A token whose magic is right, or that comes after 16 openings, is judged by its checks alone. -/
theorem actDebugToken_of_judged {b : List Byte} {s : State}
    (h : recordMagic (ofBytes (keepBytes tokenReserved b)) = 0x31474244 ∨ 16 ≤ s.part.debugOpenings) :
    actDebugToken b s = if judgeToken s (ofBytes (keepBytes tokenReserved b)) = 1
      then (0, openDebug (setBlob K.debugToken (keepBytes tokenReserved b) (debugJudged 1 s)))
      else (if judgeToken s (ofBytes (keepBytes tokenReserved b)) = 6 then 7 else 3,
        debugJudged (judgeToken s (ofBytes (keepBytes tokenReserved b))) s) := by
  have hodd : (recordMagic (ofBytes (keepBytes tokenReserved b)) != 0x31474244 && decide (s.part.debugOpenings < 16)) = false := by
    rcases h with h | h
    · simp [h]
    · simp [Nat.not_lt.2 h]
  simp only [actDebugToken, hodd, Bool.false_eq_true, if_false]
  by_cases h1 : judgeToken s (ofBytes (keepBytes tokenReserved b)) = 1
  · simp only [h1, if_true, debugJudged]
  · simp only [h1, if_false, debugJudged]

/-- The state without what firmware has staged for an entry. -/
def unstaged (key : Nat) (s : State) : State := { s with dict := { s.dict with staging := s.dict.staging.del key } }

/-- A token that opens debug. -/
theorem commitToken_opens {src : Nat} {b : List Byte} {s t : State} (hw : writeCheck s K.debugToken = 0)
    (hfit : blobFits K.debugToken b = true) (ha : actDebugToken b s = (0, t)) :
    (commitToken src b s).2 = unstaged K.debugToken (acceptWrite t) := by
  have hcommit := commit_accepted src K.debugToken (fun u => if blobFits K.debugToken b then actDebugToken b u else (5, u)) s hw
  simp only [hfit, if_true, ha, forall_const] at hcommit
  simp only [commitToken, hfit, if_true, ha, true_or, or_true, commitBlob, hcommit, unstaged]

/-- A token that is refused leaves its judgement. -/
theorem commitToken_refuses {src c : Nat} {b : List Byte} {s t : State} (hw : writeCheck s K.debugToken = 0)
    (hfit : blobFits K.debugToken b = true) (ha : actDebugToken b s = (c, t)) (hc : c = 7 ∨ c = 3) :
    (commitToken src b s).2 = unstaged K.debugToken (refuseWrite src K.debugToken c t) := by
  have hno : ¬(writeCheck s K.debugToken ≠ 0 ∨ c = 0 ∨ c = 5) := by omega
  simp only [commitToken, hfit, if_true, ha, hno, if_false, unstaged]

/-- What an opening of debug leaves. -/
theorem openDebug_spec (s : State) :
    (openDebug s).boot.debugStatus = 1 ∧ (openDebug s).boot.debugOpen = true ∧
    (openDebug s).part.debugOpenings = s.part.debugOpenings + 1 ∧ (openDebug s).part.identity = none ∧
    (openDebug s).medlars = ⟨[]⟩ ∧ (openDebug s).mem.bench = ⟨[]⟩ := ⟨rfl, rfl, rfl, rfl, rfl, rfl⟩

/-- What a token leaves that is judged. -/
theorem commitToken_judged {src : Nat} {b : List Byte} {s : State} (hw : writeCheck s K.debugToken = 0)
    (hfit : blobFits K.debugToken b = true)
    (h : recordMagic (ofBytes (keepBytes tokenReserved b)) = 0x31474244 ∨ 16 ≤ s.part.debugOpenings) :
    (judgeToken s (ofBytes (keepBytes tokenReserved b)) = 1 → ∃ t, (commitToken src b s).2 = t ∧ t.boot.debugStatus = 1 ∧
      t.boot.debugOpen = true ∧ t.part.debugOpenings = s.part.debugOpenings + 1 ∧ t.part.identity = none ∧
      t.medlars = ⟨[]⟩ ∧ t.mem.bench = ⟨[]⟩) ∧
    (judgeToken s (ofBytes (keepBytes tokenReserved b)) ≠ 1 → ∃ t, (commitToken src b s).2 = t ∧
      t.boot.debugStatus = judgeToken s (ofBytes (keepBytes tokenReserved b)) ∧ t.boot.debugOpen = s.boot.debugOpen ∧
      t.part = s.part ∧ t.medlars = s.medlars ∧ t.mem = s.mem) := by
  have hact := actDebugToken_of_judged h
  refine ⟨fun h1 => ?_, fun h1 => ?_⟩
  · rw [if_pos h1] at hact
    obtain ⟨hstatus, hopen, hcount, hid, hmed, hbench⟩ :=
      openDebug_spec (setBlob K.debugToken (keepBytes tokenReserved b) (debugJudged 1 s))
    exact ⟨_, commitToken_opens hw hfit hact, hstatus, hopen, hcount, hid, hmed, hbench⟩
  · rw [if_neg h1] at hact
    refine ⟨_, commitToken_refuses hw hfit hact ?_, ?_, ?_, ?_, ?_, ?_⟩
    · split
      · exact .inl rfl
      · exact .inr rfl
    · simp only [unstaged, refuseWrite_boot, debugJudged]
    · simp only [unstaged, refuseWrite_boot, debugJudged, freshChallenge, takeFree]
    · simp only [unstaged, refuseWrite_part, debugJudged, freshChallenge, takeFree]
    · simp only [unstaged, refuseWrite_medlars, debugJudged, freshChallenge, takeFree]
    · simp only [unstaged, refuseWrite_mem, debugJudged, freshChallenge, takeFree]

theorem judgeToken_of_sixteen {s : State} (r : Nat) (h : 16 ≤ s.part.debugOpenings) : judgeToken s r = 6 := by
  simp only [judgeToken, ge_iff_le, h, if_true]

/-- A JTAG register that is shifted while the rails are up. -/
theorem jtag_of_up {s : State} (b : Board) (h : s.board.railsUp = true) : jtag s b = .next { s with board := b } := by
  rw [jtag, if_pos h]

/-- Settles O40. -/
theorem debugOpensWithAToken : Obligations.DebugOpensWithAToken := by
  unfold Obligations.DebugOpensWithAToken
  refine ⟨fun src b s hw hfit => ?_, fun b s hw hfit => ⟨_, rfl⟩, fun s h => ⟨jtag_of_up _ h, jtag_of_up _ h⟩,
    fun pins preload s h => jtag_of_up _ h, fun v s h hopen => ?_, fun v s hopen => ?_⟩
  · obtain ⟨ha, hc⟩ := hw
    refine ⟨(commitToken src b s).2, outside_of_alive ha _, ?_, fun h16 => ?_, fun hm h1 => ?_, fun hm h1 => ?_⟩
    · rintro rfl
      exact outside_of_alive ha _
    · have h6 := judgeToken_of_sixteen (ofBytes (keepBytes tokenReserved b)) h16
      obtain ⟨t, ht, hstatus, hopen, hpart, -, -⟩ := (commitToken_judged (src := src) hc hfit (.inr h16)).2 (by omega)
      rw [ht]
      exact ⟨hstatus.trans h6, hopen, hpart⟩
    · obtain ⟨t, ht, hspec⟩ := (commitToken_judged (src := src) hc hfit (.inl hm)).1 h1
      rwa [ht]
    · obtain ⟨t, ht, hspec⟩ := (commitToken_judged (src := src) hc hfit (.inl hm)).2 h1
      rwa [ht]
  · change execExtest v s = _
    rw [execExtest, if_pos hopen, jtag_of_up _ h]
  · change execExtest v s = _
    rw [execExtest, hopen]
    rfl

end Sys2Proof.Machine

/-! ### Tables and claims (O41) -/

namespace Sys2Proof.Machine

theorem dict_of_still {s t : State} (h : still t = still s) : t.dict.blobs = s.dict.blobs := (congrArg (·.dict.blobs) h :)

/-! #### LOCAL_GIB and the table bases -/

theorem entryOf_localGib : entryOf K.localGib = some ⟨K.localGib, K.localGib, 1, 4, 1, 2, 0, 2 ^ 16 - 1⟩ := by decide +kernel
theorem entryOf_tableLoad : entryOf K.tableLoad = some ⟨K.tableLoad, K.tableLoad, 6, 2, 0, 1, 0, 2 ^ 8 - 1⟩ := by decide +kernel
theorem entryOf_ctxTableBase :
    entryOf K.ctxTableBase = some ⟨K.ctxTableBase, K.ctxTableBase, 3, 4, 1, 8, 0x80000000, 2 ^ 64 - 1⟩ := by decide +kernel
theorem entryOf_segTableBase :
    entryOf K.segTableBase = some ⟨K.segTableBase, K.segTableBase, 3, 4, 1, 8, 0x80200000, 2 ^ 64 - 1⟩ := by decide +kernel
theorem entryOf_claimAssign :
    entryOf K.claimAssign = some ⟨K.claimAssign, K.claimAssign, 2, 4, 2, 4, 0, 0x80FF7FFF⟩ := by decide +kernel

/-- LOCAL_GIB may be written before the first table load only. -/
theorem not_installed_of_writable {s : State} (h : Writable s K.localGib) : s.xlat.installed.isSome = false := by
  obtain ⟨-, hc⟩ := h
  refine Bool.eq_false_iff.2 fun hins => ?_
  simp only [writeCheck] at hc
  split at hc
  · cases hc
  next r hr =>
    split at hc
    · cases hc
    · simp only [hins, and_self, if_true] at hc
      cases hc

theorem actLocalGib_stores {v : Nat} {s : State} (hins : s.xlat.installed.isSome = false) (hv : v ≤ 240) (h16 : v % 16 = 0) :
    actLocalGib v s = (0, setDv K.localGib v s) := by
  simp only [actLocalGib, ranged, hins, hv, h16, decide_true, beq_self_eq_true, Bool.and_self, Bool.false_eq_true, if_false,
    if_true]

theorem exec_localGib {src v : Nat} {s : State} (hw : Writable s K.localGib) (hv : v ≤ 240) (h16 : v % 16 = 0) :
    exec (.localGib src v) s = .next (acceptWrite (setDv K.localGib v s)) := by
  have hact := actLocalGib_stores (not_installed_of_writable hw) hv h16
  have hlt : v < 2 ^ 16 := by omega
  have := outside_commit (src := src) (act := actLocalGib) hw entryOf_localGib (fun h => by simp at h)
    (and_mask_of_lt hlt) (by rw [hact])
  rwa [hact] at this

theorem exec_localGib_refused {src v : Nat} {s : State} (ha : alive s = true) (hs : served s K.localGib = true)
    (hins : s.xlat.installed.isSome = true) :
    exec (.localGib src v) s = .next (refuseWrite src K.localGib 7 s) := by
  have hc : writeCheck s K.localGib = 7 := by
    simp only [writeCheck, hs, entryOf_localGib, hins, if_true, and_self]
    decide
  change outside s (commit src K.localGib _ s).2 = _
  rw [outside_of_alive ha, commit_refused _ _ _ _ (by omega), hc]

theorem exec_ctxTableBase {src v : Nat} {s : State} (hw : Writable s K.ctxTableBase) (hq : queueOpenAny s = false)
    (hv : v % 65536 = 0) (hin : inFirmware v 65536 = true) :
    exec (.tableBaseWrite src 0 v) s = .next (acceptWrite (setDv K.ctxTableBase v s)) := by
  have hact : actTableBase K.ctxTableBase v s = (0, setDv K.ctxTableBase v s) := by
    simp only [actTableBase, ranged, hq, hv, hin, beq_self_eq_true, Bool.and_self, Bool.false_eq_true, if_false, if_true]
  have hlt : v < 2 ^ 64 := by
    simp only [inFirmware, Bool.and_eq_true, decide_eq_true_eq] at hin
    omega
  have := outside_commit (src := src) (act := actTableBase K.ctxTableBase) hw entryOf_ctxTableBase (fun h => by simp at h)
    (and_mask_of_lt hlt) (by rw [hact])
  rwa [hact] at this

theorem exec_segTableBase {src v : Nat} {s : State} (hw : Writable s K.segTableBase) (hq : queueOpenAny s = false)
    (hv : v % 2 ^ 21 = 0) (hin : inFirmware v (2 ^ 21) = true)
    (hmeet : rangesMeet v (2 ^ 21) (dv s K.ctxTableBase) 65536 = false) :
    exec (.tableBaseWrite src 1 v) s = .next (acceptWrite (setDv K.segTableBase v s)) := by
  have hkey : K.segTableBase ≠ K.ctxTableBase := by decide
  have hact : actTableBase K.segTableBase v s = (0, setDv K.segTableBase v s) := by
    simp only [actTableBase, ranged, hq, hv, hin, hmeet, hkey, beq_self_eq_true, Bool.and_self, Bool.not_false,
      Bool.false_eq_true, if_false, if_true]
  have hlt : v < 2 ^ 64 := by
    simp only [inFirmware, Bool.and_eq_true, decide_eq_true_eq] at hin
    omega
  have := outside_commit (src := src) (act := actTableBase K.segTableBase) hw entryOf_segTableBase (fun h => by simp at h)
    (and_mask_of_lt hlt) (by rw [hact])
  rwa [hact] at this

/-! #### TABLE_LOAD -/

theorem foldl_still_snd {α β : Type} {f : β × State → α → β × State} (h : ∀ a x, still (f a x).2 = still a.2) (l : List α)
    (a : β × State) : still (l.foldl f a).2 = still a.2 := by
  induction l generalizing a with
  | nil => rfl
  | cons x l ih => exact (ih _).trans (h a x)

theorem loadCtxLine_still (base l : Nat) (a : Tab CtxEntry × State) : still (loadCtxLine base l a).2 = still a.2 :=
  fwReadLine_still (128 * l) 128 a.2

theorem loadSegLine_still (base l : Nat) (a : (Tab Seg × Nat × Option Nat) × State) :
    still (loadSegLine base l a).2 = still a.2 := fwReadLine_still (128 * l) 128 a.2

/-- What a table load leaves with no queue open: both tables installed, and nothing else but memory's own traffic. -/
theorem actTableLoad_spec {s : State} (hq : queueOpenAny s = false) (hl : isLocked s 1 = false) :
    ∃ w ctxs segs loading, still w = still s ∧ actTableLoad 1 s = (0, { w with xlat := { w.xlat with
      ctxs := ctxs, segs := segs, installed := some (dv s K.ctxTableBase, dv s K.segTableBase)
      epoch := if s.xlat.installed.isSome then s.xlat.epoch + 1 else s.xlat.epoch
      loading := some loading } }) := by
  rw [actTableLoad, if_neg (by decide), hq, hl, if_neg (by decide)]
  refine ⟨_, _, _, _, ?_, rfl⟩
  refine (fwWrite_still ..).trans ((foldl_still (fun _ _ => fwWrite_still ..) _ _).trans ?_)
  exact (foldl_still_snd (fun _ _ => loadSegLine_still ..) _ _).trans (foldl_still_snd (fun _ _ => loadCtxLine_still ..) _ _)

theorem exec_tableLoad {src : Nat} {s : State} (hw : Writable s K.tableLoad) (ha : (actTableLoad 1 s).1 = 0) :
    exec (.tableLoad src 1) s = .next (acceptWrite (actTableLoad 1 s).2) :=
  outside_commit hw entryOf_tableLoad (fun _ => Nat.le_refl 1) (by decide) ha

theorem xlat_of_offBench {s t : State} (h : offBench t = offBench s) : t.xlat = s.xlat := (congrArg State.xlat h :)
theorem queues_of_offBench {s t : State} (h : offBench t = offBench s) : t.queues = s.queues := (congrArg State.queues h :)

theorem untrack_keeps (lost : List (Nat × Nat)) (s : State) :
    (untrack lost s).xlat = s.xlat ∧ (untrack lost s).medlars = s.medlars ∧ (untrack lost s).queues = s.queues :=
  ⟨rfl, rfl, rfl⟩

theorem materialise_keeps (lost : List (Nat × Nat)) (s : State) :
    (materialise lost s).xlat = s.xlat ∧ (materialise lost s).medlars = s.medlars ∧ (materialise lost s).queues = s.queues := by
  rw [materialise]
  split
  · exact ⟨rfl, rfl, rfl⟩
  · have hoff := foldl_offBench (f := fun t l => noteWrite l (zmapSet l false (writeBackFull l 0#1024 false t)))
      (fun t l => (noteWrite_offBench ..).trans ((zmapSet_offBench ..).trans (writeBackFull_offBench ..)))
      ((zmapSetLines s).filter fun l => inRanges l lost) (untrack lost s)
    obtain ⟨hxlat, hmedlars, hqueues⟩ := untrack_keeps lost s
    exact ⟨(xlat_of_offBench hoff).trans hxlat, (medlars_of_offBench hoff).trans hmedlars, (queues_of_offBench hoff).trans hqueues⟩

theorem exec_tableLoadComplete {st : Nat} {lost : List (Nat × Nat)} {s : State} (hl : s.xlat.loading = some (st, lost))
    (hno : anyAccess s (fun x => x.epoch != s.xlat.epoch) = false) :
    exec .tableLoadComplete s = .next { setDv K.tableLoadStatus st (materialise lost s) with
      xlat := { (setDv K.tableLoadStatus st (materialise lost s)).xlat with loading := none } } := by
  change execTableLoadComplete s = _
  simp only [execTableLoadComplete, hl, hno, Bool.false_eq_true, if_false]

/-! #### Claims -/

theorem bits_and (a b lo n : Nat) : bits (a &&& b) lo n = bits a lo n &&& bits b lo n := by
  rw [bits, bits, bits, Nat.shiftRight_and_distrib, Nat.and_mod_two_pow]

/-- A field that the mask keeps whole. -/
theorem bits_and_of_ones {m lo n : Nat} (v : Nat) (h : bits m lo n = 2 ^ n - 1) : bits (v &&& m) lo n = bits v lo n := by
  rw [bits_and, h, and_mask_of_lt (bits_lt ..)]

theorem claimTag_congr {s t : State} (h : t.dict.blobs = s.dict.blobs) (claim : Nat) : claimTag t claim = claimTag s claim := by
  rw [claimTag, claimTag, blobByte, blobByte, h]

theorem blob_congr {s t : State} (h : t.dict.blobs = s.dict.blobs) (key : Nat) : blob t key = blob s key := by
  rw [blob, blob, h]

/-- A claim's tag after it has been written reads from the bytes of its blob. -/
theorem claimTag_setClaimTag {claim tag : Nat} (s : State) (h : 64 ≤ claim) :
    claimTag (setClaimTag claim tag s) claim =
      (((blob s (K.claimTags + claim / 4096)).set (claim % 4096) (BitVec.ofNat 8 tag)).getD (claim % 4096) 0#8).toNat := by
  have hno : ¬claim < 64 := by omega
  simp only [claimTag, setClaimTag, hno, if_false, blobByte, setBlob, Tab.find_put_self]

theorem claimTag_setClaimTag_zero {claim : Nat} (s : State) (h : 64 ≤ claim) : claimTag (setClaimTag claim 0 s) claim = 0 := by
  rw [claimTag_setClaimTag s h, List.getD_eq_getElem?_getD, List.getElem?_set]
  split
  · split <;> rfl
  · contradiction

theorem setClaimTag_claimTag_congr {s t : State} (claim tag : Nat) (h : t.dict.blobs = s.dict.blobs) :
    claimTag (setClaimTag claim tag t) claim = claimTag (setClaimTag claim tag s) claim := by
  by_cases hc : 64 ≤ claim
  · rw [claimTag_setClaimTag t hc, claimTag_setClaimTag s hc, blob_congr h]
  · rw [claimTag, claimTag, if_pos (by omega), if_pos (by omega)]

theorem setClaimTag_keeps (claim tag : Nat) (s : State) : setClaimTag claim tag s = { s with dict := (setClaimTag claim tag s).dict } := by
  rw [setClaimTag]
  split <;> rfl

/-- The write of CLAIM_ASSIGN without its reserved bits. -/
theorem claimAssign_fields (v : Nat) :
    bits (v &&& 0x80FF7FFF) 0 15 = bits v 0 15 ∧ bits (v &&& 0x80FF7FFF) 16 8 = bits v 16 8 ∧
    bit (v &&& 0x80FF7FFF) 31 = bit v 31 := by
  refine ⟨bits_and_of_ones v (by decide), bits_and_of_ones v (by decide), ?_⟩
  rw [bit_eq_bits, bit_eq_bits, bits_and_of_ones v (by decide)]

theorem actClaimAssign_spec {v : Nat} {s : State} (he : s.xlat.erasing = none) (hc : 64 ≤ bits v 0 15) :
    actClaimAssign (v &&& 0x80FF7FFF) s =
      (0, if bit v 31 then { setClaimTag (bits v 0 15) 0 (setDv K.claimAssign (v &&& 0x80FF7FFF) s) with
          xlat := { s.xlat with erasing := some (bits v 0 15, bits v 16 8) } }
        else setClaimTag (bits v 0 15) (bits v 16 8) (setDv K.claimAssign (v &&& 0x80FF7FFF) s)) := by
  obtain ⟨hclaim, hdom, herase⟩ := claimAssign_fields v
  have hxlat : ∀ u : State, (setClaimTag (bits v 0 15) 0 u).xlat = u.xlat := fun u => by rw [setClaimTag_keeps]
  simp only [actClaimAssign, hclaim, hdom, herase, he, Option.isSome_none, Nat.not_lt.2 hc, Bool.false_eq_true, if_false, hxlat]
  cases bit v 31 <;> rfl

theorem exec_claimAssign {src v : Nat} {s : State} (hw : Writable s K.claimAssign) (he : s.xlat.erasing = none)
    (hc : 64 ≤ bits v 0 15) :
    exec (.claimAssign src v) s = .next (acceptWrite (actClaimAssign (v &&& 0x80FF7FFF) s).2) := by
  obtain ⟨ha, hwrite⟩ := hw
  change outside s (commitScalar src K.claimAssign v actClaimAssign s).2 = _
  rw [outside_of_alive ha, commitScalar_of_entry entryOf_claimAssign (fun h => by simp at h),
    commit_accepted _ _ _ s hwrite (by rw [actClaimAssign_spec he hc])]

/-- The state in which the bytes of a claim have been erased. -/
def claimErased (claim : Nat) (s : State) : State :=
  let lo := claimBase s claim / 128
  let hi := lo + 2 ^ 26 / 128
  let t := (linesListed s lo hi).foldl (fun u l => storeLine l false 0#1024 (BitVec.allOnes 128) false (beforeWrite l u)) s
  ((zmapSetLines t).filter fun l => decide (lo ≤ l) && decide (l < hi)).foldl (fun u l => zmapSet l false u) t

theorem claimErased_still (claim : Nat) (s : State) : still (claimErased claim s) = still s :=
  (foldl_still (fun _ _ => zmapSet_still ..) _ _).trans
    (foldl_still (fun _ _ => (storeLine_still ..).trans (beforeWrite_still ..)) _ _)

theorem exec_claimEraseDone {claim dom : Nat} {s : State} (he : s.xlat.erasing = some (claim, dom)) :
    exec .claimEraseDone s = .next { setClaimTag claim dom (claimErased claim s) with
      xlat := { (setClaimTag claim dom (claimErased claim s)).xlat with erasing := none } } := by
  change execClaimEraseDone s = _
  simp only [execClaimEraseDone, he, claimErased]

/-- Settles O41. -/
theorem tablesAndClaimsAreWritten : Obligations.TablesAndClaimsAreWritten := by
  unfold Obligations.TablesAndClaimsAreWritten
  refine ⟨fun src v s => exec_localGib, fun src v s => exec_localGib_refused, fun src s hw hq hl => ?_,
    fun st lost s hl hno => ?_, fun src v s => exec_ctxTableBase, fun src v s => exec_segTableBase,
    fun src v s hw he hc h31 => ?_, fun src v s hw he hc h31 => ?_, fun claim dom s he => ?_⟩
  · obtain ⟨w, ctxs, segs, loading, hstill, hact⟩ := actTableLoad_spec hq hl
    refine ⟨_, exec_tableLoad hw (by rw [hact]), ?_⟩
    rw [hact]
    simp only [acceptWrite_xlat, acceptWrite_queues, acceptWrite_jobs]
    exact ⟨trivial, rfl, trivial, queues_of_still hstill, jobs_of_still hstill⟩
  · obtain ⟨hxlat, hmedlars, hqueues⟩ := materialise_keeps lost s
    refine ⟨_, exec_tableLoadComplete hl hno, dv_setDv_self .., ?_, hmedlars, hqueues⟩
    rw [← hxlat]
    rfl
  · rw [exec_claimAssign hw he hc, actClaimAssign_spec he hc, h31]
    rfl
  · refine ⟨_, exec_claimAssign hw he hc, ?_⟩
    rw [actClaimAssign_spec he hc, h31]
    refine ⟨rfl, claimTag_setClaimTag_zero _ hc, ?_⟩
    rw [acceptWrite_mem]
    simp only [if_true]
    rw [setClaimTag_keeps]
    rfl
  · have hstill := claimErased_still claim s
    have hkeep := setClaimTag_keeps claim dom (claimErased claim s)
    refine ⟨_, exec_claimEraseDone he, ?_, ?_, ?_, ?_⟩
    · rw [hkeep, ← xlat_of_still hstill]
    · exact (claimTag_congr rfl claim).trans (setClaimTag_claimTag_congr claim dom (dict_of_still hstill))
    · rw [hkeep, ← queues_of_still hstill]
    · rw [hkeep, ← jobs_of_still hstill]

end Sys2Proof.Machine

/-! ### A fault's record takes its line from a Medlar core that holds it (O16) -/

namespace Sys2Proof.Machine

theorem medlars_homeHears (c line : Nat) (k : SnoopKind) (d : Option (Line × Bool)) (dirty : Bool) (s : State) :
    (homeHears c line k d dirty s).medlars = s.medlars := by
  have hdir : ∀ e t, (setDir line e t).medlars = t.medlars := fun e t => by
    unfold setDir
    split <;> rfl
  have hafter : ∀ t, (dirAfter line c k t).medlars = t.medlars := fun t => by
    unfold dirAfter
    split
    · exact hdir ..
    · rfl
    · exact hdir ..
  exact (hafter _).trans (takeData_keeps line d dirty s).2

/-- A snoop that takes a line leaves its core without it. -/
theorem snoopNow_inval_takes {c line : Nat} {l : CLine} {s : State} (h : (medlarOf s c).lines.find line = some l) :
    (medlarOf (snoopNow line .inval c s) c).lines.find line = none := by
  have hcount : (countSnoop line s).medlars = s.medlars := medlars_of_offBench (countSnoop_offBench ..)
  have hwait : ∀ u, (if heldUntil (countSnoop line s) c line > (countSnoop line s).time.now then
      atLeast u (countDeferral c (countSnoop line s)) else countSnoop line s).medlars = s.medlars := fun u => by
    split
    · exact (medlars_of_offBench (countDeferral_offBench ..)).trans hcount
    · exact hcount
  unfold snoopNow
  dsimp only
  generalize hu : (if heldUntil (countSnoop line s) c line > (countSnoop line s).time.now then
    atLeast (heldUntil (countSnoop line s) c line) (countDeferral c (countSnoop line s)) else countSnoop line s) = u
  have hmed : medlarOf u c = medlarOf s c := medlarOf_of_medlars (hu ▸ hwait _) c
  obtain ⟨d, hans, -⟩ := answerSnoop_takes (s := u) (l := l) (k := .inval) (.inr rfl) (by rwa [hmed])
  rw [hans, medlarOf_of_medlars (medlars_homeHears ..)]
  exact (gaveUp_spec c line u).1

/-- Before a line is written, its one holder gives it up. -/
theorem beforeWrite_takes {c line : Nat} {l : CLine} {s : State} (hm : s.coh.msgs = [])
    (hd : (dirOf s line).holders = [c]) (h : (medlarOf s c).lines.find line = some l) :
    (medlarOf (beforeWrite line s) c).lines.find line = none := by
  have hsettle : ∀ n, settle line (n + 1) s = s := fun n => by simp only [settle, hm, takeFirst]
  rw [beforeWrite, hsettle, hd, List.foldl_cons, List.foldl_nil]
  exact snoopNow_inval_takes h

/-- A fault's record that starts on its line takes that line from the core that holds it. -/
theorem addFault_takes {c : Nat} {l : CLine} {s : State} (r : FaultRec) (hroom : faultRingFull s = false)
    (hw : s.faultq.waiting = []) (hbase : dv s K.faultQBase = 0x80400000) (htail : s.faultq.tail = 0)
    (hi : s.xlat.installed = none) (hm : s.coh.msgs = []) (hd : (dirOf s 0x1008000).holders = [c])
    (h : (medlarOf s c).lines.find 0x1008000 = some l) :
    (medlarOf (addFault r s) c).lines.find 0x1008000 = none := by
  have htables : ∀ o, inTables s o = false := fun o => by simp only [inTables, hi]
  have hat : dv s K.faultQBase + 64 * (s.faultq.tail % dv s K.faultQEntries) = 0x80400000 := by
    rw [hbase, htail, Nat.zero_mod]
  have hwrite : ∀ v, (fwWrite 2 0x80400000 64 v s).medlars = (beforeWrite 0x1008000 s).medlars := fun v =>
    medlars_of_offBench (storeLine_offBench ..)
  simp only [addFault, hroom, hw, List.isEmpty_nil, Bool.not_true, Bool.or_self, Bool.false_eq_true, if_false, storeFault,
    hat, htables]
  have hq : ∀ (t : State) (q : FaultQ), medlarOf { t with faultq := q } c = medlarOf t c := fun _ _ => rfl
  rw [medlarOf_bump, hq, medlarOf_of_medlars (hwrite _)]
  exact beforeWrite_takes hm hd h

/-- A fault of group 0, any. -/
def someFault : FaultInfo :=
  { cause := .privileged, va := 0, seg := 0, ctx := 0, write := false, fetch := false, imprecise := false, claimInfo := 0 }

/-- Group 0, faulted. -/
def faultedGroup : Group :=
  { launch := 0, index := 0, die := 0, core := 0, place := .resident, arch := startArch 0 0 0 0, loads := [], sysWait := none
    abandoned := [], faults := [someFault], held := false, cause := none }

/-- Group 0 has faulted, and Medlar core 0 holds the line of the fault queue's first slot. -/
def ringLineHeld : State :=
  { State.reset with
    grp := { State.reset.grp with groups := ⟨[(0, faultedGroup)]⟩ }
    medlars := ⟨[(0, { Medlar.fresh with lines := ⟨[(0x1008000, ⟨.shared, 0#1024, false, 0#128, 0, 0, true⟩)]⟩ })]⟩
    coh := { State.reset.coh with dir := ⟨[(0x1008000, { DirEntry.uncached with holders := [0] })]⟩ } }

/-- The state in which group 0 has been switched out to save slot n, and its record is not yet written. -/
def ringLineSaved (n : Nat) : State :=
  setGroup 0 { faultedGroup with place := .saved n, faults := [], held := false, cause := some .privileged }
    (takeFree ringLineHeld).2

/-- The switch-out of group 0 there. -/
theorem exec_groupSwitchOut_ringLineHeld : ∃ n,
    exec (.groupSwitchOut 0) ringLineHeld = .next (addFault (groupRecord 0 n faultedGroup someFault) (ringLineSaved n)) := by
  have hslots : groupSlots ringLineHeld faultedGroup.die = [] := by decide +kernel
  have hfull : faultListFull faultedGroup.faults.length ringLineHeld = false := by decide +kernel
  obtain ⟨n, hpick⟩ : ∃ n, pickSlot 256 [] ringLineHeld = (some n, (takeFree ringLineHeld).2) := ⟨_, rfl⟩
  have hg : groupOf ringLineHeld 0 = some faultedGroup := rfl
  have hwait : faultedGroup.faults.isEmpty = false ∧ (faultedGroup.place != .resident) = false ∧
      faultedGroup.loads.isEmpty = true ∧ faultedGroup.arch.mma.isEmpty = true ∧ faultedGroup.sysWait.isSome = false :=
    ⟨rfl, by decide, rfl, rfl, rfl⟩
  obtain ⟨hfaults, hplace, hloads, hmma, hsys⟩ := hwait
  refine ⟨n, ?_⟩
  change execGroupSwitchOut 0 ringLineHeld = _
  simp only [execGroupSwitchOut, hg, hslots, hfull, hpick, hfaults, hplace, hloads, hmma, hsys, Bool.not_true, Bool.or_self,
    Bool.false_eq_true, if_false]
  have hlist : faultedGroup.faults = [someFault] := rfl
  rw [hlist, List.foldl_cons, List.foldl_nil]
  rfl

/-- Refutes O16: the record of a group's fault is written to the fault queue's ring, and where a Medlar core holds the line of
its slot, the write takes that line from the core. -/
theorem not_groupsAreSavedAndResumed : ¬ Obligations.GroupsAreSavedAndResumed := by
  unfold Obligations.GroupsAreSavedAndResumed
  rintro ⟨hsave, -⟩
  obtain ⟨t, y, n, ht, -, -, -, -, -, -, -, -, hmedlars⟩ := hsave 0 faultedGroup ringLineHeld rfl nofun rfl rfl
    rfl rfl (by decide +kernel) (by decide +kernel)
  obtain ⟨m, hm⟩ := exec_groupSwitchOut_ringLineHeld
  have heq := Host.Outcome.next.inj (hm.symm.trans ht)
  have hroom : faultRingFull ringLineHeld = false := by decide +kernel
  have hbase : dv ringLineHeld K.faultQBase = 0x80400000 := by decide +kernel
  have hdir : (dirOf ringLineHeld 0x1008000).holders = [0] := by decide +kernel
  have hline : (medlarOf ringLineHeld 0).lines.find 0x1008000 = some ⟨.shared, 0#1024, false, 0#128, 0, 0, true⟩ := by
    decide +kernel
  have hgone := addFault_takes (s := ringLineSaved m) (groupRecord 0 m faultedGroup someFault) hroom rfl hbase rfl rfl rfl hdir
    hline
  rw [heq, medlarOf_of_medlars hmedlars, hline] at hgone
  cases hgone

end Sys2Proof.Machine

/-! ### The start of a group (O15) -/

namespace Sys2Proof.Machine

/-- A launch but for the cores it has used and the pending slots it holds. -/
def Launch.progress (l : Launch) : Launch := { l with cores := [], slots := 0 }

/-- What entering a core and leaving dies keep: the groups, memory, the Medlar cores, the stations, and every launch but for
its cores and slots. -/
structure LaunchKeeps (s t : State) : Prop where
  groups : t.grp.groups = s.grp.groups
  mem : t.mem = s.mem
  medlars : t.medlars = s.medlars
  weigh : t.weigh = s.weigh
  launches : ∀ k, (t.grp.launches.find k).map Launch.progress = (s.grp.launches.find k).map Launch.progress

namespace LaunchKeeps
variable {s t u : State}

theorem refl (s : State) : LaunchKeeps s s := ⟨rfl, rfl, rfl, rfl, fun _ => rfl⟩

theorem trans (h : LaunchKeeps s t) (h' : LaunchKeeps t u) : LaunchKeeps s u :=
  ⟨h'.groups.trans h.groups, h'.mem.trans h.mem, h'.medlars.trans h.medlars, h'.weigh.trans h.weigh,
    fun k => (h'.launches k).trans (h.launches k)⟩

theorem bump (k n : Nat) (s : State) : LaunchKeeps s (bump k n s) :=
  ⟨by rw [bump_grp], bump_mem .., bump_medlars .., bump_weigh .., fun _ => by rw [bump_grp]⟩

/-- A launch takes other cores or slots. -/
theorem setLaunch {key : Nat} {l l' : Launch} (hl : s.grp.launches.find key = some l) (h : l'.progress = l.progress) :
    LaunchKeeps s (setLaunch key l' s) := by
  refine ⟨rfl, rfl, rfl, rfl, fun k => ?_⟩
  by_cases hk : k = key
  · subst hk
    simp only [Machine.setLaunch, Tab.find_put_self, hl, Option.map_some, h]
  · simp only [Machine.setLaunch, Tab.find_put_of_ne _ _ hk]

end LaunchKeeps

theorem leaveDie_launchKeeps (key die : Nat) (s : State) : LaunchKeeps s (leaveDie key die s) := by
  rw [leaveDie]
  split
  · exact .refl s
  next l hl =>
    dsimp only
    split
    · exact .refl s
    · exact LaunchKeeps.trans (t := setLaunch key { l with slots := clearBit l.slots die } s) (.setLaunch hl rfl) (.bump ..)

theorem leaveDies_launchKeeps (key : Nat) (s : State) : LaunchKeeps s (leaveDies key s) := by
  rw [leaveDies]
  generalize List.range 8 = dies
  induction dies generalizing s with
  | nil => exact .refl s
  | cons d dies ih => exact (leaveDie_launchKeeps key d s).trans (ih _)

theorem setGCore_launchKeeps (k : Nat) (x : GCore) (s : State) : LaunchKeeps s (setGCore k x s) :=
  ⟨rfl, rfl, rfl, rfl, fun _ => rfl⟩

theorem invalidateL1_launchKeeps (k : Nat) (s : State) : LaunchKeeps s (invalidateL1 k s) := ⟨rfl, rfl, rfl, rfl, fun _ => rfl⟩

theorem enterCore_launchKeeps (key raw die core : Nat) (s : State) : LaunchKeeps s (enterCore key raw die core s) := by
  rw [enterCore]
  dsimp only
  generalize ht : (if (residents s die core).isEmpty = true then
    setGCore (coreKey die core) { gcoreOf s (coreKey die core) with split := launchSplit raw } s else s) = t
  have hst : LaunchKeeps s t := by
    rw [← ht]
    split
    · exact setGCore_launchKeeps ..
    · exact .refl s
  generalize hu : (if ((residents s die core).any fun c => launchKey c.1 == key) = true then t
    else invalidateL1 (coreKey die core) t) = u
  have hsu : LaunchKeeps s u := by
    rw [← hu]
    split
    · exact hst
    · exact hst.trans (invalidateL1_launchKeeps ..)
  split
  next l hl =>
    split
    · exact hsu
    · exact hsu.trans (.setLaunch hl rfl)
  · exact hsu

/-- The group that starts next. -/
def nextGroup (key die core : Nat) (l : Launch) : Group :=
  { launch := key, index := l.next, die := die, core := core, place := .resident, arch := startArch l.raw die core l.next
    loads := [], sysWait := none, abandoned := [], faults := [], held := false, cause := none }

/-- The state in which the next group of a launch has entered its core. -/
def groupEntered (key die core : Nat) (rest : List Nat) (l : Launch) (s : State) : State :=
  enterCore key l.raw die core (setStation die { stationOf s die with starts := rest, noRoom := false } s)

/-- The state in which the next group of a launch runs. -/
def groupBegun (key die core : Nat) (l : Launch) (t : State) : State :=
  leaveDies key (bump (K.groupStarted + die) 1 (setGroup (key * 2 ^ 32 + l.next) (nextGroup key die core l)
    (setLaunch key { (t.grp.launches.find key).getD l with next := l.next + 1 } t)))

theorem exec_groupStart {die core key : Nat} {rest : List Nat} {l : Launch} {s : State} (hup : dieUp s die = true) (hd : die < 8)
    (hst : (stationOf s die).starts = key :: rest) (hl : s.grp.launches.find key = some l) (hstop : l.stopped = false)
    (hnext : l.next < l.total) (hroom : coreRoom s die core l.raw = true) :
    exec (.groupStart die core) s = .next (groupBegun key die core l (groupEntered key die core rest l s)) := by
  change execGroupStart die core s = _
  simp only [execGroupStart, hup, Nat.not_le.2 hd, hst, hl, hstop, Nat.not_le.2 hnext, hroom, Bool.not_true, decide_false,
    Bool.or_self, Bool.false_eq_true, if_false, if_true]
  rfl

/-- Settles O15. -/
theorem groupStartsOnACoreWithRoom : Obligations.GroupStartsOnACoreWithRoom := by
  unfold Obligations.GroupStartsOnACoreWithRoom
  intro die core key rest l s hup hd hst hl hstop hnext hroom
  have hexec := exec_groupStart (core := core) hup hd hst hl hstop hnext hroom
  have hin : LaunchKeeps (setStation die { stationOf s die with starts := rest, noRoom := false } s)
      (groupEntered key die core rest l s) := enterCore_launchKeeps ..
  generalize hu : groupEntered key die core rest l s = u at hexec hin
  obtain ⟨l₁, hl₁, hprog⟩ : ∃ l₁, u.grp.launches.find key = some l₁ ∧ l₁.progress = l.progress := by
    have h := hin.launches key
    simp only [setStation, hl, Option.map_some, Option.map_eq_some_iff] at h
    exact h
  have hout : LaunchKeeps (setGroup (key * 2 ^ 32 + l.next) (nextGroup key die core l)
      (setLaunch key { l₁ with next := l.next + 1 } u)) (groupBegun key die core l u) := by
    rw [groupBegun, hl₁, Option.getD_some]
    exact (LaunchKeeps.bump ..).trans (leaveDies_launchKeeps ..)
  obtain ⟨l', hl', hprog'⟩ : ∃ l', (groupBegun key die core l u).grp.launches.find key = some l' ∧
      l'.progress = Launch.progress { l₁ with next := l.next + 1 } := by
    have h := hout.launches key
    simp only [setGroup, setLaunch, Tab.find_put_self, Option.map_some, Option.map_eq_some_iff] at h
    exact h
  have hgroups : ∀ g, groupOf (groupBegun key die core l u) g =
      (u.grp.groups.put (key * 2 ^ 32 + l.next) (nextGroup key die core l)).find g := fun g => by
    rw [groupOf, hout.groups]
    rfl
  refine ⟨_, nextGroup key die core l, l', hexec, ?_, rfl, rfl, rfl, rfl, rfl, rfl, rfl, hl', ?_, ?_, fun g' hg' => ?_, ?_, ?_, ?_⟩
  · rw [hgroups, Tab.find_put_self]
  · exact congrArg Launch.next hprog'
  · have htotal : l₁.total = l.total := (congrArg Launch.total hprog :)
    exact (congrArg Launch.total hprog' :).trans htotal
  · rw [hgroups, Tab.find_put_of_ne _ _ hg', hin.groups]
    rfl
  · rw [stationOf, hout.weigh]
    refine (congrArg Station.starts (congrArg (fun w : Weigh => w.stations.get Station.start die) hin.weigh)).trans ?_
    exact congrArg Station.starts (stationOf_setStation_self ..)
  · exact hout.mem.trans hin.mem
  · exact hout.medlars.trans hin.medlars

end Sys2Proof.Machine

/-! ### Started commands: their frame and their completion -/

namespace Sys2Proof.Machine

/-- s without what starting, recording and completing commands touches: the commands, the queues, the links' answers, the lines
given to units, the dictionary's scalars, events on their way and the count of free values. -/
def offJobs (s : State) : State :=
  { s with jobs := ⟨[]⟩, queues := ⟨[]⟩, links := State.reset.links, mem := { s.mem with given := [] }
           dict := { s.dict with vals := ⟨[]⟩ }, ev := { s.ev with inFlight := [] }, freeN := 0 }

section
variable {s t : State} (h : offJobs t = offJobs s)
include h

theorem memoryKept_of_offJobs : MemoryKept s t :=
  (congrArg (fun m : MemSys => { m with given := t.mem.given }) (congrArg State.mem h) :)
theorem grp_of_offJobs : t.grp = s.grp := (congrArg State.grp h :)
theorem weigh_of_offJobs : t.weigh = s.weigh := (congrArg State.weigh h :)
theorem faces_of_offJobs : t.faces = s.faces := (congrArg State.faces h :)
theorem brambles_of_offJobs : t.brambles = s.brambles := (congrArg State.brambles h :)
theorem engines_of_offJobs : t.engines = s.engines := (congrArg State.engines h :)
theorem hauls_of_offJobs : t.hauls = s.hauls := (congrArg State.hauls h :)
theorem press_of_offJobs : t.press = s.press := (congrArg State.press h :)
theorem medlars_of_offJobs : t.medlars = s.medlars := (congrArg State.medlars h :)
theorem faultq_of_offJobs : t.faultq = s.faultq := (congrArg State.faultq h :)
theorem reqs_of_offJobs : t.reqs = s.reqs := (congrArg State.reqs h :)
theorem time_of_offJobs : t.time = s.time := (congrArg State.time h :)
theorem out_of_offJobs : t.out = s.out := (congrArg State.out h :)
theorem pkg_of_offJobs : t.pkg = s.pkg := (congrArg State.pkg h :)
theorem xlat_of_offJobs : t.xlat = s.xlat := (congrArg State.xlat h :)

end

theorem foldl_offJobs {α : Type} {f : State → α → State} (h : ∀ t x, offJobs (f t x) = offJobs t) (l : List α) (s : State) :
    offJobs (l.foldl f s) = offJobs s := foldl_frame offJobs f h l s

theorem OnlyRecords.offJobs {s t : State} (h : OnlyRecords s t) (hb : t.dict.blobs = s.dict.blobs)
    (hstaging : t.dict.staging = s.dict.staging) (he : still t = still s) : offJobs t = offJobs s := by
  rw [h]
  have hev : { t.ev with inFlight := [] } = { s.ev with inFlight := [] } := (congrArg State.ev he :)
  simp only [Machine.offJobs, hb, hstaging, hev]

theorem bump_offJobs (k n : Nat) (s : State) : offJobs (bump k n s) = offJobs s :=
  (bump_onlyRecords k n s).offJobs (dict_of_still (bump_still ..)) (congrArg (·.dict.staging) (bump_still k n s) :) (bump_still ..)

theorem setJob_offJobs (key : Nat) (j : Job) (s : State) : offJobs (setJob key j s) = offJobs s := rfl
theorem setQueue_offJobs (q : Nat) (x : Queue) (s : State) : offJobs (setQueue q x s) = offJobs s := rfl
theorem raise_offJobs (c o a b : Nat) (s : State) : offJobs (raise c o a b s) = offJobs s := rfl
theorem dropAnswers_offJobs (p : TOwner → Bool) (s : State) : offJobs (dropAnswers p s) = offJobs s := rfl
theorem dropArrived_offJobs (o : TOwner) (s : State) : offJobs (dropArrived o s) = offJobs s := rfl

theorem onJob_offJobs (key : Nat) (f : Job → Job) (s : State) : offJobs (onJob key f s) = offJobs s := by
  rw [onJob]
  split <;> rfl

theorem runJob_offJobs (key : Nat) (s : State) : offJobs (runJob key s) = offJobs s := onJob_offJobs ..
theorem setDetail_offJobs (key d : Nat) (s : State) : offJobs (setDetail key d s) = offJobs s := onJob_offJobs ..

theorem addOut_offJobs (key : Nat) (o : Status) (s : State) : offJobs (addOut key o s) = offJobs s := by
  rw [addOut]
  split
  · split <;> rfl
  · rfl

theorem addRecord_offJobs (q : Nat) (r : CplRec) (s : State) : offJobs (addRecord q r s) = offJobs s := by
  have hstall : offJobs (if cplFull (queueOf s q) then bump K.cplRingStalls 1 s else s) = offJobs s := by
    split
    · exact bump_offJobs ..
    · rfl
  exact (setQueue_offJobs ..).trans hstall

theorem countCompleted_offJobs (gen op : Nat) (s : State) : offJobs (countCompleted gen op s) = offJobs s :=
  (bump_offJobs ..).trans (bump_offJobs ..)

/-- A command's completion leaves all but the commands, the queues and what its answers used. -/
theorem finishWith_offJobs (key : Nat) (st : Status) (s : State) : offJobs (finishWith key st s) = offJobs s := by
  unfold finishWith
  split
  · rfl
  next j _ =>
    extract_lets st' q seq x t u v
    have hleft : offJobs v = offJobs s := countCompleted_offJobs ..
    split
    · exact hleft
    · exact (addRecord_offJobs ..).trans hleft

theorem signalEvent_offJobs (key : Nat) (j : Job) (st : Status) (s : State) : offJobs (signalEvent key j st s) = offJobs s := by
  rw [signalEvent]
  split <;> rfl

theorem finishJob_offJobs (key : Nat) (s : State) : offJobs (finishJob key s) = offJobs s := by
  rw [finishJob]
  split
  · rfl
  · exact (signalEvent_offJobs ..).trans (finishWith_offJobs ..)

/-! #### Completion -/

/-- What of a command its completion reads, but for DETAIL: the rest changes while it runs. -/
def Job.command (j : Job) : Job := { j with raw := 0, staged := false, phase := .handed, outs := [], detail := 0, counted := 0 }

theorem countCompleted_jobs (gen op : Nat) (s : State) :
    (countCompleted gen op s).jobs = s.jobs ∧ (countCompleted gen op s).queues = s.queues :=
  ⟨(bump_jobs ..).trans (bump_jobs ..), (bump_queues ..).trans (bump_queues ..)⟩

/-- The record of a command that has completed, in its queue. -/
theorem queueOf_addRecord_self (q : Nat) (r : CplRec) (s : State) :
    queueOf (addRecord q r s) q = { queueOf s q with cplWait := (queueOf s q).cplWait ++ [r] } := by
  rw [addRecord, queueOf_setQueue_self]

theorem addRecord_jobs (q : Nat) (r : CplRec) (s : State) : (addRecord q r s).jobs = s.jobs := by
  have hstall : (if cplFull (queueOf s q) then bump K.cplRingStalls 1 s else s).jobs = s.jobs := by
    split
    · exact bump_jobs ..
    · rfl
  exact hstall

/-- A command completes: it leaves its queue's started commands, and its record waits unless something forbids it. -/
theorem finishWith_completed {key : Nat} {o : Status} {j j' : Job} {s u : State} (hj : u.jobs.find key = some j')
    (hc : j'.command = j.command) (hq : queueOf u (keyQueue key) = queueOf s (keyQueue key)) :
    Completed key o j'.detail j s (finishWith key o u) := by
  have hopcode : j'.opcode = j.opcode := (congrArg Job.opcode hc :)
  have htag : j'.tag = j.tag := (congrArg Job.tag hc :)
  have hquiet : j'.quiet = j.quiet := (congrArg Job.quiet hc :)
  have hmute : j'.mute = j.mute := (congrArg Job.mute hc :)
  have hgone : j'.gone = j.gone := (congrArg Job.gone hc :)
  simp only [finishWith, hj]
  generalize hst : (if j'.gone = true then Status.frontendGone else o) = st
  generalize hx : ({ queueOf u (keyQueue key) with live := (queueOf u (keyQueue key)).live.filter (· != keySeq key)
                                                   results := (queueOf u (keyQueue key)).results ++ [(keySeq key, st)] } : Queue) = x
  generalize hv : countCompleted j'.gen j'.opcode (dropAnswers (fun o => ownerKey o == some key)
    (setQueue (keyQueue key) x { u with jobs := u.jobs.del key })) = v
  have hvq : queueOf v (keyQueue key) = x := by
    rw [← hv, queueOf_congr (countCompleted_jobs ..).2]
    exact queueOf_setQueue_self ..
  have hvj : v.jobs.find key = none := by
    rw [← hv, (countCompleted_jobs ..).1]
    exact Tab.find_del_self ..
  have hlive : keySeq key ∉ x.live := by
    rw [← hx]
    simp
  split
  next hno =>
    refine ⟨hvj, by rwa [hvq], fun hg hm hquiet' hdead => ?_⟩
    have hso : st = o := by rw [← hst, hgone, hg]; rfl
    simp only [hmute, hm, hq, hdead, hquiet, hso, Bool.or_self, Bool.false_or, Bool.and_eq_true, Bool.or_eq_true, beq_iff_eq] at hno
    obtain ⟨hq', hdone⟩ := hno
    rcases hquiet' with h | ⟨h1, h2⟩
    · simp [h] at hq'
    · exact absurd hdone (not_or.2 ⟨h1, h2⟩)
  · refine ⟨by rw [addRecord_jobs, hvj], ?_, fun hg hm _ _ => ?_⟩
    · rw [queueOf_addRecord_self, hvq]
      exact hlive
    · have hso : st = o := by rw [← hst, hgone, hg]; rfl
      refine ⟨{ seq := keySeq key, status := st, opcode := j'.opcode, tag := j'.tag, detail := j'.detail, time := timeOfDay u },
        ?_, rfl, hso, hopcode, htag, rfl⟩
      rw [queueOf_addRecord_self, hvq, ← hq, ← hx]

end Sys2Proof.Machine

/-! ### GROUP_LAUNCH (O14) -/

namespace Sys2Proof.Machine

/-- A command that its unit has been handed is a started command of that kind. -/
theorem find_of_handed {s : State} {q seq kind : Nat} {j : Job} (h : handed s q seq kind = some j) :
    s.jobs.find (jobKey q seq) = some j ∧ opGen2 j.gen j.opcode = some kind := by
  rw [handed] at h
  split at h
  next j' hj =>
    split at h
    next hk =>
      simp only [Bool.and_eq_true, beq_iff_eq] at hk
      cases h
      exact ⟨hj, hk.2⟩
    · cases h
  · cases h

/-- A descriptor that is at hand is not read again. -/
theorem stageDesc_of_hasDesc {j : Job} (h : j.hasDesc) (q seq die : Nat) (s : State) :
    stageDesc q seq die j s = (.desc j.raw, UStep.start j.ctx (jobKey q seq) die s) := by
  have hd : (j.gen = 2 || j.staged) = true := by
    rcases h with h | h <;> simp [h]
  rw [stageDesc, if_pos (by simpa using hd)]

theorem uClose_start (ctx key die : Nat) (s : State) : uClose (UStep.start ctx key die s) = dropArrived (.job key) s := rfl

theorem began_offJobs (key : Nat) (s : State) : offJobs (began key s) = offJobs s := runJob_offJobs ..

/-- A command that never runs completes with its status, and nothing else moves. -/
theorem refuseJob_completed {q seq kind : Nat} {j : Job} {s : State} (o : Status) (h : handed s q seq kind = some j) :
    Completed (jobKey q seq) o j.detail j s (refuseJob (jobKey q seq) o s) :=
  finishWith_completed (find_of_handed h).1 rfl rfl

/-! #### Launches that are accepted -/

/-- A launch that has taken its pending slots. -/
def newLaunch (d ctx : Nat) : Launch :=
  { raw := d, ctx := ctx, next := 0, total := launchGroups d, ended := 0, byHandler := 0, firstEnd := none
    slots := launchDies d, stopped := false, aborted := false, corrected := false, failed := [], cores := [] }

/-- The state in which a launch has taken its slots and its groups are offered. -/
def launched (key : Nat) (j : Job) (s : State) : State :=
  (setBitsOf 8 (launchDies j.raw)).foldl (fun t n => offerWork n (.group key) (launchPriority j.raw) t)
    (setLaunch key (newLaunch j.raw j.ctx) (began key s))

theorem exec_groupLaunch {q seq : Nat} {j : Job} {s : State} (hh : handed s q seq 0x02 = some j) (hd : j.hasDesc)
    (hok : launchOk j.raw = true) (hslots : ∀ d, d < 8 → bit (launchDies j.raw) d = true → slotsHeld s d < 64) :
    exec (.groupLaunch q seq) s = .next (launched (jobKey q seq) j s) := by
  have hroom : (setBitsOf 8 (launchDies j.raw)).filter (fun n => decide (64 ≤ slotsHeld s n)) = [] := by
    refine List.filter_eq_nil_iff.2 fun d hdie => ?_
    obtain ⟨hlt, hbit⟩ := mem_setBitsOf.1 hdie
    simpa using hslots d hlt hbit
  change execGroupLaunch q seq s = _
  simp only [execGroupLaunch, hh, stageDesc_of_hasDesc hd, hok, ge_iff_le, hroom, Bool.not_true, Bool.false_eq_true, if_false,
    uClose_start]
  rfl

/-- Work offered to several stations reaches each of them once. -/
theorem foldl_offerWork (w : Work) (prio : Nat) {l : List Nat} (hnd : l.Nodup) (s : State) (d : Nat) :
    stationOf (l.foldl (fun t n => offerWork n w prio t) s) d =
      if d ∈ l then { stationOf s d with offers := (stationOf s d).offers ++ [{ work := w, prio := prio, passed := 0 }] }
      else stationOf s d := by
  induction l generalizing s with
  | nil => rfl
  | cons n l ih =>
    obtain ⟨hn, hnd⟩ := List.nodup_cons.1 hnd
    rw [List.foldl_cons, ih hnd]
    by_cases hd : d = n
    · subst hd
      rw [if_neg hn, if_pos (List.mem_cons_self ..)]
      exact stationOf_setStation_self ..
    · have hother : stationOf (offerWork n w prio s) d = stationOf s d := Tab.get_put_of_ne _ _ _ hd
      simp only [List.mem_cons, hd, false_or, hother]

theorem foldl_offerWork_keeps (w : Work) (prio : Nat) (l : List Nat) (s : State) :
    l.foldl (fun t n => offerWork n w prio t) s = { s with weigh := (l.foldl (fun t n => offerWork n w prio t) s).weigh } :=
  foldl_keeps (fun t => t = { s with weigh := t.weigh }) _ (fun t n h => by rw [h]; rfl) l s rfl

theorem began_eq (key : Nat) (s : State) :
    began key s = { s with jobs := (began key s).jobs, links := (began key s).links, mem := (began key s).mem } := by
  rw [began, runJob, onJob]
  split <;> rfl

theorem nodup_setBitsOf (n x : Nat) : (setBitsOf n x).Nodup := List.Pairwise.filter _ List.nodup_range

theorem weigh_began (key : Nat) (s : State) : (began key s).weigh = s.weigh := weigh_of_offJobs (began_offJobs ..)

theorem launched_spec (key : Nat) (j : Job) (s : State) :
    (launched key j s).grp.launches.find key = some (newLaunch j.raw j.ctx) ∧
    (∀ d, d < 8 → bit (launchDies j.raw) d = true → (stationOf (launched key j s) d).offers = (stationOf s d).offers ++
      [{ work := .group key, prio := launchPriority j.raw, passed := 0 }]) ∧
    (∀ d, 8 ≤ d ∨ bit (launchDies j.raw) d = false → stationOf (launched key j s) d = stationOf s d) ∧
    MemoryKept s (launched key j s) ∧
    launched key j s = { s with grp := { s.grp with launches := (launched key j s).grp.launches }
                                weigh := (launched key j s).weigh, jobs := (launched key j s).jobs
                                links := (launched key j s).links, mem := (launched key j s).mem } := by
  have hkeep := foldl_offerWork_keeps (.group key) (launchPriority j.raw) (setBitsOf 8 (launchDies j.raw))
    (setLaunch key (newLaunch j.raw j.ctx) (began key s))
  have hstation := foldl_offerWork (.group key) (launchPriority j.raw) (nodup_setBitsOf 8 (launchDies j.raw))
    (setLaunch key (newLaunch j.raw j.ctx) (began key s))
  have hbefore : ∀ d, stationOf (setLaunch key (newLaunch j.raw j.ctx) (began key s)) d = stationOf s d := fun d =>
    congrArg (fun w : Weigh => w.stations.get Station.start d) (weigh_began key s)
  change launched key j s = _ at hkeep
  change ∀ d, stationOf (launched key j s) d = _ at hstation
  refine ⟨?_, fun d hd hb => ?_, fun d hd => ?_, ?_, ?_⟩
  · rw [hkeep]
    exact Tab.find_put_self ..
  · rw [hstation, if_pos (mem_setBitsOf.2 ⟨hd, hb⟩), hbefore]
  · rw [hstation, if_neg, hbefore]
    intro hmem
    obtain ⟨hlt, hb⟩ := mem_setBitsOf.1 hmem
    rcases hd with hd | hd
    · omega
    · rw [hd] at hb
      cases hb
  · rw [hkeep]
    exact (memoryKept_of_offJobs (began_offJobs key s) : MemoryKept s (began key s))
  · rw [hkeep]
    simp only [setLaunch]
    rw [began_eq]

/-! #### Launches that are refused or held -/

theorem exec_groupLaunch_refused {q seq : Nat} {j : Job} {s : State} (hh : handed s q seq 0x02 = some j) (hd : j.hasDesc)
    (hok : launchOk j.raw = false) :
    exec (.groupLaunch q seq) s = .next (refuseJob (jobKey q seq) .descriptorInvalid s) := by
  change execGroupLaunch q seq s = _
  simp only [execGroupLaunch, hh, stageDesc_of_hasDesc hd, hok, Bool.not_false, if_true, UStep.start]

/-- The dies of a launch whose slots are full, and have not been counted yet. -/
def fullDies (s : State) (j : Job) : List Nat :=
  ((setBitsOf 8 (launchDies j.raw)).filter fun n => decide (slotsHeld s n ≥ 64)).filter fun n => !bit j.counted n

/-- The state in which a launch is held, and the dies whose slots are full have counted it. -/
def launchHeldBy (key : Nat) (j : Job) (s : State) : State :=
  (fullDies s j).foldl (fun t n => bump (K.groupLaunchStalls + n) 1 t)
    (setJob key { j with phase := .blocked, staged := true, counted := (fullDies s j).foldl (fun m n => setBit m n) j.counted } s)

theorem mem_fullDies {s : State} {j : Job} {d : Nat} (hd : d < 8) (hb : bit (launchDies j.raw) d = true)
    (hfull : 64 ≤ slotsHeld s d) (hc : bit j.counted d = false) : d ∈ fullDies s j := by
  simp only [fullDies, List.mem_filter, mem_setBitsOf]
  exact ⟨⟨⟨hd, hb⟩, by simpa using hfull⟩, by simpa using hc⟩

theorem exec_groupLaunch_held {q seq d : Nat} {j : Job} {s : State} (hh : handed s q seq 0x02 = some j) (hd : j.hasDesc)
    (hok : launchOk j.raw = true) (hmem : d ∈ fullDies s j) :
    exec (.groupLaunch q seq) s = .next (launchHeldBy (jobKey q seq) j s) := by
  change execGroupLaunch q seq s = _
  simp only [execGroupLaunch, hh, stageDesc_of_hasDesc hd, hok, Bool.not_true, Bool.false_eq_true, if_false]
  unfold launchHeldBy
  unfold fullDies at hmem ⊢
  generalize (setBitsOf 8 (launchDies j.raw)).filter (fun n => decide (slotsHeld s n ≥ 64)) = full at hmem ⊢
  cases full with
  | nil => simp at hmem
  | cons n more =>
    have hne : ((n :: more).filter fun n => !bit j.counted n).isEmpty = false :=
      List.isEmpty_eq_false_iff.2 (List.ne_nil_of_mem hmem)
    simp only [hne, Bool.false_eq_true, if_false, UStep.start, List.append_nil]

theorem bit_foldl_setBit {l : List Nat} (m : Nat) {d : Nat} (h : d ∈ l ∨ bit m d = true) :
    bit (l.foldl (fun m n => setBit m n) m) d = true := by
  induction l generalizing m with
  | nil => exact h.resolve_left List.not_mem_nil
  | cons n l ih =>
    refine ih _ ?_
    rw [bit_setBit]
    rcases h with h | h
    · rcases List.mem_cons.1 h with rfl | h
      · exact .inr (by simp)
      · exact .inl h
    · exact .inr (by simp [h])

theorem foldl_bump_onlyRecords (key : Nat → Nat) (l : List Nat) (s : State) :
    OnlyRecords s (l.foldl (fun t n => bump (key n) 1 t) s) :=
  foldl_keeps (OnlyRecords s) _ (fun _ _ h => h.trans (bump_onlyRecords ..)) l s (.refl s)

/-! #### Launches that are over -/

/-- The state in which the L1s of the cores of a launch are empty. -/
def coresLeft (l : Launch) (s : State) : State := l.cores.foldl (fun u k => invalidateL1 k u) s

/-- The state in which no station of a die offers a launch's groups. -/
def diesLeft (key : Nat) (s : State) : State := (List.range 8).foldl (fun v d => dropWork (· == .group key) d v) s

/-- The state in which a launch has left the list of launches. -/
def dropLaunch (key : Nat) (s : State) : State := { s with grp := { s.grp with launches := s.grp.launches.del key } }

/-- The state in which a launch that is over has left its cores, its dies and the list of launches. -/
def launchLeft (key : Nat) (l : Launch) (s : State) : State := dropLaunch key (diesLeft key (coresLeft l s))

/-- The DETAIL of a launch that is over: the groups that ended, and those that a handler ended. -/
def launchDetail (l : Launch) : Nat := l.ended % 2 ^ 32 + l.byHandler % 2 ^ 32 * 2 ^ 32

/-- The same, with the launch's DETAIL. -/
def launchReported (key : Nat) (l : Launch) (s : State) : State := setDetail key (launchDetail l) (launchLeft key l s)

theorem exec_launchComplete {q seq : Nat} {l : Launch} {j : Job} {s : State}
    (hl : s.grp.launches.find (jobKey q seq) = some l) (hover : l.stopped = true ∨ l.total ≤ l.next)
    (hnone : ∀ c, c ∈ s.grp.groups.cells → launchKey c.1 ≠ jobKey q seq) (hw : launchWrites s (jobKey q seq) = false)
    (hj : s.jobs.find (jobKey q seq) = some j) :
    exec (.launchComplete q seq) s =
      .next (finishWith (jobKey q seq) (launchStatus l j.outs) (launchReported (jobKey q seq) l s)) := by
  have hstart : (!l.stopped && decide (l.next < l.total)) = false := by
    rcases hover with h | h
    · simp [h]
    · simp [Nat.not_lt.2 h]
  have hno : (s.grp.groups.cells.any fun c => launchKey c.1 == jobKey q seq) = false := by
    simp only [List.any_eq_false, beq_iff_eq]
    exact fun c hc => hnone c hc
  change execLaunchComplete q seq s = _
  simp only [execLaunchComplete, hl, hstart, hno, hw, hj, Bool.false_eq_true, if_false, launchReported, launchDetail, launchLeft, dropLaunch, diesLeft, coresLeft]

/-- What leaving cores and dies keeps: the commands, the queues, memory, the Medlar cores, and of the groups all but the L1s. -/
structure LeaveKeeps (s t : State) : Prop where
  jobs : t.jobs = s.jobs
  queues : t.queues = s.queues
  mem : t.mem = s.mem
  medlars : t.medlars = s.medlars
  groups : t.grp.groups = s.grp.groups
  launches : t.grp.launches = s.grp.launches

namespace LeaveKeeps
variable {s t u : State}

theorem refl (s : State) : LeaveKeeps s s := ⟨rfl, rfl, rfl, rfl, rfl, rfl⟩

theorem trans (h : LeaveKeeps s t) (h' : LeaveKeeps t u) : LeaveKeeps s u :=
  ⟨h'.jobs.trans h.jobs, h'.queues.trans h.queues, h'.mem.trans h.mem, h'.medlars.trans h.medlars, h'.groups.trans h.groups,
    h'.launches.trans h.launches⟩

end LeaveKeeps

theorem invalidateL1_leaveKeeps (k : Nat) (s : State) : LeaveKeeps s (invalidateL1 k s) := ⟨rfl, rfl, rfl, rfl, rfl, rfl⟩

theorem setStation_leaveKeeps (d : Nat) (x : Station) (s : State) : LeaveKeeps s (setStation d x s) :=
  ⟨rfl, rfl, rfl, rfl, rfl, rfl⟩

theorem bump_leaveKeeps (k n : Nat) (s : State) : LeaveKeeps s (bump k n s) :=
  ⟨bump_jobs .., bump_queues .., bump_mem .., bump_medlars .., by rw [bump_grp], by rw [bump_grp]⟩

theorem setReserved_leaveKeeps (d : Nat) (ws : List Work) (s : State) : LeaveKeeps s (setReserved d ws s) := by
  unfold setReserved
  dsimp only
  split
  · split
    · exact setStation_leaveKeeps ..
    · exact (setStation_leaveKeeps ..).trans (bump_leaveKeeps ..)
  · exact setStation_leaveKeeps ..

theorem dropWork_leaveKeeps (p : Work → Bool) (d : Nat) (s : State) : LeaveKeeps s (dropWork p d s) :=
  (setStation_leaveKeeps ..).trans (setReserved_leaveKeeps ..)

theorem dropWork_grp (p : Work → Bool) (d : Nat) (s : State) : (dropWork p d s).grp = s.grp :=
  (setReserved_keeps ..).2.2.1

/-- The L1s of the cores of a list are empty once each has been invalidated. -/
theorem l1_foldl_invalidateL1 (l : List Nat) (s : State) {k : Nat} (h : k ∈ l ∨ (gcoreOf s k).l1 = ⟨[]⟩) :
    (gcoreOf (l.foldl (fun u k => invalidateL1 k u) s) k).l1 = ⟨[]⟩ := by
  induction l generalizing s with
  | nil => exact h.resolve_left List.not_mem_nil
  | cons n l ih =>
    refine ih _ ?_
    by_cases hk : k = n
    · subst hk
      exact .inr (l1_invalidateL1 ..)
    · refine h.imp (fun hm => (List.mem_cons.1 hm).resolve_left hk) fun h1 => ?_
      have hother : gcoreOf (invalidateL1 n s) k = gcoreOf s k := Tab.get_put_of_ne _ _ _ hk
      rw [hother, h1]

theorem coresLeft_leaveKeeps (l : Launch) (s : State) : LeaveKeeps s (coresLeft l s) :=
  foldl_keeps (LeaveKeeps s) _ (fun t k h => h.trans (invalidateL1_leaveKeeps k t)) _ _ (.refl s)

theorem diesLeft_leaveKeeps (key : Nat) (s : State) : LeaveKeeps s (diesLeft key s) :=
  foldl_keeps (LeaveKeeps s) _ (fun u d h => h.trans (dropWork_leaveKeeps _ d u)) _ _ (.refl s)

theorem diesLeft_grp (key : Nat) (s : State) : (diesLeft key s).grp = s.grp :=
  foldl_frame State.grp _ (fun u d => dropWork_grp _ d u) _ s

theorem dropLaunch_keeps (key : Nat) (s : State) :
    (dropLaunch key s).jobs = s.jobs ∧ (dropLaunch key s).queues = s.queues ∧ (dropLaunch key s).mem = s.mem ∧
    (dropLaunch key s).medlars = s.medlars ∧ (dropLaunch key s).grp.groups = s.grp.groups ∧
    (dropLaunch key s).grp.launches.find key = none ∧ (dropLaunch key s).grp.cores = s.grp.cores :=
  ⟨rfl, rfl, rfl, rfl, rfl, Tab.find_del_self .., rfl⟩

/-- What a launch that is over leaves. -/
theorem launchLeft_spec (key : Nat) (l : Launch) (s : State) :
    (launchLeft key l s).jobs = s.jobs ∧ (launchLeft key l s).queues = s.queues ∧ (launchLeft key l s).mem = s.mem ∧
    (launchLeft key l s).medlars = s.medlars ∧ (launchLeft key l s).grp.groups = s.grp.groups ∧
    (launchLeft key l s).grp.launches.find key = none ∧
    ∀ k, k ∈ l.cores → (gcoreOf (launchLeft key l s) k).l1 = ⟨[]⟩ := by
  have hall := (coresLeft_leaveKeeps l s).trans (diesLeft_leaveKeeps key (coresLeft l s))
  obtain ⟨hjobs, hqueues, hmem, hmedlars, hgroups, hgone, hcores⟩ := dropLaunch_keeps key (diesLeft key (coresLeft l s))
  refine ⟨hjobs.trans hall.jobs, hqueues.trans hall.queues, hmem.trans hall.mem, hmedlars.trans hall.medlars,
    hgroups.trans hall.groups, hgone, fun k hk => ?_⟩
  rw [gcoreOf, launchLeft, hcores, diesLeft_grp]
  exact l1_foldl_invalidateL1 _ _ (.inl hk)

theorem launchDetail_lt (l : Launch) : launchDetail l < 2 ^ 64 := by
  unfold launchDetail
  omega

theorem command_withDetail (j : Job) (d : Nat) : Job.command { j with detail := d } = j.command := rfl

theorem find_setDetail {key d : Nat} {j : Job} {s : State} (h : s.jobs.find key = some j) :
    (setDetail key d s).jobs.find key = some { j with detail := d % 2 ^ 64 } := by
  simp only [setDetail, onJob, h, setJob, Tab.find_put_self]

/-- Settles O14. -/
theorem launchesTakeSlotsAndComplete : Obligations.LaunchesTakeSlotsAndComplete := by
  unfold Obligations.LaunchesTakeSlotsAndComplete
  refine ⟨fun q seq j s hh hd hok hslots => ?_, fun q seq j s hh hd hok => ?_, fun q seq d j s hh hdesc hok hd hb hfull hc => ?_,
    fun q seq l j s hl hover hnone hw hj => ?_⟩
  · obtain ⟨hfind, hoffers, hothers, hmem, heq⟩ := launched_spec (jobKey q seq) j s
    exact ⟨_, _, exec_groupLaunch hh hd hok hslots, hfind, rfl, rfl, rfl, rfl, rfl, rfl, hoffers, hothers, hmem, heq⟩
  · have hoff := finishWith_offJobs (jobKey q seq) .descriptorInvalid s
    exact ⟨_, exec_groupLaunch_refused hh hd hok, refuseJob_completed _ hh, memoryKept_of_offJobs hoff, grp_of_offJobs hoff,
      weigh_of_offJobs hoff⟩
  · have hmem := mem_fullDies hd hb hfull hc
    have hrec : OnlyRecords _ (launchHeldBy (jobKey q seq) j s) := foldl_bump_onlyRecords (K.groupLaunchStalls + ·) (fullDies s j)
      (setJob (jobKey q seq)
        { j with phase := .blocked, staged := true, counted := (fullDies s j).foldl (fun m n => setBit m n) j.counted } s)
    refine ⟨_, (fullDies s j).foldl (fun m n => setBit m n) j.counted, exec_groupLaunch_held hh hdesc hok hmem, hrec.grp,
      hrec.weigh, bit_foldl_setBit _ (.inl hmem), ?_, ?_⟩
    · rw [hrec.jobs]
      exact Tab.find_put_self ..
    · have hjobs : { s with jobs := (launchHeldBy (jobKey q seq) j s).jobs } = setJob (jobKey q seq)
          { j with phase := .blocked, staged := true, counted := (fullDies s j).foldl (fun m n => setBit m n) j.counted } s := by
        rw [hrec.jobs]
        rfl
      rwa [hjobs]
  · obtain ⟨hjobs, hqueues, hmem, hmedlars, hgroups, hgone, hl1⟩ := launchLeft_spec (jobKey q seq) l s
    have hj' : (launchReported (jobKey q seq) l s).jobs.find (jobKey q seq) = some { j with detail := launchDetail l } := by
      rw [launchReported, find_setDetail (by rw [hjobs]; exact hj), Nat.mod_eq_of_lt (launchDetail_lt l)]
    have hq : queueOf (launchReported (jobKey q seq) l s) (keyQueue (jobKey q seq)) = queueOf s (keyQueue (jobKey q seq)) :=
      queueOf_congr ((setDetail_queues ..).trans hqueues) _
    have hoff : offJobs (finishWith (jobKey q seq) (launchStatus l j.outs) (launchReported (jobKey q seq) l s)) =
        offJobs (launchLeft (jobKey q seq) l s) := (finishWith_offJobs ..).trans (setDetail_offJobs ..)
    have hgrp := grp_of_offJobs hoff
    have hdone : Completed (jobKey q seq) (launchStatus l j.outs) (launchDetail l) j s
        (finishWith (jobKey q seq) (launchStatus l j.outs) (launchReported (jobKey q seq) l s)) :=
      finishWith_completed hj' (command_withDetail ..) hq
    refine ⟨_, exec_launchComplete hl hover hnone hw hj, ?_, ?_, hdone, fun k hk => ?_, ?_, ?_⟩
    · rw [hgrp, hgone]
    · rw [hgrp, hgroups]
    · rw [gcoreOf, hgrp]
      exact hl1 k hk
    · have hkept := memoryKept_of_offJobs hoff
      rwa [MemoryKept, hmem] at hkept
    · exact (medlars_of_offJobs hoff).trans hmedlars

end Sys2Proof.Machine

/-! ### FACE_OPs: staged, started, committed (O8, O9, O10) -/

namespace Sys2Proof.Machine

theorem find_began {key : Nat} {j : Job} {s : State} (h : s.jobs.find key = some j) :
    (began key s).jobs.find key = some { j with phase := .running } := by
  have h' : (dropArrived (.job key) s).jobs.find key = some j := h
  simp only [began, runJob, onJob, h', setJob, Tab.find_put_self]

/-! #### FACE_OP -/

/-- The work that a queue's FACE_OP offers. -/
def faceWork (key d ctx : Nat) : Work := .face (FRun.start { owner := .queue, key := key, raw := d, ctx := ctx })

theorem offerWork_eq (d : Nat) (w : Work) (prio : Nat) (s : State) :
    offerWork d w prio s = { s with weigh := (offerWork d w prio s).weigh } := rfl

theorem offerWork_began (d : Nat) (w : Work) (prio key : Nat) (s : State) : offerWork d w prio (began key s) =
    { s with weigh := (offerWork d w prio (began key s)).weigh, jobs := (offerWork d w prio (began key s)).jobs
             links := (offerWork d w prio (began key s)).links, mem := (offerWork d w prio (began key s)).mem } := by
  have h : ∀ x : Weigh, { began key s with weigh := x } =
      { s with weigh := x, jobs := (began key s).jobs, links := (began key s).links, mem := (began key s).mem } := fun x =>
    congrArg (fun t : State => { t with weigh := x }) (began_eq key s)
  exact h _

theorem offerWork_runJob (d : Nat) (w : Work) (prio key : Nat) (s : State) : offerWork d w prio (runJob key s) =
    { s with weigh := (offerWork d w prio (runJob key s)).weigh, jobs := (offerWork d w prio (runJob key s)).jobs } := by
  have hrun : runJob key s = { s with jobs := (runJob key s).jobs } := by
    rw [runJob, onJob]
    split <;> rfl
  have h : ∀ x : Weigh, { runJob key s with weigh := x } = { s with weigh := x, jobs := (runJob key s).jobs } := fun x =>
    congrArg (fun t : State => { t with weigh := x }) hrun
  exact h _

theorem stationOf_runJob (key : Nat) (s : State) (d : Nat) : stationOf (runJob key s) d = stationOf s d := by
  rw [stationOf, stationOf, weigh_of_offJobs (runJob_offJobs ..)]

theorem offers_offerWork (d : Nat) (w : Work) (prio : Nat) (s : State) :
    (stationOf (offerWork d w prio s) d).offers = (stationOf s d).offers ++ [{ work := w, prio := prio, passed := 0 }] :=
  congrArg Station.offers (stationOf_setStation_self ..)

theorem exec_faceOp_staged {q seq face d : Nat} {j : Job} {u : UStep} {s : State} (hh : handed s q seq 0x01 = some j)
    (hp : s.pkg ≠ .restricted) (hf : face < 8) (hup : dieUp s face = true) (hst : stageDesc q seq face j s = (.desc d, u))
    (hok : faceCheck d = none) :
    exec (.faceOp q seq face) s =
      .next (offerWork face (faceWork (jobKey q seq) d j.ctx) (fPriority d) (runJob (jobKey q seq) (uClose u))) := by
  change execFaceOp q seq face s = _
  simp only [execFaceOp, hh, Nat.not_le.2 hf, hup, hp, hst, hok, decide_false, Bool.not_true, Bool.or_self, Bool.false_eq_true,
    if_false, faceWork]

theorem exec_faceOp_refused {q seq face : Nat} {j : Job} {o : Status} {s : State} (hh : handed s q seq 0x01 = some j)
    (hf : face < 8) (hup : dieUp s face = true)
    (h : (s.pkg = .restricted ∧ o = .restrictedMode) ∨ (s.pkg ≠ .restricted ∧ j.hasDesc ∧ faceCheck j.raw = some o)) :
    exec (.faceOp q seq face) s = .next (refuseFace face (jobKey q seq) o s) := by
  change execFaceOp q seq face s = _
  rcases h with ⟨hp, rfl⟩ | ⟨hp, hd, ho⟩
  · simp only [execFaceOp, hh, Nat.not_le.2 hf, hup, hp, decide_false, Bool.not_true, Bool.or_self, Bool.false_eq_true, if_false,
      if_true]
  · simp only [execFaceOp, hh, Nat.not_le.2 hf, hup, hp, stageDesc_of_hasDesc hd, ho, decide_false, Bool.not_true, Bool.or_self,
      Bool.false_eq_true, if_false, UStep.start]

/-- A refused FACE_OP completes with its status, its Face and station untouched. -/
theorem refuseFace_completed {q seq kind : Nat} {j : Job} {s : State} (face : Nat) (o : Status)
    (h : handed s q seq kind = some j) :
    Completed (jobKey q seq) o j.detail j s (refuseFace face (jobKey q seq) o s) ∧
    MemoryKept s (refuseFace face (jobKey q seq) o s) ∧ (refuseFace face (jobKey q seq) o s).faces = s.faces ∧
    (refuseFace face (jobKey q seq) o s).weigh = s.weigh := by
  have hoff : offJobs (refuseFace face (jobKey q seq) o s) = offJobs s := (finishWith_offJobs ..).trans (bump_offJobs ..)
  refine ⟨finishWith_completed ?_ rfl (queueOf_congr (bump_queues ..) _), memoryKept_of_offJobs hoff, faces_of_offJobs hoff,
    weigh_of_offJobs hoff⟩
  rw [bump_jobs]
  exact (find_of_handed h).1

/-- Settles O8. -/
theorem faceOpIsStaged : Obligations.FaceOpIsStaged := by
  unfold Obligations.FaceOpIsStaged
  refine ⟨fun q seq face j s hh hd hp hf hup hok => ?_, fun q seq face j o s hh hd hp hf hup ho => ?_,
    fun q seq face j s hh hp hf hup => ?_, fun q seq face d j u s hh hp hf hup hst hok => ?_⟩
  · refine ⟨_, exec_faceOp_staged hh hp hf hup (stageDesc_of_hasDesc hd ..) hok, ?_, find_began (find_of_handed hh).1,
      (memoryKept_of_offJobs (began_offJobs (jobKey q seq) s) :), offerWork_began ..⟩
    rw [offers_offerWork, stationOf_runJob]
    rfl
  · exact ⟨_, exec_faceOp_refused hh hf hup (.inr ⟨hp, hd, ho⟩), refuseFace_completed face o hh⟩
  · exact ⟨_, exec_faceOp_refused hh hf hup (.inl ⟨hp, rfl⟩), refuseFace_completed face .restrictedMode hh⟩
  · refine ⟨_, exec_faceOp_staged hh hp hf hup hst hok, ?_, offerWork_runJob ..⟩
    rw [offers_offerWork, stationOf_runJob]
    rfl

/-! #### FACE_OP_START -/

theorem faceOf_setFace_of_ne {d e : Nat} (f : Face) (s : State) (h : e ≠ d) : faceOf (setFace d f s) e = faceOf s e :=
  Tab.get_put_of_ne _ _ _ h

/-- The Face on which a staged FACE_OP has taken the array, beside the one before. -/
def takenArray (f : Face) (prior : Option FRun) (r : FRun) (rest : List FRun) : Face :=
  { (if r.resumed then f else loadSeed f) with staged := rest, run := some { r with resumed := false }, prior := prior }

theorem loadSeed_keeps (f : Face) : (loadSeed f).prior = f.prior ∧ (loadSeed f).saves = f.saves := by
  rw [loadSeed]
  split <;> exact ⟨rfl, rfl⟩

theorem loadSeed_of_seed {f : Face} {x : BitVec 32} (h : f.seed = some x) :
    (loadSeed f).lfsr = (if x = 0#32 then 1#32 else x) ∧ (loadSeed f).seed = none := by
  simp only [loadSeed, h, and_self]

/-- The step of a Face whose FACE_OP has all it needs for now. -/
theorem faceStep_on {die : Nat} {r r2 : FRun} {u : UStep} {s : State} (hfault : u.fault = none) (hheld : u.held = false) :
    faceStep die r (.on r2 u) s = .next (dropArrived u.owner
      (setFace die { faceOf u.st die with run := some { FRun.metAll u.outs r2 with fault := r2.fault } } u.st)) := by
  simp only [faceStep, hfault, hheld, Option.isSome_none, Bool.false_eq_true, if_false, Bool.not_false, if_true]

/-- The start of a staged FACE_OP on an idle Face, or beside the one before, which drains its last tile. -/
theorem exec_faceOpStart {die : Nat} {r : FRun} {rest : List FRun} {s : State} (hd : die < 8) (hup : dieUp s die = true)
    (hst : (faceOf s die).staged = r :: rest) (prior : Option FRun)
    (h : ((faceOf s die).run = none ∧ prior = (faceOf s die).prior) ∨
      ∃ p, (faceOf s die).run = some p ∧ prior = some p ∧ (faceOf s die).prior = none ∧ p.allFed = true ∧ p.waitsAck = true ∧
        p.fault = none ∧ fOverlap r.op.raw = true) :
    exec (.faceOpStart die) s = faceStep die { r with resumed := false }
      (readTables { r with resumed := false } (FRun.step die { r with resumed := false }
        (setFace die (takenArray (faceOf s die) prior r rest) s))) (setFace die (takenArray (faceOf s die) prior r rest) s) := by
  change execFaceOpStart die s = _
  rcases h with ⟨hrun, rfl⟩ | ⟨p, hrun, rfl, hprior, hfed, hack, hfault, hover⟩
  · simp only [execFaceOpStart, Nat.not_le.2 hd, hup, hrun, hst, decide_false, Bool.not_true, Bool.or_self, Bool.false_eq_true,
      if_false, takenArray]
  · simp only [execFaceOpStart, Nat.not_le.2 hd, hup, hrun, hst, hprior, hfed, hack, hfault, hover, decide_false, Bool.not_true,
      Bool.or_self, Bool.false_eq_true, if_false, takenArray, Option.isNone_none, Bool.and_self, if_true]

/-- Tables that are not used, or have been read, are not read again. -/
theorem readTables_of_read {r : FRun} {u : UStep} (hu : u.stopped = false) (hlut : fBFmt r.op.raw ≠ 11 ∨ r.lut.isSome = true)
    (hact : hasStep r.op.raw 4 = false ∨ r.act.isSome = true) : readTables r u = .on r u := by
  have h1 : ¬(fBFmt r.op.raw = 11 ∧ r.lut.isNone = true) := by
    rintro ⟨h, h'⟩
    rcases hlut with hlut | hlut
    · exact hlut h
    · simp [Option.isNone_iff_eq_none.1 h'] at hlut
  have h2 : (hasStep r.op.raw 4 && r.act.isNone) = false := by
    rcases hact with hact | hact
    · simp [hact]
    · cases hr : r.act <;> simp_all
  simp only [readTables, h1, if_false, fThen, hu, Bool.false_eq_true, h2]

theorem step_stopped (die : Nat) (r : FRun) (s : State) : (r.step die s).stopped = false := rfl

/-- The state in which a FACE_OP whose tables need no reading has taken the array. -/
def arrayTaken (die : Nat) (prior : Option FRun) (r : FRun) (rest : List FRun) (s : State) : State :=
  dropArrived r.owner (setFace die (takenArray (faceOf s die) prior r rest)
    (setFace die (takenArray (faceOf s die) prior r rest) s))

theorem exec_faceOpStart_read {die : Nat} {r : FRun} {rest : List FRun} {s : State} (hd : die < 8) (hup : dieUp s die = true)
    (hst : (faceOf s die).staged = r :: rest) (prior : Option FRun)
    (h : ((faceOf s die).run = none ∧ prior = (faceOf s die).prior) ∨
      ∃ p, (faceOf s die).run = some p ∧ prior = some p ∧ (faceOf s die).prior = none ∧ p.allFed = true ∧ p.waitsAck = true ∧
        p.fault = none ∧ fOverlap r.op.raw = true)
    (hlut : fBFmt r.op.raw ≠ 11 ∨ r.lut.isSome = true) (hact : hasStep r.op.raw 4 = false ∨ r.act.isSome = true) :
    exec (.faceOpStart die) s = .next (arrayTaken die prior r rest s) := by
  rw [exec_faceOpStart hd hup hst prior h,
    readTables_of_read (r := { r with resumed := false }) (step_stopped ..) hlut hact, faceStep_on rfl rfl]
  simp only [FRun.step, UStep.start, faceOf_setFace_self]
  rfl

theorem arrayTaken_spec (die : Nat) (prior : Option FRun) (r : FRun) (rest : List FRun) (s : State) :
    faceOf (arrayTaken die prior r rest s) die = takenArray (faceOf s die) prior r rest ∧
    (∀ d, d ≠ die → faceOf (arrayTaken die prior r rest s) d = faceOf s d) ∧ MemoryKept s (arrayTaken die prior r rest s) ∧
    arrayTaken die prior r rest s = { s with faces := (arrayTaken die prior r rest s).faces
                                             links := (arrayTaken die prior r rest s).links
                                             mem := (arrayTaken die prior r rest s).mem } := by
  refine ⟨faceOf_setFace_self .., fun d hd => ?_, rfl, rfl⟩
  have hface : faceOf (arrayTaken die prior r rest s) d = faceOf (setFace die (takenArray (faceOf s die) prior r rest)
      (setFace die (takenArray (faceOf s die) prior r rest) s)) d := rfl
  rw [hface, faceOf_setFace_of_ne _ _ hd, faceOf_setFace_of_ne _ _ hd]

theorem takenArray_keeps (f : Face) (prior : Option FRun) (r : FRun) (rest : List FRun) :
    (takenArray f prior r rest).saves = f.saves ∧
    (r.resumed = false → ∀ x, f.seed = some x → (takenArray f prior r rest).lfsr = (if x = 0#32 then 1#32 else x) ∧
      (takenArray f prior r rest).seed = none) ∧
    (r.resumed = true → (takenArray f prior r rest).lfsr = f.lfsr ∧ (takenArray f prior r rest).seed = f.seed) := by
  refine ⟨?_, fun hr x hx => ?_, fun hr => ?_⟩
  · simp only [takenArray]
    split
    · rfl
    · exact (loadSeed_keeps f).2
  · simp only [takenArray, hr, Bool.false_eq_true, if_false]
    exact loadSeed_of_seed hx
  · simp only [takenArray, hr, if_true, and_self]

/-- On an idle Face the FACE_OP before stays what it is. -/
theorem takenArray_prior (f : Face) (r : FRun) (rest : List FRun) : takenArray f f.prior r rest =
    { (if r.resumed then f else loadSeed f) with staged := rest, run := some { r with resumed := false } } := by
  rw [takenArray]
  split
  · rfl
  · rw [← (loadSeed_keeps f).1]

/-- The Face of a step that has all it needs for now. -/
theorem dropArrived_setFace_spec (o : TOwner) (die : Nat) (f : Face) (u : State) :
    faceOf (dropArrived o (setFace die f u)) die = f ∧ MemoryKept u (dropArrived o (setFace die f u)) :=
  ⟨faceOf_setFace_self die f u, rfl⟩

/-- Settles O9. -/
theorem faceOpStartTakesTheArray : Obligations.FaceOpStartTakesTheArray := by
  unfold Obligations.FaceOpStartTakesTheArray
  refine ⟨fun die r rest s hd hup hrun hst hlut hact => ?_,
    fun die p r rest s hd hup hrun hprior hfed hack hfault hst hover hlut hact => ?_,
    fun die r r2 rest u s hd hup hrun hst hread hfault hheld => ?_⟩
  · obtain ⟨hface, hothers, hmem, heq⟩ := arrayTaken_spec die (faceOf s die).prior r rest s
    obtain ⟨hsaves, hseed, hresumed⟩ := takenArray_keeps (faceOf s die) (faceOf s die).prior r rest
    refine ⟨_, exec_faceOpStart_read hd hup hst _ (.inl ⟨hrun, rfl⟩) hlut hact, ?_, ?_, ?_, ?_, ?_, ?_, hothers, hmem, heq⟩ <;>
      rw [hface]
    · rfl
    · rfl
    · exact hsaves
    · rfl
    · exact hseed
    · exact hresumed
  · obtain ⟨hface, hothers, hmem, heq⟩ := arrayTaken_spec die (some p) r rest s
    refine ⟨_, exec_faceOpStart_read hd hup hst _ (.inr ⟨p, hrun, rfl, hprior, hfed, hack, hfault, hover⟩) hlut hact,
      ?_, ?_, ?_, hothers, hmem, heq⟩ <;> rw [hface] <;> rfl
  · obtain ⟨hface, hmem⟩ := dropArrived_setFace_spec u.owner die
      { faceOf u.st die with run := some { FRun.metAll u.outs r2 with fault := r2.fault } } u.st
    refine ⟨_, ?_, congrArg Face.run hface, hmem⟩
    rw [exec_faceOpStart hd hup hst _ (.inl ⟨hrun, rfl⟩), takenArray_prior, hread, faceStep_on hfault hheld]

/-! #### TILE_COMMIT -/

/-- A Face whose writes are acknowledged. -/
def tileAcked (s : State) (r : FRun) : Bool := r.waitsAck && decide (txnsOfRun s r = 0)

theorem prior_filter_none {s : State} {f : Face} (h : ∀ p, f.prior = some p → p.waitsAck = false ∨ txnsOfRun s p ≠ 0) :
    f.prior.filter (tileAcked s) = none := by
  rw [Option.filter_eq_none_iff]
  intro p hp
  rcases h p hp with h | h <;> simp [tileAcked, h]

theorem exec_tileCommit_run {die : Nat} {order : List Nat} {r : FRun} {s : State} (hd : die < 8) (hup : dieUp s die = true)
    (hrun : (faceOf s die).run = some r) (hprior : ∀ p, (faceOf s die).prior = some p → p.waitsAck = false ∨ txnsOfRun s p ≠ 0)
    (hack : r.waitsAck = true) (htxns : txnsOfRun s r = 0) :
    exec (.tileCommit die order) s = .next (setFace die { faceOf s die with run := some r.commitTile } s) := by
  have hnone := prior_filter_none hprior
  unfold tileAcked at hnone
  change execTileCommit die order s = _
  simp only [execTileCommit, Nat.not_le.2 hd, hup, hnone, hrun, hack, htxns, decide_false, decide_true, Bool.not_true, Bool.or_self,
    Bool.and_self, Bool.false_eq_true, if_false, if_true]

theorem exec_tileCommit_prior {die : Nat} {order : List Nat} {p : FRun} {s : State} (hd : die < 8) (hup : dieUp s die = true)
    (hprior : (faceOf s die).prior = some p) (hack : p.waitsAck = true) (htxns : txnsOfRun s p = 0) :
    exec (.tileCommit die order) s = .next (setFace die { faceOf s die with prior := some p.commitTile } s) := by
  change execTileCommit die order s = _
  simp only [execTileCommit, Nat.not_le.2 hd, hup, hprior, Option.filter_some, hack, htxns, decide_false, decide_true,
    Bool.not_true, Bool.or_self, Bool.and_self, Bool.false_eq_true, if_false, if_true]

theorem exec_tileCommit_computes {die : Nat} {order : List Nat} {r : FRun} {s : State} (hd : die < 8) (hup : dieUp s die = true)
    (hrun : (faceOf s die).run = some r) (hprior : ∀ p, (faceOf s die).prior = some p → p.waitsAck = false ∨ txnsOfRun s p ≠ 0)
    (hack : r.waitsAck = false ∨ txnsOfRun s r ≠ 0) (hending : r.ending = false) (hfault : r.fault = none)
    (hfed : r.allFed = false) (hroom : r.fed = false ∨ (r.waitsAck = false ∧ (faceOf s die).prior = none)) :
    exec (.tileCommit die order) s =
      faceStep die r (doTile die order (faceOf s die).prior.isNone r (FRun.step die r s)) s := by
  have hnone := prior_filter_none hprior
  have hno : tileAcked s r = false := by
    rcases hack with h | h <;> simp [tileAcked, h]
  have hfree : (r.fed && (r.waitsAck || (faceOf s die).prior.isSome)) = false := by
    rcases hroom with h | ⟨h, h'⟩
    · simp [h]
    · simp [h, h']
  unfold tileAcked at hnone hno
  change execTileCommit die order s = _
  simp only [execTileCommit, Nat.not_le.2 hd, hup, hnone, hrun, hno, hending, hfault, hfed, hfree, decide_false, Bool.not_true,
    Bool.or_self, Option.isSome_none, Bool.false_eq_true, if_false]

/-- A committed tile frees its bank, and the cursor goes on. -/
theorem commitTile_spec (r : FRun) :
    r.commitTile.drain = none ∧ r.commitTile.acc = r.acc ∧ r.commitTile.slice = r.slice ∧ r.commitTile.outs = r.outs ∧
    (r.tile + 1 < fTm r.op.raw * fTn r.op.raw → r.commitTile.tile = r.tile + 1 ∧ r.commitTile.batch = r.batch) ∧
    (fTm r.op.raw * fTn r.op.raw ≤ r.tile + 1 → r.commitTile.tile = 0 ∧ r.commitTile.batch = r.batch + 1) := by
  refine ⟨rfl, rfl, rfl, rfl, fun h => ?_, fun h => ?_⟩
  · simp only [FRun.commitTile, FRun.next, ge_iff_le, Nat.not_le.2 h, if_false, and_self]
  · simp only [FRun.commitTile, FRun.next, ge_iff_le, h, if_true, and_self]

/-- Settles O10. -/
theorem tileCommitMovesTheCursor : Obligations.TileCommitMovesTheCursor := by
  unfold Obligations.TileCommitMovesTheCursor
  refine ⟨fun die order r s hd hup hrun hprior hack htxns => ?_, fun die order p s hd hup hprior hack htxns => ?_,
    fun die order r r2 u s hd hup hrun hprior hack hending hfault hfed hroom hdo hnofault hheld => ?_⟩
  · obtain ⟨hdrain, hacc, hslice, houts, hnext, hlast⟩ := commitTile_spec r
    refine ⟨_, exec_tileCommit_run hd hup hrun hprior hack htxns, ⟨r.commitTile, ?_, hdrain, hacc, hslice, houts, hnext, hlast⟩, ?_,
      fun d hd' => faceOf_setFace_of_ne _ _ hd', rfl⟩
    · rw [faceOf_setFace_self]
    · rw [faceOf_setFace_self]
  · obtain ⟨hdrain, -, -, houts, hnext, hlast⟩ := commitTile_spec p
    refine ⟨_, exec_tileCommit_prior hd hup hprior hack htxns, ?_, ⟨p.commitTile, ?_, hdrain, houts, hnext, hlast⟩,
      fun d hd' => faceOf_setFace_of_ne _ _ hd', rfl⟩
    · rw [faceOf_setFace_self]
    · rw [faceOf_setFace_self]
  · obtain ⟨hface, hmem⟩ := dropArrived_setFace_spec u.owner die
      { faceOf u.st die with run := some { FRun.metAll u.outs r2 with fault := r2.fault } } u.st
    refine ⟨_, ?_, congrArg Face.run hface, hmem⟩
    rw [exec_tileCommit_computes hd hup hrun hprior hack hending hfault hfed hroom, hdo, faceStep_on hnofault hheld]

end Sys2Proof.Machine

/-! ### FACE_OPs: saved and completed (O11) -/

namespace Sys2Proof.Machine

/-! #### The fault queue -/

/-- s without what memory traffic and the fault queue touch. -/
def offFaultq (s : State) : State := { still s with faultq := State.reset.faultq }

theorem offFaultq_of_still {s t : State} (h : still t = still s) : offFaultq t = offFaultq s :=
  congrArg (fun x : State => { x with faultq := State.reset.faultq }) h

theorem offFaultq_setFaultq (q : FaultQ) (s : State) : offFaultq { s with faultq := q } = offFaultq s := rfl

section
variable {s t : State} (h : offFaultq t = offFaultq s)
include h

theorem jobs_of_offFaultq : t.jobs = s.jobs := (congrArg State.jobs h :)
theorem queues_of_offFaultq : t.queues = s.queues := (congrArg State.queues h :)
theorem faces_of_offFaultq : t.faces = s.faces := (congrArg State.faces h :)
theorem grp_of_offFaultq : t.grp = s.grp := (congrArg State.grp h :)
theorem engines_of_offFaultq : t.engines = s.engines := (congrArg State.engines h :)
theorem hauls_of_offFaultq : t.hauls = s.hauls := (congrArg State.hauls h :)
theorem brambles_of_offFaultq : t.brambles = s.brambles := (congrArg State.brambles h :)
theorem press_of_offFaultq : t.press = s.press := (congrArg State.press h :)
theorem weigh_of_offFaultq : t.weigh = s.weigh := (congrArg State.weigh h :)

end

theorem storeFault_offFaultq (parked : Bool) (r : FaultRec) (s : State) : offFaultq (storeFault parked r s) = offFaultq s := by
  rw [storeFault]
  refine (offFaultq_of_still (bump_still ..)).trans ((offFaultq_setFaultq ..).trans ?_)
  split
  · rfl
  · exact offFaultq_of_still (fwWrite_still ..)

theorem addFault_offFaultq (r : FaultRec) (s : State) : offFaultq (addFault r s) = offFaultq s := by
  rw [addFault]
  split
  · exact (offFaultq_of_still (bump_still ..)).trans (offFaultq_setFaultq ..)
  · exact storeFault_offFaultq ..

/-! #### Save slots -/

theorem getD_mem_of_lt {α : Type} {l : List α} {i : Nat} (d : α) (h : i < l.length) : l.getD i d ∈ l := by
  rw [List.getD_eq_getElem?_getD, List.getElem?_eq_getElem h, Option.getD_some]
  exact List.getElem_mem h

/-- With fewer slots used than there are, one that is free is picked. -/
theorem pickSlot_of_room {n : Nat} {used : List Nat} (s : State) (h : used.length < n) :
    ∃ i, pickSlot n used s = (some i, (takeFree s).2) ∧ i < n ∧ i ∉ used := by
  obtain ⟨x, hx⟩ : ∃ x, x ∈ (List.range n).filter fun i => !used.contains i := by
    refine Classical.byContradiction fun hno => ?_
    have hsub : List.range n ⊆ used := fun i hi => Classical.byContradiction fun hu =>
      hno ⟨i, List.mem_filter.2 ⟨hi, by simpa using hu⟩⟩
    have := List.Nodup.length_le_of_subset List.nodup_range hsub
    rw [List.length_range] at this
    omega
  have hpick : ∀ l : List Nat, l = (List.range n).filter (fun i => !used.contains i) → l ≠ [] →
      ∃ i, pickSlot n used s = (some i, (takeFree s).2) ∧ i ∈ l := fun l hl hne => by
    cases l with
    | nil => exact absurd rfl hne
    | cons y ys =>
      refine ⟨_, by simp only [pickSlot, ← hl]; rfl, ?_⟩
      exact getD_mem_of_lt _ (Nat.mod_lt _ (List.length_pos_iff.2 hne))
  obtain ⟨i, hi, hmem⟩ := hpick _ rfl (List.ne_nil_of_mem hx)
  obtain ⟨hrange, hfree⟩ := List.mem_filter.1 hmem
  exact ⟨i, hi, List.mem_range.1 hrange, by simpa using hfree⟩

theorem Tab.find_eq_none {α : Type} (t : Tab α) {k : Nat} (h : k ∉ t.cells.map Prod.fst) : t.find k = none := by
  obtain ⟨l⟩ := t
  change Tab.findIn l k = none
  induction l with
  | nil => rfl
  | cons c l ih =>
    obtain ⟨j, v⟩ := c
    simp only [List.map_cons, List.mem_cons, not_or] at h
    rw [Tab.findIn, if_neg (Ne.symm h.1)]
    exact ih h.2

/-! #### FACE_SWITCH_OUT -/

/-- The Face from which the running FACE_OP has been saved to a slot. -/
def savedFace (f : Face) (slot : Nat) (r : FRun) : Face :=
  { f with run := none, stalled := false, saves := f.saves.put slot r.toSave }

theorem exec_faceSwitchOut {die : Nat} {r : FRun} {i : FaultInfo} {s : State} (hd : die < 8) (hup : dieUp s die = true)
    (hrun : (faceOf s die).run = some r) (hfault : r.fault = some i) (hroom : (faceOf s die).saves.cells.length < 16)
    (hlist : faultListFull 1 s = false) : ∃ slot, slot < 16 ∧ (faceOf s die).saves.find slot = none ∧
      exec (.faceSwitchOut die) s = .next (addFault (taskRecord 2 die slot r.op.key r.cursor i)
        (setFace die (savedFace (faceOf s die) slot r) (takeFree s).2)) := by
  obtain ⟨slot, hpick, hlt, hfree⟩ := pickSlot_of_room (n := 16) (used := (faceOf s die).saves.cells.map Prod.fst) s
    (by rwa [List.length_map])
  refine ⟨slot, hlt, Tab.find_eq_none _ hfree, ?_⟩
  change execFaceSwitchOut die s = _
  simp only [execFaceSwitchOut, Nat.not_le.2 hd, hup, hrun, hfault, switchOutFace, saveFace, Nat.not_le.2 hroom, hlist, hpick,
    decide_false, Bool.not_true, Bool.or_self, Bool.false_eq_true, if_false, Option.map_some]
  rfl

theorem exec_faceSwitchOut_held {die : Nat} {r : FRun} {i : FaultInfo} {s : State} (hd : die < 8) (hup : dieUp s die = true)
    (hrun : (faceOf s die).run = some r) (hfault : r.fault = some i)
    (hfull : 16 ≤ (faceOf s die).saves.cells.length ∨ faultListFull 1 s = true) (hstall : (faceOf s die).stalled = false) :
    exec (.faceSwitchOut die) s =
      .next (bump (faceHold die s) 1 (setFace die { faceOf s die with stalled := true } s)) := by
  have hno : (decide ((faceOf s die).saves.cells.length ≥ 16) || faultListFull 1 s) = true := by
    rcases hfull with h | h <;> simp [h]
  change execFaceSwitchOut die s = _
  simp only [execFaceSwitchOut, Nat.not_le.2 hd, hup, hrun, hfault, switchOutFace, saveFace, hno, hstall, decide_false,
    Bool.not_true, Bool.or_self, Bool.false_eq_true, if_false, if_true]

/-! #### FACE_OP_COMPLETE -/

/-- Outcomes that a command meets, in addition to those it has met. -/
def metToo (outs : List Status) (o : Status) : List Status := if outs.contains o then outs else outs ++ [o]

theorem mem_foldl_metToo (os outs : List Status) (o : Status) : o ∈ os.foldl metToo outs ↔ o ∈ outs ++ os := by
  induction os generalizing outs with
  | nil => simp
  | cons a os ih =>
    rw [List.foldl_cons, ih, metToo]
    split
    next h =>
      have ha : a ∈ outs := by simpa using h
      simp only [List.mem_append, List.mem_cons]
      constructor
      · rintro (h | h)
        · exact .inl h
        · exact .inr (.inr h)
      · rintro (h | rfl | h)
        · exact .inl h
        · exact .inl ha
        · exact .inr h
    · simp only [List.mem_append, List.mem_cons, List.mem_nil_iff, or_false, or_assoc]

/-- The status of a command is that of the outcomes it met, in whatever order. -/
theorem statusOf_congr {a b : List Status} (h : ∀ o, o ∈ a ↔ o ∈ b) : statusOf a = statusOf b := by
  have hc : ∀ o, a.contains o = b.contains o := fun o => by
    rw [Bool.eq_iff_iff, List.contains_iff_mem, List.contains_iff_mem, h]
  simp only [statusOf, hc]

theorem find_addOut {key : Nat} {o : Status} {j : Job} {s : State} (h : s.jobs.find key = some j) :
    (addOut key o s).jobs.find key = some { j with outs := metToo j.outs o } := by
  simp only [addOut, h, metToo]
  split
  · exact h
  · exact Tab.find_put_self ..

theorem find_foldl_addOut (key : Nat) (os : List Status) {j : Job} {s : State} (h : s.jobs.find key = some j) :
    (os.foldl (fun s o => addOut key o s) s).jobs.find key = some { j with outs := os.foldl metToo j.outs } := by
  induction os generalizing s j with
  | nil => exact h
  | cons o os ih => exact ih (find_addOut h)

/-- A command completes with the first of the outcomes it met. -/
theorem finishJob_completed {key : Nat} {j j' : Job} {s u : State} (hj : u.jobs.find key = some j') (hc : j'.command = j.command)
    (hq : queueOf u (keyQueue key) = queueOf s (keyQueue key)) :
    Completed key (statusOf j'.outs) j'.detail j s (finishJob key u) := by
  have hdone := finishWith_completed (o := statusOf j'.outs) (s := s) hj hc hq
  simp only [finishJob, hj]
  rw [signalEvent]
  split
  · exact hdone
  · exact hdone

theorem cursor_lt (r : FRun) : r.cursor < 2 ^ 64 := by
  unfold FRun.cursor
  omega

/-- The state in which a FACE_OP's command knows its outcomes and its cursor. -/
def faceReported (die : Nat) (r : FRun) (f : Face) (s : State) : State :=
  setDetail r.op.key r.cursor (r.outs.foldl (fun s o => addOut r.op.key o s) (bump (K.faceOpsDone + die) 1 (setFace die f s)))

theorem foldl_addOut_queues (key : Nat) (os : List Status) (s : State) :
    (os.foldl (fun s o => addOut key o s) s).queues = s.queues :=
  foldl_frame State.queues _ (fun _ _ => addOut_queues ..) _ s

theorem command_withOuts (j : Job) (os : List Status) (d : Nat) : Job.command { j with outs := os, detail := d } = j.command := rfl

/-- A queue's FACE_OP at its end leaves its Face, and its command completes. -/
theorem faceReported_spec (die : Nat) (r : FRun) (f : Face) {j : Job} {s : State} (hj : s.jobs.find r.op.key = some j) :
    (finishJob r.op.key (faceReported die r f s)).faces = (setFace die f s).faces ∧
    Completed r.op.key (statusOf (j.outs ++ r.outs)) r.cursor j s (finishJob r.op.key (faceReported die r f s)) ∧
    MemoryKept s (finishJob r.op.key (faceReported die r f s)) := by
  have hoff : offJobs (finishJob r.op.key (faceReported die r f s)) = offJobs (setFace die f s) :=
    (finishJob_offJobs ..).trans ((setDetail_offJobs ..).trans
      ((foldl_offJobs (fun _ _ => addOut_offJobs ..) _ _).trans (bump_offJobs ..)))
  have hbump : (bump (K.faceOpsDone + die) 1 (setFace die f s)).jobs.find r.op.key = some j := by
    rw [bump_jobs]
    exact hj
  have hfind : (faceReported die r f s).jobs.find r.op.key =
      some { j with outs := r.outs.foldl metToo j.outs, detail := r.cursor } := by
    rw [faceReported, find_setDetail (find_foldl_addOut _ _ hbump), Nat.mod_eq_of_lt (cursor_lt r)]
  have hqueues : (faceReported die r f s).queues = s.queues := by
    rw [faceReported, setDetail_queues, foldl_addOut_queues, bump_queues]
    rfl
  have hdone := finishJob_completed hfind (command_withOuts ..) (queueOf_congr hqueues _)
  rw [statusOf_congr (mem_foldl_metToo r.outs j.outs)] at hdone
  have hmem := memoryKept_of_offJobs hoff
  exact ⟨faces_of_offJobs hoff, hdone, hmem⟩

/-- A FACE_OP that has committed its last tile, or is ending. -/
theorem exec_faceOpComplete {die : Nat} {r : FRun} {s : State} (hd : die < 8) (hup : dieUp s die = true) (hdrain : r.drain = none)
    (hfault : r.fault = none) (hend : r.ending = true ∨ r.allDone = true) (howner : r.op.owner = .queue) (f : Face)
    (h : ((faceOf s die).prior = some r ∧ f = { faceOf s die with prior := none, lfsrShown := (faceOf s die).lfsr }) ∨
      ((faceOf s die).prior = none ∧ (faceOf s die).run = some r ∧
        f = { faceOf s die with run := none, lfsrShown := (faceOf s die).lfsr })) :
    exec (.faceOpComplete die) s = .next (finishJob r.op.key (faceReported die r f s)) := by
  have hover : (r.ending || r.allDone) = true := by
    rcases hend with h | h <;> simp [h]
  change execFaceOpComplete die s = _
  rcases h with ⟨hprior, rfl⟩ | ⟨hprior, hrun, rfl⟩
  · simp only [execFaceOpComplete, Nat.not_le.2 hd, hup, hprior, hdrain, hfault, hover, faceDone, howner, decide_false, Bool.not_true,
      Bool.or_self, Bool.false_eq_true, if_false, Option.isNone_none, Bool.and_self, if_true]
    rfl
  · simp only [execFaceOpComplete, Nat.not_le.2 hd, hup, hprior, hrun, hdrain, hfault, hover, faceDone, howner, decide_false,
      Bool.not_true, Bool.or_self, Bool.false_eq_true, if_false, Option.isNone_none, Bool.and_self, if_true]
    rfl

/-- Settles O11. -/
theorem faceOpIsSavedOrCompletes : Obligations.FaceOpIsSavedOrCompletes := by
  unfold Obligations.FaceOpIsSavedOrCompletes
  refine ⟨fun die r i s hd hup hrun hfault hroom hlist => ?_, fun die r i s hd hup hrun hfault hfull hstall => ?_,
    fun die r j s hd hup hrun hprior hdrain hfault hend howner hj => ?_,
    fun die p j s hd hup hprior hdrain hfault hend howner hj => ?_⟩
  · obtain ⟨slot, hlt, hfree, hexec⟩ := exec_faceSwitchOut hd hup hrun hfault hroom hlist
    have hoff := addFault_offFaultq (taskRecord 2 die slot r.op.key r.cursor i)
      (setFace die (savedFace (faceOf s die) slot r) (takeFree s).2)
    have hjobs := jobs_of_offFaultq hoff
    have hqueues := queues_of_offFaultq hoff
    have hface := (faceOf_congr (faces_of_offFaultq hoff) die).trans (faceOf_setFace_self ..)
    refine ⟨_, hexec, ?_, ?_, ?_, ?_, ⟨slot, r.toSave, hlt, hfree, ?_, rfl, rfl, rfl, rfl, ?_, rfl, rfl, rfl⟩,
      hjobs, hqueues⟩
    · rw [hface]
      rfl
    · rw [hface]
      rfl
    · rw [hface]
      rfl
    · rw [hface]
      rfl
    · rw [hface]
      exact Tab.find_put_self ..
    · simp only [FRun.toSave, Option.map_map]
      rfl
  · have hrec := bump_onlyRecords (faceHold die s) 1 (setFace die { faceOf s die with stalled := true } s)
    refine ⟨_, exec_faceSwitchOut_held hd hup hrun hfault hfull hstall, ?_, ?_⟩
    · rw [faceOf_congr hrec.faces, faceOf_setFace_self]
    · have hfaces : { s with faces := (bump (faceHold die s) 1 (setFace die { faceOf s die with stalled := true } s)).faces } =
          setFace die { faceOf s die with stalled := true } s := by
        rw [hrec.faces]
        rfl
      rwa [hfaces]
  · obtain ⟨hfaces, hdone, hmem⟩ := faceReported_spec die r
      { faceOf s die with run := none, lfsrShown := (faceOf s die).lfsr } hj
    refine ⟨_, exec_faceOpComplete hd hup hdrain hfault hend howner _ (.inr ⟨hprior, hrun, rfl⟩), ?_, ?_, hdone, hmem⟩
    · rw [faceOf_congr hfaces, faceOf_setFace_self]
    · rw [faceOf_congr hfaces, faceOf_setFace_self]
  · obtain ⟨hfaces, hdone, hmem⟩ := faceReported_spec die p
      { faceOf s die with prior := none, lfsrShown := (faceOf s die).lfsr } hj
    refine ⟨_, exec_faceOpComplete hd hup hdrain hfault hend howner _ (.inl ⟨hprior, rfl⟩), ?_, ?_, hdone, hmem⟩
    · rw [faceOf_congr hfaces, faceOf_setFace_self]
    · rw [faceOf_congr hfaces, faceOf_setFace_self]

end Sys2Proof.Machine

/-! ### Routes and combines (O12, O13) -/

namespace Sys2Proof.Machine

/-! #### Brambles -/

theorem brambleOf_setBramble_self (d : Nat) (b : Bramble) (s : State) : brambleOf (setBramble d b s) d = b := Tab.get_put_self ..

theorem brambleOf_congr {s t : State} (h : t.brambles = s.brambles) (d : Nat) : brambleOf t d = brambleOf s d :=
  congrArg (fun b : Tab Bramble => b.get Bramble.idle d) h

theorem began_brambles (key : Nat) (s : State) : (began key s).brambles = s.brambles := brambles_of_offJobs (began_offJobs ..)

/-- What a route meets goes to its outcomes alone. -/
theorem routeMet_eq (os : List Status) (r : Route) :
    os.foldl (fun r o => Route.met o r) r = { r with outs := (os.foldl (fun r o => Route.met o r) r).outs } :=
  List.foldlRecOn os (motive := fun x : Route => x = { r with outs := x.outs }) _ rfl fun x h o _ => by
    unfold Route.met
    split
    · exact h
    · rw [h]

/-- Apart from DONE, the outcomes of a route are those it had and those it meets. -/
theorem mem_routeMet {o : Status} (ho : o ≠ .done) (os : List Status) (r : Route) :
    o ∈ (os.foldl (fun r o => Route.met o r) r).outs ↔ o ∈ r.outs ++ os := by
  induction os generalizing r with
  | nil => simp
  | cons a os ih =>
    have hmet : o ∈ (Route.met a r).outs ↔ o ∈ r.outs ∨ o = a := by
      rw [Route.met]
      split
      next h =>
        refine ⟨.inl, fun h' => h'.elim id ?_⟩
        rintro rfl
        exact h.elim (fun h => absurd h ho) (by simp)
      · simp
    rw [List.foldl_cons, ih, List.mem_append, hmet]
    simp [or_assoc]

theorem find?_eq_of_mem {α : Type} {p q : α → Bool} {l : List α} (h : ∀ x, x ∈ l → p x = q x) : l.find? p = l.find? q := by
  induction l with
  | nil => rfl
  | cons x l ih => rw [List.find?_cons, List.find?_cons, h x (List.mem_cons_self ..), ih fun y hy => h y (List.mem_cons_of_mem _ hy)]

/-- The status of a command is that of the outcomes it met other than DONE. -/
theorem statusOf_congr_ne_done {a b : List Status} (h : ∀ o, o ≠ .done → (o ∈ a ↔ o ∈ b)) : statusOf a = statusOf b := by
  have hc : ∀ o, o ≠ .done → a.contains o = b.contains o := fun o ho => by
    rw [Bool.eq_iff_iff, List.contains_iff_mem, List.contains_iff_mem, h o ho]
  have hfind : statusOrder.find? (fun o => a.contains o) = statusOrder.find? (fun o => b.contains o) := by
    refine find?_eq_of_mem fun o ho => hc o ?_
    rintro rfl
    simp [statusOrder] at ho
  simp only [statusOf, hc .abortLate (by decide), hfind]

/-! #### The step of a route -/

/-- The state in which a route stands on its Bramble, or has left it free because everything of it is offered. -/
def routePlaced (die : Nat) (r : Route) (s : State) : State :=
  settleRoute die (setBramble die { brambleOf s die with run := some r } s)

theorem settleRoute_keeps (die : Nat) (s : State) : settleRoute die s = { s with brambles := (settleRoute die s).brambles } := by
  unfold settleRoute
  dsimp only
  split
  · rfl
  · split <;> rfl

theorem routePlaced_keeps (die : Nat) (r : Route) (s : State) :
    routePlaced die r s = { s with brambles := (routePlaced die r s).brambles } := settleRoute_keeps ..

/-- A route that has been put on its Bramble runs there, or is open. -/
theorem brambleOf_settleRoute {die : Nat} {r : Route} {s : State} (h : (brambleOf s die).run = some r) :
    (brambleOf (settleRoute die s) die).run = some r ∨ r ∈ (brambleOf (settleRoute die s) die).open_ := by
  simp only [settleRoute, h]
  split
  · rw [brambleOf_setBramble_self]
    exact .inr (by simp)
  · exact .inl h

theorem brambleOf_routePlaced (die : Nat) (r : Route) (s : State) :
    (brambleOf (routePlaced die r s) die).run = some r ∨ r ∈ (brambleOf (routePlaced die r s) die).open_ :=
  brambleOf_settleRoute (by rw [brambleOf_setBramble_self])

/-- The state after a step of a route that does not wait. -/
def routeStepped (die : Nat) (r : Route) (u : UStep) : State :=
  dropArrived u.owner (routePlaced die (u.outs.foldl (fun r o => Route.met o r) r) u.st)

theorem routeStep_on {die : Nat} {r r2 : Route} {u : UStep} {s : State} (hheld : u.held = false) :
    routeStep die r (.on r2 u) s = .next (routeStepped die r2 u) := by
  simp only [routeStep, hheld, Bool.not_false, if_true]
  rfl

theorem routeStepped_spec (die : Nat) (r : Route) (u : UStep) :
    ∃ os, ((brambleOf (routeStepped die r u) die).run = some { r with outs := os } ∨
        { r with outs := os } ∈ (brambleOf (routeStepped die r u) die).open_) ∧
      MemoryKept u.st (routeStepped die r u) ∧ (routeStepped die r u).weigh = u.st.weigh := by
  have hplaced := brambleOf_routePlaced die (u.outs.foldl (fun r o => Route.met o r) r) u.st
  have hkeeps := routePlaced_keeps die (u.outs.foldl (fun r o => Route.met o r) r) u.st
  have hmem := (congrArg State.mem hkeeps :)
  have hweigh := (congrArg State.weigh hkeeps :)
  refine ⟨(u.outs.foldl (fun r o => Route.met o r) r).outs, ?_, ?_, hweigh⟩
  · rw [← routeMet_eq]
    exact hplaced
  · have hkept : MemoryKept (routePlaced die (u.outs.foldl (fun r o => Route.met o r) r) u.st) (routeStepped die r u) :=
      memoryKept_of_offJobs (dropArrived_offJobs ..)
    rwa [MemoryKept, hmem] at hkept

/-! #### Commands on their way to a Bramble -/

/-- The state in which a command waits behind the others of its Bramble. -/
def brambleWaits (die : Nat) (r : Route) (s : State) : State :=
  setBramble die { brambleOf s die with waiting := (brambleOf s die).waiting ++ [r] } s

theorem enterBramble_waits {die : Nat} {r : Route} {s : State}
    (hbusy : (brambleOf s die).run.isSome = true ∨ (brambleOf s die).waiting ≠ []) (hroom : (brambleOf s die).waiting.length < 4) :
    enterBramble die r s = some (false, brambleWaits die r s) := by
  have hno : ¬((brambleOf s die).run.isNone = true ∧ (brambleOf s die).waiting = []) := by
    rintro ⟨h1, h2⟩
    rcases hbusy with h | h
    · rw [Option.isNone_iff_eq_none.1 h1] at h
      cases h
    · exact h h2
  simp only [enterBramble, hno, if_false, hroom, if_true]
  rfl

theorem enterBramble_idle {die : Nat} {r : Route} {s : State} (hrun : (brambleOf s die).run = none)
    (hwait : (brambleOf s die).waiting = []) :
    enterBramble die r s = some (true, setBramble die { brambleOf s die with run := some r } s) := by
  simp only [enterBramble, hrun, hwait, Option.isNone_none, and_self, if_true]

theorem brambleOf_began (key die : Nat) (s : State) : brambleOf (began key s) die = brambleOf s die :=
  brambleOf_congr (began_brambles ..) _

theorem setBramble_began (die : Nat) (b : Bramble) (key : Nat) (s : State) : setBramble die b (began key s) =
    { s with brambles := (setBramble die b (began key s)).brambles, jobs := (setBramble die b (began key s)).jobs
             links := (setBramble die b (began key s)).links, mem := (setBramble die b (began key s)).mem } :=
  congrArg (fun t : State => { t with brambles := (began key s).brambles.put die b }) (began_eq key s)

/-- A command that waits behind its Bramble. -/
theorem brambleWaits_began_spec (die : Nat) (r : Route) (key : Nat) (s : State) :
    (brambleOf (brambleWaits die r (began key s)) die).waiting = (brambleOf s die).waiting ++ [r] ∧
    (brambleOf (brambleWaits die r (began key s)) die).run = (brambleOf s die).run ∧
    MemoryKept s (brambleWaits die r (began key s)) ∧
    brambleWaits die r (began key s) = { s with brambles := (brambleWaits die r (began key s)).brambles
                                                jobs := (brambleWaits die r (began key s)).jobs
                                                links := (brambleWaits die r (began key s)).links
                                                mem := (brambleWaits die r (began key s)).mem } := by
  refine ⟨?_, ?_, (memoryKept_of_offJobs (began_offJobs key s) :), setBramble_began ..⟩ <;>
    rw [brambleWaits, brambleOf_setBramble_self, brambleOf_began]

/-- A refused route or combine completes with its status, the Brambles untouched. -/
theorem refuseBramble_completed {q seq kind : Nat} {j : Job} {s u : State} (o : Status) (h : handed s q seq kind = some j)
    (hu : u = s ∨ ∃ k, u = bump k 1 s) :
    Completed (jobKey q seq) o j.detail j s (refuseJob (jobKey q seq) o u) ∧
    MemoryKept s (refuseJob (jobKey q seq) o u) ∧ (refuseJob (jobKey q seq) o u).brambles = s.brambles := by
  have hoff : offJobs u = offJobs s := by
    rcases hu with rfl | ⟨k, rfl⟩
    · rfl
    · exact bump_offJobs ..
  have hjobs : u.jobs = s.jobs := by
    rcases hu with rfl | ⟨k, rfl⟩
    · rfl
    · exact bump_jobs ..
  have hqueues : u.queues = s.queues := by
    rcases hu with rfl | ⟨k, rfl⟩
    · rfl
    · exact bump_queues ..
  have hall : offJobs (refuseJob (jobKey q seq) o u) = offJobs s := (finishWith_offJobs ..).trans hoff
  refine ⟨finishWith_completed ?_ rfl (queueOf_congr hqueues _), memoryKept_of_offJobs hall, brambles_of_offJobs hall⟩
  rw [hjobs]
  exact (find_of_handed h).1

/-! #### BRAMBLE_ROUTE -/

theorem exec_brambleRoute_waits {q seq : Nat} {j : Job} {s : State} (hl : leaveWaiting (jobKey q seq) s = none)
    (ho : onBramble (jobKey q seq) s = none) (hh : handed s q seq 0x06 = some j) (hd : j.hasDesc)
    (hpkg : ¬(s.pkg = .restricted ∧ rIssue j.raw = true)) (hc : routeCheck j.raw = none)
    (hbusy : (brambleOf s (rSel j.raw)).run.isSome = true ∨ (brambleOf s (rSel j.raw)).waiting ≠ [])
    (hroom : (brambleOf s (rSel j.raw)).waiting.length < 4) : exec (.brambleRoute q seq) s =
      .next (brambleWaits (rSel j.raw) (Route.start (jobKey q seq) j.ctx j.raw false) (began (jobKey q seq) s)) := by
  have henter := enterBramble_waits (die := rSel j.raw) (r := Route.start (jobKey q seq) j.ctx j.raw false)
    (s := began (jobKey q seq) s) (by rwa [brambleOf_began]) (by rwa [brambleOf_began])
  unfold began at henter ⊢
  change execBrambleRoute q seq s = _
  simp only [execBrambleRoute, hl, ho, hh, stageDesc_of_hasDesc hd, hpkg, hc, uClose_start, if_false, henter]

theorem exec_brambleRoute_refused {q seq : Nat} {j : Job} {o : Status} {s : State} (hl : leaveWaiting (jobKey q seq) s = none)
    (ho : onBramble (jobKey q seq) s = none) (hh : handed s q seq 0x06 = some j) (hd : j.hasDesc)
    (hc : (if s.pkg = .restricted ∧ rIssue j.raw = true then some .restrictedMode else routeCheck j.raw) = some o) :
    exec (.brambleRoute q seq) s = .next (refuseJob (jobKey q seq) o
      (if rSel j.raw < 8 then bump (K.brambleRoutes + rSel j.raw) 1 s else s)) := by
  change execBrambleRoute q seq s = _
  simp only [execBrambleRoute, hl, ho, hh, stageDesc_of_hasDesc hd, hc, UStep.start]

/-- A route that comes to its turn begins on its Bramble. -/
theorem exec_brambleRoute_stands {q seq die : Nat} {r : Route} {s s1 : State} (h : RouteStands q seq die r s s1)
    (hcomb : r.combine = false) (hlisted : r.listed = false) : exec (.brambleRoute q seq) s = beginRoute die r s1 := by
  change execBrambleRoute q seq s = _
  rcases h with h | ⟨hl, h, rfl⟩ | ⟨hl, ho, hdie, ⟨j, hh, hd, hr⟩, hc, hpkg, hrun, hwait, rfl⟩
  · simp only [execBrambleRoute, h, hcomb, Bool.false_eq_true, if_false]
  · simp only [execBrambleRoute, hl, h, hcomb, hlisted, Bool.or_self, Bool.false_eq_true, if_false]
  · have hsel : rSel j.raw = die := by rw [hdie, hr]; rfl
    rw [hcomb] at hr
    simp only [hcomb, Bool.false_eq_true, if_false] at hh hc
    have hraw : r.raw = j.raw := by rw [hr]; rfl
    rw [hraw] at hc hpkg
    have hmode : ¬(s.pkg = .restricted ∧ rIssue j.raw = true) := fun ⟨h1, h2⟩ => by
      rw [hpkg hcomb h1] at h2
      cases h2
    have henter := enterBramble_idle (die := die) (r := r) (s := began (jobKey q seq) s) (by rwa [brambleOf_began])
      (by rwa [brambleOf_began])
    rw [brambleOf_began] at henter
    unfold began at henter ⊢
    simp only [execBrambleRoute, hl, ho, hh, stageDesc_of_hasDesc hd, hmode, hc, uClose_start, if_false, hsel, ← hr, henter]

theorem exec_brambleRoute_listed {q seq die : Nat} {r r2 : Route} {u : UStep} {s s1 : State} (h : RouteStands q seq die r s s1)
    (hcomb : r.combine = false) (hlisted : r.listed = false)
    (hwork : routeWork r (UStep.start r.ctx r.key die s1) = .on r2 u) (hheld : u.held = false) :
    exec (.brambleRoute q seq) s = .next (routeStepped die r2 u) := by
  rw [exec_brambleRoute_stands h hcomb hlisted, beginRoute, hlisted, if_neg Bool.false_ne_true, hwork, routeStep_on hheld]

/-! #### BRAMBLE_GATHER and BRAMBLE_ISSUE -/

theorem UStep.not_stopped {u : UStep} (h : u.stopped = false) : u.fault = none ∧ u.held = false := by
  simpa [UStep.stopped] using h

theorem exec_brambleGather {die : Nat} {r r2 : Route} {u : UStep} {s : State} (hrun : (brambleOf s die).run = some r)
    (hcomb : r.combine = false) (hlisted : r.listed = true) (hab : r.aborted = false) (hfault : r.fault = none)
    (hg : rGather r.raw = true) (hlt : r.gathered < rExperts r.raw)
    (hrows : gatherRows (r.counts.getD r.gathered 0 - r.position) r (UStep.start r.ctx r.key die s) = (r2, u))
    (hu : u.stopped = false) : exec (.brambleGather die) s =
      .next (routeStepped die { r2 with gathered := nextExpert r2.counts (r2.gathered + 1), position := 0 } u) := by
  obtain ⟨hnofault, hheld⟩ := UStep.not_stopped hu
  change execBrambleGather die s = _
  simp only [execBrambleGather, hrun, hcomb, hlisted, hab, hfault, hg, ge_iff_le, Nat.not_le.2 hlt, hrows, hnofault, hheld,
    Option.isSome_none, Bool.not_true, Bool.or_self, decide_false, Bool.false_eq_true, if_false, routeStep_on]

/-- The FACE_OP of the expert that a route offers next, from its template. -/
def nextExpertOp (tpl : Nat) (r : Route) : Nat := expertOp tpl (r.counts.getD r.offered 0) (offsetOf r.counts r.offered)

/-- The work that an expert's FACE_OP offers. -/
def expertWork (die : Nat) (r : Route) (op : Nat) : Work :=
  .face (FRun.start { owner := .expert die r.offered, key := r.key, raw := op, ctx := r.ctx })

/-- The route that has offered its next expert. -/
def Route.offerNext (r : Route) : Route :=
  { r with offered := nextExpert r.counts (r.offered + 1), issued := r.issued + 1, live := r.live ++ [r.offered] }

/-- The state after the next expert's FACE_OP has been offered to the station of its Face. -/
def expertIssued (die f op : Nat) (r : Route) (u : UStep) : State :=
  routeStepped die r.offerNext (u.on (offerWork f (expertWork die r op) (fPriority op)))

theorem exec_brambleIssue {die f tpl : Nat} {r : Route} {u1 u : UStep} {s : State} (hrun : (brambleOf s die).run = some r)
    (hcomb : r.combine = false) (hlisted : r.listed = true) (hab : r.aborted = false) (hfault : r.fault = none)
    (hi : rIssue r.raw = true) (hlt : r.offered < rExperts r.raw)
    (hg : rGather r.raw = true → r.offered < r.gathered ∧ txnsOf s r.key = 0)
    (hplace : (rPlace r.raw = 0 ∧ f = r.offered % 8 ∧ u1 = UStep.start r.ctx r.key die s) ∨
      (rPlace r.raw ≠ 0 ∧ readTable (rPlace r.raw + r.offered) 1 (UStep.start r.ctx r.key die s) = .on f u1 ∧ f ≤ 7))
    (hu1 : u1.stopped = false) (hread : readTable (rTemplate r.raw + 256 * r.offered) 256 u1 = .on tpl u)
    (hu : u.stopped = false) (htpl : templateBad tpl = false) (hcheck : faceCheck (nextExpertOp tpl r) = none) :
    exec (.brambleIssue die) s = .next (expertIssued die f (nextExpertOp tpl r) r u) := by
  have hgathered : (rGather r.raw && (decide (r.gathered ≤ r.offered) || txnsOf s r.key != 0)) = false := by
    by_cases h : rGather r.raw = true
    · obtain ⟨h1, h2⟩ := hg h
      simp [h2, h1]
    · simp [h]
  have hheld : (u.on (offerWork f (expertWork die r (nextExpertOp tpl r)) (fPriority (nextExpertOp tpl r)))).held = false :=
    (UStep.not_stopped hu).2
  have hmay : (r.combine || !r.listed || r.aborted || r.fault.isSome || !rIssue r.raw || decide (r.offered ≥ rExperts r.raw)) =
      false := by
    simp [hcomb, hlisted, hab, hfault, hi, hlt]
  have hend := routeStep_on (die := die) (r := r.offerNext) (r2 := r.offerNext) (s := s) hheld
  unfold nextExpertOp at hcheck hend ⊢
  change execBrambleIssue die s = _
  rcases hplace with ⟨hp, rfl, rfl⟩ | ⟨hp, hplaced, hf⟩
  · simp only [execBrambleIssue, hrun, hmay, hgathered, hp, fThen, hu1, hread, hu, htpl, hcheck, Bool.false_eq_true, if_false,
      if_true]
    exact hend
  · simp only [execBrambleIssue, hrun, hmay, hgathered, hp, fThen, hplaced, hu1, gt_iff_lt, Nat.not_lt.2 hf, hread, hu, htpl, hcheck,
      Bool.false_eq_true, if_false]
    exact hend

/-! #### ROUTE_COMPLETE and the end of a combine -/

section
variable (d : Line) (m : BitVec 128) (u : UStep)

theorem uDenied_key (x : Xl) (va off : Nat) (w : Bool) : (uDenied x va off w u).key = u.key := rfl
theorem UStep.met_key (o : Status) : (u.met o).key = u.key := by
  rw [UStep.met]
  split <;> rfl
theorem UStep.waiting_key (w : Option Want) : (u.waiting w).key = u.key := rfl
theorem uFault_key (f : FaultInfo) : (uFault f u).key = u.key := rfl

theorem homeStore_key (x : Xl) (off : Nat) (p : Bool) : (homeStore x off d m p u).key = u.key := by
  rw [homeStore]
  split <;> rfl

theorem uPlace_key (va : Nat) (need : Need) : (uPlace va need u).2.key = u.key := by
  unfold uPlace
  dsimp only
  split
  · rfl
  · split <;> rfl

theorem uStoreLine_key (va : Nat) (p : Bool) : (uStoreLine va d m p u).key = u.key := by
  rw [uStoreLine]
  split
  · rfl
  have hplace := uPlace_key u va needW
  split
  next heq => rwa [heq] at hplace
  next v heq =>
    rw [heq] at hplace
    refine Eq.trans ?_ hplace
    split
    · split
      · rfl
      · split
        · rfl
        · exact homeStore_key ..
    · rfl
    · split
      · exact UStep.met_key ..
      · exact List.foldlRecOn _ (motive := fun x : UStep => x.key = v.key) _ rfl fun _ h _ _ => h

end

theorem uWrite_key (fuel va n val : Nat) (u : UStep) : (uWrite fuel va n val u).key = u.key := by
  induction fuel generalizing va n val u with
  | zero => rfl
  | succ fuel ih =>
    rw [uWrite]
    split
    · rfl
    · rw [ih, uStoreLine_key]

theorem uPut_key (va n val : Nat) (u : UStep) : (uPut va n val u).key = u.key := uWrite_key ..

theorem writeOwed_key (st : Tab Nat) (raw : Nat) (es : List Nat) (u : UStep) : (writeOwed st raw es u).key = u.key := by
  induction es generalizing u with
  | nil => rfl
  | cons e es ih => rw [writeOwed, ih, uPut_key]

theorem routeEnd_key (die : Nat) (r : Route) (s : State) : (routeEnd die r s).key = r.key := by
  unfold routeEnd
  extract_lets d tail u0 idle u1
  have h1 : u1.key = r.key := by
    simp only [u1]
    split
    · exact writeOwed_key ..
    · rfl
  split
  · rw [uPut_key, h1]
  · exact h1

/-- Answers that are dropped leave no transaction of a command that had none. -/
theorem txnsOf_dropArrived {o : TOwner} {key : Nat} {s : State} (h : txnsOf s key = 0) : txnsOf (dropArrived o s) key = 0 := by
  simp only [txnsOf, List.length_eq_zero_iff, List.filter_eq_nil_iff] at h ⊢
  simp only [dropArrived, dropAnswers, Tab.map, List.forall_mem_map]
  intro c hc
  have hno := h c hc
  split
  · simp [ownerKey]
  · exact hno

theorem txnsOf_congr {s t : State} (h : t.links = s.links) (key : Nat) : txnsOf t key = txnsOf s key := by
  rw [txnsOf, h, txnsOf]

theorem addOut_links (key : Nat) (o : Status) (s : State) : (addOut key o s).links = s.links := by
  rw [addOut]
  split
  · split <;> rfl
  · rfl

theorem foldl_addOut_links (key : Nat) (os : List Status) (s : State) :
    (os.foldl (fun s o => addOut key o s) s).links = s.links :=
  foldl_frame State.links _ (fun _ _ => addOut_links ..) _ s

theorem onJob_links (key : Nat) (f : Job → Job) (s : State) : (onJob key f s).links = s.links := by
  rw [onJob]
  split <;> rfl

theorem finishAcked_offJobs (key : Nat) (s : State) : offJobs (finishAcked key s) = offJobs s := by
  rw [finishAcked]
  split
  · exact finishJob_offJobs ..
  · exact onJob_offJobs ..

theorem finishAcked_of_acked {key : Nat} {s : State} (h : txnsOf s key = 0) : finishAcked key s = finishJob key s := by
  rw [finishAcked, if_pos h]

/-- The state in which a Bramble has been set and its task's outcomes are its command's. -/
def taskReported (key die : Nat) (b : Bramble) (outs : List Status) (s : State) : State :=
  outs.foldl (fun s o => addOut key o s) (setBramble die b s)

theorem taskReported_links (key die : Nat) (b : Bramble) (outs : List Status) (s : State) :
    (taskReported key die b outs s).links = s.links := foldl_addOut_links ..

theorem taskReported_offJobs (key die : Nat) (b : Bramble) (outs : List Status) (s : State) :
    offJobs (taskReported key die b outs s) = offJobs (setBramble die b s) :=
  foldl_offJobs (fun _ _ => addOut_offJobs ..) _ _

theorem find_taskReported {key die : Nat} {b : Bramble} {outs : List Status} {j : Job} {s : State}
    (h : s.jobs.find key = some j) :
    (taskReported key die b outs s).jobs.find key = some { j with outs := outs.foldl metToo j.outs } :=
  find_foldl_addOut key outs (s := setBramble die b s) h

theorem taskReported_queues (key die : Nat) (b : Bramble) (outs : List Status) (s : State) :
    (taskReported key die b outs s).queues = s.queues := foldl_addOut_queues ..

/-- Where a task of a Bramble has left it, only its own Bramble has changed. -/
theorem brambleOf_taskReported {key die : Nat} {b : Bramble} {outs : List Status} {s t : State}
    (h : offJobs t = offJobs (taskReported key die b outs s)) : brambleOf t die = b := by
  rw [brambleOf_congr (brambles_of_offJobs (h.trans (taskReported_offJobs ..))), brambleOf_setBramble_self]

theorem uClose_of_ready {u : UStep} (h : u.held = false) :
    uClose u = u.outs.foldl (fun s o => addOut u.key o s) (dropArrived u.owner u.st) := by
  simp only [uClose, h, Bool.false_eq_true, if_false]

/-- The word of a route's summary and DETAIL that tells its lowest failed expert and its FACE_OPs. -/
def routeTail (r : Route) : Nat := firstFailed r * 2 ^ 16 + r.issued

/-- A Bramble without the open routes of a command. -/
def Bramble.withoutOpen (b : Bramble) (key : Nat) : Bramble := { b with open_ := b.open_.filter fun x => x.key != key }

/-- The state in which a route that is over has left its Bramble, and its command knows its outcomes and its DETAIL. -/
def routeReported (key die : Nat) (r : Route) (u : UStep) : State :=
  bump (K.brambleRoutes + die) 1 (setDetail key (routeTail r)
    (taskReported key die ((brambleOf u.st die).withoutOpen key) r.outs (uClose u)))

theorem exec_routeComplete {q seq die : Nat} {r : Route} {s : State}
    (hopen : (List.range 8).findSome? (fun d => ((brambleOf s d).open_.find? fun x => x.key == jobKey q seq).map fun x => (d, x)) =
      some (die, r)) (hlive : r.live = []) (hfault : r.fault = none) (htxns : txnsOf s (jobKey q seq) = 0)
    (hu : (routeEnd die r s).stopped = false) :
    exec (.routeComplete q seq) s = .next (finishAcked (jobKey q seq) (routeReported (jobKey q seq) die r (routeEnd die r s))) := by
  obtain ⟨hnofault, hheld⟩ := UStep.not_stopped hu
  have hend : (r.live ≠ [] || r.fault.isSome || txnsOf s (jobKey q seq) ≠ 0) = false := by
    simp [hlive, hfault, htxns]
  change execRouteComplete q seq s = _
  simp only [execRouteComplete, hopen, hend, hheld, hnofault, Option.isSome_none, Bool.false_eq_true, if_false]
  rfl

/-- A route that is found open bears the key of its command. -/
theorem key_of_open {key die : Nat} {r : Route} {s : State}
    (h : (List.range 8).findSome? (fun d => ((brambleOf s d).open_.find? fun x => x.key == key).map fun x => (d, x)) =
      some (die, r)) : r.key = key := by
  obtain ⟨d, -, hd⟩ := List.exists_of_findSome?_eq_some h
  obtain ⟨x, hx, heq⟩ := Option.map_eq_some_iff.1 hd
  cases heq
  simpa using List.find?_some hx

theorem routeReported_offJobs {key die : Nat} {r : Route} {u : UStep} (h : u.held = false) :
    offJobs (routeReported key die r u) = offJobs (setBramble die ((brambleOf u.st die).withoutOpen key) u.st) := by
  have hclose : offJobs (uClose u) = offJobs u.st := by
    rw [uClose_of_ready h]
    exact foldl_offJobs (fun _ _ => addOut_offJobs ..) _ _
  refine (bump_offJobs ..).trans ((setDetail_offJobs ..).trans ((taskReported_offJobs ..).trans ?_))
  exact congrArg (fun t : State => { t with brambles := t.brambles.put die ((brambleOf u.st die).withoutOpen key) }) hclose

/-- The command of a route that has left its Bramble. -/
theorem routeReported_spec {key die : Nat} {r : Route} {u : UStep} {j : Job} (h : u.held = false) (hkey : u.key = key)
    (hj : u.st.jobs.find key = some j) (htxns : txnsOf u.st key = 0) :
    (routeReported key die r u).jobs.find key = some { j with outs := r.outs.foldl metToo (u.outs.foldl metToo j.outs)
                                                              detail := routeTail r % 2 ^ 64 } ∧
    (routeReported key die r u).queues = u.st.queues ∧ txnsOf (routeReported key die r u) key = 0 := by
  have hclose : (uClose u).jobs.find key = some { j with outs := u.outs.foldl metToo j.outs } := by
    rw [uClose_of_ready h, hkey]
    exact find_foldl_addOut _ _ (show (dropArrived u.owner u.st).jobs.find key = some j from hj)
  refine ⟨?_, ?_, ?_⟩
  · rw [routeReported, bump_jobs, find_setDetail (find_taskReported hclose)]
  · rw [routeReported, bump_queues, setDetail_queues, taskReported_queues, uClose_of_ready h, foldl_addOut_queues]
    rfl
  · have hlinks : (routeReported key die r u).links = (dropArrived u.owner u.st).links := by
      rw [routeReported, bump_links, setDetail, onJob_links, taskReported_links, uClose_of_ready h, foldl_addOut_links]
    rw [txnsOf_congr hlinks, txnsOf_dropArrived htxns]

/-- Settles O12. -/
theorem routesGoThroughTheirBramble : Obligations.RoutesGoThroughTheirBramble := by
  unfold Obligations.RoutesGoThroughTheirBramble
  refine ⟨fun q seq j s hl ho hh hd hpkg hc hbusy hroom => ?_, fun q seq j o s hl ho hh hd hc => ?_,
    fun q seq die r r2 u s s1 hst hcomb hlisted hwork hheld => ?_,
    fun die r r2 u s hrun hcomb hlisted hab hfault hg hlt hrows hu => ?_,
    fun die f tpl r u1 u s hrun hcomb hlisted hab hfault hi hlt hg hplace hu1 hread hu htpl hcheck => ?_,
    fun q seq die r s hopen hlive hfault htxns hu => ?_⟩
  · exact ⟨_, exec_brambleRoute_waits hl ho hh hd hpkg hc hbusy hroom, brambleWaits_began_spec ..⟩
  · have hu : (if rSel j.raw < 8 then bump (K.brambleRoutes + rSel j.raw) 1 s else s) = s ∨
        ∃ k, (if rSel j.raw < 8 then bump (K.brambleRoutes + rSel j.raw) 1 s else s) = bump k 1 s := by
      split
      · exact .inr ⟨_, rfl⟩
      · exact .inl rfl
    exact ⟨_, exec_brambleRoute_refused hl ho hh hd hc, refuseBramble_completed o hh hu⟩
  · obtain ⟨os, hplaced, hmem, -⟩ := routeStepped_spec die r2 u
    exact ⟨_, { r2 with outs := os }, exec_brambleRoute_listed hst hcomb hlisted hwork hheld, rfl, rfl, rfl, hplaced, hmem⟩
  · obtain ⟨os, hplaced, hmem, -⟩ :=
      routeStepped_spec die { r2 with gathered := nextExpert r2.counts (r2.gathered + 1), position := 0 } u
    exact ⟨_, _, exec_brambleGather hrun hcomb hlisted hab hfault hg hlt hrows hu, rfl, rfl, hplaced, hmem⟩
  · obtain ⟨os, hplaced, -, hweigh⟩ := routeStepped_spec die r.offerNext
      (u.on (offerWork f (expertWork die r (nextExpertOp tpl r)) (fPriority (nextExpertOp tpl r))))
    refine ⟨_, _, exec_brambleIssue hrun hcomb hlisted hab hfault hi hlt hg hplace hu1 hread hu htpl hcheck, rfl, rfl, rfl,
      hplaced, ?_⟩
    have hstation : stationOf (expertIssued die f (nextExpertOp tpl r) r u) f =
        stationOf (offerWork f (expertWork die r (nextExpertOp tpl r)) (fPriority (nextExpertOp tpl r)) u.st) f :=
      congrArg (fun w : Weigh => w.stations.get Station.start f) hweigh
    rw [hstation, offers_offerWork]
    rfl
  · obtain ⟨-, hheld⟩ := UStep.not_stopped hu
    have hkey := (routeEnd_key die r s).trans (key_of_open hopen)
    have hoff := (finishAcked_offJobs (jobKey q seq) (routeReported (jobKey q seq) die r (routeEnd die r s))).trans
      (routeReported_offJobs hheld)
    have hmem := memoryKept_of_offJobs hoff
    refine ⟨_, exec_routeComplete hopen hlive hfault htxns hu, fun x hx => ?_, hmem, fun j hj hacked => ?_⟩
    · rw [brambleOf_congr (brambles_of_offJobs hoff), brambleOf_setBramble_self] at hx
      simpa using (List.mem_filter.1 hx).2
    · obtain ⟨hfind, hqueues, hnone⟩ := routeReported_spec (r := r) (die := die) hheld hkey hj hacked
      have hdone := finishJob_completed hfind (command_withOuts ..) (queueOf_congr hqueues _)
      rw [finishAcked_of_acked hnone, ← statusOf_congr (a := r.outs.foldl metToo ((routeEnd die r s).outs.foldl metToo j.outs))]
      · exact hdone
      · intro o
        rw [mem_foldl_metToo, List.mem_append, mem_foldl_metToo, List.mem_append (s := j.outs ++ _)]

/-! #### BRAMBLE_COMBINE -/

theorem exec_brambleCombine_waits {q seq : Nat} {order : List Nat} {j : Job} {s : State}
    (hl : leaveWaiting (jobKey q seq) s = none) (ho : onBramble (jobKey q seq) s = none) (hh : handed s q seq 0x07 = some j)
    (hd : j.hasDesc) (hc : combineCheck j.raw = none)
    (hbusy : (brambleOf s (rSel j.raw)).run.isSome = true ∨ (brambleOf s (rSel j.raw)).waiting ≠ [])
    (hroom : (brambleOf s (rSel j.raw)).waiting.length < 4) : exec (.brambleCombine q seq order) s =
      .next (brambleWaits (rSel j.raw) (Route.start (jobKey q seq) j.ctx j.raw true) (began (jobKey q seq) s)) := by
  have henter := enterBramble_waits (die := rSel j.raw) (r := Route.start (jobKey q seq) j.ctx j.raw true)
    (s := began (jobKey q seq) s) (by rwa [brambleOf_began]) (by rwa [brambleOf_began])
  unfold began at henter ⊢
  change execBrambleCombine q seq order s = _
  simp only [execBrambleCombine, hl, ho, hh, stageDesc_of_hasDesc hd, hc, uClose_start, henter]

theorem exec_brambleCombine_refused {q seq : Nat} {order : List Nat} {j : Job} {o : Status} {s : State}
    (hl : leaveWaiting (jobKey q seq) s = none) (ho : onBramble (jobKey q seq) s = none) (hh : handed s q seq 0x07 = some j)
    (hd : j.hasDesc) (hc : combineCheck j.raw = some o) :
    exec (.brambleCombine q seq order) s = .next (refuseJob (jobKey q seq) o s) := by
  change execBrambleCombine q seq order s = _
  simp only [execBrambleCombine, hl, ho, hh, stageDesc_of_hasDesc hd, hc, UStep.start]

/-- A combine that comes to its turn runs on its Bramble. -/
theorem exec_brambleCombine_stands {q seq die : Nat} {order : List Nat} {r : Route} {s s1 : State}
    (h : RouteStands q seq die r s s1) (hcomb : r.combine = true) :
    exec (.brambleCombine q seq order) s = runCombine die order r s1 := by
  change execBrambleCombine q seq order s = _
  rcases h with h | ⟨hl, h, rfl⟩ | ⟨hl, ho, hdie, ⟨j, hh, hd, hr⟩, hc, -, hrun, hwait, rfl⟩
  · simp only [execBrambleCombine, h, hcomb, if_true]
  · simp only [execBrambleCombine, hl, h, hcomb, if_true]
  · have hsel : rSel j.raw = die := by rw [hdie, hr]; rfl
    have hraw : r.raw = j.raw := by rw [hr]; rfl
    rw [hcomb] at hr
    simp only [hcomb, if_true, hraw] at hh hc
    have henter := enterBramble_idle (die := die) (r := r) (s := began (jobKey q seq) s) (by rwa [brambleOf_began])
      (by rwa [brambleOf_began])
    rw [brambleOf_began] at henter
    unfold began at henter ⊢
    simp only [execBrambleCombine, hl, ho, hh, stageDesc_of_hasDesc hd, hc, uClose_start, hsel, ← hr, henter]

/-- The outcomes of a combine at its end. -/
def combineOuts (r : Route) (u : UStep) : List Status := (u.outs.foldl (fun r o => Route.met o r) r).outs

/-- The state in which a combine that is over has left its Bramble, and its command knows its outcomes. -/
def combineReported (die key : Nat) (o : TOwner) (r : Route) (u : UStep) : State :=
  taskReported key die { brambleOf u.st die with run := none } (combineOuts r u) (dropArrived o u.st)

/-- A step that goes on after another comes from what that one gave. -/
theorem fThen_on {α β : Type} {g : FGo α} {f : α → UStep → FGo β} {y : β} {v : UStep} (h : fThen g f = .on y v) :
    ∃ x u, g = .on x u ∧ f x u = .on y v := by
  unfold fThen at h
  split at h
  next x u =>
    split at h
    · cases h
    · exact ⟨x, u, rfl, h⟩
  · cases h
  · cases h

/-- The lists that a combine reads leave its key. -/
theorem combineLists_key {r r2 : Route} {u v : UStep} (h : combineLists r u = .on r2 v) : r2.key = r.key := by
  obtain ⟨raw, u1, -, h⟩ := fThen_on h
  dsimp only at h
  split at h
  · cases h
  obtain ⟨es, u2, -, h⟩ := fThen_on h
  obtain ⟨st, u3, -, h⟩ := fThen_on h
  cases h
  rfl

theorem combineRows_key (die : Nat) (ps : List Nat) (r : Route) (u : UStep) : (combineRows die ps r u).1.key = r.key := by
  induction ps generalizing r u with
  | nil => rfl
  | cons p ps ih =>
    unfold combineRows
    dsimp only
    split
    · rw [ih]
    · generalize combineRow r.raw _ p _ _ u = w
      split
      · rfl
      · rw [ih]

theorem runCombine_done {die : Nat} {order : List Nat} {r r2 : Route} {v : UStep} {w : Route × Bool × UStep} {s : State}
    (hlists : (if r.listed then .on r (UStep.start r.ctx r.key die s) else combineLists r (UStep.start r.ctx r.key die s)) =
      .on r2 v) (hrows : combineRows die (combineOrder order r2) r2 v = w) (hw : w.2.2.stopped = false) :
    runCombine die order r s = .next (finishAcked r.key (combineReported die r.key (.job r.key) w.1 w.2.2)) := by
  have hr2 : r2.key = r.key := by
    split at hlists
    · cases hlists
      rfl
    · exact combineLists_key hlists
  have hkey : w.1.key = r.key := by rw [← hrows, combineRows_key, hr2]
  have hmet : (w.2.2.outs.foldl (fun r o => Route.met o r) w.1).key = r.key := by
    rw [routeMet_eq]
    exact hkey
  simp only [runCombine, hlists, hrows, hw, hmet, Bool.false_eq_true, if_false]
  rfl

theorem combineReported_offJobs (die key : Nat) (o : TOwner) (r : Route) (u : UStep) :
    offJobs (combineReported die key o r u) = offJobs (setBramble die { brambleOf u.st die with run := none } u.st) :=
  taskReported_offJobs ..

/-- The command of a combine that has left its Bramble. -/
theorem combineReported_spec (die : Nat) (o : TOwner) (r : Route) {key : Nat} {u : UStep} {j : Job}
    (hj : u.st.jobs.find key = some j) (htxns : txnsOf u.st key = 0) :
    (combineReported die key o r u).jobs.find key = some { j with outs := (combineOuts r u).foldl metToo j.outs } ∧
    (combineReported die key o r u).queues = u.st.queues ∧ txnsOf (combineReported die key o r u) key = 0 := by
  refine ⟨find_taskReported (show (dropArrived o u.st).jobs.find key = some j from hj), taskReported_queues .., ?_⟩
  rw [combineReported, txnsOf_congr (taskReported_links ..), txnsOf_dropArrived htxns]

theorem status_combineOuts (outs : List Status) (r : Route) (u : UStep) :
    statusOf ((combineOuts r u).foldl metToo outs) = statusOf (outs ++ r.outs ++ u.outs) := by
  refine statusOf_congr_ne_done fun o ho => ?_
  rw [mem_foldl_metToo, List.mem_append, combineOuts, mem_routeMet ho, List.append_assoc, List.mem_append (s := outs)]

/-- Settles O13. -/
theorem combineScattersItsRows : Obligations.CombineScattersItsRows := by
  unfold Obligations.CombineScattersItsRows
  refine ⟨fun q seq order j s hl ho hh hd hc hbusy hroom => ?_, fun q seq order j o s hl ho hh hd hc => ?_,
    fun q seq die order r r2 v w s s1 hst hcomb hlists hrows hw => ?_⟩
  · exact ⟨_, exec_brambleCombine_waits hl ho hh hd hc hbusy hroom, brambleWaits_began_spec ..⟩
  · exact ⟨_, exec_brambleCombine_refused hl ho hh hd hc, refuseBramble_completed o hh (.inl rfl)⟩
  · have hoff := (finishAcked_offJobs r.key (combineReported die r.key (.job r.key) w.1 w.2.2)).trans
      (combineReported_offJobs ..)
    have hmem := memoryKept_of_offJobs hoff
    refine ⟨_, (exec_brambleCombine_stands hst hcomb).trans (runCombine_done hlists hrows hw), ?_, hmem, fun j hj hacked => ?_⟩
    · rw [brambleOf_congr (brambles_of_offJobs hoff), brambleOf_setBramble_self]
    · obtain ⟨hfind, hqueues, hnone⟩ := combineReported_spec die (.job r.key) w.1 hj hacked
      have hdone := finishJob_completed hfind (command_withOuts ..) (queueOf_congr hqueues _)
      rw [finishAcked_of_acked hnone, ← status_combineOuts]
      exact hdone

end Sys2Proof.Machine

/-! ### Queues: opening, closing, doorbells and discarded messages (O44) -/

namespace Sys2Proof.Machine

/-! #### Q_STATE -/

/-- The queue that opens with a configuration. -/
def openedQueue (s : State) (q : Nat) : Queue :=
  { Queue.closed with
      st := .opened, gen := dv s (qKey q 1), ctx := bits (dv s (qKey q 2)) 0 12, ringLoc := dv s (qKey q 3)
      ringAddr := dv s (qKey q 4), ringEntries := dv s (qKey q 5), cplAddr := dv s (qKey q 6), cplEntries := dv s (qKey q 7)
      conn := bits (dv s (qKey q 8)) 0 14, rkey := dv s (qKey q 9)
      epoch := (connOf s (bits (dv s (qKey q 8)) 0 14)).epoch }

theorem openQueue_ok {q : Nat} {s : State} (hst : (queueOf s q).st = .closed) (hcan : canOpen s q = true) :
    openQueue q s = (0, setQueue q (openedQueue s q) s) := by
  have hok : ¬((queueOf s q).st ≠ .closed ∨ (!canOpen s q) = true) := by simp [hst, hcan]
  simp only [openQueue, hok, if_false, openedQueue]

theorem exec_queueOpen {src q : Nat} {s : State} (hq : q < 1024) (hw : Writable s (qKey q 0)) (hst : (queueOf s q).st = .closed)
    (hcan : canOpen s q = true) :
    exec (.queueOpen src q) s = .next (acceptWrite (setQueue q (openedQueue s q) s)) := by
  have hact : writeQState q 1 s = (0, setQueue q (openedQueue s q) s) := by
    rw [writeQState, if_pos rfl, openQueue_ok hst hcan]
  change outside s (commitScalar src (qKey (q % 1024) 0) 1 (writeQState (q % 1024)) s).2 = _
  rw [Nat.mod_eq_of_lt hq, outside_commit hw (entryOf_qState hq) (fun h => by simp at h) (by decide) (by rw [hact]), hact]

theorem exec_queueClose {src q : Nat} {s : State} (hq : q < 1024) (hw : Writable s (qKey q 0)) (hst : (queueOf s q).st ≠ .closed) :
    exec (.queueClose src q) s = .next (acceptWrite (closeQueue q s).2) := by
  have hact : writeQState q 0 s = closeQueue q s := rfl
  have hzero : (closeQueue q s).1 = 0 := by
    simp only [closeQueue, hst, if_false]
    split <;> rfl
  change outside s (commitScalar src (qKey (q % 1024) 0) 0 (writeQState (q % 1024)) s).2 = _
  rw [Nat.mod_eq_of_lt hq, outside_commit hw (entryOf_qState hq) (fun h => by simp at h) (by decide) (by rw [hact, hzero]), hact]

/-! #### Doorbells and completion heads -/

theorem entryOf_qDoorbell {q : Nat} (hq : q < 1024) : entryOf (qKey q 10) = some ⟨10, 10, 2, 2, 0, 4, 0, 2 ^ 32 - 1⟩ :=
  (entryOf_qKey hq (by decide)).trans (by decide)
theorem entryOf_qCplHead {q : Nat} (hq : q < 1024) : entryOf (qKey q 11) = some ⟨11, 11, 2, 1, 0, 4, 0, 2 ^ 32 - 1⟩ :=
  (entryOf_qKey hq (by decide)).trans (by decide)

theorem writeDoorbell_ok {q v : Nat} {s : State} (hloc : (queueOf s q).ringLoc = 0) (hst : (queueOf s q).st = .opened)
    (ht : tailOk (queueOf s q) v = true) :
    writeDoorbell q v s = (0, bump K.doorbells 1 (setQueue q { queueOf s q with tail := v } s)) := by
  simp only [writeDoorbell, hloc, hst, ht, ne_eq, not_true_eq_false, or_self, if_false, if_true]

theorem writeDoorbell_refused {q v : Nat} {s : State} (hloc : (queueOf s q).ringLoc = 0) (hst : (queueOf s q).st = .opened)
    (ht : tailOk (queueOf s q) v = false) : writeDoorbell q v s = (3, refuseBell s) := by
  simp only [writeDoorbell, hloc, hst, ht, ne_eq, not_true_eq_false, or_self, if_false, Bool.false_eq_true]

theorem exec_qDoorbell {src q v : Nat} {s : State} (hq : q < 1024) (hv : v < 2 ^ 32) (hw : Writable s (qKey q 10))
    (hloc : (queueOf s q).ringLoc = 0) (hst : (queueOf s q).st = .opened) (ht : tailOk (queueOf s q) v = true) :
    exec (.qDoorbell src q v) s =
      .next (acceptWrite (bump K.doorbells 1 (setQueue q { queueOf s q with tail := v } s))) := by
  have hact := writeDoorbell_ok hloc hst ht
  have hcommit : commitDoorbell src q v s = commitScalar src (qKey q 10) v (writeDoorbell q) s := by
    simp only [commitDoorbell, hact, or_true, if_true]
  change outside s (commitDoorbell src (q % 1024) (v % 2 ^ 32) s).2 = _
  rw [Nat.mod_eq_of_lt hq, Nat.mod_eq_of_lt hv, hcommit, outside_commit hw (entryOf_qDoorbell hq) (fun h => by simp at h)
    (and_mask_of_lt hv) (by rw [hact]), hact]

theorem exec_qDoorbell_refused {src q v : Nat} {s : State} (hq : q < 1024) (hv : v < 2 ^ 32) (hw : Writable s (qKey q 10))
    (hloc : (queueOf s q).ringLoc = 0) (hst : (queueOf s q).st = .opened) (ht : tailOk (queueOf s q) v = false) :
    exec (.qDoorbell src q v) s = .next (refuseWrite src (qKey q 10) 3 (refuseBell s)) := by
  obtain ⟨halive, hcheck⟩ := hw
  have hact := writeDoorbell_refused hloc hst ht
  have hcommit : commitDoorbell src q v s = (3, refuseWrite src (qKey q 10) 3 (refuseBell s)) := by
    have hcode : ¬(3 = 0) := by decide
    simp only [commitDoorbell, hact, hcheck, ne_eq, not_true_eq_false, hcode, or_self, if_false]
  change outside s (commitDoorbell src (q % 1024) (v % 2 ^ 32) s).2 = _
  rw [Nat.mod_eq_of_lt hq, Nat.mod_eq_of_lt hv, hcommit, outside_of_alive halive]

/-- A refused write leaves the counters of doorbells as they are. -/
theorem dv_refuseWrite_doorbellRefused (src key code : Nat) (s : State) :
    dv (refuseWrite src key code s) K.doorbellRefused = dv s K.doorbellRefused := by
  rw [refuseWrite]
  generalize key / 256 + key % 256 * 2 ^ 16 + code * 2 ^ 24 + src * 2 ^ 32 = last
  have hraise : ∀ t : State, dv (raise 0x60 10 last 0 t) K.doorbellRefused = dv t K.doorbellRefused := fun _ => rfl
  rw [hraise, sumErr, dv_setDv_of_ne _ _ (by decide), dv_setDv_of_ne _ _ (by decide),
    dv_bump_of_ne _ _ (by decide) (by decide) (by decide)]

theorem writeCplHead_ok {q v : Nat} {s : State} (hloc : (queueOf s q).ringLoc = 0) (hst : (queueOf s q).st ≠ .closed)
    (hh : cplHeadOk (queueOf s q) v = true) : writeCplHead q v s = (0, setQueue q { queueOf s q with cplHead := v } s) := by
  simp only [writeCplHead, hloc, hst, hh, ne_eq, not_true_eq_false, or_self, if_false, if_true]

theorem exec_qCplHead {src q v : Nat} {s : State} (hq : q < 1024) (hv : v < 2 ^ 32) (hw : Writable s (qKey q 11))
    (hloc : (queueOf s q).ringLoc = 0) (hst : (queueOf s q).st ≠ .closed) (hh : cplHeadOk (queueOf s q) v = true) :
    exec (.qCplHead src q v) s = .next (acceptWrite (setQueue q { queueOf s q with cplHead := v } s)) := by
  have hact := writeCplHead_ok hloc hst hh
  change outside s (commitScalar src (qKey (q % 1024) 11) v (writeCplHead (q % 1024)) s).2 = _
  rw [Nat.mod_eq_of_lt hq, outside_commit hw (entryOf_qCplHead hq) (fun h => by simp at h) (and_mask_of_lt hv) (by rw [hact]), hact]

theorem exec_qCplHead_refused {src q v : Nat} {s : State} (hq : q < 1024) (hv : v < 2 ^ 32) (hw : Writable s (qKey q 11))
    (hloc : (queueOf s q).ringLoc = 0) (hst : (queueOf s q).st ≠ .closed) (hh : cplHeadOk (queueOf s q) v = false) :
    exec (.qCplHead src q v) s = .next (refuseWrite src (qKey q 11) 3 s) := by
  have hact : writeCplHead q v s = (3, s) := by
    simp only [writeCplHead, hloc, hst, hh, ne_eq, not_true_eq_false, or_self, if_false, Bool.false_eq_true]
  change outside s (commitScalar src (qKey (q % 1024) 11) v (writeCplHead (q % 1024)) s).2 = _
  rw [Nat.mod_eq_of_lt hq, outside_turned_away hw (entryOf_qCplHead hq) (fun h => by simp at h) (and_mask_of_lt hv)
    (by simp [hact]), hact]

/-! #### Messages -/

theorem exec_doorbell {conn p : Nat} {s : State} (ha : alive s = true) (hm : connMode (connOf s conn) = 2)
    (hst : (connOf s conn).st = 1) : exec (.doorbell conn p) s = .next (takeDoorbell conn p (send (.roceAck conn) s)) := by
  change outside s (if connMode (connOf s conn) = 2 ∧ (connOf s conn).st = 1 then _ else _) = _
  rw [if_pos ⟨hm, hst⟩, outside_of_alive ha]

theorem takeDoorbell_out (conn p : Nat) (s : State) : (takeDoorbell conn p s).out = s.out := by
  unfold takeDoorbell
  extract_lets q tail cpl x
  split
  · exact bump_out ..
  · exact bump_out ..

/-- A doorbell message that its queue takes. -/
theorem takeDoorbell_taken {conn p : Nat} {s : State} (hq : fld p 0 2 < 1024) (hz : fld p 2 2 = 0) (hz' : fld p 12 4 = 0)
    (hloc : (queueOf s (fld p 0 2)).ringLoc = 1) (hconn : (queueOf s (fld p 0 2)).conn = conn)
    (hst : (queueOf s (fld p 0 2)).st = .opened) (ht : tailOk (queueOf s (fld p 0 2)) (fld p 4 4) = true)
    (hh : cplHeadOk (queueOf s (fld p 0 2)) (fld p 8 4) = true) : takeDoorbell conn p s =
      bump K.doorbells 1 (setQueue (fld p 0 2) { queueOf s (fld p 0 2) with tail := fld p 4 4, cplHead := fld p 8 4 } s) := by
  simp only [takeDoorbell, hq, hz, hz', hloc, hconn, hst, ht, hh, decide_true, beq_self_eq_true, Bool.and_self, if_true]

theorem takeDoorbell_refused {conn p : Nat} {s : State} (hq : 1024 ≤ fld p 0 2) : takeDoorbell conn p s = refuseBell s := by
  simp only [takeDoorbell, Nat.not_lt.2 hq, decide_false, Bool.false_and, Bool.false_eq_true, if_false]

theorem refuseMessage_peer {conn : Nat} {s : State} (hm : connMode (connOf s conn) = 1) (hst : (connOf s conn).st = 1) :
    refuseMessage conn s = bump K.peerRefusedIn 1 s := by
  simp only [refuseMessage, hm, hst, and_self, if_true]

theorem refuseMessage_frontend {conn : Nat} {s : State} (h : connMode (connOf s conn) ≠ 1 ∨ (connOf s conn).st ≠ 1) :
    refuseMessage conn s = bump K.feInboundRefused 1 s := by
  have hno : ¬(connMode (connOf s conn) = 1 ∧ (connOf s conn).st = 1) := fun ⟨h1, h2⟩ => h.elim (· h1) (· h2)
  simp only [refuseMessage, hno, if_false]

theorem exec_sendDiscard_ready {conn len : Nat} {s : State} (ha : alive s = true) (hm : connMode (connOf s conn) = 2)
    (hst : (connOf s conn).st = 1) (hlen : len ≠ 16 ∧ (4096 < len ∨ connFlag (connOf s conn) 0 = false)) :
    exec (.sendDiscard conn len) s = .next (bump K.feInboundRefused 1 (send (.roceAck conn) s)) := by
  have hother : (len == 16 || (decide (len ≤ 4096) && connFlag (connOf s conn) 0)) = false := by
    rcases hlen with ⟨h1, h2 | h2⟩
    · simp [h1, Nat.not_le.2 h2]
    · simp [h1, h2]
  have hrefused : refuseMessage conn (send (.roceAck conn) s) = bump K.feInboundRefused 1 (send (.roceAck conn) s) :=
    refuseMessage_frontend (s := send (.roceAck conn) s) (.inl (by rw [show connOf (send _ s) conn = connOf s conn from rfl, hm]; decide))
  change execSendDiscard conn len s = _
  simp only [execSendDiscard, hm, hst, hother, beq_self_eq_true, Bool.and_self, Bool.and_false, Bool.false_eq_true, if_false, if_true,
    hrefused, outside_of_alive ha]

theorem exec_sendDiscard_other {conn len : Nat} {s : State} (ha : alive s = true)
    (h : connMode (connOf s conn) ≠ 2 ∨ (connOf s conn).st ≠ 1) :
    exec (.sendDiscard conn len) s = .next (refuseMessage conn s) := by
  have hno : (connMode (connOf s conn) == 2 && (connOf s conn).st == 1) = false := by
    rcases h with h | h <;> simp [h]
  change execSendDiscard conn len s = _
  simp only [execSendDiscard, hno, Bool.false_and, Bool.false_eq_true, if_false, outside_of_alive ha]

/-- Settles O44. -/
theorem queuesOpenAndClose : Obligations.QueuesOpenAndClose := by
  unfold Obligations.QueuesOpenAndClose
  refine ⟨fun src q s hq hw hst hcan => ?_, fun src q s hq hw hst hst' => ?_, fun src q s hq hw hst => ?_,
    fun q s hst hlive => ?_, fun src q v s hq hv hw hloc hst => ?_, fun src q v s hq hv hw hloc hst => ?_,
    fun conn p s ha hm hst => ?_, fun conn len s ha hother => ⟨fun hm hst => ?_, fun hm hst => ?_, fun hst => ?_⟩,
    fun conn s ha hst => ?_⟩
  · refine ⟨_, exec_queueOpen hq hw hst hcan, ?_, fun p hp => ?_, rfl⟩
    · exact queueOf_setQueue_self ..
    · exact queueOf_setQueue_of_ne _ s hp
  · have hclose : (closeQueue q s).2 = (queueOf s q).live.foldl (closeJob q) (endFetch q (setQueue q { queueOf s q with
        st := .closing, status := 0, fetched := [], killed := [], cplWait := [] } s)) := by
      simp only [closeQueue, hst, hst', if_false]
    rw [exec_queueClose hq hw hst, hclose]
  · have hclose : (closeQueue q s).2 = s := by
      simp only [closeQueue, hst, reduceCtorEq, if_false, if_true]
    rw [exec_queueClose hq hw (by rw [hst]; simp), hclose]
  · change when_ ((queueOf s q).st == .closing && (queueOf s q).live.isEmpty) _ _ = _
    rw [when_, if_pos (by simp [hst, hlive])]
  · by_cases ht : tailOk (queueOf s q) v = true
    · refine ⟨_, exec_qDoorbell hq hv hw hloc hst ht, fun _ => ⟨?_, ?_⟩, fun h => by rw [ht] at h; cases h⟩
      · rw [queueOf_congr (acceptWrite_queues ..), queueOf_congr (bump_queues ..), queueOf_setQueue_self]
      · have hrec := bump_onlyRecords K.doorbells 1 (setQueue q { queueOf s q with tail := v } s)
        rw [acceptWrite, setDv, hrec]
        rfl
    · have hno : tailOk (queueOf s q) v = false := by simpa using ht
      refine ⟨_, exec_qDoorbell_refused hq hv hw hloc hst hno, fun h => absurd h ht, fun _ => ⟨?_, ?_⟩⟩
      · exact (bump_onlyRecords ..).trans (refuseWrite_onlyRecords ..)
      · exact dv_refuseWrite_doorbellRefused ..
  · by_cases hh : cplHeadOk (queueOf s q) v = true
    · refine ⟨_, exec_qCplHead hq hv hw hloc hst hh, fun _ => ?_, fun h => by rw [hh] at h; cases h⟩
      rw [queueOf_congr (acceptWrite_queues ..), queueOf_setQueue_self]
    · have hno : cplHeadOk (queueOf s q) v = false := by simpa using hh
      exact ⟨_, exec_qCplHead_refused hq hv hw hloc hst hno, fun h => absurd h hh, fun _ => refuseWrite_onlyRecords ..⟩
  · refine ⟨_, exec_doorbell ha hm hst, takeDoorbell_out .., fun hq hz hz' hloc hconn hopen ht hh => ?_, fun hq => ?_⟩
    · have htaken := takeDoorbell_taken (s := send (.roceAck conn) s) hq hz hz' hloc hconn hopen ht hh
      rw [htaken, queueOf_congr (bump_queues ..), queueOf_setQueue_self]
      rfl
    · rw [takeDoorbell_refused hq, refuseBell, bump_queues]
      rfl
  · exact exec_sendDiscard_ready ha hm hst (hother hm hst)
  · rw [exec_sendDiscard_other ha (.inl (by rw [hm]; decide)), refuseMessage_peer hm hst]
  · rw [exec_sendDiscard_other ha (.inr hst), refuseMessage_frontend (.inr hst)]
  · change execRocePacketDiscard conn s = _
    simp only [execRocePacketDiscard, hst, if_false, outside_of_alive ha]

end Sys2Proof.Machine

/-! ### Fetching, starting and recording commands (O45) -/

namespace Sys2Proof.Machine

/-! #### A unit's read touches memory and records alone -/

theorem countStale_offBench (s : State) : offBench (countStale s) = offBench s := bump_offBench ..

theorem landing_offBench (s : State) (c va : Nat) (n : Need) : offBench (landing s c va n).2 = offBench s := by
  unfold landing
  repeat' split
  all_goals simp only [countStale_offBench]

theorem uFault_offBench (f : FaultInfo) (u : UStep) : offBench (uFault f u).st = offBench u.st := by
  unfold uFault
  dsimp only
  split
  · exact (sumErr_offBench ..).trans (bump_offBench ..)
  · rfl

theorem uDenied_offBench (x : Xl) (va off : Nat) (w : Bool) (u : UStep) : offBench (uDenied x va off w u).st = offBench u.st :=
  (uFault_offBench ..).trans ((setDv_offBench ..).trans ((sumErr_offBench ..).trans (bump_offBench ..)))

theorem UStep.met_offBench (u : UStep) (o : Status) : offBench (u.met o).st = offBench u.st := by
  unfold UStep.met
  split <;> rfl

theorem uPlace_offBench (va : Nat) (need : Need) (u : UStep) : offBench (uPlace va need u).2.st = offBench u.st := by
  unfold uPlace
  dsimp only
  split
  · rfl
  · split
    · exact landing_offBench ..
    · exact (uFault_offBench ..).trans (landing_offBench ..)
    · rfl

theorem atHome_offBench {line : Nat} {m : BitVec 128} {w : Bool} {x : Xl} {o : TOwner} {s t : State}
    (h : atHome line m w x o s = .ready t) : offBench t = offBench s := by
  unfold atHome at h
  dsimp only at h
  split at h
  · cases h
  split at h
  · cases h
  split at h
  · cases h
  split at h
  · cases h
    exact (recallLine_offBench ..).trans (bump_offBench ..)
  split at h
  · split at h
    · cases h
      exact (zeroFill_offBench ..).trans ((bump_offBench ..).trans (recallLine_offBench ..))
    · cases h
  · cases h

theorem homeRead_offBench (x : Xl) (off n : Nat) (u : UStep) : offBench (homeRead x off n u).2.st = offBench u.st := by
  unfold homeRead
  split
  · rfl
  · split
    · rfl
    next h => exact atHome_offBench h

theorem uReadAs_offBench (need : Need) (va n : Nat) (u0 : UStep) : offBench (uReadAs need va n u0).2.st = offBench u0.st := by
  have hplace := uPlace_offBench va need u0
  unfold uReadAs
  split
  next heq => rwa [heq] at hplace
  next x u heq =>
    rw [heq] at hplace
    refine Eq.trans ?_ hplace
    split
    · split
      · rfl
      · split
        · exact uDenied_offBench ..
        · exact homeRead_offBench ..
    · exact uDenied_offBench ..
    · split
      · exact UStep.met_offBench ..
      · dsimp only
        split
        · rfl
        · rfl
        · rfl
        · exact UStep.met_offBench ..

theorem uRead_offBench (fuel va n : Nat) (u : UStep) : offBench (uRead fuel va n u).2.st = offBench u.st := by
  induction fuel generalizing va n u with
  | zero => rfl
  | succ fuel ih =>
    unfold uRead
    dsimp only
    split
    · rfl
    · rw [ih, uReadLine, uReadAs_offBench]

theorem uGet_offBench (va n : Nat) (u : UStep) : offBench (uGet va n u).2.st = offBench u.st := uRead_offBench ..

/-! #### Transactions that are opened -/

/-- y is the transaction x, but for whether and how it has left. -/
def Txn.Sends (x y : Txn) : Prop := y = { x with sent := y.sent, resentAt := y.resentAt, hop := y.hop }

/-- What is found in a table at or after a key just written is what was written. -/
theorem Tab.findIn_putIn_first {α : Type} {p : Nat × α → Bool} {k : Nat} {v : α} {c : Nat × α} (l : List (Nat × α))
    (hp : p (k, v) = true) (h : (Tab.putIn l k v).find? p = some c) (hc : c.1 = k) : c.2 = v := by
  induction l with
  | nil =>
    simp only [Tab.putIn, List.find?_cons, hp, Option.some.injEq] at h
    rw [← h]
  | cons d l ih =>
    obtain ⟨k', v'⟩ := d
    simp only [Tab.putIn] at h
    split at h
    · simp only [List.find?_cons, hp, Option.some.injEq] at h
      rw [← h]
    · split at h
      · simp only [List.find?_cons, hp, Option.some.injEq] at h
        rw [← h]
      next hne =>
        rw [List.find?_cons] at h
        split at h
        · cases h
          exact absurd hc.symm hne
        · exact ih h

theorem sendFlits_txns (lp vc n : Nat) (s : State) : (sendFlits lp vc n s).links.txns = s.links.txns := by
  rw [sendFlits]
  split <;> rfl

theorem leaveTxn_txns (id : Nat) (x : Txn) (s : State) :
    ∃ y, x.Sends y ∧ (leaveTxn id x s).links.txns = s.links.txns.put id y := by
  refine ⟨{ x with sent := true, resentAt := s.time.now, hop := if x.peer then nextHop s x.conn x.node else none }, rfl, ?_⟩
  unfold leaveTxn
  dsimp only
  generalize (if x.peer then nextHop s x.conn x.node else none) = h
  cases h with
  | none => rfl
  | some p => exact sendFlits_txns ..

/-- The transaction of a connection that has just been opened stands in the table, whether it has left or not. -/
theorem pumpConn_find (conn id : Nat) {x : Txn} {l : Tab Txn} {s : State} (hs : s.links.txns = l.put id x) (hconn : x.conn = conn)
    (hsent : x.sent = false) : ∃ y, (pumpConn conn 1 s).links.txns.find id = some y ∧ x.Sends y := by
  have hself : s.links.txns.find id = some x := by rw [hs, Tab.find_put_self]
  unfold pumpConn
  split
  · exact ⟨x, hself, rfl⟩
  next c hc =>
    split
    · obtain ⟨y, hy, htxns⟩ := leaveTxn_txns c.1 c.2 s
      simp only [pumpConn, htxns]
      by_cases hid : c.1 = id
      · have hc2 : c.2 = x := by
          rw [hs] at hc
          exact Tab.findIn_putIn_first l.cells (by simp [hconn, hsent]) hc hid
        rw [hid, Tab.find_put_self, ← hc2]
        exact ⟨y, rfl, hy⟩
      · rw [Tab.find_put_of_ne _ _ (Ne.symm hid)]
        exact ⟨x, hself, rfl⟩
    · exact ⟨x, hself, rfl⟩

/-- A transaction over the connection of a front-end that is accepted: its place, its bytes and its owner. -/
theorem openTxn_frontend (x : Queue) (at_ len : Nat) (read : Bool) (bytes : List Byte) (owner : TOwner) (s : State) :
    ∃ y, (openTxn (ringPlace x at_) len read bytes owner s).2.links.txns.find s.links.nextTxn = some y ∧ y.read = read ∧
      y.owner = owner ∧ y.conn = x.conn ∧ y.rkey = x.rkey ∧ y.addr = at_ ∧ y.len = len ∧ y.bytes = bytes := by
  unfold openTxn openTxnWith
  extract_lets d k id full busy z s1 s2 s3
  obtain ⟨y, hfind, hy⟩ := pumpConn_find d.1 id (x := z) (l := s3.links.txns)
    (s := { s3 with links := { s3.links with txns := s3.links.txns.put id z, nextTxn := id + 1 } }) rfl rfl rfl
  rw [hy] at hfind
  exact ⟨_, hfind, rfl, rfl, rfl, rfl, rfl, rfl, rfl⟩

theorem openTxn_unsent (xl : Xl) (len : Nat) (read : Bool) (bytes : List Byte) (owner : TOwner) (s : State) :
    unsent (openTxn xl len read bytes owner s).2 = unsent s := openTxnWith_unsent ..

/-! #### COMMAND_FETCH and SEQ_REREAD -/

/-- The queue whose fetching is not held by the bound on commands in flight. -/
def unheld (q : Nat) (s : State) : State := setQueue q { queueOf s q with held := false } s

/-- The commands that a queue may fetch at once. -/
def fetchCount (x : Queue) : Nat := min 16 (min (ahead x.tail x.head) (256 - inflight x))

/-- A queue has something to fetch, and may. -/
def FetchStands (s : State) (q : Nat) : Prop :=
  (queueOf s q).st = .opened ∧ (queueOf s q).reread = none ∧ (queueOf s q).tail ≠ (queueOf s q).head ∧
  inflight (queueOf s q) < 256

theorem FetchStands.may {s : State} {q : Nat} (h : FetchStands s q) :
    ¬((queueOf s q).st ≠ .opened ∨ (queueOf s q).reread.isSome = true ∨ (queueOf s q).tail = (queueOf s q).head) ∧
    ¬inflight (queueOf s q) ≥ 256 := by
  obtain ⟨hst, hreread, hne, hroom⟩ := h
  simp [hst, hreread, hne, hroom]

theorem queueOf_unheld (q : Nat) (s : State) : queueOf (unheld q s) q = { queueOf s q with held := false } :=
  queueOf_setQueue_self ..

theorem ringSlots_congr {s t : State} {q : Nat} (hl : t.links = s.links) (hg : (queueOf t q).gen = (queueOf s q).gen) :
    ringSlots t q = ringSlots s q := by
  simp only [ringSlots, ringAnswer, hl, hg]

theorem ringSlots_unheld (q : Nat) (s : State) : ringSlots (unheld q s) q = ringSlots s q :=
  ringSlots_congr rfl (by rw [queueOf_unheld])

theorem exec_commandFetch_device {q : Nat} {s : State} (h : FetchStands s q) (hloc : (queueOf s q).ringLoc ≠ 1)
    (hread : ∀ u, readSlot q (unheld q s) ≠ .waits u) :
    exec (.commandFetch q) s = .next (fetchDevice q (fetchCount (queueOf s q)) (unheld q s)) := by
  obtain ⟨hstands, hroom⟩ := h.may
  change execCommandFetch q s = _
  unfold execCommandFetch
  extract_lets x n t
  rw [if_neg hstands, if_neg hroom, if_neg hloc]
  split
  next u hu => exact absurd hu (hread u)
  · rfl

theorem exec_commandFetch_ring {q : Nat} {s : State} (h : FetchStands s q) (hloc : (queueOf s q).ringLoc = 1)
    (hepoch : epochStands s (queueOf s q) = true) : exec (.commandFetch q) s =
      match ringSlots s q with
      | some slots => .next (fetchRemote q slots (dropArrived (.ring q) (unheld q s)))
      | none => askRing q (fetchCount (queueOf s q)) (unheld q s) := by
  obtain ⟨hstands, hroom⟩ := h.may
  change execCommandFetch q s = _
  unfold execCommandFetch
  extract_lets x n t
  have hepoch' : ¬(!epochStands s x) = true := by
    rw [show epochStands s x = true from hepoch]
    decide
  rw [if_neg hstands, if_neg hroom, if_pos hloc, if_neg hepoch', ← ringSlots_unheld q s]
  rfl

theorem askRing_asks {q n : Nat} {s : State} (h : ringOut s q = false) : askRing q n s = .next (openTxn (ringPlace (queueOf s q)
    ((queueOf s q).ringAddr + cmdBytes (queueOf s q).gen * ((queueOf s q).head % (queueOf s q).ringEntries)))
    (cmdBytes (queueOf s q).gen * ringSpan (queueOf s q) n) true [] (.ring q) s).2 := by
  simp only [askRing, h, Bool.false_eq_true, if_false]

/-- The read of a slot that brings a command leaves the queues and the time. -/
theorem readSlot_got {q raw : Nat} {s t : State} (h : readSlot q s = .got raw t) : t.queues = s.queues ∧ t.time = s.time := by
  unfold readSlot at h
  dsimp only at h
  split at h
  · cases h
  split at h
  · cases h
  split at h
  · cases h
  split at h
  · cases h
  cases h
  have hoff := uGet_offBench ((queueOf s q).ringAddr + cmdBytes (queueOf s q).gen * ((queueOf s q).head % (queueOf s q).ringEntries))
    (cmdBytes (queueOf s q).gen) { UStep.start (queueOf s q).ctx 0 10 s with owner := .ring q }
  have hqueues := queues_of_offBench hoff
  have htime := time_of_offBench hoff
  exact ⟨hqueues, htime⟩

theorem handOver_queue (q : Nat) (f : Fetched) (s : State) :
    queueOf (handOver q f s) q = { queueOf s q with live := (queueOf s q).live ++ [f.seq] } ∧ (handOver q f s).time = s.time :=
  ⟨queueOf_setQueue_self .., rfl⟩

theorem takeCommand_fetched {q raw : Nat} {s : State} (hk : (queueOf s q).killed = [])
    (ha : ¬((queueOf s q).gen = 2 ∧ fld raw 0 1 = 0x0C ∧ fld raw 2 1 = 2)) : takeCommand q raw s =
      setQueue q { queueOf s q with head := ((queueOf s q).head + 1) % 2 ^ 32
                                    fetched := (queueOf s q).fetched ++ [{ seq := (queueOf s q).head, raw := raw }] } s := by
  unfold takeCommand
  extract_lets x f y
  have hno : x.killed.contains f.seq = false := by
    rw [show x.killed = [] from hk]
    rfl
  rw [hno, if_neg Bool.false_ne_true, if_neg ha]

theorem takeCommand_abort {q raw : Nat} {s : State} (hk : (queueOf s q).killed = [])
    (ha : (queueOf s q).gen = 2 ∧ fld raw 0 1 = 0x0C ∧ fld raw 2 1 = 2) : takeCommand q raw s =
      handOver q { seq := (queueOf s q).head, raw := raw }
        (setQueue q { queueOf s q with head := ((queueOf s q).head + 1) % 2 ^ 32 } s) := by
  unfold takeCommand
  extract_lets x f y
  have hno : x.killed.contains f.seq = false := by
    rw [show x.killed = [] from hk]
    rfl
  rw [hno, if_neg Bool.false_ne_true, if_pos ha]

/-- Where a command is taken, the head goes on; the queue's state and its second read stay. -/
theorem takeCommand_spec {q raw : Nat} {s : State} (hk : (queueOf s q).killed = []) :
    (queueOf (takeCommand q raw s) q).head = ((queueOf s q).head + 1) % 2 ^ 32 ∧
    (queueOf (takeCommand q raw s) q).st = (queueOf s q).st ∧ (queueOf (takeCommand q raw s) q).reread = (queueOf s q).reread ∧
    (takeCommand q raw s).time = s.time := by
  by_cases ha : (queueOf s q).gen = 2 ∧ fld raw 0 1 = 0x0C ∧ fld raw 2 1 = 2
  · rw [takeCommand_abort hk ha]
    obtain ⟨hqueue, htime⟩ := handOver_queue q { seq := (queueOf s q).head, raw := raw }
      (setQueue q { queueOf s q with head := ((queueOf s q).head + 1) % 2 ^ 32 } s)
    rw [hqueue, htime, queueOf_setQueue_self]
    exact ⟨rfl, rfl, rfl, rfl⟩
  · rw [takeCommand_fetched hk ha, queueOf_setQueue_self]
    exact ⟨rfl, rfl, rfl, rfl⟩

/-- One slot is read, and judged. -/
theorem exec_commandFetch_one {q raw : Nat} {s : State} (h : FetchStands s q)
    (hone : ahead (queueOf s q).tail (queueOf s q).head = 1)
    (hslot : ((queueOf s q).ringLoc = 1 ∧ epochStands s (queueOf s q) = true ∧ ringSlots s q = some [raw]) ∨
      ((queueOf s q).ringLoc ≠ 1 ∧ ∃ u, readSlot q (unheld q s) = .got raw u)) :
    ∃ v, exec (.commandFetch q) s = .next (takeSlot q raw v).2 ∧ queueOf v q = { queueOf s q with held := false } ∧
      v.time = s.time := by
  have hcount : fetchCount (queueOf s q) = 1 := by
    have := h.2.2.2
    rw [fetchCount, hone]
    omega
  rcases hslot with ⟨hloc, hepoch, hslots⟩ | ⟨hloc, u, hu⟩
  · refine ⟨dropArrived (.ring q) (unheld q s), ?_, queueOf_unheld .., rfl⟩
    rw [exec_commandFetch_ring h hloc hepoch, hslots]
    simp only [fetchRemote, ite_self]
  · obtain ⟨hqueues, htime⟩ := readSlot_got hu
    refine ⟨u, ?_, (queueOf_congr hqueues q).trans (queueOf_unheld ..), htime⟩
    rw [exec_commandFetch_device h hloc (fun v => by rw [hu]; simp), hcount]
    simp only [fetchDevice, hu, ite_self]

/-- One slot is read the second time, and judged. -/
theorem exec_seqReread {q slot since : Nat} {rest : List Nat} {s : State} (hre : (queueOf s q).reread = some since)
    (hslot : ((queueOf s q).ringLoc = 1 ∧ ringSlots s q = some (slot :: rest)) ∨
      ((queueOf s q).ringLoc ≠ 1 ∧ ∃ u, readSlot q (atLeast (since + 1000) s) = .got slot u)) :
    ∃ v, exec (.seqReread q) s = .next (judgeSlot q slot v) ∧ queueOf v q = queueOf s q ∧ since + 1000 ≤ v.time.now := by
  have hnow : since + 1000 ≤ (atLeast (since + 1000) s).time.now := Nat.le_max_right ..
  rcases hslot with ⟨hloc, hslots⟩ | ⟨hloc, u, hu⟩
  · refine ⟨dropArrived (.ring q) (atLeast (since + 1000) s), ?_, rfl, hnow⟩
    have hslots' : ringSlots (atLeast (since + 1000) s) q = some (slot :: rest) := hslots
    change execSeqReread q s = _
    simp only [execSeqReread, hre, hloc, hslots', if_true]
  · obtain ⟨hqueues, htime⟩ := readSlot_got hu
    refine ⟨u, ?_, queueOf_congr hqueues q, by rwa [htime]⟩
    change execSeqReread q s = _
    simp only [execSeqReread, hre, hloc, hu, if_false]

theorem endFetch_queue (q : Nat) (s : State) :
    queueOf (endFetch q s) q = { queueOf s q with reread := none, held := false } ∧ (endFetch q s).time = s.time :=
  ⟨queueOf_setQueue_self .., rfl⟩

theorem addRecord_time (q : Nat) (r : CplRec) (s : State) : (addRecord q r s).time = s.time := by
  have hstall : (if cplFull (queueOf s q) then bump K.cplRingStalls 1 s else s).time = s.time := by
    split
    · exact bump_time ..
    · rfl
  exact hstall

/-- The record that names the SEQ that a queue expected as its fetching ended. -/
def stopRecord (st : Status) (op tag q : Nat) (s : State) : CplRec :=
  { seq := (queueOf s q).head, status := st, opcode := op, tag := tag, detail := 0, time := timeOfDay s }

/-- The state in which a queue's fetching has ended, before its last record. -/
def fetchEnded (st : Status) (q : Nat) (s : State) : State :=
  raise 0x50 10 (statusCode st) q (endFetch q (setQueue q { queueOf s q with st := .stopped, status := statusCode st } s))

theorem stopFetch_eq {q : Nat} {st : Status} {op tag : Nat} {s : State} (hk : (queueOf s q).killed = [])
    (hdead : (queueOf s q).cplDead = false) :
    stopFetch q st op tag s = addRecord q (stopRecord st op tag q s) (fetchEnded st q s) := by
  have hnone : (queueOf (addRecord q (stopRecord st op tag q s) (fetchEnded st q s)) q).killed = [] := by
    have hend := (endFetch_queue q (setQueue q { queueOf s q with st := .stopped, status := statusCode st } s)).1
    rw [queueOf_setQueue_self] at hend
    rw [queueOf_addRecord_self]
    exact (congrArg Queue.killed hend).trans hk
  have hstop : stopFetch q st op tag s = finishKilled q (addRecord q (stopRecord st op tag q s) (fetchEnded st q s)) := by
    unfold stopFetch
    extract_lets x code t
    rw [if_neg (by rw [show x.cplDead = false from hdead]; decide)]
    rfl
  rw [hstop, finishKilled, hnone, List.foldl_nil]

/-- Fetching ends: the queue is STOPPED, and its last record names the SEQ expected. -/
theorem stopFetch_spec {q : Nat} {st : Status} {op tag : Nat} {s : State} (hk : (queueOf s q).killed = [])
    (hdead : (queueOf s q).cplDead = false) :
    ∃ r, queueOf (stopFetch q st op tag s) q = { queueOf s q with
        st := .stopped, status := statusCode st, reread := none, held := false, cplWait := (queueOf s q).cplWait ++ [r] } ∧
      r.seq = (queueOf s q).head ∧ r.status = st ∧ (stopFetch q st op tag s).time = s.time := by
  have hend := (endFetch_queue q (setQueue q { queueOf s q with st := .stopped, status := statusCode st } s)).1
  rw [queueOf_setQueue_self] at hend
  have hstop := stopFetch_eq (st := st) (op := op) (tag := tag) hk hdead
  refine ⟨stopRecord st op tag q s, ?_, rfl, rfl, ?_⟩
  · rw [hstop, queueOf_addRecord_self]
    exact congrArg (fun x : Queue => { x with cplWait := x.cplWait ++ [stopRecord st op tag q s] }) hend
  · rw [hstop, addRecord_time]
    rfl

/-- What the second read of a slot leads to. -/
theorem judgeSlot_spec {q raw : Nat} {s : State} (hk : (queueOf s q).killed = []) (hdead : (queueOf s q).cplDead = false) :
    (judgeSlot q raw s).time = s.time ∧ (queueOf (judgeSlot q raw s) q).reread = none ∧
    (fld raw 4 4 ≠ (queueOf s q).head → (queueOf (judgeSlot q raw s) q).st = .stopped ∧
      (queueOf (judgeSlot q raw s) q).status = 0x12 ∧
      ∃ r, (queueOf (judgeSlot q raw s) q).cplWait = (queueOf s q).cplWait ++ [r] ∧ r.seq = (queueOf s q).head ∧
        r.status = .descriptorInvalid) ∧
    (fld raw 4 4 = (queueOf s q).head → (queueOf (judgeSlot q raw s) q).head = ((queueOf s q).head + 1) % 2 ^ 32 ∧
      (queueOf (judgeSlot q raw s) q).st = (queueOf s q).st) := by
  have hself := queueOf_setQueue_self q { queueOf s q with reread := none } s
  have hk' := (congrArg Queue.killed hself).trans hk
  have hdead' := (congrArg Queue.cplDead hself).trans hdead
  unfold judgeSlot
  by_cases hseq : fld raw 4 4 = (queueOf s q).head
  · obtain ⟨hhead, hst, hreread, htime⟩ := takeCommand_spec (raw := raw) hk'
    rw [hself] at hhead hst hreread
    simp only [hseq, if_true, ne_eq, not_true_eq_false, false_imp_iff, true_imp_iff, true_and]
    exact ⟨htime, hreread, hhead, hst⟩
  · obtain ⟨r, hqueue, hr, hstatus, htime⟩ :=
      stopFetch_spec (st := .descriptorInvalid) (op := fld raw 0 1) (tag := fld raw 8 8) hk' hdead'
    rw [hself] at hqueue hr
    simp only [hseq, if_false, ne_eq, not_false_eq_true, false_imp_iff, true_imp_iff, and_true, hqueue]
    exact ⟨htime, trivial, trivial, by decide, r, rfl, hr, hstatus⟩

/-! #### COMMAND_START -/

/-- The command that is handed to its unit. -/
def handedJob (x : Queue) (f : Fetched) : Job :=
  { opcode := fld f.raw 0 1, gen := x.gen, tag := fld f.raw 8 8, ctx := x.ctx, quiet := bit (fld f.raw 1 1) 1, raw := f.raw
    staged := false, phase := .handed, outs := [], detail := startDetail x.gen (fld f.raw 0 1), mute := false, gone := false
    counted := 0 }

/-- The queue whose first fetched command has left. -/
def startedQueue (q : Nat) (rest : List Fetched) (s : State) : State := setQueue q { queueOf s q with fetched := rest } s

theorem exec_commandStart {q : Nat} {f : Fetched} {rest : List Fetched} {s : State} (hf : (queueOf s q).fetched = f :: rest)
    (hfree : (queueOf s q).live.any (holdsQueue s q) = false) (hok : headerOk (queueOf s q) f.raw = true)
    (hno : isFence (queueOf s q) f.raw = false) :
    exec (.commandStart q) s = .next (handOver q f (startedQueue q rest s)) := by
  have hskip : bit (fld f.raw 1 1) 2 = false := by
    simp only [headerOk, Bool.and_eq_true, Bool.or_eq_true, Bool.not_eq_true'] at hok
    simp only [isFence, Bool.or_eq_false_iff] at hno
    obtain ⟨⟨-, hskip⟩, -⟩ := hok
    exact hskip.resolve_right (by simp [hno.1])
  change execCommandStart q s = _
  simp only [execCommandStart, hf, hfree, hok, hno, hskip, Bool.not_true, Bool.false_and, Bool.false_eq_true, if_false]
  rfl

theorem handOver_startedQueue (q : Nat) (f : Fetched) (rest : List Fetched) (s : State) :
    (handOver q f (startedQueue q rest s)).jobs.find (jobKey q f.seq) = some (handedJob (queueOf s q) f) ∧
    queueOf (handOver q f (startedQueue q rest s)) q =
      { queueOf s q with fetched := rest, live := (queueOf s q).live ++ [f.seq] } := by
  have hself : queueOf (startedQueue q rest s) q = { queueOf s q with fetched := rest } := queueOf_setQueue_self ..
  constructor
  · have hjob : (handOver q f (startedQueue q rest s)).jobs.find (jobKey q f.seq) =
        some (handedJob (queueOf (startedQueue q rest s) q) f) := Tab.find_put_self ..
    rw [hjob, hself]
    rfl
  · rw [(handOver_queue ..).1, hself]

theorem exec_commandStart_refused {q : Nat} {f : Fetched} {rest : List Fetched} {s : State}
    (hf : (queueOf s q).fetched = f :: rest) (hfree : (queueOf s q).live.any (holdsQueue s q) = false)
    (hok : headerOk (queueOf s q) f.raw = false) :
    exec (.commandStart q) s = .next (completeRaw q f .descriptorInvalid (startedQueue q rest s)) := by
  change execCommandStart q s = _
  simp only [execCommandStart, hf, hfree, hok, Bool.not_false, Bool.false_eq_true, if_false, if_true]
  rfl

theorem countCompleted_mem (gen op : Nat) (s : State) : (countCompleted gen op s).mem = s.mem := (bump_mem ..).trans (bump_mem ..)

theorem addRecord_mem (q : Nat) (r : CplRec) (s : State) : (addRecord q r s).mem = s.mem := by
  have hstall : (if cplFull (queueOf s q) then bump K.cplRingStalls 1 s else s).mem = s.mem := by
    split
    · exact bump_mem ..
    · rfl
  exact hstall

/-- A command that is not handed over completes: its record waits. -/
theorem completeRaw_spec {q : Nat} {f : Fetched} {st : Status} {s : State} (hdead : (queueOf s q).cplDead = false) :
    ∃ r, queueOf (completeRaw q f st s) q = { queueOf s q with
        results := (queueOf s q).results ++ [(f.seq, st)], cplWait := (queueOf s q).cplWait ++ [r] } ∧ r.seq = f.seq ∧
      r.status = st ∧ (completeRaw q f st s).jobs = s.jobs ∧ (completeRaw q f st s).mem = s.mem := by
  obtain ⟨hjobs, hqueues⟩ := countCompleted_jobs (queueOf s q).gen (fld f.raw 0 1)
    (setQueue q { queueOf s q with results := (queueOf s q).results ++ [(f.seq, st)] } s)
  have hmem := countCompleted_mem (queueOf s q).gen (fld f.raw 0 1)
    (setQueue q { queueOf s q with results := (queueOf s q).results ++ [(f.seq, st)] } s)
  have hself := (queueOf_congr hqueues q).trans (queueOf_setQueue_self ..)
  unfold completeRaw completeWith
  extract_lets x op t
  rw [if_neg (by rw [show x.cplDead = false from hdead]; decide)]
  refine ⟨{ seq := f.seq, status := st, opcode := op, tag := fld f.raw 8 8
            detail := startDetail (queueOf s q).gen (fld f.raw 0 1), time := timeOfDay s },
    (queueOf_addRecord_self ..).trans ?_, rfl, rfl, (addRecord_jobs ..).trans hjobs, (addRecord_mem ..).trans hmem⟩
  have ht : queueOf t q = { queueOf s q with results := (queueOf s q).results ++ [(f.seq, st)] } := hself
  rw [ht]

/-! #### COMPLETION_RECORD_WRITE -/

/-- The queue whose first waiting record goes to the next slot of the completion ring. -/
def recordTaken (q : Nat) (rest : List CplRec) (s : State) : State :=
  setQueue q { queueOf s q with cplWait := rest, cplWritten := ((queueOf s q).cplWritten + 1) % 2 ^ 32 } s

/-- The place of a queue's next completion record. -/
def recordPlace (x : Queue) : Nat := x.cplAddr + 32 * (x.cplWritten % x.cplEntries)

theorem exec_completionRecordWrite_ring {q : Nat} {r : CplRec} {rest : List CplRec} {s : State}
    (hw : (queueOf s q).cplWait = r :: rest)
    (hroom : ahead (queueOf s q).cplWritten (queueOf s q).cplHead < (queueOf s q).cplEntries) (hloc : (queueOf s q).ringLoc = 1)
    (hepoch : epochStands s (queueOf s q) = true) : exec (.completionRecordWrite q) s =
      .next (openTxn (ringPlace (queueOf s q) (recordPlace (queueOf s q))) 32 false
        (toBytes 32 (recordBytes q (queueOf s q).cplWritten (queueOf s q).cplEntries r)) (.record q) (recordTaken q rest s)).2 := by
  change execCompletionRecordWrite q s = _
  unfold execCompletionRecordWrite
  simp only [hw]
  rw [if_neg (Nat.not_le.2 hroom), if_pos hloc, if_neg (by rw [hepoch]; decide)]
  rfl

theorem exec_completionRecordWrite_device {q : Nat} {r : CplRec} {rest : List CplRec} {u : UStep} {s : State}
    (hw : (queueOf s q).cplWait = r :: rest)
    (hroom : ahead (queueOf s q).cplWritten (queueOf s q).cplHead < (queueOf s q).cplEntries) (hloc : (queueOf s q).ringLoc ≠ 1)
    (hu : u = uPut (recordPlace (queueOf s q)) 32 (recordBytes q (queueOf s q).cplWritten (queueOf s q).cplEntries r)
      { UStep.start (queueOf s q).ctx 0 10 (recordTaken q rest s) with owner := .record q })
    (hheld : u.held = false) (hfault : u.fault = none) :
    exec (.completionRecordWrite q) s = .next (dropArrived (.record q) u.st) := by
  unfold recordTaken recordPlace at hu
  change execCompletionRecordWrite q s = _
  unfold execCompletionRecordWrite
  simp only [hw]
  rw [if_neg (Nat.not_le.2 hroom), if_neg hloc, ← hu]
  simp only [hheld, hfault, Bool.false_eq_true, if_false]

/-- Settles O45. -/
theorem commandsAreFetchedStartedAndRecorded : Obligations.CommandsAreFetchedStartedAndRecorded := by
  unfold Obligations.CommandsAreFetchedStartedAndRecorded
  refine ⟨fun q s hst hre hne hroom hloc hread => ?_, fun q s hst hre hne hroom hloc hepoch hslots hout => ?_,
    fun q raw s hst hre hone hne hroom hk hslot => ?_, fun q slot since rest s hre hslot hk hdead => ?_,
    fun q f rest s hf hfree hok hno => ?_, fun q f rest s hf hfree hok hdead => ?_,
    fun q r rest s hw hroom hloc hepoch => ?_, fun q r rest u s hw hroom hloc hu hheld hfault => ?_⟩
  · exact exec_commandFetch_device ⟨hst, hre, hne, hroom⟩ hloc hread
  · have hask := askRing_asks (q := q) (n := fetchCount (queueOf s q)) (s := unheld q s) hout
    obtain ⟨y, hfind, hread, howner, hconn, hrkey, haddr, hlen, -⟩ := openTxn_frontend (queueOf (unheld q s) q)
      ((queueOf (unheld q s) q).ringAddr + cmdBytes (queueOf (unheld q s) q).gen *
        ((queueOf (unheld q s) q).head % (queueOf (unheld q s) q).ringEntries))
      (cmdBytes (queueOf (unheld q s) q).gen * ringSpan (queueOf (unheld q s) q) (fetchCount (queueOf s q))) true [] (.ring q)
      (unheld q s)
    have hkept := openTxn_unsent (ringPlace (queueOf (unheld q s) q)
      ((queueOf (unheld q s) q).ringAddr + cmdBytes (queueOf (unheld q s) q).gen *
        ((queueOf (unheld q s) q).head % (queueOf (unheld q s) q).ringEntries)))
      (cmdBytes (queueOf (unheld q s) q).gen * ringSpan (queueOf (unheld q s) q) (fetchCount (queueOf s q))) true [] (.ring q)
      (unheld q s)
    have hmem := mem_of_unsent hkept
    have hmedlars := medlars_of_unsent hkept
    rw [queueOf_unheld] at hconn hrkey haddr hlen
    refine ⟨_, y, ?_, hfind, hread, howner, hconn, hrkey, haddr, hlen, hmem, hmedlars⟩
    rw [exec_commandFetch_ring ⟨hst, hre, hne, hroom⟩ hloc hepoch, hslots]
    exact hask
  · obtain ⟨v, hexec, hqueue, htime⟩ := exec_commandFetch_one ⟨hst, hre, hne, hroom⟩ hone hslot
    have hkv : (queueOf v q).killed = [] := by rw [hqueue]; exact hk
    have hhead : (queueOf v q).head = (queueOf s q).head := by rw [hqueue]
    refine ⟨_, hexec, fun hseq => ?_, fun hseq => ?_, fun hseq ha => ?_⟩
    · rw [takeSlot, if_neg (by rwa [hhead]), queueOf_setQueue_self, hqueue, htime]
    · rw [takeSlot, if_pos (by rw [hhead, hseq]), (takeCommand_spec hkv).1, hhead]
    · rw [takeSlot, if_pos (by rw [hhead, hseq]), takeCommand_fetched hkv (by rwa [hqueue]), queueOf_setQueue_self, hqueue]
  · obtain ⟨v, hexec, hqueue, hnow⟩ := exec_seqReread hre hslot
    obtain ⟨htime, hreread, hstop, htake⟩ := judgeSlot_spec (raw := slot) (s := v) (by rwa [hqueue]) (by rwa [hqueue])
    rw [hqueue] at hstop htake
    exact ⟨_, hexec, by rwa [htime], hreread, hstop, htake⟩
  · obtain ⟨hjob, hqueue⟩ := handOver_startedQueue q f rest s
    refine ⟨_, _, exec_commandStart hf hfree hok hno, hjob, rfl, rfl, rfl, rfl, rfl, ?_, ?_, rfl⟩ <;> rw [hqueue]
  · have hself : queueOf (startedQueue q rest s) q = { queueOf s q with fetched := rest } := queueOf_setQueue_self ..
    obtain ⟨r, hqueue, hseq, hstatus, hjobs, hmem⟩ := completeRaw_spec (f := f) (st := .descriptorInvalid)
      (s := startedQueue q rest s) (q := q) (by rw [hself]; exact hdead)
    rw [hself] at hqueue
    refine ⟨_, r, exec_commandStart_refused hf hfree hok, ?_, ?_, hseq, hstatus, hjobs, hmem⟩ <;> rw [hqueue]
  · obtain ⟨y, hfind, hread, -, hconn, -, haddr, -, hbytes⟩ := openTxn_frontend (queueOf s q) (recordPlace (queueOf s q)) 32 false
      (toBytes 32 (recordBytes q (queueOf s q).cplWritten (queueOf s q).cplEntries r)) (.record q) (recordTaken q rest s)
    have hkept := openTxn_unsent (ringPlace (queueOf s q) (recordPlace (queueOf s q))) 32 false
      (toBytes 32 (recordBytes q (queueOf s q).cplWritten (queueOf s q).cplEntries r)) (.record q) (recordTaken q rest s)
    have hmem := mem_of_unsent hkept
    refine ⟨_, y, exec_completionRecordWrite_ring hw hroom hloc hepoch, ?_, hfind, hbytes, haddr, hconn, hread, hmem⟩
    rw [queueOf_congr (openTxn_queues ..), recordTaken, queueOf_setQueue_self]
  · exact exec_completionRecordWrite_device hw hroom hloc hu hheld hfault

end Sys2Proof.Machine

/-! ### Control commands (O46) -/

namespace Sys2Proof.Machine

theorem keyQueue_jobKey (q seq : Nat) : keyQueue (jobKey q seq) = q := by
  rw [keyQueue, jobKey]
  omega

/-- Of the state before a command's completion, only its queue's waiting records, and whether any is still written, count. -/
theorem Completed.of_queue {key : Nat} {o : Status} {d : Nat} {j : Job} {s s' t : State} (h : Completed key o d j s' t)
    (hwait : (queueOf s' (keyQueue key)).cplWait = (queueOf s (keyQueue key)).cplWait)
    (hdead : (queueOf s' (keyQueue key)).cplDead = (queueOf s (keyQueue key)).cplDead) : Completed key o d j s t := by
  obtain ⟨hgone, hlive, hrec⟩ := h
  rw [hwait, hdead] at hrec
  exact ⟨hgone, hlive, hrec⟩

/-! #### What a completed command leaves in its queue -/

/-- The queue that a completed command has left. -/
def leftQueue (key : Nat) (st : Status) (s : State) : Queue :=
  { queueOf s (keyQueue key) with live := (queueOf s (keyQueue key)).live.filter (· != keySeq key)
                                  results := (queueOf s (keyQueue key)).results ++ [(keySeq key, st)] }

/-- The state in which a command has completed, before its record. -/
def commandLeft (key : Nat) (st : Status) (j : Job) (s : State) : State :=
  countCompleted j.gen j.opcode (dropAnswers (fun o => ownerKey o == some key)
    (setQueue (keyQueue key) (leftQueue key st s) { s with jobs := s.jobs.del key }))

theorem commandLeft_spec (key : Nat) (st : Status) (j : Job) (s : State) :
    queueOf (commandLeft key st j s) (keyQueue key) = leftQueue key st s ∧ (commandLeft key st j s).jobs.find key = none := by
  obtain ⟨hjobs, hqueues⟩ := countCompleted_jobs j.gen j.opcode (dropAnswers (fun o => ownerKey o == some key)
    (setQueue (keyQueue key) (leftQueue key st s) { s with jobs := s.jobs.del key }))
  constructor
  · rw [commandLeft, queueOf_congr hqueues]
    exact queueOf_setQueue_self ..
  · rw [commandLeft, hjobs]
    exact Tab.find_del_self ..

theorem finishWith_eq {key : Nat} {st : Status} {j : Job} {s : State} (hj : s.jobs.find key = some j) (hgone : j.gone = false) :
    finishWith key st s =
      if j.mute || (queueOf s (keyQueue key)).cplDead || (j.quiet && (st == .done || st == .doneCorrected)) then
        commandLeft key st j s
      else addRecord (keyQueue key) { seq := keySeq key, status := st, opcode := j.opcode, tag := j.tag, detail := j.detail
                                      time := timeOfDay s } (commandLeft key st j s) := by
  simp only [finishWith, hj, hgone, Bool.false_eq_true, if_false, commandLeft, leftQueue]

/-- A completed command leaves its queue's started commands, its result is kept, and its record waits where one is written. -/
theorem finishWith_left {key : Nat} {st : Status} {j : Job} {s : State} (hj : s.jobs.find key = some j) (hgone : j.gone = false) :
    (finishWith key st s).jobs.find key = none ∧
    ∃ rs, queueOf (finishWith key st s) (keyQueue key) =
        { leftQueue key st s with cplWait := (queueOf s (keyQueue key)).cplWait ++ rs } ∧
      (j.mute = false → (queueOf s (keyQueue key)).cplDead = false → j.quiet = false → ∃ r, rs = [r] ∧
        r.status = st ∧ r.tag = j.tag ∧ r.opcode = j.opcode ∧ r.detail = j.detail) := by
  obtain ⟨hqueue, hnone⟩ := commandLeft_spec key st j s
  have hleft : ∀ r, queueOf (addRecord (keyQueue key) r (commandLeft key st j s)) (keyQueue key) =
      { leftQueue key st s with cplWait := (queueOf s (keyQueue key)).cplWait ++ [r] } := fun r => by
    rw [queueOf_addRecord_self, hqueue]
    rfl
  rw [finishWith_eq hj hgone]
  split
  next hno =>
    refine ⟨hnone, [], ?_, fun hm hd hq => ?_⟩
    · rw [hqueue, List.append_nil]
      rfl
    · simp [hm, hd, hq] at hno
  · exact ⟨(congrArg (fun t : Tab Job => t.find key) (addRecord_jobs ..)).trans hnone, _, hleft _,
      fun _ _ _ => ⟨_, rfl, rfl, rfl, rfl, rfl⟩⟩

/-! #### FENCE, SHOT, INLINE_WRITE, SIGNAL -/

/-- The status of a FENCE: the remote failure of its interval. -/
def fenceStatus (s : State) (q seq : Nat) : Status :=
  if ((intervalResults (queueOf s q) seq).map (·.2)).contains .frontendGone then .frontendGone
  else if ((intervalResults (queueOf s q) seq).map (·.2)).contains .remoteAbandoned then .remoteAbandoned else .done

/-- The state in which a FENCE has begun the next interval. -/
def fenceBegun (q seq : Nat) (s : State) : State := setQueue q (beginInterval seq (queueOf s q)) s

theorem exec_fence {q seq : Nat} {j : Job} {s : State} (hh : handed s q seq 0x08 = some j) :
    exec (.fence q seq) s = .next (finishWith (jobKey q seq) (fenceStatus s q seq)
      (setDetail (jobKey q seq) (intervalLength (queueOf s q) seq) (fenceBegun q seq s))) := by
  change execFence q seq s = _
  simp only [execFence, hh, fenceStatus, fenceBegun]

theorem contains_statuses (rs : List (Nat × Status)) (o : Status) :
    (rs.map (·.2)).contains o = true ↔ ∃ r, r ∈ rs ∧ r.2 = o := by
  rw [List.contains_iff_mem, List.mem_map]

theorem fenceStatus_eq (s : State) (q seq : Nat) : fenceStatus s q seq =
    if ∃ r, r ∈ intervalResults (queueOf s q) seq ∧ r.2 = .frontendGone then .frontendGone
    else if ∃ r, r ∈ intervalResults (queueOf s q) seq ∧ r.2 = .remoteAbandoned then .remoteAbandoned else .done := by
  simp only [fenceStatus, contains_statuses]

theorem fence_completed {q seq : Nat} {j : Job} {s : State} (hh : handed s q seq 0x08 = some j) :
    Completed (jobKey q seq) (fenceStatus s q seq) (intervalLength (queueOf s q) seq % 2 ^ 64) j s
      (finishWith (jobKey q seq) (fenceStatus s q seq)
        (setDetail (jobKey q seq) (intervalLength (queueOf s q) seq) (fenceBegun q seq s))) := by
  have hj : (fenceBegun q seq s).jobs.find (jobKey q seq) = some j := (find_of_handed hh).1
  have hself : queueOf (fenceBegun q seq s) (keyQueue (jobKey q seq)) = beginInterval seq (queueOf s q) := by
    rw [keyQueue_jobKey]
    exact queueOf_setQueue_self ..
  have hdone := finishWith_completed (o := fenceStatus s q seq) (s := fenceBegun q seq s)
    (find_setDetail (d := intervalLength (queueOf s q) seq) hj) (command_withDetail ..)
    (queueOf_congr (setDetail_queues ..) _)
  refine hdone.of_queue ?_ ?_ <;> rw [hself, keyQueue_jobKey] <;> rfl

theorem exec_shot {q seq : Nat} {j : Job} {s : State} (hh : handed s q seq 0x0E = some j) (hz : zeros j.raw 20 255 = true) :
    exec (.shot q seq) s = .next (if (ctxOf s j.ctx).dict
      then finishWith (jobKey q seq) .done (fireShot 1 (nodeId s) (fld j.raw 16 4) s)
      else finishWith (jobKey q seq) .domainDenied s) := by
  change execShot q seq s = _
  simp only [execShot, hh, hz, Bool.not_true, Bool.false_eq_true, if_false]
  cases (ctxOf s j.ctx).dict <;> rfl

theorem exec_inlineWrite {q seq : Nat} {j : Job} {s : State} (hh : handed s q seq 0x0D = some j) (hok : inlineOk j.raw = true)
    (hheld : (inlinePut (fld j.raw 16 8) (fld j.raw 24 2) (fld j.raw 64 (fld j.raw 24 2))
      (UStep.start j.ctx (jobKey q seq) 10 s)).held = false) :
    exec (.inlineWrite q seq) s = .next (finishAcked (jobKey q seq) (ctlClose (inlinePut (fld j.raw 16 8) (fld j.raw 24 2)
      (fld j.raw 64 (fld j.raw 24 2)) (UStep.start j.ctx (jobKey q seq) 10 s)))) := by
  change execInlineWrite q seq s = _
  simp only [execInlineWrite, hh, hok, hheld, Bool.not_true, Bool.false_eq_true, if_false]

theorem exec_signal_write {q seq : Nat} {j : Job} {s : State} (hh : handed s q seq 0x09 = some j) (hok : signalOk j.raw = true)
    (hadd : fld j.raw 32 1 ≠ 2)
    (hheld : (uPut (fld j.raw 16 8) (signalWidth j.raw) (fld j.raw 24 8) (UStep.start j.ctx (jobKey q seq) 10 s)).held = false) :
    exec (.signal q seq) s = .next (finishAcked (jobKey q seq) (ctlClose (uPut (fld j.raw 16 8) (signalWidth j.raw)
      (fld j.raw 24 8) (UStep.start j.ctx (jobKey q seq) 10 s)))) := by
  change execSignal q seq s = _
  simp only [execSignal, hh, hok, beq_eq_false_iff_ne.2 hadd, hheld, Bool.not_true, Bool.false_and, Bool.or_self,
    Bool.false_eq_true, if_false]

theorem exec_signal_add {q seq : Nat} {j : Job} {u : UStep} {s : State} (hh : handed s q seq 0x09 = some j)
    (hok : signalOk j.raw = true) (hadd : fld j.raw 32 1 = 2) (hmay : signalAddOk s j.ctx (fld j.raw 16 8) = true)
    (hu : u = uReduceLine (fld j.raw 16 8 - fld j.raw 16 8 % 128) 0 3
      (BitVec.ofNat 1024 (fld j.raw 24 8 * 2 ^ (8 * (fld j.raw 16 8 % 128)))) (spanMask (fld j.raw 16 8 % 128) 8)
      (UStep.start j.ctx (jobKey q seq) 10 s)) (hheld : u.held = false) :
    exec (.signal q seq) s = .next (finishAcked (jobKey q seq) (ctlClose u)) := by
  change execSignal q seq s = _
  simp only [execSignal, hh, hok, hadd, hmay, ← hu, hheld, beq_self_eq_true, Bool.not_true, Bool.and_false, Bool.or_self,
    Bool.false_eq_true, if_false, if_true]

/-! #### WAIT -/

/-- A WAIT whose read meets its condition ends with the value. -/
theorem waitRead_met {key : Nat} {j : Job} {s : State} {r : Rd × UStep}
    (hr : r = uGet (waitAddr j.raw) 8 (UStep.start j.ctx key 10 s)) (hheld : r.2.held = false) (hfault : r.2.fault = none)
    (hpoison : r.1.poison = false) (hfailed : r.1.failed = false) (hmet : waitTest j.raw r.1.val = true) :
    waitRead key j s = .next (endWait key r.1.val (ctlClose r.2)) := by
  simp only [waitRead, ← hr, hheld, hfault, hpoison, hfailed, hmet, Option.isSome_none, Bool.false_and, Bool.or_self,
    Bool.false_eq_true, if_false, if_true]

theorem exec_wait {q seq : Nat} {j : Job} {s : State} (hh : handed s q seq 0x0A = some j) (hok : waitOk j.raw = true) :
    exec (.wait q seq) s = waitRead (jobKey q seq) j s := by
  change execWait q seq s = _
  simp only [execWait, hh, hok, Bool.not_true, Bool.false_eq_true, if_false]

theorem exec_wait_hit {q seq v : Nat} {w : Watch} {j : Job} {s : State} (hh : handed s q seq 0x0A = none)
    (hw : s.mem.watches.find (jobKey q seq) = some w) (hj : s.jobs.find (jobKey q seq) = some j) (hhit : w.hit = some (v, false)) :
    exec (.wait q seq) s = .next (endWait (jobKey q seq) v s) := by
  change execWait q seq s = _
  simp only [execWait, hh, hw, hj, hhit]

theorem exec_waitPoll {q seq : Nat} {j : Job} {s : State} (hj : s.jobs.find (jobKey q seq) = some j) (hp : j.phase = .running)
    (hop : opGen2 j.gen j.opcode = some 0x0A) (hw : s.mem.watches.find (jobKey q seq) = none) :
    exec (.waitPoll q seq) s = waitRead (jobKey q seq) j (atLeast (j.detail + dv s K.waitPollNs) s) := by
  change execWaitPoll q seq s = _
  simp only [execWaitPoll, hj, hp, hop, hw, beq_self_eq_true, Option.isNone_none, Bool.and_self, if_true]

/-- A WAIT that ends is watched no more, and its command completes with the value. -/
theorem endWait_spec {key v : Nat} {j : Job} {s : State} (hj : s.jobs.find key = some j) :
    (endWait key v s).mem.watches.find key = none ∧ Completed key (statusOf j.outs) (v % 2 ^ 64) j s (endWait key v s) := by
  have hoff : offJobs (endWait key v s) = offJobs (dropWatch key s) := (finishJob_offJobs ..).trans (setDetail_offJobs ..)
  have hmem := memoryKept_of_offJobs hoff
  have hj' : (dropWatch key s).jobs.find key = some j := hj
  have hdone := finishJob_completed (s := s) (find_setDetail (d := v) hj') (command_withDetail ..)
    (queueOf_congr (setDetail_queues ..) _)
  refine ⟨?_, hdone⟩
  have hwatches : (endWait key v s).mem.watches = s.mem.watches.del key := (congrArg MemSys.watches hmem :)
  rw [hwatches, Tab.find_del_self]

/-! #### ABORT -/

theorem exec_abort {q seq : Nat} {j : Job} {s : State} (hh : handed s q seq 0x0C = some j) (h1 : fld j.raw 1 1 &&& 0xFD = 0)
    (h3 : fld j.raw 3 1 = 0) (hq : fld j.raw 16 2 < 1024) (hz : zeros j.raw 18 19 = true) (hz' : zeros j.raw 24 255 = true)
    (hown : (ctxOf s j.ctx).domain = 0 ∨
      (ctxOf s j.ctx).domain = (ctxOf s (bits (dv s (qKey (fld j.raw 16 2) 2)) 0 12)).domain) :
    exec (.abort q seq) s = .next (finishWith (jobKey q seq)
      (abortTarget (fld j.raw 16 2) (fld j.raw 20 4) (setDetail (jobKey q seq) (abortDetail j.raw) s)).1
      (abortTarget (fld j.raw 16 2) (fld j.raw 20 4) (setDetail (jobKey q seq) (abortDetail j.raw) s)).2) := by
  have hmay : ((ctxOf s j.ctx).domain != 0 &&
      (ctxOf s j.ctx).domain != (ctxOf s (bits (dv s (0x940000 + 256 * fld j.raw 16 2 + 2)) 0 12)).domain) = false := by
    rw [Bool.and_eq_false_iff, bne_eq_false_iff_eq, bne_eq_false_iff_eq]
    exact hown
  change execAbort q seq s = _
  simp only [execAbort, hh, h1, h3, hq, hz, hz', hmay, decide_true, beq_self_eq_true, Bool.and_self, Bool.not_true,
    Bool.false_eq_true, if_false]

/-- The queue from which an ABORT has taken a command that was only fetched. -/
def unfetched (x : Queue) (f : Fetched) (seq : Nat) : Queue :=
  { x with fetched := x.fetched.filter (fun g => g.seq != seq)
           fences := if headerOk x f.raw && isFence x f.raw then x.fences ++ [seq] else x.fences }

theorem abortTarget_fetched {tq ts : Nat} {f : Fetched} {s : State} (hst : (queueOf s tq).st = .opened)
    (ht : notBehind ts (queueOf s tq).tail = false) (hf : ((queueOf s tq).fetched.find? fun g => g.seq == ts) = some f) :
    abortTarget tq ts s = (.done, completeRaw tq f .aborted (setQueue tq (unfetched (queueOf s tq) f ts) s)) := by
  simp only [abortTarget, hst, ht, abortFetched, hf, reduceCtorEq, Bool.false_eq_true, if_false, unfetched]

/-- What a command that is not handed over leaves in its queue as it completes, whether a record is written or not. -/
theorem completeRaw_queue (q : Nat) (f : Fetched) (st : Status) (s : State) :
    (queueOf (completeRaw q f st s) q).results = (queueOf s q).results ++ [(f.seq, st)] ∧
    (queueOf (completeRaw q f st s) q).fetched = (queueOf s q).fetched ∧ (completeRaw q f st s).jobs = s.jobs := by
  by_cases hdead : (queueOf s q).cplDead = true
  · obtain ⟨hjobs, hqueues⟩ := countCompleted_jobs (queueOf s q).gen (fld f.raw 0 1)
      (setQueue q { queueOf s q with results := (queueOf s q).results ++ [(f.seq, st)] } s)
    have hself := (queueOf_congr hqueues q).trans (queueOf_setQueue_self ..)
    unfold completeRaw completeWith
    extract_lets x op t
    rw [if_pos hdead]
    have ht : queueOf t q = { queueOf s q with results := (queueOf s q).results ++ [(f.seq, st)] } := hself
    rw [ht]
    exact ⟨rfl, rfl, hjobs⟩
  · obtain ⟨r, hqueue, -, -, hjobs, -⟩ := completeRaw_spec (f := f) (st := st) (Bool.not_eq_true _ ▸ hdead)
    rw [hqueue]
    exact ⟨rfl, rfl, hjobs⟩

/-- Settles O46. -/
theorem controlCommandsComplete : Obligations.ControlCommandsComplete := by
  unfold Obligations.ControlCommandsComplete
  refine ⟨fun q seq j s hh => ?_, fun key st j s hj hgone => ?_, fun q seq j s hh => ?_, fun q seq j s hh hz hd => ?_,
    fun q seq j s hh hz hd => ?_, fun q seq j s hh hok hheld => exec_inlineWrite hh hok hheld,
    fun q seq j s hh hok hadd hheld => exec_signal_write hh hok hadd hheld,
    fun q seq j u s hh hok hadd hmay hu hheld => exec_signal_add hh hok hadd hmay hu hheld,
    fun q seq j s r hh hok hr hheld hfault hpoison hfailed hmet => ?_, fun q seq v w j s hh hw hj hhit => ?_,
    fun q seq j s r hj hp hop hw hr hheld hfault hpoison hfailed hmet => ?_,
    fun q seq j s hh h1 h3 hq hz hz' hown => ⟨_, rfl, exec_abort hh h1 h3 hq hz hz' hown⟩,
    fun tq ts f s hst ht hf => ?_⟩
  · change execNop q seq s = _
    simp only [execNop, hh]
  · obtain ⟨hnone, rs, hqueue, hrec⟩ := finishWith_left (st := st) hj hgone
    have hoff := finishWith_offJobs key st s
    refine ⟨hnone, ?_, ?_, memoryKept_of_offJobs hoff, medlars_of_offJobs hoff, fun hm hd hq => ?_⟩
    · rw [hqueue]
      rfl
    · rw [hqueue]
      rfl
    · obtain ⟨r, rfl, hstatus, htag, hopcode, hdetail⟩ := hrec hm hd hq
      refine ⟨r, ?_, hstatus, htag, hopcode, hdetail⟩
      rw [hqueue]
  · have hoff : offJobs (finishWith (jobKey q seq) (fenceStatus s q seq)
        (setDetail (jobKey q seq) (intervalLength (queueOf s q) seq) (fenceBegun q seq s))) = offJobs s :=
      (finishWith_offJobs ..).trans (setDetail_offJobs ..)
    exact ⟨_, _, exec_fence hh, fence_completed hh, memoryKept_of_offJobs hoff, fenceStatus_eq .., medlars_of_offJobs hoff,
      grp_of_offJobs hoff, faces_of_offJobs hoff⟩
  · rw [exec_shot hh hz, hd, if_pos rfl]
  · rw [exec_shot hh hz, hd, if_neg Bool.false_ne_true]
  · rw [exec_wait hh hok, waitRead_met hr hheld hfault hpoison hfailed hmet]
  · exact ⟨_, exec_wait_hit hh hw hj hhit, endWait_spec hj⟩
  · rw [exec_waitPoll hj hp hop hw, waitRead_met hr hheld hfault hpoison hfailed hmet]
  · rw [abortTarget_fetched hst ht hf]
    obtain ⟨hresults, hfetched, hjobs⟩ := completeRaw_queue tq f .aborted (setQueue tq (unfetched (queueOf s tq) f ts) s)
    rw [queueOf_setQueue_self] at hresults hfetched
    have hseq : f.seq = ts := by simpa using List.find?_some hf
    refine ⟨rfl, ?_, fun g hg => ?_, hjobs⟩
    · rw [hresults, hseq]
      rfl
    · rw [hfetched] at hg
      simpa using (List.mem_filter.1 hg).2

end Sys2Proof.Machine

/-! ### Haul engines (O47) -/

namespace Sys2Proof.Machine

theorem engineOf_setEngine_self (k : Nat) (e : Engine) (s : State) : engineOf (setEngine k e s) k = e := Tab.get_put_self ..

theorem engineOf_congr {s t : State} (h : t.engines = s.engines) (k : Nat) : engineOf t k = engineOf s k :=
  congrArg (fun x : Tab Engine => x.get Engine.idle k) h

/-- Dealing shares gives pieces to engines, and nothing else but the free value of the first engine. -/
theorem dealShares_keeps (key u n total : Nat) (s : State) :
    dealShares key u n total s = { s with engines := (dealShares key u n total s).engines, freeN := s.freeN + 1 } :=
  foldl_keeps (fun t => t = { s with engines := t.engines, freeN := s.freeN + 1 }) _ (fun t i h => by rw [h]; rfl) _ _ rfl

/-- The share of a Haul command that has been dealt to its engines. -/
def startedHaul (copy : Bool) (j : Job) (s : State) : Haul :=
  { unit := haulUnit s copy j.ctx j.raw, left := haulWidth copy (haulUnit s copy j.ctx j.raw) j.raw, bytesDone := 0
    poisonAt := none }

/-- The state in which a Haul command has been dealt. -/
def haulDealt (copy : Bool) (key : Nat) (j : Job) (s : State) : State :=
  dealShares key (startedHaul copy j s).unit (startedHaul copy j s).left (haulTotal copy j.raw)
    (setHaul key (startedHaul copy j s) (runJob key s))

theorem haulStart_dealt {copy : Bool} {q seq : Nat} {j : Job} {s : State}
    (hh : handed s q seq (if copy then 0x03 else 0x04) = some j) (hok : haulOk copy j.raw = true) :
    haulStart copy q seq s = .next (haulDealt copy (jobKey q seq) j s) := by
  simp only [haulStart, hh, hok, Bool.not_true, Bool.false_eq_true, if_false]
  rfl

theorem haulStart_refused {copy : Bool} {q seq : Nat} {j : Job} {s : State}
    (hh : handed s q seq (if copy then 0x03 else 0x04) = some j) (hok : haulOk copy j.raw = false) :
    haulStart copy q seq s = .next (finishWith (jobKey q seq) .descriptorInvalid s) := by
  simp only [haulStart, hh, hok, Bool.not_false, if_true, refuseJob]

theorem runJob_keeps (key : Nat) (s : State) : runJob key s = { s with jobs := (runJob key s).jobs } := by
  rw [runJob, onJob]
  split <;> rfl

theorem haulDealt_spec (copy : Bool) (key : Nat) (j : Job) (s : State) :
    (haulDealt copy key j s).hauls.find key = some (startedHaul copy j s) ∧
    haulDealt copy key j s = { s with hauls := (haulDealt copy key j s).hauls, engines := (haulDealt copy key j s).engines
                                      jobs := (haulDealt copy key j s).jobs, freeN := (haulDealt copy key j s).freeN } := by
  have hkeep := dealShares_keeps key (startedHaul copy j s).unit (startedHaul copy j s).left (haulTotal copy j.raw)
    (setHaul key (startedHaul copy j s) (runJob key s))
  change haulDealt copy key j s = _ at hkeep
  constructor
  · rw [hkeep]
    exact Tab.find_put_self ..
  · rw [hkeep, setHaul, runJob_keeps]

/-- The piece of an engine that has moved up to a byte. -/
def Piece.movedTo (p : Piece) (x : Nat) : Piece := { p with done := x - p.start, fault := none }

/-- The state in which an engine's piece has moved. -/
def pieceMoved (k : Nat) (p : Piece) (rest : List Piece) (h : Haul) (m : Moved) (u : State) : State :=
  let t := setHaul p.key { h with bytesDone := h.bytesDone + m.near, poisonAt := minOpt h.poisonAt m.poisonAt } u
  setEngine k { engineOf t k with pieces := p.movedTo m.at_ :: rest, stalled := false } t

theorem pieceMoved_spec (k : Nat) (p : Piece) (rest : List Piece) (h : Haul) (m : Moved) (u : State) :
    (engineOf (pieceMoved k p rest h m u) k).pieces = p.movedTo m.at_ :: rest ∧
    ∃ g, (pieceMoved k p rest h m u).hauls.find p.key = some g ∧ g.left = h.left := by
  constructor
  · rw [pieceMoved, engineOf_setEngine_self]
  · exact ⟨_, Tab.find_put_self .., rfl⟩

theorem exec_haulPiece {unit engine : Nat} {p : Piece} {rest : List Piece} {j : Job} {h : Haul} {m : Moved × UStep} {s : State}
    (hu : unit ≤ 8) (he : engine < engineCount unit) (hup : dieUp s (unitDie unit) = true)
    (hp : (engineOf s (engineKey unit engine)).pieces = p :: rest) (hj : s.jobs.find p.key = some j)
    (hh : s.hauls.find p.key = some h) (hfault : p.fault = none) (hroom : txnsOfEngine s (engineKey unit engine) < 512)
    (hm : m = moveLines (opGen2 j.gen j.opcode == some 0x03) j.raw (min (p.start + 65536) p.total)
      (512 - txnsOfEngine s (engineKey unit engine)) ⟨p.start + p.done, 0, none⟩
      { UStep.start j.ctx p.key (unitDie unit) s with owner := .share p.key (engineKey unit engine) })
    (hheld : m.2.held = false) (hnofault : m.2.fault = none) :
    ∃ u, exec (.haulPiece unit engine) s = .next
      (if m.1.at_ = min (p.start + 65536) p.total then
        nextPiece (engineKey unit engine) (p.movedTo m.1.at_) rest (pieceMoved (engineKey unit engine) p rest h m.1 u)
      else pieceMoved (engineKey unit engine) p rest h m.1 u) := by
  refine ⟨uClose (if m.1.poisonAt.isSome then m.2.met .poisonRead else m.2), ?_⟩
  have hmay : (decide (unit > 8) || decide (engine ≥ engineCount unit) || !dieUp s (unitDie unit)) = false := by
    simp [hu, he, hup]
  change execHaulPiece unit engine s = _
  simp only [execHaulPiece, hmay, hp, hj, hh, hfault, ge_iff_le, Nat.not_le.2 hroom, ← hm, hheld, hnofault, keepAsking,
    Option.isSome_none, Option.isNone_none, Bool.false_and, Bool.true_and, Bool.false_eq_true, if_false, beq_iff_eq]
  rfl

/-- A whole piece gives way to the share's next one. -/
theorem nextPiece_more {k : Nat} {p : Piece} {rest : List Piece} {s : State} (h : p.start + p.stride < p.total) :
    (engineOf (nextPiece k p rest s) k).pieces = { p with start := p.start + p.stride, done := 0, fault := none } :: rest := by
  simp only [nextPiece, h, if_true, engineOf_setEngine_self]

/-- The share's last piece leaves its engine. -/
theorem nextPiece_last {k : Nat} {p : Piece} {rest : List Piece} {h : Haul} {s : State} (hend : p.total ≤ p.start + p.stride)
    (hh : s.hauls.find p.key = some h) : (engineOf (nextPiece k p rest s) k).pieces = rest ∧
      (nextPiece k p rest s).hauls.find p.key = some { h with left := h.left - 1 } := by
  have hhaul : (setEngine k { engineOf s k with pieces := rest } s).hauls.find p.key = some h := hh
  simp only [nextPiece, Nat.not_lt.2 hend, if_false, hhaul]
  constructor
  · have hengine : engineOf (setHaul p.key { h with left := h.left - 1 } (setEngine k { engineOf s k with pieces := rest } s)) k =
        { engineOf s k with pieces := rest } := engineOf_setEngine_self ..
    rw [hengine]
  · exact Tab.find_put_self ..

/-! #### HAUL_COMPLETE -/

/-- The DETAIL of a Haul command: the first poisoned byte, or the bytes done. -/
def haulDetail (h : Haul) (j : Job) : Nat :=
  match statusOf j.outs, h.poisonAt with
  | .poisonRead, some x => x
  | _, _ => h.bytesDone

/-- The state in which a Haul command is over. -/
def haulGone (key : Nat) (s : State) : State := { s with hauls := s.hauls.del key }

theorem exec_haulComplete {q seq : Nat} {h : Haul} {j : Job} {s : State} (hh : s.hauls.find (jobKey q seq) = some h)
    (hj : s.jobs.find (jobKey q seq) = some j) (hleft : h.left = 0) (htxns : txnsOf s (jobKey q seq) = 0) :
    exec (.haulComplete q seq) s =
      .next (finishJob (jobKey q seq) (setDetail (jobKey q seq) (haulDetail h j) (haulGone (jobKey q seq) s))) := by
  change execHaulComplete q seq s = _
  simp only [execHaulComplete, hh, hj, hleft, htxns, and_self, if_true]
  rfl

/-- Settles O47. -/
theorem haulCommandsMoveBytes : Obligations.HaulCommandsMoveBytes := by
  unfold Obligations.HaulCommandsMoveBytes
  refine ⟨fun q seq j s hh hok => ?_, fun q seq j s hh hok => ?_, fun q seq j copy s hh hok => ?_,
    fun unit engine p rest j h m s hu he hup hp hj hh hfault hroom hm hheld hnofault => ?_,
    fun q seq h j s hh hj hleft htxns => ?_⟩
  · obtain ⟨hfind, heq⟩ := haulDealt_spec true (jobKey q seq) j s
    exact ⟨_, _, haulStart_dealt (copy := true) hh hok, hfind, rfl, rfl, rfl, rfl, heq⟩
  · obtain ⟨hfind, heq⟩ := haulDealt_spec false (jobKey q seq) j s
    exact ⟨_, _, haulStart_dealt (copy := false) hh hok, hfind, rfl, rfl, rfl, rfl, heq⟩
  · cases copy
    · exact haulStart_refused (copy := false) hh hok
    · exact haulStart_refused (copy := true) hh hok
  · obtain ⟨u, hexec⟩ := exec_haulPiece hu he hup hp hj hh hfault hroom hm hheld hnofault
    obtain ⟨hpieces, g, hg, hgleft⟩ := pieceMoved_spec (engineKey unit engine) p rest h m.1 u
    refine ⟨_, hexec, fun hne => ?_, fun hwhole hmore => ?_, fun hwhole hend => ?_⟩
    · rw [if_neg hne, hpieces]
      rfl
    · rw [if_pos hwhole, nextPiece_more (p := p.movedTo m.1.at_) hmore]
      rfl
    · obtain ⟨hrest, hfind⟩ := nextPiece_last (k := engineKey unit engine) (p := p.movedTo m.1.at_) (rest := rest) hend hg
      rw [if_pos hwhole]
      exact ⟨hrest, _, hfind, by rw [hgleft]⟩
  · have hoff : offJobs (finishJob (jobKey q seq) (setDetail (jobKey q seq) (haulDetail h j) (haulGone (jobKey q seq) s))) =
        offJobs (haulGone (jobKey q seq) s) := (finishJob_offJobs ..).trans (setDetail_offJobs ..)
    have hj' : (haulGone (jobKey q seq) s).jobs.find (jobKey q seq) = some j := hj
    have hdone := finishJob_completed (s := s) (find_setDetail (d := haulDetail h j) hj') (command_withDetail ..)
      (queueOf_congr (setDetail_queues ..) _)
    have hmem := memoryKept_of_offJobs hoff
    have hengines := engines_of_offJobs hoff
    refine ⟨_, exec_haulComplete hh hj hleft htxns, ?_, hdone, hmem, hengines⟩
    rw [hauls_of_offJobs hoff]
    exact Tab.find_del_self ..

end Sys2Proof.Machine

/-! ### Faulted tasks: switched out, and resolved by handle (O48) -/

namespace Sys2Proof.Machine

/-! #### The fault queue -/

theorem storeFault_faultq (parked : Bool) (r : FaultRec) (s : State) :
    (storeFault parked r s).faultq = { s.faultq with tail := (s.faultq.tail + 1) % 2 ^ 32 } := by
  unfold storeFault
  extract_lets n e at_ t
  have ht : t.faultq = s.faultq := by
    simp only [t]
    split
    · rfl
    · exact faultq_of_still (fwWrite_still ..)
  rw [bump_faultq]
  exact congrArg (fun q : FaultQ => { q with tail := (n + 1) % 2 ^ 32 }) ht

/-- A record goes to the next slot of the ring, or waits behind the others. -/
theorem addFault_faultq (r : FaultRec) {s t : State} (hq : t.faultq = s.faultq) (hfull : faultRingFull t = faultRingFull s) :
    (faultRingFull s = false → s.faultq.waiting = [] → (addFault r t).faultq.tail = (s.faultq.tail + 1) % 2 ^ 32 ∧
      (addFault r t).faultq.waiting = []) ∧
    ((faultRingFull s = true ∨ s.faultq.waiting ≠ []) → (addFault r t).faultq.waiting = s.faultq.waiting ++ [r]) := by
  constructor
  · intro hroom hnone
    have hstore : addFault r t = storeFault false r t := by
      simp only [addFault, hfull, hq, hroom, hnone, List.isEmpty_nil, Bool.not_true, Bool.or_self, Bool.false_eq_true, if_false]
    rw [hstore, storeFault_faultq, hq]
    exact ⟨rfl, hnone⟩
  · intro hwait
    have hpark : (faultRingFull s || !s.faultq.waiting.isEmpty) = true := by
      rcases hwait with h | h
      · rw [h, Bool.true_or]
      · rw [List.isEmpty_eq_false_iff.2 h, Bool.not_false, Bool.or_true]
    simp only [addFault, hfull, hq, hpark, if_true, bump_faultq]

/-- What a record leaves that goes to the fault queue of a state like s there. -/
theorem unpark_head (n : Nat) (s : State) : (unpark n s).faultq.head = s.faultq.head := by
  induction n generalizing s with
  | zero => rfl
  | succ n ih =>
    unfold unpark
    split
    · rfl
    · split
      · rfl
      · rw [ih, storeFault_faultq]

/-! #### Switching out -/

theorem exec_taskSwitchOut_haul {unit engine : Nat} {p : Piece} {rest : List Piece} {f : FaultInfo} {s : State}
    (hu : unit ≤ 8) (he : engine < engineCount unit) (hp : (engineOf s (engineKey unit engine)).pieces = p :: rest)
    (hf : p.fault = some f) (hsaved : (engineOf s (engineKey unit engine)).saved = none) (hlist : faultListFull 1 s = false) :
    exec (.taskSwitchOut 3 unit engine) s = .next (addFault (taskRecord 3 unit engine p.key p.done f)
      (setEngine (engineKey unit engine) { pieces := rest, saved := some p, stalled := false } s)) := by
  have hmay : ¬(unit > 8 ∨ engine ≥ engineCount unit) := by omega
  change execTaskSwitchOut 3 unit engine s = _
  rw [execTaskSwitchOut, if_pos rfl]
  simp only [haulOut, hmay, hp, hf, hsaved, hlist, Option.isSome_none, Bool.false_eq_true, if_false]

/-- The Bramble from which a faulted command has been saved to a slot. -/
def Bramble.savedTo (b : Bramble) (n : Nat) (r : Route) : Bramble :=
  { b with run := b.run.filter fun x => x.key != r.key
           open_ := b.open_.filter fun x => x.key != r.key
           saves := b.saves.put n { r with stalled := false } }

theorem exec_taskSwitchOut_bramble {die index : Nat} {r : Route} {f : FaultInfo} {s : State}
    (hr : (brambleFaulted (brambleOf s die))[index]? = some r) (hf : r.fault = some f) (hlist : faultListFull 1 s = false)
    (hfree : (brambleOf s die).saves.cells = []) : ∃ n, n < 4 ∧ exec (.taskSwitchOut 4 die index) s =
      .next (addFault (taskRecord 4 die n r.key r.position f)
        (setBramble die ((brambleOf s die).savedTo n r) (takeFree s).2)) := by
  obtain ⟨n, hpick, hn, -⟩ := pickSlot_of_room (n := 4) (used := []) s (by decide)
  refine ⟨n, hn, ?_⟩
  change execTaskSwitchOut 4 die index s = _
  rw [execTaskSwitchOut, if_neg (by decide), if_pos rfl]
  simp only [brambleOut, Bramble.savedTo, hr, hf, hlist, hfree, List.map_nil, hpick, Bool.false_eq_true, if_false]

theorem exec_taskSwitchOut_press {unit index key : Nat} {c : Coll} {f : FaultInfo} {s : State}
    (hc : (s.press.colls.cells.filter fun c => c.2.fault.isSome && c.2.saved.isNone)[index]? = some (key, c))
    (hf : c.fault = some f) (hlist : faultListFull 1 s = false) (hfree : pressSlots s = []) :
    ∃ n, n < 16 ∧ exec (.taskSwitchOut 5 unit index) s = .next (addFault (taskRecord 5 8 n key c.position f)
      (setColl key { c with saved := some n, stalled := false } (takeFree s).2)) := by
  obtain ⟨n, hpick, hn, -⟩ := pickSlot_of_room (n := 16) (used := []) s (by decide)
  refine ⟨n, hn, ?_⟩
  change execTaskSwitchOut 5 unit index s = _
  rw [execTaskSwitchOut, if_neg (by decide), if_neg (by decide), if_pos rfl]
  simp only [pressOut, hc, hf, hlist, hfree, hpick, Bool.false_eq_true, if_false]

/-! #### FAULT_Q_HEAD -/

theorem entryOf_faultQHead : entryOf K.faultQHead = some ⟨K.faultQHead, K.faultQHead, 2, 1, 0, 4, 0, 2 ^ 32 - 1⟩ := by decide +kernel
theorem entryOf_faultResolve :
    entryOf K.faultResolve = some ⟨K.faultResolve, K.faultResolve, 2, 2, 0, 4, 0, 2 ^ 17 - 1⟩ := by decide +kernel

/-- The state in which FAULT_Q_HEAD has moved, and freed slots have taken the records that waited. -/
def faultHeadMoved (v : Nat) (s : State) : State :=
  unpark s.faultq.waiting.length { s with faultq := { s.faultq with head := v } }

theorem exec_faultQHead {src v : Nat} {s : State} (hw : Writable s K.faultQHead) (hv : v < 2 ^ 32)
    (h : ahead v s.faultq.head ≤ ahead s.faultq.tail s.faultq.head) :
    exec (.faultQHead src v) s = .next (acceptWrite (faultHeadMoved v s)) := by
  have hact : writeFaultHead v s = (0, faultHeadMoved v s) := by
    simp only [writeFaultHead, h, if_true, faultHeadMoved]
  have hmove := outside_commit (src := src) (act := writeFaultHead) hw entryOf_faultQHead (fun h => by simp at h)
    (and_mask_of_lt hv) (by rw [hact])
  rw [hact] at hmove
  exact hmove

theorem exec_faultQHead_refused {src v : Nat} {s : State} (hw : Writable s K.faultQHead) (hv : v < 2 ^ 32)
    (h : ahead s.faultq.tail s.faultq.head < ahead v s.faultq.head) :
    exec (.faultQHead src v) s = .next (refuseWrite src K.faultQHead 3 s) := by
  have hact : writeFaultHead v s = (3, s) := by
    simp only [writeFaultHead, Nat.not_le.2 h, if_false]
  have hmove := outside_turned_away (src := src) (act := writeFaultHead) hw entryOf_faultQHead (fun h => by simp at h)
    (and_mask_of_lt hv) (by simp [hact])
  rw [hact] at hmove
  exact hmove

/-! #### FAULT_RESOLVE -/

/-- What resolving the task of a kind in a unit's slot comes to; none where no switched-out task stands there. -/
def resolveTask (kind unit slot : Nat) (end_ : Bool) (s : State) : Option State :=
  match kind with
  | 1 => resolveGroup unit slot end_ s
  | 2 => resolveFace unit slot end_ s
  | 3 => resolveHaul unit slot end_ s
  | 4 => resolveBramble unit slot end_ s
  | 5 => if unit = 8 then resolvePress slot end_ s else none
  | _ => none

/-- The word of FAULT_RESOLVE for a handle and an action. -/
def resolveWord (handle : Nat) (end_ : Bool) : Nat := handle + end_.toNat * 2 ^ 16

theorem resolveWord_fields {handle : Nat} (end_ : Bool) (h : handle < 2 ^ 15) :
    bits (resolveWord handle end_) 0 16 = handle ∧ bit (resolveWord handle end_) 16 = end_ ∧ bit handle 15 = false ∧
    resolveWord handle end_ < 2 ^ 17 := by
  refine ⟨?_, bit_add_top end_ (by omega), bit_of_lt h, ?_⟩
  · rw [resolveWord, bits_add_above _ _ (by decide), bits_eq, Nat.pow_zero, Nat.div_one, Nat.mod_eq_of_lt (by omega)]
  · have := end_.toNat_lt
    rw [resolveWord]
    omega

theorem writeFaultResolve_word {handle : Nat} {end_ : Bool} {s : State} (h : handle < 2 ^ 15) (hp : isParked handle s = false) :
    writeFaultResolve (resolveWord handle end_) s =
      match resolveTask (bits handle 12 3) (bits handle 8 4) (bits handle 0 8) end_ s with
      | some t => (0, t)
      | none => (7, s) := by
  obtain ⟨hhandle, hend, htop, -⟩ := resolveWord_fields end_ h
  simp only [writeFaultResolve, hhandle, hend, htop, hp, Bool.false_eq_true, or_self, if_false, resolveTask] <;> rfl

/-- The command that writes FAULT_RESOLVE. -/
def resolveCmd (src handle : Nat) (end_ : Bool) : Instr := if end_ then .faultEnd src handle else .faultResume src handle

theorem exec_resolveCmd {src handle : Nat} (end_ : Bool) {s : State} (h : handle < 2 ^ 15) :
    exec (resolveCmd src handle end_) s =
      outside s (commitScalar src K.faultResolve (resolveWord handle end_) writeFaultResolve s).2 := by
  have hhandle : bits handle 0 16 = handle := by
    rw [bits_eq, Nat.pow_zero, Nat.div_one, Nat.mod_eq_of_lt (by omega)]
  cases end_
  · change outside s (commitScalar src K.faultResolve (bits handle 0 16) writeFaultResolve s).2 = _
    rw [hhandle, show resolveWord handle false = handle by rw [resolveWord]; simp]
  · change outside s (commitScalar src K.faultResolve (bits handle 0 16 + 2 ^ 16) writeFaultResolve s).2 = _
    rw [hhandle, show resolveWord handle true = handle + 2 ^ 16 by rw [resolveWord]; simp]

theorem exec_resolveCmd_resolved {src handle : Nat} {end_ : Bool} {s t : State} (hw : Writable s K.faultResolve)
    (h : handle < 2 ^ 15) (hp : isParked handle s = false)
    (ht : resolveTask (bits handle 12 3) (bits handle 8 4) (bits handle 0 8) end_ s = some t) :
    exec (resolveCmd src handle end_) s = .next (acceptWrite t) := by
  have hact := writeFaultResolve_word (end_ := end_) h hp
  rw [ht] at hact
  rw [exec_resolveCmd end_ h, outside_commit hw entryOf_faultResolve (fun h => by simp at h)
    (and_mask_of_lt (resolveWord_fields end_ h).2.2.2) (by rw [hact]), hact]

theorem exec_resolveCmd_refused {src handle : Nat} {end_ : Bool} {s : State} (hw : Writable s K.faultResolve)
    (h : handle < 2 ^ 15) (hp : isParked handle s = false)
    (ht : resolveTask (bits handle 12 3) (bits handle 8 4) (bits handle 0 8) end_ s = none) :
    exec (resolveCmd src handle end_) s = .next (refuseWrite src K.faultResolve 7 s) := by
  have hact := writeFaultResolve_word (end_ := end_) h hp
  rw [ht] at hact
  rw [exec_resolveCmd end_ h, outside_turned_away hw entryOf_faultResolve (fun h => by simp at h)
    (and_mask_of_lt (resolveWord_fields end_ h).2.2.2) (by simp [hact]), hact]

/-- The handle of the task of a kind in a unit's slot. -/
theorem handle_fields {slot unit kind : Nat} (hs : slot < 256) (hu : unit < 16) (hk : kind < 8) :
    bits (slot + unit * 2 ^ 8 + kind * 2 ^ 12) 12 3 = kind ∧ bits (slot + unit * 2 ^ 8 + kind * 2 ^ 12) 8 4 = unit ∧
    bits (slot + unit * 2 ^ 8 + kind * 2 ^ 12) 0 8 = slot ∧ slot + unit * 2 ^ 8 + kind * 2 ^ 12 < 2 ^ 15 := by
  simp only [bits_eq]
  omega

theorem resolveGroup_resumed {unit slot g : Nat} {x : Group} {s : State}
    (h : (s.grp.groups.cells.find? fun c => c.2.die == unit && c.2.place == .saved slot) = some (g, x)) :
    resolveGroup unit slot false s = some (setGroup g { x with place := .runnable slot } s) := by
  simp only [resolveGroup, h, Bool.false_eq_true, if_false]

/-- The engine to which a saved share has been given back. -/
def Engine.givenBack (e : Engine) (p : Piece) : Engine :=
  { e with saved := none, pieces := e.pieces ++ [{ p with fault := none }] }

theorem resolveHaul_resumed {unit slot : Nat} {p : Piece} {s : State} (h : (engineOf s (engineKey unit slot)).saved = some p) :
    resolveHaul unit slot false s = some (setEngine (engineKey unit slot) ((engineOf s (engineKey unit slot)).givenBack p)
      (setEngine (engineKey unit slot) { engineOf s (engineKey unit slot) with saved := none } s)) := by
  simp only [resolveHaul, h, Bool.false_eq_true, if_false]
  rfl

/-- The outcome that the end of a faulted share gives its command. -/
def shareOutcome (p : Piece) : Status := match p.fault with
  | some i => causeStatus i.cause
  | none => .segmentFault

theorem resolveHaul_ended {unit slot : Nat} {p : Piece} {s : State} (h : (engineOf s (engineKey unit slot)).saved = some p) :
    resolveHaul unit slot true s = some (nextPiece (engineKey unit slot) p (engineOf s (engineKey unit slot)).pieces
      (addOut p.key (shareOutcome p)
        (setEngine (engineKey unit slot) { engineOf s (engineKey unit slot) with saved := none } s))) := by
  simp only [resolveHaul, h, if_true]
  rfl

/-- A share's next piece leaves the commands, and the engine's save slot. -/
theorem nextPiece_keeps (k : Nat) (p : Piece) (rest : List Piece) (s : State) :
    (nextPiece k p rest s).jobs = s.jobs ∧ (engineOf (nextPiece k p rest s) k).saved = (engineOf s k).saved := by
  have hset : ∀ ps, (engineOf (setEngine k { engineOf s k with pieces := ps } s) k).saved = (engineOf s k).saved := fun ps => by
    rw [engineOf_setEngine_self]
  unfold nextPiece
  dsimp only
  split
  · exact ⟨rfl, hset _⟩
  · split
    · exact ⟨rfl, hset _⟩
    · exact ⟨rfl, hset _⟩

theorem mem_metToo (outs : List Status) (o : Status) : o ∈ metToo outs o := by
  rw [metToo]
  split
  next h => simpa using h
  · simp

/-- Settles O48. -/
theorem faultedTasksAreSavedAndResolved : Obligations.FaultedTasksAreSavedAndResolved := by
  unfold Obligations.FaultedTasksAreSavedAndResolved
  refine ⟨fun unit engine p rest f s hu he hp hf hsaved hlist => ?_, fun die index r f s hr hf hlist hfree => ?_,
    fun unit index key c f s hc hf hlist hfree => ?_, fun src v s hw hv => ?_,
    fun src unit slot g x s hw hu hs hpark hfind => ?_, fun src unit slot p s hw hu hs hpark hsaved => ⟨?_, ?_⟩,
    fun src handle s hw hlt hpark h1 h2 h3 h4 h5 => ?_⟩
  · obtain ⟨hstored, hwait⟩ := addFault_faultq (taskRecord 3 unit engine p.key p.done f) (s := s)
      (t := setEngine (engineKey unit engine) { pieces := rest, saved := some p, stalled := false } s) rfl rfl
    refine ⟨_, exec_taskSwitchOut_haul hu he hp hf hsaved hlist, ?_, hstored, hwait⟩
    rw [engineOf_congr (engines_of_offFaultq (addFault_offFaultq ..)), engineOf_setEngine_self]
  · obtain ⟨n, hn, hexec⟩ := exec_taskSwitchOut_bramble hr hf hlist hfree
    obtain ⟨hstored, hwait⟩ := addFault_faultq (taskRecord 4 die n r.key r.position f) (s := s)
      (t := setBramble die ((brambleOf s die).savedTo n r) (takeFree s).2) rfl rfl
    have hb := (brambleOf_congr (brambles_of_offFaultq (addFault_offFaultq (taskRecord 4 die n r.key r.position f)
      (setBramble die ((brambleOf s die).savedTo n r) (takeFree s).2))) die).trans (brambleOf_setBramble_self ..)
    refine ⟨_, n, hexec, hn, ?_, fun x hx => ?_, fun x hx => ?_, hstored, hwait⟩
    · rw [hb]
      exact Tab.find_put_self ..
    · rw [hb] at hx
      simpa using (Option.filter_eq_some_iff.1 hx).2
    · rw [hb] at hx
      simpa using (List.mem_filter.1 hx).2
  · obtain ⟨n, hn, hexec⟩ := exec_taskSwitchOut_press (unit := unit) hc hf hlist hfree
    obtain ⟨hstored, hwait⟩ := addFault_faultq (taskRecord 5 8 n key c.position f) (s := s)
      (t := setColl key { c with saved := some n, stalled := false } (takeFree s).2) rfl rfl
    refine ⟨_, n, hexec, hn, ?_, hstored, hwait⟩
    rw [press_of_offFaultq (addFault_offFaultq ..)]
    exact Tab.find_put_self ..
  · by_cases h : ahead v s.faultq.head ≤ ahead s.faultq.tail s.faultq.head
    · refine ⟨_, exec_faultQHead hw hv h, fun _ => ⟨?_, fun hnone => ?_⟩, fun h' => absurd h (Nat.not_le.2 h')⟩
      · rw [acceptWrite_faultq, faultHeadMoved, unpark_head]
      · rw [acceptWrite_faultq, faultHeadMoved, hnone]
        exact ⟨rfl, hnone⟩
    · have hbeyond := Nat.lt_of_not_le h
      exact ⟨_, exec_faultQHead_refused hw hv hbeyond, fun h' => absurd h' h, fun _ => (refuseWrite_onlyRecords ..).faultq⟩
  · obtain ⟨hkind, hunit, hslot, hlt⟩ := handle_fields (kind := 1) hs (by omega : unit < 16) (by decide)
    have htask : resolveTask (bits (slot + unit * 2 ^ 8 + 1 * 2 ^ 12) 12 3) (bits (slot + unit * 2 ^ 8 + 1 * 2 ^ 12) 8 4)
        (bits (slot + unit * 2 ^ 8 + 1 * 2 ^ 12) 0 8) false s = some (setGroup g { x with place := .runnable slot } s) := by
      rw [hkind, hunit, hslot]
      exact resolveGroup_resumed hfind
    exact ⟨_, exec_resolveCmd_resolved hw hlt hpark htask, Tab.find_put_self .., rfl, rfl⟩
  · obtain ⟨hkind, hunit, hslot, hlt⟩ := handle_fields (kind := 3) (by omega : slot < 256) (by omega : unit < 16) (by decide)
    have hexec := exec_resolveCmd_resolved (src := src) (end_ := false) hw hlt hpark
      (by rw [hkind, hunit, hslot]; exact resolveHaul_resumed hsaved)
    refine ⟨_, hexec, ?_, rfl⟩
    rw [engineOf_congr (acceptWrite_engines ..), engineOf_setEngine_self, Engine.givenBack]
  · obtain ⟨hkind, hunit, hslot, hlt⟩ := handle_fields (kind := 3) (by omega : slot < 256) (by omega : unit < 16) (by decide)
    obtain ⟨hjobs, hslot'⟩ := nextPiece_keeps (engineKey unit slot) p (engineOf s (engineKey unit slot)).pieces
      (addOut p.key (shareOutcome p)
        (setEngine (engineKey unit slot) { engineOf s (engineKey unit slot) with saved := none } s))
    have hexec := exec_resolveCmd_resolved (src := src) (end_ := true) hw hlt hpark
      (by rw [hkind, hunit, hslot]; exact resolveHaul_ended hsaved)
    refine ⟨_, hexec, ?_, fun j f hj hf => ?_⟩
    · rw [engineOf_congr (acceptWrite_engines ..), hslot', engineOf_congr (engines_of_offJobs (addOut_offJobs ..)),
        engineOf_setEngine_self]
    · have hj' : (setEngine (engineKey unit slot) { engineOf s (engineKey unit slot) with saved := none } s).jobs.find p.key =
        some j := hj
      refine ⟨_, by rw [acceptWrite_jobs, hjobs, find_addOut hj'], ?_⟩
      have ho : shareOutcome p = causeStatus f.cause := by rw [shareOutcome, hf]
      rw [ho]
      exact mem_metToo ..
  · have hnone : ∀ end_, resolveTask (bits handle 12 3) (bits handle 8 4) (bits handle 0 8) end_ s = none := fun end_ => by
      unfold resolveTask
      split
      next h => simp only [resolveGroup, h1 h]
      next h => simp only [resolveFace, h2 h]
      next h => simp only [resolveHaul, h3 h]
      next h => simp only [resolveBramble, h4 h]
      next h =>
        rcases h5 h with h | h
        · rw [if_neg h]
        · simp only [resolvePress, h, ite_self]
      · rfl
    exact ⟨exec_resolveCmd_refused (end_ := false) hw hlt hpark (hnone _),
      exec_resolveCmd_refused (end_ := true) hw hlt hpark (hnone _)⟩

end Sys2Proof.Machine

/-! ### Ports: training, flits, pauses, transit and routes (O50) -/

namespace Sys2Proof.Machine

/-! #### Ports and their link layers -/


theorem portOf_congr {s t : State} (h : t.links.ports = s.links.ports) (p : Nat) : portOf t p = portOf s p :=
  congrArg (fun x : Tab Port => x.get Port.idle p) h

/-- A port's own state does not say to which bond it belongs. -/
theorem linkPort_setPort (p : Nat) (x : Port) (s : State) : linkPort (setPort p x s) p = linkPort s p := by
  have hmembers : ∀ k, k ≠ p → bondMembers (setPort p x s) k = bondMembers s k := fun k hk => by
    simp only [bondMembers, portOf_setPort_of_ne x s hk]
  have hlead : bondLead (setPort p x s) p = bondLead s p := by
    unfold bondLead
    split
    · refine congrArg (fun l : List Nat => l.head?.map fun k => p - 4 * k) (List.filter_congr fun k hk => ?_)
      by_cases hle : k ≤ p / 4 % 4
      · rw [hmembers]
        simp only [List.mem_cons, List.not_mem_nil, or_false] at hk
        omega
      · simp [hle]
    · rfl
  rw [linkPort, hlead, ← linkPort]

theorem linkPort_congr {s t : State} (h : t.links.ports = s.links.ports) (p : Nat) : linkPort t p = linkPort s p := by
  simp only [linkPort, bondLead, bondMembers, portOf_congr h]

theorem layerOf_congr {s t : State} (hp : t.links.ports = s.links.ports) (hl : t.links.layers = s.links.layers) (p : Nat) :
    layerOf t p = layerOf s p := by
  rw [layerOf, hl, linkPort_congr hp, ← layerOf]

theorem layerOf_setLayer_self (p : Nat) (x : LinkLayer) (s : State) : layerOf (setLayer p x s) p = x := by
  have hport : linkPort (setLayer p x s) p = linkPort s p := linkPort_congr rfl p
  rw [layerOf, hport]
  exact Tab.get_put_self ..

theorem layerOf_setPort (p : Nat) (x : Port) (s : State) : layerOf (setPort p x s) p = layerOf s p := by
  rw [layerOf, linkPort_setPort]
  rfl

/-- Flits that leave the queue of a layer leave what it expects to receive. -/
theorem pumpFlits_receives (x : LinkLayer) :
    (pumpFlits x).nextFlit = x.nextFlit ∧ (pumpFlits x).replayAsked = x.replayAsked := by
  have hsend : ∀ (l : List Nat) (y : LinkLayer),
      (sendQueued l y).nextFlit = y.nextFlit ∧ (sendQueued l y).replayAsked = y.replayAsked := fun l => by
    induction l with
    | nil => exact fun _ => ⟨rfl, rfl⟩
    | cons vc rest ih =>
      intro y
      unfold sendQueued
      dsimp only
      split
      · exact ih y
      · exact ih _
  exact hsend x.queued { x with queued := [] }

/-! #### What waits for a next hop is tried again -/

/-- What sending over links leaves: the ports, the routes, memory and the board; events on their way only grow. -/
structure Carries (s t : State) : Prop where
  ports : t.links.ports = s.links.ports
  routes : t.links.routes = s.links.routes
  mem : t.mem = s.mem
  inFlight : ∀ e, e ∈ s.ev.inFlight → e ∈ t.ev.inFlight

namespace Carries
variable {s t u : State}

theorem refl (s : State) : Carries s s := ⟨rfl, rfl, rfl, fun _ h => h⟩

theorem trans (h : Carries s t) (h' : Carries t u) : Carries s u :=
  ⟨h'.ports.trans h.ports, h'.routes.trans h.routes, h'.mem.trans h.mem, fun e he => h'.inFlight e (h.inFlight e he)⟩

end Carries

theorem setLayer_carries (p : Nat) (x : LinkLayer) (s : State) : Carries s (setLayer p x s) := ⟨rfl, rfl, rfl, fun _ h => h⟩
theorem setConn_carries (c : Nat) (k : Conn) (s : State) : Carries s (setConn c k s) := ⟨rfl, rfl, rfl, fun _ h => h⟩
theorem send_carries (m : OutMsg) (s : State) : Carries s (send m s) := ⟨rfl, rfl, rfl, fun _ h => h⟩
theorem takeFree_carries (s : State) : Carries s (takeFree s).2 := ⟨rfl, rfl, rfl, fun _ h => h⟩
theorem sumErr_carries (b : Nat) (s : State) : Carries s (sumErr b s) := ⟨rfl, rfl, rfl, fun _ h => h⟩
theorem bump_carries (k n : Nat) (s : State) : Carries s (bump k n s) :=
  ⟨by rw [bump_links], by rw [bump_links], bump_mem .., fun _ h => mem_inFlight_bump _ _ h⟩
theorem raise_carries (c o a b : Nat) (s : State) : Carries s (raise c o a b s) :=
  ⟨rfl, rfl, rfl, fun _ h => mem_inFlight_raise _ _ _ _ h⟩

theorem sendFlits_carries (p vc n : Nat) (s : State) : Carries s (sendFlits p vc n s) := by
  rw [sendFlits]
  split
  · exact setLayer_carries ..
  · exact .refl s

theorem leaveTxn_carries (id : Nat) (x : Txn) (s : State) : Carries s (leaveTxn id x s) := by
  unfold leaveTxn
  dsimp only
  generalize (if x.peer then nextHop s x.conn x.node else none) = h
  cases h with
  | none => exact ⟨rfl, rfl, rfl, fun _ h => h⟩
  | some p =>
    dsimp only
    refine Carries.trans ?_ (sendFlits_carries ..)
    exact ⟨rfl, rfl, rfl, fun _ h => h⟩

theorem pumpConn_carries (conn n : Nat) (s : State) : Carries s (pumpConn conn n s) := by
  induction n generalizing s with
  | zero => exact .refl s
  | succ n ih =>
    unfold pumpConn
    split
    · exact .refl s
    · split
      · exact (leaveTxn_carries ..).trans (ih _)
      · exact .refl s

theorem foldl_carries {α : Type} {f : State → α → State} (h : ∀ t x, Carries t (f t x)) (l : List α) (s : State) :
    Carries s (l.foldl f s) := foldl_keeps (Carries s) f (fun t x ht => ht.trans (h t x)) l s (.refl s)

theorem pumpAll_carries (s : State) : Carries s (pumpAll s) := foldl_carries (fun _ _ => pumpConn_carries ..) _ _

theorem discardTransit_carries (s : State) : Carries s (discardTransit s) := (bump_carries ..).trans (sumErr_carries ..)

theorem sendTransit_carries (dest hops vc : Nat) (s : State) : Carries s (sendTransit dest hops vc s) := by
  unfold sendTransit
  extract_lets e v
  split
  · exact discardTransit_carries s
  · split
    · exact ⟨rfl, rfl, rfl, fun _ h => h⟩
    · exact (takeFree_carries s).trans ((sendFlits_carries ..).trans (send_carries ..))

theorem pumpLinks_carries (s : State) : Carries s (pumpLinks s) := by
  have hempty : Carries s { s with links := { s.links with transit := [] } } := ⟨rfl, rfl, rfl, fun _ h => h⟩
  exact (hempty.trans (pumpAll_carries _)).trans (foldl_carries (fun _ _ => sendTransit_carries ..) _ _)

/-! #### Training -/

theorem bit_errSummary_sumErr (b : Nat) (s : State) : bit (dv (sumErr b s) K.errSummary) b = true := by
  rw [sumErr, dv_setDv_self, bit_setBit]
  simp

theorem raise_event (code o a : Nat) {b : Nat} (s : State) (hb : b < 2 ^ 32) :
    ∃ e, e ∈ (raise code o a b s).ev.inFlight ∧ e.code = code ∧ e.arg1 = b :=
  ⟨_, List.mem_append_right _ (List.mem_singleton.2 rfl), rfl, Nat.mod_eq_of_lt hb⟩

/-- The port after a training that came up. -/
def trainedPort (x : Port) (r : TrainResult) (capped : Bool) : Port :=
  { x with rate := r.rate, speed := if cfgMode x.cfg == 1 then 0 else r.speed, capped := capped, retraining := none
           neighbour := if x.retraining.isSome then x.neighbour else if cfgMode x.cfg == 1 then r.neighbour else 0 }

/-- The state in which a port has found a neighbour with the own NODE. -/
def nodeConflicts (lp : Nat) (x : Port) (r : TrainResult) (capped : Bool) (s : State) : State :=
  raise 0x42 10 r.neighbour lp (sumErr 9 (bump K.nodeConflicts 1
    (setPort lp { trainedPort x r capped with st := .nodeConflict } s)))

/-- The state in which a port is UP; s has the replay buffers cleared or kept. -/
def portBecomesUp (lp : Nat) (x : Port) (r : TrainResult) (capped : Bool) (s : State) : State :=
  let t := setPort lp { trainedPort x r capped with st := .up } s
  pumpLinks (raise 0x40 10 (portState t lp) lp t)

theorem portTrained_conflict {lp : Nat} {x : Port} {r : TrainResult} {capped : Bool} {s : State} (hm : cfgMode x.cfg = 1)
    (hr : x.retraining = none) (hn : r.neighbour = nodeId s) :
    portTrained lp x r capped s = .next (nodeConflicts lp x r capped s) := by
  have hc : (cfgMode x.cfg == 1 && !x.retraining.isSome && r.neighbour == nodeId s) = true := by simp [hm, hr, hn]
  unfold portTrained
  dsimp only
  rw [if_pos hc]
  rfl

theorem portTrained_up {lp : Nat} {x : Port} {r : TrainResult} {capped : Bool} {s : State}
    (h : cfgMode x.cfg ≠ 1 ∨ x.retraining ≠ none ∨ r.neighbour ≠ nodeId s) :
    ∃ u, portTrained lp x r capped s = .next (portBecomesUp lp x r capped u) ∧ u.mem = s.mem := by
  have hc : ¬(cfgMode x.cfg == 1 && !x.retraining.isSome && r.neighbour == nodeId s) = true := by
    simp only [Bool.and_eq_true, beq_iff_eq, Bool.not_eq_true', Option.isSome_eq_false_iff, Option.isNone_iff_eq_none]
    rintro ⟨⟨h1, h2⟩, h3⟩
    rcases h with h | h | h
    · exact h h1
    · exact h h2
    · exact h h3
  refine ⟨if cfgMode x.cfg == 1 && !x.retraining.isSome && (bondRuns s lp).isEmpty then setLayer lp (LinkLayer.start r.credits) s
    else s, ?_, by split <;> rfl⟩
  unfold portTrained
  dsimp only
  rw [if_neg hc]
  rfl

theorem nodeConflicts_spec {lp : Nat} {x : Port} {r : TrainResult} {capped : Bool} {s : State} (hlp : lp < 2 ^ 32) :
    portOf (nodeConflicts lp x r capped s) lp = { trainedPort x r capped with st := .nodeConflict } ∧
    (nodeConflicts lp x r capped s).mem = s.mem ∧
    ∃ e, e ∈ (nodeConflicts lp x r capped s).ev.inFlight ∧ e.code = 0x42 ∧ e.arg1 = lp := by
  have hcarries := bump_carries K.nodeConflicts 1 (setPort lp { trainedPort x r capped with st := .nodeConflict } s)
  refine ⟨?_, hcarries.mem, raise_event _ _ _ _ hlp⟩
  have hport : portOf (nodeConflicts lp x r capped s) lp =
      portOf (bump K.nodeConflicts 1 (setPort lp { trainedPort x r capped with st := .nodeConflict } s)) lp := rfl
  rw [hport, portOf_congr hcarries.ports, portOf_setPort_self]

theorem portBecomesUp_spec {lp : Nat} {x : Port} {r : TrainResult} {capped : Bool} {s : State} (hlp : lp < 2 ^ 32) :
    portOf (portBecomesUp lp x r capped s) lp = { trainedPort x r capped with st := .up } ∧
    (portBecomesUp lp x r capped s).mem = s.mem ∧
    ∃ e, e ∈ (portBecomesUp lp x r capped s).ev.inFlight ∧ e.code = 0x40 ∧ e.arg1 = lp := by
  unfold portBecomesUp
  dsimp only
  generalize ht : setPort lp { trainedPort x r capped with st := .up } s = t
  have hcarries := pumpLinks_carries (raise 0x40 10 (portState t lp) lp t)
  obtain ⟨e, he, hcode, harg⟩ := raise_event 0x40 10 (portState t lp) t hlp
  have hmem : t.mem = s.mem := by rw [← ht]; rfl
  refine ⟨?_, hcarries.mem.trans hmem, e, hcarries.inFlight e he, hcode, harg⟩
  rw [portOf_congr hcarries.ports, ← ht]
  exact portOf_setPort_self ..

theorem exec_portTrainingDone_up {lp : Nat} {r : TrainResult} {cap : Bool} {s : State} (ha : alive s = true)
    (hst : (portOf s lp).st = .training) (hok : cfgOk (lp / 4) (portOf s lp).cfg = true)
    (hclk : bit s.board.clocksAbsent (8 + lp / 16) = false) (hup : r.up = true)
    (hfits : upFits (linkCap s) (portOf s lp).cfg r = some cap)
    (hrate : (portOf s lp).retraining = none ∨ r.rate = (portOf s lp).rate)
    (hbond : ∀ m, m ∈ bondRuns s lp → (portOf s m).rate = r.rate) :
    exec (.portTrainingDone lp r) s = portTrained lp (portOf s lp) r cap s := by
  have hkeep : ((portOf s lp).retraining.isSome && r.rate != (portOf s lp).rate) = false := by
    rcases hrate with h | h <;> simp [h]
  have hall : ((bondRuns s lp).any fun m => (portOf s m).rate != r.rate) = false := by
    simp only [List.any_eq_false, bne_iff_ne, ne_eq, Classical.not_not]
    exact hbond
  change execPortTrainingDone lp r s = _
  simp only [execPortTrainingDone, ha, hst, hok, hclk, hup, hfits, hkeep, hall, Bool.not_true, Bool.and_false, bne_self_eq_false,
    Bool.or_self, Bool.false_eq_true, if_false]

theorem portDown_spec {lp : Nat} {s : State} (hlp : lp < 2 ^ 32) :
    portOf (portDown lp s) lp = { portOf s lp with st := .down, retraining := none, downAt := s.time.now } ∧
    (∀ p, p ≠ lp → portOf (portDown lp s) p = portOf s p) ∧ bit (dv (portDown lp s) K.errSummary) 9 = true ∧
    (∃ e, e ∈ (portDown lp s).ev.inFlight ∧ e.code = 0x41 ∧ e.arg1 = lp) ∧ (portDown lp s).time = s.time :=
  ⟨portOf_setPort_self .., fun _ h => portOf_setPort_of_ne _ _ h, bit_errSummary_sumErr .., raise_event _ _ _ _ hlp, rfl⟩

/-! #### PORT_RETRAIN -/

theorem entryOf_portRetrain {p : Nat} (h : p < 24) :
    entryOf (K.portRetrain + p) = some ⟨K.portRetrain, K.portRetrain + 23, 6, 2, 0, 1, 0, 2 ^ 8 - 1⟩ := by
  have hall : ∀ p : Fin 24, entryOf (K.portRetrain + p.val) =
      some ⟨K.portRetrain, K.portRetrain + 23, 6, 2, 0, 1, 0, 2 ^ 8 - 1⟩ := by decide +kernel
  exact hall ⟨p, h⟩

theorem exec_portRetrain {src port v : Nat} {s : State} (hp : port < 24) (hw : Writable s (K.portRetrain + port)) (hv : v ≤ 1) :
    exec (.portRetrain src port v) s = .next (acceptWrite (if v = 1 then trainPort port s else s)) := by
  change outside s (commitScalar src (K.portRetrain + port % 24) v _ s).2 = _
  rw [Nat.mod_eq_of_lt hp]
  exact outside_commit hw (entryOf_portRetrain hp) (fun _ => hv) (and_mask_of_lt (n := 8) (by omega)) rfl

/-- The four logical ports of a port start their training, and no other. -/
theorem layPort_ports (n c : Nat) (s : State) :
    (∀ i, i < 4 → portOf (layPort n c s) (4 * n + i) = Port.starting c i) ∧
    ∀ p, p / 4 ≠ n → portOf (layPort n c s) p = portOf s p := by
  have hlay : layPort n c s = setPort (4 * n + 3) (Port.starting c 3) (setPort (4 * n + 2) (Port.starting c 2)
      (setPort (4 * n + 1) (Port.starting c 1) (setPort (4 * n + 0) (Port.starting c 0) s))) := rfl
  rw [hlay]
  refine ⟨fun i hi => ?_, fun p hp => ?_⟩
  · obtain rfl | rfl | rfl | rfl : i = 0 ∨ i = 1 ∨ i = 2 ∨ i = 3 := by omega
    · rw [portOf_setPort_of_ne _ _ (by omega), portOf_setPort_of_ne _ _ (by omega), portOf_setPort_of_ne _ _ (by omega),
        portOf_setPort_self]
    · rw [portOf_setPort_of_ne _ _ (by omega), portOf_setPort_of_ne _ _ (by omega), portOf_setPort_self]
    · rw [portOf_setPort_of_ne _ _ (by omega), portOf_setPort_self]
    · rw [portOf_setPort_self]
  · rw [portOf_setPort_of_ne _ _ (by omega), portOf_setPort_of_ne _ _ (by omega), portOf_setPort_of_ne _ _ (by omega),
      portOf_setPort_of_ne _ _ (by omega)]

theorem starting_cfg (c i : Nat) : (Port.starting c i).cfg = c := by
  rw [Port.starting]
  split <;> rfl

/-- A port outside every bond, whose configuration bonds none, trains alone. -/
theorem trainPort_alone {n : Nat} {s : State} (hlead : bondLead s (4 * n) = none) (hold : bondMembers s (4 * n) = [])
    (hbond : cfgBond (dv s (K.portCfg + n)) = 0) : trainPort n s = layPort n (dv s (K.portCfg + n)) s := by
  have hnew : bondMembers (layPort n (dv s (K.portCfg + n)) s) (4 * n) = [] := by
    have hport := (layPort_ports n (dv s (K.portCfg + n)) s).1 0 (by decide)
    simp only [bondMembers, Nat.add_zero] at hport ⊢
    rw [hport, starting_cfg, hbond]
    split <;> rfl
  have hlay : layBond n s = layPort n (dv s (K.portCfg + n)) s := by
    simp only [layBond, hnew, List.foldl_nil]
  simp only [trainPort, hlead, hold, hlay, hnew, List.map_nil, List.flatten_nil, List.append_nil, List.filter_nil, List.foldl_nil]

/-! #### Retrains and flits -/

/-- The port that retrains. -/
def retrainingPort (lp : Nat) (s : State) : Port :=
  { portOf s lp with st := .training, retraining := some s.time.now, replays := [] }

/-- The state in which a port retrains, before it is counted. -/
def retrainBegun (lp : Nat) (s : State) : State :=
  setPort lp (retrainingPort lp s) (setLayer lp { layerOf s lp with replayAsked := false } s)

theorem retrain_links (lp : Nat) (s : State) : (retrain lp s).links = (retrainBegun lp s).links :=
  bump_links (K.linkRetrains + lp / 4) 1 (retrainBegun lp s)

theorem retrain_spec (lp : Nat) (s : State) :
    portOf (retrain lp s) lp = retrainingPort lp s ∧ layerOf (retrain lp s) lp = { layerOf s lp with replayAsked := false } ∧
    (retrain lp s).links.txns = s.links.txns ∧ bit (dv (retrain lp s) K.errSummary) 9 = true ∧ (retrain lp s).out = s.out := by
  have hlinks := retrain_links lp s
  refine ⟨?_, ?_, ?_, bit_errSummary_sumErr .., bump_out ..⟩
  · rw [portOf_congr (congrArg Links.ports hlinks), retrainBegun, portOf_setPort_self]
  · rw [layerOf_congr (congrArg Links.ports hlinks) (congrArg Links.layers hlinks), retrainBegun, layerOf_setPort,
      layerOf_setLayer_self]
  · rw [hlinks]
    rfl

/-- A counted replay leaves what the layer expects to receive, and what has been sent. -/
theorem countReplay_spec (lp : Nat) (s : State) :
    (layerOf (countReplay lp s) lp).nextFlit = (layerOf s lp).nextFlit ∧ (countReplay lp s).out = s.out := by
  unfold countReplay
  extract_lets x rs t
  have hlinks : t.links = (setPort lp { x with replays := rs } s).links := bump_links ..
  have hlayer : layerOf t lp = layerOf s lp := by
    rw [layerOf_congr (congrArg Links.ports hlinks) (congrArg Links.layers hlinks), layerOf_setPort]
  have hout : t.out = s.out := bump_out ..
  split
  · obtain ⟨-, hretrain, -, -, hout'⟩ := retrain_spec lp t
    rw [hretrain, hlayer, hout', hout]
    exact ⟨rfl, rfl⟩
  · rw [hlayer, hout]
    exact ⟨rfl, rfl⟩

theorem askReplay_spec (lp : Nat) (s : State) :
    (layerOf (askReplay lp s) lp).nextFlit = (layerOf s lp).nextFlit ∧ (askReplay lp s).out = s.out ++ [.replayRequest lp] := by
  obtain ⟨hlayer, hout⟩ := countReplay_spec lp (send (.replayRequest lp) (setLayer lp { layerOf s lp with replayAsked := true } s))
  have hset : layerOf (send (.replayRequest lp) (setLayer lp { layerOf s lp with replayAsked := true } s)) lp =
      { layerOf s lp with replayAsked := true } := layerOf_setLayer_self ..
  rw [hset] at hlayer
  exact ⟨hlayer, hout⟩

/-- The flits that a header leaves in the replay buffer. -/
def unacked (x : LinkLayer) (h : FlitHeader) : List (Nat × Nat) :=
  if h.ack ≤ x.nextSent then x.replayBuf.filter fun f => decide (h.ack ≤ f.1) else x.replayBuf

/-- The layer that has taken a header. -/
def headerTaken (x : LinkLayer) (h : FlitHeader) : LinkLayer :=
  pumpFlits { x with replayBuf := unacked x h, credits := (List.range 4).map fun i => x.credits.getD i 0 + h.credits.getD i 0 }

theorem takeHeader_plain {lp : Nat} {h : FlitHeader} {s : State} (hr : h.replay = false) :
    takeHeader lp h s = setLayer lp (headerTaken (layerOf s lp) h) s := by
  unfold takeHeader
  extract_lets x buf credits t
  rw [if_neg (by simp [hr])]
  rfl

/-- A header that asks for a replay has the replay buffer sent again. -/
theorem takeHeader_replay {lp : Nat} {h : FlitHeader} {s : State} (hr : h.replay = true)
    (hf : ∃ f, f ∈ (layerOf s lp).replayBuf ∧ h.ack ≤ f.1) (hack : h.ack ≤ (layerOf s lp).nextSent) :
    (takeHeader lp h s).out = s.out ++
      [.flitResend lp ((layerOf s lp).replayBuf.filter fun f => decide (h.ack ≤ f.1))] := by
  obtain ⟨f, hmem, hle⟩ := hf
  have hbuf : unacked (layerOf s lp) h = (layerOf s lp).replayBuf.filter fun f => decide (h.ack ≤ f.1) := by
    rw [unacked, if_pos hack]
  have hne : (unacked (layerOf s lp) h).isEmpty = false := by
    rw [hbuf]
    exact List.isEmpty_eq_false_iff.2 (List.ne_nil_of_mem (List.mem_filter.2 ⟨hmem, by simpa using hle⟩))
  have htake : takeHeader lp h s = countReplay lp (send (.flitResend lp (unacked (layerOf s lp) h))
      (setLayer lp (headerTaken (layerOf s lp) h) s)) := by
    unfold takeHeader
    extract_lets x buf credits t
    have hne' : buf.isEmpty = false := hne
    rw [if_pos (by rw [hr, hne']; rfl)]
    rfl
  rw [htake, (countReplay_spec ..).2, hbuf]
  rfl

/-- What becomes of a flit without a CRC error, once its header is taken. -/
def flitJudged (lp n : Nat) (u : State) : State :=
  if n = (layerOf u lp).nextFlit then setLayer lp { layerOf u lp with nextFlit := (layerOf u lp).nextFlit + 1, replayAsked := false } u
  else if (layerOf u lp).nextFlit < n && !(layerOf u lp).replayAsked then askReplay lp u
  else u

theorem exec_flitReceive {lp n fec : Nat} {h : FlitHeader} {s : State} (crc : Bool) (ha : alive s = true)
    (hm : cfgMode (portOf s lp).cfg = 1) (hup : (portOf s lp).st = .up) :
    exec (.flitReceive lp n crc fec h) s = .next (if crc
      then flitJudged lp n (takeHeader lp h (bump (K.fecCorrected + lp / 4) fec s))
      else askReplay lp (bump (K.fecCorrected + lp / 4) fec s)) := by
  have hcarrier : carrier s lp = some lp := by
    rw [carrier, List.find?_cons_of_pos (by simp [hup])]
  change execFlitReceive lp n crc fec h s = _
  simp only [execFlitReceive, ha, hm, beq_self_eq_true, Bool.and_self, if_true, hcarrier, flitJudged]
  cases crc
  · rfl
  · simp only [Bool.not_true, Bool.false_eq_true, if_false, if_true]
    split
    · rfl
    · split <;> rfl

/-- What is judged of a flit only adds to what has been sent. -/
theorem mem_out_flitJudged {m : OutMsg} {lp n : Nat} {u : State} (h : m ∈ u.out) : m ∈ (flitJudged lp n u).out := by
  unfold flitJudged
  split
  · exact h
  · split
    · rw [(askReplay_spec ..).2]
      exact List.mem_append_left _ h
    · exact h

/-- A flit whose header asks for no replay. -/
theorem flitJudged_plain {lp n : Nat} {h : FlitHeader} {s : State} (hr : h.replay = false) :
    (n ≤ (layerOf s lp).nextFlit → (portOf (flitJudged lp n (takeHeader lp h s)) lp).st = (portOf s lp).st ∧
      (flitJudged lp n (takeHeader lp h s)).out = s.out) ∧
    (n = (layerOf s lp).nextFlit → (layerOf (flitJudged lp n (takeHeader lp h s)) lp).nextFlit = n + 1 ∧
      (layerOf (flitJudged lp n (takeHeader lp h s)) lp).replayAsked = false) ∧
    (n < (layerOf s lp).nextFlit → (layerOf (flitJudged lp n (takeHeader lp h s)) lp).nextFlit = (layerOf s lp).nextFlit) ∧
    ((layerOf s lp).nextFlit < n → (layerOf s lp).replayAsked = false →
      OutMsg.replayRequest lp ∈ (flitJudged lp n (takeHeader lp h s)).out) := by
  obtain ⟨hnext, hasked⟩ : (headerTaken (layerOf s lp) h).nextFlit = (layerOf s lp).nextFlit ∧
      (headerTaken (layerOf s lp) h).replayAsked = (layerOf s lp).replayAsked := pumpFlits_receives ..
  have hlayer := layerOf_setLayer_self lp (headerTaken (layerOf s lp) h) s
  have hn := (congrArg LinkLayer.nextFlit hlayer).trans hnext
  have hq := (congrArg LinkLayer.replayAsked hlayer).trans hasked
  rw [takeHeader_plain hr]
  generalize hu : setLayer lp (headerTaken (layerOf s lp) h) s = u at hn hq
  have hport : portOf u lp = portOf s lp := by rw [← hu]; exact portOf_congr rfl _
  have hout : u.out = s.out := by rw [← hu]; rfl
  unfold flitJudged
  rw [hn, hq]
  rcases Nat.lt_trichotomy n (layerOf s lp).nextFlit with h | h | h
  · rw [if_neg (Nat.ne_of_lt h), if_neg (by simp [Nat.lt_asymm h])]
    exact ⟨fun _ => ⟨by rw [hport], hout⟩, fun h' => absurd h' (Nat.ne_of_lt h), fun _ => hn, fun h' => absurd h' (Nat.lt_asymm h)⟩
  · rw [if_pos h]
    refine ⟨fun _ => ⟨congrArg Port.st hport, hout⟩, fun _ => ?_, fun h' => absurd h (Nat.ne_of_lt h'),
      fun h' => absurd h (Nat.ne_of_gt h')⟩
    rw [layerOf_setLayer_self]
    exact ⟨by rw [h], rfl⟩
  · refine ⟨fun h' => absurd h' (Nat.not_le.2 h), fun h' => absurd h' (Nat.ne_of_gt h), fun h' => absurd h' (Nat.lt_asymm h),
      fun _ hno => ?_⟩
    rw [if_neg (Nat.ne_of_gt h), if_pos (by simp [h, hno]), (askReplay_spec ..).2]
    exact List.mem_append_right _ (List.mem_singleton.2 rfl)

/-! #### Pauses, transit and routes -/

theorem bit_setOrClear (x i : Nat) (b : Bool) : bit (if b then setBit x i else clearBit x i) i = b := by
  cases b
  · simp [bit_clearBit]
  · simp [bit_setBit]

theorem exec_pfcPause {lp prio : Nat} {pause : Bool} {s : State} (ha : alive s = true) (hp : prio < 8)
    (hm : cfgMode (portOf s lp).cfg = 2 ∨ cfgMode (portOf s lp).cfg = 3) (hup : (portOf s lp).st = .up)
    (hb : bit (dv s (K.portPfc + lp)) prio = true) : exec (.pfcPause lp prio pause) s = .next (pumpLinks (setPort lp
      { portOf s lp with paused := if pause then setBit (portOf s lp).paused prio else clearBit (portOf s lp).paused prio } s)) := by
  have hmay : (alive s && (cfgMode (portOf s lp).cfg == 2 || cfgMode (portOf s lp).cfg == 3) && (portOf s lp).st == .up &&
      decide (prio < 8) && bit (dv s (K.portPfc + lp)) prio) = true := by
    rcases hm with h | h <;> simp [ha, hp, h, hup, hb]
  change execPfcPause lp prio pause s = _
  unfold execPfcPause
  dsimp only
  rw [if_pos hmay]

theorem exec_transitPacket {lp dest hops vc : Nat} {s : State} (ha : alive s = true) (hup : portUp s lp = true) :
    exec (.transitPacket lp dest hops vc) s =
      .next (if dest % 4096 = nodeId s then s else sendTransit (dest % 4096) hops vc s) := by
  change execTransitPacket lp dest hops vc s = _
  simp only [execTransitPacket, ha, hup, Bool.not_true, Bool.false_or, beq_iff_eq]
  split <;> rfl

theorem sendTransit_discarded {dest hops vc : Nat} {s : State}
    (h : routeValid (routeEntry s dest) = false ∨ dv s K.hopLimit ≤ hops + 1) :
    sendTransit dest hops vc s = (s |> bump K.transitDiscarded 1 |> sumErr 10) := by
  unfold sendTransit
  extract_lets e v
  have hno : (!routeValid e || decide (hops + 1 ≥ dv s K.hopLimit) || decide (v > 3)) = true := by
    rcases h with h | h
    · rw [show routeValid e = false from h]
      rfl
    · simp [h]
  rw [if_pos hno, discardTransit]

theorem sendFlits_transit (p vc n : Nat) (s : State) :
    (sendFlits p vc n s).links.transit = s.links.transit ∧ (sendFlits p vc n s).out = s.out := by
  rw [sendFlits]
  split <;> exact ⟨rfl, rfl⟩

theorem getD_mod_mem (h : Nat) (hs : List Nat) (n : Nat) : (h :: hs).getD (n % (hs.length + 1)) h ∈ h :: hs := by
  exact getD_mem_of_lt h (Nat.mod_lt _ (Nat.succ_pos hs.length))

/-- A packet that is forwarded waits for a hop, or leaves over one. -/
theorem sendTransit_forwarded {dest hops vc : Nat} {s : State} (hv : routeValid (routeEntry s dest) = true)
    (hh : hops + 1 < dv s K.hopLimit) (hc : vc + (if bit (routeEntry s dest) 58 then 1 else 0) ≤ 3) :
    ((usableHops s dest).filter (portTakes s) = [] →
      (sendTransit dest hops vc s).links.transit = s.links.transit ++ [(dest, hops, vc)] ∧ (sendTransit dest hops vc s).out = s.out) ∧
    ((usableHops s dest).filter (portTakes s) ≠ [] → ∃ h, h ∈ usableHops s dest ∧ portTakes s h = true ∧
      (sendTransit dest hops vc s).links.transit = s.links.transit ∧
      (sendTransit dest hops vc s).out =
        s.out ++ [.transit h dest (hops + 1) (vc + (if bit (routeEntry s dest) 58 then 1 else 0))]) := by
  unfold sendTransit
  extract_lets e v
  have hno : (!routeValid e || decide (hops + 1 ≥ dv s K.hopLimit) || decide (v > 3)) = false := by
    rw [show routeValid e = true from hv]
    have hv3 : v ≤ 3 := hc
    simp [hv3, hh]
  rw [hno, if_neg Bool.false_ne_true]
  cases hl : (usableHops s dest).filter (portTakes s) with
  | nil => exact ⟨fun _ => ⟨rfl, rfl⟩, fun h => absurd rfl h⟩
  | cons h hs =>
    refine ⟨fun h => by simp at h, fun _ => ?_⟩
    dsimp only
    generalize hp : (h :: hs).getD ((takeFree s).1 % (hs.length + 1)) h = p
    have hmem : p ∈ (usableHops s dest).filter (portTakes s) := by
      rw [hl, ← hp]
      exact getD_mod_mem ..
    obtain ⟨husable, htakes⟩ := List.mem_filter.1 hmem
    obtain ⟨htransit, hout⟩ := sendFlits_transit p v 1 (takeFree s).2
    exact ⟨p, husable, htakes, htransit, congrArg (· ++ [_]) hout⟩

theorem entryOf_routeWrite : entryOf K.routeWrite = some ⟨K.routeWrite, K.routeWrite, 3, 2, 0, 8, 0, 2 ^ 64 - 1⟩ := by decide +kernel

/-- The state in which a routing entry has been written. -/
def routeStored (v : Nat) (s : State) : State :=
  { s with links := { s.links with routes := s.links.routes.put (bits v 0 12) (bits v 0 59) } }

theorem exec_routeWrite {src v : Nat} {s : State} (hv : v < 2 ^ 64) (hw : Writable s K.routeWrite)
    (hok : ((List.range 4).all fun i => hopOk (routeHop v i)) = true) :
    exec (.routeWrite src v) s = .next (acceptWrite (pumpLinks (routeStored v s))) := by
  have hact : writeRoute v s = (0, pumpLinks (routeStored v s)) := by
    simp only [writeRoute, hok, if_true, routeStored]
  change outside s (commitScalar src K.routeWrite (v % 2 ^ 64) writeRoute s).2 = _
  rw [Nat.mod_eq_of_lt hv, outside_commit hw entryOf_routeWrite (fun h => by simp at h) (and_mask_of_lt hv) (by rw [hact]), hact]

theorem exec_routeWrite_refused {src v : Nat} {s : State} (hv : v < 2 ^ 64) (hw : Writable s K.routeWrite)
    (hok : ((List.range 4).all fun i => hopOk (routeHop v i)) = false) :
    exec (.routeWrite src v) s = .next (refuseWrite src K.routeWrite 3 s) := by
  have hact : writeRoute v s = (3, s) := by
    simp only [writeRoute, hok, Bool.false_eq_true, if_false]
  change outside s (commitScalar src K.routeWrite (v % 2 ^ 64) writeRoute s).2 = _
  rw [Nat.mod_eq_of_lt hv, outside_turned_away hw entryOf_routeWrite (fun h => by simp at h) (and_mask_of_lt hv) (by simp [hact]),
    hact]

theorem routeEntry_congr {s t : State} (h : t.links.routes = s.links.routes) (n : Nat) : routeEntry t n = routeEntry s n := by
  rw [routeEntry, h, routeEntry]

/-- Settles O50. -/
theorem portsTrainAndCarry : Obligations.PortsTrainAndCarry := by
  unfold Obligations.PortsTrainAndCarry
  refine ⟨fun lp r cap s ha hlp hst hok hclk hup hfits hrate hbond => ?_, fun lp r s ha hst hok hup hre hlp => ?_,
    fun lp r s ha hst hok => ?_, fun lp s ha hst hm hcfg => ?_, fun src port s hp hw hlead hold hbond => ⟨?_, ?_⟩,
    fun lp s ha hm hup => ?_, fun lp since s ha hst hre => ?_, fun lp n fec h s ha hm hup => ⟨?_, ?_⟩,
    fun lp prio pause s ha hp hm hup hb => ?_, fun lp dest hops vc s ha hup => ⟨fun hown => ?_, fun hne hinv => ?_,
      fun hne hlim => ?_, fun hne hval hlim hvc => ?_⟩, fun src v s hv hw => ?_⟩
  · have hexec := exec_portTrainingDone_up ha hst hok hclk hup hfits hrate hbond
    by_cases hc : cfgMode (portOf s lp).cfg ≠ 1 ∨ (portOf s lp).retraining ≠ none ∨ r.neighbour ≠ nodeId s
    · obtain ⟨u, htrained, hu⟩ := portTrained_up (lp := lp) (capped := cap) hc
      obtain ⟨hport, hmem, hevent⟩ := portBecomesUp_spec (lp := lp) (x := portOf s lp) (r := r) (capped := cap) (s := u) (by omega)
      refine ⟨_, hexec.trans htrained, ?_, ?_, ?_, ?_, hmem.trans hu, fun _ => ⟨?_, hevent⟩, fun h1 h2 h3 => ?_⟩
      · rw [hport]; rfl
      · rw [hport]; rfl
      · rw [hport]; rfl
      · rw [hport]; rfl
      · rw [hport]
      · exact absurd hc (by simp [h1, h2, h3])
    · simp only [ne_eq, not_or, Classical.not_not] at hc
      obtain ⟨h1, h2, h3⟩ := hc
      obtain ⟨hport, hmem, hevent⟩ := nodeConflicts_spec (lp := lp) (x := portOf s lp) (r := r) (capped := cap) (s := s) (by omega)
      refine ⟨_, hexec.trans (portTrained_conflict h1 h2 h3), ?_, ?_, ?_, ?_, hmem, fun hc => absurd hc (by simp [h1, h2, h3]),
        fun _ _ _ => ⟨?_, hevent⟩⟩
      · rw [hport]; rfl
      · rw [hport]; rfl
      · rw [hport]; rfl
      · rw [hport]; rfl
      · rw [hport]
  · obtain ⟨hport, hothers, herr, ⟨e, he, hcode, harg⟩, -⟩ := portDown_spec (lp := lp) (s := s) (by omega)
    refine ⟨_, e, ?_, ?_, ?_, he, hcode, harg, herr, hothers⟩
    · change execPortTrainingDone lp r s = _
      simp only [execPortTrainingDone, ha, hst, hok, hup, hre, Bool.not_true, bne_self_eq_false, Bool.or_self, Bool.false_and,
        Bool.not_false, Option.isSome_none, Bool.false_eq_true, if_false, if_true]
    · rw [hport]
    · rw [hport]
  · have hno : (!alive s || (portOf s lp).st != .training) = false := by simp [ha, hst]
    change execPortTrainingDone lp r s = _
    unfold execPortTrainingDone
    dsimp only
    rw [hno, if_neg Bool.false_ne_true, hok, if_pos (by rfl)]
  · have hno : (!alive s || (portOf s lp).st != .down || cfgMode (portOf s lp).cfg == 0) = false := by simp [ha, hst, hm]
    have hself : ((bondLead (atLeast ((portOf s lp).downAt + 1000000000) s) lp).isSome ||
        (portOf s lp).cfg == dv (atLeast ((portOf s lp).downAt + 1000000000) s) (K.portCfg + lp / 4)) = true := by
      rw [show dv (atLeast _ s) (K.portCfg + lp / 4) = dv s (K.portCfg + lp / 4) from rfl, ← hcfg]
      simp
    refine ⟨setPort lp { Port.idle with cfg := (portOf s lp).cfg, st := .training }
      (atLeast ((portOf s lp).downAt + 1000000000) s), ?_, Nat.le_max_right .., portOf_setPort_self ..,
      fun p hp => portOf_setPort_of_ne _ _ hp⟩
    change execPortRetry lp s = _
    unfold execPortRetry
    dsimp only
    rw [hno, if_neg Bool.false_ne_true, if_pos hself]
  · rw [exec_portRetrain hp hw (by decide), if_neg (by decide)]
  · obtain ⟨hself, hothers⟩ := layPort_ports port (dv s (K.portCfg + port)) s
    refine ⟨_, exec_portRetrain hp hw (by decide), ?_⟩
    rw [if_pos rfl, trainPort_alone hlead hold hbond]
    exact ⟨hself, hothers⟩
  · obtain ⟨hport, hlayer, htxns, herr, -⟩ := retrain_spec lp s
    refine ⟨retrain lp s, ?_, ?_, ?_, ?_, ?_, ?_, htxns, herr⟩
    · change outside s (if cfgMode (portOf s lp).cfg = 1 ∧ (portOf s lp).st = .up then retrain lp s else s) = _
      rw [if_pos ⟨hm, hup⟩, outside_of_alive ha]
    · rw [hport]; rfl
    · rw [hport]; rfl
    · rw [hport]; rfl
    · rw [hlayer]
    · rw [hlayer]
  · have hport : (portOf (portDown lp (atLeast (since + 500000000) s)) lp).st = .down := by
      have hset : portOf (portDown lp (atLeast (since + 500000000) s)) lp =
          { portOf s lp with st := .down, retraining := none, downAt := (atLeast (since + 500000000) s).time.now } :=
        portOf_setPort_self ..
      rw [hset]
    refine ⟨portDown lp (atLeast (since + 500000000) s), ?_, Nat.le_max_right .., hport⟩
    change execRetrainTimeout lp s = _
    simp only [execRetrainTimeout, hst, hre, ha, if_true]
  · have hlinks : (bump (K.fecCorrected + lp / 4) fec s).links = s.links := bump_links ..
    have hlayer := layerOf_congr (congrArg Links.ports hlinks) (congrArg Links.layers hlinks) lp
    have hport := portOf_congr (congrArg Links.ports hlinks) lp
    have hout : (bump (K.fecCorrected + lp / 4) fec s).out = s.out := bump_out ..
    refine ⟨_, exec_flitReceive true ha hm hup, ?_⟩
    rw [if_pos rfl, ← hlayer, ← hout]
    refine ⟨fun hr hn => ?_, fun hr => (flitJudged_plain hr).2.1, fun hr => (flitJudged_plain hr).2.2.1,
      fun hr => (flitJudged_plain hr).2.2.2, fun hr hf hack => ?_⟩
    · obtain ⟨hst, hsent⟩ := (flitJudged_plain hr).1 hn
      rw [hst, hport]
      exact ⟨hup, hsent⟩
    · refine mem_out_flitJudged ?_
      rw [takeHeader_replay hr hf hack]
      exact List.mem_append_right _ (List.mem_singleton.2 rfl)
  · have hlinks : (bump (K.fecCorrected + lp / 4) fec s).links = s.links := bump_links ..
    have hlayer := layerOf_congr (congrArg Links.ports hlinks) (congrArg Links.layers hlinks) lp
    obtain ⟨hnext, hout⟩ := askReplay_spec lp (bump (K.fecCorrected + lp / 4) fec s)
    refine ⟨_, exec_flitReceive false ha hm hup, ?_⟩
    rw [if_neg Bool.false_ne_true, hnext, hout, hlayer]
    exact ⟨List.mem_append_right _ (List.mem_singleton.2 rfl), rfl⟩
  · have hcarries := pumpLinks_carries (setPort lp
      { portOf s lp with paused := if pause then setBit (portOf s lp).paused prio else clearBit (portOf s lp).paused prio } s)
    refine ⟨_, exec_pfcPause ha hp hm hup hb, ?_, hcarries.mem⟩
    rw [portOf_congr hcarries.ports, portOf_setPort_self]
    exact bit_setOrClear ..
  · rw [exec_transitPacket ha hup, if_pos hown]
  · rw [exec_transitPacket ha hup, if_neg hne, sendTransit_discarded (.inl hinv)]
  · rw [exec_transitPacket ha hup, if_neg hne, sendTransit_discarded (.inr hlim)]
  · obtain ⟨hwait, hleave⟩ := sendTransit_forwarded hval hlim hvc
    refine ⟨_, exec_transitPacket ha hup, ?_⟩
    rw [if_neg hne]
    exact ⟨hwait, hleave⟩
  · by_cases hok : ((List.range 4).all fun i => hopOk (routeHop v i)) = true
    · have hroutes := (pumpLinks_carries (routeStored v s)).routes
      refine ⟨_, exec_routeWrite hv hw hok, fun _ => ⟨?_, fun n hn => ?_⟩, fun h => by rw [hok] at h; cases h⟩
      · rw [routeEntry_congr (acceptWrite_links _ ▸ hroutes)]
        exact Tab.get_put_self ..
      · rw [routeEntry_congr (acceptWrite_links _ ▸ hroutes)]
        exact Tab.get_put_of_ne _ _ _ hn
    · have hno : ((List.range 4).all fun i => hopOk (routeHop v i)) = false := by simpa using hok
      exact ⟨_, exec_routeWrite_refused hv hw hno, fun h => absurd h hok, fun _ => refuseWrite_onlyRecords ..⟩

end Sys2Proof.Machine

/-! ### Transactions that resolve (O51) -/

namespace Sys2Proof.Machine

theorem Tab.findIn_map {α β : Type} (f : Nat → α → β) (l : List (Nat × α)) (k : Nat) :
    Tab.findIn (l.map fun c => (c.1, f c.1 c.2)) k = (Tab.findIn l k).map (f k) := by
  induction l with
  | nil => rfl
  | cons c l ih =>
    obtain ⟨k', v⟩ := c
    by_cases h : k' = k
    · simp [Tab.findIn, h]
    · simp only [List.map_cons, Tab.findIn, h, if_false, ih]

theorem Tab.find_map {α β : Type} (t : Tab α) (f : Nat → α → β) (k : Nat) : (t.map f).find k = (t.find k).map (f k) :=
  Tab.findIn_map ..

theorem Tab.findIn_ne_none {α : Type} {l : List (Nat × α)} {c : Nat × α} (h : c ∈ l) : Tab.findIn l c.1 ≠ none := by
  induction l with
  | nil => simp at h
  | cons d l ih =>
    obtain ⟨k, v⟩ := d
    rw [Tab.findIn]
    split
    · simp
    next hne =>
      rcases List.mem_cons.1 h with rfl | hc
      · exact absurd rfl hne
      · exact ih hc

/-- What the end of a transaction keeps: the blobs, the clock, and that a transaction that is no longer outstanding stays so. -/
structure Settles (s t : State) : Prop where
  blobs : t.dict.blobs = s.dict.blobs
  time : t.time = s.time
  forgotten : ∀ id, s.links.txns.find id = none → t.links.txns.find id = none

namespace Settles
variable {s t u : State}

theorem refl (s : State) : Settles s s := ⟨rfl, rfl, fun _ h => h⟩

theorem trans (h : Settles s t) (h' : Settles t u) : Settles s u :=
  ⟨h'.blobs.trans h.blobs, h'.time.trans h.time, fun id hid => h'.forgotten id (h.forgotten id hid)⟩

theorem of_txns (hb : t.dict.blobs = s.dict.blobs) (ht : t.time = s.time) (hl : t.links.txns = s.links.txns) : Settles s t :=
  ⟨hb, ht, fun id h => by rw [hl]; exact h⟩

end Settles

section
variable {α : Type}

theorem foldl_settles {f : State → α → State} (h : ∀ t x, Settles t (f t x)) (l : List α) (s : State) :
    Settles s (l.foldl f s) := foldl_keeps (Settles s) f (fun t x ht => ht.trans (h t x)) l s (.refl s)

end

theorem setJob_settles (key : Nat) (j : Job) (s : State) : Settles s (setJob key j s) := ⟨rfl, rfl, fun _ h => h⟩
theorem send_settles (m : OutMsg) (s : State) : Settles s (send m s) := ⟨rfl, rfl, fun _ h => h⟩
theorem setColl_settles (key : Nat) (c : Coll) (s : State) : Settles s (setColl key c s) := ⟨rfl, rfl, fun _ h => h⟩
theorem raise_settles (c o a b : Nat) (s : State) : Settles s (raise c o a b s) := ⟨rfl, rfl, fun _ h => h⟩

theorem sumErr_settles (b : Nat) (s : State) : Settles s (sumErr b s) := ⟨rfl, rfl, fun _ h => h⟩

theorem bump_settles (k n : Nat) (s : State) : Settles s (bump k n s) :=
  .of_txns (dict_of_still (bump_still k n s)) (bump_time k n s) (congrArg Links.txns (bump_links k n s))

theorem addOut_settles (key : Nat) (o : Status) (s : State) : Settles s (addOut key o s) := by
  rw [addOut]
  split
  · split
    · exact .refl s
    · exact ⟨rfl, rfl, fun _ h => h⟩
  · exact .refl s

theorem dropAnswers_settles (p : TOwner → Bool) (s : State) : Settles s (dropAnswers p s) :=
  ⟨rfl, rfl, fun id h => by rw [dropAnswers, Tab.find_map, h, Option.map_none]⟩

theorem dropTxn_settles (id : Nat) (s : State) : Settles s (dropTxn id s) := by
  refine ⟨rfl, rfl, fun j h => ?_⟩
  by_cases hj : j = id
  · subst hj
    exact Tab.find_del_self ..
  · exact (Tab.find_del_of_ne _ hj).trans h

theorem sendFlits_settles (p vc n : Nat) (s : State) : Settles s (sendFlits p vc n s) := by
  rw [sendFlits]
  split <;> exact ⟨rfl, rfl, fun _ h => h⟩

/-- A transaction that leaves stands in the table already. -/
theorem leaveTxn_settles {id : Nat} (x : Txn) {s : State} (h : s.links.txns.find id ≠ none) : Settles s (leaveTxn id x s) := by
  have hput : ∀ y, ∀ j, s.links.txns.find j = none → (s.links.txns.put id y).find j = none := fun y j hj => by
    have hne : j ≠ id := fun hid => h (hid ▸ hj)
    rw [Tab.find_put_of_ne _ _ hne, hj]
  unfold leaveTxn
  dsimp only
  generalize (if x.peer then nextHop s x.conn x.node else none) = hop
  cases hop with
  | none => exact ⟨rfl, rfl, hput _⟩
  | some p =>
    dsimp only
    refine Settles.trans ?_ (sendFlits_settles ..)
    exact ⟨rfl, rfl, hput _⟩

theorem pumpConn_settles (conn n : Nat) (s : State) : Settles s (pumpConn conn n s) := by
  induction n generalizing s with
  | zero => exact .refl s
  | succ n ih =>
    unfold pumpConn
    split
    · exact .refl s
    next c hc =>
      split
      · exact (leaveTxn_settles c.2 (Tab.findIn_ne_none (List.mem_of_find?_eq_some hc))).trans (ih _)
      · exact .refl s

theorem pumpAll_settles (s : State) : Settles s (pumpAll s) := foldl_settles (fun _ _ => pumpConn_settles ..) _ _

theorem countCompleted_settles (gen op : Nat) (s : State) : Settles s (countCompleted gen op s) :=
  (bump_settles ..).trans (bump_settles ..)

theorem addRecord_settles (q : Nat) (r : CplRec) (s : State) : Settles s (addRecord q r s) := by
  have hstall : Settles s (if cplFull (queueOf s q) then bump K.cplRingStalls 1 s else s) := by
    split
    · exact bump_settles ..
    · exact .refl s
  exact hstall.trans ⟨rfl, rfl, fun _ h => h⟩

theorem finishWith_settles (key : Nat) (st : Status) (s : State) : Settles s (finishWith key st s) := by
  unfold finishWith
  split
  · exact .refl s
  next j _ =>
    extract_lets st' q seq x t u v
    have hu : Settles s u := ⟨rfl, rfl, fun _ h => h⟩
    have hv : Settles s v := hu.trans ((dropAnswers_settles ..).trans (countCompleted_settles ..))
    split
    · exact hv
    · exact hv.trans (addRecord_settles ..)

theorem signalEvent_settles (key : Nat) (j : Job) (st : Status) (s : State) : Settles s (signalEvent key j st s) := by
  rw [signalEvent]
  split
  · exact raise_settles ..
  · exact .refl s

theorem finishJob_settles (key : Nat) (s : State) : Settles s (finishJob key s) := by
  rw [finishJob]
  split
  · exact .refl s
  · exact (finishWith_settles ..).trans (signalEvent_settles ..)

theorem settleOwner_settles (o : TOwner) (s : State) : Settles s (settleOwner o s) := by
  rw [settleOwner]
  split
  · rw [settleJob]
    split
    · split
      · exact finishJob_settles ..
      · exact .refl s
    · exact .refl s
  · exact .refl s

theorem endColl_settles (key : Nat) (o : Status) (notice : Bool) (s : State) : Settles s (endColl key o notice s) := by
  unfold endColl
  split
  · exact .refl s
  next c _ =>
    extract_lets t
    have ht : Settles s t := (setColl_settles ..).trans (addOut_settles ..)
    split
    · exact ht.trans (foldl_settles (fun _ _ => send_settles ..) _ _)
    · exact ht

theorem endCollOf_settles (o : TOwner) (f : RemoteFail) (s : State) : Settles s (endCollOf o f s) := by
  unfold endCollOf
  split
  · split
    · split
      · exact .refl s
      · exact endColl_settles ..
    · exact .refl s
  · exact .refl s

theorem answerRead_settles (x : Txn) (a : RemoteRead) (s : State) : Settles s (answerRead x a s) := by
  rw [answerRead]
  split
  · exact ⟨rfl, rfl, fun _ h => h⟩
  · exact .refl s

theorem haulAcked_settles (o : TOwner) (n : Nat) (s : State) : Settles s (haulAcked o n s) := by
  unfold haulAcked
  split
  · split
    · exact ⟨rfl, rfl, fun _ h => h⟩
    · exact .refl s
  · exact .refl s

theorem giveData_settles (x : Txn) (poison : Bool) (data : List Byte) (s : State) : Settles s (giveData x poison data s) := by
  unfold giveData
  split
  · split
    · exact ⟨rfl, rfl, fun _ h => h⟩
    · exact .refl s
  · exact answerRead_settles ..

theorem ownerOut_settles (o : TOwner) (st : Status) (s : State) : Settles s (ownerOut o st s) := by
  cases o with
  | job key => exact addOut_settles ..
  | share key _ => exact addOut_settles ..
  | expert key e => exact ⟨rfl, rfl, fun _ h => h⟩
  | req _ | ring _ | record _ | peer _ _ | nobody => exact .refl s

theorem failOwner_settles (o : TOwner) (f : RemoteFail) (s : State) : Settles s (failOwner o f s) := by
  unfold failOwner
  split
  · split
    · exact ⟨rfl, rfl, fun _ h => h⟩
    · exact .refl s
  · exact ownerOut_settles ..

/-- A transaction that has failed is outstanding no more. -/
theorem failTxn_spec (id : Nat) (f : RemoteFail) (s : State) :
    Settles s (failTxn id f s) ∧ (failTxn id f s).links.txns.find id = none := by
  unfold failTxn
  split
  next x hx =>
    extract_lets t
    have hdrop : (dropTxn id s).links.txns.find id = none := Tab.find_del_self ..
    have hfail : Settles (dropTxn id s) t := failOwner_settles ..
    have hleft : Settles (dropTxn id s) (if x.read && isUnit x.owner then answerRead x (.failed f) t else t) := by
      split
      · exact hfail.trans (answerRead_settles ..)
      · exact hfail
    exact ⟨(dropTxn_settles id s).trans hleft, hleft.forgotten id hdrop⟩
  next hnone => exact ⟨.refl s, hnone⟩

theorem failSettle_spec (id : Nat) (f : RemoteFail) (s : State) :
    Settles s (failSettle id f s) ∧ (failSettle id f s).links.txns.find id = none := by
  unfold failSettle
  split
  next hnone => exact ⟨.refl s, hnone⟩
  next x hx =>
    obtain ⟨hs, hnone⟩ := failTxn_spec id f s
    have hend : Settles (failTxn id f s) (settleOwner x.owner (endCollOf x.owner f (failTxn id f s))) :=
      (endCollOf_settles ..).trans (settleOwner_settles ..)
    exact ⟨hs.trans hend, hend.forgotten id hnone⟩

/-- A transaction that fails, and what waited for it. -/
theorem failSettle_pumped (id : Nat) (f : RemoteFail) (s : State) :
    Settles s (pumpAll (failSettle id f s)) ∧ (pumpAll (failSettle id f s)).links.txns.find id = none := by
  obtain ⟨hs, hnone⟩ := failSettle_spec id f s
  exact ⟨hs.trans (pumpAll_settles _), (pumpAll_settles _).forgotten id hnone⟩

/-- A transaction that is acknowledged is outstanding no more. -/
theorem ackTxn_forgets (id : Nat) (poison : Bool) (data : List Byte) (s : State) :
    (ackTxn id poison data s).links.txns.find id = none := by
  unfold ackTxn
  split
  next hnone => exact hnone
  next x _ =>
    extract_lets t
    exact ((pumpAll_settles _).trans (settleOwner_settles ..)).forgotten id (Tab.find_del_self ..)

/-! #### What goes out again -/

/-- A transaction that goes out again, over the hop p. -/
theorem exec_transportResend {id : Nat} {x : Txn} {s : State} (hx : s.links.txns.find id = some x) (hp : x.peer = true)
    (hs : x.sent = true) (hv : routeValid (routeEntry s x.node) = true)
    (hh : (usableHops s x.node).filter (portTakes s) ≠ []) :
    ∃ p t, p ∈ usableHops s x.node ∧ exec (.transportResend id) s = .next t ∧
      t.time = (atLeast (x.resentAt + 20000) s).time ∧
      t.links.txns.find id = some { x with resentAt := (atLeast (x.resentAt + 20000) s).time.now, hop := some p } ∧
      t.out = s.out ++ [.retransmit x.conn x.psn] ∧ t.mem = s.mem := by
  cases hl : (usableHops s x.node).filter (portTakes s) with
  | nil => exact absurd hl hh
  | cons h hs' =>
    have hmem := List.mem_filter.1 (hl ▸ getD_mod_mem h hs' (takeFree (atLeast (x.resentAt + 20000) s)).1)
    change ∃ p t, _ ∧ execTransportResend id s = .next t ∧ _
    simp only [execTransportResend, hx, hp, hs, hv, Bool.and_self, if_true, hl]
    refine ⟨_, _, hmem.1, rfl, ?_, ?_, ?_, ?_⟩
    · exact (sendFlits_settles ..).time.trans (bump_time ..)
    · rw [sendFlits_txns]
      refine (congrArg (fun l : Links => l.txns.find id) (bump_links ..)).trans ?_
      refine (Tab.find_put_self ..).trans ?_
      simp only [hl] <;> rfl
    · rw [(sendFlits_transit ..).2]
      exact congrArg (· ++ [_]) (bump_out ..)
    · exact (sendFlits_carries ..).mem.trans (bump_mem ..)


/-- What goes out again from the first unacknowledged packet on. -/
theorem goBack_spec {conn : Nat} (psn : Nat) {s : State} (h : (connOf s conn).retries < connRetry (connOf s conn)) :
    (goBack conn psn s).out = s.out ++ [.retransmit conn psn] ∧
    (connOf (goBack conn psn s) conn).retries = (connOf s conn).retries + 1 ∧ (goBack conn psn s).mem = s.mem ∧
    (goBack conn psn s).time = s.time := by
  unfold goBack
  extract_lets k out n t
  rw [if_neg (Nat.not_le.2 h)]
  refine ⟨?_, ?_, ?_, ?_⟩
  · exact congrArg (· ++ [_]) (bump_out ..)
  · refine (congrArg (fun l : Links => (l.conns.get Conn.unused conn).retries) (bump_links ..)).trans ?_
    exact congrArg Conn.retries (Tab.get_put_self ..)
  · exact bump_mem ..
  · exact bump_time ..

/-! #### Nodes that are abandoned, and connection records -/

theorem setBlobBit_blob_congr {s t : State} (key i : Nat) (v : Bool) (h : t.dict.blobs = s.dict.blobs) :
    blob (setBlobBit key i v t) key = blob (setBlobBit key i v s) key := by
  rw [setBlobBit, setBlobBit, blob_setBlob_self, blob_setBlob_self, blob_congr h]

theorem noteAbandoned_settles (node conn : Nat) (s : State) :
    Settles (setBlobBit K.abandonedNodes node true s) (noteAbandoned node conn s) :=
  ((bump_settles ..).trans (sumErr_settles ..)).trans (raise_settles ..)

theorem entryOf_abandonedClear :
    entryOf K.abandonedClear = some ⟨K.abandonedClear, K.abandonedClear, 1, 2, 0, 2, 0, 2 ^ 12 - 1⟩ := by decide +kernel

theorem entryOf_connWrite : entryOf K.connWrite = some ⟨K.connWrite, K.connWrite, 8, 2, 0, 64, 0, 0⟩ := by decide +kernel

theorem length_toBytes (n v : Nat) : (toBytes n v).length = n := by
  induction n generalizing v with
  | zero => rfl
  | succ n ih => rw [toBytes, List.length_cons, ih]


/-- A connection record that is written meets its rule whole. -/
theorem exec_connWrite {src r : Nat} {s : State} (hw : Writable s K.connWrite) (hr : r < 2 ^ 512) :
    ((writeConn r s).1 = 0 → ∃ t, exec (.connWrite src r) s = .next t ∧ t.links = (writeConn r s).2.links) ∧
    ((writeConn r s).1 ≠ 0 → ∃ t, exec (.connWrite src r) s = .next t ∧ t.links = s.links) := by
  obtain ⟨halive, hwrite⟩ := hw
  have hfit : blobFits K.connWrite (toBytes 64 r) = true := by
    rw [blobFits, entryOf_connWrite]
    simp [length_toBytes]
  have hbytes : ofBytes (toBytes 64 r) = r := by rw [ofBytes_toBytes, show 8 * 64 = 512 from rfl, Nat.mod_eq_of_lt hr]
  change (_ → ∃ t, execConnWrite src r s = .next t ∧ _) ∧ (_ → ∃ t, execConnWrite src r s = .next t ∧ _)
  rw [execConnWrite, outside_of_alive halive]
  refine ⟨fun h => ⟨_, rfl, ?_⟩, fun h => ⟨_, rfl, ?_⟩⟩
  · simp only [commitBlob]
    rw [commit_accepted _ _ _ s hwrite (by simp only [hfit, if_true, hbytes, h])]
    simp only [hfit, if_true, hbytes, acceptWrite_links]
  · simp only [commitBlob]
    rw [commit_turned_away _ _ _ s hwrite (by simp only [hfit, if_true, hbytes]; exact h)]
    exact (refuseWrite_onlyRecords ..).links

/-- A record with a MODE begins a new epoch of its connection. -/
theorem writeConn_begins {r : Nat} {s : State} (hok : recordOk s r = true) (hm : fld r 2 1 ≠ 0) :
    (writeConn r s).1 = 0 ∧ ∃ k, connOf (writeConn r s).2 (bits (fld r 0 2) 0 14) = k ∧ k.record = r ∧ k.st = 1 ∧
      k.epochEnded = false ∧
      k.epoch = ((connOf (endEpoch (bits (fld r 0 2) 0 14) s) (bits (fld r 0 2) 0 14)).epoch + 1) % 2 ^ 32 := by
  unfold writeConn
  extract_lets conn t e psn
  rw [hok, Bool.not_true, if_neg Bool.false_ne_true, if_neg hm]
  exact ⟨rfl, _, Tab.get_put_self .., rfl, rfl, rfl, rfl⟩

/-- The rate of a connection 50,000 ns after its last raise or notification. -/
def rateRaised (conn : Nat) (s : State) : State :=
  let k := connOf s conn
  let t := atLeast (k.lastRaise + 50000) s
  setConn conn { k with rate := min (20 * 2 ^ 40) (k.rate + 2 ^ 40), lastRaise := t.time.now } t

/-- Settles O51. What the end of a transaction leaves open can end but not open another, so that it is gone afterwards. -/
theorem transactionsResolve : Obligations.TransactionsResolve := by
  unfold Obligations.TransactionsResolve
  refine ⟨?_, ?_, ?_, ?_, ?_, ?_, ?_, ?_, ?_, ?_, ?_⟩
  · intro id x poison data s hx hp hs hlen
    refine ⟨?_, ackTxn_forgets .., _, ?_, (failSettle_pumped id .peerRefused s).2⟩
    · have hno : ¬(x.read && decide (data.length < x.len)) = true := by
        cases hread : x.read with
        | false => simp
        | true => simpa using hlen hread
      change execTransportAck id false poison data s = _
      simp only [execTransportAck, hx, hp, hs, Bool.not_true, Bool.or_self, Bool.false_eq_true, if_false, hno]
    · change execTransportAck id true poison data s = _
      simp only [execTransportAck, hx, hp, hs, Bool.not_true, Bool.or_self, Bool.false_eq_true, if_false, if_true]
  · intro id refused poison data s hx
    change execTransportAck id refused poison data s = _
    simp only [execTransportAck, hx]
  · intro id x s hx hp hs hv hh
    obtain ⟨p, t, hmem, hexec, htime, hfind, hout, hm⟩ := exec_transportResend hx hp hs hv hh
    refine ⟨t, _, hexec, ?_, hfind, ?_, ⟨p, rfl, hmem⟩, hout, hm⟩
    · rw [htime]
      exact Nat.le_max_right ..
    · rw [htime]
  · intro id x s hx
    cases hp : x.peer with
    | false =>
      refine ⟨_, ?_, fun h => absurd h Bool.false_ne_true, fun _ => rfl⟩
      change execLinkTimeout id s = _
      simp only [execLinkTimeout, hx, hp, Bool.false_eq_true, if_false]
    | true =>
      obtain ⟨hs, hnone⟩ := failSettle_pumped id .remoteAbandoned
        (noteAbandoned x.node x.conn (atLeast (x.since + dv s K.linkTimeoutNs) s))
      have hall := (noteAbandoned_settles ..).trans hs
      refine ⟨_, ?_, fun _ => ⟨hnone, ?_, ?_⟩, fun h => absurd h.symm Bool.false_ne_true⟩
      · change execLinkTimeout id s = _
        simp only [execLinkTimeout, hx, hp, if_true]
      · rw [blob_congr hall.blobs]
        exact setBlobBit_blob_congr _ _ _ rfl
      · rw [hall.time]
        exact Nat.le_max_right ..
  · intro conn psn data s ha hr
    refine ⟨?_, ?_, ?_⟩
    · change execRoceResponse conn .ack psn data s = _
      simp only [execRoceResponse, ha, hr, Bool.not_true, Bool.false_eq_true, if_false]
    · change execRoceResponse conn .nakRemoteError psn data s = _
      simp only [execRoceResponse, ha, hr, Bool.not_true, Bool.false_eq_true, if_false]
    · rintro u rfl
      change execRoceResponse conn .nakSequence psn data s = _
      simp only [execRoceResponse, ha, hr, Bool.not_true, Bool.false_eq_true, if_false]
  · intro conn psn s h
    obtain ⟨hout, hretries, -, -⟩ := goBack_spec psn h
    exact ⟨_, rfl, hout, hretries⟩
  · intro conn id psn x data s ha hr hfind hlen
    refine ⟨_, ackRead conn id x data (ackUpTo conn ((x.psn + 2 ^ 24 - psnCount (connOf s conn) x.len) % 2 ^ 24) s), rfl, ?_,
      fun hold hout => ?_, fun hold => ?_⟩
    · change execRoceResponse conn .readResponse psn data s = _
      simp only [execRoceResponse, ha, hr, hfind, Nat.not_lt.2 hlen, Bool.not_true, Bool.false_eq_true, if_false]
    · rw [ackRead, if_pos ⟨hold, hout⟩]
    · rw [ackRead, if_neg fun h => hold h.1]
  · intro conn c rest s hout hr hretries
    obtain ⟨hsent, hcount, hm, htime⟩ := goBack_spec (conn := conn) (connOf s conn).ackPsn
      (s := atLeast (c.2.resentAt + connAckTimeout (connOf s conn)) s) hretries
    refine ⟨_, ?_, ?_, hcount, hsent, hm⟩
    · change execRoceAckTimeout conn s = _
      simp only [execRoceAckTimeout, hout, hr, Bool.not_true, Bool.false_eq_true, if_false]
    · rw [htime]
      exact Nat.le_max_right ..
  · intro conn s ha hr
    refine ⟨fun h => ?_, fun h => ?_, fun h => ?_, fun h => ?_, ?_⟩
    · change execEcnMarkedPacket conn s = _
      simp only [execEcnMarkedPacket, outside_of_alive ha, hr, h, Bool.and_self, if_true]
    · change execEcnMarkedPacket conn s = _
      simp only [execEcnMarkedPacket, outside_of_alive ha, h, Bool.and_false, Bool.false_eq_true, if_false]
    · change execCnpReceive conn s = _
      simp only [execCnpReceive, outside_of_alive ha, hr, h, if_true]
    · change execCnpReceive conn s = _
      simp only [execCnpReceive, outside_of_alive ha, hr, h, if_true, Bool.false_eq_true, if_false]
    · have hself : connOf (rateRaised conn s) conn = _ := Tab.get_put_self ..
      refine ⟨rateRaised conn s, ?_, Nat.le_max_right .., ?_, ?_⟩
      · change execRateIncrease conn s = _
        rw [execRateIncrease, hr, Bool.not_true, if_neg Bool.false_ne_true, rateRaised]
      · simp only [hself]
      · rw [hself, rateRaised, setConn]
  · intro src v s hw hv
    change execAbandonedClear src v s = _
    rw [execAbandonedClear, outside_commit hw entryOf_abandonedClear (fun h => absurd h (by decide)) (and_mask_of_lt hv) rfl,
      Nat.mod_eq_of_lt hv]
  · intro src r s hw hr
    obtain ⟨hdone, hrefused⟩ := exec_connWrite (src := src) hw hr
    refine ⟨fun hok hm => ?_, fun hno => hrefused ?_⟩
    · obtain ⟨h0, k, hk, hrecord, hst, hended, hepoch⟩ := writeConn_begins hok hm
      obtain ⟨t, hexec, hlinks⟩ := hdone h0
      have hconn : connOf t (bits (fld r 0 2) 0 14) = k := by rw [connOf, hlinks]; exact hk
      exact ⟨t, hexec, hconn ▸ hrecord, hconn ▸ hst, hconn ▸ hended, hconn ▸ hepoch⟩
    · simp [writeConn, hno]

end Sys2Proof.Machine

/-! ### Collectives (O52) -/

namespace Sys2Proof.Machine

/-- One task of the Press stays the same: what staging has settled of a collective. -/
structure Coll.SameTask (c d : Coll) : Prop where
  staged : d.staged = c.staged
  rank : d.rank = c.rank
  peers : d.peers = c.peers
  raw : d.raw = c.raw
  members : d.members = c.members

theorem Coll.SameTask.refl (c : Coll) : c.SameTask c := ⟨rfl, rfl, rfl, rfl, rfl⟩

theorem Coll.SameTask.trans {a b c : Coll} (h : a.SameTask b) (h' : b.SameTask c) : a.SameTask c :=
  ⟨h'.staged.trans h.staged, h'.rank.trans h.rank, h'.peers.trans h.peers, h'.raw.trans h.raw, h'.members.trans h.members⟩

/-- From s to t a collective's task goes on, and nothing that was sent is taken back. -/
structure Tells (key : Nat) (s t : State) : Prop where
  task : ∀ c, s.press.colls.find key = some c → ∃ d, t.press.colls.find key = some d ∧ c.SameTask d
  out : ∀ m, m ∈ s.out → m ∈ t.out

namespace Tells
variable {key : Nat} {s t u : State}

theorem refl (key : Nat) (s : State) : Tells key s s := ⟨fun c h => ⟨c, h, .refl c⟩, fun _ h => h⟩

theorem trans (h : Tells key s t) (h' : Tells key t u) : Tells key s u where
  task c hc := by
    obtain ⟨d, hd, hsame⟩ := h.task c hc
    obtain ⟨e, he, hsame'⟩ := h'.task d hd
    exact ⟨e, he, hsame.trans hsame'⟩
  out m hm := h'.out m (h.out m hm)

theorem of_press (h : t.press.colls = s.press.colls) (hout : ∀ m, m ∈ s.out → m ∈ t.out) : Tells key s t :=
  ⟨fun c hc => ⟨c, by rw [h]; exact hc, .refl c⟩, hout⟩

end Tells

theorem foldl_tells {α : Type} {key : Nat} {f : State → α → State} (h : ∀ t x, Tells key t (f t x)) (l : List α) (s : State) :
    Tells key s (l.foldl f s) := foldl_keeps (Tells key s) f (fun t x ht => ht.trans (h t x)) l s (.refl key s)

theorem send_tells (key : Nat) (m : OutMsg) (s : State) : Tells key s (send m s) :=
  .of_press rfl fun _ h => List.mem_append_left _ h

theorem setColl_tells {key : Nat} {c d : Coll} {s : State} (hc : s.press.colls.find key = some c) (h : c.SameTask d) :
    Tells key s (setColl key d s) where
  task c' hc' := by
    cases hc.symm.trans hc'
    exact ⟨d, Tab.find_put_self .., h⟩
  out _ hm := hm

theorem addOut_press (key : Nat) (o : Status) (s : State) : (addOut key o s).press = s.press ∧ (addOut key o s).out = s.out :=
  ⟨press_of_offJobs (addOut_offJobs ..), out_of_offJobs (addOut_offJobs ..)⟩

/-- A collective that has ended. -/
def Coll.over (c : Coll) : Coll := { c with ended := true, plan := [], expect := [], relay := [], pieces := [], fault := none }

theorem foldl_send_press {α : Type} (f : State → α → OutMsg) (l : List α) (s : State) :
    (l.foldl (fun t x => send (f t x) t) s).press = s.press :=
  foldl_frame State.press (fun t x => send (f t x) t) (fun _ _ => rfl) l s

/-- What is sent to every peer is sent. -/
theorem mem_out_foldl_send {α : Type} (f : State → α → OutMsg) (P : α → OutMsg → Prop) (hf : ∀ t x, P x (f t x)) (l : List α)
    (s : State) : ∀ x ∈ l, ∃ m ∈ (l.foldl (fun t x => send (f t x) t) s).out, P x m := by
  induction l generalizing s with
  | nil => simp
  | cons y l ih =>
    intro x hx
    rcases List.mem_cons.1 hx with rfl | hx
    · have htells : Tells 0 (send (f s x) s) (l.foldl (fun t x => send (f t x) t) (send (f s x) s)) :=
        foldl_tells (fun _ _ => send_tells ..) l _
      exact ⟨f s x, htells.out _ (List.mem_append_right _ List.mem_cons_self), hf s x⟩
    · exact ih _ x hx

/-- How a collective ends. -/
theorem endColl_spec {key : Nat} {o : Status} {notice : Bool} {c : Coll} {s : State} (hc : s.press.colls.find key = some c) :
    (endColl key o notice s).press.colls.find key = some c.over ∧ (∀ m, m ∈ s.out → m ∈ (endColl key o notice s).out) ∧
    (notice = false → (endColl key o notice s).out = s.out) ∧
    (notice = true → ∀ p, p ∈ c.peers → ∃ dom, OutMsg.collAbort (connOfRank c p) dom (pId c.raw) ∈ (endColl key o notice s).out) := by
  simp only [endColl, hc]
  obtain ⟨hpress, hout⟩ := addOut_press key o (setColl key c.over s)
  have hfind : (addOut key o (setColl key c.over s)).press.colls.find key = some c.over := by
    rw [hpress]
    exact Tab.find_put_self ..
  cases notice with
  | false => exact ⟨hfind, fun m hm => by rw [← Coll.over]; exact hout ▸ hm, fun _ => hout, fun h => absurd h Bool.false_ne_true⟩
  | true =>
    have htells := foldl_tells (key := key) (f := fun t r => send (.collAbort (connOfRank c r) (memberDomain t c r) (pId c.raw)) t)
      (fun _ _ => send_tells ..) c.peers (addOut key o (setColl key c.over s))
    refine ⟨?_, fun m hm => htells.out m (hout ▸ hm), fun h => absurd h.symm Bool.false_ne_true, fun _ p hp => ?_⟩
    · rw [if_pos rfl, foldl_send_press]
      exact hfind
    · obtain ⟨m, hm, dom, rfl⟩ := mem_out_foldl_send (fun t r => .collAbort (connOfRank c r) (memberDomain t c r) (pId c.raw))
        (fun r m => ∃ dom, m = .collAbort (connOfRank c r) dom (pId c.raw)) (fun _ _ => ⟨_, rfl⟩) c.peers
        (addOut key o (setColl key c.over s)) p hp
      exact ⟨dom, hm⟩

theorem endColl_tells {key : Nat} {o : Status} {notice : Bool} {s : State} : Tells key s (endColl key o notice s) where
  task c hc := ⟨c.over, (endColl_spec hc).1, rfl, rfl, rfl, rfl, rfl⟩
  out := by
    cases hc : s.press.colls.find key with
    | none => simp [endColl, hc]
    | some c => exact (endColl_spec hc).2.1

/-- When the ready messages leave, a collective is as it was but for that. -/
theorem sendReady_spec {key : Nat} {c : Coll} {s : State} (hc : s.press.colls.find key = some c) :
    ∃ b, (sendReady key s).press.colls.find key = some { c with readySent := b } ∧ ∀ m, m ∈ s.out → m ∈ (sendReady key s).out := by
  simp only [sendReady, hc]
  split
  · have htells := foldl_tells (key := key) (f := fun t r => send (.collReady (connOfRank c r) (memberDomain t c r) (pId c.raw)) t)
      (fun _ _ => send_tells ..) c.peers (setColl key { c with readySent := true } s)
    refine ⟨true, ?_, htells.out⟩
    rw [foldl_send_press]
    exact Tab.find_put_self ..
  · exact ⟨c.readySent, hc, fun _ h => h⟩

theorem sendReady_tells (key : Nat) (s : State) : Tells key s (sendReady key s) where
  task c hc := by
    obtain ⟨b, hd, -⟩ := sendReady_spec hc
    exact ⟨_, hd, rfl, rfl, rfl, rfl, rfl⟩
  out := by
    cases hc : s.press.colls.find key with
    | none => simp [sendReady, hc]
    | some c =>
      obtain ⟨-, -, hout⟩ := sendReady_spec hc
      exact hout

/-- A parameter message that agrees is taken; one that differs ends its collective. -/
theorem takeParams_spec {key r : Nat} {m : CollParams} {c : Coll} {s : State} (hc : s.press.colls.find key = some c)
    (he : c.ended = false) (hr : c.peers.contains r = true) :
    ∃ d, (takeParams key r m s).press.colls.find key = some d ∧
      (sameParams m (ownParams c s r) = true → r ∈ d.paramsFrom ∧ d.ended = false) ∧
      (sameParams m (ownParams c s r) = false → d.ended = true) := by
  have hgo : ¬(c.ended || !c.peers.contains r) = true := by rw [he, hr]; decide
  simp only [takeParams, hc]
  rw [if_neg hgo]
  cases hsame : sameParams m (ownParams c s r) with
  | true =>
    obtain ⟨b, hd, -⟩ := sendReady_spec (s := setColl key { c with paramsFrom := insertNew r c.paramsFrom
                                                                   heard := c.heard.put r s.time.now } s) (Tab.find_put_self ..)
    refine ⟨_, hd, fun _ => ⟨?_, he⟩, fun h => absurd h.symm Bool.false_ne_true⟩
    simp only [insertNew]
    split
    next hin => simpa using hin
    · exact List.mem_append_right _ List.mem_cons_self
  | false => exact ⟨c.over, (endColl_spec hc).1, fun h => absurd h Bool.false_ne_true, fun _ => rfl⟩

theorem takeParams_tells (key r : Nat) (m : CollParams) (s : State) : Tells key s (takeParams key r m s) := by
  unfold takeParams
  split
  · exact .refl key s
  next c hc =>
    split
    · exact .refl key s
    · split
      · exact Tells.trans (setColl_tells hc (d := { c with paramsFrom := insertNew r c.paramsFrom, heard := c.heard.put r s.time.now })
          ⟨rfl, rfl, rfl, rfl, rfl⟩) (sendReady_tells ..)
      · exact endColl_tells

theorem takeEarly_tells (key : Nat) (s : State) : Tells key s (takeEarly key s) := by
  unfold takeEarly
  split
  · exact .refl key s
  · dsimp only
    refine Tells.trans (.of_press ?_ ?_) (foldl_tells (fun u x => ?_) _ _)
    · rfl
    · exact fun _ h => h
    split
    · exact takeParams_tells ..
    · exact .refl key u

/-- A collective with nothing left to send has nothing sent. -/
theorem pumpPress_idle {key : Nat} {c : Coll} {s : State} (hc : s.press.colls.find key = some c) (hplan : c.plan = [])
    (hrelay : c.relay = []) (n : Nat) : pumpPress key n s = s := by
  cases n with
  | zero => rfl
  | succ n => simp [pumpPress, hc, hplan, hrelay, takeFirst]

/-! #### Staging -/

/-- A collective whose member list and own contribution have been read. -/
def Coll.stagedAs (c : Coll) (r run now : Nat) (ms : List (Nat × Nat)) (kept : Option (Nat × Nat)) : Coll :=
  { c with staged := true, run := run, members := ms, rank := r, peers := namedPeers c.raw r, plan := pressPlan c.raw run r
           expect := pressExpect c.raw run r, kept := kept, since := now }

/-- The own contribution of a collective, copied into RECV. -/
def copied (c : Coll) (r : Nat) (k : (Option (Nat × Nat) × Bool) × UStep) : Bool × UStep :=
  if k.2.stopped then (false, k.2) else match ownCopy c.raw r with
    | some (a, b, n) => if a = b then (false, k.2) else pressCopy (n / 128 + 2) a b n k.2
    | none => (false, k.2)

/-- The collective c stands staged in t with rank r; unless it has ended, its parameters are on their way to every peer. -/
def StandsStaged (key r : Nat) (c : Coll) (t : State) : Prop :=
  ∃ d, t.press.colls.find key = some d ∧ d.staged = true ∧ d.rank = r ∧ d.peers = namedPeers c.raw r ∧ d.raw = c.raw ∧
    (d.ended = false → ∀ p, p ∈ d.peers → ∃ m, OutMsg.collParams (connOfRank d p) m ∈ t.out ∧ m.collId = pId c.raw)

theorem standsStaged_endColl {key r run now : Nat} {ms : List (Nat × Nat)} {kept : Option (Nat × Nat)} {c : Coll} {s : State}
    (h : s.press.colls.find key = some (c.stagedAs r run now ms kept)) (o : Status) :
    StandsStaged key r c (endColl key o true s) :=
  ⟨_, (endColl_spec h).1, rfl, rfl, rfl, rfl, fun hno => absurd hno (Bool.false_ne_true ∘ Eq.symm)⟩

/-- A staged collective either has ended or has told its parameters to every peer. -/
theorem stageCopy_spec {key r : Nat} {ms : List (Nat × Nat)} {c : Coll} {l : UStep} {s : State}
    (hheld : (copied c r (keptBlock c r l)).2.held = false) (hfault : (copied c r (keptBlock c r l)).2.fault = none) :
    ∃ t, stageCopy key r ms c l s = .next t ∧ StandsStaged key r c t := by
  unfold stageCopy
  extract_lets d why k cp u run c2 t
  change cp.2.held = false at hheld
  change cp.2.fault = none at hfault
  have hfind : t.press.colls.find key = some c2 := Tab.find_put_self ..
  rw [if_neg (by rw [hheld]; decide), if_neg (by rw [hfault]; decide)]
  have hended (o : Status) : StandsStaged key r c (endColl key o true t) := standsStaged_endColl hfind o
  split
  · exact ⟨_, rfl, hended _⟩
  · split
    · have hsent := mem_out_foldl_send (fun t p => .collParams (connOfRank c2 p) (ownParams c2 t p))
        (fun p m => ∃ q, m = OutMsg.collParams (connOfRank c2 p) q ∧ q.collId = pId c.raw) (fun _ _ => ⟨_, rfl, rfl⟩) c2.peers t
      have hfirst := foldl_tells (key := key) (f := fun t p => send (.collParams (connOfRank c2 p) (ownParams c2 t p)) t)
        (fun _ _ => send_tells ..) c2.peers t
      have hrest := (takeEarly_tells key (c2.peers.foldl (fun t p => send (.collParams (connOfRank c2 p) (ownParams c2 t p)) t) t)).trans
        (sendReady_tells key _)
      obtain ⟨e, he, hsame⟩ := (hfirst.trans hrest).task c2 hfind
      refine ⟨_, rfl, e, he, hsame.staged, hsame.rank, hsame.peers, hsame.raw, fun _ p hp => ?_⟩
      obtain ⟨m, hm, q, rfl, hq⟩ := hsent p (hsame.peers ▸ hp)
      refine ⟨q, ?_, hq⟩
      rw [connOfRank, hsame.members]
      exact hrest.out _ hm
    · exact ⟨_, rfl, hended _⟩

theorem ownRank_congr {s t : State} (h : t.board = s.board) (n raw : Nat) : ownRank t n raw = ownRank s n raw := by
  rw [ownRank, ownRank, nodeId, nodeId, h]

/-- A member list that has come and names the own NODE once. -/
theorem stageColl_read {key r : Nat} {c : Coll} {s : State}
    (hheld : (uGet (pList c.raw) (4 * pN c.raw) (UStep.start c.ctx key 10 s)).2.held = false)
    (hfault : (uGet (pList c.raw) (4 * pN c.raw) (UStep.start c.ctx key 10 s)).2.fault = none)
    (hpoison : (uGet (pList c.raw) (4 * pN c.raw) (UStep.start c.ctx key 10 s)).1.poison = false)
    (hrank : ownRank s (pN c.raw) (uGet (pList c.raw) (4 * pN c.raw) (UStep.start c.ctx key 10 s)).1.val = some r) :
    stageColl key c s = stageCopy key r ((List.range (pN c.raw)).map fun i =>
        (bits (uGet (pList c.raw) (4 * pN c.raw) (UStep.start c.ctx key 10 s)).1.val (32 * i) 14,
          bits (uGet (pList c.raw) (4 * pN c.raw) (UStep.start c.ctx key 10 s)).1.val (32 * i + 16) 12)) c
      (uGet (pList c.raw) (4 * pN c.raw) (UStep.start c.ctx key 10 s)).2 s := by
  simp only [stageColl, hheld, hfault, hpoison, hrank, Bool.false_eq_true, if_false, Option.isSome_none]

/-! #### What is taken, and the end -/

/-- What a message leaves of its collective: what it sends stays, but for what is relayed. -/
theorem takeChunk_plan (c : Coll) (r : Nat) (e : PNeed) (ch : Chunk) (u : UStep) : (takeChunk c r e ch u).2.1.plan = c.plan := by
  have hjoin (c' : Coll) (hc' : c'.plan = c.plan) : (joinPiece c' r ch).2.plan = c.plan := by
    rw [joinPiece]
    split <;> exact hc'
  unfold takeChunk
  cases relayTo c ch with
  | none =>
    dsimp only
    split
    · split
      · exact hjoin _ rfl
      · split <;> exact hjoin _ rfl
    · rfl
  | some n =>
    dsimp only
    split
    · split
      · exact hjoin _ rfl
      · split <;> exact hjoin _ rfl
    · rfl

theorem uClose_memory {u : UStep} (h : u.held = false) : MemoryKept u.st (uClose u) := by
  rw [uClose_of_ready h]
  exact memoryKept_of_offJobs ((foldl_offJobs (fun _ _ => addOut_offJobs ..) _ _).trans (dropArrived_offJobs ..))

/-- What a message of rank r that was taken leaves of its collective. -/
def chunkTaken (key r : Nat) (e : PNeed) (c : Coll) (x : Nat × Coll × UStep) (s : State) : State :=
  setColl key { x.2.1 with
    expect := (c.expect.map fun y => if y == e then { y with left := y.left - x.1 } else y).filter fun y => y.left != 0
    heard := c.heard.put r s.time.now } (uClose x.2.2)

/-- A peer's transaction is noted as performed. -/
def performedOn (conn seqNo : Nat) (s : State) : State :=
  setConn conn { connOf s conn with performed := seqNo :: (connOf s conn).performed.take 8191 } s

/-- The Press without a collective. -/
def collForgotten (key : Nat) (s : State) : State := { s with press := { s.press with colls := s.press.colls.del key } }

/-- Settles O52. A collective's task goes on through every message, and what was sent stays sent. -/
theorem collectivesExchangeAndEnd : Obligations.CollectivesExchangeAndEnd := by
  unfold Obligations.CollectivesExchangeAndEnd
  refine ⟨?_, ?_, ?_, ?_, ?_, ?_, ?_, ?_, ?_⟩
  · intro q seq r j c0 l k cp s hnone hj hdesc hok hid hroom hc0 hl hheld hfault hpoison hrank hk hcp hcheld hcfault
    subst hc0
    have hc' : (copied (Coll.begun j.raw j.ctx s.time.now) r (keptBlock (Coll.begun j.raw j.ctx s.time.now) r l.2)) = cp := by
      rw [hcp, hk]
      rfl
    obtain ⟨t, hexec, d, hd, hst, hr, hpeers, hraw, hsent⟩ := stageCopy_spec (key := jobKey q seq) (r := r)
      (ms := (List.range (pN j.raw)).map fun i => (bits l.1.val (32 * i) 14, bits l.1.val (32 * i + 16) 12))
      (c := Coll.begun j.raw j.ctx s.time.now) (l := l.2)
      (s := setColl (jobKey q seq) (Coll.begun j.raw j.ctx s.time.now) (began (jobKey q seq) s))
      (by rw [hc']; exact hcheld) (by rw [hc']; exact hcfault)
    refine ⟨t, d, ?_, hd, hst, hr, hpeers, hraw, hsent⟩
    rw [← hexec]
    have hany : (s.press.colls.cells.any fun c => c.2.raw != 0 && pId c.2.raw == pId j.raw) = false := by
      rw [List.any_eq_false]
      intro c hc
      by_cases h0 : c.2.raw = 0
      · simp [h0]
      · simp [hid c hc h0]
    change execPressCollective q seq s = _
    simp only [execPressCollective, hnone, hj, stageDesc_of_hasDesc hdesc, hok, hany, Nat.not_le.2 hroom, Bool.not_true,
      Bool.false_eq_true, if_false]
    subst hl
    refine stageColl_read hheld hfault hpoison ?_
    refine (ownRank_congr ?_ _ _).trans hrank
    exact (congrArg State.board (began_offJobs (jobKey q seq) s) :)
  · intro q seq c s hc hst hf hs he
    change execPressCollective q seq s = _
    simp only [execPressCollective, hc, hst, hf, hs, he, Option.isSome_none, Bool.or_self, Bool.false_eq_true, if_false, if_true]
  · intro conn seqNo m s ha
    refine ⟨fun hno => ?_, fun hyes hon => ?_, fun key c r hyes hon he hc hr => ?_⟩
    · change execPressParameterMessage conn seqNo m s = _
      simp only [execPressParameterMessage, outside_of_alive ha, hno, Bool.not_false, if_true, refusePress]
    · change execPressParameterMessage conn seqNo m s = _
      simp only [execPressParameterMessage, outside_of_alive ha, hyes, hon, Bool.not_true, Bool.false_eq_true, if_false, ackPress]
    · obtain ⟨d, hd, hsame, hdiff⟩ := takeParams_spec (m := m) hc he hr
      refine ⟨ackPress conn seqNo (takeParams key r m s), d, ?_, hd, List.mem_append_right _ List.mem_cons_self, hsame, hdiff⟩
      change execPressParameterMessage conn seqNo m s = _
      simp only [execPressParameterMessage, outside_of_alive ha, hyes, hon, Bool.not_true, Bool.false_eq_true, if_false]
  · intro conn seqNo dom collId s ha
    refine ⟨fun hno => ⟨?_, ?_⟩, fun key c r hyes hon hplan hrelay => ?_, fun key c r hyes hon he hc => ?_⟩
    · change execPressReadyMessage conn seqNo dom collId s = _
      simp only [execPressReadyMessage, outside_of_alive ha, hno, Bool.not_false, if_true, refusePress]
    · change execPressAbortNotice conn seqNo dom collId s = _
      simp only [execPressAbortNotice, outside_of_alive ha, hno, Bool.not_false, if_true, refusePress]
    · have hfind : (setColl key { c with readyFrom := insertNew r c.readyFrom, heard := c.heard.put r s.time.now } s).press.colls.find
          key = some _ := Tab.find_put_self ..
      have hidle := pumpPress_idle hfind hplan hrelay (c.plan.length + 1)
      refine ⟨ackPress conn seqNo (setColl key { c with readyFrom := insertNew r c.readyFrom, heard := c.heard.put r s.time.now } s),
        ?_, List.mem_append_right _ List.mem_cons_self, hfind⟩
      change execPressReadyMessage conn seqNo dom collId s = _
      simp only [execPressReadyMessage, outside_of_alive ha, hyes, hon, Bool.not_true, Bool.false_eq_true, if_false, hidle]
    · obtain ⟨hd, -, hout, -⟩ := endColl_spec (o := .remoteAbandoned) (notice := false) hc
      refine ⟨ackPress conn seqNo (endColl key .remoteAbandoned false s), c.over, ?_, hd, rfl, rfl, rfl,
        congrArg (· ++ [_]) (hout rfl)⟩
      change execPressAbortNotice conn seqNo dom collId s = _
      simp only [execPressAbortNotice, outside_of_alive ha, hyes, hon, he, Bool.not_true, Bool.false_eq_true, if_false]
  · intro conn collId ch s ha hno
    change execPressChunk conn collId ch s = .next (refusePress conn ch.seqNo s)
    cases hyes : pressAccepts s conn ch.domain with
    | false => simp only [execPressChunk, ha, hyes, Bool.not_true, Bool.not_false, Bool.false_eq_true, if_false, if_true]
    | true =>
      obtain ⟨hnew, hon⟩ := hno.resolve_left (by rw [hyes]; decide)
      simp only [execPressChunk, ha, hyes, hnew, hon, Bool.not_true, Bool.false_eq_true, if_false]
  · intro conn collId ch s ha hyes hdone
    change execPressChunk conn collId ch s = _
    simp only [execPressChunk, ha, hyes, hdone, Bool.not_true, Bool.false_eq_true, if_false, if_true, ackPress]
  · intro conn collId key r ch c e x s ha hyes hnew hon he hf hs hended hplan hx hheld hfault hrelay
    have hfind : (ackPress conn ch.seqNo (performedOn conn ch.seqNo (chunkTaken key r e c x s))).press.colls.find key = some _ :=
      Tab.find_put_self ..
    have hxplan : x.2.1.plan = [] := by rw [hx, takeChunk_plan, hplan]
    have hidle := pumpPress_idle hfind hxplan hrelay (c.plan.length + 2)
    refine ⟨_, _, ?_, hfind, List.mem_append_right _ List.mem_cons_self, ?_, uClose_memory hheld, rfl⟩
    · change execPressChunk conn collId ch s = _
      simp only [execPressChunk, ha, hyes, hnew, hon, he, hf, hs, hended, ← hx, hheld, hfault, Option.isSome_none, Bool.or_self,
        Bool.not_true, Bool.false_eq_true, if_false]
      exact congrArg _ hidle
    · exact congrArg (fun k : Conn => k.performed.head?) (Tab.get_put_self ..)
  · intro q seq rank c s hc he hst hneeds
    obtain ⟨hd, -, -, hsent⟩ := endColl_spec (o := .remoteAbandoned) (notice := true)
      (s := atLeast (c.heard.get c.since rank + dv s K.linkTimeoutNs) s) hc
    refine ⟨_, c.over, ?_, hd, rfl, ?_, hsent rfl⟩
    · change execPressDataTimeout q seq rank s = _
      simp only [execPressDataTimeout, hc, he, hst, hneeds, Bool.not_true, Bool.or_self, Bool.false_eq_true, if_false]
    · rw [(endColl_settles ..).time]
      exact Nat.le_max_right ..
  · intro q seq c j s hc hj hf hs htxns hover
    have hover' : (c.ended || (c.staged && c.plan.isEmpty && c.expect.isEmpty && c.relay.isEmpty &&
        c.peers.all c.readyFrom.contains && c.readySent) || (c.staged && c.peers.isEmpty)) = true := by
      rcases hover with h | ⟨h1, h2⟩ | ⟨h1, h2, h3, h4, h5, h6⟩
      · simp [h]
      · simp [h1, h2]
      · simp only [h1, h2, h3, h4, h5, h6, List.isEmpty_nil, Bool.and_self, Bool.or_true, Bool.true_or]
    have hoff := finishJob_offJobs (jobKey q seq) (collForgotten (jobKey q seq) s)
    refine ⟨finishJob (jobKey q seq) (collForgotten (jobKey q seq) s), ?_, ?_, finishJob_completed hj rfl rfl,
      (memoryKept_of_offJobs hoff : MemoryKept (collForgotten (jobKey q seq) s) _), (medlars_of_offJobs hoff :)⟩
    · change execCollectiveComplete q seq s = _
      simp only [execCollectiveComplete, hc, hover', hf, hs, htxns, Option.isNone_none, Bool.and_self, beq_self_eq_true, if_true,
        collForgotten]
    · rw [press_of_offJobs hoff]
      exact Tab.find_del_self ..

end Sys2Proof.Machine

/-! ### SEG_UPDATE, and what peers and front-ends ask (O42) -/

namespace Sys2Proof.Machine

/-! #### Granting -/

theorem setSeg_still (k : Nat) (g : Seg) (s : State) :
    still (setSeg k g s) = still { s with xlat := { s.xlat with segs := s.xlat.segs.put k g } } := by
  unfold setSeg
  split
  · exact fwWrite_still ..
  · rfl

theorem setDetail_xlat (key d : Nat) (s : State) : (setDetail key d s).xlat = s.xlat := xlat_of_offJobs (setDetail_offJobs ..)

theorem segOf_congr {s t : State} (h : t.xlat = s.xlat) (c i : Nat) : segOf t c i = segOf s c i := by rw [segOf, segOf, h]

/-- The descriptor that an update of a segment writes. -/
def grantedSeg (d : Nat) (s : State) : Seg :=
  raised { raw := setBits (fld d 32 32) 16 16 0, gen := (segOf s (bits (fld d 16 2) 0 12) (fld d 18 1)).gen }

/-- What the translation controller keeps of an update of a segment. -/
def segUpdate (key d : Nat) (s : State) : SegUpd :=
  let c := bits (fld d 16 2) 0 12
  let sg := fld d 18 1
  { key := key, ctx := c, seg := sg, granted := 0#65
    withdrawn := withdrawnBy (trackedLines (ctxOf s c).valid (segOf s c sg).raw) (trackedLines (ctxOf s c).valid (grantedSeg d s).raw)
    oldCtx := ctxOf s c, oldSegs := [(16 * c + sg, segOf s c sg)] }

def withUpdate (u : SegUpd) (s : State) : State := { s with xlat := { s.xlat with updates := s.xlat.updates ++ [u] } }

/-- An update of a segment writes its descriptor with the GEN one higher, and no other. -/
theorem grantUpdate_segment (key d : Nat) {s : State} (hsg : fld d 18 1 ≠ 255) :
    ∃ u, (grantUpdate key d s).xlat = { s.xlat with
        segs := s.xlat.segs.put (16 * bits (fld d 16 2) 0 12 + fld d 18 1) (grantedSeg d s)
        updates := s.xlat.updates ++ [u] } ∧
      u.key = key ∧ u.granted = 0#65 ∧ u.ctx = bits (fld d 16 2) 0 12 ∧ u.seg = fld d 18 1 ∧
      (grantUpdate key d s).queues = s.queues := by
  have hstill := setSeg_still (16 * bits (fld d 16 2) 0 12 + fld d 18 1) (grantedSeg d s) s
  have hx := xlat_of_still hstill
  have hgrant : grantUpdate key d s = setDetail key (grantedSeg d s).gen
      (withUpdate (segUpdate key d s) (setSeg (16 * bits (fld d 16 2) 0 12 + fld d 18 1) (grantedSeg d s) s)) := by
    rw [grantUpdate, if_neg hsg]
    rfl
  refine ⟨segUpdate key d s, ?_, rfl, rfl, rfl, rfl, ?_⟩
  · rw [hgrant, setDetail_xlat, withUpdate, hx]
  · rw [hgrant]
    have hqueues := queues_of_still hstill
    exact (onJob_queues ..).trans hqueues

/-- An update that passes its checks is granted by the translation controller. -/
theorem exec_segUpdate {q seq : Nat} {j : Job} {s : State} (hj : handed s q seq 0x0B = some j) (hd : j.hasDesc)
    (hform : segUpdateForm j.raw = true) (hallowed : segUpdateDenied s j.ctx j.raw = false) (hok : segUpdateOk s j.raw = true)
    (hturn : ∀ u, u ∈ s.xlat.updates → u.ctx ≠ bits (fld j.raw 16 2) 0 12) :
    exec (.segUpdate q seq) s = .next (grantUpdate (jobKey q seq) j.raw (began (jobKey q seq) s)) := by
  have hany : (s.xlat.updates.any fun u => u.ctx == bits (fld j.raw 16 2) 0 12) = false := by
    rw [List.any_eq_false]
    intro u hu
    simp [hturn u hu]
  change execSegUpdate q seq s = _
  simp only [execSegUpdate, hj, stageDesc_of_hasDesc hd, hform, hallowed, hok, hany, Bool.not_true, Bool.false_eq_true, if_false,
    uClose_start, began]

theorem exec_segUpdate_denied {q seq : Nat} {j : Job} {s : State} (hj : handed s q seq 0x0B = some j) (hd : j.hasDesc)
    (hform : segUpdateForm j.raw = true) (hdenied : segUpdateDenied s j.ctx j.raw = true) :
    exec (.segUpdate q seq) s = .next (refuseJob (jobKey q seq) .domainDenied s) := by
  change execSegUpdate q seq s = _
  simp only [execSegUpdate, hj, stageDesc_of_hasDesc hd, hform, hdenied, Bool.not_true, Bool.false_eq_true, if_false, if_true,
    UStep.start]

/-! #### Points that grant, and completion -/

/-- An update that a checking point has granted. -/
def grantedBy (point : Nat) (u : SegUpd) : SegUpd := { u with granted := u.granted ||| BitVec.ofNat 65 (2 ^ point) }

/-- A point has granted an update u: the WAITs that were read there through the segment read again. -/
def pointGranted (key point : Nat) (u : SegUpd) (s : State) : State :=
  let moved (w : Watch) : Bool := homeSlice s (w.off / 128) == point && w.hit.isNone &&
    w.seg / 16 == u.ctx && (u.seg == 255 || w.seg % 16 == u.seg)
  { s with
    xlat := { s.xlat with updates := s.xlat.updates.map fun x => if x.key = key then grantedBy point x else x }
    mem := { s.mem with watches := s.mem.watches.map fun _ w => if moved w then { w with again := true } else w } }

theorem grantedBy_getLsbD {point p : Nat} (u : SegUpd) (hp : point < 65) :
    (grantedBy point u).granted.getLsbD p = (u.granted.getLsbD p || decide (p = point)) := by
  rw [grantedBy, BitVec.getLsbD_or, BitVec.getLsbD_ofNat, Nat.testBit_two_pow]
  by_cases h : p = point
  · simp [h, hp]
  · simp [h, Ne.symm h]

/-- The update of a key after a step that changes it and keeps every key. -/
theorem find?_map_key {key : Nat} {u : SegUpd} {l : List SegUpd} (f : SegUpd → SegUpd) (hf : ∀ x, (f x).key = x.key)
    (h : l.find? (fun u => u.key == key) = some u) : (l.map f).find? (fun u => u.key == key) = some (f u) := by
  rw [List.find?_map, show ((fun u : SegUpd => u.key == key) ∘ f) = (fun u => u.key == key) from
    funext fun x => by rw [Function.comp_apply, hf], h, Option.map_some]

theorem materialise_jobs (lost : List (Nat × Nat)) (s : State) : (materialise lost s).jobs = s.jobs := by
  rw [materialise]
  split
  · rfl
  · exact (congrArg State.jobs (foldl_offBench (f := fun t l => noteWrite l (zmapSet l false (writeBackFull l 0#1024 false t)))
      (fun t l => (noteWrite_offBench ..).trans ((zmapSet_offBench ..).trans (writeBackFull_offBench ..)))
      ((zmapSetLines s).filter fun l => inRanges l lost) (untrack lost s)) :)

/-- An update that has reached every point leaves the running ones. -/
def updateDone (key : Nat) (u : SegUpd) (s : State) : State :=
  let t := materialise u.withdrawn s
  { t with xlat := { t.xlat with updates := t.xlat.updates.filter (·.key != key) } }

/-! #### Peers -/

/-- A peer's transaction that its home has performed is noted and answered. -/
def peerAnswered (conn : Nat) (p : PeerReq) (u : UStep) (poison : Bool) (bytes : List Byte) : State :=
  let t := dropArrived u.owner u.st
  send (.peerReply conn p.seqNo false poison bytes)
    (setConn conn { connOf t conn with performed := p.seqNo :: ((connOf t conn).performed.filter (· != p.seqNo)).take 8191 } t)

theorem peerAnswered_spec (conn : Nat) (p : PeerReq) (u : UStep) (poison : Bool) (bytes : List Byte) :
    OutMsg.peerReply conn p.seqNo false poison bytes ∈ (peerAnswered conn p u poison bytes).out ∧
    (connOf (peerAnswered conn p u poison bytes) conn).performed.head? = some p.seqNo ∧
    MemoryKept u.st (peerAnswered conn p u poison bytes) :=
  ⟨List.mem_append_right _ List.mem_cons_self, congrArg (fun k : Conn => k.performed.head?) (Tab.get_put_self ..), rfl⟩

section
variable {conn : Nat} {p : PeerReq} {s : State} (ha : alive s = true) (hm : connMode (connOf s conn) = 1)
  (hst : (connOf s conn).st = 1) (hallowed : peerAllowed s conn p = true)
  (hopen : ((lineParts p.offset p.len 40).all fun q => routesOpen s 10 (homeDie s (q.1 / 128))) = true)
  (hturn : strictTurn (connOf s conn) p = true)
include ha hm hst hallowed hopen hturn

theorem exec_peerRequest_read {r : (List Byte × Bool) × UStep} (hk : p.kind = .read)
    (hr : r = peerRead (peerXl s conn p) p { UStep.start 0 0 10 s with owner := .peer conn p.seqNo }) (hheld : r.2.held = false) :
    exec (.peerRequest conn p) s = .next (peerAnswered conn p r.2 r.1.2 r.1.1) := by
  have hno : ¬(connMode (connOf s conn) ≠ 1 ∨ (connOf s conn).st ≠ 1 ∨ (!peerAllowed s conn p) = true) := by
    simp [hm, hst, hallowed]
  change execPeerRequest conn p s = _
  simp only [execPeerRequest, ha, hopen, hturn, Bool.not_true, Bool.false_eq_true, if_false]
  rw [if_neg hno]
  subst hr
  simp only [hk, hheld, Bool.false_eq_true, if_false, peerAnswered]

theorem exec_peerRequest_again (hk : p.kind ≠ .read) (hdone : (connOf s conn).performed.contains p.seqNo = true) :
    exec (.peerRequest conn p) s = .next (send (.peerReply conn p.seqNo false false []) s) := by
  have hno : ¬(connMode (connOf s conn) ≠ 1 ∨ (connOf s conn).st ≠ 1 ∨ (!peerAllowed s conn p) = true) := by
    simp [hm, hst, hallowed]
  change execPeerRequest conn p s = _
  simp only [execPeerRequest, ha, hopen, hturn, Bool.not_true, Bool.false_eq_true, if_false]
  rw [if_neg hno]
  cases hkind : p.kind with
  | read => exact absurd hkind hk
  | _ => simp only [hdone, if_true]

theorem exec_peerRequest_write {u : UStep} (hk : p.kind ≠ .read) (hnew : (connOf s conn).performed.contains p.seqNo = false)
    (hu : u = peerWrite (peerXl s conn p) p { UStep.start 0 0 10 s with owner := .peer conn p.seqNo }) (hheld : u.held = false) :
    exec (.peerRequest conn p) s = .next (peerAnswered conn p u false []) := by
  have hno : ¬(connMode (connOf s conn) ≠ 1 ∨ (connOf s conn).st ≠ 1 ∨ (!peerAllowed s conn p) = true) := by
    simp [hm, hst, hallowed]
  change execPeerRequest conn p s = _
  simp only [execPeerRequest, ha, hopen, hturn, Bool.not_true, Bool.false_eq_true, if_false]
  rw [if_neg hno]
  cases hkind : p.kind with
  | read => exact absurd hkind hk
  | _ => simp only [hnew, ← hu, hheld, Bool.false_eq_true, if_false, peerAnswered]

end

/-- Settles O42. -/
theorem segUpdatesAndPeersAreChecked : Obligations.SegUpdatesAndPeersAreChecked := by
  unfold Obligations.SegUpdatesAndPeersAreChecked
  refine ⟨?_, ?_, ?_, ?_, ?_, ?_, ?_, ?_⟩
  · intro q seq j s hj hd hform hallowed hok hsg hturn
    have hxlat : (began (jobKey q seq) s).xlat = s.xlat := xlat_of_offJobs (began_offJobs ..)
    obtain ⟨u, hx, hkey, hgranted, hctx, hseg, hqueues⟩ := grantUpdate_segment (jobKey q seq) j.raw
      (s := began (jobKey q seq) s) hsg
    rw [hxlat] at hx
    refine ⟨_, u, exec_segUpdate hj hd hform hallowed hok hturn, by rw [hx], hkey, hgranted, hctx, hseg, ?_, ?_,
      by rw [hx], hqueues.trans ?_⟩
    · rw [hctx, hseg, segOf, hx, ← segOf_congr hxlat]
      exact Tab.get_put_self ..
    · intro k hk
      rw [hx]
      rw [hctx, hseg] at hk
      exact Tab.find_put_of_ne _ _ hk
    · rw [began, runJob]
      exact onJob_queues ..
  · intro q seq j s hj hd hform hdenied
    have hoff : offJobs (refuseJob (jobKey q seq) .domainDenied s) = offJobs s := finishWith_offJobs ..
    exact ⟨_, exec_segUpdate_denied hj hd hform hdenied, xlat_of_offJobs hoff, refuseJob_completed _ hj, memoryKept_of_offJobs hoff⟩
  · intro q seq point u s hu hp hno
    have hlt : ¬(point ≥ 65 ∨ u.granted.getLsbD point = true) := by
      rw [hno]
      exact fun h => h.elim (Nat.not_le.2 hp) Bool.false_ne_true
    refine ⟨pointGranted (jobKey q seq) point u s, grantedBy point u, ?_, ?_, ?_, fun p hne => ?_, rfl⟩
    · change execSegUpdateGrant q seq point s = _
      simp only [execSegUpdateGrant, hu]
      rw [if_neg hlt]
      rfl
    · refine (find?_map_key (fun x => if x.key = jobKey q seq then grantedBy point x else x) (fun x => ?_) hu).trans ?_
      · split <;> rfl
      · have hkey : u.key = jobKey q seq := by simpa using List.find?_some hu
        rw [if_pos hkey]
    · rw [grantedBy_getLsbD u hp, decide_eq_true rfl, Bool.or_true]
    · rw [grantedBy_getLsbD u hp, decide_eq_false hne, Bool.or_false]
  · intro q seq u j s hu hj hall hacc htxns
    obtain ⟨hxlat, hmedlars, hqueues⟩ := materialise_keeps u.withdrawn s
    have hjobs := materialise_jobs u.withdrawn s
    have hoff := finishJob_offJobs (jobKey q seq) (updateDone (jobKey q seq) u s)
    refine ⟨finishJob (jobKey q seq) (updateDone (jobKey q seq) u s), ?_, finishJob_completed ?_ rfl ?_, ?_, ?_⟩
    · change execSegUpdateComplete q seq s = _
      simp only [execSegUpdateComplete, hu, hall, hacc, htxns, ne_eq, not_true_eq_false, Bool.or_self, Bool.false_eq_true, if_false,
        updateDone]
    · exact (congrArg (·.find (jobKey q seq)) hjobs).trans hj
    · exact queueOf_congr hqueues _
    · refine (xlat_of_offJobs hoff).trans ?_
      rw [updateDone, hxlat]
    · exact (medlars_of_offJobs hoff).trans hmedlars
  · intro conn p s ha hno
    have hyes : connMode (connOf s conn) ≠ 1 ∨ (connOf s conn).st ≠ 1 ∨ (!peerAllowed s conn p) = true := by simpa using hno
    change execPeerRequest conn p s = _
    simp only [execPeerRequest, ha, Bool.not_true, Bool.false_eq_true, if_false]
    rw [if_pos hyes]
  · intro conn p r s ha hm hst hallowed hopen hturn hk hr hheld
    obtain ⟨hout, hperf, hmem⟩ := peerAnswered_spec conn p r.2 r.1.2 r.1.1
    exact ⟨_, exec_peerRequest_read ha hm hst hallowed hopen hturn hk hr hheld, hout, hperf, hmem⟩
  · intro conn p u s ha hm hst hallowed hopen hturn hk
    refine ⟨fun hdone => exec_peerRequest_again ha hm hst hallowed hopen hturn hk hdone, fun hnew hu hheld => ?_⟩
    obtain ⟨hout, hperf, hmem⟩ := peerAnswered_spec conn p u false []
    exact ⟨_, exec_peerRequest_write ha hm hst hallowed hopen hturn hk hnew hu hheld, hout, hperf, hmem⟩
  · intro conn s ha
    change execFeInboundRdma conn s = _
    rw [execFeInboundRdma, outside_of_alive ha]

end Sys2Proof.Machine

/-! ### Memory instructions of a group (O25) -/

namespace Sys2Proof.Machine

/-! #### Lanes that all translate -/

/-- The step by which the first cause is found. -/
def firstBadStep (a : Option (Cause × Nat × Nat)) (t : LaneTry) : Option (Cause × Nat × Nat) :=
  match t.res, a with
  | .bad c seg, none => some (c, t.va, seg)
  | .bad c seg, some b => if causeRank c < causeRank b.1 then some (c, t.va, seg) else some b
  | .ok _, a => a

theorem firstBad_eq (ts : List LaneTry) : firstBad ts = ts.foldl firstBadStep none := rfl

theorem foldl_firstBadStep_some (b : Cause × Nat × Nat) (ts : List LaneTry) : ∃ c, ts.foldl firstBadStep (some b) = some c := by
  induction ts generalizing b with
  | nil => exact ⟨b, rfl⟩
  | cons t ts ih =>
    have hstep : ∃ c, firstBadStep (some b) t = some c := by
      unfold firstBadStep
      split
      · contradiction
      · split <;> exact ⟨_, rfl⟩
      · exact ⟨b, rfl⟩
    obtain ⟨c, hc⟩ := hstep
    rw [List.foldl_cons, hc]
    exact ih c

theorem ok_of_firstBad {ts : List LaneTry} (h : firstBad ts = none) : ∀ t, t ∈ ts → ∃ x, t.res = .ok x := by
  rw [firstBad_eq] at h
  induction ts with
  | nil => simp
  | cons t ts ih =>
    rw [List.foldl_cons] at h
    cases hr : t.res with
    | ok x =>
      rw [show firstBadStep none t = none by simp only [firstBadStep, hr]] at h
      intro u hu
      rcases List.mem_cons.1 hu with rfl | hu
      · exact ⟨x, hr⟩
      · exact ih h u hu
    | bad c seg =>
      rw [show firstBadStep none t = some (c, t.va, seg) by simp only [firstBadStep, hr]] at h
      obtain ⟨d, hd⟩ := foldl_firstBadStep_some (c, t.va, seg) ts
      rw [hd] at h
      cases h

theorem addLane_ne_nil (x : Xl) (va : Nat) (l : LaneAcc) (ps : List LanePart) : addLane x va l ps ≠ [] := by
  cases ps with
  | nil => simp [addLane]
  | cons p ps =>
    rw [addLane]
    split <;> simp

theorem partsOf_foldl_ne_nil {f : List LanePart → LaneTry → List LanePart} (hf : ∀ ps t, ps ≠ [] → f ps t ≠ []) (ts : List LaneTry)
    {ps : List LanePart} (h : ps ≠ []) : ts.foldl f ps ≠ [] :=
  List.foldlRecOn (motive := fun ps => ps ≠ []) ts f h fun ps hps t _ => hf ps t hps

/-- Some lane's access travels in some request. -/
theorem partsOf_ne_nil {n : Nat} (val : Nat → Nat × Nat) {ts : List LaneTry} (hok : ∀ t, t ∈ ts → ∃ x, t.res = .ok x)
    (h : ts ≠ []) : partsOf n val ts ≠ [] := by
  cases ts with
  | nil => exact absurd rfl h
  | cons t ts =>
    obtain ⟨x, hx⟩ := hok t List.mem_cons_self
    rw [partsOf, List.foldl_cons]
    refine partsOf_foldl_ne_nil (fun ps u hps => ?_) ts ?_
    · split
      · exact addLane_ne_nil _ _ _ _
      · exact hps
    · rw [hx]
      exact addLane_ne_nil _ _ _ _

/-! #### Requests that are sent -/

theorem sendFlits_reqs (lp vc n : Nat) (s : State) :
    (sendFlits lp vc n s).reqs = s.reqs ∧ (sendFlits lp vc n s).nextReq = s.nextReq := by
  rw [sendFlits]
  split <;> exact ⟨rfl, rfl⟩

theorem leaveTxn_reqs (id : Nat) (x : Txn) (s : State) :
    (leaveTxn id x s).reqs = s.reqs ∧ (leaveTxn id x s).nextReq = s.nextReq := by
  unfold leaveTxn
  dsimp only
  split
  · obtain ⟨hreqs, hnext⟩ := sendFlits_reqs _ _ _ _
    exact ⟨hreqs, hnext⟩
  · exact ⟨rfl, rfl⟩

theorem pumpConn_reqs (conn n : Nat) (s : State) :
    (pumpConn conn n s).reqs = s.reqs ∧ (pumpConn conn n s).nextReq = s.nextReq := by
  induction n generalizing s with
  | zero => exact ⟨rfl, rfl⟩
  | succ n ih =>
    unfold pumpConn
    split
    · exact ⟨rfl, rfl⟩
    next c _ =>
      split
      · obtain ⟨hreqs, hnext⟩ := ih (leaveTxn c.1 c.2 s)
        obtain ⟨hreqs', hnext'⟩ := leaveTxn_reqs c.1 c.2 s
        exact ⟨hreqs.trans hreqs', hnext.trans hnext'⟩
      · exact ⟨rfl, rfl⟩

theorem bumpIf_reqs (b : Bool) (k : Nat) (s : State) :
    (if b then bump k 1 s else s).reqs = s.reqs ∧ (if b then bump k 1 s else s).nextReq = s.nextReq := by
  cases b
  · exact ⟨rfl, rfl⟩
  · exact ⟨bump_reqs .., bump_nextReq ..⟩

theorem openTxn_reqs (xl : Xl) (len : Nat) (read : Bool) (bytes : List Byte) (o : TOwner) (s : State) :
    (openTxn xl len read bytes o s).2.reqs = s.reqs ∧ (openTxn xl len read bytes o s).2.nextReq = s.nextReq := by
  unfold openTxn openTxnWith
  extract_lets d k id full busy x s1 s2 s3
  obtain ⟨hreqs, hnext⟩ := pumpConn_reqs d.1 1 { s3 with links := { s3.links with txns := s3.links.txns.put id x, nextTxn := id + 1 } }
  obtain ⟨hreqs1, hnext1⟩ : s1.reqs = s.reqs ∧ s1.nextReq = s.nextReq := bumpIf_reqs ..
  obtain ⟨hreqs2, hnext2⟩ : s2.reqs = s1.reqs ∧ s2.nextReq = s1.nextReq := bumpIf_reqs ..
  exact ⟨hreqs.trans (hreqs2.trans hreqs1), hnext.trans (hnext2.trans hnext1)⟩

theorem countDenied_reqs (c d o : Nat) (s : State) : (countDenied c d o s).reqs = s.reqs := by
  rw [countDenied, setDv_reqs, sumErr_reqs, bump_reqs]

theorem countStale_reqs (s : State) : (countStale s).reqs = s.reqs := by rw [countStale, bump_reqs]

/-- A request that is issued takes the next number. -/
theorem issueReq_reqs (r : Req) (s : State) :
    ∃ st, (issueReq r s).reqs = s.reqs.put s.nextReq { r with die := dieOf s r.src, st := st } ∧
      (issueReq r s).nextReq = s.nextReq + 1 := by
  unfold issueReq
  dsimp only
  have hput {t : State} (st : ReqSt) (h : t.reqs = s.reqs) : ∃ st', t.reqs.put s.nextReq { r with die := dieOf s r.src, st := st } =
      s.reqs.put s.nextReq { r with die := dieOf s r.src, st := st' } ∧ s.nextReq + 1 = s.nextReq + 1 := ⟨st, by rw [h], rfl⟩
  split
  · exact hput r.st rfl
  · exact hput .denied (countDenied_reqs ..)
  all_goals
    split
    · exact hput .stale rfl
    · split
      · exact hput .stale (countStale_reqs ..)
      · split
        · exact hput _ rfl
        · exact hput _ (openTxn_reqs ..).1

/-- The requests of an instruction's parts have all been sent, under numbers that were free. -/
theorem foldl_issueReq_find (f : LanePart → Req) (ps : List LanePart) (s : State) :
    (∀ id, id < s.nextReq → (ps.foldl (fun t p => issueReq (f p) t) s).reqs.find id = s.reqs.find id) ∧
    ∀ p, p ∈ ps → ∃ id d st, (ps.foldl (fun t p => issueReq (f p) t) s).reqs.find id = some { f p with die := d, st := st } := by
  induction ps generalizing s with
  | nil => exact ⟨fun _ _ => rfl, by simp⟩
  | cons p ps ih =>
    obtain ⟨st, hreqs, hnext⟩ := issueReq_reqs (f p) s
    obtain ⟨hkeep, hsent⟩ := ih (issueReq (f p) s)
    rw [List.foldl_cons]
    refine ⟨fun id hid => ?_, fun q hq => ?_⟩
    · rw [hkeep id (by omega), hreqs, Tab.find_put_of_ne _ _ (by omega)]
    · rcases List.mem_cons.1 hq with rfl | hq
      · exact ⟨s.nextReq, _, st, by rw [hkeep _ (by omega), hreqs, Tab.find_put_self]⟩
      · exact hsent q hq

theorem partsSent_of_sent {g load : Nat} {k : ReqKind} {f : LanePart → Req} {ps : List LanePart} {s t : State}
    (hf : ∀ p, (f p).src = .group g ∧ (f p).kind = k ∧ (f p).xl = p.xl ∧ (f p).va = p.va ∧ (f p).lanes = p.lanes ∧
      (f p).load = load) (ht : t.reqs = (ps.foldl (fun t p => issueReq (f p) t) s).reqs) : PartsSent g k load ps t := by
  intro p hp
  obtain ⟨id, d, st, hfind⟩ := (foldl_issueReq_find f ps s).2 p hp
  obtain ⟨hsrc, hkind, hxl, hva, hlanes, hload⟩ := hf p
  exact ⟨id, { f p with die := d, st := st }, by rw [ht, hfind], hsrc, hkind, hxl, hva, hlanes, hload⟩

theorem sendParts_unsent (g : Nat) (k : ReqKind) (critical : Bool) (load : Nat) (l1 : LanePart → Bool) (ps : List LanePart)
    (s : State) : unsent (sendParts g k critical load l1 ps s) = unsent s := foldl_unsent (fun _ _ => issueReq_unsent ..) _ _

theorem partsSent_sendParts {g load : Nat} {k : ReqKind} {critical : Bool} {l1 : LanePart → Bool} {ps : List LanePart}
    {s t : State} (ht : t.reqs = (sendParts g k critical load l1 ps s).reqs) : PartsSent g k load ps t :=
  partsSent_of_sent (fun _ => ⟨rfl, rfl, rfl, rfl, rfl, rfl⟩) ht

/-! #### The L1 and the group -/

/-- What updating an L1 leaves: the groups, memory, the Medlar cores and the number of the next request. -/
structure L1Step (s t : State) : Prop where
  groups : t.grp.groups = s.grp.groups
  mem : t.mem = s.mem
  medlars : t.medlars = s.medlars
  nextReq : t.nextReq = s.nextReq

theorem L1Step.refl (s : State) : L1Step s s := ⟨rfl, rfl, rfl, rfl⟩

theorem L1Step.trans {s t u : State} (h : L1Step s t) (h' : L1Step t u) : L1Step s u :=
  ⟨h'.groups.trans h.groups, h'.mem.trans h.mem, h'.medlars.trans h.medlars, h'.nextReq.trans h.nextReq⟩

theorem foldl_l1Step {α : Type} {f : State → α → State} (h : ∀ t x, L1Step t (f t x)) (l : List α) (s : State) :
    L1Step s (l.foldl f s) := foldl_keeps (L1Step s) f (fun t x ht => ht.trans (h t x)) l s (.refl s)

theorem l1Store_step (k : Nat) (p : LanePart) (s : State) : L1Step s (l1Store k p s) := by
  unfold l1Store
  split
  · exact .refl s
  · dsimp only
    split <;> exact ⟨rfl, rfl, rfl, rfl⟩

theorem l1Drop_step (k : Nat) (p : LanePart) (s : State) : L1Step s (l1Drop k p s) := by
  unfold l1Drop
  split
  · exact .refl s
  · exact ⟨rfl, rfl, rfl, rfl⟩

theorem bump_l1Step (k n : Nat) (s : State) : L1Step s (bump k n s) :=
  ⟨congrArg (·.groups) (bump_grp ..), bump_mem .., bump_medlars .., bump_nextReq ..⟩

/-- A group's memory instruction that meets no trap. -/
theorem memGroup_done {row : Row} {g w beats : Nat} {ok : Bool} {k : OpKs} {x : Group} {s t : State}
    {go : MFields → Group → State → Eff} (hi : GroupIssues row g w (memUses k (mFields w)) x s)
    (hr : GroupMemRegs s g ok k (mFields w)) (hd : go (mFields w) x s = .done t) :
    memGroup row g w beats ok k go s = .next (bump (K.groupIssueBeats + x.die) beats t) := by
  obtain ⟨hok, hregs⟩ := hr
  unfold memGroup
  exact issueGroup_of_done hi ((withRegs_of_legal _ _ _ hok hregs).trans hd)

theorem bump_partsSent {g load k n : Nat} {kind : ReqKind} {ps : List LanePart} {s : State} (h : PartsSent g kind load ps s) :
    PartsSent g kind load ps (bump k n s) := fun p hp => by
  obtain ⟨id, r, hfind, hrest⟩ := h p hp
  exact ⟨id, r, by rw [bump_reqs]; exact hfind, hrest⟩

/-- The load that a group's load keeps pending, its lanes being ts, and the parts that the L1 lacks. -/
def groupPending (f : MFields) (scalar : Bool) (x : Group) (s : State) (ts : List LaneTry) : PendLoad :=
  let n := accessBytes f.width
  let ps := partsOf n (fun _ => (0, 0)) ts
  let hits := ps.filterMap fun p => (l1Hit s (coreKey x.die x.core) (!f.bench) p).map fun d =>
    p.lanes.map fun l => { l with res := lineBytes d l.pos l.n }
  { id := s.nextReq, dest := if scalar then .s f.d else .lanes f.d, width := n, sx := f.sx
    got := hits.flatten.foldl (fun t a => t.put a.lane a.res) ⟨[]⟩
    laneMask := BitVec.ofNat 32 ((accessLanes x.arch f scalar).foldl (fun m i => m + 2 ^ i) 0)
    left := (ps.filter fun p => (l1Hit s (coreKey x.die x.core) (!f.bench) p).isNone).length, poison := false, bad := []
    va := (ts.head?.map LaneTry.va).getD 0, pc := x.arch.pc, saved := some x.arch, parts := [], base := 0 }

/-- The request by which a group's load asks for a part. -/
def groupReadReq (g : Nat) (f : MFields) (x : Group) (s : State) (p : LanePart) : Req :=
  let k := coreKey x.die x.core
  let q := partReq g .read (f.lc || bit (launchCtl (launchRaw s (launchKey g))) 3) s.nextReq (l1Fills s k (!f.bench) p) p
  { q with laidOver := match lineOf p.xl with | some line => coreStores s k line | none => q.laidOver }

section
variable {g w : Nat} {f : MFields} {scalar : Bool} {x : Group} {s : State} {ts : List LaneTry}
  (hts : ts = tryLanes s (launchCtx s (launchKey g)) needR (accessBytes f.width) false (laneAddr f x.arch)
    (accessLanes x.arch f scalar)) (hok : firstBad ts = none)
include hts hok

/-- A load whose lanes the L1 all has retires at once. -/
theorem groupLoad_hit (hmiss : (partsOf (accessBytes f.width) (fun _ => (0, 0)) ts).filter
      (fun p => (l1Hit s (coreKey x.die x.core) (!f.bench) p).isNone) = []) :
    groupLoad g w f scalar x s = groupNext g w x (applyLoad (groupPending f scalar x s ts) x.arch) s := by
  subst hts
  simp only [groupLoad, hok, hmiss, List.isEmpty_nil, if_true]
  rw [groupPending, hmiss]

/-- A load that misses asks for what the L1 lacks, and the group goes on. -/
theorem groupLoad_miss {miss : List LanePart} (hm : miss = (partsOf (accessBytes f.width) (fun _ => (0, 0)) ts).filter
      (fun p => (l1Hit s (coreKey x.die x.core) (!f.bench) p).isNone)) (hmiss : miss ≠ []) :
    groupLoad g w f scalar x s = .done (miss.foldl (fun u p => issueReq (groupReadReq g f x s p) u)
      (setGroup g { x with arch := goNext w x.arch, loads := x.loads ++ [groupPending f scalar x s ts] } s)) := by
  have hno : ¬(miss.isEmpty = true) := by simpa using hmiss
  subst hts
  simp only [groupLoad, hok, ← hm]
  rw [if_neg hno, groupPending, ← hm]
  rfl

end

/-- What a group's lanes store: the value of the one access, or those of D. -/
def storeVal (f : MFields) (scalar : Bool) (x : Group) (i : Nat) : Nat × Nat :=
  (if scalar then sReg x.arch f.d else vOperand x.arch (8 * accessBytes f.width) f.d i, 0)

/-- The parts of a store have updated the L1 and left the group. -/
def storeSent (g : Nat) (f : MFields) (scalar : Bool) (x : Group) (us : List LaneTry) (t : State) : State :=
  let ps := partsOf (accessBytes f.width) (storeVal f scalar x) us
  sendParts g .write false 0 (fun _ => false) ps (ps.foldl (fun u p => l1Store (coreKey x.die x.core) p u) t)

/-- A store sends its lanes in some order, the given one where they do not overlap. -/
theorem groupStore_sent {g w : Nat} {f : MFields} {scalar : Bool} {x : Group} {s : State} {ts : List LaneTry}
    (hopen : loadsOpen s g x = false)
    (hts : ts = tryLanes s (launchCtx s (launchKey g)) needW (accessBytes f.width) false (laneAddr f x.arch)
      (accessLanes x.arch f scalar)) (hok : firstBad ts = none) :
    ∃ us t, L1Step s t ∧ groupStore g w f scalar x s = groupNext g w x x.arch (storeSent g f scalar x us t) ∧
      (lanesOverlap (accessBytes f.width) ts = false → us = ts) := by
  simp only [groupStore, ← hts, hopen, hok, Bool.false_eq_true, if_false]
  split
  next h =>
    exact ⟨shuffle (takeFree s).1 ts, (takeFree s).2, ⟨rfl, rfl, rfl, rfl⟩, rfl,
      fun h' => absurd (h.symm.trans h') Bool.false_ne_true.symm⟩
  · exact ⟨ts, s, .refl s, rfl, fun _ => rfl⟩

theorem storeSent_keeps (g : Nat) (f : MFields) (scalar : Bool) (x : Group) (us : List LaneTry) (t : State) :
    (storeSent g f scalar x us t).mem = t.mem ∧ (storeSent g f scalar x us t).medlars = t.medlars := by
  have hl1 := foldl_l1Step (fun u p => l1Store_step (coreKey x.die x.core) p u)
    (partsOf (accessBytes f.width) (storeVal f scalar x) us) t
  have hsent := sendParts_unsent g .write false 0 (fun _ => false) (partsOf (accessBytes f.width) (storeVal f scalar x) us)
    ((partsOf (accessBytes f.width) (storeVal f scalar x) us).foldl (fun u p => l1Store (coreKey x.die x.core) p u) t)
  exact ⟨(mem_of_unsent hsent).trans hl1.mem, (medlars_of_unsent hsent).trans hl1.medlars⟩

/-! #### Atomics and reduce-writes -/

/-- The L1 has dropped the lines of an atomic's parts. -/
def atomicDropped (x : Group) (ts : List LaneTry) (ps : List LanePart) (s : State) : State :=
  ps.foldl (fun u p => l1Drop (coreKey x.die x.core) p u) (bump (K.groupAtomicsCombined + x.die) (combined ts) s)

theorem atomicDropped_step (x : Group) (ts : List LaneTry) (ps : List LanePart) (s : State) :
    L1Step s (atomicDropped x ts ps s) := (bump_l1Step ..).trans (foldl_l1Step (fun _ _ => l1Drop_step ..) _ _)

/-- The load that a group's atomic keeps pending. -/
def atomicPending (f : MFields) (x : Group) (ts : List LaneTry) (ps : List LanePart) (s : State) : PendLoad :=
  { id := s.nextReq, dest := .lanes f.d, width := accessBytes f.width, sx := false, got := ⟨[]⟩
    laneMask := BitVec.ofNat 32 ((accessLanes x.arch f false).foldl (fun m i => m + 2 ^ i) 0), left := ps.length, poison := false
    bad := [], va := (ts.head?.map LaneTry.va).getD 0, pc := x.arch.pc, saved := some x.arch, parts := [], base := 0 }

section
variable {g w op : Nat} {f : MFields} {val : Nat → Nat × Nat} {x : Group} {s : State} {ts : List LaneTry} {ps : List LanePart}
  (hopen : loadsOpen s g x = false) (hok : firstBad ts = none) (hps : ps = partsOf (accessBytes f.width) val ts)
include hopen hok hps

theorem groupAtomic_empty {returns : Bool} (hloads : returns = true → x.loads = [])
    (hts : ts = tryLanes s (launchCtx s (launchKey g)) (if returns then needRW else needW) (accessBytes f.width) true
      (laneAddr f x.arch) (accessLanes x.arch f false)) (hempty : ps = []) :
    groupAtomic g w op f val returns x s = groupNext g w x x.arch (atomicDropped x ts ps s) := by
  have hwait : ¬(returns && !x.loads.isEmpty) = true := by
    cases hr : returns with
    | false => simp
    | true => simp [hloads hr]
  have hparts := hps.symm.trans hempty
  subst hts hps
  simp only [groupAtomic, hopen, hok, Bool.false_eq_true, if_false]
  rw [if_neg hwait, hparts]
  rfl

theorem groupAtomic_returns (hloads : x.loads = [])
    (hts : ts = tryLanes s (launchCtx s (launchKey g)) needRW (accessBytes f.width) true (laneAddr f x.arch)
      (accessLanes x.arch f false)) (hsome : ps ≠ []) :
    groupAtomic g w op f val true x s = .done (sendParts g (.atomic op f.width) false (atomicDropped x ts ps s).nextReq
      (fun _ => false) ps (setGroup g { x with arch := goNext w x.arch
                                               loads := x.loads ++ [atomicPending f x ts ps (atomicDropped x ts ps s)] }
        (atomicDropped x ts ps s))) := by
  have hno : ¬(ps.isEmpty = true) := by simpa using hsome
  subst hts hps
  simp only [groupAtomic, if_true, hopen, hok, hloads, List.isEmpty_nil, Bool.not_true, Bool.and_false, Bool.false_eq_true, if_false]
  rw [if_neg hno]
  rfl

theorem groupAtomic_reduces
    (hts : ts = tryLanes s (launchCtx s (launchKey g)) needW (accessBytes f.width) true (laneAddr f x.arch)
      (accessLanes x.arch f false)) (hsome : ps ≠ []) :
    groupAtomic g w op f val false x s = .done (sendParts g (.reduce op f.width) false 0 (fun _ => false) ps
      (setGroup g { x with arch := goNext w x.arch } (atomicDropped x ts ps s))) := by
  have hno : ¬(ps.isEmpty = true) := by simpa using hsome
  subst hts hps
  simp only [groupAtomic, hopen, hok, Bool.false_and, Bool.false_eq_true, if_false]
  rw [if_neg hno]
  rfl

end

/-! #### The instructions -/

theorem unsent_sent {α : Type} (f : α → Req) (l : List α) (s : State) :
    unsent (l.foldl (fun t p => issueReq (f p) t) s) = unsent s := foldl_unsent (fun _ _ => issueReq_unsent ..) _ _

theorem groupOf_of_unsent {s t : State} (h : unsent t = unsent s) (g : Nat) : groupOf t g = groupOf s g := by
  rw [groupOf, groupOf, grp_of_unsent h]

section
variable {row : Row} {g w beats : Nat} {ok : Bool} {k : OpKs} {x : Group} {s : State}
  (hi : GroupIssues row g w (memUses k (mFields w)) x s) (hr : GroupMemRegs s g ok k (mFields w))
include hi hr

/-- A group's load: it retires, or keeps a load pending and has asked for its parts. -/
theorem memGroup_load {go : MFields → Group → State → Eff} {ts : List LaneTry} {miss : List LanePart} {scalar : Bool}
    (hgo : go (mFields w) x s = groupLoad g w (mFields w) scalar x s)
    (hts : ts = tryLanes s (launchCtx s (launchKey g)) needR (accessBytes (mFields w).width) false (laneAddr (mFields w) x.arch)
      (accessLanes x.arch (mFields w) scalar)) (hok : firstBad ts = none)
    (hm : miss = (partsOf (accessBytes (mFields w).width) (fun _ => (0, 0)) ts).filter
      (fun p => (l1Hit s (coreKey x.die x.core) (!(mFields w).bench) p).isNone)) :
    ∃ t y l, memGroup row g w beats ok k go s = .next t ∧ groupOf t g = some y ∧ y.faults = [] ∧ t.mem = s.mem ∧
      t.medlars = s.medlars ∧ l = groupPending (mFields w) scalar x s ts ∧
      (miss = [] → y.loads = x.loads ∧ t.reqs = s.reqs ∧ y.arch = goNext w (applyLoad l x.arch)) ∧
      (miss ≠ [] → y.arch = goNext w x.arch ∧ y.loads = x.loads ++ [l] ∧ PartsSent g .read s.nextReq miss t) := by
  obtain ⟨_, hwaits, _, _⟩ := id hi
  have hfaults := groupWaits_faults hwaits
  by_cases hmiss : miss = []
  · refine ⟨_, { x with arch := goNext w (applyLoad (groupPending (mFields w) scalar x s ts) x.arch) }, _,
      memGroup_done hi hr (hgo.trans (groupLoad_hit hts hok (hm.symm.trans hmiss))), ?_, hfaults, ?_, ?_, rfl,
      fun _ => ⟨rfl, ?_, rfl⟩, fun h => absurd hmiss h⟩
    · rw [groupOf_bump, groupOf_setGroup_self]
    · rw [bump_mem, setGroup_mem]
    · rw [bump_medlars, setGroup_medlars]
    · rw [bump_reqs, setGroup_reqs]
  · have hsent := unsent_sent (groupReadReq g (mFields w) x s) miss
      (setGroup g { x with arch := goNext w x.arch, loads := x.loads ++ [groupPending (mFields w) scalar x s ts] } s)
    refine ⟨_, { x with arch := goNext w x.arch, loads := x.loads ++ [groupPending (mFields w) scalar x s ts] }, _,
      memGroup_done hi hr (hgo.trans (groupLoad_miss hts hok hm hmiss)), ?_, hfaults, ?_, ?_, rfl, fun h => absurd h hmiss,
      fun _ => ⟨rfl, rfl, bump_partsSent (partsSent_of_sent (fun _ => ⟨rfl, rfl, rfl, rfl, rfl, rfl⟩) rfl)⟩⟩
    · rw [groupOf_bump, groupOf_of_unsent hsent, groupOf_setGroup_self]
    · rw [bump_mem, mem_of_unsent hsent, setGroup_mem]
    · rw [bump_medlars, medlars_of_unsent hsent, setGroup_medlars]

/-- A group's store: it has sent its lanes, in the given order where they do not overlap. -/
theorem memGroup_store {go : MFields → Group → State → Eff} {ts : List LaneTry} {scalar : Bool}
    (hgo : go (mFields w) x s = groupStore g w (mFields w) scalar x s) (hopen : loadsOpen s g x = false)
    (hts : ts = tryLanes s (launchCtx s (launchKey g)) needW (accessBytes (mFields w).width) false (laneAddr (mFields w) x.arch)
      (accessLanes x.arch (mFields w) scalar)) (hok : firstBad ts = none) :
    ∃ t y, memGroup row g w beats ok k go s = .next t ∧ groupOf t g = some y ∧ y.faults = [] ∧ y.loads = x.loads ∧
      y.arch = goNext w x.arch ∧ t.mem = s.mem ∧ t.medlars = s.medlars ∧
      (lanesOverlap (accessBytes (mFields w).width) ts = false → PartsSent g .write 0
        (partsOf (accessBytes (mFields w).width) (storeVal (mFields w) scalar x) ts) t) := by
  obtain ⟨_, hwaits, _, _⟩ := id hi
  obtain ⟨us, t, hl1, hstore, horder⟩ := groupStore_sent (w := w) hopen hts hok
  obtain ⟨hmem, hmedlars⟩ := storeSent_keeps g (mFields w) scalar x us t
  have hfaults := groupWaits_faults hwaits
  refine ⟨_, { x with arch := goNext w x.arch }, memGroup_done hi hr (hgo.trans hstore), ?_, hfaults, rfl, rfl, ?_, ?_,
    fun hno => ?_⟩
  · rw [groupOf_bump, groupOf_setGroup_self]
  · rw [bump_mem, setGroup_mem, hmem, hl1.mem]
  · rw [bump_medlars, setGroup_medlars, hmedlars, hl1.medlars]
  · rw [← horder hno]
    exact bump_partsSent (partsSent_sendParts (setGroup_reqs ..))

/-- A group's atomic: it has sent its lanes and keeps a load for D where some lane executes. -/
theorem memGroup_atomic {go : MFields → Group → State → Eff} {ts : List LaneTry} {op : Nat} {val : Nat → Nat × Nat}
    (hgo : go (mFields w) x s = groupAtomic g w op (mFields w) val true x s) (hloads : x.loads = [])
    (hopen : loadsOpen s g x = false)
    (hts : ts = tryLanes s (launchCtx s (launchKey g)) needRW (accessBytes (mFields w).width) true (laneAddr (mFields w) x.arch)
      (accessLanes x.arch (mFields w) false)) (hok : firstBad ts = none) :
    ∃ t y, memGroup row g w beats ok k go s = .next t ∧ groupOf t g = some y ∧ y.faults = [] ∧ y.arch = goNext w x.arch ∧
      (accessLanes x.arch (mFields w) false = [] → y.loads = []) ∧
      (accessLanes x.arch (mFields w) false ≠ [] → ∃ l, y.loads = [l] ∧ l.id = s.nextReq ∧ l.dest = .lanes (mFields w).d ∧
        l.saved = some x.arch ∧ 0 < l.left ∧ PartsSent g (.atomic op (mFields w).width) l.id
          (partsOf (accessBytes (mFields w).width) val ts) t) ∧
      t.mem = s.mem := by
  obtain ⟨_, hwaits, _, _⟩ := id hi
  have hfaults := groupWaits_faults hwaits
  obtain ⟨ps, hps⟩ : ∃ ps, ps = partsOf (accessBytes (mFields w).width) val ts := ⟨_, rfl⟩
  have hstep := atomicDropped_step x ts ps s
  rw [← hps]
  by_cases hnone : accessLanes x.arch (mFields w) false = []
  · have hempty : ps = [] := by
      rw [hps, hts, hnone]
      rfl
    refine ⟨_, { x with arch := goNext w x.arch }, memGroup_done hi hr
      (hgo.trans (groupAtomic_empty hopen hok hps (fun _ => hloads) hts hempty)), ?_, hfaults, rfl, fun _ => hloads,
      fun h => absurd hnone h, ?_⟩
    · rw [groupOf_bump, groupOf_setGroup_self]
    · rw [bump_mem, setGroup_mem, hstep.mem]
  · have hsome : ps ≠ [] := by
      rw [hps]
      refine partsOf_ne_nil val (ok_of_firstBad hok) fun h => hnone ?_
      rw [hts] at h
      exact List.map_eq_nil_iff.1 h
    have hsent : PartsSent g (.atomic op (mFields w).width) (atomicPending (mFields w) x ts ps (atomicDropped x ts ps s)).id ps
        (sendParts g (.atomic op (mFields w).width) false (atomicDropped x ts ps s).nextReq (fun _ => false) ps
          (setGroup g { x with arch := goNext w x.arch
                               loads := x.loads ++ [atomicPending (mFields w) x ts ps (atomicDropped x ts ps s)] }
            (atomicDropped x ts ps s))) := partsSent_sendParts rfl
    refine ⟨_, { x with arch := goNext w x.arch
                        loads := x.loads ++ [atomicPending (mFields w) x ts ps (atomicDropped x ts ps s)] },
      memGroup_done hi hr (hgo.trans (groupAtomic_returns hopen hok hps hloads hts hsome)), ?_, hfaults, rfl,
      fun h => absurd h hnone, fun _ => ⟨atomicPending (mFields w) x ts ps (atomicDropped x ts ps s), ?_, hstep.nextReq, rfl, rfl,
        List.length_pos_iff.2 hsome, bump_partsSent hsent⟩, ?_⟩
    · rw [groupOf_bump, groupOf_of_unsent (sendParts_unsent ..), groupOf_setGroup_self]
    · rw [hloads, List.nil_append]
    · rw [bump_mem, mem_of_unsent (sendParts_unsent ..), setGroup_mem, hstep.mem]

/-- A group's reduce-write: it has sent its lanes and keeps no load. -/
theorem memGroup_reduce {go : MFields → Group → State → Eff} {ts : List LaneTry} {op : Nat} {val : Nat → Nat × Nat}
    (hgo : go (mFields w) x s = groupAtomic g w op (mFields w) val false x s) (hopen : loadsOpen s g x = false)
    (hts : ts = tryLanes s (launchCtx s (launchKey g)) needW (accessBytes (mFields w).width) true (laneAddr (mFields w) x.arch)
      (accessLanes x.arch (mFields w) false)) (hok : firstBad ts = none) :
    ∃ t y, memGroup row g w beats ok k go s = .next t ∧ groupOf t g = some y ∧ y.faults = [] ∧ y.loads = x.loads ∧
      y.arch = goNext w x.arch ∧ t.mem = s.mem ∧ PartsSent g (.reduce op (mFields w).width) 0
        (partsOf (accessBytes (mFields w).width) val ts) t := by
  obtain ⟨_, hwaits, _, _⟩ := id hi
  have hfaults := groupWaits_faults hwaits
  have hstep := atomicDropped_step x ts (partsOf (accessBytes (mFields w).width) val ts) s
  by_cases hempty : partsOf (accessBytes (mFields w).width) val ts = []
  · refine ⟨_, { x with arch := goNext w x.arch }, memGroup_done hi hr
      (hgo.trans (groupAtomic_empty hopen hok rfl (fun h => absurd h Bool.false_ne_true) hts hempty)), ?_, hfaults, rfl, rfl, ?_,
      fun p hp => ?_⟩
    · rw [groupOf_bump, groupOf_setGroup_self]
    · rw [bump_mem, setGroup_mem, hstep.mem]
    · simp [hempty] at hp
  · refine ⟨_, { x with arch := goNext w x.arch }, memGroup_done hi hr (hgo.trans (groupAtomic_reduces hopen hok rfl hts hempty)),
      ?_, hfaults, rfl, rfl, ?_, bump_partsSent (partsSent_sendParts rfl)⟩
    · rw [groupOf_bump, groupOf_of_unsent (sendParts_unsent ..), groupOf_setGroup_self]
    · rw [bump_mem, mem_of_unsent (sendParts_unsent ..), setGroup_mem, hstep.mem]

end

/-- Settles O25. -/
theorem groupMemoryInstructionsIssue : Obligations.GroupMemoryInstructionsIssue := by
  unfold Obligations.GroupMemoryInstructionsIssue
  refine ⟨?_, ?_, ?_, ?_, ?_⟩
  · intro g w x ts miss s hi hr hts hok hm
    obtain ⟨t, y, l, hexec, hg, hf, hmem, hmed, rfl, hhit, hmiss⟩ := memGroup_load (beats := if (mFields w).opf == 1 then 0 else 1)
      hi hr (go := fun f x t => groupLoad g w f ((mFields w).opf == 1) x t) rfl hts hok hm
    refine ⟨t, y, _, hexec, hg, hf, hmem, hmed, rfl, rfl, ?_, hhit, fun h => ?_⟩
    · simp only [groupPending, beq_iff_eq]
    · obtain ⟨harch, hloads, hsent⟩ := hmiss h
      exact ⟨harch, hloads, rfl, rfl, congrArg List.length hm.symm, hsent⟩
  · intro g w x ts s hi hr hopen hts hok
    exact memGroup_store (beats := if (mFields w).opf == 1 then 0 else 1) hi hr
      (go := fun f x t => groupStore g w f ((mFields w).opf == 1) x t) rfl hopen hts hok
  · intro g w x ts s hi hr hloads hopen hts hok
    exact memGroup_atomic hi hr (go := fun f x t => groupAtomic g w (mFields w).opf f
      (fun i => (vOperand x.arch (8 * accessBytes (mFields w).width) (mFields w).d i, 0)) true x t) rfl hloads hopen hts hok
  · intro g w x ts s hi hr hloads hopen hts hok
    obtain ⟨t, y, hexec, hg, hf, harch, hnone, hsome, hmem⟩ := memGroup_atomic (beats := 1) hi hr
      (go := fun f x t => groupAtomic g w 9 f (fun i => (vOperand x.arch (8 * accessBytes f.width) f.b i,
        vOperand x.arch (8 * accessBytes f.width) f.d i)) true x t) rfl hloads hopen hts hok
    refine ⟨t, y, hexec, hg, hf, harch, hnone, fun h => ?_, hmem⟩
    obtain ⟨l, hl, hid, hdest, -, -, hsent⟩ := hsome h
    exact ⟨l, hl, hid, hdest, hsent⟩
  · intro g w x ts s hi hr hopen hts hok
    exact memGroup_reduce hi hr (go := fun f x t => groupAtomic g w (mFields w).opf f
      (fun i => (vOperand x.arch (8 * accessBytes (mFields w).width) (mFields w).d i, 0)) false x t) rfl hopen hts hok

end Sys2Proof.Machine

/-! ### Memory instructions of a Medlar core (O27, O28) -/

namespace Sys2Proof.Machine

/-! #### One core changes -/

/-- From s to t core c has become m, and nothing else has changed. -/
structure OnlyCore (c : Nat) (m : Medlar) (s t : State) : Prop where
  self : medlarOf t c = m
  others : ∀ d, d ≠ c → medlarOf t d = medlarOf s d
  frame : t = { s with medlars := t.medlars }

namespace OnlyCore
variable {c : Nat} {m m' : Medlar} {s t u : State}

theorem refl (c : Nat) (s : State) : OnlyCore c (medlarOf s c) s s := ⟨rfl, fun _ _ => rfl, rfl⟩

theorem trans (h : OnlyCore c m s t) (h' : OnlyCore c m' t u) : OnlyCore c m' s u where
  self := h'.self
  others d hd := (h'.others d hd).trans (h.others d hd)
  frame := by
    rw [h'.frame, h.frame]

theorem set (c : Nat) (m : Medlar) (s : State) : OnlyCore c m s (setMedlar c m s) :=
  ⟨medlarOf_setMedlar_self .., fun _ hd => medlarOf_setMedlar_of_ne _ _ hd, rfl⟩

theorem mem (h : OnlyCore c m s t) : t.mem = s.mem := (congrArg State.mem h.frame :)
theorem reqs (h : OnlyCore c m s t) : t.reqs = s.reqs := (congrArg State.reqs h.frame :)
theorem nextReq (h : OnlyCore c m s t) : t.nextReq = s.nextReq := (congrArg State.nextReq h.frame :)

end OnlyCore

theorem noteSeg_onlyCore (c : Nat) (x : Xl) (s : State) : ∃ l, OnlyCore c { medlarOf s c with segs := l } s (noteSeg c x s) := by
  rw [noteSeg]
  split
  · exact ⟨(medlarOf s c).segs, .refl c s⟩
  · exact ⟨_, .set ..⟩

/-! #### The one pending load -/

theorem onLoad_of_one {c id : Nat} {f : PendLoad → PendLoad} {l : PendLoad} {s : State} (hl : (medlarOf s c).loads = [l])
    (hid : l.id = id) (hleft : (f l).left ≠ 0) : onLoad c id f s = setMedlar c { medlarOf s c with loads := [f l] } s := by
  simp only [onLoad, hl, List.map_cons, List.map_nil, hid, if_true, List.length_singleton, retireLoads, medlarOf_setMedlar_self]
  rw [if_pos hleft]

theorem medlarWriteDest_held (d : Dest) (w : Nat) (sx : Bool) (x : Nat) (m : Medlar) :
    (medlarWriteDest d w sx x m).held = m.held := by
  unfold medlarWriteDest
  split <;> rfl

/-- The one pending load of a core completes and writes its register. -/
theorem onLoad_retires {c id : Nat} {f : PendLoad → PendLoad} {l : PendLoad} {s : State} (hl : (medlarOf s c).loads = [l])
    (hid : l.id = id) (hleft : (f l).left = 0) (hbad : (f l).bad = []) (hpoison : (f l).poison = false)
    (hheld : (medlarOf s c).held = []) :
    OnlyCore c (medlarWriteDest (f l).dest (f l).width (f l).sx ((f l).got.get 0 0) { medlarOf s c with loads := [] }) s
      (onLoad c id f s) := by
  have hnone : ∀ t, (medlarOf t c).held = [] → takeHeld c t = t := fun t ht => takeHeld_of_none ht
  simp only [onLoad, hl, List.map_cons, List.map_nil, hid, if_true, List.length_singleton, retireLoads, medlarOf_setMedlar_self,
    hleft, hbad, hpoison, Bool.false_eq_true, if_false, ne_eq, not_true_eq_false]
  rw [hnone _ (by rw [medlarOf_setMedlar_self, medlarWriteDest_held]; exact hheld)]
  exact (OnlyCore.set ..).trans (.set ..)

/-- The last part of a core's one pending load has come. -/
theorem medlarPart_retires {c id shift val : Nat} {l : PendLoad} {s : State} (hl : (medlarOf s c).loads = [l]) (hid : l.id = id)
    (hleft : l.left = 1) (hbad : l.bad = []) (hpoison : l.poison = false) (hheld : (medlarOf s c).held = []) :
    OnlyCore c (medlarWriteDest l.dest l.width l.sx (l.got.get 0 0 + val * 2 ^ (8 * shift)) { medlarOf s c with loads := [] }) s
      (medlarPart c id shift val false s) := by
  have hdone := onLoad_retires (f := fun l => { l with got := l.got.put 0 (l.got.get 0 0 + val * 2 ^ (8 * shift)), left := l.left - 1
                                                       poison := l.poison || false }) hl hid
    (by simp [hleft]) hbad (by simp [hpoison]) hheld
  simp only [Tab.get_put_self] at hdone
  exact hdone

/-! #### A load of one part -/

def oneWait (p : MedPart) (s : State) : WaitLoad :=
  { id := s.nextReq, xl := p.xl, va := p.va, n := p.n, shift := p.shift, held := 0, heldVal := 0 }

/-- The load that an access of one part keeps pending. -/
def oneLoad (m : Medlar) (d : Dest) (n : Nat) (sx : Bool) (va : Nat) (p : MedPart) (s : State) : PendLoad :=
  { newLoad s m d n sx 0 va with
    got := Tab.set ⟨[]⟩ 0 0 0, left := 1, parts := if p.xl.region == 0 then [oneWait p s] else [], base := 0 }

theorem medlarLoad_one {c w n va : Nat} {ds : List Dest} {d : Dest} {sx : Bool} {m : Medlar} {p : MedPart} {s : State}
    (htries : medlarTries s (medlarCtx m) needR va n = (none, [p])) (hloads : m.loads = []) (hreg : p.xl.region ≠ 2)
    (hpiece : partPiece m p = some ⟨p, none, 0, 0⟩) :
    medlarLoad c w ds d n sx va m s =
      .done (startPart c (oneWait p s) (onLoad c s.nextReq id (beginLoad c w (oneLoad m d n sx va p s) s))) := by
  have hstrict : [p].find? (fun p => p.xl.region == 2) = none := by simp [hreg]
  simp only [medlarLoad, htries, hloads, List.isEmpty_nil, Bool.not_true, Bool.false_and, Bool.false_eq_true, if_false, hstrict,
    List.map_cons, List.map_nil, hpiece]
  simp [oneLoad, oneWait, newLoad]

/-- A core's memory instruction that meets no trap. -/
theorem memMedlar_done {row : Row} {c w : Nat} {ok : Bool} {k : OpKs} {s t : State} {go : MFields → Medlar → State → Eff}
    (hi : MedlarIssues row c w s) (hr : MedlarMemRegs ok k (mFields w)) (hd : go (mFields w) (medlarOf s c) s = .done t) :
    memMedlar row c w ok k go s = .next t := by
  obtain ⟨hok, hregs⟩ := hr
  unfold memMedlar
  exact issueMedlar_of_done hi ((withRegs_of_legal _ _ _ hok hregs).trans hd)

/-- A core that has begun its only load. -/
def loadBegun (w : Nat) (l : PendLoad) (m : Medlar) : Medlar := { m with pc := m.pc + BitVec.ofNat 64 (wsize w), loads := [l] }

theorem beginLoad_onlyCore {c w : Nat} {l : PendLoad} {s : State} (hloads : (medlarOf s c).loads = []) (hid : l.id = s.nextReq)
    (hleft : l.left ≠ 0) :
    OnlyCore c (loadBegun w l (medlarOf s c)) s (onLoad c s.nextReq id (beginLoad c w l s)) := by
  have hbegun : OnlyCore c (loadBegun w l (medlarOf s c)) s (beginLoad c w l s) := by
    rw [beginLoad, hloads]
    exact .set ..
  have hone : (medlarOf (beginLoad c w l s) c).loads = [l] := by rw [hbegun.self, loadBegun]
  rw [onLoad_of_one hone hid hleft, hbegun.self]
  exact hbegun.trans (.set ..)

theorem partPiece_uncached {m : Medlar} {p : MedPart} {off : Nat} (hreg : p.xl.region = 1) (ht : p.xl.target = .memory off)
    (hcomb : m.comb = []) : partPiece m p = some ⟨p, none, 0, 0⟩ := by
  simp only [partPiece, lineOf, ht, hreg, combPiece, hcomb, List.find?_nil]

theorem forward_nil (line p n : Nat) : forward [] line p n = .clear := by
  rw [forward]
  simp [sbByte]

theorem partPiece_cached {m : Medlar} {p : MedPart} {line : Nat} (hreg : p.xl.region = 0) (hline : lineOf p.xl = some line)
    (hsb : m.sb = []) : partPiece m p = some ⟨p, none, 0, 0⟩ := by
  simp only [partPiece, hline, hreg, hsb, forward_nil]


/-- The read of a part of a load that is not Normal-cached. -/
def partRead (c : Nat) (w : WaitLoad) : Req :=
  { plainReq (.medlar c) .read w.xl w.va
      [{ lane := 0, pos := w.va % 128, n := w.n, val := w.heldVal, cmp := w.held, res := 0, shift := w.shift }] with
    critical := true, load := w.id }

/-- A part of a load that is not Normal-cached asks its target. -/
theorem startPart_uncached {c : Nat} {w : WaitLoad} (s : State) (h : w.xl.region = 1) :
    startPart c w s = issueReq (partRead c w) s := by
  unfold startPart
  split
  next _ h0 => rw [h] at h0; cases h0
  · rfl

/-- A part of a load of a line that the core holds takes its bytes at once. -/
theorem startPart_hit {c line : Nat} {w : WaitLoad} {e : CLine} {s : State} (hreg : w.xl.region = 0)
    (hline : lineOf w.xl = some line) (he : (medlarOf s c).lines.find line = some e) :
    startPart c w s = medlarPart c w.id w.shift (lineBytes e.data (w.va % 128) w.n) e.poison (noteSeg c w.xl s) := by
  obtain ⟨l, hseg⟩ := noteSeg_onlyCore c w.xl s
  have hlines : (medlarOf (noteSeg c w.xl s) c).lines.find line = some e := by rw [hseg.self]; exact he
  simp only [startPart, hline, hreg, hlines]

section
variable {c w : Nat} {s : State} (hi : MedlarIssues .ld c w s)
  (hr : MedlarMemRegs (loadStoreOk false true (mFields w)) (accessKinds false false (mFields w)) (mFields w))
include hi hr

theorem exec_ld_medlar {d : Dest} {t : State} (hd : d = (if (mFields w).width = 4 then .v512 (mFields w).d else .g (mFields w).d))
    (ht : medlarLoad c w (d :: .g (mFields w).a :: (if (mFields w).am = 1 then [Dest.g (mFields w).b] else [])) d
      (accessBytes (mFields w).width) (mFields w).sx (medlarAddr (mFields w) (medlarOf s c)) (medlarOf s c) s = .done t) :
    exec (.ld (.medlar c) w) s = .next t := by
  subst hd
  exact memMedlar_done (go := fun f m t =>
    let d : Dest := if f.width = 4 then .v512 f.d else .g f.d
    medlarLoad c w (d :: .g f.a :: (if f.am = 1 then [Dest.g f.b] else [])) d (accessBytes f.width) f.sx (medlarAddr f m) m t) hi hr ht

/-- An uncached load of one part sends one read and stays pending. -/
theorem ld_uncached {off : Nat} {p : MedPart}
    (htries : medlarTries s (medlarCtx (medlarOf s c)) needR (medlarAddr (mFields w) (medlarOf s c))
      (accessBytes (mFields w).width) = (none, [p])) (hreg : p.xl.region = 1) (ht : p.xl.target = .memory off)
    (hcomb : (medlarOf s c).comb = []) (hloads : (medlarOf s c).loads = []) :
    ∃ t l r, exec (.ld (.medlar c) w) s = .next t ∧ medlarOf t c = loadBegun w l (medlarOf s c) ∧ l.left = 1 ∧
      l.pc = (medlarOf s c).pc ∧ t.reqs.find s.nextReq = some r ∧ r.kind = .read ∧ r.xl = p.xl ∧ r.va = p.va ∧ r.load = l.id ∧
      t.mem = s.mem := by
  obtain ⟨d, hd⟩ : ∃ d, d = (if (mFields w).width = 4 then Dest.v512 (mFields w).d else .g (mFields w).d) := ⟨_, rfl⟩
  obtain ⟨l, hl⟩ : ∃ l, l = oneLoad (medlarOf s c) d (accessBytes (mFields w).width) (mFields w).sx
    (medlarAddr (mFields w) (medlarOf s c)) p s := ⟨_, rfl⟩
  have hone := medlarLoad_one (c := c) (w := w) (d := d) (sx := (mFields w).sx)
    (ds := d :: .g (mFields w).a :: (if (mFields w).am = 1 then [Dest.g (mFields w).b] else [])) htries hloads (by omega)
    (partPiece_uncached hreg ht hcomb)
  have hline : lineOf (partRead c (oneWait p s)).xl = some (off / 128) := by
    rw [show (partRead c (oneWait p s)).xl = p.xl from rfl, lineOf, ht]
  rw [← hl, startPart_uncached _ hreg, issueReq_memory _ hline] at hone
  have hcore := beginLoad_onlyCore (c := c) (w := w) (l := l) hloads (by rw [hl]; rfl) (by rw [hl]; exact Nat.one_ne_zero)
  obtain ⟨u, hu⟩ : ∃ u, u = onLoad c s.nextReq id (beginLoad c w l s) := ⟨_, rfl⟩
  rw [← hu] at hone hcore
  refine ⟨_, l, { partRead c (oneWait p s) with die := dieOf u (.medlar c) }, exec_ld_medlar hi hr hd hone, hcore.self,
    by rw [hl]; rfl, by rw [hl]; rfl, ?_, rfl, rfl, rfl, by rw [hl]; rfl, hcore.mem⟩
  rw [← hcore.nextReq]
  exact Tab.find_put_self ..

/-- A load of one part of a line that the core holds writes its register at once. -/
theorem ld_hit {line : Nat} {p : MedPart} {e : CLine}
    (htries : medlarTries s (medlarCtx (medlarOf s c)) needR (medlarAddr (mFields w) (medlarOf s c))
      (accessBytes (mFields w).width) = (none, [p])) (hw : (mFields w).width ≤ 3) (hshift : p.shift = 0) (hreg : p.xl.region = 0)
    (hline : lineOf p.xl = some line) (hloads : (medlarOf s c).loads = []) (hsb : (medlarOf s c).sb = [])
    (hheld : (medlarOf s c).held = []) (he : (medlarOf s c).lines.find line = some e) (hpoison : e.poison = false) :
    ∃ t l, exec (.ld (.medlar c) w) s = .next t ∧ OnlyCore c { medlarOf s c with
      g := (medlarOf s c).g.set 0#64 (mFields w).d (BitVec.ofNat 64 (widen (accessBytes (mFields w).width) (mFields w).sx
        (lineBytes e.data (p.va % 128) p.n))), pc := (medlarOf s c).pc + BitVec.ofNat 64 (wsize w), loads := [], segs := l } s t := by
  have hd : Dest.g (mFields w).d = (if (mFields w).width = 4 then Dest.v512 (mFields w).d else .g (mFields w).d) := by
    rw [if_neg (by omega)]
  obtain ⟨l, hl⟩ : ∃ l, l = oneLoad (medlarOf s c) (.g (mFields w).d) (accessBytes (mFields w).width) (mFields w).sx
    (medlarAddr (mFields w) (medlarOf s c)) p s := ⟨_, rfl⟩
  have hone := medlarLoad_one (c := c) (w := w) (d := .g (mFields w).d) (sx := (mFields w).sx)
    (ds := .g (mFields w).d :: .g (mFields w).a :: (if (mFields w).am = 1 then [Dest.g (mFields w).b] else [])) htries hloads
    (by omega) (partPiece_cached hreg hline hsb)
  have hcore := beginLoad_onlyCore (c := c) (w := w) (l := l) hloads (by rw [hl]; rfl) (by rw [hl]; exact Nat.one_ne_zero)
  rw [← hl] at hone
  obtain ⟨u, hu⟩ : ∃ u, u = onLoad c s.nextReq id (beginLoad c w l s) := ⟨_, rfl⟩
  rw [← hu] at hone hcore
  have hhit := startPart_hit (c := c) (w := oneWait p s) (s := u) hreg hline (by rw [hcore.self]; exact he)
  obtain ⟨segs, hseg⟩ := noteSeg_onlyCore c (oneWait p s).xl u
  rw [hcore.self] at hseg
  rw [hpoison] at hhit
  have hdone := medlarPart_retires (c := c) (id := s.nextReq) (shift := (oneWait p s).shift)
    (val := lineBytes e.data ((oneWait p s).va % 128) (oneWait p s).n) (s := noteSeg c (oneWait p s).xl u) (l := l)
    (by rw [hseg.self, loadBegun]) (by rw [hl]; rfl) (by rw [hl]; rfl) (by rw [hl]; rfl) (by rw [hl]; rfl)
    (by rw [hseg.self]; exact hheld)
  have hgot : l.got.get 0 0 = 0 := by rw [hl]; rfl
  rw [hseg.self, hgot, show (oneWait p s).shift = 0 from hshift, Nat.mul_zero, Nat.pow_zero, Nat.mul_one, Nat.zero_add] at hdone
  rw [show (oneWait p s).shift = 0 from hshift] at hhit
  refine ⟨_, segs, exec_ld_medlar hi hr hd (hone.trans (congrArg Eff.done hhit)), ?_⟩
  have hall := (hcore.trans hseg).trans hdone
  rw [hl] at hall
  exact hall

end

/-! #### Stores -/

/-- What the parts of a store to Normal-cached memory leave in the store buffer. -/
def storeEntry (val : Nat) (p : MedPart) : SbEntry :=
  { xl := p.xl, va := p.va, reduce := none, n := p.n, val := bits val (8 * p.shift) (8 * p.n) }

theorem bufferPart_cached {c val : Nat} {p : MedPart} (s : State) (h : p.xl.region = 0) :
    ∃ l, OnlyCore c { medlarOf s c with sb := (medlarOf s c).sb ++ [storeEntry val p], segs := l } s (bufferPart c val p s) := by
  have hset := OnlyCore.set c { medlarOf s c with sb := (medlarOf s c).sb ++ [storeEntry val p] } s
  obtain ⟨l, hseg⟩ := noteSeg_onlyCore c p.xl (setMedlar c { medlarOf s c with sb := (medlarOf s c).sb ++ [storeEntry val p] } s)
  rw [hset.self] at hseg
  refine ⟨l, ?_⟩
  rw [bufferPart, if_pos h]
  exact hset.trans hseg

theorem foldl_bufferPart {c val : Nat} {ps : List MedPart} (s : State) (h : ∀ p, p ∈ ps → p.xl.region = 0) :
    ∃ l, OnlyCore c { medlarOf s c with sb := (medlarOf s c).sb ++ ps.map (storeEntry val), segs := l } s
      (ps.foldl (fun v p => bufferPart c val p v) s) := by
  induction ps generalizing s with
  | nil =>
    refine ⟨(medlarOf s c).segs, ?_⟩
    rw [List.map_nil, List.append_nil]
    exact .refl c s
  | cons p ps ih =>
    obtain ⟨l, hfirst⟩ := bufferPart_cached (c := c) (val := val) s (h p List.mem_cons_self)
    obtain ⟨l', hrest⟩ := ih (bufferPart c val p s) fun q hq => h q (List.mem_cons_of_mem p hq)
    rw [hfirst.self] at hrest
    refine ⟨l', ?_⟩
    have hall := hfirst.trans hrest
    simpa using hall

section
variable {c w : Nat} {s : State} (hi : MedlarIssues .st c w s)
  (hr : MedlarMemRegs (loadStoreOk false false (mFields w)) (accessKinds false false (mFields w)) (mFields w))

/-- What a Medlar store writes. -/
def medlarData (w : Nat) (m : Medlar) : Nat :=
  if (mFields w).width = 4 then mvReg m (mFields w).d else gReg m (mFields w).d % 2 ^ (8 * accessBytes (mFields w).width)

include hi hr

theorem exec_st_medlar {t : State} (ht : medlarStore c w (accessBytes (mFields w).width) (medlarData w (medlarOf s c))
      (medlarAddr (mFields w) (medlarOf s c)) (medlarOf s c) s = .done t) : exec (.st (.medlar c) w) s = .next t :=
  memMedlar_done (go := fun f m t => medlarStore c w (accessBytes f.width)
    (if f.width = 4 then mvReg m f.d else gReg m f.d % 2 ^ (8 * accessBytes f.width)) (medlarAddr f m) m t) hi hr ht

variable {ps : List MedPart} (htries : medlarTries s (medlarCtx (medlarOf s c)) needW (medlarAddr (mFields w) (medlarOf s c))
  (accessBytes (mFields w).width) = (none, ps)) (hreg : ∀ p, p ∈ ps → p.xl.region = 0)
include htries hreg

theorem st_buffered (hroom : (medlarOf s c).sb.length + ps.length ≤ 64) :
    ∃ t l, exec (.st (.medlar c) w) s = .next t ∧ OnlyCore c { medlarOf s c with
      sb := (medlarOf s c).sb ++ ps.map (storeEntry (medlarData w (medlarOf s c)))
      segs := l, pc := (medlarOf s c).pc + BitVec.ofNat 64 (wsize w) } s t := by
  have hstrict : ps.find? (fun p => p.xl.region == 2) = none := List.find?_eq_none.2 fun p hp => by simp [hreg p hp]
  have hall : (ps.filter fun p => p.xl.region == 0) = ps := List.filter_eq_self.2 fun p hp => by simp [hreg p hp]
  obtain ⟨l, hcore⟩ := foldl_bufferPart (c := c) (val := medlarData w (medlarOf s c)) s hreg
  refine ⟨_, l, exec_st_medlar hi hr (by simp only [medlarStore, htries, hstrict, hall, Nat.not_lt.2 hroom, if_false]; rfl), ?_⟩
  have hset := OnlyCore.set c { medlarOf s c with
    sb := (medlarOf s c).sb ++ ps.map (storeEntry (medlarData w (medlarOf s c)))
    segs := l, pc := (medlarOf s c).pc + BitVec.ofNat 64 (wsize w) } (ps.foldl (fun v p => bufferPart c (medlarData w (medlarOf s c)) p v) s)
  rw [hcore.self]
  exact hcore.trans hset

theorem st_full (hfull : 64 < (medlarOf s c).sb.length + ps.length) :
    exec (.st (.medlar c) w) s = .next (bump (K.medlarSbFullSteps + (dieOfCore c - 8)) 1 s) := by
  have hstrict : ps.find? (fun p => p.xl.region == 2) = none := List.find?_eq_none.2 fun p hp => by simp [hreg p hp]
  have hall : (ps.filter fun p => p.xl.region == 0) = ps := List.filter_eq_self.2 fun p hp => by simp [hreg p hp]
  exact exec_st_medlar hi hr (by simp only [medlarStore, htries, hstrict, hall, gt_iff_lt, hfull, if_true, sbFull])

end

/-- Settles O27. -/
theorem medlarLoadsAndStoresIssue : Obligations.MedlarLoadsAndStoresIssue := by
  unfold Obligations.MedlarLoadsAndStoresIssue
  refine ⟨?_, ?_, ?_, ?_, ?_, ?_⟩
  · intro c w d s t hi hr hd ht
    exact exec_ld_medlar hi hr hd ht
  · intro c w off p s hi hr htries hn hreg ht hcomb hloads
    obtain ⟨t, l, r, hexec, hm, hleft, hpc, hfind, hkind, hxl, hva, hload, hmem⟩ := ld_uncached hi hr htries hreg ht hcomb hloads
    exact ⟨t, l, r, hexec, by rw [hm, loadBegun], hleft, hpc, by rw [hm, loadBegun], by rw [hm, loadBegun], hfind, hkind, hxl, hva,
      hload, hmem⟩
  · intro c w line p e s hi hr htries hw hn hshift hreg hline hloads hsb hheld he hpoison
    obtain ⟨t, l, hexec, hcore⟩ := ld_hit hi hr htries hw hshift hreg hline hloads hsb hheld he hpoison
    refine ⟨t, hexec, by rw [hcore.self], ?_, fun r hne => ?_, by rw [hcore.self], hcore.mem, hcore.reqs⟩
    · rw [hcore.self, hn]
      exact Tab.get_set_self ..
    · rw [gReg, gReg, hcore.self]
      exact congrArg BitVec.toNat (Tab.get_set_of_ne _ _ _ hne)
  · intro c w ps s hi hr htries hreg hroom
    obtain ⟨t, l, hexec, hcore⟩ := st_buffered hi hr htries hreg hroom
    refine ⟨t, hexec, ?_, by rw [hcore.self], by rw [hcore.self], by rw [hcore.self], hcore.frame⟩
    rw [hcore.self]
    simp only [List.map_append, List.map_map]
    rfl
  · intro c w s t hi hr ht
    exact exec_st_medlar hi hr ht
  · intro c w ps s hi hr htries hreg hfull
    exact ⟨_, st_full hi hr htries hreg hfull, bump_medlars .., bump_onlyRecords ..⟩

/-! #### Atomics and reduce-writes -/

theorem drainComb_onlyCore {c : Nat} {s : State} (h : (medlarOf s c).comb = []) :
    OnlyCore c { medlarOf s c with comb := [] } s (drainComb c s) := by
  rw [drainComb, h]
  exact .set ..

/-- The load that a core's atomic keeps pending. -/
def atomicLoad (c : Nat) (f : MFields) (va : Nat) (s : State) : PendLoad :=
  newLoad (drainComb c s) (medlarOf (drainComb c s) c) (.g f.d) (accessBytes f.width) false 1 va

/-- The request of a core's atomic. -/
def atomicReq (c op : Nat) (f : MFields) (val cmp va : Nat) (x : Xl) (s : State) : Req :=
  let n := accessBytes f.width
  { plainReq (.medlar c) (.atomic op f.width) x va
      [{ oneLane (va % 128) n (val % 2 ^ (8 * n)) with cmp := cmp % 2 ^ (8 * n) }] with load := (atomicLoad c f va s).id }

/-- An atomic that translates, behind performed stores alone, asks its home once and keeps a load for D. -/
theorem medlarAtomic_sent {c w op val cmp va off : Nat} {f : MFields} {x : Xl} {s : State}
    (hx : tryAccess s (medlarCtx (medlarOf s c)) needRW (accessBytes f.width) true va = .ok x) (ht : x.target = .memory off)
    (hsb : (medlarOf s c).sb = []) (hcomb : (medlarOf s c).comb = []) :
    ∃ t, medlarAtomic c w op f val cmp va (medlarOf s c) s = .done t ∧
      (medlarOf t c).loads = (medlarOf s c).loads ++ [atomicLoad c f va s] ∧
      (medlarOf t c).pc = (medlarOf s c).pc + BitVec.ofNat 64 (wsize w) ∧
      t.reqs.find s.nextReq = some { atomicReq c op f val cmp va x s with die := dieOfCore c } ∧ t.mem = s.mem := by
  have hline : lineOf (atomicReq c op f val cmp va x s).xl = some (off / 128) := by
    rw [show (atomicReq c op f val cmp va x s).xl = x from rfl, lineOf, ht]
  have hdrain := drainComb_onlyCore hcomb
  obtain ⟨u, hu⟩ : ∃ u, u = beginLoad c w (atomicLoad c f va s) (drainComb c s) := ⟨_, rfl⟩
  have hbegun : OnlyCore c { medlarOf s c with
      comb := [], pc := (medlarOf s c).pc + BitVec.ofNat 64 (wsize w)
      loads := (medlarOf s c).loads ++ [atomicLoad c f va s] } s u := by
    rw [hu, beginLoad, hdrain.self]
    exact hdrain.trans (.set ..)
  refine ⟨issueReq (atomicReq c op f val cmp va x s) u, ?_, ?_⟩
  · simp only [medlarAtomic, hx, hsb, List.isEmpty_nil, Bool.not_true, Bool.false_eq_true, if_false]
    rw [hu]
    rfl
  · rw [issueReq_memory _ hline]
    have hself : ∀ v : State, v.medlars = u.medlars → medlarOf v c = medlarOf u c := fun v hv => by rw [medlarOf, medlarOf, hv]
    refine ⟨?_, ?_, ?_, hbegun.mem⟩
    · rw [hself, hbegun.self]
      rfl
    · rw [hself, hbegun.self]
      rfl
    · rw [← hbegun.nextReq]
      exact Tab.find_put_self ..

/-- The entry of a reduce-write in the store buffer. -/
def reduceEntry (w : Nat) (x : Xl) (m : Medlar) : SbEntry :=
  { xl := x, va := medlarAddr (mFields w) m, reduce := some ((mFields w).opf, (mFields w).width), n := accessBytes (mFields w).width
    val := gReg m (mFields w).d % 2 ^ (8 * accessBytes (mFields w).width) }

/-- Settles O28. -/
theorem medlarAtomicsIssue : Obligations.MedlarAtomicsIssue := by
  unfold Obligations.MedlarAtomicsIssue
  refine ⟨?_, ?_, ?_⟩
  · intro c w off x s hi hr hx ht hsb hcomb
    obtain ⟨t, hdone, hloads, hpc, hfind, hmem⟩ := medlarAtomic_sent (w := w) (op := (mFields w).opf)
      (val := gReg (medlarOf s c) (mFields w).d) (cmp := 0) hx ht hsb hcomb
    exact ⟨t, _, _, memMedlar_done (go := fun f m t => medlarAtomic c w f.opf f (gReg m f.d) 0 (medlarAddr f m) m t) hi hr hdone,
      hloads, rfl, hfind, rfl, rfl, rfl, rfl, rfl, hpc, hmem⟩
  · intro c w off x s hi hr hx ht hsb hcomb
    obtain ⟨t, hdone, hloads, hpc, hfind, hmem⟩ := medlarAtomic_sent (w := w) (op := 9)
      (val := gReg (medlarOf s c) (mFields w).b) (cmp := gReg (medlarOf s c) (mFields w).d) hx ht hsb hcomb
    exact ⟨t, _, _, memMedlar_done (go := fun f m t => medlarAtomic c w 9 f (gReg m f.b) (gReg m f.d) (medlarAddr f m) m t) hi hr
      hdone, hloads, rfl, hfind, rfl, rfl, rfl, rfl, hpc, hmem⟩
  · intro c w x s hi hr hx hroom
    have hcore := OnlyCore.set c { medlarOf s c with
      sb := (medlarOf s c).sb ++ [reduceEntry w x (medlarOf s c)]
      pc := (medlarOf s c).pc + BitVec.ofNat 64 (wsize w) } s
    refine ⟨_, reduceEntry w x (medlarOf s c), memMedlar_done (go := fun f m t => medlarReduce c w f.opf f (gReg m f.d) (medlarAddr f m) m t) hi hr ?_, ?_, rfl, rfl,
      rfl, ?_, hcore.frame⟩
    · simp only [medlarReduce, hx, ge_iff_le, Nat.not_le.2 hroom, if_false]
      rfl
    · rw [hcore.self]
    · rw [hcore.self]

end Sys2Proof.Machine

/-! ### What comes back (O29) -/

namespace Sys2Proof.Machine

theorem dropReq_find (id : Nat) (s : State) : (dropReq id s).reqs.find id = none := Tab.find_del_self ..

theorem dropReq_find_of_ne {id i : Nat} (s : State) (h : i ≠ id) : (dropReq id s).reqs.find i = s.reqs.find i :=
  Tab.find_del_of_ne _ h

/-! #### Values (R153, R154, R181) -/

/-- The value a served read or atomic of one lane brings to a Medlar core. -/
def servedValue (r : Req) (a : LaneAcc) : Nat := if r.kind = .read then withHeld a.n a.cmp a.val a.res else a.res

theorem medlarReturn_served {c : Nat} {r : Req} {a : LaneAcc} (s : State) (hst : r.st = .served) (hlanes : r.lanes = [a]) :
    medlarReturn c r s = medlarPart c r.load a.shift (servedValue r a) false s := by
  simp only [medlarReturn, hst, hlanes, List.headD_cons, servedValue]

theorem exec_loadReturn {id : Nat} {r : Req} {s : State} (hr : s.reqs.find id = some r) (hret : r.kind.returns = true)
    (hst : r.st = .served) (hopen : answerOpen s r = true) :
    exec (.loadReturn id) s = .next (match r.src with
      | .medlar c => medlarReturn c r (dropReq id s)
      | .group g => groupReturn g r (dropReq id s)) := by
  change execLoadReturn id s = _
  cases hsrc : r.src <;>
    simp only [execLoadReturn, hr, hret, resolved, hst, hopen, hsrc, Bool.not_true, Bool.or_self, Bool.false_eq_true, if_false]

/-- The one pending load of a core ends with its one part, and writes its register. -/
theorem medlarPart_writes {c id reg val : Nat} {l : PendLoad} {s : State} (hloads : (medlarOf s c).loads = [l]) (hid : l.id = id)
    (hleft : l.left = 1) (hpoison : l.poison = false) (hbad : l.bad = []) (hgot : l.got = ⟨[]⟩) (hdest : l.dest = .g reg)
    (hheld : (medlarOf s c).held = []) :
    OnlyCore c { medlarOf s c with
      g := (medlarOf s c).g.set 0#64 reg (BitVec.ofNat 64 (widen l.width l.sx val)), loads := [] } s
      (medlarPart c id 0 val false s) := by
  have hdone := medlarPart_retires (shift := 0) (val := val) hloads hid hleft hbad hpoison hheld
  rw [hgot, hdest, Nat.mul_zero, Nat.pow_zero, Nat.mul_one, show Tab.get (⟨[]⟩ : Tab Nat) 0 0 = 0 from rfl, Nat.zero_add] at hdone
  exact hdone

/-- What the answer of a request changes in its core's L1 and its launch leaves memory, requests and groups alone. -/
structure GroupsStay (s t : State) : Prop where
  groups : t.grp.groups = s.grp.groups
  mem : t.mem = s.mem
  reqs : t.reqs = s.reqs

theorem GroupsStay.groupOf {s t : State} (h : GroupsStay s t) (g : Nat) : Machine.groupOf t g = Machine.groupOf s g := by
  rw [Machine.groupOf, Machine.groupOf, h.groups]

theorem l1Fill_groupsStay (k line : Nat) (d : Line) (s : State) : GroupsStay s (l1Fill k line d s) := by
  rw [l1Fill]
  dsimp only
  split <;> exact ⟨rfl, rfl, rfl⟩

theorem fillFrom_groupsStay (r : Req) (s : State) : GroupsStay s (fillFrom r s) := by
  rw [fillFrom]
  split
  · exact l1Fill_groupsStay ..
  · exact ⟨rfl, rfl, rfl⟩

theorem noteCorrected_groupsStay (g : Nat) (s : State) : GroupsStay s (noteCorrected g s) := by
  rw [noteCorrected]
  split <;> exact ⟨rfl, rfl, rfl⟩

theorem GroupsStay.trans {s t u : State} (h : GroupsStay s t) (k : GroupsStay t u) : GroupsStay s u :=
  ⟨k.groups.trans h.groups, k.mem.trans h.mem, k.reqs.trans h.reqs⟩

theorem groupReturn_served {g : Nat} {r : Req} (s : State) (hst : r.st = .served) :
    ∃ u, GroupsStay s u ∧ groupReturn g r s = loadPart g r.load r.lanes [] u := by
  simp only [groupReturn, hst]
  refine ⟨_, ?_, rfl⟩
  split
  · exact (noteCorrected_groupsStay g s).trans (fillFrom_groupsStay ..)
  · exact fillFrom_groupsStay ..

/-- A load whose last part is in, none of them refused, retires. -/
theorem loadPart_last {g id : Nat} {got : List LaneAcc} {x : Group} {l : PendLoad} {s : State} (hx : groupOf s g = some x)
    (hl : x.loads.find? (·.id == id) = some l) (hleft : l.left = 1) (hbad : l.bad = []) :
    loadPart g id got [] s =
      retireLoad g { l with got := got.foldl (fun m a => m.put a.lane a.res) l.got, left := 0 } x s := by
  obtain ⟨lid, dest, width, sx, agot, mask, left, poison, bad⟩ := l
  obtain rfl : left = 1 := hleft
  obtain rfl : bad = [] := hbad
  simp only [loadPart, hx, hl]
  rfl

/-- A retired load is no longer pending, and no other load takes its number. -/
theorem retireLoad_gone (l : PendLoad) (loads : List PendLoad) :
    ∀ m, m ∈ (loads.filter (·.id != l.id)).map (fun y =>
      if y.id > l.id then { y with saved := y.saved.map (applyLoad l) } else y) → m.id ≠ l.id := by
  intro m hm
  obtain ⟨y, hy, rfl⟩ := List.mem_map.mp hm
  have hne : y.id ≠ l.id := by simpa using (List.mem_filter.mp hy).2
  split <;> exact hne

/-! #### Acknowledgements (R191) -/

theorem exec_writeAck_served {id : Nat} {r : Req} {s : State} (hr : s.reqs.find id = some r) (hret : r.kind.returns = false)
    (hst : r.st = .served) (hopen : answerOpen s r = true) : exec (.writeAck id) s = .next (dropReq id s) := by
  change execWriteAck id s = _
  simp only [execWriteAck, hr, hret, hopen, hst, Bool.not_true, Bool.false_eq_true, if_false]

theorem exec_writeAck_failed {id : Nat} {r : Req} {f : RemoteFail} {s : State} (hr : s.reqs.find id = some r)
    (hret : r.kind.returns = false) (hst : r.st = .remoteFailed f) (hopen : answerOpen s r = true) :
    exec (.writeAck id) s = .next (noteFailed r.src f (dropReq id s)) := by
  change execWriteAck id s = _
  simp only [execWriteAck, hr, hret, hopen, hst, Bool.not_true, Bool.false_eq_true, if_false]

theorem noteFailed_group {g : Nat} {x : Group} {s : State} (f : RemoteFail) (hx : groupOf s g = some x) :
    groupOf (noteFailed (.group g) f s) g = some { x with abandoned := x.abandoned ++ [f] } ∧
      noteFailed (.group g) f s = { s with grp := (noteFailed (.group g) f s).grp } := by
  simp only [noteFailed, hx]
  split <;> exact ⟨groupOf_setGroup_self g _ s, rfl⟩

/-! #### Refused writes (R199, R200) -/

/-- The request was refused with this cause. -/
def RefusedWith (r : Req) (e : Cause) : Prop :=
  (r.st = .denied ∧ e = .domainDenied) ∨ (r.st = .refaulted ∧ e = .segmentFault)

/-- A reduce-write that is still at the head of its core's store buffer; a missed one has left it. -/
def atHead (r : Req) : Bool :=
  match r.kind with
  | .reduce _ _ => !r.missed
  | _ => false

/-- What a core holds as its write is reported. -/
def reportedFrom (r : Req) (id : Nat) (s : State) : State :=
  if atHead r then advanceHead r.src (dropReq id s) else dropReq id s

theorem exec_impreciseReport_medlar {id c : Nat} {r : Req} {e : Cause} {s : State} (hr : s.reqs.find id = some r)
    (hret : r.kind.returns = false) (he : RefusedWith r e) (hopen : answerOpen s r = true) (hsrc : r.src = .medlar c) :
    exec (.impreciseReport id) s = .next (medlarReport c { cause := e, va := r.va } (reportedFrom r id s)) := by
  change execImpreciseReport id s = _
  obtain ⟨hst, rfl⟩ | ⟨hst, rfl⟩ := he <;>
    simp only [execImpreciseReport, reportedFrom, atHead, hr, hret, hopen, hst, hsrc, Bool.not_true, Bool.false_eq_true, if_false] <;> rfl

theorem exec_impreciseReport_group {id g : Nat} {r : Req} {e : Cause} {s : State} (hr : s.reqs.find id = some r)
    (hret : r.kind.returns = false) (he : RefusedWith r e) (hopen : answerOpen s r = true) (hsrc : r.src = .group g)
    (hheld : reportHeld g s = false) :
    exec (.impreciseReport id) s = .next (groupReport g r.die (impreciseFault s r e) (dropReq id s)) := by
  change execImpreciseReport id s = _
  obtain ⟨hst, rfl⟩ | ⟨hst, rfl⟩ := he <;>
    simp only [execImpreciseReport, hr, hret, hopen, hst, hsrc, hheld, Bool.not_true, Bool.false_eq_true, if_false]

theorem medlarOf_advanceHead (c : Nat) (s : State) :
    medlarOf (advanceHead (.medlar c) s) c = { medlarOf s c with sb := (medlarOf (advanceHead (.medlar c) s) c).sb } := by
  simp only [advanceHead]
  split
  · split
    · simp only [medlarOf_setMedlar_self]
    · rfl
  · rfl

/-- A report leaves its core as it was but for the store buffer, and its request is gone. -/
theorem reportedFrom_keeps {c : Nat} {r : Req} (id : Nat) (s : State) (hsrc : r.src = .medlar c) :
    (reportedFrom r id s).reqs.find id = none ∧ (reportedFrom r id s).mem = s.mem ∧
      medlarOf (reportedFrom r id s) c = { medlarOf s c with sb := (medlarOf (reportedFrom r id s) c).sb } := by
  simp only [reportedFrom, hsrc]
  split
  · obtain ⟨hreqs, -, hmem⟩ := advanceHead_keeps (.medlar c) (dropReq id s)
    exact ⟨by rw [hreqs, dropReq_find], hmem, medlarOf_advanceHead c (dropReq id s)⟩
  · exact ⟨dropReq_find id s, rfl, rfl⟩

theorem medlarReport_mem (c : Nat) (r : Imprecise) (s : State) : (medlarReport c r s).mem = s.mem := (takeHeld_coreStep ..).mem

/-- A core in RUNTIME mode, behind a pending load or in FENCE.SYS holds the report. -/
theorem medlarReport_held {c : Nat} {s : State} (i : Imprecise)
    (h : (medlarOf s c).runtime = true ∨ (medlarOf s c).loads ≠ [] ∨ (medlarOf s c).sysWait.isSome = true) :
    medlarReport c i s = setMedlar c { medlarOf s c with held := (medlarOf s c).held ++ [i] } s := by
  have hwait : ((medlarOf s c).runtime || !(medlarOf s c).loads.isEmpty || (medlarOf s c).sysWait.isSome) = true := by
    obtain h | h | h := h
    · simp [h]
    · simp [h]
    · simp [h]
  simp only [medlarReport, takeHeld, medlarOf_setMedlar_self, hwait, if_true]
  split <;> rfl

/-- A core in APP mode that waits for nothing takes the report as its trap. -/
theorem medlarReport_taken {c : Nat} {s : State} (i : Imprecise) (hrun : (medlarOf s c).runtime = false)
    (hloads : (medlarOf s c).loads = []) (hsys : (medlarOf s c).sysWait = none) (hheld : (medlarOf s c).held = []) :
    ∃ u, medlarReport c i s = medlarTrap c i.cause i.va (medlarOf s c).pc true u ∧ medlarOf u c = medlarOf s c := by
  refine ⟨setMedlar c { medlarOf s c with held := [] } (setMedlar c { medlarOf s c with held := [i] } s), ?_, ?_⟩
  · simp only [medlarReport, takeHeld, medlarOf_setMedlar_self, hheld, List.nil_append, hrun, hloads, hsys, List.isEmpty_nil,
      Bool.not_true, Option.isSome_none, Bool.or_self, Bool.false_eq_true, if_false]
  · rw [medlarOf_setMedlar_self, ← hheld]

theorem reportHeld_resident {g : Nat} {x : Group} {s : State} (hx : groupOf s g = some x) (hplace : x.place = .resident) :
    reportHeld g s = false := by
  simp only [reportHeld, hx, hplace]

theorem groupReport_resident {g die : Nat} {f : FaultInfo} {x : Group} {s : State} (hx : groupOf s g = some x)
    (hplace : x.place = .resident) : groupReport g die f s = groupTrap g f s := by
  simp only [groupReport, hx, hplace]

theorem groupTrap_keeps {g : Nat} {f : FaultInfo} {x : Group} {s : State} (hx : groupOf s g = some x) :
    (groupTrap g f s).reqs = s.reqs ∧ (groupTrap g f s).mem = s.mem := by
  simp only [groupTrap, hx, bump_reqs, bump_mem]
  exact ⟨rfl, rfl⟩

theorem impreciseFault_imprecise (s : State) (r : Req) (e : Cause) : (impreciseFault s r e).imprecise = true := rfl

theorem impreciseFault_cause {s : State} {r : Req} {e : Cause} (he : RefusedWith r e) : (impreciseFault s r e).cause = e := by
  obtain ⟨-, rfl⟩ | ⟨-, rfl⟩ := he <;> rfl

/-! #### Stale requests (R290) -/

theorem countSegFault_onlyRecords (s : State) : OnlyRecords s (countSegFault s) :=
  (bump_onlyRecords ..).trans (sumErr_onlyRecords ..)

theorem exec_requestRetranslate_ok {id g line : Nat} {r : Req} {x : Xl} {s : State} (hr : s.reqs.find id = some r)
    (hst : r.st = .stale) (hsrc : r.src = .group g) (hx : retranslate s r.xl.ctx r.va (kindNeed r.kind) = .ok x)
    (hfits : regionFits r x = true) (hline : lineOf x = some line) :
    exec (.requestRetranslate id) s = .next (setReq id { r with xl := x, st := .issued } s) := by
  change execRequestRetranslate id s = _
  simp only [execRequestRetranslate, hr, hst, hx, hfits, reissue, hline, hsrc, bne_self_eq_false, Bool.false_eq_true, if_false, if_true]

theorem exec_requestRetranslate_fault {id seg : Nat} {r : Req} {s : State} (hr : s.reqs.find id = some r) (hst : r.st = .stale)
    (hx : retranslate s r.xl.ctx r.va (kindNeed r.kind) = .fault seg) :
    exec (.requestRetranslate id) s = .next (setReq id { r with st := .refaulted } (countSegFault s)) := by
  change execRequestRetranslate id s = _
  simp only [execRequestRetranslate, hr, hst, hx, bne_self_eq_false, Bool.false_eq_true, if_false]

/-! #### The clauses together -/

/-- Settles O29: what comes back ends its request and reaches its core or group by one part of a load, one abandoned write or
one report; a stale request is issued anew or refused. -/
theorem requestsComeBack : Obligations.RequestsComeBack := by
  refine ⟨?medlarLoad, ?groupLoad, ?ack, ?failMedlar, ?failGroup, ?reportMedlar, ?reportGroup, ?again, ?refused⟩
  case medlarLoad =>
    intro id c reg r a l s hr hsrc hret hst hopen hlanes hshift hloads hid hleft hpoison hbad hgot hdest hheld
    have hdone := medlarPart_writes (val := servedValue r a) (s := dropReq id s) hloads hid hleft hpoison hbad hgot hdest hheld
    refine ⟨medlarPart c r.load 0 (servedValue r a) false (dropReq id s), ?_, ?_, ?_, ?_, ?_, ?_, hdone.others, hdone.mem⟩
    · rw [exec_loadReturn hr hret hst hopen, hsrc]
      simp only [medlarReturn_served _ hst hlanes, hshift]
    · rw [hdone.reqs, dropReq_find]
    · rw [hdone.self]
      exact Tab.get_set_self ..
    · intro i hi
      rw [hdone.self, gReg, Tab.get_set_of_ne _ _ _ hi]
      rfl
    · rw [hdone.self]
    · rw [hdone.self]
      rfl
  case groupLoad =>
    intro id g r x l s hr hsrc hret hst hopen hx hl hleft hbad
    obtain ⟨u, hu, hret'⟩ := groupReturn_served (g := g) (dropReq id s) hst
    have hlast := loadPart_last (got := r.lanes) ((hu.groupOf g).trans hx) hl hleft hbad
    refine ⟨retireLoad g { l with got := r.lanes.foldl (fun m a => m.put a.lane a.res) l.got, left := 0 } x u, _, ?_, ?_,
      groupOf_setGroup_self .., rfl, retireLoad_gone _ x.loads, rfl, hu.mem⟩
    · rw [exec_loadReturn hr hret hst hopen, hsrc]
      simp only [hret', hlast]
    · exact (congrArg (·.find id) hu.reqs).trans (dropReq_find id s)
  case ack =>
    intro id r s hr hret hst hopen
    exact ⟨dropReq id s, exec_writeAck_served hr hret hst hopen, dropReq_find id s, fun i hi => dropReq_find_of_ne s hi, rfl⟩
  case failMedlar =>
    intro id c r f s hr hret hst hopen hsrc
    refine ⟨_, exec_writeAck_failed hr hret hst hopen, ?_⟩
    rw [hsrc, noteFailed]
    exact ⟨dropReq_find id s, by rw [medlarOf_setMedlar_self]; rfl, rfl⟩
  case failGroup =>
    intro id g r x f s hr hret hst hopen hsrc hx
    obtain ⟨hself, hframe⟩ := noteFailed_group (s := dropReq id s) f hx
    refine ⟨_, _, exec_writeAck_failed hr hret hst hopen, ?_, hsrc ▸ hself, rfl, ?_⟩
    · rw [hsrc, hframe]
      exact dropReq_find id s
    · rw [hsrc, hframe]
      rfl
  case reportMedlar =>
    intro id c r e s hr hret he hopen hsrc
    obtain ⟨hreq, hmem, hcore⟩ := reportedFrom_keeps id s hsrc
    refine ⟨_, exec_impreciseReport_medlar hr hret he hopen hsrc, by rw [medlarReport_mem, hmem], ?_, ?_⟩
    · intro h
      rw [medlarReport_held _ (by rw [hcore]; exact h), medlarOf_setMedlar_self, hcore]
      exact ⟨rfl, rfl, hreq⟩
    · intro hrun hloads hsys hheld
      obtain ⟨u, htaken, hu⟩ := medlarReport_taken { cause := e, va := r.va } (by rw [hcore]; exact hrun)
        (by rw [hcore]; exact hloads) (by rw [hcore]; exact hsys) (by rw [hcore]; exact hheld)
      rw [htaken, medlarOf_medlarTrap_self, hu, hcore]
      simp only [hrun, if_true, Bool.false_eq_true, if_false, Nat.add_zero, and_self]
  case reportGroup =>
    intro id g r e x s hr hret he hopen hsrc hx hplace
    obtain ⟨hreqs, hmem⟩ := groupTrap_keeps (f := impreciseFault s r e) (s := dropReq id s) hx
    refine ⟨groupTrap g (impreciseFault s r e) (dropReq id s), _, _, ?_, ?_, groupOf_groupTrap_self (s := dropReq id s) hx, rfl,
      impreciseFault_imprecise s r e, impreciseFault_cause he, rfl, hmem⟩
    · rw [exec_impreciseReport_group hr hret he hopen hsrc (reportHeld_resident hx hplace),
        groupReport_resident (s := dropReq id s) hx hplace]
    · rw [hreqs, dropReq_find]
  case again =>
    intro id g line r x s hr hst hsrc hx hfits hline
    exact ⟨_, exec_requestRetranslate_ok hr hst hsrc hx hfits hline, Tab.find_put_self .., fun i hi => Tab.find_put_of_ne _ _ hi, rfl⟩
  case refused =>
    intro id seg r s hr hst hx
    have hrec := countSegFault_onlyRecords s
    refine ⟨_, exec_requestRetranslate_fault hr hst hx, Tab.find_put_self .., fun i hi => ?_, ?_⟩
    · have hreqs : (countSegFault s).reqs = s.reqs := by rw [hrec]
      exact (Tab.find_put_of_ne _ _ hi).trans (by rw [hreqs])
    · rw [setReq, hrec]
      rfl

end Sys2Proof.Machine
